-- ==== Sys2Proof/Word.lean ====
section
/-! DEFINITION. The word types of the panel (R3) and the plainest helpers over them. -/

namespace Sys2Proof

/-- Eight bits (R3). -/
abbrev Byte := BitVec 8
/-- Sixteen bits (R3). -/
abbrev Half := BitVec 16
/-- Thirty-two bits (R3); also one parcel (R134). -/
abbrev Word := BitVec 32
/-- Sixty-four bits (R3). -/
abbrev Dword := BitVec 64
/-- A general register number (R137). -/
abbrev GR := BitVec 5
/-- A vector register number (R137). -/
abbrev VR := BitVec 4
/-- A mask register number (R137). -/
abbrev MR := BitVec 3
/-- An accumulator tile number (R137). -/
abbrev AT := BitVec 4
/-- A wait counter number (R137). -/
abbrev WC := BitVec 2
/-- A context slot number (R44). -/
abbrev SlotId := BitVec 4

/-- A table kept as pairs of a key and a value, keys strictly rising, no value equal to the
default that an unlisted key reads as. -/
abbrev Tbl (α : Type) := List (Nat × α)

end Sys2Proof
end

