-- ==== Sys2Proof/Config.lean ====
section
/-! DEFINITION. What the spec leaves open, as constants without a body: nothing can evaluate them or
prove a value of them. The log entries named say where each stands. -/

namespace Sys2Proof.Config

/-- Race-clock ticks that the d-th step takes, none or more (log entry 6). -/
opaque stepTicks (d : Nat) : Nat

/-- How many core cycles of the d-th step the core with node key k is stalled on backpressure; taken modulo one more
than the cycles of the step (R53, log entry 6). -/
opaque stalledCycles (d k : Nat) : Nat

/-- The byte a read at draw d gives for address a inside a word that carries the poison code
(R88, log entry 9). -/
opaque poisonByte (d a : Nat) : BitVec 8

/-- Where inside the bound of R75 the result of `VEXP2` stands for an input and the captured controls
`RM`, `BSR`, `FTZ` and `DAZ` of `FPCR` (log entry 10). -/
opaque exp2Choice (x : BitVec 32) (f : BitVec 14) : Nat
/-- As exp2Choice, for `VLOG2` (log entry 10). -/
opaque log2Choice (x : BitVec 32) (f : BitVec 14) : Nat
/-- As exp2Choice, for `VRCPA` (log entry 10). -/
opaque rcpaChoice (x : BitVec 32) (f : BitVec 14) : Nat
/-- As exp2Choice, for `VRSQA` (log entry 10). -/
opaque rsqaChoice (x : BitVec 32) (f : BitVec 14) : Nat

/-- A byte that a stream reads at address a of another panel at draw d (log entry 15). -/
opaque peerByte (d a : Nat) : BitVec 8

/-- The cause number with which a stream access to another panel ends at draw d; one that is neither 3, 4
nor 5 is success (log entry 15). -/
opaque peerOutcome (d : Nat) : Nat

/-- Entries the boathouse controller's log queue holds (R255, log entry 11). -/
opaque logRoom : Nat

/-- `TVAL` of an asynchronous cause that arises again with another value while it is pending (log entry 13). -/
opaque pendingValue (old new : BitVec 64) : BitVec 64

/-- The bytes of a signer's public key, modulus and exponent, whose digest gives the KEYID (R259, log entry 12). -/
opaque keyBytes (n e : Nat) : List (BitVec 8)

/-- Which of the moves open to a stream its engine makes at draw d (R125, R241, log entry 16). -/
opaque streamChoice (d : Nat) : Nat

/-- The CAUSE of a stream slot whose access ended with a CXL error at draw d (R242, R328, log entry 22). -/
opaque cxlCause (d : Nat) : BitVec 5

/-- Which of one core's waiting stores to different words a cluster port performs at draw d (R115, log
entry 17). -/
opaque portChoice (d : Nat) : Nat

/-- The ring-oscillator count below which a quad is slow (R366, log entry 41). -/
opaque slowRoc : BitVec 20

/-- Digest of the fuse set of the tile that trains in site n at draw d (R376, log entry 65). -/
opaque fuseSet (d n : Nat) : Nat

/-- The nonce of the attestation at draw d (R376, log entry 65). -/
opaque tileNonce (d : Nat) : BitVec 256

/-- Digest of the list of enrolled keys, each its domain and KEYID, in the order of their enrolment (R376, log entry 65). -/
opaque keyListDigest (keys : List (BitVec 16 × Nat)) : Nat

/-- Digest of the quote a tile signs with its identity key over a nonce and what its measurement register holds: firmware digest,
retirement list, fuse set (R376, log entry 65). -/
opaque tileQuote (site : Nat) (nonce : BitVec 256) (firmware : Nat) (retired : List (Nat × Nat)) (fuses : Nat) : Nat

/-- Signature of a panel quote with the panel identity key (R376, log entry 65). -/
opaque panelSignature (nonce : BitVec 256) (firmware : Nat) (sites : List (Nat × Nat)) (keys : Nat) : Nat

/-- The text of the standard scheduler, 0x9000 to 0x9FFF (R262, R403, log entry 75). -/
opaque standardText : List (BitVec 8)

/-- Place of the standard paddle routine in the standard scheduler's code, in words from 0x94C0 on, modulo its length (R280, R403, log
entry 75). -/
opaque paddleRoutine : Nat

/-- What the alignment exchange of a region at a cold start gives: the ticks by which its first edge leads the reference, at draw d (R28,
log entry 81). -/
opaque regionLead (d r : Nat) : Int

end Sys2Proof.Config
end

