-- ==== Sys2Proof/Syntax.lean ====
section
/-! DEFINITION. The instructions (R140-R156) and the operations and events of the panel's other
agents: one constructor per row of spec/opcode_table.json: the instructions first, then the operations and events. -/

namespace Sys2Proof

/-- Scalar float types, FN 5:4 of major 0x1B (R144). -/
inductive FTy | f32 | f16 | bf16
  deriving DecidableEq, Repr

/-- Type codes TY 0x0-0xE (R138). -/
inductive Ty | i8 | n8 | i16 | n16 | i32 | n32 | i64 | n64 | f32 | f16 | bf16 | bk4 | bk8 | bk16 | bs8
  deriving DecidableEq, Repr

/-- Widths of `SEXT` and `ZEXT` (R142). -/
inductive ExtW | b8 | b16 | b32
  deriving DecidableEq, Repr

/-- Access widths of `LD`, codes 0-6 (R139). -/
inductive LdW | i8 | n8 | i16 | n16 | i32 | n32 | d64
  deriving DecidableEq, Repr

/-- Access widths of `ST`, codes 0, 2, 4, 6 (R139). -/
inductive StW | w8 | w16 | w32 | w64
  deriving DecidableEq, Repr

/-- Number types of `FCVT` (R145). -/
inductive Num | f32 | f16 | bf16 | i32 | n32 | i64 | n64
  deriving DecidableEq, Repr

/-- Rounding suffixes of `FCVT`; `dyn` takes `FPCR.RM` (R145). -/
inductive Rnd | dyn | rne | rtz | rup | rdn
  deriving DecidableEq, Repr

/-- Stream access classes (R125, R153). -/
inductive SClass | stream | random | ordered
  deriving DecidableEq, Repr

/-- Scopes (R117). -/
inductive Scope | core | cluster | tile | panel | system
  deriving DecidableEq, Repr

/-- Operations of `AMO` (R156, R247). -/
inductive AmoOp | add | swap | and | or | xor | min | max | minn | maxn
  deriving DecidableEq, Repr

/-- Widths of an atomic (R156). -/
inductive AmoW | b32 | b64
  deriving DecidableEq, Repr

/-- Lane classes a send may name (R93, R155). -/
inductive Lc | c0 | c2 | c3
  deriving DecidableEq, Repr

/-- The control registers (R46). -/
inductive Cr
  | fpcr | tid | shard | grp | domid | rclk | tcmp | prio | tcause | tpc | tval | tstat | rigs
  | seatb | kvec | rampf | seamt | sscr | pmc (k : BitVec 3)
  deriving DecidableEq, Repr

/-- What the code of a store says of one 64-bit word at a visit (R355): an input of the
environment. -/
inductive Ecc | corrected | uncorrectable
  deriving DecidableEq, Repr

/-- What a triad copy presents as its next transaction (R346): its digest, or nothing. -/
structure Presented where
  copy0 : Option Nat
  copy1 : Option Nat
  copy2 : Option Nat
  deriving DecidableEq, Repr

/-- A signer's RSA-3072 public key: modulus and exponent (R261). -/
structure PubKey where
  n : Nat
  e : Nat
  deriving DecidableEq, Repr

/-- What a domain is created with (R30, R297, R305, R306, R331). -/
structure DomainSpec where
  dom      : BitVec 16
  key      : BitVec 13
  /-- The two keys the boathouse controller writes into that slot, the first in the low half (R306). -/
  keys     : BitVec 512
  /-- Panel index to system number (R30). -/
  panels   : List (BitVec 8 × BitVec 10)
  /-- Rectangles of nodes (x0, y0, x1, y1) of this panel that the grant covers (R31). -/
  nodes    : List (Nat × Nat × Nat × Nat)
  /-- Ranges (first, last) of the far-memory grant (R305). -/
  far      : List (Nat × Nat)
  /-- Root table (R297). -/
  root     : BitVec 52
  /-- FPAs of the free tables of the pool (R297). -/
  pool     : List (BitVec 52)
  deriving DecidableEq, Repr

/-- What the boathouse controller finds and sets at power-on (R327, R330, R353). -/
structure BringUp where
  /-- Seated sites. -/
  seated   : List Nat
  /-- CXL ports with the HOST role, the domain of each and the key slot bound to it (R330). -/
  hosts    : List (Nat × BitVec 16 × BitVec 13)
  /-- MEMORY ports whose link trained. -/
  trained  : List Nat
  /-- Bank elements (x, y) of the HDM window list. -/
  window   : List (Nat × Nat)
  /-- Domain of each queue (R282). -/
  queues   : List (Nat × BitVec 16)
  sysnum   : BitVec 10
  /-- The panel is the system's root panel or alone (R324). -/
  root     : Bool
  deriving DecidableEq, Repr

/-- A physical place: site, region row of the site (16 * region + row) and physical column (R18). -/
structure Place where
  site : Nat
  row  : Nat
  col  : Nat
  deriving DecidableEq, Repr

/-- One constructor per row of spec/opcode_table.json. -/
inductive Instr
  -- Integer, class A, major 0x01 (R142, R167, R168)
  | add (d a b : GR) | sub (d a b : GR) | mul (d a b : GR) | mulh (d a b : GR) | mulhn (d a b : GR)
  | div (d a b : GR) | divn (d a b : GR) | rem (d a b : GR) | remn (d a b : GR)
  | madd (d a b c : GR)
  | and (d a b : GR) | or (d a b : GR) | xor (d a b : GR) | shl (d a b : GR) | shr (d a b : GR)
  | sra (d a b : GR) | rol (d a b : GR)
  | clz (d a : GR) | ctz (d a : GR) | popc (d a : GR)
  | min (d a b : GR) | minn (d a b : GR) | max (d a b : GR) | maxn (d a b : GR)
  | cmpeq (d a b : GR) | cmplt (d a b : GR) | cmpltn (d a b : GR) | cmple (d a b : GR)
  | cmplen (d a b : GR)
  | sel (d a b c : GR)
  | sext (d a : GR) (w : ExtW) | zext (d a : GR) (w : ExtW)
  -- Immediate forms, class B (R169, R170)
  | addi (d a : GR) (i : BitVec 16) | andi (d a : GR) (i : BitVec 16) | ori (d a : GR) (i : BitVec 16)
  | xori (d a : GR) (i : BitVec 16)
  | shli (d a : GR) (k : BitVec 6) | shri (d a : GR) (k : BitVec 6) | srai (d a : GR) (k : BitVec 6)
  /-- `l` is LEN - 1 (R141). -/
  | bfx (d a : GR) (l p : BitVec 6)
  | bfi (d a : GR) (l p : BitVec 6)
  | liShort (d : GR) (i : BitVec 16)
  | addpc (d : GR) (i : BitVec 16)
  -- Address forming (R171) and tag table (R178)
  | mkaAbs (d b c : GR) | mkaGrp (d b c : GR) | mkaCore (d b c : GR)
  | tlook (d a : GR) | tset (d a b : GR) | tclr (a : GR)
  -- Branches and jumps (R172, R173)
  | beq (a b : GR) (o : BitVec 16) | bne (a b : GR) (o : BitVec 16) | blt (a b : GR) (o : BitVec 16)
  | bge (a b : GR) (o : BitVec 16) | bltn (a b : GR) (o : BitVec 16) | bgen (a b : GR) (o : BitVec 16)
  | jmp (o : BitVec 16) | jal (l : GR) (o : BitVec 16) | jalr (d a : GR) (i : BitVec 16)
  -- Loads and stores (R174-R176)
  | ld (t a : GR) (w : LdW) (d : BitVec 13) | st (t a : GR) (w : StW) (d : BitVec 13)
  | ldm (t a l : GR) (d : BitVec 11) | stm (t a l : GR) (d : BitVec 11)
  -- Control registers (R177)
  | crrd (d : GR) (n : Cr) | crrdSeamt (d a : GR) | crwr (a : GR) (n : Cr)
  | crwrFpcr (a : GR) | crwrTid (a : GR) | crwrTcmp (a : GR) | crwrPrio (a : GR) | crwrTstat (a : GR)
  | crwrRigs (a : GR) | crwrSscr (a : GR)
  -- Scalar floating point (R179, R180)
  | fadd (d a b : GR) (t : FTy) | fsub (d a b : GR) (t : FTy) | fmul (d a b : GR) (t : FTy)
  | ffma (d a b c : GR) (t : FTy) | fdiv (d a b : GR) (t : FTy) | fsqrt (d a : GR) (t : FTy)
  | fmin (d a b : GR) (t : FTy) | fmax (d a b : GR) (t : FTy)
  | fcmpeq (d a b : GR) (t : FTy) | fcmplt (d a b : GR) (t : FTy) | fcmple (d a b : GR) (t : FTy)
  | fclass (d a : GR) (t : FTy)
  | fcvt (d a : GR) (r : Rnd) (t s : Num)
  -- Vector arithmetic (R188-R193)
  | vmov (d a : VR) (m : Option MR) (y : Ty)
  | vadd (d a b : VR) (m : Option MR) (y : Ty) | vsub (d a b : VR) (m : Option MR) (y : Ty)
  | vmul (d a b : VR) (m : Option MR) (y : Ty) | vfma (d a b : VR) (m : Option MR) (y : Ty)
  | vmin (d a b : VR) (m : Option MR) (y : Ty) | vmax (d a b : VR) (m : Option MR) (y : Ty)
  | vabs (d a : VR) (m : Option MR) (y : Ty) | vneg (d a : VR) (m : Option MR) (y : Ty)
  | vand (d a b : VR) (m : Option MR) (y : Ty) | vor (d a b : VR) (m : Option MR) (y : Ty)
  | vxor (d a b : VR) (m : Option MR) (y : Ty)
  | vshl (d a b : VR) (m : Option MR) (y : Ty) | vshr (d a b : VR) (m : Option MR) (y : Ty)
  | vsra (d a b : VR) (m : Option MR) (y : Ty)
  | vsel (d a b : VR) (m : MR) (y : Ty)
  | vcmpEq (d : MR) (a b : VR) (m : Option MR) (y : Ty) | vcmpNe (d : MR) (a b : VR) (m : Option MR) (y : Ty)
  | vcmpLt (d : MR) (a b : VR) (m : Option MR) (y : Ty) | vcmpLe (d : MR) (a b : VR) (m : Option MR) (y : Ty)
  | vcmpGt (d : MR) (a b : VR) (m : Option MR) (y : Ty) | vcmpGe (d : MR) (a b : VR) (m : Option MR) (y : Ty)
  | vredAdd (d a : VR) (m : Option MR) (y : Ty) | vredMin (d a : VR) (m : Option MR) (y : Ty)
  | vredMax (d a : VR) (m : Option MR) (y : Ty) | vredOr (d a : VR) (m : Option MR) (y : Ty)
  | vperm (d a b : VR) (m : Option MR) (y : Ty)
  -- Vector memory and lane moves (R186-R188)
  | vldBody (v : VR) (a : GR) (d : BitVec 5) | vldSide (v : VR) (a : GR) (d : BitVec 5)
  | vldMask (v : MR) (a : GR) (d : BitVec 5)
  | vstBody (v : VR) (a : GR) (d : BitVec 5) | vstSide (v : VR) (a : GR) (d : BitVec 5)
  | vstMask (v : MR) (a : GR) (d : BitVec 5)
  | vlds (v : VR) (a b : GR) (m : Option MR) (y : Ty) | vsts (v : VR) (a b : GR) (m : Option MR) (y : Ty)
  | vgath (v : VR) (a : GR) (i : VR) (m : Option MR) (y : Ty)
  | vscat (v : VR) (a : GR) (i : VR) (m : Option MR) (y : Ty)
  | vbcast (v : VR) (a : GR) (m : Option MR) (y : Ty)
  | vins (v : VR) (a b : GR) (y : Ty) | vext (v : VR) (a b : GR) (y : Ty)
  -- Masks (R199)
  | mand (d a b : MR) | mor (d a b : MR) | mxor (d a b : MR) | mnot (d a : MR)
  | mpop (d : GR) (a : MR) | mfirst (d : GR) (a : MR)
  -- Vector conversion and special functions (R194-R198)
  | vcvt (d a : VR) (s : Ty) (m : Option MR) (y : Ty)
  | vpackbk (d a b : VR) (y : Ty) | vunbk (d a : VR) (k : BitVec 4) (m : Option MR) (y : Ty)
  | vscale (d a b : VR) (y : Ty)
  | vexp2 (d a : VR) (m : Option MR) | vlog2 (d a : VR) (m : Option MR)
  | vrcpa (d a : VR) (m : Option MR) | vrsqa (d a : VR) (m : Option MR)
  -- Tensor (R210-R218)
  | mma (t : AT) (a b : GR) (w : WC) (y : Ty) | mmas (t : AT) (a b : GR) (w : WC)
  | mafd (a : GR) | mbfd (a : GR) | accz (t : AT)
  | accld (t : AT) (a : GR) (w : WC) (y : Ty) | accst (t : AT) (a : GR) (w : WC) (y : Ty)
  | accrn (t : AT) (a : GR) | accsc (t : AT) (d b : GR) | wait (c : BitVec 10) (w : WC)
  -- Rig (R219-R223)
  | rig (a : GR) (l : BitVec 5) | rigsv (a : GR) (i : BitVec 16) | rigld (a : GR) (i : BitVec 16)
  -- Message, stream, synchronisation, system (R228-R256)
  | nop
  | recv (d a : GR) (s : BitVec 6) | recvv (v : VR) (a : GR) (s : BitVec 6) | peek (d : GR) (s : BitVec 6)
  | seatset (d a b : GR) (s : BitVec 6) | seatclr (d : GR) (s : BitVec 6) | join (d a : GR)
  | sopen (d a : GR) (w : WC) (c : SClass)
  | sctlClose (d : GR) (k : BitVec 2) | sctlAbort (d : GR) (k : BitVec 2) | sctlAdvance (d : GR) (k : BitVec 2)
  | swait (d : GR) (k : BitVec 2) | fwait (a b : GR) | fence (s : Scope)
  | watch (d a : GR) | sleep (d : GR) | yield | wake (d a : GR)
  | tqpush (d a : GR) (p : BitVec 2) | tqpop (d : GR)
  | barr (d : GR) (b : BitVec 3) | bwait (a : GR) (b : BitVec 3)
  | siteq (d a : GR)
  | coxcallPoisoned (d a b : GR)
  /-- `n` is the service number: 1 is LOG, 3-63 are not allocated and answer UNSUP (R255). -/
  | coxcallLog (d a b : GR) (n : BitVec 6)
  | coxcallCheckpoint (d a b : GR)
  | sret | halt | haltSlot (a : GR) | trap (i : BitVec 16)
  -- Long forms (R154-R156)
  | liLong (d : GR) (v : BitVec 32) | liHi (d : GR) (v : BitVec 32)
  | send (d a b c : GR) (l : Lc) (h : BitVec 12) | sendv (d a : GR) (b : VR) (c : GR) (l : Lc) (h : BitVec 12)
  | sendr (d a b c : GR) (s : Scope) (l : Lc) (h : BitVec 12)
  | finish (d a c : GR) (l : Lc) (h : BitVec 12) | renorm (d a b c : GR) (h : BitVec 12)
  | amo (d a b : GR) (w : AmoW) (o : AmoOp) | cas (d a b c : GR) (w : AmoW)
  -- Events of the selected core (R49, R55, R83, R40, R201-R217, R241-R242, R304)
  | asyncTrapEntry | timerExpiry (slot : SlotId) | idleIssueResume (cox : Bool) | clusterPortAccess
  | mmaExecute | mmasExecute | acczPerform | accrnPerform | accldPerform | accstPerform
  | streamLegStart (k : BitVec 2) | streamCompletion (k : BitVec 2) | legRewind (k : BitVec 2)
  -- Fetches that give no instruction (R136, R89)
  | illegalInstruction (p0 : BitVec 32) | poisonedFetch
  -- Arrivals; `n` is the packet's place among the packets in flight (R95-R107, R127-R128)
  | dataArrival (n : Nat) | finishArrival (n : Nat) | replyArrival (n : Nat) | finishResend (n : Nat)
  | treeBlockDelivery (n : Nat) | renormFromParent (n : Nat)
  | treeFinishForward (node : Nat) (gid : BitVec 16) (chan : BitVec 12) (round : BitVec 8)
  | rootFlagWrite (node : Nat) (gid : BitVec 16) (chan : BitVec 12) (round : BitVec 8)
  | barrierArrival (n : Nat) | barrierRelease (n : Nat)
  | homeAtomic (n : Nat) | atomicResend | atomicBusyResend | lowAcknowledgement (n : Nat)
  | proxyAtomic (site : Nat) (q : BitVec 4)
  | watchRequest (n : Nat) | watchWakeArrival (n : Nat) | wakeArrival (n : Nat)
  -- Cox and health events (R108, R109, R355-R375)
  | deadlockProbe (slot : SlotId) (id : BitVec 16) | watchdogExpiry (slot : SlotId)
  | scrubVisit (node line : Nat) (found : List (Nat × Ecc)) | revisit (node line : Nat) (found : List (Nat × Ecc))
  | bucketLeak (node : Nat)
  | umpireInterval (umpire : Nat) (differs : Option Nat) | operatingPointChange (quad : Nat)
  | thermalCapStep (quad : Nat) (temp : BitVec 16) | phaseLoss (site group : Nat)
  | governorTrimRaise (quad : Nat) | rampSample (tiles : List (Nat × Nat)) (rest : Nat)
  | paddleCreation (own : Option (BitVec 16))
  | ptpTimestamp (ns : BitVec 64) (locked : Bool) | monitorRead (quad : Nat) (temp : BitVec 16) (vmv : BitVec 12) (roc : BitVec 20)
  | alignmentRemeasure (region : Nat) (phase : Int)
  | counterExchange (port : Nat) (t1 t2 t3 t4 : Nat) (shed : Bool)
  -- Links and routes (R312-R320)
  | linkReplay (link fails : Nat) (good : BitVec 8) | sliceRetest (link : Nat) (good : BitVec 8)
  | linkRetrain (link : Nat) (good : BitVec 8) (peer : BitVec 10) (pport : BitVec 4) (hops : Nat)
  | routeSwitch (cls : BitVec 2) (site : Nat)
  -- Sites and triads (R334-R353)
  | contactMade (site : Nat) (tile : Option (List (Nat × Nat))) | bringUpStart (site : Nat) (leads : List Int) | trainingPass (site : Nat)
  | trainingFailure (site : Nat) | siteAdmission (site : Nat) | drain (site : Nat) | readmit (site : Nat)
  | contactLost (site : Nat) | surpriseRemoval (site : Nat) | lostCleanupComplete (site : Nat)
  | drainComplete (site : Nat) | drainDeadline (site : Nat)
  | votedTransaction (site : Nat) (p : Presented) | copyReset (site : Nat) (copy : BitVec 2)
  | triadCheckpoint (site : Nat) (p : Presented) (reloaded : Nat) | heartbeat (seen : Bool) | deputyTakeover
  | panelBringUp (b : BringUp) | quoteRequest (nonce : BitVec 256)
  | keyEnrolment (dom : BitVec 16) (key : PubKey) (signed : Bool) | keyRevocation (dom : BitVec 16) (key : Nat) (signed : Bool)
  -- Kernels and queues (R264-R309)
  | register (slot : BitVec 4) | reside (slot : BitVec 4) | evict (slot : BitVec 4) | retire (slot : BitVec 4)
  | queueActivate (q : BitVec 6) (dom : BitVec 16) | queueStop (q : BitVec 6) (dom : BitVec 16)
  | doorbell (q : BitVec 6) (dom : BitVec 16) (tail : BitVec 16) | commandFetch (q : BitVec 6)
  | launch (q : BitVec 6) | copy (q : BitVec 6) (err : Option Nat) | signalSet (q : BitVec 6) | signalAdd (q : BitVec 6)
  | waitsig (q : BitVec 6) | queueFence (q : BitVec 6)
  | powerBudget (q : BitVec 6) | powerRamp (q : BitVec 6) | powerSuspend (q : BitVec 6) | powerResume (q : BitVec 6)
  | pageMap (q : BitVec 6) | pageUnmap (q : BitVec 6) | pageMigrate (q : BitVec 6) (err : Option Nat)
  | admissionPass | panelRoutingWrite (dom : BitVec 16) (sys : BitVec 10) (v : BitVec 16)
  | controlWindowWrite (dom : BitVec 16) (off : Nat) (size : Nat) (v : BitVec 64)
  | hdmWindowAccess (port : Nat) (w : Nat) (size : Nat) (v : Option (BitVec 64))
  -- Groups (R273-R280, R302, R303)
  | placement (g : Nat) | groupStart (g : Nat) | groupRetirement (g : Nat) | cutComplete (g : Nat)
  | cutDeadline (g : Nat) | relaunch (g : Nat) | refusalRetry | faultLimit (site rec : Nat)
  -- Events of the environment (R19, R329, R30, R293, R271, R346)
  | routerFailure (p : Place) | cxlLinkTrainingChange (port : Nat) (trained : Bool)
  | domainCreation (d : DomainSpec) | peerPanelAdmission (gid : BitVec 16)
  | peerPanelGroupFault (gid : BitVec 16) (draining : Bool) | silentCopyTimeout (site : Nat)
  deriving DecidableEq, Repr

end Sys2Proof
end

