-- ==== Sys2Proof/WellFormed.lean ====
section
/-! DEFINITION. Which terms of Instr are instructions the encoding admits: the value limits of
R141, R140, R145, R182, R183, R194-R196, R210, R216, R150 and R255 that the operand types do not
say already. -/

namespace Sys2Proof

namespace Ty
/-- Integer types, TY 0x0-0x7 (R138). -/
def int : Ty → Bool
  | i8 | n8 | i16 | n16 | i32 | n32 | i64 | n64 => true
  | f32 | f16 | bf16 | bk4 | bk8 | bk16 | bs8 => false
/-- Signed integer types. -/
def signedInt : Ty → Bool
  | i8 | i16 | i32 | i64 => true
  | n8 | n16 | n32 | n64 | f32 | f16 | bf16 | bk4 | bk8 | bk16 | bs8 => false
/-- Float types, TY 0x8-0xA. -/
def float : Ty → Bool
  | f32 | f16 | bf16 => true
  | i8 | n8 | i16 | n16 | i32 | n32 | i64 | n64 | bk4 | bk8 | bk16 | bs8 => false
/-- Integer and float types, TY 0x0-0xA. -/
def intFloat (y : Ty) : Bool := y.int || y.float
/-- Block types of vector instructions, TY 0xB-0xD (R182). -/
def block : Ty → Bool
  | bk4 | bk8 | bk16 => true
  | i8 | n8 | i16 | n16 | i32 | n32 | i64 | n64 | f32 | f16 | bf16 | bs8 => false
/-- Types of `VGATH` and `VSCAT` (R182). -/
def gather : Ty → Bool
  | i32 | n32 | i64 | n64 | f32 => true
  | i8 | n8 | i16 | n16 | f16 | bf16 | bk4 | bk8 | bk16 | bs8 => false
/-- Types of `MMA` (R210). -/
def mma : Ty → Bool
  | bk4 | bk8 | bk16 | bf16 => true
  | i8 | n8 | i16 | n16 | i32 | n32 | i64 | n64 | f32 | f16 | bs8 => false
/-- Types of `ACCLD` and `ACCST` (R216). -/
def image : Ty → Bool
  | i32 | f32 | bk16 => true
  | i8 | n8 | i16 | n16 | n32 | i64 | n64 | f16 | bf16 | bk4 | bk8 | bs8 => false
/-- How many part numbers `VUNBK` allows (R196). -/
def parts : Ty → Nat
  | bk16 => 2
  | bk4 | bk8 => 4
  | i8 | n8 | i16 | n16 | i32 | n32 | i64 | n64 | f32 | f16 | bf16 | bs8 => 0
end Ty

/-- Float types of `FCVT` (R145). -/
def Num.isFloat : Num → Bool
  | .f32 | .f16 | .bf16 => true
  | .i32 | .n32 | .i64 | .n64 => false

/-- Registers the row CRRD reads: all but `SEAMT`, which has its own form (R45). -/
def Cr.readRow : Cr → Bool
  | .seamt => false
  | .fpcr | .tid | .shard | .grp | .domid | .rclk | .tcmp | .prio | .tcause | .tpc | .tval | .tstat
  | .rigs | .seatb | .kvec | .rampf | .sscr | .pmc _ => true

/-- Registers the row CRWR writes: those without a row of their own. -/
def Cr.writeRow : Cr → Bool
  | .fpcr | .tid | .tcmp | .prio | .tstat | .rigs | .sscr => false
  | .shard | .grp | .domid | .rclk | .tcause | .tpc | .tval | .seatb | .kvec | .rampf | .seamt
  | .pmc _ => true

/-- The encoding admits this instruction with these operands. The rows of operations and events
have no encoding and no limits. -/
def Instr.wellFormed : Instr → Bool
  | .bfx _ _ l p => decide (p.toNat + (l.toNat + 1) ≤ 64)
  | .bfi _ _ l p => decide (p.toNat + (l.toNat + 1) ≤ 64)
  | .ldm t _ l _ => decide (t.toNat ≤ l.toNat)
  | .stm t _ l _ => decide (t.toNat ≤ l.toNat)
  | .crrd _ n => n.readRow
  | .crwr _ n => n.writeRow
  | .fcvt _ _ _ t s => t != s && (t.isFloat || s.isFloat)
  | .vmov _ _ m y => y.intFloat || (y.block && m.isNone)
  | .vadd _ _ _ _ y => y.intFloat
  | .vsub _ _ _ _ y => y.intFloat
  | .vmul _ _ _ _ y => y.intFloat
  | .vfma _ _ _ _ y => y.intFloat
  | .vmin _ _ _ _ y => y.intFloat
  | .vmax _ _ _ _ y => y.intFloat
  | .vabs _ _ _ y => y.signedInt || y.float
  | .vneg _ _ _ y => y.signedInt || y.float
  | .vand _ _ _ _ y => y.intFloat
  | .vor _ _ _ _ y => y.intFloat
  | .vxor _ _ _ _ y => y.intFloat
  | .vshl _ _ _ _ y => y.int
  | .vshr _ _ _ _ y => y.int
  | .vsra _ _ _ _ y => y.int
  | .vsel _ _ _ _ y => y.intFloat
  | .vcmpEq _ _ _ _ y => y.intFloat
  | .vcmpNe _ _ _ _ y => y.intFloat
  | .vcmpLt _ _ _ _ y => y.intFloat
  | .vcmpLe _ _ _ _ y => y.intFloat
  | .vcmpGt _ _ _ _ y => y.intFloat
  | .vcmpGe _ _ _ _ y => y.intFloat
  | .vredAdd _ _ _ y => y.intFloat
  | .vredMin _ _ _ y => y.intFloat
  | .vredMax _ _ _ y => y.intFloat
  | .vredOr _ _ _ y => y.int
  | .vperm _ _ _ _ y => y.intFloat
  | .vlds _ _ _ m y => y.intFloat || (y.block && m.isNone)
  | .vsts _ _ _ m y => y.intFloat || (y.block && m.isNone)
  | .vgath _ _ _ _ y => y.gather
  | .vscat _ _ _ _ y => y.gather
  | .vbcast _ _ _ y => y.intFloat
  | .vins _ _ _ y => y.intFloat
  | .vext _ _ _ y => y.intFloat
  | .vcvt _ _ s _ y => y.intFloat && s.intFloat && y != s
  | .vpackbk _ _ _ y => y.block
  | .vunbk _ _ k _ y => y.block && decide (k.toNat < y.parts)
  | .vscale _ _ _ y => y.block
  | .mma _ _ _ _ y => y.mma
  | .accld _ _ _ y => y.image
  | .accst _ _ _ y => y.image
  | .wait c _ => c != 0
  | .coxcallLog _ _ _ n => n == 1 || decide (3 ≤ n.toNat)
  | .add .. | .sub .. | .mul .. | .mulh .. | .mulhn .. | .div .. | .divn .. | .rem .. | .remn ..
  | .madd .. | .and .. | .or .. | .xor .. | .shl .. | .shr .. | .sra .. | .rol .. | .clz ..
  | .ctz .. | .popc .. | .min .. | .minn .. | .max .. | .maxn .. | .cmpeq .. | .cmplt ..
  | .cmpltn .. | .cmple .. | .cmplen .. | .sel .. | .sext .. | .zext .. | .addi .. | .andi ..
  | .ori .. | .xori .. | .shli .. | .shri .. | .srai .. | .liShort .. | .addpc .. | .mkaAbs ..
  | .mkaGrp .. | .mkaCore .. | .tlook .. | .tset .. | .tclr .. | .beq .. | .bne .. | .blt ..
  | .bge .. | .bltn .. | .bgen .. | .jmp .. | .jal .. | .jalr .. | .ld .. | .st .. | .crrdSeamt ..
  | .crwrFpcr .. | .crwrTid .. | .crwrTcmp .. | .crwrPrio .. | .crwrTstat .. | .crwrRigs ..
  | .crwrSscr .. | .fadd .. | .fsub .. | .fmul .. | .ffma .. | .fdiv .. | .fsqrt .. | .fmin ..
  | .fmax .. | .fcmpeq .. | .fcmplt .. | .fcmple .. | .fclass .. | .vldBody .. | .vldSide ..
  | .vldMask .. | .vstBody .. | .vstSide .. | .vstMask .. | .mand .. | .mor .. | .mxor ..
  | .mnot .. | .mpop .. | .mfirst .. | .vexp2 .. | .vlog2 .. | .vrcpa .. | .vrsqa .. | .mmas ..
  | .mafd .. | .mbfd .. | .accz .. | .accrn .. | .accsc .. | .rig .. | .rigsv .. | .rigld ..
  | .nop .. | .recv .. | .recvv .. | .peek .. | .seatset .. | .seatclr .. | .join .. | .sopen ..
  | .sctlClose .. | .sctlAbort .. | .sctlAdvance .. | .swait .. | .fwait .. | .fence .. | .watch ..
  | .sleep .. | .yield .. | .wake .. | .tqpush .. | .tqpop .. | .barr .. | .bwait .. | .siteq ..
  | .coxcallPoisoned .. | .coxcallCheckpoint .. | .sret .. | .halt .. | .haltSlot .. | .trap ..
  | .liLong .. | .liHi .. | .send .. | .sendv .. | .sendr .. | .finish .. | .renorm .. | .amo ..
  | .cas .. | .asyncTrapEntry .. | .timerExpiry .. | .idleIssueResume .. | .clusterPortAccess ..
  | .mmaExecute .. | .mmasExecute .. | .acczPerform .. | .accrnPerform .. | .accldPerform ..
  | .accstPerform .. | .streamLegStart .. | .streamCompletion .. | .legRewind ..
  | .illegalInstruction .. | .poisonedFetch .. | .dataArrival .. | .finishArrival ..
  | .replyArrival .. | .finishResend .. | .treeBlockDelivery .. | .renormFromParent ..
  | .treeFinishForward .. | .rootFlagWrite .. | .barrierArrival .. | .barrierRelease ..
  | .homeAtomic .. | .atomicResend .. | .atomicBusyResend .. | .lowAcknowledgement ..
  | .proxyAtomic .. | .watchRequest .. | .watchWakeArrival .. | .wakeArrival .. | .deadlockProbe ..
  | .watchdogExpiry .. | .scrubVisit .. | .revisit .. | .bucketLeak .. | .umpireInterval ..
  | .operatingPointChange .. | .thermalCapStep .. | .phaseLoss .. | .governorTrimRaise ..
  | .rampSample .. | .paddleCreation .. | .ptpTimestamp .. | .monitorRead ..
  | .alignmentRemeasure .. | .counterExchange .. | .linkReplay .. | .sliceRetest ..
  | .linkRetrain .. | .routeSwitch .. | .contactMade .. | .bringUpStart .. | .trainingPass ..
  | .trainingFailure .. | .siteAdmission .. | .drain .. | .readmit .. | .contactLost ..
  | .surpriseRemoval .. | .lostCleanupComplete .. | .drainComplete .. | .drainDeadline ..
  | .votedTransaction .. | .copyReset .. | .triadCheckpoint .. | .heartbeat .. | .deputyTakeover ..
  | .panelBringUp .. | .quoteRequest .. | .keyEnrolment .. | .keyRevocation .. | .register ..
  | .reside .. | .evict .. | .retire .. | .queueActivate .. | .queueStop .. | .doorbell ..
  | .commandFetch .. | .launch .. | .copy .. | .signalSet .. | .signalAdd .. | .waitsig ..
  | .queueFence .. | .powerBudget .. | .powerRamp .. | .powerSuspend .. | .powerResume ..
  | .pageMap .. | .pageUnmap .. | .pageMigrate .. | .admissionPass .. | .panelRoutingWrite ..
  | .controlWindowWrite .. | .hdmWindowAccess .. | .placement .. | .groupStart ..
  | .groupRetirement .. | .cutComplete .. | .cutDeadline .. | .relaunch .. | .refusalRetry ..
  | .faultLimit .. | .routerFailure .. | .cxlLinkTrainingChange .. | .domainCreation ..
  | .peerPanelAdmission .. | .peerPanelGroupFault .. | .silentCopyTimeout .. => true

/-- A row of an operation or an event, which no word encodes. -/
def Instr.isEvent : Instr → Bool
  | .asyncTrapEntry .. | .timerExpiry .. | .idleIssueResume .. | .clusterPortAccess ..
  | .mmaExecute .. | .mmasExecute .. | .acczPerform .. | .accrnPerform .. | .accldPerform ..
  | .accstPerform .. | .streamLegStart .. | .streamCompletion .. | .legRewind ..
  | .illegalInstruction .. | .poisonedFetch .. | .dataArrival .. | .finishArrival ..
  | .replyArrival .. | .finishResend .. | .treeBlockDelivery .. | .renormFromParent ..
  | .treeFinishForward .. | .rootFlagWrite .. | .barrierArrival .. | .barrierRelease ..
  | .homeAtomic .. | .atomicResend .. | .atomicBusyResend .. | .lowAcknowledgement ..
  | .proxyAtomic .. | .watchRequest .. | .watchWakeArrival .. | .wakeArrival .. | .deadlockProbe ..
  | .watchdogExpiry .. | .scrubVisit .. | .revisit .. | .bucketLeak .. | .umpireInterval ..
  | .operatingPointChange .. | .thermalCapStep .. | .phaseLoss .. | .governorTrimRaise ..
  | .rampSample .. | .paddleCreation .. | .ptpTimestamp .. | .monitorRead ..
  | .alignmentRemeasure .. | .counterExchange .. | .linkReplay .. | .sliceRetest ..
  | .linkRetrain .. | .routeSwitch .. | .contactMade .. | .bringUpStart .. | .trainingPass ..
  | .trainingFailure .. | .siteAdmission .. | .drain .. | .readmit .. | .contactLost ..
  | .surpriseRemoval .. | .lostCleanupComplete .. | .drainComplete .. | .drainDeadline ..
  | .votedTransaction .. | .copyReset .. | .triadCheckpoint .. | .heartbeat .. | .deputyTakeover ..
  | .panelBringUp .. | .quoteRequest .. | .keyEnrolment .. | .keyRevocation .. | .register ..
  | .reside .. | .evict .. | .retire .. | .queueActivate .. | .queueStop .. | .doorbell ..
  | .commandFetch .. | .launch .. | .copy .. | .signalSet .. | .signalAdd .. | .waitsig ..
  | .queueFence .. | .powerBudget .. | .powerRamp .. | .powerSuspend .. | .powerResume ..
  | .pageMap .. | .pageUnmap .. | .pageMigrate .. | .admissionPass .. | .panelRoutingWrite ..
  | .controlWindowWrite .. | .hdmWindowAccess .. | .placement .. | .groupStart ..
  | .groupRetirement .. | .cutComplete .. | .cutDeadline .. | .relaunch .. | .refusalRetry ..
  | .faultLimit .. | .routerFailure .. | .cxlLinkTrainingChange .. | .domainCreation ..
  | .peerPanelAdmission .. | .peerPanelGroupFault .. | .silentCopyTimeout .. => true
  | .add .. | .sub .. | .mul .. | .mulh .. | .mulhn .. | .div .. | .divn .. | .rem .. | .remn ..
  | .madd .. | .and .. | .or .. | .xor .. | .shl .. | .shr .. | .sra .. | .rol .. | .clz ..
  | .ctz .. | .popc .. | .min .. | .minn .. | .max .. | .maxn .. | .cmpeq .. | .cmplt ..
  | .cmpltn .. | .cmple .. | .cmplen .. | .sel .. | .sext .. | .zext .. | .addi .. | .andi ..
  | .ori .. | .xori .. | .shli .. | .shri .. | .srai .. | .bfx .. | .bfi .. | .liShort ..
  | .addpc .. | .mkaAbs .. | .mkaGrp .. | .mkaCore .. | .tlook .. | .tset .. | .tclr .. | .beq ..
  | .bne .. | .blt .. | .bge .. | .bltn .. | .bgen .. | .jmp .. | .jal .. | .jalr .. | .ld ..
  | .st .. | .ldm .. | .stm .. | .crrd .. | .crrdSeamt .. | .crwr .. | .crwrFpcr .. | .crwrTid ..
  | .crwrTcmp .. | .crwrPrio .. | .crwrTstat .. | .crwrRigs .. | .crwrSscr .. | .fadd .. | .fsub ..
  | .fmul .. | .ffma .. | .fdiv .. | .fsqrt .. | .fmin .. | .fmax .. | .fcmpeq .. | .fcmplt ..
  | .fcmple .. | .fclass .. | .fcvt .. | .vmov .. | .vadd .. | .vsub .. | .vmul .. | .vfma ..
  | .vmin .. | .vmax .. | .vabs .. | .vneg .. | .vand .. | .vor .. | .vxor .. | .vshl .. | .vshr ..
  | .vsra .. | .vsel .. | .vcmpEq .. | .vcmpNe .. | .vcmpLt .. | .vcmpLe .. | .vcmpGt ..
  | .vcmpGe .. | .vredAdd .. | .vredMin .. | .vredMax .. | .vredOr .. | .vperm .. | .vldBody ..
  | .vldSide .. | .vldMask .. | .vstBody .. | .vstSide .. | .vstMask .. | .vlds .. | .vsts ..
  | .vgath .. | .vscat .. | .vbcast .. | .vins .. | .vext .. | .mand .. | .mor .. | .mxor ..
  | .mnot .. | .mpop .. | .mfirst .. | .vcvt .. | .vpackbk .. | .vunbk .. | .vscale .. | .vexp2 ..
  | .vlog2 .. | .vrcpa .. | .vrsqa .. | .mma .. | .mmas .. | .mafd .. | .mbfd .. | .accz ..
  | .accld .. | .accst .. | .accrn .. | .accsc .. | .wait .. | .rig .. | .rigsv .. | .rigld ..
  | .nop .. | .recv .. | .recvv .. | .peek .. | .seatset .. | .seatclr .. | .join .. | .sopen ..
  | .sctlClose .. | .sctlAbort .. | .sctlAdvance .. | .swait .. | .fwait .. | .fence .. | .watch ..
  | .sleep .. | .yield .. | .wake .. | .tqpush .. | .tqpop .. | .barr .. | .bwait .. | .siteq ..
  | .coxcallPoisoned .. | .coxcallLog .. | .coxcallCheckpoint .. | .sret .. | .halt ..
  | .haltSlot .. | .trap .. | .liLong .. | .liHi .. | .send .. | .sendv .. | .sendr .. | .finish ..
  | .renorm .. | .amo .. | .cas .. => false

end Sys2Proof
end

