-- ==== Sys2Proof/Decode.lean ====
section
/-! DEFINITION. Decoding (R134-R156) and, after it, the encoder of the same encoding tables. Words
are natural numbers below 2^32; a field high:low of a word w is w / 2^low % 2^width. -/

namespace Sys2Proof

/-- Why a word is no instruction. Each of these gives ILLEGAL (R136). -/
inductive DecodeError
  /-- The word 0x0000_0000 (R135). -/
  | zeros
  /-- The word 0xFFFF_FFFF (R135). -/
  | ones
  /-- A major never allocated (R141). -/
  | major
  /-- A function code never allocated (R142-R156). -/
  | function
  /-- A type, width, class, scope or rounding code never allocated (R138, R139, R145, R117). -/
  | code
  /-- A field marked zero holds a non-zero bit (R136). -/
  | field
  /-- A value the instruction does not allow (R136). -/
  | value
  /-- Fewer bytes than the parcels need. -/
  | short
  deriving DecidableEq, Repr

/-- What decoding answers. -/
abbrev Decoded := Except DecodeError Instr

/-! Codes of the enumerated fields. -/

/-- TY (R138). -/
def Ty.ofCode : Nat → Option Ty
  | 0 => some .i8 | 1 => some .n8 | 2 => some .i16 | 3 => some .n16 | 4 => some .i32 | 5 => some .n32
  | 6 => some .i64 | 7 => some .n64 | 8 => some .f32 | 9 => some .f16 | 10 => some .bf16
  | 11 => some .bk4 | 12 => some .bk8 | 13 => some .bk16 | 14 => some .bs8 | _ => none
/-- TY (R138). -/
def Ty.code : Ty → Nat
  | .i8 => 0 | .n8 => 1 | .i16 => 2 | .n16 => 3 | .i32 => 4 | .n32 => 5 | .i64 => 6 | .n64 => 7
  | .f32 => 8 | .f16 => 9 | .bf16 => 10 | .bk4 => 11 | .bk8 => 12 | .bk16 => 13 | .bs8 => 14
/-- FN 5:4 of major 0x1B (R144). -/
def FTy.ofCode : Nat → Option FTy
  | 0 => some .f32 | 1 => some .f16 | 2 => some .bf16 | _ => none
/-- FN 5:4 of major 0x1B (R144). -/
def FTy.code : FTy → Nat
  | .f32 => 0 | .f16 => 1 | .bf16 => 2
/-- GC 1:0 of `SEXT`, `ZEXT` (R142). -/
def ExtW.ofCode : Nat → Option ExtW
  | 0 => some .b8 | 1 => some .b16 | 2 => some .b32 | _ => none
/-- GC 1:0 of `SEXT`, `ZEXT` (R142). -/
def ExtW.code : ExtW → Nat
  | .b8 => 0 | .b16 => 1 | .b32 => 2
/-- W of `LD` (R139). -/
def LdW.ofCode : Nat → Option LdW
  | 0 => some .i8 | 1 => some .n8 | 2 => some .i16 | 3 => some .n16 | 4 => some .i32
  | 5 => some .n32 | 6 => some .d64 | _ => none
/-- W of `LD` (R139). -/
def LdW.code : LdW → Nat
  | .i8 => 0 | .n8 => 1 | .i16 => 2 | .n16 => 3 | .i32 => 4 | .n32 => 5 | .d64 => 6
/-- W of `ST` (R139). -/
def StW.ofCode : Nat → Option StW
  | 0 => some .w8 | 2 => some .w16 | 4 => some .w32 | 6 => some .w64 | _ => none
/-- W of `ST` (R139). -/
def StW.code : StW → Nat
  | .w8 => 0 | .w16 => 2 | .w32 => 4 | .w64 => 6
/-- Type codes of `FCVT` (R145). -/
def Num.ofCode : Nat → Option Num
  | 0 => some .f32 | 1 => some .f16 | 2 => some .bf16 | 3 => some .i32 | 4 => some .n32
  | 5 => some .i64 | 6 => some .n64 | _ => none
/-- Type codes of `FCVT` (R145). -/
def Num.code : Num → Nat
  | .f32 => 0 | .f16 => 1 | .bf16 => 2 | .i32 => 3 | .n32 => 4 | .i64 => 5 | .n64 => 6
/-- Rounding codes of `FCVT` (R145). -/
def Rnd.ofCode : Nat → Option Rnd
  | 0 => some .dyn | 1 => some .rne | 2 => some .rtz | 3 => some .rup | 4 => some .rdn | _ => none
/-- Rounding codes of `FCVT` (R145). -/
def Rnd.code : Rnd → Nat
  | .dyn => 0 | .rne => 1 | .rtz => 2 | .rup => 3 | .rdn => 4
/-- IMM6 1:0 of `SOPEN` (R153). -/
def SClass.ofCode : Nat → Option SClass
  | 0 => some .stream | 1 => some .random | 2 => some .ordered | _ => none
/-- IMM6 1:0 of `SOPEN` (R153). -/
def SClass.code : SClass → Nat
  | .stream => 0 | .random => 1 | .ordered => 2
/-- SCOPE (R117). -/
def Scope.ofCode : Nat → Option Scope
  | 0 => some .core | 1 => some .cluster | 2 => some .tile | 3 => some .panel | 4 => some .system
  | _ => none
/-- SCOPE (R117). -/
def Scope.code : Scope → Nat
  | .core => 0 | .cluster => 1 | .tile => 2 | .panel => 3 | .system => 4
/-- OP of `AMO` (R156). -/
def AmoOp.ofCode : Nat → Option AmoOp
  | 0 => some .add | 1 => some .swap | 2 => some .and | 3 => some .or | 4 => some .xor
  | 5 => some .min | 6 => some .max | 7 => some .minn | 8 => some .maxn | _ => none
/-- OP of `AMO` (R156). -/
def AmoOp.code : AmoOp → Nat
  | .add => 0 | .swap => 1 | .and => 2 | .or => 3 | .xor => 4 | .min => 5 | .max => 6 | .minn => 7
  | .maxn => 8
/-- W of `AMO`, `CAS` (R156). -/
def AmoW.ofCode : Nat → Option AmoW
  | 0 => some .b32 | 1 => some .b64 | _ => none
/-- W of `AMO`, `CAS` (R156). -/
def AmoW.code : AmoW → Nat
  | .b32 => 0 | .b64 => 1
/-- LC of the sends; 0b01 is ILLEGAL (R155). -/
def Lc.ofCode : Nat → Option Lc
  | 0 => some .c0 | 2 => some .c2 | 3 => some .c3 | _ => none
/-- LC of the sends (R155). -/
def Lc.code : Lc → Nat
  | .c0 => 0 | .c2 => 2 | .c3 => 3
/-- Control register numbers (R46). -/
def Cr.ofCode : Nat → Option Cr
  | 0 => some .fpcr | 1 => some .tid | 2 => some .shard | 3 => some .grp | 4 => some .domid
  | 5 => some .rclk | 6 => some .tcmp | 7 => some .prio | 8 => some .tcause | 9 => some .tpc
  | 10 => some .tval | 11 => some .tstat | 12 => some .rigs | 13 => some .seatb | 14 => some .kvec
  | 15 => some .rampf | 16 => some .seamt | 17 => some .sscr
  | 24 => some (.pmc 0) | 25 => some (.pmc 1) | 26 => some (.pmc 2) | 27 => some (.pmc 3)
  | 28 => some (.pmc 4) | 29 => some (.pmc 5) | 30 => some (.pmc 6) | 31 => some (.pmc 7)
  | _ => none
/-- Control register numbers (R46). -/
def Cr.code : Cr → Nat
  | .fpcr => 0 | .tid => 1 | .shard => 2 | .grp => 3 | .domid => 4 | .rclk => 5 | .tcmp => 6
  | .prio => 7 | .tcause => 8 | .tpc => 9 | .tval => 10 | .tstat => 11 | .rigs => 12 | .seatb => 13
  | .kvec => 14 | .rampf => 15 | .seamt => 16 | .sscr => 17 | .pmc k => 24 + k.toNat

/-- MEN and MSK: MEN = 0 means no mask, and then MSK must be 0b000 (R140). -/
def maskOf (e m : Nat) : Except DecodeError (Option MR) :=
  if e = 1 then .ok (some (BitVec.ofNat 3 m)) else if m = 0 then .ok none else .error .field

/-- MEN (R140). -/
def maskEn : Option MR → Nat
  | none => 0 | some _ => 1
/-- MSK (R140). -/
def maskNum : Option MR → Nat
  | none => 0 | some m => m.toNat

/-- An instruction under a condition on its zero fields (R136). -/
def zeroField (c : Bool) (i : Instr) : Decoded := if c then .ok i else .error .field

/-- An instruction under an allocated code of one field. -/
def withCode {α : Type} (c : Option α) (k : α → Decoded) : Decoded :=
  match c with
  | some x => k x
  | none => .error .code

/-- An instruction under its mask fields (R140). -/
def withMask (e m : Nat) (k : Option MR → Decoded) : Decoded :=
  match maskOf e m with
  | .ok x => k x
  | .error r => .error r

/-! The format classes (R140). -/

/-- Class A, major 0x01 (R142). -/
def decodeInt (d a b c : GR) (gb gc fn : Nat) : Decoded :=
  match fn with
  | 0x00 => zeroField (gc == 0) (.add d a b)
  | 0x01 => zeroField (gc == 0) (.sub d a b)
  | 0x02 => zeroField (gc == 0) (.mul d a b)
  | 0x03 => zeroField (gc == 0) (.mulh d a b)
  | 0x04 => zeroField (gc == 0) (.mulhn d a b)
  | 0x05 => zeroField (gc == 0) (.div d a b)
  | 0x06 => zeroField (gc == 0) (.divn d a b)
  | 0x07 => zeroField (gc == 0) (.rem d a b)
  | 0x08 => zeroField (gc == 0) (.remn d a b)
  | 0x09 => .ok (.madd d a b c)
  | 0x0A => zeroField (gc == 0) (.and d a b)
  | 0x0B => zeroField (gc == 0) (.or d a b)
  | 0x0C => zeroField (gc == 0) (.xor d a b)
  | 0x0D => zeroField (gc == 0) (.shl d a b)
  | 0x0E => zeroField (gc == 0) (.shr d a b)
  | 0x0F => zeroField (gc == 0) (.sra d a b)
  | 0x10 => zeroField (gc == 0) (.rol d a b)
  | 0x11 => zeroField (gb == 0 && gc == 0) (.clz d a)
  | 0x12 => zeroField (gb == 0 && gc == 0) (.ctz d a)
  | 0x13 => zeroField (gb == 0 && gc == 0) (.popc d a)
  | 0x14 => zeroField (gc == 0) (.min d a b)
  | 0x15 => zeroField (gc == 0) (.minn d a b)
  | 0x16 => zeroField (gc == 0) (.max d a b)
  | 0x17 => zeroField (gc == 0) (.maxn d a b)
  | 0x18 => zeroField (gc == 0) (.cmpeq d a b)
  | 0x19 => zeroField (gc == 0) (.cmplt d a b)
  | 0x1A => zeroField (gc == 0) (.cmpltn d a b)
  | 0x1B => zeroField (gc == 0) (.cmple d a b)
  | 0x1C => zeroField (gc == 0) (.cmplen d a b)
  | 0x1D => .ok (.sel d a b c)
  | 0x1E => withCode (ExtW.ofCode (gc % 4)) fun w => zeroField (gb == 0 && gc / 4 == 0) (.sext d a w)
  | 0x1F => withCode (ExtW.ofCode (gc % 4)) fun w => zeroField (gb == 0 && gc / 4 == 0) (.zext d a w)
  | _ => .error .function

/-- Class A, majors 0x0A `MKA` (R141, R171) and 0x0B (R143). -/
def decodeMka (d b c : GR) (ga fn : Nat) : Decoded :=
  match fn with
  | 0 => zeroField (ga == 0) (.mkaAbs d b c)
  | 2 => zeroField (ga == 0) (.mkaGrp d b c)
  | 3 => zeroField (ga == 0) (.mkaCore d b c)
  | _ => .error .function
/-- Class A, major 0x0B (R143). -/
def decodeTag (d a b : GR) (gd gb gc fn : Nat) : Decoded :=
  match fn with
  | 0 => zeroField (gb == 0 && gc == 0) (.tlook d a)
  | 1 => zeroField (gc == 0) (.tset d a b)
  | 2 => zeroField (gd == 0 && gb == 0 && gc == 0) (.tclr a)
  | _ => .error .function
/-- Class A, major 0x1B (R144). -/
def decodeFloat (d a b c : GR) (gb gc op : Nat) (t : FTy) : Decoded :=
  match op with
  | 0x0 => zeroField (gc == 0) (.fadd d a b t)
  | 0x1 => zeroField (gc == 0) (.fsub d a b t)
  | 0x2 => zeroField (gc == 0) (.fmul d a b t)
  | 0x3 => .ok (.ffma d a b c t)
  | 0x4 => zeroField (gc == 0) (.fdiv d a b t)
  | 0x5 => zeroField (gb == 0 && gc == 0) (.fsqrt d a t)
  | 0x6 => zeroField (gc == 0) (.fmin d a b t)
  | 0x7 => zeroField (gc == 0) (.fmax d a b t)
  | 0x8 => zeroField (gc == 0) (.fcmpeq d a b t)
  | 0x9 => zeroField (gc == 0) (.fcmplt d a b t)
  | 0xA => zeroField (gc == 0) (.fcmple d a b t)
  | 0xB => zeroField (gb == 0 && gc == 0) (.fclass d a t)
  | _ => .error .function
/-- Class A, major 0x22: mask numbers above 7 give ILLEGAL (R137, R148). -/
def decodeMask (d : GR) (gd ga gb gc fn : Nat) : Decoded :=
  let md := BitVec.ofNat 3 gd
  let ma := BitVec.ofNat 3 ga
  let mb := BitVec.ofNat 3 gb
  let c3 := decide (gd < 8) && decide (ga < 8) && decide (gb < 8) && gc == 0
  let c2 := decide (gd < 8) && decide (ga < 8) && gb == 0 && gc == 0
  let c1 := decide (ga < 8) && gb == 0 && gc == 0
  match fn with
  | 0 => zeroField c3 (.mand md ma mb)
  | 1 => zeroField c3 (.mor md ma mb)
  | 2 => zeroField c3 (.mxor md ma mb)
  | 3 => zeroField c2 (.mnot md ma)
  | 4 => zeroField c1 (.mpop d ma)
  | 5 => zeroField c1 (.mfirst d ma)
  | _ => .error .function
/-- Class A: 25:21 GD, 20:16 GA, 15:11 GB, 10:6 GC, 5:0 FN. -/
def decodeA (maj w : Nat) : Decoded :=
  let gd := w / 2097152 % 32
  let ga := w / 65536 % 32
  let gb := w / 2048 % 32
  let gc := w / 64 % 32
  let fn := w % 64
  let d := BitVec.ofNat 5 gd
  let a := BitVec.ofNat 5 ga
  let b := BitVec.ofNat 5 gb
  let c := BitVec.ofNat 5 gc
  match maj with
  | 0x01 => decodeInt d a b c gb gc fn
  | 0x0A => decodeMka d b c ga fn
  | 0x0B => decodeTag d a b gd gb gc fn
  | 0x1B => withCode (FTy.ofCode (fn / 16)) fun t => decodeFloat d a b c gb gc (fn % 16) t
  | 0x1C =>
    withCode (Num.ofCode (fn / 8)) fun t => withCode (Num.ofCode (fn % 8)) fun s =>
      withCode (Rnd.ofCode (gc % 8)) fun r => zeroField (gb == 0 && gc / 8 == 0) (.fcvt d a r t s)
  | 0x22 => decodeMask d gd ga gb gc fn
  | _ => .error .major

/-- The row that writes control register n (R177). -/
def crwrRow (a : GR) : Cr → Instr
  | .fpcr => .crwrFpcr a | .tid => .crwrTid a | .tcmp => .crwrTcmp a | .prio => .crwrPrio a
  | .tstat => .crwrTstat a | .rigs => .crwrRigs a | .sscr => .crwrSscr a
  | .shard => .crwr a .shard | .grp => .crwr a .grp | .domid => .crwr a .domid
  | .rclk => .crwr a .rclk | .tcause => .crwr a .tcause | .tpc => .crwr a .tpc
  | .tval => .crwr a .tval | .seatb => .crwr a .seatb | .kvec => .crwr a .kvec
  | .rampf => .crwr a .rampf | .seamt => .crwr a .seamt | .pmc k => .crwr a (.pmc k)

/-- Class B: 25:21 GD, 20:16 GA, 15:0 IMM16. -/
def decodeB (maj w : Nat) : Decoded :=
  let gd := w / 2097152 % 32
  let ga := w / 65536 % 32
  let imm := w % 65536
  let d := BitVec.ofNat 5 gd
  let a := BitVec.ofNat 5 ga
  let i := BitVec.ofNat 16 imm
  match maj with
  | 0x02 => .ok (.addi d a i)
  | 0x03 => .ok (.andi d a i)
  | 0x04 => .ok (.ori d a i)
  | 0x05 => .ok (.xori d a i)
  | 0x06 =>
    match imm / 64 with
    | 0 => .ok (.shli d a (BitVec.ofNat 6 imm))
    | 1 => .ok (.shri d a (BitVec.ofNat 6 imm))
    | 2 => .ok (.srai d a (BitVec.ofNat 6 imm))
    | _ => .error .field
  | 0x07 =>
    match imm / 4096 with
    | 0 => .ok (.bfx d a (BitVec.ofNat 6 (imm / 64)) (BitVec.ofNat 6 imm))
    | 8 => .ok (.bfi d a (BitVec.ofNat 6 (imm / 64)) (BitVec.ofNat 6 imm))
    | _ => .error .field
  | 0x08 => zeroField (ga == 0) (.liShort d i)
  | 0x09 => zeroField (ga == 0) (.addpc d i)
  | 0x14 => .ok (.jalr d a i)
  | 0x19 => withCode (Cr.ofCode imm) fun n =>
      match n with
      | .seamt => .ok (.crrdSeamt d a)
      | n => zeroField (ga == 0) (.crrd d n)
  | 0x1A => withCode (Cr.ofCode imm) fun n => zeroField (gd == 0) (crwrRow a n)
  | 0x25 => zeroField (gd == 0 && imm / 32 == 0) (.rig a (BitVec.ofNat 5 imm))
  | 0x26 => zeroField (gd == 0) (.rigsv a i)
  | 0x27 => zeroField (gd == 0) (.rigld a i)
  | 0x29 => zeroField (gd == 0 && ga == 0) (.trap i)
  | _ => .error .major

/-- Class C (R139, R140): single with W and DISP13, multiple with GL and DISP11. -/
def decodeC (maj w : Nat) : Decoded :=
  let t := BitVec.ofNat 5 (w / 2097152)
  let a := BitVec.ofNat 5 (w / 65536)
  match maj with
  | 0x15 => withCode (LdW.ofCode (w / 8192 % 8)) fun x => .ok (.ld t a x (BitVec.ofNat 13 w))
  | 0x16 => withCode (StW.ofCode (w / 8192 % 8)) fun x => .ok (.st t a x (BitVec.ofNat 13 w))
  | 0x17 => .ok (.ldm t a (BitVec.ofNat 5 (w / 2048)) (BitVec.ofNat 11 w))
  | 0x18 => .ok (.stm t a (BitVec.ofNat 5 (w / 2048)) (BitVec.ofNat 11 w))
  | _ => .error .major

/-- Class D: 25:21 GA, 20:16 GB, 15:0 OFF16. -/
def decodeD (maj w : Nat) : Decoded :=
  let ga := w / 2097152 % 32
  let gb := w / 65536 % 32
  let a := BitVec.ofNat 5 ga
  let b := BitVec.ofNat 5 gb
  let o := BitVec.ofNat 16 w
  match maj with
  | 0x0C => .ok (.beq a b o)
  | 0x0D => .ok (.bne a b o)
  | 0x0E => .ok (.blt a b o)
  | 0x0F => .ok (.bge a b o)
  | 0x10 => .ok (.bltn a b o)
  | 0x11 => .ok (.bgen a b o)
  | 0x12 => zeroField (ga == 0 && gb == 0) (.jmp o)
  | 0x13 => zeroField (gb == 0) (.jal a o)
  | _ => .error .major

/-- Class E, major 0x20 (R146), under its mask and type. -/
def decodeVec (d a b : VR) (vd vb : Nat) (m : Option MR) (y : Ty) (fn : Nat) : Decoded :=
  let md := BitVec.ofNat 3 vd
  match fn with
  | 0x00 => zeroField (vb == 0) (.vmov d a m y)
  | 0x01 => .ok (.vadd d a b m y)
  | 0x02 => .ok (.vsub d a b m y)
  | 0x03 => .ok (.vmul d a b m y)
  | 0x04 => .ok (.vfma d a b m y)
  | 0x05 => .ok (.vmin d a b m y)
  | 0x06 => .ok (.vmax d a b m y)
  | 0x07 => zeroField (vb == 0) (.vabs d a m y)
  | 0x08 => zeroField (vb == 0) (.vneg d a m y)
  | 0x09 => .ok (.vand d a b m y)
  | 0x0A => .ok (.vor d a b m y)
  | 0x0B => .ok (.vxor d a b m y)
  | 0x0C => .ok (.vshl d a b m y)
  | 0x0D => .ok (.vshr d a b m y)
  | 0x0E => .ok (.vsra d a b m y)
  | 0x0F =>
    match m with
    | some k => .ok (.vsel d a b k y)
    | none => .error .field
  | 0x10 => zeroField (decide (vd < 8)) (.vcmpEq md a b m y)
  | 0x11 => zeroField (decide (vd < 8)) (.vcmpNe md a b m y)
  | 0x12 => zeroField (decide (vd < 8)) (.vcmpLt md a b m y)
  | 0x13 => zeroField (decide (vd < 8)) (.vcmpLe md a b m y)
  | 0x14 => zeroField (decide (vd < 8)) (.vcmpGt md a b m y)
  | 0x15 => zeroField (decide (vd < 8)) (.vcmpGe md a b m y)
  | 0x18 => zeroField (vb == 0) (.vredAdd d a m y)
  | 0x19 => zeroField (vb == 0) (.vredMin d a m y)
  | 0x1A => zeroField (vb == 0) (.vredMax d a m y)
  | 0x1B => zeroField (vb == 0) (.vredOr d a m y)
  | 0x1C => .ok (.vperm d a b m y)
  | _ => .error .function

/-- Class E, major 0x23 (R149), under its mask and type. -/
def decodeConv (d a b : VR) (vb : Nat) (m : Option MR) (y : Ty) (fn : Nat) : Decoded :=
  match fn with
  | 0x00 => withCode (Ty.ofCode vb) fun s => .ok (.vcvt d a s m y)
  | 0x01 => zeroField m.isNone (.vpackbk d a b y)
  | 0x02 => .ok (.vunbk d a b m y)
  | 0x03 => zeroField m.isNone (.vscale d a b y)
  | 0x04 => zeroField (vb == 0 && y == .f32) (.vexp2 d a m)
  | 0x05 => zeroField (vb == 0 && y == .f32) (.vlog2 d a m)
  | 0x06 => zeroField (vb == 0 && y == .f32) (.vrcpa d a m)
  | 0x07 => zeroField (vb == 0 && y == .f32) (.vrsqa d a m)
  | _ => .error .function

/-- Class E: 25:22 VD, 21:18 VA, 17:14 VB, 13 MEN, 12:10 MSK, 9:6 TY, 5:0 FN. -/
def decodeE (maj w : Nat) : Decoded :=
  let vd := w / 4194304 % 16
  let vb := w / 16384 % 16
  let d := BitVec.ofNat 4 vd
  let a := BitVec.ofNat 4 (w / 262144)
  let b := BitVec.ofNat 4 vb
  withMask (w / 8192 % 2) (w / 1024 % 8) fun m => withCode (Ty.ofCode (w / 64 % 16)) fun y =>
    match maj with
    | 0x20 => decodeVec d a b vd vb m y (w % 64)
    | 0x23 => decodeConv d a b vb m y (w % 64)
    | _ => .error .major

/-- Class F, major 0x21 (R147): 25:22 VT, 21:17 GA, 16:12 GB, 11 MEN, 10:8 MSK, 7:4 TY, 3:0 FN. -/
def decodeF (w : Nat) : Decoded :=
  let vt := w / 4194304 % 16
  let gb := w / 4096 % 32
  let ty := w / 16 % 16
  let v := BitVec.ofNat 4 vt
  let mv := BitVec.ofNat 3 vt
  let a := BitVec.ofNat 5 (w / 131072)
  let b := BitVec.ofNat 5 gb
  let iv := BitVec.ofNat 4 gb
  withMask (w / 2048 % 2) (w / 256 % 8) fun m =>
    match w % 16 with
    | 0x0 =>
      match ty with
      | 0 => zeroField m.isNone (.vldBody v a b)
      | 1 => zeroField m.isNone (.vldSide v a b)
      | 2 => zeroField (m.isNone && decide (vt < 8)) (.vldMask mv a b)
      | _ => .error .code
    | 0x1 =>
      match ty with
      | 0 => zeroField m.isNone (.vstBody v a b)
      | 1 => zeroField m.isNone (.vstSide v a b)
      | 2 => zeroField (m.isNone && decide (vt < 8)) (.vstMask mv a b)
      | _ => .error .code
    | 0x2 => withCode (Ty.ofCode ty) fun y => .ok (.vlds v a b m y)
    | 0x3 => withCode (Ty.ofCode ty) fun y => .ok (.vsts v a b m y)
    | 0x4 => withCode (Ty.ofCode ty) fun y => zeroField (decide (gb < 16)) (.vgath v a iv m y)
    | 0x5 => withCode (Ty.ofCode ty) fun y => zeroField (decide (gb < 16)) (.vscat v a iv m y)
    | 0x6 => withCode (Ty.ofCode ty) fun y => zeroField (gb == 0) (.vbcast v a m y)
    | 0x7 => withCode (Ty.ofCode ty) fun y => zeroField m.isNone (.vins v a b y)
    | 0x8 => withCode (Ty.ofCode ty) fun y => zeroField m.isNone (.vext v a b y)
    | _ => .error .function

/-- Class G, major 0x24 (R150): 25:22 AT, 21:17 GA, 16:12 GB, 11:10 WC, 9:6 TY, 5:0 FN. -/
def decodeG (w : Nat) : Decoded :=
  let at' := w / 4194304 % 16
  let ga := w / 131072 % 32
  let gb := w / 4096 % 32
  let wc := w / 1024 % 4
  let ty := w / 64 % 16
  let t := BitVec.ofNat 4 at'
  let a := BitVec.ofNat 5 ga
  let b := BitVec.ofNat 5 gb
  let k := BitVec.ofNat 2 wc
  match w % 64 with
  | 0x00 => withCode (Ty.ofCode ty) fun y => .ok (.mma t a b k y)
  | 0x01 => zeroField (ty == 14) (.mmas t a b k)
  | 0x02 => zeroField (at' == 0 && gb == 0 && wc == 0 && ty == 0) (.mafd a)
  | 0x03 => zeroField (at' == 0 && gb == 0 && wc == 0 && ty == 0) (.mbfd a)
  | 0x04 => zeroField (ga == 0 && gb == 0 && wc == 0 && ty == 0) (.accz t)
  | 0x05 => withCode (Ty.ofCode ty) fun y => zeroField (gb == 0) (.accld t a k y)
  | 0x06 => withCode (Ty.ofCode ty) fun y => zeroField (gb == 0) (.accst t a k y)
  | 0x07 => zeroField (gb == 0 && wc == 0 && ty == 0) (.accrn t a)
  | 0x08 => zeroField (wc == 0 && ty == 0) (.accsc t a b)
  | 0x09 => zeroField (at' == 0 && ty == 0) (.wait (BitVec.ofNat 10 (w / 4096)) k)
  | _ => .error .function

/-- Class H, major 0x28 (R153): 25:21 GD, 20:16 GA, 15:11 GB, 10:5 IMM6, 4:0 FN. -/
def decodeH (w : Nat) : Decoded :=
  let gd := w / 2097152 % 32
  let ga := w / 65536 % 32
  let gb := w / 2048 % 32
  let im := w / 32 % 64
  let d := BitVec.ofNat 5 gd
  let a := BitVec.ofNat 5 ga
  let b := BitVec.ofNat 5 gb
  let s := BitVec.ofNat 6 im
  let k := BitVec.ofNat 2 im
  match w % 32 with
  | 0x00 => zeroField (gd == 0 && ga == 0 && gb == 0 && im == 0) .nop
  | 0x01 => zeroField (gb == 0) (.recv d a s)
  | 0x02 => zeroField (decide (gd < 16) && gb == 0) (.recvv (BitVec.ofNat 4 gd) a s)
  | 0x03 => zeroField (ga == 0 && gb == 0) (.peek d s)
  | 0x04 => .ok (.seatset d a b s)
  | 0x05 => zeroField (ga == 0 && gb == 0) (.seatclr d s)
  | 0x06 => zeroField (gb == 0 && im == 0) (.join d a)
  | 0x07 => withCode (SClass.ofCode (im % 4)) fun c =>
      zeroField (gb == 0 && im / 16 == 0) (.sopen d a (BitVec.ofNat 2 (im / 4)) c)
  | 0x08 =>
    match im / 4 with
    | 0 => zeroField (ga == 0 && gb == 0) (.sctlClose d k)
    | 1 => zeroField (ga == 0 && gb == 0) (.sctlAbort d k)
    | 2 => zeroField (ga == 0 && gb == 0) (.sctlAdvance d k)
    | _ => .error .code
  | 0x09 => zeroField (ga == 0 && gb == 0 && im / 4 == 0) (.swait d k)
  | 0x0A => zeroField (gd == 0 && im == 0) (.fwait a b)
  | 0x0B => withCode (Scope.ofCode (im % 8)) fun c =>
      zeroField (gd == 0 && ga == 0 && gb == 0 && im / 8 == 0) (.fence c)
  | 0x0C => zeroField (gb == 0 && im == 0) (.watch d a)
  | 0x0D => zeroField (ga == 0 && gb == 0 && im == 0) (.sleep d)
  | 0x0E => zeroField (gd == 0 && ga == 0 && gb == 0 && im == 0) .yield
  | 0x0F => zeroField (gb == 0 && im == 0) (.wake d a)
  | 0x10 => zeroField (gb == 0 && im / 4 == 0) (.tqpush d a k)
  | 0x11 => zeroField (ga == 0 && gb == 0 && im == 0) (.tqpop d)
  | 0x12 => zeroField (ga == 0 && gb == 0 && im / 8 == 0) (.barr d (BitVec.ofNat 3 im))
  | 0x13 => zeroField (gd == 0 && gb == 0 && im / 8 == 0) (.bwait a (BitVec.ofNat 3 im))
  | 0x14 => zeroField (gb == 0 && im == 0) (.siteq d a)
  | 0x15 =>
    match im with
    | 0 => .ok (.coxcallPoisoned d a b)
    | 2 => .ok (.coxcallCheckpoint d a b)
    | _ => .ok (.coxcallLog d a b s)
  | 0x16 => zeroField (gd == 0 && ga == 0 && gb == 0 && im == 0) .sret
  | 0x17 =>
    match im with
    | 0 => zeroField (gd == 0 && ga == 0 && gb == 0) .halt
    | 1 => zeroField (gd == 0 && gb == 0) (.haltSlot a)
    | _ => .error .code
  | _ => .error .function

/-- Class L (R154-R156): first parcel w, extension word x. -/
def decodeL (maj w x : Nat) : Decoded :=
  let gd := w / 2097152 % 32
  let ga := w / 65536 % 32
  let gb := w / 2048 % 32
  let gc := w / 64 % 32
  let d := BitVec.ofNat 5 gd
  let a := BitVec.ofNat 5 ga
  let b := BitVec.ofNat 5 gb
  let c := BitVec.ofNat 5 gc
  match maj with
  | 0x30 =>
    match w % 2097152 with
    | 0 => .ok (.liLong d (BitVec.ofNat 32 x))
    | 1 => .ok (.liHi d (BitVec.ofNat 32 x))
    | _ => .error .field
  | 0x31 =>
    let h := BitVec.ofNat 12 x
    let sc := x / 131072 % 8
    let z := w / 8 % 8 == 0 && x / 1048576 == 0 && x / 16384 % 8 == 0
    withCode (Lc.ofCode (x / 4096 % 4)) fun l =>
      match w % 8 with
      | 0 => zeroField (z && sc == 0) (.send d a b c l h)
      | 1 => zeroField (z && sc == 0 && decide (gb < 16)) (.sendv d a (BitVec.ofNat 4 gb) c l h)
      | 2 => withCode (Scope.ofCode sc) fun s => zeroField z (.sendr d a b c s l h)
      | 3 => zeroField (z && sc == 0 && gb == 0) (.finish d a c l h)
      | 4 => zeroField (z && sc == 0 && l == .c3) (.renorm d a b c h)
      | _ => .error .function
  | 0x32 =>
    let z := w / 2 % 32 == 0 && x / 4096 == 0 && x / 16 % 64 == 0
    withCode (AmoW.ofCode (x / 1024 % 4)) fun k => withCode (AmoOp.ofCode (x % 16)) fun o =>
      match w % 2 with
      | 0 => zeroField (z && gc == 0) (.amo d a b k o)
      | _ => zeroField (z && o == .add) (.cas d a b c k)
  | _ => .error .major

/-- The opcode map (R141), without the limits of WellFormed. -/
def decodeRaw (w x : Nat) : Decoded :=
  match w / 67108864 with
  | 0x01 => decodeA 0x01 w
  | 0x02 => decodeB 0x02 w | 0x03 => decodeB 0x03 w | 0x04 => decodeB 0x04 w | 0x05 => decodeB 0x05 w
  | 0x06 => decodeB 0x06 w | 0x07 => decodeB 0x07 w | 0x08 => decodeB 0x08 w | 0x09 => decodeB 0x09 w
  | 0x0A => decodeA 0x0A w | 0x0B => decodeA 0x0B w
  | 0x0C => decodeD 0x0C w | 0x0D => decodeD 0x0D w | 0x0E => decodeD 0x0E w | 0x0F => decodeD 0x0F w
  | 0x10 => decodeD 0x10 w | 0x11 => decodeD 0x11 w | 0x12 => decodeD 0x12 w | 0x13 => decodeD 0x13 w
  | 0x14 => decodeB 0x14 w
  | 0x15 => decodeC 0x15 w | 0x16 => decodeC 0x16 w | 0x17 => decodeC 0x17 w | 0x18 => decodeC 0x18 w
  | 0x19 => decodeB 0x19 w | 0x1A => decodeB 0x1A w
  | 0x1B => decodeA 0x1B w | 0x1C => decodeA 0x1C w
  | 0x20 => decodeE 0x20 w | 0x21 => decodeF w | 0x22 => decodeA 0x22 w | 0x23 => decodeE 0x23 w
  | 0x24 => decodeG w
  | 0x25 => decodeB 0x25 w | 0x26 => decodeB 0x26 w | 0x27 => decodeB 0x27 w
  | 0x28 => decodeH w
  | 0x29 => decodeB 0x29 w
  | 0x30 => decodeL 0x30 w x | 0x31 => decodeL 0x31 w x | 0x32 => decodeL 0x32 w x
  | _ => .error .major

/-- The first parcel has an extension word that is fetched: an allocated long major (R134, R141). -/
def needsExt (w : Nat) : Bool :=
  w / 67108864 == 0x30 || w / 67108864 == 0x31 || w / 67108864 == 0x32

/-- Bytes of the instruction that begins with parcel w (R134). -/
def parcelBytes (w : Nat) : Nat := if needsExt w then 8 else 4

/-- Decode first parcel w with extension word x (R135, R136); x counts for long forms only. -/
def decode (w x : Nat) : Decoded :=
  if w = 0 then .error .zeros
  else if w = 0xFFFFFFFF then .error .ones
  else
    match decodeRaw w x with
    | .ok i => if i.wellFormed then .ok i else .error .value
    | .error e => .error e

/-- The little-endian value of bytes (R3). -/
def leNat : List (BitVec 8) → Nat
  | [] => 0
  | b :: r => b.toNat + 256 * leNat r

/-- n bytes of a value, the lowest first (R3). -/
def leBytes : Nat → Nat → List (BitVec 8)
  | 0, _ => []
  | n + 1, w => BitVec.ofNat 8 w :: leBytes n (w / 256)

/-- Decode the instruction at the head of a run of bytes and give the bytes after it. -/
def decodeBytes (bs : List (BitVec 8)) : Except DecodeError (Instr × List (BitVec 8)) :=
  if bs.length < 4 then .error .short
  else
    let w := leNat (bs.take 4)
    if needsExt w && decide (bs.length < 8) then .error .short
    else
      match decode w (leNat ((bs.drop 4).take 4)) with
      | .ok i => .ok (i, bs.drop (parcelBytes w))
      | .error e => .error e

/-- The instruction the decoder reads from nbits bits w of the opcode table's numbering: bits 31:0
are the first parcel, bits 63:32 the extension word, bits above nbits 0. -/
def decodeTableWord (nbits w : Nat) : Option Instr :=
  match decodeBytes (leBytes 8 (w % 2 ^ nbits)) with
  | .ok (i, _) => some i
  | .error _ => none

/-! The encoder: the words of an instruction, from the same tables. -/

/-- Class A (R140). -/
def fmtA (maj : Nat) (d a b c : GR) (fn : Nat) : Nat :=
  maj * 67108864 + d.toNat * 2097152 + a.toNat * 65536 + b.toNat * 2048 + c.toNat * 64 + fn
/-- Class B (R140). -/
def fmtB (maj : Nat) (d a : GR) (imm : Nat) : Nat :=
  maj * 67108864 + d.toNat * 2097152 + a.toNat * 65536 + imm
/-- Class C (R140), the low 16 bits given. -/
def fmtC (maj : Nat) (t a : GR) (low : Nat) : Nat :=
  maj * 67108864 + t.toNat * 2097152 + a.toNat * 65536 + low
/-- Class D (R140). -/
def fmtD (maj : Nat) (a b : GR) (o : BitVec 16) : Nat :=
  maj * 67108864 + a.toNat * 2097152 + b.toNat * 65536 + o.toNat
/-- Class E (R140). -/
def fmtE (maj vd va vb : Nat) (m : Option MR) (y : Ty) (fn : Nat) : Nat :=
  maj * 67108864 + vd * 4194304 + va * 262144 + vb * 16384 + maskEn m * 8192 + maskNum m * 1024
    + y.code * 64 + fn
/-- Class F, major 0x21 (R140). -/
def fmtF (vt : Nat) (a : GR) (gb : Nat) (m : Option MR) (ty fn : Nat) : Nat :=
  0x21 * 67108864 + vt * 4194304 + a.toNat * 131072 + gb * 4096 + maskEn m * 2048
    + maskNum m * 256 + ty * 16 + fn
/-- Class G, major 0x24 (R140). -/
def fmtG (t ga gb wc ty fn : Nat) : Nat :=
  0x24 * 67108864 + t * 4194304 + ga * 131072 + gb * 4096 + wc * 1024 + ty * 64 + fn
/-- Class H, major 0x28 (R140). -/
def fmtH (gd ga gb im fn : Nat) : Nat :=
  0x28 * 67108864 + gd * 2097152 + ga * 65536 + gb * 2048 + im * 32 + fn
/-- First parcel of class L, majors 0x30-0x32 (R154-R156). -/
def fmtL (maj : Nat) (d : GR) (ga gb gc low : Nat) : Nat :=
  maj * 67108864 + d.toNat * 2097152 + ga * 65536 + gb * 2048 + gc * 64 + low
/-- Extension word of the sends (R155). -/
def extSend (sc : Nat) (l : Lc) (h : BitVec 12) : Nat := sc * 131072 + l.code * 4096 + h.toNat
/-- Extension word of the atomics (R156). -/
def extAmo (k : AmoW) (o : AmoOp) : Nat := k.code * 1024 + o.code

/-- First parcel and extension word of an instruction; none for the rows of operations and events. -/
def encode : Instr → Option (Nat × Option Nat)
  | .add d a b => some (fmtA 0x01 d a b 0 0x00, none)
  | .sub d a b => some (fmtA 0x01 d a b 0 0x01, none)
  | .mul d a b => some (fmtA 0x01 d a b 0 0x02, none)
  | .mulh d a b => some (fmtA 0x01 d a b 0 0x03, none)
  | .mulhn d a b => some (fmtA 0x01 d a b 0 0x04, none)
  | .div d a b => some (fmtA 0x01 d a b 0 0x05, none)
  | .divn d a b => some (fmtA 0x01 d a b 0 0x06, none)
  | .rem d a b => some (fmtA 0x01 d a b 0 0x07, none)
  | .remn d a b => some (fmtA 0x01 d a b 0 0x08, none)
  | .madd d a b c => some (fmtA 0x01 d a b c 0x09, none)
  | .and d a b => some (fmtA 0x01 d a b 0 0x0a, none)
  | .or d a b => some (fmtA 0x01 d a b 0 0x0b, none)
  | .xor d a b => some (fmtA 0x01 d a b 0 0x0c, none)
  | .shl d a b => some (fmtA 0x01 d a b 0 0x0d, none)
  | .shr d a b => some (fmtA 0x01 d a b 0 0x0e, none)
  | .sra d a b => some (fmtA 0x01 d a b 0 0x0f, none)
  | .rol d a b => some (fmtA 0x01 d a b 0 0x10, none)
  | .clz d a => some (fmtA 0x01 d a 0 0 0x11, none)
  | .ctz d a => some (fmtA 0x01 d a 0 0 0x12, none)
  | .popc d a => some (fmtA 0x01 d a 0 0 0x13, none)
  | .min d a b => some (fmtA 0x01 d a b 0 0x14, none)
  | .minn d a b => some (fmtA 0x01 d a b 0 0x15, none)
  | .max d a b => some (fmtA 0x01 d a b 0 0x16, none)
  | .maxn d a b => some (fmtA 0x01 d a b 0 0x17, none)
  | .cmpeq d a b => some (fmtA 0x01 d a b 0 0x18, none)
  | .cmplt d a b => some (fmtA 0x01 d a b 0 0x19, none)
  | .cmpltn d a b => some (fmtA 0x01 d a b 0 0x1a, none)
  | .cmple d a b => some (fmtA 0x01 d a b 0 0x1b, none)
  | .cmplen d a b => some (fmtA 0x01 d a b 0 0x1c, none)
  | .sel d a b c => some (fmtA 0x01 d a b c 0x1d, none)
  | .sext d a w => some (fmtA 0x01 d a 0 (BitVec.ofNat 5 w.code) 0x1e, none)
  | .zext d a w => some (fmtA 0x01 d a 0 (BitVec.ofNat 5 w.code) 0x1f, none)
  | .addi d a i => some (fmtB 0x02 d a i.toNat, none)
  | .andi d a i => some (fmtB 0x03 d a i.toNat, none)
  | .ori d a i => some (fmtB 0x04 d a i.toNat, none)
  | .xori d a i => some (fmtB 0x05 d a i.toNat, none)
  | .shli d a k => some (fmtB 0x06 d a (0 * 64 + k.toNat), none)
  | .shri d a k => some (fmtB 0x06 d a (1 * 64 + k.toNat), none)
  | .srai d a k => some (fmtB 0x06 d a (2 * 64 + k.toNat), none)
  | .bfx d a l p => some (fmtB 0x07 d a (l.toNat * 64 + p.toNat), none)
  | .bfi d a l p => some (fmtB 0x07 d a (32768 + l.toNat * 64 + p.toNat), none)
  | .liShort d i => some (fmtB 0x08 d 0 i.toNat, none)
  | .addpc d i => some (fmtB 0x09 d 0 i.toNat, none)
  | .mkaAbs d b c => some (fmtA 0x0a d 0 b c 0, none)
  | .mkaGrp d b c => some (fmtA 0x0a d 0 b c 2, none)
  | .mkaCore d b c => some (fmtA 0x0a d 0 b c 3, none)
  | .tlook d a => some (fmtA 0x0b d a 0 0 0, none)
  | .tset d a b => some (fmtA 0x0b d a b 0 1, none)
  | .tclr a => some (fmtA 0x0b 0 a 0 0 2, none)
  | .beq a b o => some (fmtD 0x0c a b o, none)
  | .bne a b o => some (fmtD 0x0d a b o, none)
  | .blt a b o => some (fmtD 0x0e a b o, none)
  | .bge a b o => some (fmtD 0x0f a b o, none)
  | .bltn a b o => some (fmtD 0x10 a b o, none)
  | .bgen a b o => some (fmtD 0x11 a b o, none)
  | .jmp o => some (fmtD 0x12 0 0 o, none)
  | .jal l o => some (fmtD 0x13 l 0 o, none)
  | .jalr d a i => some (fmtB 0x14 d a i.toNat, none)
  | .ld t a w d => some (fmtC 0x15 t a (w.code * 8192 + d.toNat), none)
  | .st t a w d => some (fmtC 0x16 t a (w.code * 8192 + d.toNat), none)
  | .ldm t a l d => some (fmtC 0x17 t a (l.toNat * 2048 + d.toNat), none)
  | .stm t a l d => some (fmtC 0x18 t a (l.toNat * 2048 + d.toNat), none)
  | .crrd d n => some (fmtB 0x19 d 0 n.code, none)
  | .crrdSeamt d a => some (fmtB 0x19 d a 16, none)
  | .crwr a n => some (fmtB 0x1a 0 a n.code, none)
  | .crwrFpcr a => some (fmtB 0x1a 0 a 0, none)
  | .crwrTid a => some (fmtB 0x1a 0 a 1, none)
  | .crwrTcmp a => some (fmtB 0x1a 0 a 6, none)
  | .crwrPrio a => some (fmtB 0x1a 0 a 7, none)
  | .crwrTstat a => some (fmtB 0x1a 0 a 11, none)
  | .crwrRigs a => some (fmtB 0x1a 0 a 12, none)
  | .crwrSscr a => some (fmtB 0x1a 0 a 17, none)
  | .fadd d a b t => some (fmtA 0x1b d a b 0 (t.code * 16 + 0), none)
  | .fsub d a b t => some (fmtA 0x1b d a b 0 (t.code * 16 + 1), none)
  | .fmul d a b t => some (fmtA 0x1b d a b 0 (t.code * 16 + 2), none)
  | .ffma d a b c t => some (fmtA 0x1b d a b c (t.code * 16 + 3), none)
  | .fdiv d a b t => some (fmtA 0x1b d a b 0 (t.code * 16 + 4), none)
  | .fsqrt d a t => some (fmtA 0x1b d a 0 0 (t.code * 16 + 5), none)
  | .fmin d a b t => some (fmtA 0x1b d a b 0 (t.code * 16 + 6), none)
  | .fmax d a b t => some (fmtA 0x1b d a b 0 (t.code * 16 + 7), none)
  | .fcmpeq d a b t => some (fmtA 0x1b d a b 0 (t.code * 16 + 8), none)
  | .fcmplt d a b t => some (fmtA 0x1b d a b 0 (t.code * 16 + 9), none)
  | .fcmple d a b t => some (fmtA 0x1b d a b 0 (t.code * 16 + 10), none)
  | .fclass d a t => some (fmtA 0x1b d a 0 0 (t.code * 16 + 11), none)
  | .fcvt d a r t s => some (fmtA 0x1c d a 0 (BitVec.ofNat 5 r.code) (t.code * 8 + s.code), none)
  | .vmov d a m y => some (fmtE 0x20 d.toNat a.toNat 0 m y 0x00, none)
  | .vadd d a b m y => some (fmtE 0x20 d.toNat a.toNat b.toNat m y 0x01, none)
  | .vsub d a b m y => some (fmtE 0x20 d.toNat a.toNat b.toNat m y 0x02, none)
  | .vmul d a b m y => some (fmtE 0x20 d.toNat a.toNat b.toNat m y 0x03, none)
  | .vfma d a b m y => some (fmtE 0x20 d.toNat a.toNat b.toNat m y 0x04, none)
  | .vmin d a b m y => some (fmtE 0x20 d.toNat a.toNat b.toNat m y 0x05, none)
  | .vmax d a b m y => some (fmtE 0x20 d.toNat a.toNat b.toNat m y 0x06, none)
  | .vabs d a m y => some (fmtE 0x20 d.toNat a.toNat 0 m y 0x07, none)
  | .vneg d a m y => some (fmtE 0x20 d.toNat a.toNat 0 m y 0x08, none)
  | .vand d a b m y => some (fmtE 0x20 d.toNat a.toNat b.toNat m y 0x09, none)
  | .vor d a b m y => some (fmtE 0x20 d.toNat a.toNat b.toNat m y 0x0a, none)
  | .vxor d a b m y => some (fmtE 0x20 d.toNat a.toNat b.toNat m y 0x0b, none)
  | .vshl d a b m y => some (fmtE 0x20 d.toNat a.toNat b.toNat m y 0x0c, none)
  | .vshr d a b m y => some (fmtE 0x20 d.toNat a.toNat b.toNat m y 0x0d, none)
  | .vsra d a b m y => some (fmtE 0x20 d.toNat a.toNat b.toNat m y 0x0e, none)
  | .vsel d a b m y => some (fmtE 0x20 d.toNat a.toNat b.toNat (some m) y 0x0f, none)
  | .vcmpEq d a b m y => some (fmtE 0x20 d.toNat a.toNat b.toNat m y 0x10, none)
  | .vcmpNe d a b m y => some (fmtE 0x20 d.toNat a.toNat b.toNat m y 0x11, none)
  | .vcmpLt d a b m y => some (fmtE 0x20 d.toNat a.toNat b.toNat m y 0x12, none)
  | .vcmpLe d a b m y => some (fmtE 0x20 d.toNat a.toNat b.toNat m y 0x13, none)
  | .vcmpGt d a b m y => some (fmtE 0x20 d.toNat a.toNat b.toNat m y 0x14, none)
  | .vcmpGe d a b m y => some (fmtE 0x20 d.toNat a.toNat b.toNat m y 0x15, none)
  | .vredAdd d a m y => some (fmtE 0x20 d.toNat a.toNat 0 m y 0x18, none)
  | .vredMin d a m y => some (fmtE 0x20 d.toNat a.toNat 0 m y 0x19, none)
  | .vredMax d a m y => some (fmtE 0x20 d.toNat a.toNat 0 m y 0x1a, none)
  | .vredOr d a m y => some (fmtE 0x20 d.toNat a.toNat 0 m y 0x1b, none)
  | .vperm d a b m y => some (fmtE 0x20 d.toNat a.toNat b.toNat m y 0x1c, none)
  | .vldBody v a d => some (fmtF v.toNat a d.toNat none 0 0, none)
  | .vldSide v a d => some (fmtF v.toNat a d.toNat none 1 0, none)
  | .vldMask v a d => some (fmtF v.toNat a d.toNat none 2 0, none)
  | .vstBody v a d => some (fmtF v.toNat a d.toNat none 0 1, none)
  | .vstSide v a d => some (fmtF v.toNat a d.toNat none 1 1, none)
  | .vstMask v a d => some (fmtF v.toNat a d.toNat none 2 1, none)
  | .vlds v a b m y => some (fmtF v.toNat a b.toNat m y.code 2, none)
  | .vsts v a b m y => some (fmtF v.toNat a b.toNat m y.code 3, none)
  | .vgath v a b m y => some (fmtF v.toNat a b.toNat m y.code 4, none)
  | .vscat v a b m y => some (fmtF v.toNat a b.toNat m y.code 5, none)
  | .vbcast v a m y => some (fmtF v.toNat a 0 m y.code 6, none)
  | .vins v a b y => some (fmtF v.toNat a b.toNat none y.code 7, none)
  | .vext v a b y => some (fmtF v.toNat a b.toNat none y.code 8, none)
  | .mand d a b => some (fmtA 0x22 (BitVec.ofNat 5 d.toNat) (BitVec.ofNat 5 a.toNat) (BitVec.ofNat 5 b.toNat) 0 0, none)
  | .mor d a b => some (fmtA 0x22 (BitVec.ofNat 5 d.toNat) (BitVec.ofNat 5 a.toNat) (BitVec.ofNat 5 b.toNat) 0 1, none)
  | .mxor d a b => some (fmtA 0x22 (BitVec.ofNat 5 d.toNat) (BitVec.ofNat 5 a.toNat) (BitVec.ofNat 5 b.toNat) 0 2, none)
  | .mnot d a => some (fmtA 0x22 (BitVec.ofNat 5 d.toNat) (BitVec.ofNat 5 a.toNat) 0 0 3, none)
  | .mpop d a => some (fmtA 0x22 d (BitVec.ofNat 5 a.toNat) 0 0 4, none)
  | .mfirst d a => some (fmtA 0x22 d (BitVec.ofNat 5 a.toNat) 0 0 5, none)
  | .vcvt d a s m y => some (fmtE 0x23 d.toNat a.toNat s.code m y 0, none)
  | .vpackbk d a b y => some (fmtE 0x23 d.toNat a.toNat b.toNat none y 1, none)
  | .vunbk d a k m y => some (fmtE 0x23 d.toNat a.toNat k.toNat m y 2, none)
  | .vscale d a b y => some (fmtE 0x23 d.toNat a.toNat b.toNat none y 3, none)
  | .vexp2 d a m => some (fmtE 0x23 d.toNat a.toNat 0 m .f32 4, none)
  | .vlog2 d a m => some (fmtE 0x23 d.toNat a.toNat 0 m .f32 5, none)
  | .vrcpa d a m => some (fmtE 0x23 d.toNat a.toNat 0 m .f32 6, none)
  | .vrsqa d a m => some (fmtE 0x23 d.toNat a.toNat 0 m .f32 7, none)
  | .mma t a b w y => some (fmtG t.toNat a.toNat b.toNat w.toNat y.code 0, none)
  | .mmas t a b w => some (fmtG t.toNat a.toNat b.toNat w.toNat 14 1, none)
  | .mafd a => some (fmtG 0 a.toNat 0 0 0 2, none)
  | .mbfd a => some (fmtG 0 a.toNat 0 0 0 3, none)
  | .accz t => some (fmtG t.toNat 0 0 0 0 4, none)
  | .accld t a w y => some (fmtG t.toNat a.toNat 0 w.toNat y.code 5, none)
  | .accst t a w y => some (fmtG t.toNat a.toNat 0 w.toNat y.code 6, none)
  | .accrn t a => some (fmtG t.toNat a.toNat 0 0 0 7, none)
  | .accsc t d b => some (fmtG t.toNat d.toNat b.toNat 0 0 8, none)
  | .wait c w => some (fmtG 0 (c.toNat / 32) (c.toNat % 32) w.toNat 0 9, none)
  | .rig a l => some (fmtB 0x25 0 a l.toNat, none)
  | .rigsv a i => some (fmtB 0x26 0 a i.toNat, none)
  | .rigld a i => some (fmtB 0x27 0 a i.toNat, none)
  | .nop => some (fmtH 0 0 0 0 0, none)
  | .recv d a s => some (fmtH d.toNat a.toNat 0 s.toNat 1, none)
  | .recvv v a s => some (fmtH v.toNat a.toNat 0 s.toNat 2, none)
  | .peek d s => some (fmtH d.toNat 0 0 s.toNat 3, none)
  | .seatset d a b s => some (fmtH d.toNat a.toNat b.toNat s.toNat 4, none)
  | .seatclr d s => some (fmtH d.toNat 0 0 s.toNat 5, none)
  | .join d a => some (fmtH d.toNat a.toNat 0 0 6, none)
  | .sopen d a w c => some (fmtH d.toNat a.toNat 0 (w.toNat * 4 + c.code) 7, none)
  | .sctlClose d k => some (fmtH d.toNat 0 0 k.toNat 8, none)
  | .sctlAbort d k => some (fmtH d.toNat 0 0 (4 + k.toNat) 8, none)
  | .sctlAdvance d k => some (fmtH d.toNat 0 0 (8 + k.toNat) 8, none)
  | .swait d k => some (fmtH d.toNat 0 0 k.toNat 9, none)
  | .fwait a b => some (fmtH 0 a.toNat b.toNat 0 10, none)
  | .fence s => some (fmtH 0 0 0 s.code 11, none)
  | .watch d a => some (fmtH d.toNat a.toNat 0 0 12, none)
  | .sleep d => some (fmtH d.toNat 0 0 0 13, none)
  | .yield => some (fmtH 0 0 0 0 14, none)
  | .wake d a => some (fmtH d.toNat a.toNat 0 0 15, none)
  | .tqpush d a p => some (fmtH d.toNat a.toNat 0 p.toNat 16, none)
  | .tqpop d => some (fmtH d.toNat 0 0 0 17, none)
  | .barr d b => some (fmtH d.toNat 0 0 b.toNat 18, none)
  | .bwait a b => some (fmtH 0 a.toNat 0 b.toNat 19, none)
  | .siteq d a => some (fmtH d.toNat a.toNat 0 0 20, none)
  | .coxcallPoisoned d a b => some (fmtH d.toNat a.toNat b.toNat 0 21, none)
  | .coxcallLog d a b n => some (fmtH d.toNat a.toNat b.toNat n.toNat 21, none)
  | .coxcallCheckpoint d a b => some (fmtH d.toNat a.toNat b.toNat 2 21, none)
  | .sret => some (fmtH 0 0 0 0 22, none)
  | .halt => some (fmtH 0 0 0 0 23, none)
  | .haltSlot a => some (fmtH 0 a.toNat 0 1 23, none)
  | .trap i => some (fmtB 0x29 0 0 i.toNat, none)
  | .liLong d v => some (fmtL 0x30 d 0 0 0 0, some v.toNat)
  | .liHi d v => some (fmtL 0x30 d 0 0 0 1, some v.toNat)
  | .send d a b c l h => some (fmtL 0x31 d a.toNat b.toNat c.toNat 0, some (extSend 0 l h))
  | .sendv d a b c l h => some (fmtL 0x31 d a.toNat b.toNat c.toNat 1, some (extSend 0 l h))
  | .sendr d a b c s l h => some (fmtL 0x31 d a.toNat b.toNat c.toNat 2, some (extSend s.code l h))
  | .finish d a c l h => some (fmtL 0x31 d a.toNat 0 c.toNat 3, some (extSend 0 l h))
  | .renorm d a b c h => some (fmtL 0x31 d a.toNat b.toNat c.toNat 4, some (extSend 0 .c3 h))
  | .amo d a b k o => some (fmtL 0x32 d a.toNat b.toNat 0 0, some (extAmo k o))
  | .cas d a b c k => some (fmtL 0x32 d a.toNat b.toNat c.toNat 1, some (extAmo k .add))
  | .asyncTrapEntry .. | .timerExpiry .. | .idleIssueResume .. | .clusterPortAccess ..
  | .mmaExecute .. | .mmasExecute .. | .acczPerform .. | .accrnPerform .. | .accldPerform ..
  | .accstPerform .. | .streamLegStart .. | .streamCompletion .. | .legRewind .. | .dataArrival ..
  | .finishArrival .. | .replyArrival .. | .finishResend .. | .treeBlockDelivery ..
  | .renormFromParent .. | .treeFinishForward .. | .rootFlagWrite .. | .barrierArrival ..
  | .barrierRelease .. | .homeAtomic .. | .atomicResend .. | .atomicBusyResend ..
  | .lowAcknowledgement .. | .proxyAtomic .. | .watchRequest .. | .watchWakeArrival ..
  | .wakeArrival .. | .deadlockProbe .. | .watchdogExpiry .. | .scrubVisit .. | .revisit ..
  | .bucketLeak .. | .umpireInterval .. | .operatingPointChange .. | .thermalCapStep ..
  | .phaseLoss .. | .governorTrimRaise .. | .rampSample .. | .paddleCreation .. | .ptpTimestamp ..
  | .monitorRead .. | .alignmentRemeasure .. | .counterExchange .. | .linkReplay ..
  | .sliceRetest .. | .linkRetrain .. | .routeSwitch .. | .contactMade .. | .bringUpStart ..
  | .trainingPass .. | .trainingFailure .. | .siteAdmission .. | .drain .. | .readmit ..
  | .contactLost .. | .surpriseRemoval .. | .lostCleanupComplete .. | .drainComplete ..
  | .drainDeadline .. | .votedTransaction .. | .copyReset .. | .triadCheckpoint .. | .heartbeat ..
  | .deputyTakeover .. | .panelBringUp .. | .quoteRequest .. | .keyEnrolment .. | .keyRevocation ..
  | .register .. | .reside .. | .evict .. | .retire .. | .queueActivate .. | .queueStop ..
  | .doorbell .. | .commandFetch .. | .launch .. | .copy .. | .signalSet .. | .signalAdd ..
  | .waitsig .. | .queueFence .. | .powerBudget .. | .powerRamp .. | .powerSuspend ..
  | .powerResume .. | .pageMap .. | .pageUnmap .. | .pageMigrate .. | .admissionPass ..
  | .panelRoutingWrite .. | .controlWindowWrite .. | .hdmWindowAccess .. | .placement ..
  | .groupStart .. | .groupRetirement .. | .cutComplete .. | .cutDeadline .. | .relaunch ..
  | .refusalRetry .. | .faultLimit .. | .illegalInstruction .. | .poisonedFetch ..
  | .routerFailure .. | .cxlLinkTrainingChange .. | .domainCreation .. | .peerPanelAdmission ..
  | .peerPanelGroupFault .. | .silentCopyTimeout .. => none

/-- The words of an instruction laid out as bytes (R3, R134). -/
def encodeBytes (i : Instr) : Option (List (BitVec 8)) :=
  match encode i with
  | some (w, none) => some (leBytes 4 w)
  | some (w, some x) => some (leBytes 4 w ++ leBytes 4 x)
  | none => none

end Sys2Proof
end

