-- ==== Sys2Proof/Machine/State.lean ====
section
/-! DEFINITION. The state of the panel as plain data, and the state after cold reset. Every piece of
state of INVENTORY.md stands here. A node is named by the key 256 * X + Y of its coordinate (R18). -/

namespace Sys2Proof.Machine

/-- The reasons a step can stop with a fault. The spec's own faults are traps (R54) and core faults
(R56), which are next states. -/
inductive Fault
  /-- Raised by nobody: every event the spec describes has a next state. Safe. -/
  | reserved
  deriving DecidableEq, Repr

/-- The reasons a step can be refused. -/
inductive Refusal
  /-- Raised by an arm of exec whose instruction has no meaning yet. Safe. -/
  | notModelled (mnemonic : String)
  deriving DecidableEq, Repr

/-! ## Registers of a core -/

/-- A general register with its poison bit (R32); also `SSCR` (R46). -/
structure GReg where
  v : BitVec 64
  p : Bool
  deriving DecidableEq, Repr

/-- A vector register: body, side and poison bit (R33). -/
structure VReg where
  body : BitVec 512
  side : BitVec 64
  p    : Bool
  deriving DecidableEq, Repr

/-- `RIGS` (R51). -/
structure Rigs where
  iter   : BitVec 32
  sv     : BitVec 8
  fault  : Bool
  active : Bool
  last   : BitVec 5
  slot   : BitVec 5
  deriving DecidableEq, Repr

/-- The register files of a core (R32-R34, R47, R51). -/
structure Regs where
  g    : Vector GReg 32
  v    : Vector VReg 16
  m    : Vector (BitVec 64) 8
  fpcr : BitVec 14
  rigs : Rigs
  deriving DecidableEq, Repr

/-- Privilege (R55). -/
inductive Priv | u | s
  deriving DecidableEq, Repr

/-- Whether a core issues, and why not. -/
inductive Issue
  /-- The core executes no program: no group has started on it (R274). -/
  | off
  /-- The next instruction issues. -/
  | run
  /-- An instruction holds at issue (R226): asynchronous causes wait. -/
  | hold
  /-- An instruction waits for an engine (R201, R215): an asynchronous cause may be taken. -/
  | wait
  /-- An idle `SLEEP d` at S (R83). -/
  | idle (d : GR)
  /-- A core fault, or the cox, stopped issue (R56, R275). -/
  | stopped
  /-- Restored by a resumption at an idle `SLEEP d`, and not started yet (R276, R274 step 6). -/
  | restored (d : GR)
  deriving DecidableEq, Repr

/-- Program counter, privilege, trap and identity registers of a core (R46-R53). -/
structure Ctl where
  pc     : BitVec 16
  priv   : Priv
  issue  : Issue
  /-- `TCAUSE.ASYNC` and `TCAUSE.CAUSE`. -/
  async  : Bool
  cause  : BitVec 5
  tpc    : BitVec 16
  tval   : BitVec 64
  kvec   : BitVec 4
  sscr   : GReg
  riga   : Bool
  /-- `TID.SLOT`, `TID.X`, `TID.Y`. -/
  slot   : SlotId
  tidX   : BitVec 9
  tidY   : BitVec 8
  /-- `SHARD`. -/
  gx     : BitVec 9
  gy     : BitVec 8
  /-- `GRP`. -/
  gid    : BitVec 16
  col0   : BitVec 9
  row0   : BitVec 8
  wm1    : BitVec 9
  hm1    : BitVec 8
  /-- `DOMID`. -/
  dom    : BitVec 16
  key    : BitVec 13
  /-- `RAMPF.PADDLE`; FLOOR is the tile's, in Power. -/
  paddle : Bool
  /-- `PMC0`-`PMC7`: EVENT in bits 63:48, COUNT below. -/
  pmc    : Vector (BitVec 64) 8
  deriving DecidableEq, Repr

/-! ## Context slots (R44, R76) -/

/-- STATE of a slot (R44). -/
inductive SlotSt | free | ready | running | sleep | trapped | retired
  deriving DecidableEq, Repr

/-- WHY of a sleeping slot, with what the sleep waits for (R80). -/
inductive Why
  | none
  | seat (s : BitVec 6)
  | join (set : BitVec 64)
  | counter (k : WC) (n : BitVec 10)
  | flag (a : BitVec 64) (seq : BitVec 16)
  | barrier (b : BitVec 3) (p : BitVec 8)
  | sleep
  deriving DecidableEq, Repr

/-- One packet a slot sent that is not answered yet (R95, R231), with the allocation that sent it. The count
outlives the allocation: what is not answered when a slot is FREE stays unanswered. -/
structure Unanswered where
  alloc : Nat
  panel : BitVec 8
  dst   : Nat
  chan  : BitVec 12
  lc    : BitVec 2
  fin   : Bool
  round : BitVec 8
  seq   : BitVec 16
  deriving DecidableEq, Repr

/-- One context slot. -/
structure Slot where
  st        : SlotSt
  level     : BitVec 2
  paddle    : Bool
  tcmp      : BitVec 64
  /-- Bit 0 TIMER, 1 PREEMPT, 2 LATE, 3 WATCHDOG, 4 DEADLOCK, 5 SITE (R50). -/
  pend      : BitVec 6
  /-- `TVAL` of each pending cause, in the order of pend. -/
  pendVal   : Vector (BitVec 64) 6
  w         : Vector (BitVec 16) 4
  why       : Why
  wreg      : GR
  wstat     : BitVec 3
  wl        : Bool
  flagp     : BitVec 6
  qd        : Bool
  /-- How often the slot has left FREE: names its allocation (R202, R242). -/
  alloc     : Nat
  sendCount : BitVec 16
  unans     : List Unanswered
  /-- First status other than OK with its channel, when there is one (R231). -/
  record    : Option (BitVec 8 × BitVec 12)
  /-- Tree channels on which a block came back HOLE since the slot's last FINISH on them (R107). -/
  holed     : List (BitVec 12)
  lastWatch : BitVec 64
  lastFull  : Bool
  slept     : Nat
  /-- The pending PREEMPT was raised by a cut; the slot took one and is parked (R275). -/
  cutPend   : Bool
  parked    : Bool
  /-- A paddle slot that becomes FREE once it is READY: `RAMPF.PADDLE` has fallen, or a cut begun, while it ran (R280). -/
  doomed    : Bool
  deriving DecidableEq, Repr

/-! ## Tables and engines a core's contexts share (R41-R43, R201-R204, R42) -/

/-- One entry of the tag table (R41). -/
structure TagEntry where
  key   : BitVec 64
  valid : Bool
  deriving DecidableEq, Repr

/-- One seat (R43). -/
structure Seat where
  tail  : BitVec 8
  head  : BitVec 8
  seq   : BitVec 16
  count : BitVec 8
  size  : BitVec 8
  base  : BitVec 16
  round : BitVec 8
  ctx   : SlotId
  fin   : Bool
  valid : Bool
  lc    : BitVec 2
  chan  : BitVec 12
  deriving DecidableEq, Repr

/-- State of a stream slot (R42, R244). -/
inductive StreamSt | free | active | faulted | done
  deriving DecidableEq, Repr

/-- What a voided leg waits for (R301, R302, R304). -/
inductive LegWait
  /-- The leg may start. -/
  | none
  /-- A fault record of the tile of a site, by its index. -/
  | record (site i : Nat)
  /-- A page in migration, by the virtual address that met it. -/
  | migrating (va : Nat)
  /-- A refusal's back-off: step k, due tick. -/
  | refused (k : Nat) (due : Nat)
  deriving DecidableEq, Repr

/-- Where an access of a transfer goes: a node's SRAM, far memory, another panel. -/
inductive End
  | near (key off : Nat)
  | far (fpa : Nat)
  | peer (addr : Nat)
  deriving DecidableEq, Repr

/-- A burst that is sent and not answered (R125, R127, R241): its number in the leg, its words with their
poison, where the first word goes; of an ORDERED burst RID, the tick it was sent, and the tick of a BUSY
answer. -/
structure Flight where
  idx    : Nat
  words  : List (Nat × Bool)
  dest   : End
  rid    : BitVec 16
  sent   : Nat
  busyAt : Option Nat
  deriving DecidableEq, Repr

/-- A leg that has begun (R241): its first byte, the FPA of each 64 KiB unit of VA it has translated (R296),
the words it has read and not yet sent, by their number, the numbers of those it has still to read, how many bursts
it has sent, and those in flight. -/
structure Leg where
  pos   : Nat
  units : List (Nat × Nat)
  got   : List (Nat × Nat × Bool)
  reads : List Nat
  sent  : Nat
  fly   : List Flight
  deriving DecidableEq, Repr

/-- A stream slot with its descriptor (R42, R239). -/
structure Stream where
  st    : StreamSt
  owner : SlotId
  alloc : Nat
  wc    : WC
  cls   : SClass
  src   : BitVec 64
  dst   : BitVec 64
  flag  : BitVec 64
  len   : BitVec 32
  legl  : BitVec 3
  op    : BitVec 4
  w     : Bool
  seq   : BitVec 16
  sstep : BitVec 32
  dstep : BitVec 32
  /-- Bytes from the start to the oldest leg not completed (R244). -/
  pos   : Nat
  pois  : Bool
  cause : BitVec 5
  wait  : LegWait
  /-- Refusals in a row (R302). -/
  tries : Nat
  /-- Legs in flight, at most two; voided legs that run again; where the first leg that never began starts. -/
  legs  : List Leg
  redo  : List Nat
  next  : Nat
  /-- Names the transfer: answers of an earlier one find no other. -/
  serial : Nat
  deriving DecidableEq, Repr

/-- One row of an accumulator tile (R35, R204). -/
structure AccRow where
  m : Vector (BitVec 32) 16
  x : BitVec 8
  p : Bool
  deriving DecidableEq, Repr

/-- What an engine operation does (R201). -/
inductive EngKind
  | mma (y : Ty) | mmas | accz | accrn | accld (y : Ty) | accst (y : Ty)
  deriving DecidableEq, Repr

/-- One operation of the tensor queue or the mover, with what it captured at issue (R201-R203). -/
structure EngOp where
  kind   : EngKind
  tile   : AT
  ga     : BitVec 64
  gb     : BitVec 64
  wc     : WC
  slot   : SlotId
  alloc  : Nat
  serial : Nat
  adesc  : BitVec 256
  bdesc  : BitVec 128
  fpcr   : BitVec 14
  /-- Stochastic draws taken at issue (R217). -/
  draws  : List (BitVec 16)
  deriving DecidableEq, Repr

/-- The tensor unit of a core (R35, R201, R203). -/
structure Engines where
  acc    : Vector (Vector AccRow 16) 16
  adesc  : BitVec 256
  bdesc  : BitVec 128
  tq     : List EngOp
  mover  : List EngOp
  serial : Nat
  deriving DecidableEq, Repr

/-! ## Packets (R93-R107, R127-R129, R229, R249, R251) -/

/-- Kinds of packets. -/
inductive PKind
  | data | finish | renorm | reply | amo | amoReply | watch | watchReply | wake | wakeReply
  | watchWake | barArrive | barRelease | treeBlock | treeFinish | treeReply | lowAck
  deriving DecidableEq, Repr

/-- A packet in flight. Fields a kind does not use hold 0. -/
structure Packet where
  kind    : PKind
  src     : Nat
  dst     : Nat
  /-- Panel index the packet comes from and goes to; 0xFF is this panel (R30). -/
  srcPan  : BitVec 8
  dstPan  : BitVec 8
  /-- The panel link by which a packet of another panel has come (R323). -/
  via     : Nat
  gid     : BitVec 16
  /-- Domain of the issuer, for the grant check at the home (R31). -/
  dom     : BitVec 16
  /-- Source shard. -/
  gx      : BitVec 9
  gy      : BitVec 8
  chan    : BitVec 12
  lc      : BitVec 2
  round   : BitVec 8
  seq     : BitVec 16
  pois    : Bool
  flits   : Nat
  body    : BitVec 512
  aux     : BitVec 64
  /-- Issuing slot with its allocation; for a watch wake or a wake, the slot named. -/
  slot    : SlotId
  alloc   : Nat
  status  : BitVec 8
  addr    : BitVec 64
  val     : BitVec 64
  cmp     : BitVec 64
  op      : AmoOp
  isCas   : Bool
  width   : AmoW
  rid     : BitVec 16
  low     : BitVec 16
  /-- A reply that answers a FINISH; a FINISH with PARTIAL. -/
  fin     : Bool
  part    : Bool
  /-- Child direction at the router (R102); barrier number. -/
  dir     : BitVec 3
  /-- Participants an arrival stands for (R100); of a far atomic, one more than the site of its proxy
  core, addr being the FPA (R129). An ORDERED burst is an atomic with flits: its words, in body, with their poison
  in aux; slot and alloc name the stream slot and the transfer (R241). -/
  count   : Nat
  deriving DecidableEq, Repr

/-- The remote request a held instruction waits on (R226). -/
structure Rpc where
  req    : Packet
  sent   : Nat
  /-- Status and old value of the reply, once it has arrived. -/
  reply  : Option (BitVec 8 × BitVec 64)
  /-- The old value has the poison bit: a router's buffers spoiled the reply (R88, R355). -/
  pois   : Bool
  /-- A BUSY reply came at this tick (R127). -/
  busyAt : Option Nat
  deriving DecidableEq, Repr

/-- A store waiting at a cluster port (R40). -/
structure PortStore where
  src   : Nat
  off   : Nat
  bytes : List (BitVec 8)
  p     : Bool
  /-- The slot whose tag the lines take; none for a store at S (R39). -/
  tag   : Option SlotId
  /-- An `ST`: where it is narrow and clean, a word that carries poison changes with no visible change (R175). -/
  st    : Bool
  deriving DecidableEq, Repr

/-- A word of a peer's scratchpad that a cluster-direct read has taken ahead of its place in the program (R115):
node, word offset, its bytes and poison as read. -/
structure Ahead where
  key  : Nat
  word : Nat
  val  : BitVec 64
  p    : Bool
  deriving DecidableEq, Repr

/-- What a cluster-direct read that is still to be taken writes (R115): a general register by an `LD` width; of a vector register
dword i of the body, the side, lane i of a number of bits, or the sixteen byte lanes that dword i of a BK4 plane gives. -/
inductive LateReg
  | scalar (r : GR) (w : LdW)
  | body (v : VR) (i : Nat)
  | side (v : VR)
  | lane (v : VR) (bits i : Nat)
  | nibbles (v : VR) (i : Nat)
  deriving DecidableEq, Repr

/-- A cluster-direct read whose instruction has committed and whose value is still to be taken (R115): what it writes, node,
offset. -/
structure Late where
  reg : LateReg
  key : Nat
  off : Nat
  deriving DecidableEq, Repr

/-- An asynchronous cause that arises while a rig runs: the stroke, the cause's bit in PEND, its
`TVAL` (R86). -/
structure RigEvent where
  stroke : Nat
  bit    : BitVec 3
  val    : BitVec 64
  deriving DecidableEq, Repr

/-- An entry of a TLB (R299). -/
structure TlbEntry where
  dom  : BitVec 16
  vpn  : Nat
  /-- Bits of the page offset: 16, 21 or 30. -/
  size : Nat
  rd   : Bool
  wr   : Bool
  at'  : Bool
  fpa  : Nat
  key  : BitVec 13
  deriving DecidableEq, Repr

/-- What the contexts of a core share (R37). -/
structure Shared where
  fifo    : Vector (List SlotId) 4
  tag     : Vector TagEntry 64
  seat    : Vector Seat 64
  stream  : Vector Stream 4
  lfsr    : BitVec 32
  arr     : Vector (BitVec 8) 8
  done    : Vector (BitVec 8) 8
  /-- Next RID, and homes answered last at a tick and not yet acknowledged: the panel index of the home, then its
  name (R127). -/
  rid     : BitVec 16
  acks    : List (BitVec 8 × Nat × Nat)
  /-- RIDs of the requests that are not answered, the oldest first (R127). -/
  unrep   : List (BitVec 16)
  /-- Reads taken ahead and reads still to be taken (R115), and how many transfers have been opened or advanced. -/
  ahead   : List Ahead
  late    : List Late
  opened  : Nat
  rpc     : Option Rpc
  /-- FINISH packets answered BUSY, with the tick (R98). -/
  busyFin : List (Packet × Nat)
  port    : List PortStore
  turn    : Nat
  utlb    : List TlbEntry
  /-- Back-off of a refused far atomic: step k, due tick (R302). -/
  backoff : Option (Nat × Nat)
  cut     : Bool
  cutTick : Nat
  duringRig : List RigEvent
  /-- Slots that a wake has queued within the tick (R92). -/
  woke    : List SlotId
  deriving DecidableEq, Repr

/-- One core. -/
structure Core where
  regs   : Regs
  ctl    : Ctl
  slots  : Vector Slot 16
  eng    : Engines
  sh     : Shared
  deriving DecidableEq, Repr

/-! ## Nodes: routers and homes -/

/-- Sink word of a root entry (R102). -/
structure Sink where
  nblkm1 : BitVec 12
  mbase  : BitVec 12
  sbase  : BitVec 16
  flag   : BitVec 15
  deriving DecidableEq, Repr

/-- A combine entry (R102). Direction bits: 0 west, 1 north, 2 east, 3 south, 4 local. -/
structure CombEntry where
  gid    : BitVec 16
  chan   : BitVec 12
  parent : BitVec 3
  child  : BitVec 5
  absent : BitVec 5
  admv   : Bool
  admd   : BitVec 3
  admRound : BitVec 8
  sink   : Option Sink
  /-- NBLKM1 of the tree, against which every router of it tests a block's index (R103). -/
  nblkm1 : BitVec 12
  /-- Latest round a buffer was allocated for or a FINISH forwarded (R107). -/
  latest : Option (BitVec 8)
  /-- Latest round whose FINISH was forwarded (R107). -/
  passed : Option (BitVec 8)
  /-- Rounds completed at the root since group start (R105). -/
  rounds : BitVec 16
  deriving DecidableEq, Repr

/-- A BK16 block in a combine buffer: 32 mantissas, scale word, poison. -/
structure TreeBlk where
  m     : BitVec 512
  scale : BitVec 32
  p     : Bool
  deriving DecidableEq, Repr

/-- A combine buffer (R102, R103). -/
structure TreeBuf where
  gid   : BitVec 16
  chan  : BitVec 12
  idx   : BitVec 12
  round : BitVec 8
  snap  : BitVec 5
  got   : List (BitVec 3 × TreeBlk)
  /-- Forwarded to the parent and not answered yet, or written at the root. -/
  sent  : Bool
  deriving DecidableEq, Repr

/-- Finishes of a round a router holds (R105). -/
structure FinHeld where
  gid   : BitVec 16
  chan  : BitVec 12
  round : BitVec 8
  got   : BitVec 5
  part  : Bool
  /-- Indices of the blocks of the round that the root has written (R105). -/
  wrote : List (BitVec 12)
  /-- The combined FINISH stands at the root, or its PARTIAL after a HOLE (R105, R107). -/
  root  : Bool
  deriving DecidableEq, Repr

/-- Barrier arrivals a router holds (R100). -/
structure BarHeld where
  gid   : BitVec 16
  b     : BitVec 3
  phase : BitVec 8
  count : Nat
  deriving DecidableEq, Repr

/-- An armed watch (R110). -/
structure WatchEntry where
  off   : Nat
  addr  : BitVec 64
  /-- The watcher's panel index and node. -/
  pan   : BitVec 8
  core  : Nat
  slot  : SlotId
  gid   : BitVec 16
  /-- The watcher's domain, by whose panel map a wake for another panel goes (R323). -/
  dom   : BitVec 16
  deriving DecidableEq, Repr

/-- An entry of a reply cache (R128). -/
structure CacheEntry where
  rid    : BitVec 16
  status : BitVec 8
  old    : BitVec 64
  deriving DecidableEq, Repr

/-- A source row of a reply cache (R128). -/
structure CacheRow where
  panel   : BitVec 8
  src     : Nat
  low     : BitVec 16
  entries : List CacheEntry
  deriving DecidableEq, Repr

/-- A line of a scrubber's revisit list: line, revisits without a correction, last visit (R356). -/
structure Revisit where
  line  : Nat
  clean : Nat
  last  : Nat
  deriving DecidableEq, Repr

/-- What belongs to a part at its physical place, whatever coordinate it is bound to (R18, R19, R355-R358). -/
structure Part where
  bucket  : Nat
  leakAt  : Nat
  suspect : Bool
  /-- The line the scrubber visits next, and the tick its pass began. -/
  scrub   : Nat
  scrubAt : Nat
  revisit : List Revisit
  /-- The router at the place has failed (R19). -/
  failed  : Bool
  deriving DecidableEq, Repr

/-- Router and home state of one coordinate. -/
structure Node where
  entries : List CombEntry
  bufs    : List TreeBuf
  fins    : List FinHeld
  bars    : List BarHeld
  watches : List WatchEntry
  cache   : List CacheRow
  /-- Words of the node that the table of poison codes does not list carry the code (R340). -/
  marked  : Bool
  deriving DecidableEq, Repr

/-! ## Sites (R333) and their triads (R345) -/

/-- STATE of a site (R333). -/
inductive SiteSt | empty | seated | training | fenced | live | draining | safe | lost
  deriving DecidableEq, Repr

/-- STATE of a triad copy (R347). -/
inductive CopySt | voting | out | reloading | retired
  deriving DecidableEq, Repr

/-- A transaction a copy has presented that is not issued yet: copy, number, what it is, tick (R346). -/
structure Shown where
  copy : BitVec 2
  no   : Nat
  tx   : Nat
  tick : Nat
  deriving DecidableEq, Repr

/-- The triad of a tile (R345-R350). -/
structure Triad where
  copies  : Vector CopySt 3
  reloads : Vector Nat 3
  halted  : Bool
  /-- Transactions issued and the latest one (R346). -/
  txs     : Nat
  last    : Nat
  lastAt  : Nat
  /-- How many transactions each copy has presented; those that wait for a second copy; and issued ones that
  a third copy has still to present, with the tick of the issue (R346). -/
  sent    : Vector Nat 3
  shown   : List Shown
  silent  : List Shown
  /-- Transactions of the triad's own work that come after one that waits for its second copy (R345, R346). -/
  behind  : Nat
  /-- Checkpoints committed, their latest digest and tick (R348). -/
  checks  : Nat
  digest  : Nat
  checkAt : Nat
  deriving DecidableEq, Repr

/-- Who waits on a fault record (R302). -/
inductive Joiner
  | atomic (core : Nat)
  | stream (core : Nat) (k : BitVec 2)
  | copy (q : Nat)
  deriving DecidableEq, Repr

/-- STATE of a fault record (R302). -/
inductive RecSt | free | pending | resolved | failed
  deriving DecidableEq, Repr

/-- A fault record (R302). -/
structure FaultRec where
  vpage : BitVec 41
  dom   : BitVec 16
  x     : BitVec 9
  y     : BitVec 8
  slot  : SlotId
  src   : BitVec 3
  perm  : Bool
  st    : RecSt
  tag   : BitVec 16
  /-- Permissions the joined accesses need: RD, WR, AT. -/
  need  : BitVec 3
  join  : List Joiner
  since : Nat
  /-- The tick in which it became FAILED, and whether by the fault limit (R310). -/
  ended : Option (Nat × Bool)
  deriving DecidableEq, Repr

/-- A tile's measurement register: the digest of its triad firmware, its retirement list, the digest of its fuse set (R376). -/
structure Measurement where
  firmware : Nat
  retired  : List (Nat × Nat)
  fuses    : Nat
  deriving DecidableEq, Repr

/-- A site and its tile. -/
structure Site where
  st       : SiteSt
  epoch    : BitVec 16
  contact  : Bool
  since    : Nat
  /-- Skip column of region row 16 * region + row; 32 when unlisted (R18). -/
  skips    : Tbl Nat
  /-- Retirement list of the tile: region row and physical column (R340, R358). -/
  retired  : List (Nat × Nat)
  /-- Parts by their place: 33 * region row + physical column. -/
  parts    : Tbl Part
  /-- A reason of R359 to recommend replacing the tile. -/
  replace  : Bool
  ctlb     : Tbl (List TlbEntry)
  ttlb     : List TlbEntry
  faults   : Tbl FaultRec
  tag      : BitVec 16
  proxy    : Tbl (List Packet)
  /-- Queues whose first atomic has read its bytes, with their value (R129). -/
  taken    : Tbl (Option Nat)
  pcache   : List CacheRow
  triad    : Triad
  /-- The measurement register, once the tile has booted, and the digest of the quote it gave at its latest attestation
  (R376). -/
  measured : Option Measurement
  quote    : Nat
  /-- The certificate chain of the tile's identity key does not verify (R376). -/
  forged   : Bool
  /-- The tick in which the DRAINING deadline made the site SAFE (R338, R354). -/
  lapsed   : Option Nat
  /-- Phases lost of regulator group g (R368). -/
  phases   : Tbl Nat
  /-- Route switches not finished: lane classes still to switch, in order (R320, R336). -/
  switches : List (BitVec 2)
  /-- The same for a reseed of the tile (R320). -/
  reroutes : List (BitVec 2)
  deriving DecidableEq, Repr

/-! ## Clock (R27-R29) -/

/-- One clock region: its counter's lead over the panel reference, OFFSET and VALID (R28). -/
structure Region where
  lead   : Int
  offset : BitVec 16
  valid  : Bool
  /-- Tick of the last measurement. -/
  measAt : Nat
  deriving DecidableEq, Repr

/-- The race clock. -/
structure Clock where
  /-- Ticks of the panel reference since cold reset. -/
  ticks   : Nat
  /-- Slewing of the panel toward its partner: what has been slewed, and the aim (R325). -/
  slewed  : Int
  aim     : Int
  regions : Tbl Region
  aligned : Bool
  deriving DecidableEq, Repr

/-! ## Power and health (R355-R375) -/

/-- A quad (R14, R363-R367, R375). -/
structure Quad where
  point   : Nat
  capR    : Nat
  capT    : Nat
  trim    : Nat
  /-- Raises of the trim are frozen until this tick. -/
  freeze  : Nat
  errAt   : Nat
  changed : Nat
  temp    : BitVec 16
  vmv     : BitVec 12
  roc     : BitVec 20
  slow    : Bool
  /-- Ticks of the last step of capT, the last look at the trim and the last reading. -/
  capAt   : Nat
  trimAt  : Nat
  readAt  : Nat
  deriving DecidableEq, Repr

/-- An umpire core's shadowing (R16, R360). -/
structure Umpire where
  /-- Physical column shadowed. -/
  col    : Nat
  filled : Bool
  isOpen : Bool
  since  : Nat
  /-- Outputs the core has committed in the window that is open (R361). -/
  outs   : Nat
  deriving DecidableEq, Repr

/-- The power side of the panel. -/
structure Power where
  quads    : Tbl Quad
  umpires  : Tbl Umpire
  /-- I of R360 and LEAK of R357. -/
  interval : Nat
  leak     : Nat
  /-- L in W per ms, P[n - 1], tile samples and floors in 0.125 W, samples above BUDGET (R369-R372). -/
  limit    : Nat
  /-- L before the latest RAMP command, and the tick of that command (R378). -/
  was      : Nat × Nat
  last     : Nat
  tiles    : Tbl Nat
  /-- `RAMPF.FLOOR` of the cores of each compute tile (R52, R371). -/
  floors   : Tbl (BitVec 16)
  above     : Nat
  throttle : Bool
  /-- Tiles whose sample was above their share at the last sample (R370). -/
  exceeded : List Nat
  emerg    : Bool
  sampleNo : BitVec 32
  deriving DecidableEq, Repr

/-! ## Kernels, queues, groups (R259-R295) -/

/-- A section of an image (R163, R260). -/
structure Sect where
  ty   : Nat
  var  : Nat
  load : Nat
  len  : Nat
  body : List (BitVec 8)
  deriving DecidableEq, Repr

/-- An image as parsed (R259). -/
structure Image where
  dom   : BitVec 16
  keyid : Nat
  sects : List Sect
  deriving DecidableEq, Repr

/-- STATE of a kernel (R266). -/
inductive KernSt | none | registered | resident | retired
  deriving DecidableEq, Repr

/-- An entry of the kernel table (R265-R267). -/
structure Kern where
  st     : KernSt
  gen    : BitVec 16
  image  : Image
  digest : Nat
  addr   : BitVec 64
  size   : BitVec 32
  /-- CXL ports behind which store copies stand. -/
  copies : List Nat
  /-- The kernel's symbol `_paddle`, none where it defines none, once a paddle context has been asked for (R280). -/
  paddle : Option (Option (BitVec 16))
  /-- Bank sites whose leaving lost a copy that is not written again yet (R267, R338). -/
  owed   : List Nat
  deriving DecidableEq, Repr

/-- A kernel request slot (R265). -/
structure Req where
  op     : BitVec 8
  st     : BitVec 8
  reason : BitVec 16
  handle : BitVec 64
  addr   : BitVec 64
  size   : BitVec 32
  /-- Domain of the host that posted it (R264). -/
  dom    : BitVec 16
  deriving DecidableEq, Repr

/-- A fetched command (R284). -/
structure Cmd where
  /-- Numbers the commands of the panel in the order of fetching; idx is the ring index. -/
  no     : Nat
  idx    : Nat
  op     : BitVec 8
  sub    : BitVec 8
  a0     : BitVec 64
  a1     : BitVec 64
  a2     : BitVec 64
  a3     : BitVec 64
  passed : Bool
  done   : Bool
  /-- A LAUNCH or RESUME has entered the bid list; bytes a COPY or pages a MIGRATE have moved. -/
  bid    : Bool
  moved  : Nat
  /-- Table index of the group a LAUNCH started. -/
  group  : Option Nat
  /-- A COPY waits on a fault record, a migration or a back-off. -/
  wait   : LegWait
  /-- Place and entry of the leaf of the page a MIGRATE moves, as they were before MIG was written (R308). -/
  leaf   : Option (Nat × BitVec 64)
  deriving DecidableEq, Repr

/-- STATE of a queue (R282). -/
inductive QueueSt | off | active | error | stopping
  deriving DecidableEq, Repr

/-- A queue (R282, R283). -/
structure Queue where
  st   : QueueSt
  base : BitVec 64
  dom  : BitVec 16
  logn : BitVec 4
  cls  : BitVec 2
  head : BitVec 16
  tail : BitVec 16
  cmds : List Cmd
  deriving DecidableEq, Repr

/-- STATE of a group (R272). -/
inductive GroupSt | unused | admitted | seeding | loading | running | draining | suspended | faulted | retired
  deriving DecidableEq, Repr

/-- What a cut is for (R275). -/
inductive CutFor
  | none
  /-- The queues whose SUSPEND waits for it (R294). -/
  | suspend (qs : List Nat)
  | drain
  deriving DecidableEq, Repr

/-- A saved group (R276): cores and memory by shard tag 256 * gx + gy. -/
structure Save where
  cores : List (Nat × Core)
  /-- Bytes, poison codes and owner tags at 2^18 * tag + offset. -/
  bytes : List (Nat × BitVec 8)
  pois  : List (Nat × Bool)
  tags  : List (Nat × BitVec 5)
  /-- Barrier arrivals held in routers, by shard tag, and arrivals and releases in flight, source and
  destination given as shard tags (log entry 62). -/
  bars   : List (Nat × BarHeld)
  flight : List Packet
  /-- Shards whose unlisted words carry the poison code. -/
  marked : List Nat
  deriving DecidableEq, Repr

/-- An entry of the group table with what the cox keeps of the group (R271-R280). -/
structure Group where
  st      : GroupSt
  gid     : BitVec 16
  col0    : Nat
  row0    : Nat
  w       : Nat
  h       : Nat
  var     : Nat
  rst     : Nat
  ckpt    : BitVec 32
  khandle : BitVec 32
  dom     : BitVec 16
  cls     : Nat
  /-- Age: tick its launch reached the queue's head (R290); admission order. -/
  age     : Nat
  order   : Nat
  queue   : Nat
  image   : Image
  est     : Nat
  limit   : Nat
  /-- Keys of the cores that run an initial context (R271). -/
  cores   : List Nat
  /-- Its cores have been started, or resumed, since they were loaded (R274 step 6). -/
  begun   : Bool
  reports : List (Nat × BitVec 32)
  save    : Option Save
  cut     : CutFor
  cutTick : Nat
  faultAt : Nat
  /-- A multi-panel launch whose other panels have not all admitted (R293). -/
  npan    : Nat
  peersIn : Bool
  /-- It was a resumption that brought the group to SEEDING. -/
  resume  : Bool
  /-- A relaunch after a ramp emergency starts after this variant (R268). -/
  after   : Option Nat
  /-- Tick of the latest start or resumption (R342). -/
  started : Nat
  /-- Tick from which a compute site is no hole to the group: its admission, or the start of its relaunch or
  resumption (R342). -/
  since   : Nat
  /-- Bank sites re-admitted to the running group (R343). -/
  healed  : List Nat
  /-- Bank sites of the lane that have left LIVE since the group's start: out of the barrier's path (R344). -/
  away    : List Nat
  /-- The group's seeding map: skip column of each region row of its lane, 32 when unlisted, by 64 * site +
  region row (R19). -/
  skips   : Tbl Nat
  /-- The routers of the lane hold that map: from LOADING on, until the group lets go of it (R19, R274 step 2). -/
  rows    : Bool
  /-- Rounds completed at the root of each tree since the group's start, by channel (R105). -/
  rounds  : List (BitVec 12 × BitVec 16)
  deriving DecidableEq, Repr

/-- What a bid places (R290). -/
inductive BidFor
  /-- The LAUNCH of a queue with its command number. -/
  | launch (q no : Nat)
  | relaunch (g : Nat)
  | resume (g : Nat) (q : Nat)
  deriving DecidableEq, Repr

/-- An entry of the bid list (R290, R291). -/
structure Bid where
  what   : BidFor
  cls    : Nat
  age    : Nat
  q      : Nat
  bypass : Nat
  /-- Cluster column and row, and the variant they were taken for. -/
  resv   : Option (Nat × Nat × Nat)
  deriving DecidableEq, Repr

/-- The lead cox's tables for the host. -/
structure Lead where
  lead     : Option Nat
  deputy   : Option Nat
  unseen   : Nat
  beatAt   : Nat
  drawGen  : BitVec 64
  isOpen   : Bool
  kernels  : Tbl Kern
  reqs     : Tbl Req
  groups   : Tbl Group
  gids     : BitVec 16
  orders   : Nat
  queues   : Tbl Queue
  signals  : Tbl (BitVec 64)
  bids     : List Bid
  /-- Commands fetched; something has happened that asks for an admission pass (R290). -/
  cmdNo    : Nat
  passDue  : Bool
  bound    : BitVec 4
  budget   : BitVec 24
  /-- BUDGET before the latest BUDGET command, and the tick of that command (R295). -/
  was      : BitVec 24 × Nat
  deriving DecidableEq, Repr

/-! ## Pages, links, boathouse -/

/-- A domain (R30, R297, R305, R306). -/
structure Domain where
  spec : DomainSpec
  pool : List (BitVec 52)
  deriving DecidableEq, Repr

/-- Pages (R296-R310). -/
structure Pages where
  domains : Tbl (Option Domain)
  flim    : BitVec 6
  made    : BitVec 64
  deriving DecidableEq, Repr

/-- STATE of a link (R314). -/
inductive LinkSt | down | up | degraded | dead
  deriving DecidableEq, Repr

/-- A substrate link (R313-R315) or panel link (R326). -/
structure Link where
  st      : LinkSt
  slices  : BitVec 8
  retrain : Nat
  shed    : Nat
  /-- Tick of the last change, retest or retrain, and of the last counter exchange. -/
  since   : Nat
  exchAt  : Nat
  offset  : BitVec 16
  peer    : BitVec 10
  pport   : BitVec 4
  /-- Hops from the partner of a panel link to the root panel (R325). -/
  hops    : Nat
  /-- The partner panel's port is not LIVE and trained (R314). -/
  gone    : Bool
  /-- Lane classes whose routes still avoid the retrained link, in the order in which they switch to it (R320). -/
  turn    : List (BitVec 2)
  deriving DecidableEq, Repr

/-- A CXL port (R327-R330). -/
structure CxlPort where
  host    : Bool
  trained : Bool
  dom     : BitVec 16
  /-- Key slot bound to a HOST port (R330). -/
  key     : BitVec 13
  /-- The device at a MEMORY port trains when the port comes up (R327, R340). -/
  attached : Bool
  deriving DecidableEq, Repr

/-- Links and ports. -/
structure Links where
  links   : Tbl Link
  plinks  : Tbl Link
  cxl     : Tbl CxlPort
  window  : List (Nat × Nat)
  routing : Tbl (BitVec 16)
  sysnum  : BitVec 10
  root    : Bool
  /-- The key store: two 256-bit keys in each of 8192 slots, the first in the low half (R306). -/
  keys     : Tbl (BitVec 512)
  /-- Uncorrectable non-fatal errors reported to hosts: port and host address (R330). -/
  reports  : List (Nat × Nat)
  /-- What the last HDM read returned to the host: value and poison (R330). -/
  answer  : Option (BitVec 64 × Bool)
  deriving DecidableEq, Repr

/-- What the boathouse controller logs and what a cox is told (R255, R355, R359). -/
inductive LogEntry
  | words (site : Nat) (a b : BitVec 64)
  | poisoned (core : Nat) (slot : SlotId) (tval : BitVec 64)
  | coreFault (core : Nat) (cause : BitVec 5) (tval : BitVec 64)
  | late (core : Nat) (seat : BitVec 6) (tval : BitVec 64)
  | uncorrectable (node line word : Nat) (owner : BitVec 5)
  | region (r : Nat)
  /-- The core, its umpire's interval by its first tick, and the number of the output in the window (R361). -/
  | mismatch (core since out : Nat)
  | replace (site : Nat)
  | site (n : Nat) (st : SiteSt)
  | dissent (site : Nat) (copy : BitVec 2)
  | halted (site : Nat)
  | droppedWrite (port addr : Nat)
  | miss (sample : BitVec 32)
  /-- A panel quote: the nonce, the controller's firmware digest, each LIVE site with its tile's quote digest, the digest
  of the enrolled keys, and the signature of all that with the panel identity key (R376). -/
  | quote (nonce : BitVec 256) (firmware : Nat) (sites : List (Nat × Nat)) (keys signature : Nat)
  | trip (quad : Nat)
  | groupFault (gid : BitVec 16)
  deriving DecidableEq, Repr

/-- A key enrolled for a domain: its KEYID, modulus and exponent (R261, R377). -/
structure SignKey where
  dom   : BitVec 16
  keyid : Nat
  n     : Nat
  e     : Nat
  deriving DecidableEq, Repr

/-- Firmware as it is stored: its digest, the digest of the key that signs it, and whether the signature verifies under that key
(R261, R376). -/
structure Firmware where
  digest : Nat
  key    : BitVec 256
  signed : Bool
  deriving DecidableEq, Repr

/-- The boathouse controller. -/
structure Boat where
  /-- Digest of the Jankocor key, fused; the controller's firmware, and the triad firmware it loads (R376). -/
  fused     : BitVec 256
  firmware  : Firmware
  triad     : Firmware
  log       : List LogEntry
  /-- Words queued by `COXCALL` LOG. -/
  queue     : List (Nat × BitVec 64 × BitVec 64)
  keys      : List SignKey
  telemetry : List (BitVec 64 × BitVec 64 × BitVec 64 × BitVec 64)
  /-- The last two PTP pairs (R, T), newest first (R373). -/
  ptp       : List (Nat × BitVec 64)
  locked    : Bool
  monitors  : Tbl (BitVec 64)
  deriving DecidableEq, Repr

/-! ## The whole state -/

/-- What the environment does to the panel in a step beside the packets that arrive and the row that runs. -/
inductive Input
  /-- The access of this step to a word of a node meets an error: node, line, word (R38, R355). -/
  | word (node line w : Nat) (e : Ecc)
  /-- A read of a general register, a vector register or an accumulator row of a core meets one (R355). -/
  | general (core : Nat) (r : GR) (e : Ecc)
  | vector (core : Nat) (r : VR) (e : Ecc)
  | accumulator (core : Nat) (t : AT) (row : BitVec 4) (e : Ecc)
  /-- The router of a node finds an error in a packet in its buffers, by the packet's place in flight (R355). -/
  | packet (node n : Nat) (e : Ecc)
  /-- The router of a node finds one in a burst of a STREAM or RANDOM transfer of a core, by its leg and its place in flight there; or in
  a word that a leg of a GET has read and not landed yet, by its number (R93, R241, R355). -/
  | burst (node core : Nat) (k : BitVec 2) (leg fly : Nat) (e : Ecc)
  | landing (node core : Nat) (k : BitVec 2) (leg w : Nat) (e : Ecc)
  /-- An atomic request or its reply is lost on a router that has failed (R127). -/
  | lose (n : Nat)
  /-- The operator sets LEAK or I (R357, R360). -/
  | leak (n : Nat)
  | interval (i : Nat)
  /-- An umpire falls 4 KiB of mirrored input behind (R360). -/
  | behind (umpire : Nat)
  /-- The partner panel's end of a panel link leaves service, or is back (R314). -/
  | partner (b : Nat) (gone : Bool)
  /-- A CXL access of this step to a line meets an error: its FPA (R129, R242, R298, R328). -/
  | cxlError (line : Nat)
  /-- The boathouse controller stops the cores of a tile whose triad is HALTED (R350). -/
  | stopTile (site : Nat)
  /-- A walker of a tile's triad gives in this step a result that no other gives (R300, R346). -/
  | walker (site : Nat) (copy : BitVec 2)
  /-- A wake condition of the slot falls in the cycle of this step (R92). -/
  | together (slot : SlotId)
  /-- The selected core reads a word of a cluster peer ahead (R115). -/
  | readAhead (key word : Nat)
  /-- The cluster-direct reads of this step's load have their values taken later, or those that have not been taken yet still wait
  (R115). -/
  | readLate
  /-- One of the selected core's reads that still wait is taken, by its place (R115). -/
  | takeRead (n : Nat)
  /-- The controller's store holds other firmware: its own, which its ROM looks at when the panel boots, or the triads' (R376). -/
  | firmware (f : Firmware)
  | triad (f : Firmware)
  /-- The identity key of the tile in a site has no certificate chain that verifies (R376). -/
  | forged (site : Nat)
  deriving DecidableEq, Repr

/-- One turn of the environment's order (the model's own): packets of other panels that arrive
first, the core selected, what else the environment does, and an operation, or none for that core's next
instruction. -/
structure Turn where
  core   : Nat
  arrive : List Packet
  inputs : List Input
  op     : Option Instr
  deriving DecidableEq, Repr

/-- The state of the panel. -/
structure State where
  /-- The core that core holds, by its node key; the records of the others stand in peers. -/
  here   : Nat
  core   : Core
  peers  : Tbl Core
  mem    : List Host.Cell
  pois   : Tbl Bool
  tags   : Tbl (BitVec 5)
  nodes  : Tbl Node
  net    : List Packet
  /-- Packets held at their local ports while a route is switched (R320). -/
  queued : List Packet
  out    : List Packet
  clock  : Clock
  sites  : Tbl Site
  power  : Power
  lead   : Lead
  pages  : Pages
  links  : Links
  boat   : Boat
  agenda : List Turn
  /-- What the environment does in the step that runs. -/
  met    : List Input
  /-- How many free values have been drawn. -/
  draws  : Nat
  deriving DecidableEq, Repr

/-! ## Reset -/

/-- A register of zero (log entry 1). -/
def GReg.zero : GReg := ⟨0, false⟩
/-- A vector register of zero (log entry 1). -/
def VReg.zero : VReg := ⟨0, 0, false⟩
/-- `RIGS` at reset (R51). -/
def Rigs.zero : Rigs := ⟨0, 0, false, false, 0, 0⟩
/-- A slot at reset: FREE (R44, R76). -/
def Slot.free : Slot :=
  { st := .free, level := 0, paddle := false, tcmp := 0, pend := 0, pendVal := Vector.replicate 6 0,
    w := Vector.replicate 4 0, why := .none, wreg := 0, wstat := 0, wl := false, flagp := 0,
    qd := false, alloc := 0, sendCount := 0, unans := [], record := none, holed := [], lastWatch := 0,
    lastFull := false, slept := 0, cutPend := false, parked := false, doomed := false }
/-- A seat at reset (R43). -/
def Seat.zero : Seat := ⟨0, 0, 0, 0, 0, 0, 0, 0, false, false, 0, 0⟩
/-- A stream slot at reset: FREE (R42). -/
def Stream.free : Stream :=
  { st := .free, owner := 0, alloc := 0, wc := 0, cls := .stream, src := 0, dst := 0, flag := 0,
    len := 0, legl := 0, op := 0, w := false, seq := 0, sstep := 0, dstep := 0, pos := 0,
    pois := false, cause := 0, wait := .none, tries := 0, legs := [], redo := [], next := 0, serial := 0 }
/-- An accumulator row of zero (R204, log entry 2). -/
def AccRow.zero : AccRow := ⟨Vector.replicate 16 0, 0, false⟩
/-- Register files at reset. -/
def Regs.reset : Regs :=
  { g := Vector.replicate 32 GReg.zero, v := Vector.replicate 16 VReg.zero, m := Vector.replicate 8 0,
    fpcr := 0, rigs := Rigs.zero }
/-- The tensor unit at reset (R203, R204). -/
def Engines.reset : Engines :=
  { acc := Vector.replicate 16 (Vector.replicate 16 AccRow.zero), adesc := 0, bdesc := 0, tq := [],
    mover := [], serial := 0 }
/-- The shared tables of a core at reset. -/
def Shared.reset : Shared :=
  { fifo := Vector.replicate 4 [], tag := Vector.replicate 64 ⟨0, false⟩,
    seat := Vector.replicate 64 Seat.zero, stream := Vector.replicate 4 Stream.free, lfsr := 0,
    arr := Vector.replicate 8 0, done := Vector.replicate 8 0, rid := 0, acks := [], unrep := [], ahead := [], late := [], opened := 0, rpc := none,
    busyFin := [], port := [], turn := 0, utlb := [], backoff := none, cut := false, cutTick := 0,
    duringRig := [], woke := [] }
/-- Control registers of the core at node key k at reset (R46-R53, log entries 4 and 5). -/
def Ctl.reset (k : Nat) : Ctl :=
  { pc := 0, priv := .s, issue := .off, async := false, cause := 0, tpc := 0, tval := 0, kvec := 0,
    sscr := GReg.zero, riga := false, slot := 0, tidX := BitVec.ofNat 9 (k / 256),
    tidY := BitVec.ofNat 8 k, gx := 0, gy := 0, gid := 0, col0 := 0, row0 := 0, wm1 := 0, hm1 := 0,
    dom := 0, key := 0, paddle := false, pmc := Vector.replicate 8 0 }
/-- The core at node key k at reset. -/
def Core.reset (k : Nat) : Core :=
  { regs := Regs.reset, ctl := Ctl.reset k, slots := Vector.replicate 16 Slot.free,
    eng := Engines.reset, sh := Shared.reset }
/-- A node at reset. -/
def Node.reset : Node :=
  { entries := [], bufs := [], fins := [], bars := [], watches := [], cache := [], marked := false }
/-- A part at reset (R357). -/
def Part.reset : Part := ⟨0, 0, false, 0, 0, [], false⟩
/-- A triad at reset: three copies voting (log entry 14). -/
def Triad.reset : Triad :=
  { copies := Vector.replicate 3 .voting, reloads := Vector.replicate 3 0, halted := false, txs := 0,
    last := 0, lastAt := 0, sent := Vector.replicate 3 0, shown := [], silent := [], behind := 0, checks := 0, digest := 0, checkAt := 0 }
/-- A FREE fault record (R302). -/
def FaultRec.free : FaultRec :=
  { vpage := 0, dom := 0, x := 0, y := 0, slot := 0, src := 0, perm := false, st := .free, tag := 0,
    need := 0, join := [], since := 0, ended := none }
/-- A site at reset: EMPTY (R333, log entry 14). -/
def Site.reset : Site :=
  { st := .empty, epoch := 0, contact := false, since := 0, skips := [], retired := [], parts := [],
    replace := false, ctlb := [], ttlb := [], faults := [], tag := 0, proxy := [], taken := [], pcache := [],
    triad := Triad.reset, measured := none, quote := 0, forged := false, lapsed := none, phases := [], switches := [], reroutes := [] }
/-- A clock region at reset (R28). -/
def Region.reset : Region := ⟨0, 0, false, 0⟩
/-- A quad at reset (log entry 14). -/
def Quad.reset : Quad :=
  { point := 7, capR := 0, capT := 0, trim := 0, freeze := 0, errAt := 0, changed := 0, temp := 0,
    vmv := 0, roc := 0, slow := false, capAt := 0, trimAt := 0, readAt := 0 }
/-- An umpire at reset (log entry 14). -/
def Umpire.reset : Umpire := ⟨31, false, false, 0, 0⟩
/-- An empty image. -/
def Image.empty : Image := ⟨0, 0, []⟩
/-- A free entry of the kernel table. -/
def Kern.reset : Kern := ⟨.none, 0, Image.empty, 0, 0, 0, [], none, []⟩
/-- A FREE request slot (R265). -/
def Req.reset : Req := ⟨0, 0, 0, 0, 0, 0, 0⟩
/-- A queue at reset: OFF (R282). -/
def Queue.reset : Queue := ⟨.off, 0, 0, 0, 0, 0, 0, []⟩
/-- An unused entry of the group table (R272). -/
def Group.reset : Group :=
  { st := .unused, gid := 0, col0 := 0, row0 := 0, w := 0, h := 0, var := 0, rst := 0, ckpt := 0,
    khandle := 0, dom := 0, cls := 0, age := 0, order := 0, queue := 0, image := Image.empty, est := 0,
    limit := 0, cores := [], begun := false, reports := [], save := none, cut := .none, cutTick := 0, faultAt := 0,
    npan := 1, peersIn := false, resume := false, after := none, started := 0, since := 0,
    healed := [], away := [], skips := [], rows := false, rounds := [] }
/-- A link at reset: DOWN (R315). -/
def Link.reset : Link := ⟨.down, 0, 0, 0, 0, 0, 0, 0, 0, 0, false, []⟩
/-- A CXL port before bring-up (log entry 14). -/
def CxlPort.reset : CxlPort := ⟨false, false, 0, 0, false⟩
/-- The lead cox's tables at reset (R265, R272, R282, R288, R291). -/
def Lead.reset : Lead :=
  { lead := none, deputy := none, unseen := 0, beatAt := 0, drawGen := 0, isOpen := false,
    kernels := [], reqs := [], groups := [], gids := 0, orders := 0, queues := [], signals := [],
    bids := [], cmdNo := 0, passDue := false, bound := 8, budget := 28800, was := (28800, 0) }
/-- Power at reset: I 24 (R360), LEAK 10^10 (R357), L 180 (R369). -/
def Power.reset : Power :=
  { quads := [], umpires := [], interval := 24, leak := 10000000000, limit := 180, was := (180, 0), last := 0,
    tiles := [], floors := [], above := 0, throttle := false, exceeded := [], emerg := false, sampleNo := 0 }

/-- The firmware of the panel as delivered: signed with the fused key (DESIGN CHOICE, log entry 65). -/
def Firmware.reset : Firmware := ⟨0, 0, true⟩
/-- The boathouse controller at reset. -/
def Boat.reset : Boat :=
  { fused := 0, firmware := Firmware.reset, triad := Firmware.reset, log := [], queue := [], keys := [], telemetry := [],
    ptp := [], locked := false, monitors := [] }

/-- The panel right after cold reset. -/
def State.reset : State :=
  { here := 0, core := Core.reset 0, peers := [], mem := [], pois := [], tags := [], nodes := [],
    net := [], queued := [], out := [], clock := ⟨0, 0, 0, [], false⟩, sites := [], power := Power.reset,
    lead := Lead.reset, pages := ⟨[], 26, 0⟩, links := ⟨[], [], [], [], [], 0, false, [], [], none⟩,
    boat := Boat.reset, agenda := [], met := [], draws := 0 }

end Sys2Proof.Machine
end

