-- ==== Sys2Proof/Machine/Ops.lean ====
section
/-! DEFINITION. The named operations over tables, memory, registers, slots and packets, address
resolution (R31), and taking an exception (R55, R56) and giving up the core (R79). -/

namespace Sys2Proof.Machine

/-! ## Tables -/

/-- What key k reads as, d when unlisted. -/
def tget {α : Type} (d : α) : Tbl α → Nat → α
  | [], _ => d
  | (j, v) :: r, k => if j = k then v else tget d r k

/-- List v at key k in its place. -/
def tins {α : Type} (k : Nat) (v : α) : Tbl α → Tbl α
  | [] => [(k, v)]
  | (j, w) :: r => if k < j then (k, v) :: (j, w) :: r else if j = k then (k, v) :: r else (j, w) :: tins k v r

/-- Unlist key k. -/
def tdel {α : Type} (k : Nat) (t : Tbl α) : Tbl α := t.filter (fun e => e.1 != k)

/-- Make key k read as v, keeping the canonical form. -/
def tset {α : Type} [DecidableEq α] (d : α) (t : Tbl α) (k : Nat) (v : α) : Tbl α :=
  if v = d then tdel k t else tins k v t

/-- Keys rise strictly from lo on. -/
def tsorted {α : Type} (lo : Nat) : Tbl α → Bool
  | [] => true
  | (j, _) :: r => decide (lo ≤ j) && tsorted (j + 1) r

/-- The canonical form: keys strictly rising, no value equal to the default. -/
def twf {α : Type} [DecidableEq α] (d : α) (t : Tbl α) : Bool :=
  tsorted 0 t && t.all (fun e => decide (e.2 ≠ d))

/-- Entries with keys from lo to hi - 1. -/
def trange {α : Type} (t : Tbl α) (lo hi : Nat) : Tbl α :=
  t.filter (fun e => decide (lo ≤ e.1) && decide (e.1 < hi))

/-- Unlist every key from lo to hi - 1. -/
def tclear {α : Type} (t : Tbl α) (lo hi : Nat) : Tbl α :=
  t.filter (fun e => !(decide (lo ≤ e.1) && decide (e.1 < hi)))

/-- The element of a vector at a bit-vector index. -/
def bget {α : Type} {n k : Nat} (v : Vector α k) (i : BitVec n) (h : 2 ^ n ≤ k := by decide) : α :=
  v[i.toNat]'(Nat.lt_of_lt_of_le i.isLt h)

/-- A vector with the element at a bit-vector index replaced. -/
def bset {α : Type} {n k : Nat} (v : Vector α k) (i : BitVec n) (x : α)
    (h : 2 ^ n ≤ k := by decide) : Vector α k :=
  v.set i.toNat x (Nat.lt_of_lt_of_le i.isLt h)

/-- The place of the first element that satisfies p. -/
def findAt {α : Type} (p : α → Bool) : List α → Option Nat
  | [] => none
  | x :: r => if p x then some 0 else (findAt p r).map (· + 1)

/-- A list with its k-th element removed. -/
def dropAt {α : Type} : Nat → List α → List α
  | _, [] => []
  | 0, _ :: r => r
  | k + 1, x :: r => x :: dropAt k r

/-- A list with its first element that satisfies p removed. -/
def dropFirst {α : Type} (p : α → Bool) : List α → List α
  | [] => []
  | x :: r => if p x then r else x :: dropFirst p r

/-- A list with f applied to its first element that satisfies p. -/
def mapFirst {α : Type} (p : α → Bool) (f : α → α) : List α → List α
  | [] => []
  | x :: r => if p x then f x :: r else x :: mapFirst p f r

/-! ## Coordinates (R12-R20) -/

/-- X of a node key. -/
def keyX (k : Nat) : Nat := k / 256
/-- Y of a node key. -/
def keyY (k : Nat) : Nat := k % 256
/-- Key of a coordinate. -/
def keyOf (x y : Nat) : Nat := x * 256 + y
/-- Site number of a node (R12, R18). -/
def siteOf (k : Nat) : Nat := 5 * (keyY k / 32) + keyX k / 64
/-- A site holds a compute tile (R12). -/
def computeSite (n : Nat) : Bool := (n % 5 + n / 5) % 2 == 0
/-- The node is a core (R18). -/
def isCore (k : Nat) : Bool := computeSite (siteOf k)
/-- Bytes of SRAM of a node (R1, R31 check 6). -/
def nodeSize (k : Nat) : Nat := if isCore k then 0x10000 else 0x40000
/-- Region index within the tile (R13). -/
def regionOf (k : Nat) : Nat := keyX k % 64 / 32 + 2 * (keyY k % 32 / 16)
/-- Panel region number (R13). -/
def panelRegion (k : Nat) : Nat := 4 * siteOf k + regionOf k
/-- Region row of a node within its tile: 16 * region + row (R18). -/
def regionRow (k : Nat) : Nat := 16 * regionOf k + keyY k % 16
/-- Cluster number on the panel (R15). -/
def clusterOf (k : Nat) : Nat := 64 * siteOf k + 8 * (keyY k % 32 / 4) + keyX k % 64 / 8
/-- Two cores of one cluster (R15). -/
def sameCluster (a b : Nat) : Bool := isCore a && isCore b && clusterOf a == clusterOf b
/-- Draw region of a node: 40 * (Y div 4) + X div 8 (R22). -/
def drawRegion (k : Nat) : Nat := 40 * (keyY k / 4) + keyX k / 8
/-- Keys of a rectangle of nodes. -/
def rectKeys (x0 y0 w h : Nat) : List Nat :=
  (List.range w).flatMap fun i => (List.range h).map fun j => keyOf (x0 + i) (y0 + j)
/-- Keys of a tile's nodes. -/
def siteKeys (n : Nat) : List Nat := rectKeys (64 * (n % 5)) (32 * (n / 5)) 64 32

/-! ## Memory (R3, R38, R39, R88, R341) -/

/-- Where a node's SRAM begins among the memory keys. -/
def nodeBase (k : Nat) : Nat := k * 262144
/-- Where far memory begins among the memory keys (R296). -/
def farBase : Nat := 1152921504606846976
/-- Where host memory begins among the memory keys (R289). -/
def hostBase : Nat := 2305843009213693952
/-- Where the addresses of other panels begin among the memory keys, by which accesses there are told apart (R30). -/
def peerBase : Nat := 4611686018427387904

/-- What an unlisted address reads as (log entry 3). -/
def unlistedByte : BitVec 8 := 0

/-- The stored byte at a memory key. -/
def State.byte (s : State) (a : Nat) : BitVec 8 := tget unlistedByte s.mem a
/-- A node. -/
def State.node (s : State) (k : Nat) : Node := tget Node.reset s.nodes k
/-- What the poison code of a 64-bit word, by its number, reads as where pois does not list it (R340). -/
def State.poisonBase (s : State) (w : Nat) : Bool := decide (8 * w < farBase) && (s.node (8 * w / 262144)).marked
/-- The word that holds a memory key carries the poison code (R88). -/
def State.poisoned (s : State) (a : Nat) : Bool := tget (s.poisonBase (a / 8)) s.pois (a / 8)
/-- Owner tag of the line that holds a memory key (R39). -/
def State.tag (s : State) (a : Nat) : BitVec 5 := tget 0x10 s.tags (a / 64)

/-- One byte as a read sees it: free when its word carries the poison code (log entry 9). -/
def State.readByte (s : State) (a : Nat) : BitVec 8 :=
  if s.poisoned a then Config.poisonByte s.draws a else s.byte a
/-- n bytes as a read sees them, the lowest first. -/
def State.readBytes (s : State) (a : Nat) : Nat → List (BitVec 8)
  | 0 => []
  | n + 1 => s.readByte a :: s.readBytes (a + 1) n
/-- Little-endian value of n bytes (R3). -/
def State.readNat (s : State) (a n : Nat) : Nat := leNat (s.readBytes a n)
/-- Some word of n bytes carries the poison code. -/
def State.anyPoison (s : State) (a : Nat) : Nat → Bool
  | 0 => false
  | n + 1 => s.poisoned a || s.anyPoison (a + 1) n
/-- As readNat, a word with the poison code read as zero bytes (R211). -/
def State.readClean (s : State) (a : Nat) : Nat → Nat
  | 0 => 0
  | n + 1 => (if s.poisoned a then 0 else (s.byte a).toNat) + 256 * s.readClean (a + 1) n

/-- The canonical form of memory, poison codes and owner tags. -/
def Memory.wf (s : State) : Bool :=
  twf unlistedByte s.mem && (tsorted 0 s.pois && s.pois.all fun e => e.2 != s.poisonBase e.1) && twf 0x10 s.tags

/-- Bytes stored one after another. -/
def putBytes (m : List Host.Cell) (a : Nat) : List (BitVec 8) → List Host.Cell
  | [] => m
  | b :: r => putBytes (tset unlistedByte m a b) (a + 1) r

/-- Poison codes after a write of n bytes at a: poisoned data poisons each word it touches; clean
data clears a word it covers whole and leaves any other word as it is (R88, R175, R341). -/
def putPoison (base : Nat → Bool) (t : Tbl Bool) (a n : Nat) (p : Bool) : Tbl Bool :=
  (List.range ((a + n + 7) / 8 - a / 8)).foldl (fun t i =>
    let w := a / 8 + i
    if p then tset (base w) t w true
    else if decide (a ≤ 8 * w) && decide (8 * w + 8 ≤ a + n) then tset (base w) t w false else t) t

/-- A write without its effects on watches and flags. -/
def State.poke (s : State) (a : Nat) (bs : List (BitVec 8)) (p : Bool) : State :=
  { s with mem := putBytes s.mem a bs, pois := putPoison s.poisonBase s.pois a bs.length p }

/-- Owner tags of the lines of n bytes at a become what f gives from what they were (R39). -/
def State.retag (s : State) (a n : Nat) (f : BitVec 5 → BitVec 5) : State :=
  let step (t : Tbl (BitVec 5)) (i : Nat) : Tbl (BitVec 5) :=
    tset 0x10 t (a / 64 + i) (f (tget 0x10 t (a / 64 + i)))
  { s with tags := (List.range ((a + n + 63) / 64 - a / 64)).foldl step s.tags }

/-! ## Cores and nodes -/

/-- The record of the core at a key. -/
def State.coreAt (s : State) (k : Nat) : Core :=
  if k = s.here then s.core else tget (Core.reset k) s.peers k
/-- Replace the record of the core at a key. -/
def State.setCore (s : State) (k : Nat) (c : Core) : State :=
  if k = s.here then { s with core := c } else { s with peers := tset (Core.reset k) s.peers k c }
/-- Change the record of the core at a key. -/
def State.onCore (s : State) (k : Nat) (f : Core → Core) : State := s.setCore k (f (s.coreAt k))
/-- Change the records of several cores. -/
def State.onCores (s : State) (ks : List Nat) (f : Nat → Core → Core) : State :=
  ks.foldl (fun s k => s.onCore k (f k)) s
/-- The record of another key takes the selected place (log entry 7). -/
def State.moveTo (s : State) (k : Nat) : State :=
  if k = s.here then s
  else
    let c := s.coreAt k
    { s with peers := tdel k (tset (Core.reset s.here) s.peers s.here s.core), here := k, core := c }
/-- Make another core the selected one (log entry 7). -/
def State.select (s : State) (k : Nat) : State := if isCore k then s.moveTo k else s

/-- What a core's own engines do, done with that core selected. -/
def State.atCore (s : State) (k : Nat) (f : State → State) : State := (f (s.moveTo k)).moveTo s.here

/-- Change a node. -/
def State.onNode (s : State) (k : Nat) (f : Node → Node) : State :=
  { s with nodes := tset Node.reset s.nodes k (f (s.node k)) }
/-- A site. -/
def State.site (s : State) (n : Nat) : Site := tget Site.reset s.sites n
/-- Change a site. -/
def State.onSite (s : State) (n : Nat) (f : Site → Site) : State :=
  { s with sites := tset Site.reset s.sites n (f (s.site n)) }
/-- An entry of the group table. -/
def State.group (s : State) (i : Nat) : Group := tget Group.reset s.lead.groups i
/-- Change an entry of the group table. -/
def State.onGroup (s : State) (i : Nat) (f : Group → Group) : State :=
  { s with lead := { s.lead with groups := tset Group.reset s.lead.groups i (f (s.group i)) } }
/-- The table index of the group with a GID that is not RETIRED (R271). -/
def State.groupOf (s : State) (gid : BitVec 16) : Option Nat :=
  (s.lead.groups.find? fun e => e.2.gid == gid && e.2.st != .unused && e.2.st != .retired).map (·.1)
/-- A domain. -/
def State.domain (s : State) (d : BitVec 16) : Option Domain := tget none s.pages.domains d.toNat
/-- Change the selected core's control registers. -/
def State.onCtl (s : State) (f : Ctl → Ctl) : State := { s with core := { s.core with ctl := f s.core.ctl } }
/-- Change the selected core's register files. -/
def State.onRegs (s : State) (f : Regs → Regs) : State := { s with core := { s.core with regs := f s.core.regs } }
/-- Change the selected core's tensor unit. -/
def State.onEng (s : State) (f : Engines → Engines) : State := { s with core := { s.core with eng := f s.core.eng } }
/-- Change the selected core's shared tables. -/
def State.onSh (s : State) (f : Shared → Shared) : State := { s with core := { s.core with sh := f s.core.sh } }
/-- Append to the boathouse controller's log. -/
def State.note (s : State) (e : LogEntry) : State := { s with boat := { s.boat with log := s.boat.log ++ [e] } }

/-- A general register's value. -/
def State.gv (s : State) (r : GR) : BitVec 64 := (bget s.core.regs.g r).v
/-- A general register's poison bit. -/
def State.gp (s : State) (r : GR) : Bool := (bget s.core.regs.g r).p
/-- Write a general register; all 32 are real (R32). -/
def State.setG (s : State) (r : GR) (v : BitVec 64) (p : Bool) : State :=
  s.onRegs fun x => { x with g := bset x.g r ⟨v, p⟩ }
/-- A vector register. -/
def State.vr (s : State) (r : VR) : VReg := bget s.core.regs.v r
/-- Write a vector register. -/
def State.setV (s : State) (r : VR) (x : VReg) : State :=
  s.onRegs fun q => { q with v := bset q.v r x }
/-- A mask register. -/
def State.mr (s : State) (r : MR) : BitVec 64 := bget s.core.regs.m r
/-- Write a mask register. -/
def State.setM (s : State) (r : MR) (x : BitVec 64) : State :=
  s.onRegs fun q => { q with m := bset q.m r x }
/-- `FPCR`. -/
def State.fpcr (s : State) : BitVec 14 := s.core.regs.fpcr
/-- Set sticky flags, given in the order of `FPCR` 13:8 (R66). -/
def State.orFlags (s : State) (f : BitVec 6) : State :=
  s.onRegs fun q => { q with fpcr := q.fpcr ||| (f.setWidth 14 <<< 8) }
/-- The program counter. -/
def State.pc (s : State) : BitVec 16 := s.core.ctl.pc
/-- Change one slot of a core. -/
def Core.onSlot (c : Core) (i : SlotId) (f : Slot → Slot) : Core :=
  { c with slots := bset c.slots i (f (bget c.slots i)) }
/-- A slot of a core. -/
def Core.slot (c : Core) (i : SlotId) : Slot := bget c.slots i
/-- The slot `TID.SLOT` names. -/
def State.slot (s : State) : Slot := s.core.slot s.core.ctl.slot

/-- All slot numbers in ascending order. -/
def allSlots : List SlotId := (List.range 16).map (BitVec.ofNat 4)
/-- The RUNNING slot of a core, if any (R44). -/
def Core.running (c : Core) : Option SlotId := allSlots.find? fun i => (c.slot i).st == .running

/-! ## Performance counters (R53) -/

/-- Count n events of code e on every counter that counts e; COUNT wraps at 48 bits. -/
def Core.countN (c : Core) (e n : Nat) : Core :=
  { c with ctl := { c.ctl with pmc := c.ctl.pmc.map fun (w : BitVec 64) =>
      if (w >>> 48).toNat = e then (w &&& 0xFFFF000000000000) ||| ((w + BitVec.ofNat 64 n) &&& 0x0000FFFFFFFFFFFF)
      else w } }
/-- Count one event of code e on the selected core. -/
def State.count (s : State) (e : Nat) : State := { s with core := s.core.countN e 1 }

/-! ## Race clock (R27) and core clocks (R362) -/

/-- An integer moved toward another by at most n. -/
def toward (a b : Int) (n : Nat) : Int :=
  if a ≤ b then min (a + n) b else max (a - n) b

/-- The clock after d more ticks: slewing by at most one tick at each 4096, and always by less than d, so that every counter
moves on when time passes (R27). -/
def Clock.advance (c : Clock) (d : Nat) : Clock :=
  let n := min ((c.ticks + d) / 4096 - c.ticks / 4096) (d - 1)
  if c.slewed = c.aim then
    { c with ticks := c.ticks + d,
             regions := c.regions.map fun e => (e.1, { e.2 with lead := toward e.2.lead 0 n }) }
  else { c with ticks := c.ticks + d, slewed := toward c.slewed c.aim n }

/-- The counter of a clock region (R27). -/
def State.regionCount (s : State) (r : Nat) : BitVec 64 :=
  BitVec.ofInt 64 ((s.clock.ticks : Int) + s.clock.slewed + (tget Region.reset s.clock.regions r).lead)
/-- `RCLK` of a core: the counter of its clock region, by its physical place (R27). -/
def State.rclkOf (s : State) (k : Nat) : BitVec 64 := s.regionCount (panelRegion k)
/-- `RCLK` of the selected core. -/
def State.rclk (s : State) : BitVec 64 := s.rclkOf s.here

/-- Core clock of an operating point, in units of 0.1 GHz (R362). -/
def pointClock : Nat → Nat
  | 0 => 24 | 1 => 22 | 2 => 20 | 3 => 18 | 4 => 16 | 5 => 13 | 6 => 10 | _ => 8
/-- A group whose cores are loaded or work holds its seeding map; one that faulted or drains before LOADING has none (R19, R274
step 2). -/
def Group.mapped (g : Group) : Bool :=
  g.rows && match g.st with
  | .loading | .running | .draining | .faulted => true
  | .unused | .admitted | .seeding | .suspended | .retired => false
/-- The node lies in the lane. -/
def Group.inLane (g : Group) (k : Nat) : Bool :=
  decide (g.col0 ≤ keyX k) && decide (keyX k < g.col0 + 8 * g.w) && decide (g.row0 ≤ keyY k)
    && decide (keyY k < g.row0 + 4 * g.h)
/-- Skip column of a coordinate's region row: that of the seeding map of the group whose lane covers it, else that of
the tile (R18, R19). Where a row is reseeded at a neighbour's start while this group works, the two maps bind one part to two
coordinates; the spec does not say which holds the part, and each map is kept as it is (DESIGN CHOICE, log entry 19). -/
def State.skipOf (s : State) (k : Nat) : Nat :=
  match s.lead.groups.find? fun e => e.2.mapped && e.2.inLane k with
  | some (_, g) => tget 32 g.skips (64 * siteOf k + regionRow k)
  | none => tget 32 (s.site (siteOf k)).skips (regionRow k)
/-- Physical column bound to a coordinate (R18). -/
def State.physCol (s : State) (k : Nat) : Nat :=
  let c := keyX k % 32
  if c < s.skipOf k then c else c + 1
/-- A part, by site, region row and physical column. -/
def State.partAt (s : State) (n row p : Nat) : Part := tget Part.reset (s.site n).parts (33 * row + p)
/-- Change a part. -/
def State.onPartAt (s : State) (n row p : Nat) (f : Part → Part) : State :=
  s.onSite n fun t => { t with parts := tset Part.reset t.parts (33 * row + p) (f (s.partAt n row p)) }
/-- The part a coordinate is bound to. -/
def State.part (s : State) (k : Nat) : Part := s.partAt (siteOf k) (regionRow k) (s.physCol k)
/-- Change the part a coordinate is bound to. -/
def State.onPart (s : State) (k : Nat) (f : Part → Part) : State := s.onPartAt (siteOf k) (regionRow k) (s.physCol k) f
/-- Quad of a core by its physical place: 256 * panel region + 16 * qy + qx, and 128 more than 16 * 8
for the umpire quads (R14). -/
def State.quadOf (s : State) (k : Nat) : Nat :=
  let qy := keyY k % 16 / 2
  let p := s.physCol k
  256 * panelRegion k + (if p = 32 then 128 + qy else 16 * qy + p / 2)
/-- A quad. -/
def State.quad (s : State) (q : Nat) : Quad := tget Quad.reset s.power.quads q
/-- Change a quad. -/
def State.onQuad (s : State) (q : Nat) (f : Quad → Quad) : State :=
  { s with power := { s.power with quads := tset Quad.reset s.power.quads q (f (s.quad q)) } }
/-- Ticks that n core cycles of a core's quad take at its applied point (R5, R362). -/
def State.cycleTicks (s : State) (k n : Nat) : Nat := n * 10 / pointClock (s.quad (s.quadOf k)).point

/-- Core cycles of a core's quad that end in the next d ticks, counted from cold reset (R362). -/
def State.tickCycles (s : State) (k d : Nat) : Nat :=
  let p := pointClock (s.quad (s.quadOf k)).point
  (s.clock.ticks + d) * p / 10 - s.clock.ticks * p / 10
/-- A core after d ticks: its counters go on by the cycles of its quad, and of these the stalled ones, whose number is
free (R53, log entry 6); a wake of an earlier tick is no longer one of this cycle (R92). -/
def State.elapse (s : State) (k d : Nat) (c : Core) : Core :=
  let n := s.tickCycles k d
  let c := (c.countN 1 n).countN 7 (Config.stalledCycles s.draws k % (n + 1))
  { c with sh := { c.sh with woke := if d = 0 then c.sh.woke else [] } }
/-- Time passes before a step: how many ticks is free, and may be none, since the cores of the panel work at once (log entry
6); on every core the counters of cycles go on (R53). -/
def State.tick (s : State) : State :=
  let d := Config.stepTicks s.draws
  { s with clock := s.clock.advance d, draws := s.draws + 1, core := s.elapse s.here d s.core,
           peers := s.peers.map fun e => (e.1, s.elapse e.1 d e.2) }

/-! ## Traps (R54-R57) -/

/-- Trap causes (R54). -/
inductive Cause
  | illegal | priv | align | bounds | hole | page | refused | poison | seq | rigx | timer | preempt
  | watchdog | deadlock | late | amofail | site | swtrap
  deriving DecidableEq, Repr

/-- Cause numbers (R54). -/
def Cause.num : Cause → BitVec 5
  | illegal => 1 | priv => 2 | align => 3 | bounds => 4 | hole => 5 | page => 6 | refused => 7
  | poison => 8 | seq => 9 | rigx => 10 | timer => 11 | preempt => 12 | watchdog => 13
  | deadlock => 14 | late => 15 | amofail => 16 | site => 17 | swtrap => 18

/-- Asynchronous causes (R54). -/
def Cause.isAsync : Cause → Bool
  | timer | preempt | watchdog | deadlock | late | site => true
  | illegal | priv | align | bounds | hole | page | refused | poison | seq | rigx | amofail | swtrap => false

/-- The asynchronous cause of a bit of PEND (R50). -/
def Cause.ofBit (b : Nat) : Cause :=
  match b with
  | 0 => .timer | 1 => .preempt | 2 => .late | 3 => .watchdog | 4 => .deadlock | _ => .site

/-- The highest pending cause, in the order SITE, DEADLOCK, WATCHDOG, LATE, PREEMPT, TIMER (R55). -/
def topBit (p : BitVec 6) : Option (BitVec 3) :=
  if p.getLsbD 5 then some 5 else if p.getLsbD 4 then some 4 else if p.getLsbD 3 then some 3
  else if p.getLsbD 2 then some 2 else if p.getLsbD 1 then some 1 else if p.getLsbD 0 then some 0
  else none

/-! ## Slots, FIFOs and wakes (R76-R84) -/

/-- Remove a slot from its FIFO. -/
def Core.unqueue (c : Core) (i : SlotId) : Core :=
  let c := c.onSlot i fun t => { t with qd := false }
  { c with sh := { c.sh with fifo := c.sh.fifo.map fun q => q.filter (· != i), woke := c.sh.woke.filter (· != i) } }

/-- Set a bit of PEND with its `TVAL`. Of a cause pending with another value the spec does not say which `TVAL`
stays: it is free (log entry 13). -/
def Slot.pendOn (t : Slot) (b : BitVec 3) (v : BitVec 64) : Slot :=
  let old := t.pendVal[b.toNat]?.getD 0
  let x := if t.pend.getLsbD b.toNat && old != v then Config.pendingValue old v else v
  { t with pend := t.pend ||| (1#6 <<< b.toNat), pendVal := t.pendVal.setIfInBounds b.toNat x }

/-- Clear a bit of PEND. -/
def Slot.pendOff (t : Slot) (b : BitVec 3) : Slot :=
  { t with pend := t.pend &&& ~~~(1#6 <<< b.toNat) }

/-- "Queue": append the slot at the tail of the FIFO of its LEVEL, and raise PREEMPT for the RUNNING
slot when that LEVEL is lower (R77, R84). -/
def Core.enqueue (c : Core) (i : SlotId) : Core :=
  let lv := (c.slot i).level
  let c := c.onSlot i fun t => { t with qd := true }
  let c := { c with sh := { c.sh with fifo := bset c.sh.fifo lv (bget c.sh.fifo lv ++ [i]) } }
  match c.running with
  | some r =>
    if decide (lv < (c.slot r).level) then c.onSlot r fun t => t.pendOn 1 0 else c
  | none => c

/-- A sleeping slot becomes READY and is queued, with WSTAT for a `SLEEP` (R77, R80); that it was a wake that queued it is
kept for the tick (R92). -/
def Core.wake (c : Core) (i : SlotId) (wstat : BitVec 3) : Core :=
  let c := c.onSlot i fun t =>
    { t with st := .ready, wstat := if t.why = .sleep then wstat else t.wstat, why := .none }
  let c := c.enqueue i
  { c with sh := { c.sh with woke := i :: c.sh.woke } }

/-- Raise an asynchronous cause in a slot; a sleeping slot becomes READY (R77). A FREE slot takes no cause; one
that is RETIRED or TRAPPED takes SITE, which R277 raises in every slot that is not FREE, and no other. -/
def Core.raise (c : Core) (i : SlotId) (b : BitVec 3) (v : BitVec 64) : Core :=
  match (c.slot i).st with
  | .sleep => (c.onSlot i fun t => t.pendOn b v).wake i 5
  | .ready | .running => c.onSlot i fun t => t.pendOn b v
  | .retired | .trapped => if b = 5 then c.onSlot i fun t => t.pendOn b v else c
  | .free => c

/-- Increment a wait counter of a slot, saturating, when the slot's allocation still stands, and
repeat the test of a `WAIT` that sleeps on it (R36, R80, R202); that of a RETIRED slot counts on (DESIGN CHOICE, log entry 85). -/
def Core.bump (c : Core) (i : SlotId) (alloc : Nat) (k : WC) : Core :=
  if (c.slot i).alloc = alloc ∧ (c.slot i).st ≠ .free then
    let c := c.onSlot i fun t =>
      { t with w := bset t.w k (if bget t.w k = 0xFFFF then 0xFFFF else bget t.w k + 1) }
    match (c.slot i).st, (c.slot i).why with
    | .sleep, .counter j n =>
      if j = k ∧ n.toNat ≤ (bget (c.slot i).w k).toNat then c.wake i 0 else c
    | _, _ => c
  else c

/-- Deliver flags of a completed operation: to `FPCR` when its slot is RUNNING, else to FLAGP; they
are dropped when the slot has passed through FREE (R66, R202). -/
def Core.flags (c : Core) (i : SlotId) (alloc : Nat) (f : BitVec 6) : Core :=
  if (c.slot i).alloc = alloc ∧ (c.slot i).st ≠ .free then
    if (c.slot i).st = .running ∧ c.ctl.priv = .u then
      { c with regs := { c.regs with fpcr := c.regs.fpcr ||| (f.setWidth 14 <<< 8) } }
    else c.onSlot i fun t => { t with flagp := t.flagp ||| f }
  else c

/-- A slot leaves FREE: the fields of R76, PEND, `TCMP` and the wait counters are cleared, the send
count and the reply record are empty, and a new allocation begins (R36, R76, R229, R231). Packets that are not
answered yet stay so (R95, R97). -/
def Slot.leaveFree (t : Slot) (level : BitVec 2) (paddle : Bool) : Slot :=
  { Slot.free with st := .ready, level := level, paddle := paddle, alloc := t.alloc + 1, unans := t.unans }

/-- A slot becomes FREE: its lines' tags are released by the caller (R39, R76, R77). -/
def Slot.toFree (t : Slot) : Slot :=
  { t with st := .free, pend := 0, tcmp := 0, qd := false, paddle := false, cutPend := false, parked := false, doomed := false }

/-- Tags of a freed slot's lines become 0x10 (R39). -/
def State.releaseTags (s : State) (k : Nat) (i : SlotId) : State :=
  let lo := nodeBase k / 64
  { s with tags := s.tags.filter fun e =>
      !(decide (lo ≤ e.1) && decide (e.1 < lo + 1024) && e.2 == i.setWidth 5) }

/-! ## Writes with their effects (R110, R124) -/

/-- The test of `FWAIT` (R124): complete, raise SEQ, or sleep. -/
inductive FlagTest | complete | missed | behind
  deriving DecidableEq, Repr
/-- R124. -/
def flagTest (flag : BitVec 64) (seq : BitVec 16) : FlagTest :=
  let d := flag.setWidth 16 - seq
  if d = 0 then .complete else if d.toNat < 0x8000 then .missed else .behind

/-- The lane a packet rides (R93). -/
def Packet.lane (p : Packet) : Nat :=
  match p.kind with
  | .data => p.lc.toNat
  | .amo | .watch => 0
  | .reply | .amoReply | .watchReply | .wakeReply | .treeReply => 1
  | .treeBlock => 2
  | .finish | .renorm | .wake | .watchWake | .barArrive | .barRelease | .treeFinish | .lowAck => 3

/-- Two packets of one source, destination, channel and lane class (R96). -/
def Packet.sameFlow (p q : Packet) : Bool :=
  p.srcPan == q.srcPan && p.src == q.src && p.dst == q.dst && p.chan == q.chan && p.lc == q.lc && p.lane == q.lane

/-- The n-th packet in flight, when no earlier packet of its flow is still in flight: packets stand in
order of sending and arrive in that order (R96). -/
def State.arriving (s : State) (n : Nat) : Option Packet :=
  match s.net[n]? with
  | some p => if (s.net.take n).any p.sameFlow then none else some p
  | none => none

/-- The n-th packet leaves the network. -/
def State.unsend (s : State) (n : Nat) : State := { s with net := dropAt n s.net }

/-! ## Routes between sites (R316, R317, R320) -/

/-- The numbers between two, the first left out, the last included, in order. -/
def between (a b : Nat) : List Nat :=
  if a ≤ b then (List.range (b - a)).map (a + 1 + ·) else (List.range (a - b)).map (a - 1 - ·)
/-- Sites a packet enters: along its row to the column of its destination, then along that column (R316). -/
def rowSites (src dst : Nat) : List Nat :=
  (between (keyX src / 64) (keyX dst / 64)).map fun x => 5 * (keyY src / 32) + x
/-- As rowSites, along the column. -/
def colSites (src dst : Nat) : List Nat :=
  (between (keyY src / 32) (keyY dst / 32)).map fun y => 5 * y + keyX dst / 64
/-- The route between two nodes crosses a site that holds neither. -/
def crosses (n src dst : Nat) : Bool :=
  n != siteOf dst && n != siteOf src && ((rowSites src dst).contains n || (colSites src dst).contains n)
/-- A site is LIVE. -/
def State.siteLive (s : State) (n : Nat) : Bool := decide (n < 25) && (s.site n).st == .live
/-- The quad of a node's place is powered: its regulator group has at most two phases lost (R368). -/
def State.powered (s : State) (k : Nat) : Bool :=
  decide (tget 0 (s.site (siteOf k)).phases (8 * regionOf k + keyY k % 16 / 2) < 3)
/-- The selected core is at work: its site is LIVE, or DRAINING, where its own work is finishing; in every other state it
is powered down, out of its site, or not yet in service (R333). A quad that is powered off does nothing, and its arrays hold their
contents (R368). -/
def State.tileUp (s : State) : Bool :=
  s.powered s.here && match (s.site (siteOf s.here)).st with
  | .live | .draining => true
  | .empty | .seated | .training | .fenced | .safe | .lost => false
/-- The node that stands for a site's control complex, to which far atomics travel (R129). -/
def siteNode (n : Nat) : Nat := keyOf (64 * (n % 5)) (32 * (n / 5))
/-- A site that is LIVE is no hole to a group: a compute site when it entered LIVE before the group's admission, or
before its relaunch or resumption; a bank site when before the group's start, or re-admitted (R320, R342, R343). -/
def State.knows (s : State) (g : Group) (n : Nat) : Bool :=
  if computeSite n then decide ((s.site n).since ≤ g.since)
  else decide ((s.site n).since ≤ g.started) || g.healed.contains n
/-- The routes of a group's packets of a lane class go through a site: it is LIVE, and they have been switched to it (R317,
R320). -/
def State.opens (s : State) (gid : BitVec 16) (lc : BitVec 2) (n : Nat) : Bool :=
  s.siteLive n &&
    match s.groupOf gid with
    | some i => s.knows (s.group i) n && !((s.group i).healed.contains n && (s.site n).switches.contains lc)
    | none => true
/-- A substrate link carries no packet of a lane class: it is DEAD, or retrained, and the class is not switched to it yet (R314,
R320). -/
def State.deadLink (s : State) (lc : BitVec 2) (i : Nat) : Bool :=
  let l := tget Link.reset s.links.links i
  l.st == .dead || l.turn.contains lc
/-- The straight route between two nodes crosses a substrate link (R315, R316). -/
def onLink (i src dst : Nat) : Bool :=
  let within (a b n : Nat) : Bool := decide (min a b ≤ n) && decide (n < max a b)
  if i < 640 then keyY src == i % 160 && within (keyX src / 64) (keyX dst / 64) (i / 160)
  else keyX dst == (i - 640) % 320 && within (keyY src / 32) (keyY dst / 32) ((i - 640) / 320)
/-- The link of row y over the boundary east of a column of sites (R315). -/
def eastLink (col y : Nat) : Nat := 160 * col + y
/-- The link of column x over the boundary north of a row of sites (R315). -/
def northLink (row x : Nat) : Nat := 640 + 320 * row + x
/-- Row y passes the boundary east of a column of sites: by its own link, or by a jog of one row round it when that is DEAD. A jog
into the next row of sites needs both sites of that row, and the links to them (R318). -/
def State.rowPasses (s : State) (lc : BitVec 2) (pass : Nat → Bool) (col y : Nat) : Bool :=
  let dead := s.deadLink lc
  let z := if y = 159 then 158 else y + 1
  let h := min y z / 32
  !(dead (eastLink col y)) ||
    (!(dead (eastLink col z)) && (z / 32 == y / 32 ||
      (pass (5 * (z / 32) + col) && pass (5 * (z / 32) + col + 1) && !(dead (northLink h (64 * col + 63)))
        && !(dead (northLink h (64 * col + 64))))))
/-- As rowPasses, of column x and the boundary north of a row of sites (R318). -/
def State.colPasses (s : State) (lc : BitVec 2) (pass : Nat → Bool) (row x : Nat) : Bool :=
  let dead := s.deadLink lc
  let z := if x = 319 then 318 else x + 1
  let w := min x z / 64
  !(dead (northLink row x)) ||
    (!(dead (northLink row z)) && (z / 64 == x / 64 ||
      (pass (5 * row + z / 64) && pass (5 * (row + 1) + z / 64) && !(dead (eastLink w (32 * row + 31)))
        && !(dead (eastLink w (32 * row + 32))))))
/-- The detour round a site that a packet would enter along its row, going east or west: in the last column before the site to the
first row of the site north of it, or to the last of the one south in the top row; along that row to the first column beyond, and
back there to its own row. A packet for a column of the site goes on along that column from the detour row, or, for a row on the
other side, runs past the site and comes back in the row of sites there; at the edge of the panel it turns there before the site
(R317, log entry 52). Every boundary on the way is passed by its link or by a jog: where a second failure leaves neither, the
packet ends with HOLE (R318, R332; log entry 52). -/
def State.rowDetour (s : State) (lc : BitVec 2) (pass : Nat → Bool) (n dst : Nat) (east : Bool) : Bool :=
  let x := n % 5
  let y := n / 5
  let y' := if y < 4 then y + 1 else y - 1
  let before := if east then x - 1 else x + 1
  let beyond := if east then x + 1 else x - 1
  let colIn := if east then 64 * x - 1 else 64 * x + 64
  let colOut := if east then 64 * x + 64 else 64 * x - 1
  let side (x y : Nat) : Bool := pass (5 * y + x)
  let along (row a b : Nat) : Bool := s.rowPasses lc pass (min a b) row
  let across (col a b : Nat) : Bool := s.colPasses lc pass (min a b) col
  let row := if y < 4 then 32 * y + 32 else 32 * y - 1
  let edge : Bool := if east then x == 4 else x == 0
  let reached := side before y' && across colIn y y' && side x y' && along row before x
  let past := reached && side beyond y' && along row x beyond && side beyond y && across colOut y' y
  if keyX dst / 64 ≠ x then past
  else if (y < keyY dst / 32) = (y < y') then reached
  else if edge then side before (y - 1) && across colIn y (y - 1) && along (32 * y - 1) before x
  else past && side beyond (y - 1) && across colOut y (y - 1) && along (32 * y - 1) beyond x
/-- The detour round a site that a packet would enter along its column: by the first column of the site east of it, or by the last
of the one west at the east edge, and back to its own column in the first row beyond (R317, R318). -/
def State.colDetour (s : State) (lc : BitVec 2) (pass : Nat → Bool) (n dst : Nat) (north : Bool) : Bool :=
  let x := n % 5
  let y := n / 5
  let x' := if x < 4 then x + 1 else x - 1
  let behind := if north then y - 1 else y + 1
  let beyond := if north then y + 1 else y - 1
  let rowIn := if north then 32 * y - 1 else 32 * y + 32
  let rowOut := if north then 32 * y + 32 else 32 * y - 1
  let col := if x < 4 then 64 * x + 64 else 64 * x - 1
  let side (x y : Nat) : Bool := pass (5 * y + x)
  let along (row a b : Nat) : Bool := s.rowPasses lc pass (min a b) row
  let across (a b : Nat) : Bool := s.colPasses lc pass (min a b) col
  side x' behind && along rowIn x x' && side x' y && across behind y && side x' beyond && across y beyond
    && (side x beyond || siteOf dst == 5 * beyond + x) && along rowOut x' x
/-- A packet of a group and lane class gets from one node to another: it meets no detour that would cross a second site that is
not LIVE (R317). Where neither the link of a row or column nor a jog round it is there, the detour is that round the site beyond,
and a packet for that site has none (R318). One that turns in a site it goes round comes into the next site of its column by that
detour. -/
def State.routed (s : State) (gid : BitVec 16) (lc : BitVec 2) (src dst : Nat) : Bool :=
  let pass := s.opens gid lc
  let east := decide (keyX src < keyX dst)
  let north := decide (keyY src < keyY dst)
  let corner := 5 * (keyY src / 32) + keyX dst / 64
  let row (n : Nat) : Bool := s.rowPasses lc pass (if east then n % 5 - 1 else n % 5) (keyY src)
  let col (n : Nat) : Bool := s.colPasses lc pass (if north then n / 5 - 1 else n / 5) (keyX dst)
  let enters (n : Nat) (link detour : Bool) : Bool := if n = siteOf dst then link else (pass n && link) || detour
  let round := corner != siteOf dst && (rowSites src dst).contains corner && !(pass corner && row corner)
  (rowSites src dst).all (fun n => enters n (row n) (s.rowDetour lc pass n dst east))
    && (colSites src dst).all fun n =>
      enters n (col n || (round && (colSites src dst).head? == some n)) (s.colDetour lc pass n dst north)
/-- The node of a bank tile's panel-link port (R17, R326). -/
def linkNode (b : Nat) : Nat :=
  let n := 2 * b + 1
  keyOf (64 * (n % 5) + 31) (32 * (n / 5))
/-- Where a packet enters the mesh: at its source, or, from another panel, at the port node of the link it has come by
(R323). -/
def Packet.entry (p : Packet) : Nat := if p.srcPan = 0xFF then p.src else linkNode p.via
/-- A packet gets to its destination: no detour on its way crosses a second site that is not LIVE (R317). A reply, wake or barrier
packet that does not is gone, for no answer is owed to it (DESIGN CHOICE, log entry 79). -/
def State.travels (s : State) (p : Packet) : Bool := s.routed p.gid (BitVec.ofNat 2 p.lane) p.entry p.dst
/-- The front of a switch's classes is that of a packet (R320 step 1). -/
def turning (l : List (BitVec 2)) (p : Packet) : Bool := l.head?.map (·.toNat) == some p.lane
/-- A reseed of a tile changes the path of a packet: it crosses the tile or ends in it, and no group at work routes it by a map of
its own; such a group takes the new map at its next start (R19, R20, R320). -/
def State.reseeds (s : State) (n : Nat) (p : Packet) : Bool :=
  (crosses n p.entry p.dst || siteOf p.dst == n) && !(s.lead.groups.any fun e => e.2.mapped && e.2.inLane p.dst)
/-- A route switch in progress holds the packet at its local port: of the class being switched, for a destination whose route crosses
the site, or, at a retrained link, the link; at a reseed for one whose path that changes, but not on lane 2, which is switched at a
group boundary only (R320 step 1). -/
def State.switchHolds (s : State) (p : Packet) : Bool :=
  (List.range 25).any (fun n =>
    (crosses n p.entry p.dst && turning (s.site n).switches p)
      || (p.lane != 2 && turning (s.site n).reroutes p && s.reseeds n p))
    || s.links.links.any fun e => turning e.2.turn p && onLink e.1 p.entry p.dst

/-- System number a panel index of a domain names (R30). -/
def State.panelOf (s : State) (dom : BitVec 16) (i : BitVec 8) : Option (BitVec 10) :=
  match s.domain dom with
  | some d => (d.spec.panels.find? (·.1 == i)).map (·.2)
  | none => none
/-- A panel of a domain's map is reachable: its routing entry is VALID and the port's link is UP or
DEGRADED (R323). -/
def State.panelUp (s : State) (dom : BitVec 16) (i : BitVec 8) : Bool :=
  match s.panelOf dom i with
  | none => false
  | some m =>
    let e := tget 0 s.links.routing m.toNat
    let st := (tget Link.reset s.links.plinks (e.extractLsb' 0 4).toNat).st
    e.getLsbD 15 && (st == .up || st == .degraded)
/-- The node of the panel-link port that carries a domain's traffic for a panel (R316, R323). -/
def State.portFor (s : State) (dom : BitVec 16) (i : BitVec 8) : Nat :=
  match s.panelOf dom i with
  | none => 0
  | some m => linkNode ((tget 0 s.links.routing m.toNat).extractLsb' 0 4).toNat
/-- A packet of a group, domain and lane class gets from a node to the panel-link port of a panel that is reachable, without a detour
across a second site that is not LIVE (R316, R317, R323). -/
def State.leaves (s : State) (gid dom : BitVec 16) (lc : BitVec 2) (src : Nat) (i : BitVec 8) : Bool :=
  s.panelUp dom i && s.routed gid lc src (s.portFor dom i)

/-- A packet enters the network, or waits at its local port for a route switch (R320), or goes to the panel links when
it is for another panel (R228): replies, acknowledgements and wakes by this panel's table too, and none of them leaves for a panel
that is not reachable (R323). -/
def State.send (s : State) (p : Packet) : State :=
  if p.dstPan = 0xFF then
    if s.switchHolds p then { s with queued := s.queued ++ [p] } else { s with net := s.net ++ [p] }
  else if s.leaves p.gid p.dom (BitVec.ofNat 2 p.lane) p.src p.dstPan then { s with out := s.out ++ [p] }
  else s
/-- The packets no switch holds any more enter the network in their order (R320 step 4). -/
def State.releaseQueued (s : State) : State :=
  { s with net := s.net ++ s.queued.filter fun p => !(s.switchHolds p), queued := s.queued.filter s.switchHolds }

/-- A packet with every field a kind does not use at 0, on this panel. -/
def Packet.blank (k : PKind) (src dst : Nat) : Packet :=
  { kind := k, src := src, dst := dst, srcPan := 0xFF, dstPan := 0xFF, gid := 0, dom := 0, gx := 0, gy := 0,
    via := 0, chan := 0, lc := 0, round := 0, seq := 0, pois := false, flits := 0, body := 0, aux := 0,
    slot := 0, alloc := 0, status := 0, addr := 0, val := 0, cmp := 0, op := .add, isCas := false,
    width := .b64, rid := 0, low := 0, fin := false, part := false, dir := 0, count := 0 }

/-- The watch wake a hit sends to its watcher (R110, R249). -/
def WatchEntry.wakePacket (w : WatchEntry) (node : Nat) : Packet :=
  { Packet.blank .watchWake node w.core with
    dstPan := w.pan, slot := w.slot, addr := w.addr, lc := 3, gid := w.gid, dom := w.dom }

/-- Fire the watches of a node on the words from off to off + n - 1 that the write changed, judged by
the state before it: in its data bits or in its poison code (R110). A narrow `ST` of clean data into a word of a scratchpad
that carries the code changes nothing that can be seen (R175): its watch does not fire (DESIGN CHOICE, log entry 53). st says that
the write is that of an `ST`. -/
def State.fire (s : State) (old : State) (k off n : Nat) (p st : Bool) : State :=
  let changed (o : Nat) : Bool :=
    let a := nodeBase k + o
    let hidden := st && isCore k && !p && old.poisoned a && s.poisoned a
    s.poisoned a != old.poisoned a || (!hidden && (List.range 8).any fun i => s.byte (a + i) != old.byte (a + i))
  let hit (w : WatchEntry) : Bool :=
    decide (off / 8 ≤ w.off / 8) && decide (w.off / 8 < (off + n + 7) / 8) && changed (8 * (w.off / 8))
  let ws := (s.node k).watches
  if ws.any hit then
    let s := s.onNode k fun q => { q with watches := q.watches.filter fun w => !(hit w) }
    (ws.filter hit).foldl (fun s w => s.send (w.wakePacket k)) s
  else s

/-- Repeat the test of the `FWAIT`s that sleep on a flag word within the written bytes (R80, R124). -/
def State.wakeFlags (s : State) (k off n : Nat) : State :=
  let c := s.coreAt k
  let hit (i : SlotId) : Bool :=
    match (c.slot i).st, (c.slot i).why with
    | .sleep, .flag a q =>
      let o := a.toNat % 65536 / 8
      decide (off / 8 ≤ o) && decide (o < (off + n + 7) / 8) &&
        flagTest (BitVec.ofNat 64 (s.readNat (nodeBase k + 8 * o) 8)) q != .behind
    | _, _ => false
  let hits := allSlots.filter hit
  if hits = [] then s else s.setCore k (hits.foldl (fun c i => c.wake i 0) c)

/-- A write performed at its home, of an `ST` or another one: bytes, poison codes, then watches and flag tests (R110, R112, R175). -/
def State.writeOf (s : State) (st : Bool) (k off : Nat) (bs : List (BitVec 8)) (p : Bool) : State :=
  let t := s.poke (nodeBase k + off) bs p
  let t := t.fire s k off bs.length p st
  if isCore k then t.wakeFlags k off bs.length else t
/-- A write of another kind than `ST`, performed at its home. -/
def State.write (s : State) (k off : Nat) (bs : List (BitVec 8)) (p : Bool) : State := s.writeOf false k off bs p

/-- The tag rule of a context's store: at U its slot, at S 0x1F into a line without owner (R39). -/
def storeTag (slot : Option SlotId) (old : BitVec 5) : BitVec 5 :=
  match slot with
  | some i => i.setWidth 5
  | none => if old = 0x10 then 0x1F else old

/-- The slot a store tags its lines with, none at S. -/
def State.tagSlot (s : State) : Option SlotId :=
  if s.core.ctl.priv = .u then some s.core.ctl.slot else none

/-- A store of the selected core into its own scratchpad, by an `ST` or another instruction (R39, R112, R175). -/
def State.storeOf (s : State) (st : Bool) (off : Nat) (bs : List (BitVec 8)) (p : Bool) : State :=
  (s.writeOf st s.here off bs p).retag (nodeBase s.here + off) bs.length (storeTag s.tagSlot)
/-- A store of another instruction than `ST`. -/
def State.store (s : State) (off : Nat) (bs : List (BitVec 8)) (p : Bool) : State := s.storeOf false off bs p

/-! ## Addresses (R30, R31) -/

/-- A resolved near address: panel index (0xFF is this panel), node, offset. -/
structure Dest where
  panel : BitVec 8
  key   : Nat
  off   : Nat
  deriving DecidableEq, Repr

/-- Space 0b01: a far virtual address (R30). -/
def isFar (a : BitVec 64) : Bool := a.toNat / 4611686018427387904 == 1

/-- Checks 1-3 of R31 for the selected core; none is BOUNDS. -/
def State.resolve (s : State) (a : BitVec 64) : Option Dest :=
  let n := a.toNat
  let off := n % 262144
  let z := n / 262144 % 8192
  let y := n / 2147483648 % 256
  let x := n / 549755813888 % 512
  let p := n / 281474976710656 % 256
  let q := n / 72057594037927936 % 64
  let k := s.core.ctl
  match n / 4611686018427387904 with
  | 0 =>
    if z ≠ 0 ∨ q ≠ 0 then none
    else if p = 0xFF then
      if x ≤ 319 ∧ y ≤ 159 then some ⟨0xFF, keyOf x y, off⟩ else none
    else
      match s.panelOf k.dom (BitVec.ofNat 8 p) with
      | none => none
      | some m =>
        if x ≤ 319 ∧ y ≤ 159 then
          some ⟨if m = s.links.sysnum then 0xFF else BitVec.ofNat 8 p, keyOf x y, off⟩
        else none
  | 2 =>
    if z ≠ 0 ∨ q ≠ 0 ∨ p ≠ 0 then none
    else if x ≤ k.wm1.toNat ∧ y ≤ k.hm1.toNat then
      some ⟨0xFF, keyOf (k.col0.toNat + x) (k.row0.toNat + y), off⟩
    else none
  | 3 =>
    if z ≠ 0 ∨ q ≠ 0 ∨ p ≠ 0 then none
    else
      let dx : Int := (BitVec.ofNat 9 x).toInt
      let dy : Int := (BitVec.ofNat 8 y).toInt
      let cx : Int := (keyX s.here : Int) + dx
      let cy : Int := (keyY s.here : Int) + dy
      if 0 ≤ cx ∧ cx ≤ 319 ∧ 0 ≤ cy ∧ cy ≤ 159 then some ⟨0xFF, keyOf cx.toNat cy.toNat, off⟩ else none
  | _ => none

/-- A coordinate is bound to a working part (R18, R368). -/
def State.bound (s : State) (k : Nat) : Bool :=
  let t := s.site (siteOf k)
  !(t.retired.contains (regionRow k, s.physCol k)) && s.powered k

/-- The coordinate is not dead and its site is LIVE (R21, R31 check 4). -/
def State.live (s : State) (k : Nat) : Bool :=
  decide ((s.site (siteOf k)).st = .live) && s.bound k

/-- As live, for a group (R342, R343). -/
def State.liveFor (s : State) (gid : BitVec 16) (k : Nat) : Bool :=
  s.live k &&
    match s.groupOf gid with
    | some i => s.knows (s.group i) (siteOf k)
    | none => true

/-- As liveFor, for a packet of a lane class: a re-admitted bank site is reached by a class only once
its route is switched (R320, R343). -/
def State.reaches (s : State) (gid : BitVec 16) (lc : BitVec 2) (k : Nat) : Bool :=
  s.liveFor gid k &&
    match s.groupOf gid with
    | some i => !((s.group i).healed.contains (siteOf k) && (s.site (siteOf k)).switches.contains lc)
    | none => true

/-- A packet of a lane class gets from one node to another: the destination is no hole, and no detour on the way
crosses a second site that is not LIVE (R21, R317, R339). -/
def State.arrives (s : State) (gid : BitVec 16) (lc : BitVec 2) (src k : Nat) : Bool :=
  s.reaches gid lc k && s.routed gid lc src k

/-- The domain's grant covers the node (R31 check 5). -/
def State.granted (s : State) (dom : BitVec 16) (k : Nat) : Bool :=
  match s.domain dom with
  | some d => d.spec.nodes.any fun (x0, y0, x1, y1) =>
      decide (x0 ≤ keyX k) && decide (keyX k ≤ x1) && decide (y0 ≤ keyY k) && decide (keyY k ≤ y1)
  | none => false

/-- Checks 5-7 of R31 at the home node: the cause on failure. -/
def State.homeCheck (s : State) (dom : BitVec 16) (k off n : Nat) : Option Cause :=
  if !(s.granted dom k) then some .bounds
  else if nodeSize k < off + 1 then some .bounds
  else if off % n ≠ 0 then some .align
  else none

/-- What a load or store reaches (R174). -/
inductive Path
  | own (off : Nat)
  | peer (key off : Nat)
  | trap (c : Cause)
  deriving DecidableEq, Repr

/-- The address check of `LD` and `ST` for n bytes (R174). -/
def State.path (s : State) (a : BitVec 64) (n : Nat) : Path :=
  if isFar a then .trap .bounds
  else
    match s.resolve a with
    | none => .trap .bounds
    | some d =>
      if d.panel = 0xFF ∧ d.key = s.here then
        if 0x10000 ≤ d.off then .trap .bounds
        else if d.off % n ≠ 0 then .trap .align
        else .own d.off
      else if d.panel = 0xFF ∧ sameCluster d.key s.here then
        if !(s.liveFor s.core.ctl.gid d.key) then .trap .hole
        else
          match s.homeCheck s.core.ctl.dom d.key d.off n with
          | some c => .trap c
          | none => .peer d.key d.off
      else .trap .bounds

/-- As path, with only the local path accepted: whatever lies outside the issuing core gives BOUNDS
before a check at the home (R206, R216, R222, log entry 24). -/
def State.ownPath (s : State) (a : BitVec 64) (n : Nat) : Path :=
  match s.resolve a with
  | none => .trap .bounds
  | some d =>
    if !(isFar a) && decide (d.panel = 0xFF) && d.key == s.here then s.path a n else .trap .bounds

/-! ## Commit, traps, giving up the core -/

/-- The body of an instruction: the state after its effect, or a synchronous cause with its `TVAL`
and nothing changed (R54). -/
inductive Res
  | ok (s : State)
  | trap (c : Cause) (v : BitVec 64)
  /-- It holds at issue for an earlier write of the core (R114). -/
  | hold
  deriving Repr

/-- Core-relative address of an offset of the issuing core (R38). -/
def ownAddr (off : Nat) : BitVec 64 := 0xC000000000000000#64 + BitVec.ofNat 64 off

/-- The parcel at the program counter, for `TVAL` of ILLEGAL and PRIV (R54). -/
def State.parcel (s : State) : BitVec 64 :=
  BitVec.ofNat 64 (s.readNat (nodeBase s.here + s.pc.toNat) 4)

/-- An instruction of n bytes commits: the program counter passes it, the core issues the next
instruction, and it counts as retired (R9, R53). -/
def State.commit (s : State) (n : Nat) : State :=
  (s.onCtl fun k => { k with pc := k.pc + BitVec.ofNat 16 n, issue := .run }).count 2

/-- As commit, with the program counter set (R172, R173). -/
def State.commitTo (s : State) (pc : BitVec 16) : State :=
  (s.onCtl fun k => { k with pc := pc, issue := .run }).count 2

/-- Every slot that is not FREE becomes TRAPPED and leaves its FIFO (R56, R77). -/
def Core.trapSlots (c : Core) : Core :=
  { c with
    slots := c.slots.map fun t => if t.st = .free then t else { t with st := .trapped, qd := false }
    sh := { c.sh with fifo := Vector.replicate 4 [] } }

/-- A queue. -/
def State.queue (s : State) (q : Nat) : Queue := tget Queue.reset s.lead.queues q
/-- Change a queue. -/
def State.onQueue (s : State) (q : Nat) (f : Queue → Queue) : State :=
  { s with lead := { s.lead with queues := tset Queue.reset s.lead.queues q (f (s.queue q)) } }
/-- Bytes written to host memory (R284, R289). -/
def State.hostWrite (s : State) (a : Nat) (bs : List (BitVec 8)) : State := s.poke (hostBase + a) bs false
/-- A completion word (R284). -/
def cmplWord (st : Nat) (gid : BitVec 16) : Nat := 2 ^ 31 + 65536 * st + gid.toNat
/-- A command of a queue completes: CMPL is written at its ring index, the command is gone, and a STOPPING queue
without commands is OFF (R283, R284). -/
def State.complete (s : State) (q : Nat) (c : Cmd) (st : Nat) (gid : BitVec 16) : State :=
  (s.hostWrite ((s.queue q).base.toNat + 64 * c.idx + 4) (leBytes 4 (cmplWord st gid))).onQueue q fun u =>
    let l := u.cmds.filter (·.no != c.no)
    { u with cmds := l, st := if u.st = .stopping ∧ l = [] then .off else u.st }
/-- The newest command of a queue, when it has not passed (R287). -/
def Queue.current (u : Queue) : Option Cmd := u.cmds.getLast?.filter fun c => !c.passed
/-- The newest command of a queue passes and completes. -/
def State.completeCurrent (s : State) (q st : Nat) : State :=
  match (s.queue q).current with
  | some c => s.complete q c st 0
  | none => s
/-- The SUSPENDs that a cut is for pass with a status, as the cut ends (R294). -/
def State.endSuspend (s : State) (i st : Nat) : State :=
  match (s.group i).cut with
  | .suspend qs => qs.foldl (fun s q => s.completeCurrent q st) s
  | .none | .drain => s

/-- Region row of a core on the panel: the number of its row's umpire (R14, R16). -/
def umpireOf (k : Nat) : Nat := 16 * panelRegion k + keyY k % 16
/-- An umpire. -/
def State.umpire (s : State) (u : Nat) : Umpire := tget Umpire.reset s.power.umpires u
/-- Change an umpire. -/
def State.onUmpire (s : State) (u : Nat) (f : Umpire → Umpire) : State :=
  { s with power := { s.power with umpires := tset Umpire.reset s.power.umpires u (f (s.umpire u)) } }
/-- A core is the one its row's umpire shadows. -/
def State.shadowedAt (s : State) (k : Nat) : Bool := (s.umpire (umpireOf k)).col == s.physCol k
/-- The selected core is the one its row's umpire shadows. -/
def State.shadowed (s : State) : Bool := s.shadowedAt s.here
/-- The comparison window of a core closes until the next interval (R360). -/
def State.closeWindowAt (s : State) (k : Nat) : State :=
  if s.shadowedAt k && (s.umpire (umpireOf k)).isOpen then
    s.onUmpire (umpireOf k) fun w => { w with isOpen := false, filled := false }
  else s
/-- The comparison window of the selected core closes until the next interval (R360). -/
def State.closeWindow (s : State) : State := s.closeWindowAt s.here
/-- The comparison windows of several cores close. -/
def State.closeWindows (s : State) (ks : List Nat) : State := ks.foldl State.closeWindowAt s
/-- The selected core commits n outputs that its umpire compares while the window is open (R361). -/
def State.output (s : State) (n : Nat) : State :=
  if s.shadowed && (s.umpire (umpireOf s.here)).isOpen then
    s.onUmpire (umpireOf s.here) fun w => { w with outs := w.outs + n }
  else s

/-! ## Voted transactions of a triad (R345-R347) -/

/-- Change the triad of a site. -/
def State.onTriad (s : State) (n : Nat) (f : Triad → Triad) : State := s.onSite n fun t => { t with triad := f t.triad }
/-- A copy of a triad, by number 0-2. -/
def Triad.copy (t : Triad) (c : Nat) : CopySt := t.copies[c]?.getD .retired
/-- A copy put into a state. -/
def Triad.put (t : Triad) (c : Nat) (x : CopySt) : Triad := { t with copies := t.copies.setIfInBounds c x }
/-- The copies that vote. -/
def Triad.voters (t : Triad) : List Nat := (List.range 3).filter fun c => t.copy c == .voting
/-- How many copies vote. -/
def Triad.votes (t : Triad) : Nat := t.voters.length
/-- Transactions a copy has presented. -/
def Triad.sentBy (t : Triad) (c : Nat) : Nat := t.sent[c]?.getD 0
/-- A copy owes the voter an issued transaction (R346). -/
def Triad.owes (t : Triad) (c : Nat) : Bool := t.silent.any fun q => q.copy.toNat == c
/-- The triad may put out a transaction of its own: it is not HALTED, and none waits for its second copy (R346,
R350). -/
def Triad.mayVote (t : Triad) : Bool := !t.halted && t.shown.isEmpty
/-- A transaction x of the triad's own work, which every voting copy presents alike: it issues; a copy that owes an
earlier one owes this one too (R345, R346). -/
def Triad.issueOwn (t : Triad) (now x : Nat) : Triad :=
  let m := t.voters.foldl (fun m c => max m (t.sentBy c)) 0
  let late := t.voters.filter t.owes
  let owed := late.map fun c => (⟨BitVec.ofNat 2 c, m, x, now⟩ : Shown)
  { t with txs := t.txs + 1, last := x, lastAt := now, silent := t.silent ++ owed,
           sent := (t.voters.filter fun c => !(t.owes c)).foldl (fun v c => v.setIfInBounds c (m + 1)) t.sent }
/-- As issueOwn; while an earlier transaction waits for its second copy, it comes behind that one (R346). -/
def Triad.vote (t : Triad) (now x : Nat) : Triad :=
  if t.shown.isEmpty then t.issueOwn now x else { t with behind := t.behind + 1 }
/-- n transactions of the triad's own work issue one after another. -/
def Triad.issueMany (t : Triad) (now : Nat) : Nat → Triad
  | 0 => t
  | n + 1 => (t.issueOwn now 0).issueMany now n
/-- Those that came behind a transaction issue once none waits any more (R346). -/
def Triad.catchUp (t : Triad) (now : Nat) : Triad :=
  if t.shown.isEmpty && !t.halted then { t with behind := 0 }.issueMany now t.behind else t
/-- The triad of a tile puts out a transaction of its own work; its content is no state of the model (R345, log entry
61). -/
def State.vote (s : State) (n : Nat) : State := s.onTriad n fun t => t.vote s.clock.ticks 0
/-- The triads of several tiles each put out a transaction of their own work: a write to what they control. A HALTED one issues none
(R345, R350). -/
def State.voteTiles (s : State) (ns : List Nat) : State :=
  ns.foldl (fun s n => if (s.site n).triad.halted then s else s.vote n) s
/-- Sites of the nodes of a list, each once. -/
def sitesOf (ks : List Nat) : List Nat := (List.range 25).filter fun n => ks.any fun k => siteOf k == n
/-- A cox writes control state of the cores of a list: voted transactions of their tiles' triads (R345). -/
def State.coxWrites (s : State) (ks : List Nat) (f : Nat → Core → Core) : State := (s.onCores ks f).voteTiles (sitesOf ks)

/-- A group becomes FAULTED: slots TRAPPED, CUT cleared, issue stopped; a SUSPEND passes with BUSY (R273,
R277, R295). The cores of a tile whose triad is HALTED run on until the boathouse controller stops them (R350). -/
def State.faultGroup (s : State) (i : Nat) : State :=
  let g := s.group i
  match g.st with
  | .running | .draining | .seeding | .loading =>
    let ks := g.cores.filter fun k => !(s.site (siteOf k)).triad.halted
    let s := ((s.endSuspend i 8).closeWindows ks).coxWrites ks fun _ c =>
      { c.trapSlots with ctl := { c.ctl with issue := .stopped }, sh := { c.trapSlots.sh with cut := false } }
    (s.onGroup i fun g => { g with st := .faulted, faultAt := s.clock.ticks, cut := .none }).note (.groupFault g.gid)
  | .unused | .admitted | .suspended | .faulted | .retired => s

/-- A core fault: the core stops issuing, its slots become TRAPPED, the cause is reported, the group
goes FAULTED (R56). -/
def State.coreFault (s : State) (c : Cause) (v : BitVec 64) : State :=
  let s := s.closeWindow
  let s := { s with core := { s.core.trapSlots with ctl := { s.core.ctl with issue := .stopped } } }
  let s := s.note (.coreFault s.here c.num v)
  match s.groupOf s.core.ctl.gid with
  | some i => s.faultGroup i
  | none => s

/-- TAKING AN EXCEPTION (R55): at S a core fault; at U the trap registers are written, the core enters
S and the program counter goes to the cause's entry of the vector table. -/
def State.takeTrap (s : State) (c : Cause) (v : BitVec 64) (resume : BitVec 16) : State :=
  match s.core.ctl.priv with
  | .s => s.coreFault c v
  | .u =>
    (s.closeWindow.onCtl fun k =>
      { k with async := c.isAsync, cause := c.num, tval := v, tpc := resume, priv := .s,
               pc := (k.kvec.setWidth 16 <<< 12) + 64 * c.num.setWidth 16, issue := .run }).count 9

/-- Take the highest pending asynchronous cause of the running slot: its bit of PEND clears (R55). -/
def State.takeAsync (s : State) (b : BitVec 3) (resume : BitVec 16) : State :=
  let t := s.slot
  let v := t.pendVal[b.toNat]?.getD 0
  let s := { s with core := s.core.onSlot s.core.ctl.slot fun t =>
    { t.pendOff b with parked := t.parked || (b == 1 && t.cutPend), cutPend := t.cutPend && b != 1 } }
  s.takeTrap (Cause.ofBit b.toNat) v resume

/-- The core stands at an instruction boundary of a context at U, where an asynchronous cause may be
taken: it issues or waits for an engine, and no instruction holds (R55, R201, R226). -/
def Ctl.takesAsync (k : Ctl) : Bool :=
  k.priv == .u && !k.riga && (match k.issue with
    | .run | .wait => true
    | .off | .hold | .idle _ | .stopped | .restored _ => false)
/-- The highest pending cause of the running slot is taken at the next instruction, where a core at U stands at a boundary
(R55). -/
def State.takePending (s : State) : State :=
  match topBit s.slot.pend with
  | some b => if s.core.ctl.takesAsync then s.takeAsync b s.pc else s
  | none => s

/-- EnterScheduler (R79): entry 0 of the vector table with a give-up code. -/
def State.enterScheduler (s : State) (code : BitVec 64) (resume : BitVec 16) : State :=
  s.closeWindow.onCtl fun k =>
    { k with async := false, cause := 0, tval := code, tpc := resume, priv := .s,
             pc := k.kvec.setWidth 16 <<< 12, issue := .run }

/-- RETURN FROM AN EXCEPTION, its register part (R57): U at `TPC`. -/
def State.leaveS (s : State) : State :=
  s.onCtl fun k => { k with priv := .u, pc := k.tpc, issue := .run }

/-- The instruction stays at issue and holds (R226). -/
def State.holdIssue (s : State) : State := s.onCtl fun k => { k with issue := .hold }

/-- The outcome of an instruction of n bytes: commit, the trap at the instruction (R54), or a hold at issue (R114). -/
def State.finish (s : State) (n : Nat) (r : Res) : Host.Outcome State Fault Refusal :=
  match r with
  | .ok t => .next (t.commit n)
  | .trap c v => .next (s.takeTrap c v s.pc)
  | .hold => .next s.holdIssue

/-- A blocking instruction at U whose condition is unmet: the slot sleeps and the core enters the
scheduler with code 2 (R77, R80). -/
def State.block (s : State) (w : Why) : State :=
  let s := { s with core := s.core.onSlot s.core.ctl.slot fun t =>
    { t with st := .sleep, why := w, slept := s.clock.ticks } }
  s.enterScheduler 2 s.pc

/-- A blocking instruction: sleep at U, hold at S (R80, R226). -/
def State.blockOrHold (s : State) (w : Why) : State :=
  match s.core.ctl.priv with
  | .u => s.block w
  | .s => s.holdIssue

/-- Write a status into a status register, without poison (R225). -/
def State.status (s : State) (d : GR) (v : BitVec 64) : State := s.setG d v false

end Sys2Proof.Machine
end

