-- ==== Sys2Proof/Machine/Flags.lean ====
section
/-! DEFINITION. `FPCR` fields, the sticky flags and the rounding helpers of R64 over exact dyadic
numbers m × 2^e. -/

namespace Sys2Proof.Machine

/-- Sticky flags in the order of `FPCR` 13:8 (R47). -/
abbrev Flags := BitVec 6
/-- No flag. -/
def noFlags : Flags := 0
/-- Invalid operation. -/
def flagNV : Flags := 1
/-- Division by zero. -/
def flagDZ : Flags := 2
/-- Overflow. -/
def flagOF : Flags := 4
/-- Underflow. -/
def flagUF : Flags := 8
/-- Inexact. -/
def flagNX : Flags := 16
/-- Saturated. -/
def flagSAT : Flags := 32
/-- A flag under a condition. -/
def flagIf (c : Bool) (f : Flags) : Flags := if c then f else 0

/-- Rounding modes, `FPCR.RM` (R47). -/
inductive Rm | rne | rtz | rup | rdn
  deriving DecidableEq, Repr

/-- `FPCR.RM`. -/
def fpcrRm (f : BitVec 14) : Rm :=
  match (f.extractLsb' 0 2).toNat with
  | 0 => .rne | 1 => .rtz | 2 => .rup | _ => .rdn
/-- `FPCR.BSR`. -/
def fpcrBsr (f : BitVec 14) : Bool := f.getLsbD 2
/-- `FPCR.FTZ`. -/
def fpcrFtz (f : BitVec 14) : Bool := f.getLsbD 3
/-- `FPCR.DAZ`. -/
def fpcrDaz (f : BitVec 14) : Bool := f.getLsbD 4

/-- m / 2^k rounded to an integer, and whether that lost anything (R64). -/
def roundShift (rm : Rm) (m : Int) (k : Nat) : Int × Bool :=
  let q := m / (2 ^ k : Nat)
  let r := (m % (2 ^ k : Nat)).toNat
  if r = 0 then (q, false)
  else
    match rm with
    | .rne => (if 2 * r < 2 ^ k then q else if 2 ^ k < 2 * r then q + 1 else if q % 2 = 0 then q else q + 1, true)
    | .rtz => (if m < 0 then q + 1 else q, true)
    | .rup => (q + 1, true)
    | .rdn => (q, true)

/-- `RoundMode` of m × 2^e (R64), and whether that lost anything. -/
def roundDyadic (rm : Rm) (m e : Int) : Int × Bool :=
  if 0 ≤ e then (m * (2 ^ e.toNat : Nat), false) else roundShift rm m (-e).toNat

/-- `RoundRNE` of m × 2^e (R64). -/
def roundRne (m e : Int) : Int := (roundDyadic .rne m e).1

/-- `RoundAway` of m × 2^e (R64). -/
def roundAway (m e : Int) : Int :=
  if m < 0 then (roundDyadic .rdn m e).1 else (roundDyadic .rup m e).1

/-- floor of m × 2^e, and the top 16 bits of its discarded fraction (R64, `RoundSR`). -/
def floorFrac (m e : Int) : Int × Nat :=
  if 0 ≤ e then (m * (2 ^ e.toNat : Nat), 0)
  else
    let k := (-e).toNat
    (m / (2 ^ k : Nat), (m % (2 ^ k : Nat)).toNat * 65536 / 2 ^ k)

/-- `RoundSR` with the generator's low 16 bits after its step (R64, R65). -/
def roundSr (m e : Int) (draw : BitVec 16) : Int :=
  let (q, f) := floorFrac m e
  if 65536 ≤ f + draw.toNat then q + 1 else q

/-- `LfsrStep` (R65). -/
def lfsrStep (x : BitVec 32) : BitVec 32 :=
  let b := x.getLsbD 31 ^^ x.getLsbD 21 ^^ x.getLsbD 1 ^^ x.getLsbD 0
  (x <<< 1) ||| (BitVec.ofBool b).setWidth 32

/-- n steps of the generator: the draws in order and the state after them (R65). -/
def lfsrDraws : Nat → BitVec 32 → List (BitVec 16) × BitVec 32
  | 0, x => ([], x)
  | n + 1, x =>
    let y := lfsrStep x
    let (l, z) := lfsrDraws n y
    (y.setWidth 16 :: l, z)

/-- Seed of the generator at group start (R65). -/
def lfsrSeed (gid : BitVec 16) (x : BitVec 9) (y : BitVec 8) : BitVec 32 :=
  let v := (gid.setWidth 32 <<< 16) ^^^ (y.setWidth 32 <<< 9) ^^^ x.setWidth 32
  if v = 0 then 1 else v

end Sys2Proof.Machine
end

