-- ==== Sys2Proof/Machine/Float.lean ====
section
/-! DEFINITION. IEEE formats and their operations (R62-R64), over exact numbers m × 2^e. -/

namespace Sys2Proof.Machine

/-- A floating format: exponent bits and fraction bits (R62). -/
structure Fmt where
  eb : Nat
  fb : Nat
  deriving DecidableEq, Repr

/-- binary32. -/
def fmtF32 : Fmt := ⟨8, 23⟩
/-- binary16. -/
def fmtF16 : Fmt := ⟨5, 10⟩
/-- BF16. -/
def fmtBf16 : Fmt := ⟨8, 7⟩

/-- Exponent bias. -/
def Fmt.bias (f : Fmt) : Nat := 2 ^ (f.eb - 1) - 1
/-- Width in bits. -/
def Fmt.width (f : Fmt) : Nat := f.eb + f.fb + 1
/-- The default NaN (R62). -/
def Fmt.nan (f : Fmt) : Nat := (2 ^ f.eb - 1) * 2 ^ f.fb + 2 ^ (f.fb - 1)
/-- Infinity of a sign. -/
def Fmt.inf (f : Fmt) (neg : Bool) : Nat := (if neg then 2 ^ (f.eb + f.fb) else 0) + (2 ^ f.eb - 1) * 2 ^ f.fb
/-- Zero of a sign. -/
def Fmt.zero (f : Fmt) (neg : Bool) : Nat := if neg then 2 ^ (f.eb + f.fb) else 0
/-- Largest finite value of a sign. -/
def Fmt.max (f : Fmt) (neg : Bool) : Nat := f.inf neg - 1
/-- Exponent of the smallest normal number. -/
def Fmt.emin (f : Fmt) : Int := 1 - (f.bias : Int)

/-- A floating value: (-1)^neg × m × 2^e when finite. -/
inductive FVal
  | nan (signalling : Bool)
  | inf (neg : Bool)
  | fin (neg : Bool) (m : Nat) (e : Int)
  deriving DecidableEq, Repr

/-- The value of a bit pattern; with daz a subnormal reads as zero of its sign (R62, R64). -/
def Fmt.unpack (f : Fmt) (daz : Bool) (w : Nat) : FVal :=
  let w := w % 2 ^ f.width
  let neg := decide (2 ^ (f.eb + f.fb) ≤ w)
  let x := w / 2 ^ f.fb % 2 ^ f.eb
  let m := w % 2 ^ f.fb
  if x = 2 ^ f.eb - 1 then (if m = 0 then .inf neg else .nan (decide (m < 2 ^ (f.fb - 1))))
  else if x = 0 then (if daz then .fin neg 0 0 else .fin neg m (f.emin - f.fb))
  else .fin neg (m + 2 ^ f.fb) ((x : Int) - f.bias - f.fb)

/-- Rounding mode, FTZ and DAZ as captured (R66). -/
structure FEnv where
  rm  : Rm
  ftz : Bool
  daz : Bool
  deriving DecidableEq, Repr

/-- What an instruction captures of `FPCR` (R66). -/
def fpcrEnv (x : BitVec 14) : FEnv := ⟨fpcrRm x, fpcrFtz x, fpcrDaz x⟩

/-- A result with its flags. -/
abbrev FRes := Nat × Flags

/-- The overflowed result (R64). -/
def Fmt.overflow (f : Fmt) (rm : Rm) (neg : Bool) : FRes :=
  let toInf := match rm with
    | .rne => true
    | .rtz => false
    | .rup => !neg
    | .rdn => neg
  (if toInf then f.inf neg else f.max neg, flagOF ||| flagNX)

/-- Rounding mode seen by a magnitude of a sign. -/
def Rm.mag (rm : Rm) (neg : Bool) : Rm :=
  match rm, neg with
  | .rup, true => .rdn
  | .rdn, true => .rup
  | r, _ => r

/-- (-1)^neg × m × 2^e rounded into the format, with tininess after rounding (R64). -/
def Fmt.round (f : Fmt) (v : FEnv) (neg : Bool) (m : Nat) (e : Int) : FRes :=
  if m = 0 then (f.zero neg, 0)
  else
    let rm := v.rm.mag neg
    let l : Int := e + Nat.log2 m
    -- the result with the exponent range unbounded
    let (r, x) := roundDyadic rm m (e - (l - f.fb))
    let l' : Int := if (2 ^ (f.fb + 1) : Nat) ≤ r then l + 1 else l
    if l' < f.emin then
      if v.ftz then (f.zero neg, flagUF ||| flagNX)
      else
        let (r, x) := roundDyadic rm m (e - (f.emin - f.fb))
        (f.zero neg + r.toNat, flagIf x (flagUF ||| flagNX))
    else if (f.bias : Int) < l' then f.overflow v.rm neg
    else (f.zero neg + ((l + f.bias).toNat * 2 ^ f.fb + r.toNat - 2 ^ f.fb), flagIf x flagNX)

/-- A signed exact number rounded into the format; z is the sign of an exact zero. -/
def Fmt.roundInt (f : Fmt) (v : FEnv) (z : Bool) (m e : Int) : FRes :=
  if m = 0 then (f.zero z, 0) else f.round v (decide (m < 0)) m.natAbs e

/-- NV for the signalling NaNs among the operands (R62). -/
def nvOf : List FVal → Flags
  | [] => 0
  | .nan true :: r => flagNV ||| nvOf r
  | .nan false :: r | .inf _ :: r | .fin _ _ _ :: r => nvOf r

/-- Some operand is a NaN. -/
def anyNan (l : List FVal) : Bool :=
  l.any fun | .nan _ => true | .inf _ => false | .fin _ _ _ => false

/-- The signed significand of a finite value. -/
def sgn (neg : Bool) (m : Nat) : Int := if neg then -(m : Int) else m

/-- Sum of two exact numbers. -/
def dyadicAdd (a : Int) (ea : Int) (b : Int) (eb : Int) : Int × Int :=
  if ea ≤ eb then (a + b * (2 ^ (eb - ea).toNat : Nat), ea) else (a * (2 ^ (ea - eb).toNat : Nat) + b, eb)

/-- The sign of a zero sum: that of both terms when they agree, else + but for RDN (IEEE 754). -/
def zeroSign (rm : Rm) (na nb : Bool) : Bool := if na = nb then na else rm == .rdn

/-- a + b. -/
def Fmt.add (f : Fmt) (v : FEnv) (a b : FVal) : FRes :=
  if anyNan [a, b] then (f.nan, nvOf [a, b])
  else
    match a, b with
    | .inf x, .inf y => if x = y then (f.inf x, 0) else (f.nan, flagNV)
    | .inf x, _ => (f.inf x, 0)
    | _, .inf y => (f.inf y, 0)
    | .fin na ma ea, .fin nb mb eb =>
      let (m, e) := dyadicAdd (sgn na ma) ea (sgn nb mb) eb
      f.roundInt v (if ma = 0 ∧ mb = 0 then zeroSign v.rm na nb else v.rm == .rdn) m e
    | _, _ => (f.nan, 0)

/-- -a. -/
def FVal.neg : FVal → FVal
  | .nan s => .nan s
  | .inf n => .inf (!n)
  | .fin n m e => .fin (!n) m e

/-- a - b. -/
def Fmt.sub (f : Fmt) (v : FEnv) (a b : FVal) : FRes := f.add v a b.neg

/-- a × b. -/
def Fmt.mul (f : Fmt) (v : FEnv) (a b : FVal) : FRes :=
  if anyNan [a, b] then (f.nan, nvOf [a, b])
  else
    match a, b with
    | .inf x, .inf y => (f.inf (x != y), 0)
    | .inf x, .fin y m _ | .fin y m _, .inf x => if m = 0 then (f.nan, flagNV) else (f.inf (x != y), 0)
    | .fin na ma ea, .fin nb mb eb => f.round v (na != nb) (ma * mb) (ea + eb)
    | _, _ => (f.nan, 0)

/-- ∞ × 0 among the factors. -/
def infTimesZero : FVal → FVal → Bool
  | .inf _, .fin _ m _ | .fin _ m _, .inf _ => decide (m = 0)
  | _, _ => false

/-- a × b + c with one rounding; ∞ × 0 is NV even when c is a NaN (R179). -/
def Fmt.fma (f : Fmt) (v : FEnv) (a b c : FVal) : FRes :=
  if infTimesZero a b then (f.nan, flagNV ||| nvOf [c])
  else if anyNan [a, b, c] then (f.nan, nvOf [a, b, c])
  else
    match a, b, c with
    | .fin na ma ea, .fin nb mb eb, .fin nc mc ec =>
      let p := na != nb
      let (m, e) := dyadicAdd (sgn p (ma * mb)) (ea + eb) (sgn nc mc) ec
      f.roundInt v (if ma * mb = 0 ∧ mc = 0 then zeroSign v.rm p nc else v.rm == .rdn) m e
    | .fin _ _ _, .fin _ _ _, .inf n => (f.inf n, 0)
    | a, b, c =>
      let p := match a, b with
        | .inf x, .inf y | .inf x, .fin y _ _ | .fin x _ _, .inf y => x != y
        | _, _ => false
      match c with
      | .inf n => if n = p then (f.inf n, 0) else (f.nan, flagNV)
      | _ => (f.inf p, 0)

/-- a / b, correctly rounded (R179): a quotient of 64 extra bits and a sticky bit stands for it. -/
def Fmt.div (f : Fmt) (v : FEnv) (a b : FVal) : FRes :=
  if anyNan [a, b] then (f.nan, nvOf [a, b])
  else
    match a, b with
    | .inf _, .inf _ => (f.nan, flagNV)
    | .inf x, .fin y _ _ => (f.inf (x != y), 0)
    | .fin x _ _, .inf y => (f.zero (x != y), 0)
    | .fin na ma ea, .fin nb mb eb =>
      if mb = 0 then (if ma = 0 then (f.nan, flagNV) else (f.inf (na != nb), flagDZ))
      else
        let n := ma * 2 ^ 64
        f.round v (na != nb) (2 * (n / mb) + (if n % mb = 0 then 0 else 1)) (ea - eb - 65)
    | _, _ => (f.nan, 0)

/-- Integer square root from the top bit down: r² ≤ n < (r + 1)² for n < 4^k. -/
def isqrt : Nat → Nat → Nat → Nat
  | 0, _, r => r
  | k + 1, n, r => if (r + 2 ^ k) * (r + 2 ^ k) ≤ n then isqrt k n (r + 2 ^ k) else isqrt k n r

/-- Square root, correctly rounded; -0 gives -0 (R179). -/
def Fmt.sqrt (f : Fmt) (v : FEnv) (a : FVal) : FRes :=
  match a with
  | .nan s => (f.nan, flagIf s flagNV)
  | .inf n => if n then (f.nan, flagNV) else (f.inf false, 0)
  | .fin n m e =>
    if m = 0 then (f.zero n, 0)
    else if n then (f.nan, flagNV)
    else
      -- an even exponent, and enough bits below it
      let (m, e) := if e % 2 = 0 then (m * 2 ^ 64, e - 64) else (m * 2 ^ 65, e - 65)
      let r := isqrt 48 m 0
      f.round v false (2 * r + (if r * r = m then 0 else 1)) (e / 2 - 1)

/-- Order of two numbers: a < b, with -0 below +0 when z holds. -/
def FVal.less (z : Bool) : FVal → FVal → Bool
  | .inf x, .inf y => x && !y
  | .inf x, .fin _ _ _ => x
  | .fin _ _ _, .inf y => !y
  | .fin na ma ea, .fin nb mb eb =>
    let d := (dyadicAdd (sgn na ma) ea (-(sgn nb mb)) eb).1
    if d = 0 then z && na && !nb && decide (ma = 0) else decide (d < 0)
  | _, _ => false

/-- A value written back into the format. -/
def Fmt.put (f : Fmt) (v : FEnv) : FVal → FRes
  | .nan s => (f.nan, flagIf s flagNV)
  | .inf n => (f.inf n, 0)
  | .fin n m e => f.round v n m e

/-- The smaller (or larger) operand; one NaN gives the other operand (R179). -/
def Fmt.minMax (f : Fmt) (v : FEnv) (larger : Bool) (a b : FVal) : FRes :=
  let nv := nvOf [a, b]
  match a, b with
  | .nan _, .nan _ => (f.nan, nv)
  | .nan _, x | x, .nan _ => let r := f.put v x; (r.1, r.2 ||| nv)
  | a, b => f.put v (if larger then (if FVal.less true a b then b else a) else (if FVal.less true b a then b else a))

/-- a == b with its flags (R179). -/
def cmpEq (a b : FVal) : Bool × Flags :=
  if anyNan [a, b] then (false, nvOf [a, b]) else (!(FVal.less false a b) && !(FVal.less false b a), 0)
/-- a < b with its flags (R179). -/
def cmpLt (a b : FVal) : Bool × Flags :=
  if anyNan [a, b] then (false, flagNV) else (FVal.less false a b, 0)
/-- a ≤ b with its flags (R179). -/
def cmpLe (a b : FVal) : Bool × Flags :=
  if anyNan [a, b] then (false, flagNV) else (!(FVal.less false b a), 0)

/-- The class mask of `FCLASS` (R179). -/
def Fmt.classify (f : Fmt) (w : Nat) : Nat :=
  match f.unpack false w with
  | .nan s => if s then 256 else 512
  | .inf n => if n then 1 else 128
  | .fin n m _ =>
    if m = 0 then (if n then 8 else 16)
    else if m < 2 ^ f.fb then (if n then 4 else 32)
    else if n then 2 else 64

/-- A number converted to an integer between lo and hi (R63). -/
def toIntBounds (rm : Rm) (lo hi : Int) : FVal → Int × Flags
  | .nan _ => (0, flagNV)
  | .inf n => (if n then lo else hi, flagSAT)
  | .fin n m e =>
    let (r, x) := roundDyadic rm (sgn n m) e
    if r < lo then (lo, flagSAT) else if hi < r then (hi, flagSAT) else (r, flagIf x flagNX)

end Sys2Proof.Machine
end

