-- ==== Sys2Proof/Machine/Operands.lean ====
section
/-! DEFINITION. Operand forms: memory accesses by path (R174, R175, R186), scalar operands (R164,
R179), lanes and masks of vector registers (R182, R183). -/

namespace Sys2Proof

/-- Bytes of an `LD` width (R139). -/
def LdW.bytes : LdW → Nat
  | .i8 | .n8 => 1 | .i16 | .n16 => 2 | .i32 | .n32 => 4 | .d64 => 8
/-- `.i` widths (R175). -/
def LdW.signed : LdW → Bool
  | .i8 | .i16 | .i32 => true | .n8 | .n16 | .n32 | .d64 => false
/-- Bytes of an `ST` width (R139). -/
def StW.bytes : StW → Nat
  | .w8 => 1 | .w16 => 2 | .w32 => 4 | .w64 => 8
/-- Bits of an extension width (R142). -/
def ExtW.bits : ExtW → Nat
  | .b8 => 8 | .b16 => 16 | .b32 => 32
/-- Format of a scalar float type (R144). -/
def FTy.fmt : FTy → Machine.Fmt
  | .f32 => Machine.fmtF32 | .f16 => Machine.fmtF16 | .bf16 => Machine.fmtBf16

/-- Lane width in bits (R182). -/
def Ty.bits : Ty → Nat
  | .i8 | .n8 => 8 | .i16 | .n16 | .f16 | .bf16 => 16 | .i32 | .n32 | .f32 => 32 | .i64 | .n64 => 64
  | .bk4 | .bk8 | .bs8 => 8 | .bk16 => 16
/-- Lane count (R182). -/
def Ty.lanes (y : Ty) : Nat := 512 / y.bits
/-- Format of a float type. -/
def Ty.fmt : Ty → Machine.Fmt
  | .f16 => Machine.fmtF16 | .bf16 => Machine.fmtBf16 | _ => Machine.fmtF32
/-- Mantissa bits of a block type (R58). -/
def Ty.mbits : Ty → Nat
  | .bk4 => 4 | .bk16 | .bf16 => 16 | _ => 8
/-- Mantissa bytes of one block in memory (R60, R209). -/
def Ty.planeBytes : Ty → Nat
  | .bk4 => 16 | .bk16 | .bf16 => 64 | _ => 32

/-- Blocks of a block type in a body (R33, R187). -/
def Ty.blocks : Ty → Nat
  | .bk16 => 1
  | _ => 2
/-- Register bits of one mantissa (R33). -/
def Ty.laneBits : Ty → Nat
  | .bk16 => 16
  | _ => 8
/-- Smallest and largest value of an integer type. -/
def Ty.bounds (y : Ty) : Int × Int :=
  if y.signedInt then (-((2 ^ (y.bits - 1) : Nat) : Int), (2 ^ (y.bits - 1) : Nat) - 1)
  else (0, (2 ^ y.bits : Nat) - 1)

end Sys2Proof

namespace Sys2Proof.Machine

/-- The result of a body that first needs a legal operand form (R136, R141). -/
def State.legal (s : State) (i : Instr) (r : Res) : Res :=
  if i.wellFormed then r else .trap .illegal s.parcel

/-- A consuming use of a register: POISON with `TVAL` 0 when it carries poison (R89). -/
def State.consume (s : State) (r : GR) (k : Res) : Res :=
  if s.gp r then .trap .poison 0 else k

/-! ## Numbers -/

/-- Sign extension of the low w bits (R64). -/
def signExtend (w x : Nat) : Int :=
  let y := x % 2 ^ w
  if 2 ^ (w - 1) ≤ y then (y : Int) - (2 ^ w : Nat) else y

/-- An integer modulo 2^w. -/
def wrap (w : Nat) (z : Int) : Nat := (z % (2 ^ w : Nat)).toNat

/-- A number from lanes of w bits, lane 0 first. -/
def packNat (w : Nat) : List Nat → Nat
  | [] => 0
  | x :: r => x % 2 ^ w + 2 ^ w * packNat w r
/-- A loaded value as a register takes it (R175). -/
def loadedValue (w : LdW) (x : Nat) : BitVec 64 :=
  if w.signed then BitVec.ofInt 64 (signExtend (8 * w.bytes) x) else BitVec.ofNat 64 x

/-! ## Memory accesses of the selected core -/

/-- A cluster-direct store performed at its target (R39, R40, R112). -/
def State.portStore (s : State) (k : Nat) (q : PortStore) : State :=
  (s.writeOf q.st k q.off q.bytes q.p).retag (nodeBase k + q.off) q.bytes.length (storeTag q.tag)

/-- Numbers of the aligned 64-bit words that n bytes at a memory key touch. -/
def wordsOf (a n : Nat) : List Nat := (List.range ((a + n + 7) / 8 - a / 8)).map (a / 8 + ·)
/-- Two lists share a word. -/
def shareWord (a b : List Nat) : Bool := a.any b.contains
/-- Words a waiting store writes at the port of a core. -/
def PortStore.words (q : PortStore) (k : Nat) : List Nat := wordsOf (nodeBase k + q.off) q.bytes.length
/-- Numbers of n words of an end from it on; those of another panel lie past this panel's, by their address. -/
def End.words (e : End) (n : Nat) : List Nat :=
  match e with
  | .near k off => wordsOf (nodeBase k + off) (8 * n)
  | .far a => wordsOf (farBase + a) (8 * n)
  | .peer a => wordsOf (peerBase + a) (8 * n)
/-- Words a burst in flight writes. -/
def Flight.places (f : Flight) : List Nat := f.dest.words f.words.length
/-- Bursts in flight of a stream. -/
def Stream.flying (t : Stream) : List Flight := t.legs.flatMap (·.fly)
/-- Words a core's streams are writing. -/
def Core.flying (c : Core) : List Nat :=
  c.sh.stream.toList.flatMap fun t => t.legs.flatMap fun l => l.fly.flatMap Flight.places
/-- The word an atomic request writes: that of a node, with a site the far one (R129), or one of another panel. -/
def Packet.place (p : Packet) : List Nat :=
  if p.kind ≠ .amo then []
  else if p.dstPan ≠ 0xFF then [(peerBase + p.addr.toNat) / 8]
  else if p.count ≠ 0 then [(farBase + p.addr.toNat) / 8]
  else [(nodeBase p.dst + p.addr.toNat % 262144) / 8]
/-- The word a core's atomic without an answer writes. -/
def Core.asking (c : Core) : List Nat :=
  match c.sh.rpc with
  | some r => if r.reply = none then r.req.place else []
  | none => []
/-- Words that bursts of a core's ORDERED transfers, or its atomic, are writing: a read of one of them on another path waits
(R114). -/
def Core.ordering (c : Core) : List Nat :=
  ((c.sh.stream.toList.filter (·.cls == .ordered)).flatMap fun t => t.flying.flatMap Flight.places) ++ c.asking
/-- Words a core writes by streams or by an atomic that has no answer: a later write to one of them on another path
waits (R114). -/
def Core.writing (c : Core) : List Nat := c.flying ++ c.asking

/-- A word written at a place of an end; landings of the issuing core take the recorded slot's tag
(R39). -/
def State.putWord (s : State) (owner : SlotId) (e : End) (i : Nat) (w : Nat × Bool) : State :=
  match e with
  | .near k off =>
    let o := off + 8 * i
    let s := s.write k o (leBytes 8 w.1) w.2
    if k = s.here then s.retag (nodeBase k + o) 8 fun _ => owner.setWidth 5 else s
  | .far f => s.poke (farBase + f + 8 * i) (leBytes 8 w.1) w.2
  | .peer _ => s
/-- Words written one after another from a place on, from word i on. -/
def State.putWords (s : State) (owner : SlotId) (e : End) (i : Nat) : List (Nat × Bool) → State
  | [] => s
  | w :: r => (s.putWord owner e i w).putWords owner e (i + 1) r
/-- The end i words on. -/
def End.shift (e : End) (i : Nat) : End :=
  match e with
  | .near k off => .near k (off + 8 * i)
  | .far a => .far (a + 8 * i)
  | .peer a => .peer (a + 8 * i)
/-- What is left in flight of a burst without its word i: the words before it and the words after it. -/
def Flight.without (f : Flight) (i : Nat) : List Flight :=
  [{ f with words := f.words.take i }, { f with words := f.words.drop (i + 1), dest := f.dest.shift (i + 1) }].filter
    fun g => !g.words.isEmpty
/-- A burst in flight is performed at its home (R112). -/
def State.landFlight (s : State) (owner : SlotId) (f : Flight) : State := s.putWords owner f.dest 0 f.words
/-- Bytes of a leg (R239). -/
def Stream.legBytes (t : Stream) : Nat := 256 * 2 ^ t.legl.toNat
/-- Bytes of the leg that starts at a position. -/
def Stream.bytesAt (t : Stream) (pos : Nat) : Nat := min t.legBytes (t.len.toNat - pos)
/-- Words between the 32-byte boundary at or before the first byte a leg writes and that byte. -/
def Stream.lead (t : Stream) (pos : Nat) : Nat := (t.dst.toNat + pos) % 32 / 8
/-- Bursts of a leg: they are cut where the destination crosses a multiple of 32 (R241, log entry 16). -/
def Stream.bursts (t : Stream) (pos : Nat) : Nat := (t.lead pos + t.bytesAt pos / 8 + 3) / 4
/-- Every write of a leg has completed: all words are read, and none of them is still to be sent or in flight. -/
def Leg.done (l : Leg) : Bool := l.reads.isEmpty && l.got.isEmpty && l.fly.isEmpty
/-- Legs whose writes have all completed are over; POS is the first byte of the oldest leg that is not (R42, R244). -/
def Stream.settle (t : Stream) : Stream :=
  let l := t.legs.filter fun g => !g.done
  { t with legs := l, pos := (l.map (·.pos) ++ t.redo).foldl min t.next }

/-- The bursts in flight of the selected core's STREAM and RANDOM transfers to some words are performed: a read of
such a word on another path comes after them (R114). -/
def State.landWords (s : State) (ws : List Nat) : State :=
  (List.range 4).foldl (fun (s : State) k =>
    match s.core.sh.stream[k]? with
    | none => s
    | some t =>
      if t.cls = .ordered then s
      else
        let hit (f : Flight) : Bool := shareWord f.places ws
        let l : List Flight := t.legs.flatMap fun g => g.fly.filter hit
        if l.isEmpty then s
        else
          let left (g : Leg) : Leg := { g with fly := g.fly.filter fun f => !(hit f) }
          let u : Stream := Stream.settle { t with legs := t.legs.map left }
          (l.foldl (fun s f => s.landFlight t.owner f) s).onSh fun h => { h with stream := h.stream.setIfInBounds k u }) s

/-! ## The cluster port (R40) -/

/-- Position of a core within its cluster (R40, log entry 17). -/
def clusterPos (k : Nat) : Nat := 8 * (keyY k % 4) + keyX k % 8
/-- Places in a port's queue of the stores of the peer at a position that may be performed: the oldest to each of its
words (R40), and none to a word the peer still writes on another path (R114). -/
def State.portReady (s : State) (k i : Nat) : List Nat :=
  let l := (s.coreAt k).sh.port
  (List.range l.length).filter fun j =>
    match l[j]? with
    | none => false
    | some q =>
      clusterPos q.src == i && !((l.take j).any fun r => r.src == q.src && shareWord (r.words k) (q.words k))
        && !(shareWord (q.words k) (s.coreAt q.src).writing)
/-- The store at a place of a port's queue is performed; the turn passes to the position after its peer's. -/
def State.portPerform (s : State) (k j : Nat) : State :=
  match (s.coreAt k).sh.port[j]? with
  | none => s
  | some q =>
    (s.onCore k fun c => { c with sh := { c.sh with port := dropAt j c.sh.port, turn := (clusterPos q.src + 1) % 32 } }).portStore k q
/-- The port serves the peer at a position: one of its stores that may be performed, which one is free (R115, log
entry 17). -/
def State.portServe (s : State) (k i : Nat) : State :=
  let l := s.portReady k i
  match l[Config.portChoice s.draws % l.length]? with
  | some j => s.portPerform k j
  | none => s
/-- The port serves the peers from its turn on until that of a position (R40). -/
def State.portUntil (s : State) (k i : Nat) : State :=
  let turn := (s.coreAt k).sh.turn
  (List.range ((i + 32 - turn % 32) % 32)).foldl (fun s j => s.portServe k ((turn + j) % 32)) s
/-- The selected core's turn at a peer's port, the port having served the peers before it: its own waiting stores to
some words are performed first, in issue order, each at a turn of its own (R40, R114). -/
def State.portTurns (s : State) (k : Nat) (ws : List Nat) : Nat → State
  | 0 => (s.portUntil k (clusterPos s.here)).onCore k fun c => { c with sh := { c.sh with turn := (clusterPos s.here + 1) % 32 } }
  | n + 1 =>
    let t := s.portUntil k (clusterPos s.here)
    match findAt (fun q => q.src == s.here && shareWord (q.words k) ws) (t.coreAt k).sh.port with
    | some j => (t.portPerform k j).portTurns k ws n
    | none => t.onCore k fun c => { c with sh := { c.sh with turn := (clusterPos s.here + 1) % 32 } }
/-- A cluster-direct read of some words of a peer wins the port (R40): what the core itself has written there before
is performed first (R114). -/
def State.portRead (s : State) (k : Nat) (ws : List Nat) : State :=
  let s := s.landWords ws
  s.portTurns k ws ((s.coreAt k).sh.port.countP (·.src == s.here))
/-- Every cluster-direct store of the selected core that waits is performed (R219). -/
def State.drainStores (s : State) : State :=
  (rectKeys (keyX s.here / 8 * 8) (keyY s.here / 4 * 4) 8 4).foldl (fun s k =>
    let ws := ((s.coreAt k).sh.port.filter (·.src == s.here)).flatMap (·.words k)
    if ws = [] then s else s.portRead k ws) s
/-- What the core has read ahead of a word is dropped. -/
def State.forgetAhead (s : State) (k : Nat) (ws : List Nat) : State :=
  s.onSh fun h => { h with ahead := h.ahead.filter fun a => !(a.key == k && ws.contains a.word) }
/-- Everything read ahead is dropped: a fence or an acquire completes (R118, R121). -/
def State.fenceAhead (s : State) : State := s.onSh fun h => { h with ahead := [] }

/-- Count cluster-direct accesses (R53). -/
def State.countDirect (s : State) (n : Nat) : State := { s with core := s.core.countN 4 n }

/-- Bytes a late read takes, all in one word. -/
def LateReg.bytes : LateReg → Nat
  | .scalar _ w => w.bytes
  | .body _ _ | .side _ | .nibbles _ _ => 8
  | .lane _ bits _ => bits / 8
/-- Lane i of w bits of a body takes a value. -/
def putLane (w i x : Nat) (b : BitVec 512) : BitVec 512 :=
  (b &&& ~~~(BitVec.ofNat 512 ((2 ^ w - 1) * 2 ^ (w * i)))) ||| BitVec.ofNat 512 (x % 2 ^ w * 2 ^ (w * i))
/-- Sixteen nibbles sign-extended into byte lanes (R187). -/
def nibbleLanes (x : Nat) : Nat := packNat 8 ((List.range 16).map fun i => wrap 8 (signExtend 4 (x / 2 ^ (4 * i))))
/-- What a late read takes is written: a value, and whether its word carries poison (R175, R186, R187). -/
def State.putLate (s : State) (r : LateReg) (x : Nat) (p : Bool) : State :=
  let part (v : VR) (f : VReg → VReg) : State := s.setV v { f (s.vr v) with p := (s.vr v).p || p }
  match r with
  | .scalar g w => s.setG g (loadedValue w x) p
  | .body v i => part v fun y => { y with body := putLane 64 i x y.body }
  | .side v => part v fun y => { y with side := BitVec.ofNat 64 x }
  | .lane v w i => part v fun y => { y with body := putLane w i x y.body }
  | .nibbles v i => part v fun y => { y with body := putLane 128 i (nibbleLanes x) y.body }
/-- A late read is taken, at a turn of the port (R40, R115). -/
def State.takeRead (s : State) (q : Late) : State :=
  let a := nodeBase q.key + q.off
  let t := s.portRead q.key (wordsOf a q.reg.bytes)
  t.putLate q.reg (t.readNat a q.reg.bytes) (t.anyPoison a q.reg.bytes)
/-- The late reads that satisfy p are taken, in program order. -/
def State.takeIf (s : State) (p : Late → Bool) : State :=
  let l := s.core.sh.late.filter p
  if l.isEmpty then s
  else l.foldl State.takeRead (s.onSh fun h => { h with late := h.late.filter fun q => !(p q) })
/-- All late reads are taken. -/
def State.takeLate (s : State) : State := s.takeIf fun _ => true
/-- The word a late read reads. -/
def Late.words (q : Late) : List Nat := wordsOf (nodeBase q.key + q.off) q.reg.bytes
/-- The late reads of some words are taken: a later access of the core to one of them comes after them (R114, R115). -/
def State.takeWords (s : State) (ws : List Nat) : State := s.takeIf fun q => shareWord q.words ws
/-- Late reads of a load along a path that passed its checks: of a cluster peer alone. -/
def Path.lates (p : Path) (l : List (LateReg × Nat)) : List Late :=
  match p with
  | .peer k off => l.map fun e => ⟨e.1, k, off + e.2⟩
  | .own _ | .trap _ => []
/-- The reads of a load go late, as an input says: outside a rig, and none of them of a word that was read ahead (R115). -/
def State.goLate (s : State) (l : List Late) : Bool :=
  s.met.contains .readLate && !s.core.ctl.riga && !l.isEmpty &&
    !(l.any fun q => s.core.sh.ahead.any fun a => a.key == q.key && q.words == [a.word])
/-- Reads of a load put off: its instruction commits before their values are taken (R115). -/
def State.putOff (s : State) (l : List Late) : State :=
  (s.onSh fun h => { h with late := h.late ++ l }).countDirect l.length
/-- A load whose reads go late, or is made at once. -/
def State.orLate (s : State) (l : List Late) (t : State) (r : Res) : Res := if s.goLate l then .ok (t.putOff l) else r

/-- n bytes within one word of a peer, as its port serves them, after the core's late reads of it. One that was read ahead has the
value taken then (R115, log entry 17). -/
def State.loadWord (s : State) (k off n : Nat) : State × Nat × Bool :=
  let ws := wordsOf (nodeBase k + off) n
  let s := s.takeWords ws
  match s.core.sh.ahead.find? fun a => a.key == k && ws == [a.word] with
  | some a => (s.forgetAhead k ws, a.val.toNat / 256 ^ (off % 8) % 256 ^ n, a.p)
  | none =>
    let t := (s.portRead k ws).forgetAhead k ws
    (t, t.readNat (nodeBase k + off) n, t.anyPoison (nodeBase k + off) n)
/-- Words of a peer, ascending, each at a turn of its own (R40, R186). -/
def State.loadWords (s : State) (k off : Nat) : Nat → State × Nat × Bool
  | 0 => (s, 0, false)
  | n + 1 =>
    let (t, x, p) := s.loadWord k off 8
    let (u, y, q) := t.loadWords k (off + 8) n
    (u, x + 2 ^ 64 * y, p || q)
/-- n bytes read along a path that passed its checks: the state, the value, the poison (R175). -/
def State.loadAt (s : State) (p : Path) (n : Nat) : State × Nat × Bool :=
  match p with
  | .own off => (s, s.readNat (nodeBase s.here + off) n, s.anyPoison (nodeBase s.here + off) n)
  | .peer k off =>
    let s := s.countDirect ((n + 7) / 8)
    if n ≤ 8 then s.loadWord k off n else s.loadWords k off (n / 8)
  | .trap _ => (s, 0, false)

/-- A list cut into pieces of at most 8. -/
def chunks8 {α : Type} : Nat → List α → List (List α)
  | 0, _ => []
  | n + 1, l => if l.length ≤ 8 then [l] else l.take 8 :: chunks8 n (l.drop 8)

/-- Stores queued at a peer's cluster port, one for each aligned dword, of an `ST` or another instruction (R40, R186); the core's
late reads of their words come before them (R115). -/
def State.queueOf (s : State) (st : Bool) (k off : Nat) (bs : List (BitVec 8)) (p : Bool) : State :=
  let parts := chunks8 bs.length bs
  let new := parts.mapIdx fun i b => (⟨s.here, off + 8 * i, b, p, s.tagSlot, st⟩ : PortStore)
  let ws := wordsOf (nodeBase k + off) bs.length
  let s := s.takeWords ws
  (((s.onCore k fun c => { c with sh := { c.sh with port := c.sh.port ++ new } }).forgetAhead k ws).countDirect
    parts.length).output parts.length

/-- Bytes stored along a path that passed its checks, by an `ST` or another instruction (R175, R186). -/
def State.storeTo (s : State) (st : Bool) (p : Path) (bs : List (BitVec 8)) (q : Bool) : State :=
  match p with
  | .own off => s.storeOf st off bs q
  | .peer k off => s.queueOf st k off bs q
  | .trap _ => s
/-- Bytes stored by another instruction than `ST`. -/
def State.storeAt (s : State) (p : Path) (bs : List (BitVec 8)) (q : Bool) : State := s.storeTo false p bs q

/-- The address check of R174, continued with the path it gives. -/
def State.checked (s : State) (a : BitVec 64) (n : Nat) (f : Path → Res) : Res :=
  match s.path a n with
  | .trap c => .trap c a
  | p => f p

/-- A load of n bytes along a path waits for a burst of an ORDERED transfer, or an atomic, of the core to one of its words (R114). -/
def State.awaits (s : State) (p : Path) (n : Nat) : Bool :=
  match p with
  | .peer k off => shareWord (wordsOf (nodeBase k + off) n) s.core.ordering
  | .own _ | .trap _ => false
/-- As checked, for a load. -/
def State.checkedLoad (s : State) (a : BitVec 64) (n : Nat) (f : Path → Res) : Res :=
  s.checked a n fun p => if s.awaits p n then .hold else f p

/-- As checked, with only the local path accepted (R206, R216, R222). -/
def State.checkedOwn (s : State) (a : BitVec 64) (n : Nat) (f : Nat → Res) : Res :=
  match s.ownPath a n with
  | .trap c => .trap c a
  | .own off => f off
  | .peer _ _ => .trap .bounds a

/-! ## Scalar operands -/

/-- A body's result in a general register with the flags it sets (R66, R164). -/
def State.put (s : State) (d : GR) (v : BitVec 64) (p : Bool) (f : Flags) : Res :=
  .ok ((s.setG d v p).orFlags f)

/-- A two-operand integer result (R164). -/
def State.alu2 (s : State) (d a b : GR) (f : BitVec 64 → BitVec 64 → BitVec 64) : Res :=
  .ok (s.setG d (f (s.gv a) (s.gv b)) (s.gp a || s.gp b))
/-- A one-operand integer result (R164). -/
def State.alu1 (s : State) (d a : GR) (f : BitVec 64 → BitVec 64) : Res :=
  .ok (s.setG d (f (s.gv a)) (s.gp a))

/-- What the instruction captures (R66). -/
def State.fenv (s : State) : FEnv := fpcrEnv s.fpcr
/-- A scalar float operand (R179). -/
def State.fv (s : State) (t : FTy) (r : GR) : FVal := t.fmt.unpack s.fenv.daz (s.gv r).toNat

/-! ## Lanes and masks (R33, R182, R183) -/

/-- Lanes of w bits of a body, lane 0 first. -/
def lanes (w : Nat) (b : BitVec 512) : List Nat :=
  (List.range (512 / w)).map fun i => b.toNat / 2 ^ (w * i) % 2 ^ w
/-- A body from lanes of w bits, lane 0 first. -/
def ofLanes (w : Nat) (l : List Nat) : BitVec 512 := BitVec.ofNat 512 (packNat w l)
/-- A lane of a list of lanes. -/
def lane (l : List Nat) (i : Nat) : Nat := l[i]?.getD 0

/-- Lane i is active (R183). -/
def State.active (s : State) (m : Option MR) (i : Nat) : Bool :=
  match m with
  | none => true
  | some k => (s.mr k).getLsbD i

/-- Flags of a list of lane results. -/
def allFlags : List FRes → Flags
  | [] => 0
  | r :: t => r.2 ||| allFlags t

/-- Lane results written under a mask: inactive lanes merge, the side becomes 0, the poison takes in
the old destination where it merges or is read (R183, R184). -/
def State.vlanes (s : State) (d : VR) (m : Option MR) (w : Nat) (p reads : Bool) (f : Nat → FRes) : Res :=
  let old := lanes w (s.vr d).body
  let r := old.mapIdx fun i z => if s.active m i then f i else (z, 0)
  let q := p || ((m.isSome || reads) && (s.vr d).p)
  .ok ((s.setV d ⟨ofLanes w (r.map (·.1)), 0, q⟩).orFlags (allFlags r))

/-- Bytes of a body, lowest first. -/
def bodyBytes (b : BitVec 512) : List (BitVec 8) := (List.range 64).map fun i => b.extractLsb' (8 * i) 8

end Sys2Proof.Machine
end

