-- ==== Sys2Proof/Machine/Block.lean ====
section
/-! DEFINITION. Block arithmetic: formats (R58-R61), conversion (R67, R68), sums of products (R69-R72),
accumulator rows (R70, R214, R217) and block addition (R73). Exact numbers are m × 2^e. -/

namespace Sys2Proof.Machine

/-- A block: 32 mantissas and a scale word (R58). -/
structure Blk where
  m     : List Int
  scale : Nat
  deriving DecidableEq, Repr

/-- Block exponent E (R58). -/
def Blk.e (b : Blk) : Nat := b.scale / 2 ^ 24 % 256
/-- Micro-exponent of element i (R58). -/
def Blk.mu (b : Blk) (i : Nat) : Nat := b.scale / 2 ^ (8 + i / 2) % 2
/-- Mantissa of element i. -/
def Blk.el (b : Blk) (i : Nat) : Int := b.m[i]?.getD 0
/-- The element NaR code of n bits (R59). -/
def narCode (n : Nat) : Int := -((2 ^ (n - 1) : Nat) : Int)
/-- The zero block (R58). -/
def zeroBlk : Blk := ⟨List.replicate 32 0, 0⟩
/-- The NaR block of n bits (R58). -/
def narBlk (n : Nat) : Blk := ⟨List.replicate 32 (narCode n), 255 * 2 ^ 24⟩

/-- An exact number, or none for NaR. -/
abbrev Exact := Option (Int × Int)

/-- `BlockValue` (R59). -/
def Blk.value (b : Blk) (n i : Nat) : Exact :=
  if b.e = 0 then some (0, 0)
  else if b.e = 255 then none
  else if b.el i = narCode n then none
  else some (b.el i, (b.e : Int) - 127 - b.mu i - ((n : Int) - 1))

/-- Two exact numbers are equal. -/
def exactEq (a ea b eb : Int) : Bool := (dyadicAdd a ea (-b) eb).1 == 0

/-- An element of a conversion: NaN or infinity is not finite. -/
def FVal.exact : FVal → Exact
  | .nan _ | .inf _ => none
  | .fin n m e => some (sgn n m, e)

/-- `q` of `ConvertToBlock` (R67). -/
def quantum (n : Nat) (rm : Rm) (sr : Bool) (v : Int × Int) (e : Nat) : Int :=
  let k := v.2 - ((e : Int) - 127 - ((n : Int) - 1))
  if sr then roundAway v.1 k else (roundDyadic rm v.1 k).1

/-- The finite values of a list all fit n-bit mantissas at exponent e (R67). -/
def fitsAt (n : Nat) (rm : Rm) (sr : Bool) (x : List Exact) (e : Nat) : Bool :=
  x.all fun
    | some v => decide ((quantum n rm sr v e).natAbs ≤ 2 ^ (n - 1) - 1)
    | none => true

/-- The smallest of the numbers lo to hi that satisfies p (R67, R70). -/
def smallest (lo hi : Nat) (p : Nat → Bool) : Option Nat := (List.range' lo (hi + 1 - lo)).find? p

/-- One element of `ConvertToBlock` at exponent E less its micro-exponent, with its flags (R67). -/
def convertOne (n : Nat) (rm : Rm) (sr : Bool) (draw : BitVec 16) (v : Exact) (e : Nat) : Int × Flags :=
  match v with
  | none => (narCode n, flagNV)
  | some v =>
    let lim : Int := ((2 ^ (n - 1) - 1 : Nat) : Int)
    let s : Int := (e : Int) - 127 - ((n : Int) - 1)
    let r := if sr then roundSr v.1 (v.2 - s) draw else (roundDyadic rm v.1 (v.2 - s)).1
    let m := if lim < r then lim else if r < -lim then -lim else r
    (m, flagIf (m != r) flagSAT ||| flagIf (!(exactEq m s v.1 v.2)) flagNX
      ||| flagIf (v.1 != 0 && m == 0) flagUF)

/-- `ConvertToBlock` of 32 values; under stochastic rounding draws holds one draw per element (R67). -/
def convertToBlock (x : List Exact) (n : Nat) (rm : Rm) (sr : Bool) (draws : List (BitVec 16))
    (efloor : Nat) : Blk × Flags :=
  let zero (v : Exact) : Bool := match v with
    | some (m, _) => m == 0
    | none => false
  if x.all zero ∧ efloor = 1 then (zeroBlk, 0)
  else
    let e := (smallest (max 1 efloor) 254 (fitsAt n rm sr x)).getD 254
    let pair (j : Nat) : List Exact := (x.drop (2 * j)).take 2
    let mu (j : Nat) : Nat := if fitsAt n rm sr (pair j) (e - 1) then 1 else 0
    let r := x.mapIdx fun i v => convertOne n rm sr (draws[i]?.getD 0) v (e - mu (i / 2))
    let mus := (List.range 16).foldl (fun s j => s + mu j * 2 ^ j) 0
    (⟨r.map (·.1), e * 2 ^ 24 + mus * 2 ^ 8⟩, r.foldl (fun f q => f ||| q.2) 0)

/-- An exact number rounded to a format; NaR gives the default NaN (R68). -/
def Fmt.ofExact (f : Fmt) (v : FEnv) : Exact → FRes
  | none => (f.nan, 0)
  | some (m, e) => f.roundInt v false m e

/-! ## Blocks in bytes (R60) -/

/-- Mantissas of n bits of a block whose plane, or body part, is the number w. -/
def mantissas (n : Nat) (w : Nat) : List Int := (List.range 32).map fun i => signExtend n (w / 2 ^ (n * i))
/-- The plane of 32 mantissas of n bits. -/
def planeNat (n : Nat) (m : List Int) : Nat := packNat n (m.map (wrap n))

/-! ## Sums of products (R69-R72) -/

/-- The running sum of R69: T × 2^F, F none before the first block; NaR, and flags. -/
structure Sum where
  t   : Int
  f   : Option Int
  nar : Bool
  fl  : Flags
  deriving DecidableEq, Repr

/-- The empty sum. -/
def Sum.zero : Sum := ⟨0, none, false, 0⟩

/-- RoundRNE with NX when it discards anything. -/
def rneFlag (m e : Int) : Int × Flags := let r := roundDyadic .rne m e; (r.1, flagIf r.2 flagNX)

/-- Step 2 of R69: a block's sum S × 2^P joins the 40-bit running sum. -/
def Sum.join (a : Sum) (s p : Int) : Sum :=
  match a.f with
  | none => { a with t := s, f := some p }
  | some f =>
    let fn := max f p
    let x := rneFlag a.t (f - fn)
    let y := rneFlag s (p - fn)
    let t := x.1 + y.1
    if t < -549755813888 ∨ 549755813887 < t then
      let z := rneFlag t (-1)
      { a with t := z.1, f := some (fn + 1), fl := a.fl ||| x.2 ||| y.2 ||| z.2 }
    else { a with t := t, f := some fn, fl := a.fl ||| x.2 ||| y.2 }

/-- A NaR contribution. -/
def Sum.markNar (a : Sum) (f : Flags) : Sum := { a with nar := true, fl := a.fl ||| f }

/-- Sum over i of 0 to 31. -/
def sum32 (f : Nat → Int) : Int := (List.range 32).foldl (fun t i => t + f i) 0

/-- Steps 1 and 2 for one K-block (R69). -/
def mmaStep (n : Nat) (acc : Sum) (a b : Blk) : Sum :=
  if a.e = 255 ∨ b.e = 255 then acc.markNar 0
  else if a.e = 0 ∨ b.e = 0 then acc
  else if a.m.contains (narCode n) ∨ b.m.contains (narCode n) then acc.markNar 0
  else
    let s := sum32 fun i => a.el i * b.el i * (2 ^ ((1 - a.mu i) + (1 - b.mu i)) : Nat)
    acc.join s (((a.e : Int) - 127) + ((b.e : Int) - 127) - 2 - 2 * ((n : Int) - 1))

/-- `MmaElement` (R69). -/
def mmaElement (n : Nat) (a b : List Blk) : Sum :=
  (a.zip b).foldl (fun acc p => mmaStep n acc p.1 p.2) Sum.zero

/-- Steps 1 and 2 for one K-block of BF16 values after DAZ (R71). -/
def bf16Step (acc : Sum) (a b : List FVal) : Sum :=
  let p := (a.zip b).map fun q =>
    match q.1.exact, q.2.exact with
    | some x, some y => some (x.1 * y.1, x.2 + y.2)
    | _, _ => none
  if p.contains none then acc.markNar flagNV
  else
    let p := p.filterMap id
    let nz := p.filter fun v => v.1 != 0
    let log (v : Int × Int) : Int := v.2 + Nat.log2 v.1.natAbs
    match nz with
    | [] => acc
    | v :: r =>
      let q := r.foldl (fun m w => max m (log w)) (log v)
      let t := p.map fun v => rneFlag v.1 (v.2 - (q - 30))
      let s := t.foldl (fun x y => x + y.1) 0
      let f := t.foldl (fun x y => x ||| y.2) 0
      Sum.join { acc with fl := acc.fl ||| f } s (q - 30)

/-- `MmaElement` with the Step 1 of R71. -/
def bf16Element (a b : List (List FVal)) : Sum :=
  (a.zip b).foldl (fun acc p => bf16Step acc p.1 p.2) Sum.zero

/-- Element of a group of a BS8 K-step at position p of the group: none when the group is invalid
(R61). -/
def groupValue (vals : List Int) (poss : List Nat) (p : Nat) : Int :=
  let ok := poss.all (· < 24) && (poss.zip (poss.drop 1)).all fun q => decide (q.1 < q.2)
  if !ok then narCode 8
  else ((poss.zip vals).find? (·.1 == p)).elim 0 (·.2)

/-- The K-blocks of a BS8 record with kp values kept of each group of 24 (R61, R72, R212). -/
def densify (kp : Nat) (record : Nat) : List Blk :=
  let vals := (List.range 128).map fun i => signExtend 8 (record / 2 ^ (8 * i))
  let poss := (List.range 128).map fun i => record / 2 ^ (1024 + 5 * i) % 32
  let scale (s : Nat) : Nat := record / 2 ^ (1664 + 32 * s) % 2 ^ 32 / 2 ^ 24 * 2 ^ 24
  (List.range (96 / kp)).map fun j =>
    ⟨(List.range 32).map fun i =>
        let p := 32 * j + i
        let g := p / 24
        groupValue ((vals.drop (kp * g)).take kp) ((poss.drop (kp * g)).take kp) (p % 24),
      scale (j / 3)⟩

/-! ## Accumulator rows (R70, R204, R214, R217) -/

/-- Mantissas of a row as signed numbers. -/
def AccRow.ms (r : AccRow) : List Int := r.m.toList.map (·.toInt)
/-- A row from 16 signed mantissas. -/
def AccRow.ofMs (m : List Int) (x : BitVec 8) (p : Bool) : AccRow :=
  ⟨Vector.ofFn fun i : Fin 16 => BitVec.ofInt 32 (m[i.val]?.getD 0), x, p⟩
/-- The element NaR code of an accumulator (R70). -/
def accNar : Int := -2147483648
/-- Exact numbers of a list fit 32 bits at row exponent x under RNE (R70). -/
def accFits (v : List Exact) (x : Nat) : Bool :=
  v.all fun
    | some (m, e) => decide ((roundRne m (e - ((x : Int) - 157))).natAbs ≤ 2147483647)
    | none => true
/-- Exact numbers rounded to mantissas at row exponent x; NaR gives its code. -/
def accRound (v : List Exact) (x : Nat) : List Int × Flags :=
  let r := v.map fun
    | some (m, e) => rneFlag m (e - ((x : Int) - 157))
    | none => (accNar, 0)
  (r.map (·.1), r.foldl (fun f q => f ||| q.2) 0)

/-- `AccumulateRow` (R70). -/
def accumulateRow (row : AccRow) (res : List Sum) : AccRow × Flags :=
  let fl := res.foldl (fun f r => f ||| r.fl) 0
  if row.x = 0xFF then (row, fl)
  else
    let v : List Exact := (row.ms.zip res).map fun q =>
      if q.1 = accNar ∨ q.2.nar then none
      else
        let base : Int := (row.x.toNat : Int) - 157
        match q.2.f with
        | none => some (q.1, base)
        | some f => some (dyadicAdd q.1 base q.2.t f)
    match smallest row.x.toNat 254 (accFits v) with
    | none => ({ row with x := 0xFF }, fl ||| flagOF)
    | some x =>
      let r := accRound v x
      (AccRow.ofMs r.1 (BitVec.ofNat 8 x) row.p, fl ||| r.2)

/-- `AccRn` of one row toward exponent t (R214). -/
def renormRow (row : AccRow) (t : Nat) : AccRow × Flags :=
  if row.x = 0xFF then (row, 0)
  else
    let x := row.x.toNat
    let v : List Exact := row.ms.map fun m => if m = accNar then none else some (m, (x : Int) - 157)
    let y := if x ≤ t then t else (smallest t x (accFits v)).getD x
    let r := accRound v y
    (AccRow.ofMs r.1 (BitVec.ofNat 8 y) row.p, r.2)

/-- v(r, c) of a row (R70, R217). -/
def AccRow.values (row : AccRow) : List Exact :=
  row.ms.map fun m => if row.x = 0xFF ∨ m = accNar then none else some (m, (row.x.toNat : Int) - 157)

/-- A row loaded from exact values at the smallest exponent that holds them (R217). -/
def AccRow.load (v : List Exact) (p : Bool) : AccRow × Flags :=
  let x := (smallest 0 254 (accFits v)).getD 254
  let r := accRound v x
  (AccRow.ofMs r.1 (BitVec.ofNat 8 x) p, r.2)

/-! ## Block addition (R73) -/

/-- `Resolve` (R73). -/
def resolveEl (b : Blk) (i : Nat) : Int := b.el i * (2 ^ (1 - b.mu i) : Nat)

/-- `AddBlock` of two BK16 blocks (R73). -/
def addBlock (a b : Blk) : Blk :=
  if a.e = 255 ∨ b.e = 255 then narBlk 16
  else if a.e = 0 then b
  else if b.e = 0 then a
  else
    let et := max a.e b.e
    let align (c : Blk) (i : Nat) : Int := (roundShift .rne (resolveEl c i) (et - c.e)).1
    let half (z : Int) : Int := (roundShift .rne z 1).1
    let u : List (Option Int) := (List.range 32).map fun i =>
      if a.el i = narCode 16 ∨ b.el i = narCode 16 then none else some (align a i + align b i)
    let above := u.any fun
      | some z => decide (32767 < (half z).natAbs)
      | none => false
    let u := if above then u.map fun z => z.map half else u
    let et := if above then et + 1 else et
    if et = 255 then narBlk 16
    else
      let ok (z : Option Int) : Bool := match z with
        | some z => decide (z.natAbs ≤ 32767)
        | none => true
      let mu (j : Nat) : Bool := ((u.drop (2 * j)).take 2).all ok
      let m := u.mapIdx fun i z =>
        match z with
        | none => (-32768 : Int)
        | some z => if mu (i / 2) then z else half z
      ⟨m, et * 2 ^ 24 + (List.range 16).foldl (fun s j => s + (if mu j then 2 ^ (8 + j) else 0)) 0⟩

/-- Exponent growth of an addition (R73). -/
def growth (a b r : Blk) : Bool := decide (max a.e b.e < r.e) && !(a.e == 255 || b.e == 255)

end Sys2Proof.Machine
end

