-- ==== Sys2Proof/Machine/Panel.lean ====
section
/-! DEFINITION. What the panel publishes of its shape: seam table (R24-R26), region offsets (R28) and
draw map (R22, R23). Each is a view over sites, skip columns, routers and ports. -/

namespace Sys2Proof.Machine

/-- Kind of the crossing of a boundary: 0 none, 1 quad, 2 stitch, 3 tile (R25). -/
def State.crossKind (s : State) (vertical : Bool) (a b : Nat) : Nat :=
  let i := if vertical then keyX a % 64 else 2 * (keyY a % 32)
  if i = 63 ∨ (!vertical ∧ i = 62) then 3
  else if i = 31 ∨ (!vertical ∧ i = 30) then 2
  else if isCore a ∧ s.quadOf a ≠ s.quadOf b then 1
  else 0

/-- Nominal delay of a kind (R24). -/
def kindDelay : Nat → Nat
  | 0 => 0 | 1 => 2 | 2 => 5 | _ => 14

/-- Cycles of the step of a column crossing from one row to the next, by the kind of the boundary there: two rows of one quad, of two quads,
of two regions or of two tiles (R24). -/
def rowStep (a : Nat) : Nat :=
  let y := keyY a % 32
  kindDelay (if y = 31 then 3 else if y = 15 then 2 else if isCore a ∧ y % 2 = 1 then 1 else 0)
/-- Cycles of a step along a row of a node from one physical column to another: those of a quad crossing, where the two stand in different
quads (R14, R24). -/
def sideStep (k p q : Nat) : Nat := if isCore k ∧ min p 32 / 2 ≠ min q 32 / 2 then kindDelay 1 else 0
/-- The paths of a crossing: the cycles of its clock crossings, and the physical places it passes with its ends, as site, region row
and physical column. A row crossing passes the places between the two. A column crossing has one path in each direction: it enters the
neighbour's row at the column it comes from, and goes on there to the column of its end, by a step of its own where the two rows skip
different columns. The spec gives no path between such rows (R18, R19; DESIGN CHOICE, log entry 67). -/
def State.crossed (s : State) (vertical : Bool) (a b : Nat) : List (Nat × List (Nat × Nat × Nat)) :=
  let p := s.physCol a
  let q := s.physCol b
  let place (k p : Nat) : Nat × Nat × Nat := (siteOf k, regionRow k, p)
  if vertical then
    [(kindDelay (s.crossKind true a b),
      if keyX a % 32 = 31 then ((List.range (33 - p)).map fun i => place a (p + i)) ++ (List.range (q + 1)).map (place b)
      else (List.range (q + 1 - p)).map fun i => place a (p + i))]
  else
    [(rowStep a + sideStep b p q, [place a p, place b p, place b q].eraseDups),
     (rowStep a + sideStep a p q, [place b q, place a q, place a p].eraseDups)]
/-- Pass-through hops of a path: places on it that are retired and whose router still works (R18, R19); those of a failed router are no
hops, DELAY states the nominal value (R25). A path includes its ends, so that the place of a dead coordinate counts on both boundaries
beside it, which the spec leaves open (DESIGN CHOICE, log entry 67). -/
def State.passHops (s : State) (l : List (Nat × Nat × Nat)) : Nat :=
  l.countP fun (n, row, p) => (s.site n).retired.contains (row, p) && !(s.partAt n row p).failed

/-- The pairs of nodes on the two sides of a boundary (R24). -/
def boundaryPairs (vertical : Bool) (n : Nat) : List (Nat × Nat) :=
  if vertical then (List.range 160).map fun y => (keyOf n y, keyOf (n + 1) y)
  else (List.range 320).map fun x => (keyOf x n, keyOf x (n + 1))

/-- A largest value over a list. -/
def maxOver {α : Type} (f : α → Nat) (l : List α) : Nat := l.foldl (fun m x => max m (f x)) 0

/-- A substrate link, or from 1920 on the panel link of bank tile number - 1920 (R315, R326). -/
def State.link (s : State) (i : Nat) : Link :=
  if i < 1920 then tget Link.reset s.links.links i else tget Link.reset s.links.plinks (i - 1920)
/-- Change a link. -/
def State.onLink (s : State) (i : Nat) (f : Link → Link) : State :=
  if i < 1920 then { s with links := { s.links with links := tset Link.reset s.links.links i (f (s.link i)) } }
  else { s with links := { s.links with plinks := tset Link.reset s.links.plinks (i - 1920) (f (s.link i)) } }
/-- The two nodes a substrate link joins (R315). -/
def linkEnds (i : Nat) : Nat × Nat :=
  if i < 640 then (keyOf (64 * (i / 160) + 63) (i % 160), keyOf (64 * (i / 160) + 64) (i % 160))
  else
    let h := i - 640
    (keyOf (h % 320) (32 * (h / 320) + 31), keyOf (h % 320) (32 * (h / 320) + 32))
/-- Links of a boundary: those of a tile boundary (R315). -/
def boundaryLinks (vertical : Bool) (n : Nat) : List Nat :=
  if vertical then (if n % 64 = 63 then (List.range 160).map (160 * (n / 64) + ·) else [])
  else if n % 32 = 31 then (List.range 320).map (640 + 320 * (n / 32) + ·) else []
/-- Number of bits set. -/
def onesCount {n : Nat} (b : BitVec n) : Nat := (List.range n).countP b.getLsbD
/-- Cycles by which a link on c working slices of 4, or lanes of 8, is slower than nominal: total / k - 1, k
the largest power of two not above c (R313). -/
def slowCycles (total c : Nat) : Nat := if c = 0 then 0 else total / 2 ^ c.log2 - 1
/-- Cycles a DEGRADED substrate link adds (R313). -/
def Link.slow (l : Link) : Nat := if l.st = .degraded then slowCycles 4 (onesCount l.slices) else 0

/-- Entry of the seam table (R25). DETOUR's Reset column says 0, and its Effect 1 beside a site that is not LIVE: at
reset, with every site EMPTY, a tile boundary reads 1 here (DESIGN CHOICE, log entry 54). -/
def State.seamEntry (s : State) (vertical : Bool) (n : Nat) : BitVec 64 :=
  let l := boundaryPairs vertical n
  let kind := maxOver (fun p => s.crossKind vertical p.1 p.2) l
  let delay := maxOver (fun p => maxOver (fun e => e.1 + s.passHops e.2) (s.crossed vertical p.1 p.2)) l
    + maxOver (fun i => (s.link i).slow) (boundaryLinks vertical n)
  let away (k : Nat) : Bool := decide ((s.site (siteOf k)).st ≠ .live)
  let detour := l.any fun p =>
    (kind == 3 && (away p.1 || away p.2)) || (s.crossed vertical p.1 p.2).any fun e =>
      e.2.any fun (n, row, c) => (s.partAt n row c).failed
  BitVec.ofNat 64 ((if detour then 2048 else 0) + (if 2 ≤ kind then 1024 else 0) + 256 * kind + delay % 256)

/-- A region offset entry: VALID reads 1 only while the site is FENCED or LIVE (R28). -/
def State.offsetEntry (s : State) (r : Nat) : BitVec 64 :=
  let g := tget Region.reset s.clock.regions r
  let up := match (s.site (r / 4)).st with
    | .fenced | .live => true
    | .empty | .seated | .training | .draining | .safe | .lost => false
  BitVec.ofNat 64 ((if g.valid && up then 65536 else 0) + g.offset.toNat)

/-- `CRRD SEAMT` with a selector (R26); none is BOUNDS. -/
def State.seamRead (s : State) (v : BitVec 64) : Option (BitVec 64) :=
  let n := v.toNat
  let i := n % 512
  if 2048 ≤ n then none
  else
    match n / 512 with
    | 0 => if 318 < i then none else some (s.seamEntry true i)
    | 1 => if 158 < i then none else some (s.seamEntry false i)
    | 2 => if 99 < i then none else some (s.offsetEntry i)
    | _ => none

/-- Nodes of a draw region (R22). -/
def drawKeys (d : Nat) : List Nat := rectKeys (8 * (d % 40)) (4 * (d / 40)) 8 4

/-- CXL port of a draw region: ports 2b and 2b + 1 stand at site 2b + 1 (R17, R327). -/
def drawPort (d : Nat) : Option Nat :=
  let site := siteOf (keyOf (8 * (d % 40)) (4 * (d / 40)))
  if computeSite site then none
  else if d % 40 % 8 = 2 ∧ d / 40 % 8 = 3 then some (site - 1)
  else if d % 40 % 8 = 5 ∧ d / 40 % 8 = 3 then some site
  else none

/-- Bank site of a CXL port (R327). -/
def portSite (p : Nat) : Nat := 2 * (p / 2) + 1
/-- A CXL port. -/
def State.cxl (s : State) (p : Nat) : CxlPort := tget CxlPort.reset s.links.cxl p
/-- A CXL port with the MEMORY role and a trained link whose site is LIVE (R17, R329). -/
def State.memoryPort (s : State) (p : Nat) : Bool :=
  !(s.cxl p).host && (s.cxl p).trained && decide ((s.site (portSite p)).st = .live)

/-- A draw map entry (R22). SUSP is a view of the parts' marks: that of an EMPTY site's region stays that of the tile that
has left until another tile makes contact; the spec is silent (DESIGN CHOICE, log entry 66). -/
def State.drawEntry (s : State) (d : Nat) : BitVec 16 :=
  let ks := drawKeys d
  let site := siteOf (keyOf (8 * (d % 40)) (4 * (d / 40)))
  let susp := if ks.any fun k => s.bound k && (s.part k).suspect then 16384 else 0
  if (s.site site).st ≠ .live then BitVec.ofNat 16 (32768 + susp)
  else
    let n := ks.countP fun k => s.bound k
    let ports := match drawPort d with
      | some p => if s.memoryPort p then 4096 else 0
      | none => 0
    BitVec.ofNat 16 (susp + ports + (if computeSite site then n else 64 * n))

/-- The generation word passes from even through odd to the next even value when an entry has
changed (R23); an admission pass is due (R290). -/
def State.redraw (s : State) : State := { s with lead := { s.lead with drawGen := s.lead.drawGen + 2, passDue := true } }

/-- Draw regions of a site (R22). -/
def siteRegions (n : Nat) : List Nat := (rectKeys (8 * (n % 5)) (8 * (n / 5)) 8 8).map fun c => 40 * keyY c + keyX c
/-- The draw map after a change of its parts or maps: it is written anew when an entry of the given draw regions differs from
that of the earlier state (R23). -/
def State.redrawn (s old : State) (ds : List Nat) : State :=
  if ds.any fun d => s.drawEntry d != old.drawEntry d then s.redraw else s

end Sys2Proof.Machine
end

