-- ==== Sys2Proof/Machine/Control.lean ====
section
/-! DEFINITION. Control registers (R45-R53, R177): the views, `CRRD` and `CRWR`. -/

namespace Sys2Proof.Machine

/-- The U view of a register is "—" (R46). -/
def crClosed : Cr → Bool
  | .tcause | .tpc | .tval | .tstat | .kvec | .rampf | .sscr => true
  | .fpcr | .tid | .shard | .grp | .domid | .rclk | .tcmp | .prio | .rigs | .seatb | .seamt | .pmc _ => false

/-- Check 2 of R177: PRIV at U for a register without a U view. -/
def State.crOpen (s : State) (n : Cr) (r : Res) : Res :=
  if s.core.ctl.priv = .u ∧ crClosed n then .trap .priv s.parcel else r

/-- A field at a bit position. -/
def fieldAt {n : Nat} (x : BitVec n) (i : Nat) : BitVec 64 := x.setWidth 64 <<< i

/-- `RIGS` as a dword (R51). -/
def Rigs.word (r : Rigs) : BitVec 64 :=
  fieldAt r.iter 32 ||| fieldAt r.sv 16 ||| fieldAt (BitVec.ofBool r.fault) 11
    ||| fieldAt (BitVec.ofBool r.active) 10 ||| fieldAt r.last 5 ||| fieldAt r.slot 0
/-- `RIGS` from a dword; reserved bits are dropped (R51, R222). -/
def Rigs.ofWord (v : BitVec 64) : Rigs :=
  { iter := v.extractLsb' 32 32, sv := v.extractLsb' 16 8, fault := v.getLsbD 11, active := v.getLsbD 10,
    last := v.extractLsb' 5 5, slot := v.extractLsb' 0 5 }

/-- `SEATB`: the seats with COUNT > 0 (R46). -/
def Core.seatBits (c : Core) : BitVec 64 :=
  BitVec.ofNat 64 ((List.range 64).foldl (fun v i =>
    v + (if (c.sh.seat[i]?.getD Seat.zero).count ≠ 0 then 2 ^ i else 0)) 0)

/-- The view of a register at the current privilege (R46-R53). -/
def State.crView (s : State) (n : Cr) : BitVec 64 :=
  let k := s.core.ctl
  match n with
  | .fpcr => fieldAt (s.fpcr &&& 0x3F1F) 0
  | .tid => fieldAt k.tidY 32 ||| fieldAt k.tidX 16 ||| fieldAt k.slot 0
  | .shard => fieldAt k.gy 16 ||| fieldAt k.gx 0
  | .grp => fieldAt k.hm1 56 ||| fieldAt k.wm1 40 ||| fieldAt k.row0 32 ||| fieldAt k.col0 16 ||| fieldAt k.gid 0
  | .domid => (if k.priv = .u then 0 else fieldAt k.key 16) ||| fieldAt k.dom 0
  | .rclk => s.rclk
  | .tcmp => s.slot.tcmp
  | .prio => fieldAt (BitVec.ofBool s.slot.paddle) 8 ||| fieldAt s.slot.level 0
  | .tcause => fieldAt (BitVec.ofBool k.async) 8 ||| fieldAt k.cause 0
  | .tpc => fieldAt (k.tpc &&& 0xFFFC) 0
  | .tval => k.tval
  | .tstat => fieldAt (BitVec.ofBool k.riga) 14 ||| fieldAt s.slot.pend 8
  | .rigs => s.core.regs.rigs.word
  | .seatb => s.core.seatBits
  | .kvec => fieldAt k.kvec 12
  | .rampf => fieldAt (BitVec.ofBool k.paddle) 16 ||| fieldAt (tget 0 s.power.floors (siteOf s.here)) 0
  | .seamt => 0
  | .sscr => k.sscr.v
  | .pmc i => bget k.pmc i

/-- The poison a read of a register carries: that of `SSCR` alone (R177). -/
def State.crPoison (s : State) : Cr → Bool
  | .sscr => s.core.ctl.sscr.p
  | .fpcr | .tid | .shard | .grp | .domid | .rclk | .tcmp | .prio | .tcause | .tpc | .tval | .tstat
  | .rigs | .seatb | .kvec | .rampf | .seamt | .pmc _ => false

/-- `CRRD gd, NAME` (R177). -/
def crrdBody (d : GR) (n : Cr) (s : State) : Res :=
  s.legal (.crrd d n) (s.crOpen n (.ok (s.setG d (s.crView n) (s.crPoison n))))
/-- `CRRD gd, NAME` (R177). -/
def execCrrd (d : GR) (n : Cr) (s : State) : Host.Outcome State Fault Refusal := s.finish 4 (crrdBody d n s)

/-- `CRRD gd, SEAMT, ga` (R26, R177). -/
def crrdSeamtBody (d a : GR) (s : State) : Res :=
  s.consume a (match s.seamRead (s.gv a) with
    | some v => .ok (s.setG d v false)
    | none => .trap .bounds (s.gv a))
/-- `CRRD gd, SEAMT, ga` (R26, R177). -/
def execCrrdSeamt (d a : GR) (s : State) : Host.Outcome State Fault Refusal :=
  s.finish 4 (crrdSeamtBody d a s)

/-- A write that only S performs; at U the register is RO and nothing changes (R6, R177). -/
def State.atS (s : State) (t : State) : Res := .ok (if s.core.ctl.priv = .s then t else s)

/-- `CRWR` to the registers without a row of their own: the trap registers, `KVEC` and the counters
at S; every other one is RO (R46). -/
def State.crWrite (s : State) (n : Cr) (v : BitVec 64) : State :=
  match n with
  | .tcause => s.onCtl fun k => { k with async := v.getLsbD 8, cause := v.extractLsb' 0 5 }
  | .tpc => s.onCtl fun k => { k with tpc := v.setWidth 16 &&& 0xFFFC }
  | .tval => s.onCtl fun k => { k with tval := v }
  | .kvec => s.onCtl fun k => { k with kvec := v.extractLsb' 12 4 }
  | .pmc i => s.onCtl fun k => { k with pmc := bset k.pmc i v }
  | .fpcr | .tid | .shard | .grp | .domid | .rclk | .tcmp | .prio | .tstat | .rigs | .seatb | .rampf
  | .seamt | .sscr => s

/-- `CRWR NAME, ga` (R177). -/
def execCrwr (a : GR) (n : Cr) (s : State) : Host.Outcome State Fault Refusal :=
  s.finish 4 (s.legal (.crwr a n) (s.crOpen n (s.consume a (s.atS (s.crWrite n (s.gv a))))))

/-- `FPCR` after a write of v: at U a flag written as 1 clears, at S flags are written as given (R47). -/
def fpcrWrite (p : Priv) (old : BitVec 14) (v : BitVec 64) : BitVec 14 :=
  let w := v.setWidth 14 &&& 0x3F1F
  match p with
  | .s => w
  | .u => (w &&& 0x1F) ||| (old &&& ~~~w &&& 0x3F00)

/-- `CRWR FPCR` (R47). -/
def execCrwrFpcr (a : GR) (s : State) : Host.Outcome State Fault Refusal :=
  s.finish 4 (s.consume a (.ok (s.onRegs fun q => { q with fpcr := fpcrWrite s.core.ctl.priv q.fpcr (s.gv a) })))

/-- `CRWR TID`: at S it selects the slot whose banked state is named (R48). -/
def execCrwrTid (a : GR) (s : State) : Host.Outcome State Fault Refusal :=
  s.finish 4 (s.consume a (s.atS (s.onCtl fun k => { k with slot := (s.gv a).setWidth 4 })))

/-- Change the slot that `TID.SLOT` names. -/
def State.onSlot (s : State) (f : Slot → Slot) : State :=
  { s with core := s.core.onSlot s.core.ctl.slot f }

/-- `CRWR TCMP` (R49). -/
def execCrwrTcmp (a : GR) (s : State) : Host.Outcome State Fault Refusal :=
  s.finish 4 (s.consume a (s.atS (s.onSlot fun t => { t with tcmp := s.gv a })))

/-- LEVEL as a slot takes it: 3 only for a paddle context, else 2 (R49). -/
def levelFor (paddle : Bool) (v : BitVec 2) : BitVec 2 := if v = 3 ∧ !paddle then 2 else v

/-- A write of LEVEL to a slot: one that stands in a FIFO moves to the tail of the FIFO of its new
LEVEL, which counts as entering it for R84 (R49). -/
def Core.setLevel (c : Core) (i : SlotId) (v : BitVec 2) : Core :=
  let lv := levelFor (c.slot i).paddle v
  if (c.slot i).level = lv then c
  else if (c.slot i).qd then
    ((c.unqueue i).onSlot i fun t => { t with level := lv }).enqueue i
  else c.onSlot i fun t => { t with level := lv }

/-- `CRWR PRIO` (R49). -/
def execCrwrPrio (a : GR) (s : State) : Host.Outcome State Fault Refusal :=
  s.finish 4 (s.consume a (s.atS { s with core := s.core.setLevel s.core.ctl.slot ((s.gv a).setWidth 2) }))

/-- `CRWR TSTAT`: PEND bits written as 1 clear (R50). PEND is that of the slot in `TID.SLOT`, which at U is the running one:
R50 says the running slot, and at S no slot need run (DESIGN CHOICE, log entry 70). -/
def execCrwrTstat (a : GR) (s : State) : Host.Outcome State Fault Refusal :=
  s.finish 4 (s.crOpen .tstat (s.consume a (s.atS (s.onSlot fun t =>
    { t with pend := t.pend &&& ~~~((s.gv a).extractLsb' 8 6), cutPend := t.cutPend && !(s.gv a).getLsbD 9 }))))

/-- `CRWR RIGS`: ILLEGAL while a rig is active (R51, R177). -/
def execCrwrRigs (a : GR) (s : State) : Host.Outcome State Fault Refusal :=
  s.finish 4 (s.consume a (if s.core.ctl.riga then .trap .illegal s.parcel
    else s.atS (s.onRegs fun q => { q with rigs := Rigs.ofWord (s.gv a) })))

/-- `CRWR SSCR` copies the poison bit and consumes nothing (R46, R177). -/
def execCrwrSscr (a : GR) (s : State) : Host.Outcome State Fault Refusal :=
  s.finish 4 (s.crOpen .sscr (s.atS (s.onCtl fun k => { k with sscr := ⟨s.gv a, s.gp a⟩ })))

end Sys2Proof.Machine
end

