-- ==== Sys2Proof/Machine/Sched.lean ====
section
/-! DEFINITION. The scheduler's instructions, sleeping and giving up the core (R76-R84, R250-R252),
`TRAP` and `NOP` (R256), fetches that give no instruction (R89, R136), and the core's asynchronous
events (R49, R55, R83). -/

namespace Sys2Proof.Machine

/-- A status as a dword (R225). -/
def statusWord (n : Nat) : BitVec 64 := BitVec.ofNat 64 n
/-- OK (R225). -/
def stOk : BitVec 64 := 0
/-- BUSY (R225). -/
def stBusy : BitVec 64 := 1
/-- NOSEAT (R225). -/
def stNoSeat : BitVec 64 := 2
/-- LATE (R225). -/
def stLate : BitVec 64 := 3
/-- HOLE (R225). -/
def stHole : BitVec 64 := 4
/-- FULL (R225). -/
def stFull : BitVec 64 := 5
/-- DEAD (R225). -/
def stDead : BitVec 64 := 6
/-- CHANGED (R225). -/
def stChanged : BitVec 64 := 7
/-- BOUNDS (R225). -/
def stBounds : BitVec 64 := 8
/-- UNSUP (R225). -/
def stUnsup : BitVec 64 := 9

/-- PRIV at U (R227). -/
def State.onlyS (s : State) (r : Res) : Res := if s.core.ctl.priv = .u then .trap .priv s.parcel else r

/-- A slot operand: POISON, then ILLEGAL outside 0-15 (R77, R252). -/
def State.slotOperand (s : State) (a : GR) (k : SlotId → Res) : Res :=
  s.consume a (if 16 ≤ (s.gv a).toNat then .trap .illegal s.parcel else k ((s.gv a).setWidth 4))

/-- `TQPUSH` on a core: status and the core after it (R77). -/
def Core.push (c : Core) (i : SlotId) (p : BitVec 2) : BitVec 64 × Core :=
  let t := c.slot i
  let lv := levelFor t.paddle p
  match t.st with
  | .free => (stOk, (c.onSlot i fun t => t.leaveFree (levelFor false p) false).enqueue i)
  | .ready => if t.qd then (stBusy, c) else (stOk, (c.onSlot i fun t => { t with level := lv }).enqueue i)
  | .running => (stOk, (c.onSlot i fun t => { t with st := .ready, level := lv }).enqueue i)
  | .sleep => (stBusy, c)
  | .trapped | .retired => (stDead, c)

/-- A paddle slot that becomes READY is FREE, and in no FIFO, where `RAMPF.PADDLE` has fallen or a cut has begun while it ran, or
either stands (R280). -/
def State.settlePaddle (s : State) (i : SlotId) : State :=
  let t := s.core.slot i
  if t.st = .ready ∧ t.paddle ∧ (t.doomed ∨ !s.core.ctl.paddle ∨ s.core.sh.cut) then
    { s with core := (s.core.unqueue i).onSlot i Slot.toFree }.releaseTags s.here i
  else s

/-- `TQPUSH` (R77, R252). On a slot that a wake of the same cycle has queued, as an input says, it returns OK, with the one
FIFO entry that the wake makes (R92); the spec does not say whether p then becomes LEVEL, and the slot keeps the LEVEL it was
queued with (DESIGN CHOICE, log entry 69). -/
def execTqpush (d a : GR) (p : BitVec 2) (s : State) : Host.Outcome State Fault Refusal :=
  s.finish 4 (s.onlyS (s.slotOperand a fun i =>
    let t := s.core.slot i
    if t.st = .ready ∧ t.qd ∧ s.core.sh.woke.contains i ∧ s.met.contains (.together i) then .ok (s.status d stOk)
    else
      let (st, c) := s.core.push i p
      .ok (({ s with core := c }.settlePaddle i).status d st)))

/-- The slot `TQPOP` returns: the head of the non-empty FIFO of lowest LEVEL (R82). -/
def Core.firstReady (c : Core) : Option SlotId := ((c.sh.fifo.toList.flatten).head?)

/-- `TQPOP` (R82, R252). -/
def execTqpop (d : GR) (s : State) : Host.Outcome State Fault Refusal :=
  s.finish 4 (s.onlyS (match s.core.firstReady with
    | some i => .ok ({ s with core := s.core.unqueue i }.status d (i.setWidth 64))
    | none => .ok (s.status d (-1))))

/-- `HALT` at S on a slot: status and the state after it (R77). -/
def State.haltAt (s : State) (i : SlotId) : BitVec 64 × State :=
  match (s.core.slot i).st with
  | .free | .trapped => (stDead, s)
  | .ready => (stOk, { s with core := (s.core.unqueue i).onSlot i fun t => { t with st := .retired } })
  | .running | .sleep => (stOk, { s with core := s.core.onSlot i fun t => { t with st := .retired } })
  | .retired => (stOk, { s with core := s.core.onSlot i Slot.toFree }.releaseTags s.here i)

/-- `HALT`: at U the running context retires; at S it acts on the slot in `TID.SLOT` (R77, R252). -/
def execHalt (s : State) : Host.Outcome State Fault Refusal :=
  match s.core.ctl.priv with
  | .u =>
    .next ((({ s with core := s.core.onSlot s.core.ctl.slot fun t => { t with st := .retired } }).count 2).enterScheduler
      4 (s.pc + 4))
  | .s => .next ((s.haltAt s.core.ctl.slot).2.commit 4)

/-- `HALT ga` (R77, R252). -/
def execHaltSlot (a : GR) (s : State) : Host.Outcome State Fault Refusal :=
  s.finish 4 (s.onlyS (s.slotOperand a fun i =>
    let (st, t) := s.haltAt i
    .ok (t.status a st)))

/-- The comparison window opens at an `SRET` with idle engines after the fill (R360). -/
def State.openWindow (s : State) : State :=
  let u := umpireOf s.here
  let e := s.core.eng
  let idle := e.tq.isEmpty && e.mover.isEmpty && s.core.sh.stream.toList.all fun t => t.st != .active
  if s.shadowed && (s.umpire u).filled && !(s.umpire u).isOpen && idle then
    s.onUmpire u fun w => { w with isOpen := true }
  else s

/-- Another RUNNING slot becomes READY and stands in no FIFO (R57). -/
def State.setAside (s : State) (i : SlotId) : State :=
  match s.core.running with
  | some r =>
    if r = i then s
    else { s with core := s.core.onSlot r fun t => { t with st := .ready, qd := false } }.settlePaddle r
  | none => s

/-- Delivery of WSTAT when a slot becomes RUNNING; a `SLEEP` that returns HIT acquires (R81, R121). -/
def State.deliverWake (s : State) (i : SlotId) : State :=
  let t := s.core.slot i
  if t.wstat = 0 then s
  else
    let s := if t.wstat = 1 then s.fenceAhead else s
    { s with core := s.core.onSlot i fun t => { t with wstat := 0 } }.setG t.wreg (t.wstat.setWidth 64) false

/-- Delivery of FLAGP (R66, R81). -/
def State.deliverFlags (s : State) (i : SlotId) : State :=
  { s with core := s.core.onSlot i fun t => { t with flagp := 0 } }.orFlags (s.core.slot i).flagp

/-- RETURN FROM AN EXCEPTION: `SRET` at S (R57, R81). A cause that is pending is taken before any U instruction, with the
target in `TPC`. -/
def State.sret (s : State) : State :=
  let i := s.core.ctl.slot
  match (s.core.slot i).st with
  | .ready =>
    let s := s.setAside i
    let s := { s with core := (s.core.unqueue i).onSlot i fun t => { t with st := .running, parked := false } }
    ((((s.deliverWake i).deliverFlags i).leaveS.openWindow).count 2).takePending
  | .running =>
    let s := { s with core := s.core.onSlot i fun t => { t with parked := false } }
    (((s.deliverFlags i).leaveS.openWindow).count 2).takePending
  | .free | .sleep | .retired | .trapped => s.takeTrap .illegal s.parcel s.pc

/-- `SRET` (R57). -/
def execSret (s : State) : Host.Outcome State Fault Refusal :=
  match s.core.ctl.priv with
  | .u => .next (s.takeTrap .priv s.parcel s.pc)
  | .s => .next s.sret

/-- `YIELD`: at U the slot is queued again and the core enters the scheduler with code 1; at S nothing
changes (R77, R250). -/
def execYield (s : State) : Host.Outcome State Fault Refusal :=
  match s.core.ctl.priv with
  | .u =>
    let i := s.core.ctl.slot
    let s := { s with core := (s.core.onSlot i fun t => { t with st := .ready }).enqueue i }.settlePaddle i
    .next ((s.count 2).enterScheduler 1 (s.pc + 4))
  | .s => .next (s.commit 4)

/-- The timer of a slot is due (R49). -/
def State.timerDue (s : State) (i : SlotId) : Bool :=
  let t := s.core.slot i
  t.tcmp != 0 && decide (t.tcmp ≤ s.rclk)

/-- The timers of two slots are due and the first one's goes first: the earlier tick, then the lower slot number
(R82). -/
def Core.timerBefore (c : Core) (rclk : BitVec 64) (i j : SlotId) : Bool :=
  let a := (c.slot i).tcmp
  let b := (c.slot j).tcmp
  a != 0 && decide (a ≤ rclk) && (b == 0 || decide (a < b) || (a == b && decide (i ≤ j)))
/-- The slot whose timer expires next, once it is due: `RCLK` ≥ `TCMP` ≠ 0 (R49). -/
def Core.firstTimer (c : Core) (rclk : BitVec 64) : Option SlotId :=
  allSlots.find? fun i => allSlots.all fun j => c.timerBefore rclk i j

/-- The wake status of a `TCMP` expiry (R81). -/
def Slot.expiryStatus (t : Slot) : BitVec 3 := if t.lastFull then 4 else 3

/-- The status a `SLEEP` at U returns at once, when a wake condition is met: WOKEN before TIME and
SPURIOUS (R80, R81). -/
def State.sleepNow (s : State) (i : SlotId) : Option (BitVec 3) :=
  if (s.core.slot i).wl then some 2
  else if s.timerDue i then some (s.core.slot i).expiryStatus
  else none

/-- `SLEEP`: at U under R80 and R81, at S it waits for a queued slot (R83, R250). -/
def execSleep (d : GR) (s : State) : Host.Outcome State Fault Refusal :=
  let i := s.core.ctl.slot
  match s.core.ctl.priv with
  | .u =>
    match s.sleepNow i with
    | some w =>
      let due := s.timerDue i
      let s := { s with core := s.core.onSlot i fun t =>
        { t with wl := false, tcmp := if due then 0 else t.tcmp } }
      .next ((s.status d (w.setWidth 64)).commit 4)
    | none =>
      let s := { s with core := s.core.onSlot i fun t =>
        { t with st := .sleep, why := .sleep, wreg := d, slept := s.clock.ticks } }
      .next ((s.count 2).enterScheduler 3 (s.pc + 4))
  | .s =>
    if s.core.firstReady.isSome then .next ((s.status d 0).commit 4)
    else .next (s.onCtl fun k => { k with issue := .idle d })

/-- IDLE_ISSUE_RESUME: issue resumes when a FIFO is non-empty or the cox signals the core; the `SLEEP`
at S then writes 0 and completes (R83). -/
def execIdleIssueResume (cox : Bool) (s : State) : Host.Outcome State Fault Refusal :=
  match s.core.ctl.issue with
  | .idle d => if cox || s.core.firstReady.isSome then .next ((s.status d 0).commit 4) else .next s
  | .off | .run | .hold | .wait | .stopped | .restored _ => .next s

/-- Expiry of a slot's timer (R49): a `SLEEP` wakes with TIME or SPURIOUS and no TIMER is raised; any
other slot takes TIMER with the expired value (R80, R81). -/
def Core.expire (c : Core) (i : SlotId) : Core :=
  let t := c.slot i
  let c := c.onSlot i fun t => { t with tcmp := 0 }
  match t.st, t.why with
  | .sleep, .sleep => c.wake i t.expiryStatus
  | _, _ => c.raise i 0 t.tcmp

/-- TIMER_EXPIRY (R49). Before the timer is due there is no event; of several due timers the earliest goes first, and
of those due on one tick the one of the lowest slot (R82, R92). -/
def execTimerExpiry (i : SlotId) (s : State) : Host.Outcome State Fault Refusal :=
  .next (if s.core.firstTimer s.rclk = some i then { s with core := s.core.expire i } else s)

/-- ASYNC_TRAP_ENTRY: the highest pending cause of the running slot is taken at the next instruction
(R55). -/
def execAsyncTrapEntry (s : State) : Host.Outcome State Fault Refusal :=
  .next s.takePending

/-- `TRAP`: SWTRAP with the immediate, the next instruction in `TPC` (R256). It does not count as retired on event 2
of R53 (DESIGN CHOICE, log entry 51). -/
def execTrap (i : BitVec 16) (s : State) : Host.Outcome State Fault Refusal :=
  .next (s.takeTrap .swtrap (i.setWidth 64) (s.pc + 4))

/-- `NOP` (R256). -/
def nopBody (s : State) : Res := .ok s
/-- `NOP` (R256). -/
def execNop (s : State) : Host.Outcome State Fault Refusal := s.finish 4 (nopBody s)

/-- ILLEGAL_INSTRUCTION: a parcel that decodes to no instruction (R136). -/
def execIllegalInstruction (p0 : BitVec 32) (s : State) : Host.Outcome State Fault Refusal :=
  .next (s.takeTrap .illegal (p0.setWidth 64) s.pc)

/-- POISONED_FETCH: the address of the line that holds the poisoned word (R89). -/
def execPoisonedFetch (s : State) : Host.Outcome State Fault Refusal :=
  let o := if s.poisoned (nodeBase s.here + s.pc.toNat) then s.pc else s.pc + 4
  .next (s.takeTrap .poison (ownAddr (o.toNat / 64 * 64)) s.pc)

end Sys2Proof.Machine
end

