-- ==== Sys2Proof/Machine/Seat.lean ====
section
/-! DEFINITION. Seats and their rings (R43, R94, R98, R234), replies (R95, R231) and the resolution of
a send's target (R228). -/

namespace Sys2Proof.Machine

/-! ## Seats -/

/-- A seat of a core. -/
def Core.seatAt (c : Core) (i : Nat) : Seat := c.sh.seat[i]?.getD Seat.zero
/-- Change a seat of a core. -/
def Core.onSeat (c : Core) (i : Nat) (f : Seat → Seat) : Core :=
  { c with sh := { c.sh with seat := c.sh.seat.setIfInBounds i (f (c.seatAt i)) } }

/-- Ring capacity in flits (R43). -/
def Seat.cap (t : Seat) : Nat := if t.size = 0 then 256 else t.size.toNat
/-- Ring index n flits on (R235). -/
def Seat.step (t : Seat) (i : BitVec 8) (n : Nat) : BitVec 8 := BitVec.ofNat 8 ((i.toNat + n) % t.cap)
/-- Flits the queued messages occupy. -/
def Seat.used (t : Seat) : Nat :=
  if t.count = 0 then 0
  else
    let d := (t.tail.toNat + t.cap - t.head.toNat) % t.cap
    if d = 0 then t.cap else d
/-- Scratchpad offset of a ring flit. -/
def Seat.flitAt (t : Seat) (i : BitVec 8) : Nat := t.base.toNat + 32 * i.toNat

/-- The valid seat that holds (CHAN, LC) (R43). -/
def Core.seatFor (c : Core) (chan : BitVec 12) (lc : BitVec 2) : Option Nat :=
  (List.range 64).find? fun i => let t := c.seatAt i; t.valid && t.chan == chan && t.lc == lc

/-- Flits of a message written into the ring from TAIL on, wrapping at SIZE (R234); their lines take
the tag of the seat's slot (R39). -/
def State.writeFlits (s : State) (k : Nat) (t : Seat) (i : BitVec 8) : List (List (BitVec 8)) → State
  | [] => s
  | f :: r =>
    let o := t.flitAt i
    ((s.write k o f false).retag (nodeBase k + o) 32 fun _ => t.ctx.setWidth 5).writeFlits k t (t.step i 1) r

/-- The information word of a packet, COUNT 0 (R234). -/
def infoWord (vec pois : Bool) (seq : BitVec 16) (round : BitVec 8) (gy : BitVec 8) (gx : BitVec 9) : BitVec 64 :=
  fieldAt (BitVec.ofBool vec) 49 ||| fieldAt (BitVec.ofBool pois) 48 ||| fieldAt seq 32 ||| fieldAt round 24
    ||| fieldAt gy 16 ||| fieldAt gx 0

/-- The slot that sleeps with WHY 0 on a seat wakes, when it is the seat's CTX (R80). -/
def Core.wakeSeat (c : Core) (i : Nat) : Core :=
  let x := (c.seatAt i).ctx
  match (c.slot x).st, (c.slot x).why with
  | .sleep, .seat j => if j.toNat = i then c.wake x 0 else c
  | _, _ => c

/-- A `JOIN`'s set, as the seats it names. -/
def joinSeats (set : BitVec 64) : List Nat := (List.range 64).filter fun i => set.getLsbD i
/-- Every finish of a `JOIN`'s set is present: its seats are valid with FIN 1 (R80, R99). -/
def Core.joinReady (c : Core) (set : BitVec 64) : Bool :=
  (joinSeats set).all fun i => (c.seatAt i).valid && (c.seatAt i).fin
/-- Slots asleep with WHY 1 whose set is complete wake (R80). -/
def Core.wakeJoins (c : Core) : Core :=
  allSlots.foldl (fun c i =>
    match (c.slot i).st, (c.slot i).why with
    | .sleep, .join set => if c.joinReady set then c.wake i 0 else c
    | _, _ => c) c

/-- A message enters a seat's ring: flits, TAIL, COUNT, and SEQ when it counts in the round (R98,
R106, R234). It counts as received on event 6 of R53 here, when it is queued, a `RENORM` notice too (DESIGN CHOICE, log
entry 51). -/
def State.enqueueMsg (s : State) (k i : Nat) (info aux : BitVec 64) (payload : List (List (BitVec 8)))
    (inRound : Bool) : State :=
  let t := (s.coreAt k).seatAt i
  let header := leBytes 8 info.toNat ++ leBytes 8 aux.toNat ++ List.replicate 16 0
  let s := s.writeFlits k t t.tail (header :: payload)
  s.onCore k fun c =>
    ((c.onSeat i fun t =>
      { t with tail := t.step t.tail (1 + payload.length), count := t.count + 1,
               seq := if inRound then t.seq + 1 else t.seq }).wakeSeat i).countN 6 1

/-- Payload flits of a DATA packet (R229, R234). -/
def Packet.payload (p : Packet) : List (List (BitVec 8)) :=
  if p.flits = 2 then [(bodyBytes p.body).take 32, (bodyBytes p.body).drop 32] else [(bodyBytes p.body).take 32]

/-- A LATE packet: LATE pending for the seat's slot, or reported to the cox when that slot is FREE or
RETIRED (R98). -/
def State.late (s : State) (k i : Nat) (p : Packet) : State :=
  let v : BitVec 64 := BitVec.ofNat 64 i ||| fieldAt p.round 8 ||| fieldAt p.seq 16
  let c := s.coreAt k
  let x := (c.seatAt i).ctx
  match (c.slot x).st with
  | .free | .retired => s.note (.late k (BitVec.ofNat 6 i) v)
  | .ready | .running | .sleep | .trapped => s.onCore k fun c => c.raise x 2 v

/-! ## Answers (R95) -/

/-- The reply to a packet: it carries what the source keeps of the packet (R231). -/
def Packet.answer (p : Packet) (kind : PKind) (status : BitVec 8) : Packet :=
  { p with kind := kind, src := p.dst, dst := p.src, srcPan := 0xFF, dstPan := p.srcPan, status := status,
           body := 0, aux := 0, flits := 0, pois := false }

/-- Kind of the reply to a request. -/
def PKind.replyKind : PKind → PKind
  | .amo => .amoReply
  | .watch => .watchReply
  | .wake => .wakeReply
  | _ => .reply

/-- A request of a core leaves; one for a panel that is not reachable, or whose port is not, is answered HOLE at its own
router (R317, R323). It is an output of the core (R361). -/
def State.launchPacket (s : State) (p : Packet) : State :=
  let s := s.output 1
  if p.dstPan = 0xFF ∨ s.leaves p.gid p.dom (BitVec.ofNat 2 p.lane) p.src p.dstPan then s.send p
  else { s with net := s.net ++ [{ p.answer p.kind.replyKind 4 with srcPan := p.dstPan, dstPan := 0xFF }] }

/-- The n-th packet is answered and gone. -/
def State.answered (s : State) (n : Nat) (p : Packet) (kind : PKind) (status : BitVec 8) : State :=
  (s.unsend n).send (p.answer kind status)

/-! ## Targets of sends (R228) -/

/-- The node lies in the group's lane (R228). -/
def Ctl.inLane (k : Ctl) (key : Nat) : Bool :=
  decide (k.col0.toNat ≤ keyX key) && decide (keyX key ≤ k.col0.toNat + k.wm1.toNat) &&
    decide (k.row0.toNat ≤ keyY key) && decide (keyY key ≤ k.row0.toNat + k.hm1.toNat)

/-- Steps 2-4 of R228: the target of a send, none is BOUNDS. -/
def State.target228 (s : State) (a : BitVec 64) : Option Dest :=
  if isFar a then none
  else (s.resolve a).filter fun d => d.panel != 0xFF || s.core.ctl.inLane d.key

/-- The target is known dead at issue (R228 step 6). -/
def State.deadTarget (s : State) (lc : BitVec 2) (d : Dest) : Bool :=
  d.panel == 0xFF && !(s.arrives s.core.ctl.gid lc s.here d.key)

/-- A packet of the selected core with its shard tag and group (R228). -/
def State.packet (s : State) (k : PKind) (d : Dest) : Packet :=
  { Packet.blank k s.here d.key with
    dstPan := d.panel, gid := s.core.ctl.gid, dom := s.core.ctl.dom, gx := s.core.ctl.gx, gy := s.core.ctl.gy,
    slot := s.core.ctl.slot, alloc := s.slot.alloc }

/-! ## Completion of accesses (R112, R117-R120) -/

/-- A home lies in a scope counted from a core (R117). Core scope needs no wait (R118). -/
def inScope (p : Scope) (here : Nat) (panel : BitVec 8) (key : Nat) : Bool :=
  match p with
  | .core => false
  | .cluster => panel == 0xFF && sameCluster key here
  | .tile => panel == 0xFF && siteOf key == siteOf here
  | .panel => panel == 0xFF
  | .system => true

/-- Keys of the cores of a core's cluster (R15). -/
def clusterKeys (k : Nat) : List Nat := rectKeys (keyX k / 8 * 8) (keyY k / 4 * 4) 8 4

/-- Cluster-direct stores of the context that no port has served yet (R40, R112): at U those of the slot, at S all of
the core's, for the scheduler orders the accesses of a context that gave up the core (R132). -/
def State.storesWait (s : State) : Bool :=
  (clusterKeys s.here).any fun k =>
    (s.coreAt k).sh.port.any fun q => q.src == s.here && (s.core.ctl.priv == .s || q.tag == s.tagSlot)

/-- The home of a burst lies in a scope. -/
def End.inScope (e : End) (p : Scope) (here : Nat) : Bool :=
  match e with
  | .near k _ => Machine.inScope p here 0xFF k
  | .far _ | .peer _ => p == .system

/-- Packets of the context without an answer: at U those its allocation of the slot sent, at S all of the core's. -/
def State.waiting (s : State) : List Unanswered :=
  match s.core.ctl.priv with
  | .u => s.slot.unans.filter fun u => u.alloc == s.slot.alloc
  | .s => s.core.slots.toList.flatMap (·.unans)
/-- Bursts of the context's streams that are sent and not answered (R118). -/
def State.emitted (s : State) : List Flight :=
  s.core.sh.stream.toList.flatMap fun t =>
    if s.core.ctl.priv = .s ∨ (t.owner = s.core.ctl.slot ∧ t.alloc = s.slot.alloc) then t.legs.flatMap (·.fly) else []

/-- An access of the context with home in the scope has not completed (R118): a DATA without its
answer, a burst of a stream, or a cluster-direct store that waits. -/
def State.outstanding (s : State) (p : Scope) : Bool :=
  s.waiting.any (fun u => !u.fin && inScope p s.here u.panel u.dst) || s.emitted.any (fun f => f.dest.inScope p s.here)
    || (p != .core && s.storesWait)

end Sys2Proof.Machine
end

