-- ==== Sys2Proof/Machine/Tree.lean ====
section
/-! DEFINITION. Reduction trees (R102-R107): combine entries, delivery and folding of blocks, finishes,
flag words and renormalisation notices. Directions: 0 west, 1 north, 2 east, 3 south, 4 local. -/

namespace Sys2Proof.Machine

/-- The neighbour of a node in a direction; 4 is the node itself (R18). -/
def neighbour (k : Nat) (d : BitVec 3) : Nat :=
  match d.toNat with
  | 0 => keyOf (keyX k - 1) (keyY k)
  | 1 => keyOf (keyX k) (keyY k + 1)
  | 2 => keyOf (keyX k + 1) (keyY k)
  | 3 => keyOf (keyX k) (keyY k - 1)
  | _ => k
/-- The direction a neighbour sees this node in. -/
def opposite (d : BitVec 3) : BitVec 3 :=
  match d.toNat with
  | 0 => 2 | 1 => 3 | 2 => 0 | 3 => 1 | _ => 4
/-- The fixed child order (R104). -/
def childOrder : List (BitVec 3) := [0, 1, 2, 3, 4]
/-- A set of directions holds one. -/
def hasDir (m : BitVec 5) (d : BitVec 3) : Bool := m.getLsbD d.toNat
/-- The set of one direction. -/
def dirBit (d : BitVec 3) : BitVec 5 := 1#5 <<< d.toNat

/-- The combine entry of a tree at a router (R102). -/
def State.entryFor (s : State) (k : Nat) (gid : BitVec 16) (chan : BitVec 12) : Option CombEntry :=
  (s.node k).entries.find? fun e => e.gid == gid && e.chan == chan
/-- Change the combine entry of a tree at a router. -/
def State.onEntry (s : State) (k : Nat) (gid : BitVec 16) (chan : BitVec 12) (f : CombEntry → CombEntry) : State :=
  s.onNode k fun q => { q with entries := mapFirst (fun e => e.gid == gid && e.chan == chan) f q.entries }

/-- Round a comes before round b: rounds count modulo 256. -/
def roundBefore (a b : BitVec 8) : Bool := a != b && decide (128 ≤ (a - b).toNat)
/-- The later of two rounds. -/
def laterRound (a : Option (BitVec 8)) (b : BitVec 8) : Option (BitVec 8) :=
  match a with
  | none => some b
  | some x => if roundBefore x b then some b else some x

/-- ABSENT as a buffer or finish of a round takes it: a re-admitted child counts from its round on
(R107). -/
def CombEntry.absentAt (e : CombEntry) (round : BitVec 8) : BitVec 5 :=
  if e.admv && e.admd != 7 && !(roundBefore round e.admRound) then e.absent &&& ~~~(dirBit e.admd) else e.absent

/-- A healed router answers HOLE to tree packets of rounds before ADMIT (R107). -/
def CombEntry.tooEarly (e : CombEntry) (round : BitVec 8) : Bool :=
  e.admv && e.admd == 7 && roundBefore round e.admRound

/-! ## Renormalisation notices (R106) -/

/-- A notice reaches the local child: the class-3 seat's ring takes it when it has two free flits, else
it is discarded (R106). -/
def State.deliverNotice (s : State) (k : Nat) (p : Packet) : State :=
  let c := s.coreAt k
  if !(isCore k) || c.ctl.gid != p.gid then s
  else
    match c.seatFor p.chan 3 with
    | none => s
    | some i =>
      let t := c.seatAt i
      if t.cap < t.used + 2 then s
      else
        let body := leBytes 32 (p.seq.toNat % 4096 + 65536 * p.status.toNat)
        s.enqueueMsg k i (infoWord false false p.seq p.round p.gy p.gx) 0 [body] false

/-- A notice goes from a router to its present children, in the child order (R106). -/
def State.notify (s : State) (k : Nat) (present : BitVec 5) (p : Packet) : State :=
  childOrder.foldl (fun s d =>
    if !(hasDir present d) then s
    else if d = 4 then s.deliverNotice k p
    else s.send { p with src := k, dst := neighbour k d }) s

/-- A notice that begins at a router (R106, R233): its shard tag there. -/
def State.notice (s : State) (k : Nat) (gid : BitVec 16) (chan : BitVec 12) (round : BitVec 8) (idx : BitVec 16)
    (e : BitVec 8) : Packet :=
  let (c0, r0) := match s.groupOf gid with
    | some i => ((s.group i).col0, (s.group i).row0)
    | none => (s.core.ctl.col0.toNat, s.core.ctl.row0.toNat)
  { Packet.blank .renorm k k with
    gid := gid, chan := chan, lc := 3, round := round, seq := idx, status := e,
    gx := BitVec.ofNat 9 (keyX k - c0), gy := BitVec.ofNat 8 (keyY k - r0) }

/-! ## Finishes held (R105) -/

/-- A round's record at a router. -/
def FinHeld.blank (gid : BitVec 16) (chan : BitVec 12) (round : BitVec 8) : FinHeld :=
  ⟨gid, chan, round, 0, false, [], false⟩
/-- The record is that of a round. -/
def FinHeld.is (f : FinHeld) (gid : BitVec 16) (chan : BitVec 12) (round : BitVec 8) : Bool :=
  f.gid == gid && f.chan == chan && f.round == round
/-- A round's record at a router, blank when there is none. -/
def State.finHeld (s : State) (k : Nat) (gid : BitVec 16) (chan : BitVec 12) (round : BitVec 8) : FinHeld :=
  ((s.node k).fins.find? fun f => f.is gid chan round).getD (FinHeld.blank gid chan round)
/-- Change a round's record at a router. -/
def State.onFin (s : State) (k : Nat) (gid : BitVec 16) (chan : BitVec 12) (round : BitVec 8)
    (f : FinHeld → FinHeld) : State :=
  let x := f (s.finHeld k gid chan round)
  s.onNode k fun q => { q with fins := q.fins.filter (fun y => !(y.is gid chan round)) ++ [x] }
/-- A round's record at a router is dropped. -/
def State.dropFin (s : State) (k : Nat) (gid : BitVec 16) (chan : BitVec 12) (round : BitVec 8) : State :=
  s.onNode k fun q => { q with fins := q.fins.filter fun y => !(y.is gid chan round) }

/-! ## Blocks (R103, R104) -/

/-- A tree block as the arithmetic sees it. -/
def TreeBlk.blk (b : TreeBlk) : Blk := ⟨mantissas 16 b.m.toNat, b.scale.toNat⟩
/-- A block as a tree carries it. -/
def TreeBlk.ofBlk (b : Blk) (p : Bool) : TreeBlk :=
  ⟨BitVec.ofNat 512 (planeNat 16 b.m), BitVec.ofNat 32 b.scale, p⟩

/-- A buffer is that of a block index of a round (R102). -/
def TreeBuf.is (b : TreeBuf) (gid : BitVec 16) (chan : BitVec 12) (idx : BitVec 12) (round : BitVec 8) : Bool :=
  b.gid == gid && b.chan == chan && b.idx == idx && b.round == round
/-- Directions that have delivered. -/
def TreeBuf.arrived (b : TreeBuf) : BitVec 5 := b.got.foldl (fun m g => m ||| dirBit g.1) 0
/-- Children the buffer waits for (R104). -/
def TreeBuf.waits (b : TreeBuf) (e : CombEntry) : BitVec 5 := e.child &&& ~~~b.snap &&& ~~~b.arrived

/-- The fold in child order: the sum, and whether an addition grew the exponent (R104, R106). -/
def TreeBuf.fold (b : TreeBuf) (present : BitVec 5) : Option (TreeBlk × Bool) :=
  childOrder.foldl (fun acc d =>
    match (b.got.find? fun g => g.1 == d && hasDir present d), acc with
    | none, _ => acc
    | some g, none => some (g.2, false)
    | some g, some (x, up) =>
      let r := addBlock x.blk g.2.blk
      some (TreeBlk.ofBlk r (x.p || g.2.p), up || growth x.blk g.2.blk r)) none

/-- A completed block is written at the root as plain stores (R105). A block that no addition changed is written as it
was sent, bits 7:0 of its scale word too: R73 has it pass bit for bit, R58 has every writer of a scale word write 0
there, and which of the two holds at the root the spec does not say (DESIGN CHOICE, log entry 55). -/
def State.writeBlock (s : State) (k : Nat) (w : Sink) (idx : Nat) (b : TreeBlk) : State :=
  let t := s.write k (64 * w.mbase.toNat + 64 * idx) (bodyBytes b.m) b.p
  t.write k (4 * w.sbase.toNat + 4 * idx) (leBytes 4 b.scale.toNat) b.p

/-- BUFFER_FOLD: a complete buffer's sum goes to the parent, or is written at the root, and growth
sends notices to the present children (R104-R106). -/
def State.foldBuffer (s : State) (k : Nat) (e : CombEntry) (b : TreeBuf) : State :=
  let present := e.child &&& ~~~b.snap
  let drop (s : State) : State := s.onNode k fun q => { q with bufs := q.bufs.filter fun x => !(x.is b.gid b.chan b.idx b.round) }
  match b.fold present with
  | none => drop s
  | some (x, up) =>
    let s :=
      match e.parent == 4, e.sink with
      | true, some w =>
        ((drop s).writeBlock k w b.idx.toNat x).onFin k b.gid b.chan b.round fun f => { f with wrote := f.wrote ++ [b.idx] }
      | true, none => drop s
      | false, _ =>
        let s := s.onNode k fun q =>
          { q with bufs := mapFirst (fun x => x.is b.gid b.chan b.idx b.round) (fun x => { x with sent := true }) q.bufs }
        s.send { Packet.blank .treeBlock k (neighbour k e.parent) with
          gid := b.gid, chan := b.chan, lc := 2, round := b.round, seq := b.idx.setWidth 16, flits := 2,
          body := x.m, aux := x.scale.setWidth 64, pois := x.p, dir := opposite e.parent }
    if up then s.notify k present (s.notice k b.gid b.chan b.round (b.idx.setWidth 16) (BitVec.ofNat 8 (x.blk.e))) else s

/-- The status a tree block meets at a router, or none where it waits or is accepted (R95, R103, R107,
R111, R230). From a direction that the entry's CHILD does not hold it meets NOSEAT, and so does a FINISH: the spec gives
no answer there (DESIGN CHOICE, log entry 56). -/
def CombEntry.refuses (e : CombEntry) (p : Packet) (open? : Option TreeBuf) : Option (BitVec 8) :=
  let idx : BitVec 12 := p.seq.setWidth 12
  if p.flits ≠ 2 then some 8
  else if !(hasDir e.child p.dir) then some 2
  else if e.tooEarly p.round then some 4
  else if e.nblkm1 < idx then some 8
  else
    match open? with
    | some b => if hasDir b.arrived p.dir then some 3 else none
    | none => if hasDir (e.absentAt p.round) p.dir then some 4 else none

/-- A reply of a router: to the slot of the local core, or to the router it came from. -/
def Packet.treeAnswerKind (p : Packet) : PKind := if p.dir = 4 then .reply else .treeReply

/-- TREE_BLOCK_DELIVERY (R103, R104). A first delivery without a free buffer holds (R94). -/
def execTreeBlockDelivery (n : Nat) (s : State) : Host.Outcome State Fault Refusal :=
  match s.arriving n with
  | none => .next s
  | some p =>
    if p.kind ≠ .treeBlock then .next s
    else
      let k := p.dst
      let idx : BitVec 12 := p.seq.setWidth 12
      let reply (s : State) (st : BitVec 8) : State := s.answered n p p.treeAnswerKind st
      if !(s.arrives p.gid 2 p.entry k) then .next (reply s 4)
      else
        match s.entryFor k p.gid p.chan with
        | none => .next (reply s 2)
        | some e =>
          let old := (s.node k).bufs.find? fun b => b.is p.gid p.chan idx p.round
          match e.refuses p old with
          | some st => .next (reply s st)
          | none =>
            let x : BitVec 3 × TreeBlk := (p.dir, ⟨p.body, p.aux.setWidth 32, p.pois⟩)
            match old with
            | some b =>
              let b := { b with got := b.got ++ [x] }
              let s := s.onNode k fun q => { q with bufs := mapFirst (fun y => y.is p.gid p.chan idx p.round) (fun _ => b) q.bufs }
              let s := reply s 0
              .next (if b.waits e = 0 && !b.sent then s.foldBuffer k e b else s)
            | none =>
              if 64 ≤ (s.node k).bufs.length then .next s
              else
                let b : TreeBuf := ⟨p.gid, p.chan, idx, p.round, e.absentAt p.round, [x], false⟩
                let s := s.onNode k fun q => { q with bufs := q.bufs ++ [b] }
                let s := s.onEntry k p.gid p.chan fun e => { e with latest := laterRound e.latest p.round }
                let s := reply s 0
                .next (if b.waits e = 0 then s.foldBuffer k e b else s)

/-- A reply to a forwarded block or finish reaches a router: an answered buffer frees; a block that was
not accepted is discarded and the round's finish becomes PARTIAL (R104, R107). R104 frees the buffer on OK and R107 discards the
block on HOLE; of any other answer the spec is silent, and it counts as HOLE does (DESIGN CHOICE, log entry 72). -/
def State.treeReplied (s : State) (p : Packet) : State :=
  let k := p.dst
  if p.fin then s
  else
    let idx : BitVec 12 := p.seq.setWidth 12
    let s := s.onNode k fun q => { q with bufs := q.bufs.filter fun b => !(b.is p.gid p.chan idx p.round && b.sent) }
    if p.status = 0 then s else s.onFin k p.gid p.chan p.round fun f => { f with part := true }

/-- A tree FINISH reaches a router and is answered (R105, R107). -/
def State.treeFinishArrives (s : State) (n : Nat) (p : Packet) : State :=
  let k := p.dst
  let reply (s : State) (st : BitVec 8) : State := s.answered n p p.treeAnswerKind st
  if !(s.arrives p.gid 3 p.entry k) then reply s 4
  else
    match s.entryFor k p.gid p.chan with
    | none => reply s 2
    | some e =>
      if !(hasDir e.child p.dir) then reply s 2
      else if e.tooEarly p.round || hasDir (e.absentAt p.round) p.dir then reply s 4
      else
        reply (s.onFin k p.gid p.chan p.round fun f =>
          { f with got := f.got ||| dirBit p.dir, part := f.part || p.part }) 0

/-- A buffer that waits only on children that have become absent never completes (R107). -/
def TreeBuf.stuck (b : TreeBuf) (e : CombEntry) : Bool :=
  !b.sent && b.waits e != 0 && (b.waits e &&& ~~~e.absent) == 0

/-- The round's finish may leave: every child that is not absent has finished, and every buffer of the
round is answered or never completes (R105, R107). A router all of whose children are absent forwards none until a
child has finished: the spec's condition holds there of every round at once (DESIGN CHOICE, log entry 57). -/
def State.finishDue (s : State) (k : Nat) (e : CombEntry) (f : FinHeld) : Bool :=
  (e.child &&& ~~~(e.absentAt f.round) &&& ~~~f.got) == 0 && f.got != 0 && !f.root &&
    (s.node k).bufs.all fun b => !(b.gid == f.gid && b.chan == f.chan && b.round == f.round) || b.stuck e

/-- ABSENT, ADMV and the latest round after the finish of a round has left (R107). -/
def CombEntry.passRound (e : CombEntry) (round : BitVec 8) : CombEntry :=
  let e := { e with latest := laterRound e.latest round, passed := laterRound e.passed round }
  if e.admv && e.admd != 7 && round + 1 == e.admRound then
    { e with absent := e.absent &&& ~~~(dirBit e.admd), admv := false }
  else if e.admv && e.admd == 7 && !(roundBefore round e.admRound) then { e with admv := false }
  else e

/-- TREE_FINISH_FORWARD (R105, R107). -/
def execTreeFinishForward (k : Nat) (gid : BitVec 16) (chan : BitVec 12) (round : BitVec 8) (s : State) :
    Host.Outcome State Fault Refusal :=
  match s.entryFor k gid chan with
  | none => .next s
  | some e =>
    let f := s.finHeld k gid chan round
    if !(s.finishDue k e f) then .next s
    else
      let mine (b : TreeBuf) : Bool := b.gid == gid && b.chan == chan && b.round == round
      let part := f.part || (e.child &&& e.absentAt round) != 0 || (s.node k).bufs.any mine
      let s := s.onNode k fun q => { q with bufs := q.bufs.filter fun b => !(mine b) }
      let s := s.onEntry k gid chan fun e => e.passRound round
      if e.parent = 4 then .next (s.onFin k gid chan round fun f => { f with root := true, part := part })
      else
        let p := { Packet.blank .treeFinish k (neighbour k e.parent) with
          gid := gid, chan := chan, lc := 2, round := round, fin := true, part := part, dir := opposite e.parent }
        .next ((s.dropFin k gid chan round).send p)

/-- The flag word of a root (R105, R123). -/
def rootFlag (rounds : BitVec 16) (part : Bool) : BitVec 64 := fieldAt (BitVec.ofBool part) 16 ||| fieldAt rounds 0

/-- Rounds completed at the root of a tree, kept with the group: they count from its start over a resumption and a heal
(R105). -/
def Group.countRound (g : Group) (chan : BitVec 12) (n : BitVec 16) : Group :=
  { g with rounds := g.rounds.filter (·.1 != chan) ++ [(chan, n)] }

/-- Some index of the round was not written at the root (R105). -/
def FinHeld.missing (f : FinHeld) (w : Sink) : Bool :=
  (List.range (w.nblkm1.toNat + 1)).any fun i => !(f.wrote.contains (BitVec.ofNat 12 i))

/-- ROOT_FLAG_WRITE (R105, R123): the stores of the round are performed; the flag word follows. At a root whose site is
not LIVE nothing is written (R107). -/
def execRootFlagWrite (k : Nat) (gid : BitVec 16) (chan : BitVec 12) (round : BitVec 8) (s : State) :
    Host.Outcome State Fault Refusal :=
  match s.entryFor k gid chan with
  | none => .next s
  | some e =>
    let f := s.finHeld k gid chan round
    match e.sink with
    | none => .next s
    | some w =>
      if !f.root || !(s.liveFor gid k) then .next s
      else
        let part := f.part || f.missing w
        let s := (s.dropFin k gid chan round).onEntry k gid chan fun e => { e with rounds := e.rounds + 1 }
        let s := match s.groupOf gid with
          | some i => s.onGroup i fun g => g.countRound chan (e.rounds + 1)
          | none => s
        .next (s.write k (8 * w.flag.toNat) (leBytes 8 (rootFlag (e.rounds + 1) part).toNat) false)

/-- RENORM_FROM_PARENT: the router passes the notice on to its present children (R106). -/
def execRenormFromParent (n : Nat) (s : State) : Host.Outcome State Fault Refusal :=
  match s.arriving n with
  | none => .next s
  | some p =>
    if p.kind ≠ .renorm then .next s
    else
      let t := s.unsend n
      if !(s.arrives p.gid 3 p.entry p.dst) then .next t
      else
        match s.entryFor p.dst p.gid p.chan with
        | none => .next t
        | some e => .next (t.notify p.dst (e.child &&& ~~~(e.absentAt p.round)) p)

end Sys2Proof.Machine
end

