-- ==== Sys2Proof/Machine/Message.lean ====
section
/-! DEFINITION. Message instructions: sends (R228-R233), receives (R234-R238), barriers (R100, R253),
`FWAIT` (R245), `FENCE` (R248), `WATCH` (R249), `WAKE` (R251), `SITEQ` (R254) and `COXCALL` (R255). -/

namespace Sys2Proof

/-- Lane class a send names, as its header carries it (R155). -/
def Lc.bits : Lc → BitVec 2
  | .c0 => 0 | .c2 => 2 | .c3 => 3

end Sys2Proof

namespace Sys2Proof.Machine

/-- A trap at the instruction. -/
def State.trapped (s : State) (c : Cause) (v : BitVec 64) : Host.Outcome State Fault Refusal :=
  .next (s.takeTrap c v s.pc)

/-- The instruction holds at issue (R226). -/
def State.held (s : State) : Host.Outcome State Fault Refusal := .next s.holdIssue

/-- A status written and n bytes committed (R225). -/
def State.done (s : State) (d : GR) (st : BitVec 64) (n : Nat) : Host.Outcome State Fault Refusal :=
  .next ((s.status d st).commit n)

/-! ## Sends (R228-R233) -/

/-- Change the slot of the running context. -/
def State.onRun (s : State) (f : Slot → Slot) : State := s.onSlot f

/-- The checks of a send on ga, gc and its target, continued with the target (R228, R229). -/
def State.sendChecks (s : State) (d a c : GR) (l : Lc) (f : Dest → Host.Outcome State Fault Refusal) :
    Host.Outcome State Fault Refusal :=
  if s.gp a || s.gp c then s.trapped .poison 0
  else
    match s.target228 (s.gv a) with
    | none => s.trapped .bounds (s.gv a)
    | some t => if s.deadTarget l.bits t then s.done d stHole 8 else f t

/-- The packet enters the issuing core's router as the local child of a tree (R230). -/
def State.entersTree (s : State) (t : Dest) (l : Lc) (h : BitVec 12) : Bool :=
  t.panel == 0xFF && t.key == s.here && l == .c2 && (s.entryFor s.here s.core.ctl.gid h).isSome

/-- A packet is sent and stands unanswered (R231). It counts as a message sent on event 5 of R53, a `FINISH` too; a
`RENORM`, which is not sent here, does not (DESIGN CHOICE, log entry 51). -/
def State.emit (s : State) (p : Packet) : State :=
  ((s.launchPacket p).onRun fun t =>
    { t with unans := t.unans ++ [⟨t.alloc, p.dstPan, p.dst, p.chan, p.lc, p.fin, p.round, p.seq⟩] }).count 5

/-- A slot may have 64 packets unanswered (R231). -/
def Slot.full (t : Slot) : Bool := decide (64 ≤ t.unans.length)

/-- The core's late reads of a scratchpad come before what it sends there (R114, R115). -/
def State.takeAt (s : State) (t : Dest) : State := if t.panel = 0xFF then s.takeIf fun q => q.key == t.key else s

/-- A DATA packet leaves: to its seat, or into the tree (R229, R230). -/
def State.sendData (s : State) (d c : GR) (l : Lc) (h : BitVec 12) (t : Dest) (flits : Nat) (body : BitVec 512)
    (aux : BitVec 64) (pois : Bool) : Host.Outcome State Fault Refusal :=
  let tree := s.entersTree t l h
  let p := { s.packet (if tree then .treeBlock else .data) t with
    chan := h, lc := l.bits, round := (s.gv c).setWidth 8, flits := flits, body := body, aux := aux, pois := pois,
    seq := if tree then ((s.gv c).extractLsb' 8 12).setWidth 16 else s.slot.sendCount, dir := 4 }
  let u := (s.takeAt t).emit p
  let u := if tree then u else u.onRun fun t => { t with sendCount := t.sendCount + 1 }
  u.done d stOk 8

/-- `SEND` (R229, R232). -/
def execSend (d a b c : GR) (l : Lc) (h : BitVec 12) (s : State) : Host.Outcome State Fault Refusal :=
  s.sendChecks d a c l fun t =>
    if s.slot.full then s.held else s.sendData d c l h t 1 ((s.gv b).setWidth 512) 0 (s.gp b)

/-- `SENDV` (R229, R232). -/
def execSendv (d a : GR) (b : VR) (c : GR) (l : Lc) (h : BitVec 12) (s : State) :
    Host.Outcome State Fault Refusal :=
  s.sendChecks d a c l fun t =>
    if s.slot.full then s.held else s.sendData d c l h t 2 (s.vr b).body (s.vr b).side (s.vr b).p

/-- `SENDR`: it holds until the accesses of its scope have completed (R119, R232). -/
def execSendr (d a b c : GR) (p : Scope) (l : Lc) (h : BitVec 12) (s : State) :
    Host.Outcome State Fault Refusal :=
  s.sendChecks d a c l fun t =>
    if s.outstanding p || s.slot.full then s.held
    else s.sendData d c l h t 1 ((s.gv b).setWidth 512) 0 (s.gp b)

/-- The reply record as `FINISH` reports it (R232). -/
def Slot.report (t : Slot) : BitVec 64 :=
  match t.record with
  | none => 0
  | some (st, ch) => fieldAt ch 8 ||| fieldAt st 0

/-- A DATA of the slot on the channel to the destination has no answer yet (R97). -/
def Slot.dataWaits (t : Slot) (d : Dest) (l : Lc) (h : BitVec 12) : Bool :=
  t.unans.any fun u => !u.fin && u.panel == d.panel && u.dst == d.key && u.chan == h && u.lc == l.bits

/-- `FINISH` (R97, R120, R229, R232). One that enters a tree carries the send count too, as every `FINISH` that is sent (DESIGN CHOICE,
log entry 77). -/
def execFinish (d a c : GR) (l : Lc) (h : BitVec 12) (s : State) : Host.Outcome State Fault Refusal :=
  s.sendChecks d a c l fun t =>
    if s.outstanding .panel || s.slot.dataWaits t l h || s.slot.full then s.held
    else
      let tree := s.entersTree t l h
      let p := { s.packet (if tree then .treeFinish else .finish) t with
        chan := h, lc := l.bits, round := (s.gv c).setWidth 8, seq := s.slot.sendCount, fin := true, dir := 4,
        part := tree && s.slot.holed.contains h }
      let r := s.slot.report
      ((s.emit p).onRun fun t =>
        { t with sendCount := 0, record := none, holed := if tree then t.holed.filter (· != h) else t.holed }).done d r 8

/-- `RENORM` (R233): its steps in their order, a poisoned register being looked at where the step reads it; the children that count as present in the notice's round take it (R102, R107). It is an output of the core
(R361). -/
def execRenorm (d a b c : GR) (h : BitVec 12) (s : State) : Host.Outcome State Fault Refusal :=
  let e : BitVec 8 := (s.gv b).extractLsb' 16 8
  if s.gp a then s.trapped .poison 0
  else
    match s.target228 (s.gv a) with
    | none => s.trapped .bounds (s.gv a)
    | some t =>
      if t.panel ≠ 0xFF ∨ t.key ≠ s.here then s.trapped .bounds (s.gv a)
      else if s.gp b then s.trapped .poison 0
      else if e = 0 ∨ e = 0xFF then s.trapped .bounds (s.gv b)
      else if s.gp c then s.trapped .poison 0
      else if s.deadTarget 3 t then s.done d stHole 8
      else
        match s.entryFor s.here s.core.ctl.gid h with
        | none => s.done d stNoSeat 8
        | some n =>
          let p := s.notice s.here s.core.ctl.gid h ((s.gv c).setWidth 8) (((s.gv b).setWidth 12).setWidth 16) e
          ((s.output 1).notify s.here (n.child &&& ~~~(n.absentAt p.round)) p).done d stOk 8

/-! ## Receives (R234-R238) -/

/-- A blocking instruction whose condition is unmet (R80, R226). -/
def State.blocked (s : State) (w : Why) : Host.Outcome State Fault Refusal := .next (s.blockOrHold w)

/-- A message at the head of a ring: its information word, AUX, payload bytes, flits (R234). -/
structure Msg where
  info  : BitVec 64
  aux   : BitVec 64
  body  : BitVec 512
  flits : Nat
  pois  : Bool
  deriving DecidableEq, Repr

/-- The message at the head of a seat's ring (R234, R235). The header's POIS alone says whether it is poisoned (R88); of ring words
that carry the poison code themselves the spec says nothing, and they read as free bytes (DESIGN CHOICE, log entry 71). -/
def State.headMsg (s : State) (t : Seat) : Msg :=
  let at' (i : BitVec 8) (o n : Nat) : Nat := s.readNat (nodeBase s.here + t.flitAt i + o) n
  let info : BitVec 64 := BitVec.ofNat 64 (at' t.head 0 8)
  let two := info.getLsbD 49
  let lo := at' (t.step t.head 1) 0 32
  let hi := if two then at' (t.step t.head 2) 0 32 else 0
  { info := info, aux := BitVec.ofNat 64 (at' t.head 8 8), body := BitVec.ofNat 512 (lo + 2 ^ 256 * hi),
    flits := if two then 2 else 1, pois := info.getLsbD 48 }

/-- An information word with its COUNT field (R234). -/
def withCount (info : BitVec 64) (n : BitVec 8) : BitVec 64 := (info &&& 0x00FFFFFFFFFFFFFF) ||| fieldAt n 56

/-- Take the oldest message of a seat, hand it to f, write the information word last (R235). -/
def State.receive (s : State) (a : GR) (i : BitVec 6) (f : State → Msg → State) : Host.Outcome State Fault Refusal :=
  let t := s.core.seatAt i.toNat
  if !t.valid then s.trapped .bounds (i.setWidth 64)
  else if t.count = 0 then s.blocked (.seat i)
  else
    let m := s.headMsg t
    let u := f s m
    let u := { u with core := u.core.onSeat i.toNat fun t =>
      { t with head := t.step t.head (1 + m.flits), count := t.count - 1 } }
    .next ((u.fenceAhead.setG a (withCount m.info (t.count - 1)) false).commit 4)

/-- `RECV` (R235). -/
def execRecv (d a : GR) (i : BitVec 6) (s : State) : Host.Outcome State Fault Refusal :=
  s.receive a i fun s m => s.setG d (m.body.setWidth 64) m.pois

/-- `RECVV` (R235). -/
def execRecvv (v : VR) (a : GR) (i : BitVec 6) (s : State) : Host.Outcome State Fault Refusal :=
  s.receive a i fun s m => s.setV v ⟨m.body, m.aux, m.pois⟩

/-- `PEEK` (R235). -/
def execPeek (d : GR) (i : BitVec 6) (s : State) : Host.Outcome State Fault Refusal :=
  let t := s.core.seatAt i.toNat
  if !t.valid then s.trapped .bounds (i.setWidth 64)
  else if t.count = 0 then .next ((s.setG d 0 false).commit 4)
  else .next ((s.setG d (withCount (s.headMsg t).info t.count) false).commit 4)

/-- `SEATCLR`: status and core; every slot asleep with WHY 0 on the seat becomes READY (R237). -/
def Core.clearSeat (c : Core) (i : Nat) : BitVec 64 × Core :=
  let t := c.seatAt i
  if !t.valid then (stNoSeat, c)
  else
    (fieldAt t.count 8,
      allSlots.foldl (fun c x => match (c.slot x).st, (c.slot x).why with
        | .sleep, .seat j => if j.toNat = i then c.wake x 0 else c
        | _, _ => c) (c.onSeat i fun t => { t with valid := false, count := 0, head := 0, tail := 0 }))

/-- `SEATCLR` (R237). -/
def execSeatclr (d : GR) (i : BitVec 6) (s : State) : Host.Outcome State Fault Refusal :=
  let (st, c) := s.core.clearSeat i.toNat
  { s with core := c }.done d st 4

/-- `SEATSET` (R236). -/
def execSeatset (d a b : GR) (i : BitVec 6) (s : State) : Host.Outcome State Fault Refusal :=
  let x := s.gv a
  let hi := s.gv b
  let base : BitVec 16 := x.extractLsb' 32 16
  let size : BitVec 8 := x.extractLsb' 48 8
  let new : Seat :=
    { tail := 0, head := 0, seq := 0, count := 0, size := size, base := base, round := x.extractLsb' 24 8,
      ctx := x.extractLsb' 16 4, fin := false, valid := true, lc := x.extractLsb' 12 2, chan := x.extractLsb' 0 12 }
  if s.gp a || s.gp b then s.trapped .poison 0
  else if !(x.getLsbD 14) then
    let (st, c) := s.core.clearSeat i.toNat
    { s with core := c }.done d st 4
  else if hi.extractLsb' 32 32 ≠ 0 ∨ x.extractLsb' 20 4 ≠ 0 then s.trapped .bounds x
  else if base.extractLsb' 0 5 ≠ 0 then s.trapped .align (base.setWidth 64)
  else if 0x10000 < base.toNat + 32 * new.cap then s.trapped .bounds x
  else if new.lc = 1 then s.trapped .bounds x
  else
    let old := s.core.seatAt i.toNat
    let other := (List.range 64).any fun j =>
      let t := s.core.seatAt j
      j != i.toNat && t.valid && t.chan == new.chan && t.lc == new.lc
    if (old.valid && old.count != 0) || other then s.done d stBusy 4
    else { s with core := s.core.onSeat i.toNat fun _ => new }.done d stOk 4

/-- The seats of a set after the commit of a `JOIN` (R99). -/
def Core.closeRounds (c : Core) (l : List Nat) : Core :=
  l.foldl (fun c i => c.onSeat i fun t => { t with round := t.round + 1, fin := false, seq := 0 }) c

/-- The commit of a `JOIN` while CUT is set makes PREEMPT pending for a slot without PADDLE (R84,
R275). -/
def Core.cutAtJoin (c : Core) (i : SlotId) : Core :=
  let t := c.slot i
  if c.sh.cut && !t.paddle && t.st == .running then
    c.onSlot i fun t => { t.pendOn 1 0 with cutPend := true }
  else c

/-- `JOIN` (R99, R238). -/
def execJoin (d a : GR) (s : State) : Host.Outcome State Fault Refusal :=
  let set := s.gv a
  if s.gp a then s.trapped .poison 0
  else if (joinSeats set).any fun i => !(s.core.seatAt i).valid then s.done d stNoSeat 4
  else if (joinSeats set).all fun i => (s.core.seatAt i).fin then
    { s.fenceAhead with core := (s.fenceAhead.core.closeRounds (joinSeats set)).cutAtJoin s.core.ctl.slot }.done d stOk 4
  else s.blocked (.join set)

/-! ## Barriers (R100, R101, R253) -/

/-- `BARR`: BUSY while an arrival stands; else a release at panel scope and an arrival (R100, R120), an output of the core
(R361). -/
def execBarr (d : GR) (b : BitVec 3) (s : State) : Host.Outcome State Fault Refusal :=
  let arr := bget s.core.sh.arr b
  if arr ≠ bget s.core.sh.done b then s.done d (stBusy ||| fieldAt arr 8) 4
  else if s.outstanding .panel then s.held
  else
    let p := { Packet.blank .barArrive s.here s.here with
      gid := s.core.ctl.gid, lc := 3, dir := b, round := arr + 1, count := 1 }
    (((s.output 1).send p).onSh fun h => { h with arr := bset h.arr b (arr + 1) }).done d (fieldAt (arr + 1) 8) 4

/-- The barrier is complete for phase p (R100). -/
def barrierDone (done p : BitVec 8) : Bool := decide ((done - p).toNat < 128)

/-- `BWAIT` (R100, R253). -/
def execBwait (a : GR) (b : BitVec 3) (s : State) : Host.Outcome State Fault Refusal :=
  let p : BitVec 8 := (s.gv a).setWidth 8
  if s.gp a then s.trapped .poison 0
  else if barrierDone (bget s.core.sh.done b) p then .next (s.fenceAhead.commit 4)
  else s.blocked (.barrier b p)

/-! ## Flags and fences (R118, R124, R245, R248) -/

/-- `FWAIT` (R124, R245). -/
def execFwait (a b : GR) (s : State) : Host.Outcome State Fault Refusal :=
  let q : BitVec 16 := (s.gv b).setWidth 16
  if s.gp a || s.gp b then s.trapped .poison 0
  else
    match s.ownPath (s.gv a) 8 with
    | .trap c => s.trapped c (s.gv a)
    | .peer _ _ => s.trapped .bounds (s.gv a)
    | .own off =>
      if s.anyPoison (nodeBase s.here + off) 8 then s.trapped .poison (s.gv a)
      else
        match flagTest (BitVec.ofNat 64 (s.readNat (nodeBase s.here + off) 8)) q with
        | .complete => .next (s.fenceAhead.commit 4)
        | .missed => s.trapped .seq (s.gv a)
        | .behind => s.blocked (.flag (s.gv a) q)

/-- `FENCE` (R118, R248). While it holds, the test is made anew at each try: stream bursts that the context's slots emit meanwhile
are waited for too, and may be performed meanwhile, for the engine is not the context's program. R118 speaks of writes emitted
before it issued (DESIGN CHOICE, log entry 73). -/
def execFence (p : Scope) (s : State) : Host.Outcome State Fault Refusal :=
  if s.outstanding p then s.held else .next (s.fenceAhead.commit 4)

/-! ## Remote requests of a held instruction (R226) -/

/-- The answer of the request the core waits on, when it is of this kind. -/
def State.rpcFor (s : State) (k : PKind) : Option Rpc := s.core.sh.rpc.filter fun r => r.req.kind == k

/-- A request leaves and the instruction holds for its reply (R226). -/
def State.request (s : State) (p : Packet) : Host.Outcome State Fault Refusal :=
  .next (((s.launchPacket p).onSh fun h => { h with rpc := some ⟨p, s.clock.ticks, none, false, none⟩ }).holdIssue)

/-- The answered request is done with. -/
def State.endRpc (s : State) : State := s.onSh fun h => { h with rpc := none }

/-- The cause a reply status raises as a precise trap (R246, R249): 0x40 is ALIGN, 0x41 AMOFAIL. -/
def replyCause (st : BitVec 8) : Option Cause :=
  if st = 4 then some .hole else if st = 8 then some .bounds else if st = 0x40 then some .align
  else if st = 0x41 then some .amofail else none

/-- The slot keeps the address of its last `WATCH` and whether it returned FULL (R249). -/
def State.keepWatch (s : State) (a st : BitVec 64) : State :=
  s.onRun fun t => { t with lastWatch := a, lastFull := st == stFull }

/-- A resolved near address in absolute form: what a watch carries (R249). -/
def Dest.addr (d : Dest) : BitVec 64 :=
  BitVec.ofNat 64 (d.panel.toNat * 281474976710656 + keyX d.key * 549755813888 + keyY d.key * 2147483648 + d.off)

/-- `WATCH` (R249). -/
def execWatch (d a : GR) (s : State) : Host.Outcome State Fault Refusal :=
  let addr := s.gv a
  if (s.gp a || s.gp d) && (s.rpcFor .watch).isNone then s.trapped .poison 0
  else if isFar addr then s.trapped .bounds addr
  else if addr.extractLsb' 0 3 ≠ 0 then s.trapped .align addr
  else
    match s.resolve addr with
    | none => s.trapped .bounds addr
    | some t =>
      match s.rpcFor .watch with
      | some r =>
        match r.reply with
        | none => s.held
        | some (st, _) =>
          match replyCause st with
          | some c => if c = .hole then (s.endRpc.keepWatch t.addr stHole).done d stHole 4 else s.endRpc.trapped c addr
          | none => (s.endRpc.keepWatch t.addr (st.setWidth 64)).done d (st.setWidth 64) 4
      | none =>
        if s.deadTarget 0 t then (s.keepWatch t.addr stHole).done d stHole 4
        else s.request { s.packet .watch t with addr := t.addr, val := s.gv d }

/-- A wake condition of a sleeping slot takes in an expiry of its timer in the same cycle: `TCMP` is 0 and no TIMER is
raised (R81). -/
def Core.takeExpiry (c : Core) (rclk : BitVec 64) (i : SlotId) : Core :=
  c.onSlot i fun t => { t with tcmp := if t.tcmp != 0 && decide (t.tcmp ≤ rclk) then 0 else t.tcmp }

/-- What a `WAKE` does to its target slot at a count of the core's `RCLK` (R81, R251): the status and the core. A `WAKE` that loses to a
HIT of the same cycle finds the slot READY and sets WL (DESIGN CHOICE, log entry 86). -/
def Core.awaken (c : Core) (rclk : BitVec 64) (i : SlotId) : BitVec 64 × Core :=
  match (c.slot i).st, (c.slot i).why with
  | .sleep, .sleep => (stOk, (c.takeExpiry rclk i).wake i 2)
  | .sleep, _ | .ready, _ | .running, _ => (stOk, c.onSlot i fun t => { t with wl := true })
  | .free, _ | .retired, _ | .trapped, _ => (stDead, c)

/-- `WAKE` (R251). -/
def execWake (d a : GR) (s : State) : Host.Outcome State Fault Refusal :=
  let addr := s.gv a
  if s.gp a && (s.rpcFor .wake).isNone then s.trapped .poison 0
  else
    match s.target228 addr with
    | none => s.trapped .bounds addr
    | some t =>
      if addr.extractLsb' 4 14 ≠ 0 then s.trapped .bounds addr
      else
        let i : SlotId := addr.setWidth 4
        if t.panel = 0xFF ∧ t.key = s.here then
          if s.deadTarget 3 t then s.done d stHole 4 else
          let (st, c) := s.core.awaken s.rclk i
          ({ s with core := c }.output 1).done d st 4
        else
          match s.rpcFor .wake with
          | some r =>
            match r.reply with
            | none => s.held
            | some (st, _) => s.endRpc.done d (st.setWidth 64) 4
          | none =>
            if s.deadTarget 3 t then s.done d stHole 4
            else s.request { s.packet .wake t with addr := addr, lc := 3, val := i.setWidth 64 }

/-! ## Sites and the cox (R254, R255) -/

/-- STATE code of a site (R254). -/
def SiteSt.code : SiteSt → BitVec 4
  | .empty => 0 | .seated => 1 | .training => 2 | .fenced => 3 | .live => 4 | .draining => 5 | .safe => 6
  | .lost => 7

/-- `SITEQ`'s snapshot of a site (R254). -/
def State.siteWord (s : State) (n : Nat) : BitVec 64 :=
  fieldAt (s.site n).epoch 16 ||| fieldAt (BitVec.ofBool !(computeSite n)) 4 ||| fieldAt (s.site n).st.code 0

/-- `SITEQ` (R254). -/
def execSiteq (d a : GR) (s : State) : Host.Outcome State Fault Refusal :=
  if s.gp a then s.trapped .poison 0
  else if 24 < (s.gv a).toNat then s.trapped .bounds (s.gv a)
  else .next ((s.setG d (s.siteWord (s.gv a).toNat) false).commit 4)

/-- A `COXCALL` at a privilege it is permitted at, its operands checked (R227, R255). It holds while the tile's triad can
issue no transaction (R226, R350). -/
def State.coxcall (s : State) (a b : GR) (sOnly : Bool) (r : Host.Outcome State Fault Refusal) :
    Host.Outcome State Fault Refusal :=
  if sOnly && s.core.ctl.priv == .u then s.trapped .priv s.parcel
  else if s.gp a || s.gp b then s.trapped .poison 0
  else if !(s.site (siteOf s.here)).triad.mayVote then s.held
  else r

/-- The cox's answer to a core is a voted transaction of its triad (R345). -/
def State.answerCall (s : State) (d : GR) (st : BitVec 64) : Host.Outcome State Fault Refusal :=
  (s.vote (siteOf s.here)).done d st 4

/-- `COXCALL` 0 POISONED (R90, R255). -/
def execCoxcallPoisoned (d a b : GR) (s : State) : Host.Outcome State Fault Refusal :=
  s.coxcall a b true ((s.note (.poisoned s.here ((s.gv a).setWidth 4) (s.gv b))).answerCall d stOk)

/-- `COXCALL` 1 LOG, and the services that are not allocated (R255). -/
def execCoxcallLog (d a b : GR) (n : BitVec 6) (s : State) : Host.Outcome State Fault Refusal :=
  if !(Instr.wellFormed (.coxcallLog d a b n)) then s.trapped .illegal s.parcel
  else s.coxcall a b false
    (if n = 1 then
      if Config.logRoom ≤ s.boat.queue.length then s.answerCall d stFull
      else { s with boat := { s.boat with queue := s.boat.queue ++ [(siteOf s.here, s.gv a, s.gv b)] } }.answerCall d stOk
    else s.answerCall d stUnsup)

/-- Report of a shard kept at its highest value (R278). -/
def raiseReport (l : List (Nat × BitVec 32)) (tag : Nat) (n : BitVec 32) : List (Nat × BitVec 32) :=
  match l.find? (·.1 == tag) with
  | none => l ++ [(tag, n)]
  | some (_, m) => if m < n then mapFirst (·.1 == tag) (fun _ => (tag, n)) l else l

/-- Shard tag of a node in a group: 256 * gx + gy (R20). -/
def Group.tagOf (g : Group) (k : Nat) : Nat := 256 * (keyX k - g.col0) + (keyY k - g.row0)

/-- The least report over the shards of the lane, none while one has never reported (R278). -/
def Group.least (g : Group) (tags : List Nat) : Option (BitVec 32) :=
  let of (t : Nat) : Option (BitVec 32) := (g.reports.find? (·.1 == t)).map (·.2)
  if tags = [] ∨ tags.any (fun t => (of t).isNone) then none
  else
    some (tags.foldl (fun m t =>
      match of t with
      | some n => if n < m then n else m
      | none => m) 0xFFFFFFFF)

/-- CKPT after the cox has formed the least value (R278). -/
def Group.recommit (g : Group) (tags : List Nat) : Group :=
  match g.least tags with
  | none => g
  | some n => if g.ckpt = 0xFFFFFFFF ∨ g.ckpt < n then { g with ckpt := n } else g

/-- The shard tags of the group's live cores with an initial context (R278). -/
def State.liveTags (s : State) (g : Group) : List Nat := (g.cores.filter s.live).map g.tagOf

/-- A checkpoint report; one that comes after a fault is discarded (R278). -/
def State.checkpoint (s : State) (n : BitVec 32) : State :=
  match s.groupOf s.core.ctl.gid with
  | none => s
  | some i =>
    if n = 0xFFFFFFFF ∨ (s.group i).st = .faulted then s
    else
      let tags := s.liveTags (s.group i)
      s.onGroup i fun g => { g with reports := raiseReport g.reports (g.tagOf s.here) n }.recommit tags

/-- `COXCALL` 2 CHECKPOINT (R255, R278). -/
def execCoxcallCheckpoint (d a b : GR) (s : State) : Host.Outcome State Fault Refusal :=
  s.coxcall a b false ((s.checkpoint ((s.gv a).setWidth 32)).answerCall d stOk)

end Sys2Proof.Machine
end

