-- ==== Sys2Proof/Machine/Far.lean ====
section
/-! DEFINITION. Far memory (R296-R304, R329): ports, page tables, TLBs, the walk, and fault records. -/

namespace Sys2Proof.Machine

/-- Memory key of a far physical address. -/
def farKey (fpa : Nat) : Nat := farBase + fpa
/-- A CXL port serves the far physical address (R329). -/
def State.served (s : State) (fpa : Nat) : Bool := decide (fpa / 2 ^ 46 < 24) && s.memoryPort (fpa / 2 ^ 46)
/-- Bank site whose port serves a far physical address (R129, R327). -/
def fpaSite (fpa : Nat) : Nat := portSite (fpa / 2 ^ 46)

/-- A word of the 64-byte line at a far address carries the poison code: CXL.mem returns poison for the
line (R328). -/
def State.linePoison (s : State) (fpa : Nat) : Bool :=
  (List.range 8).any fun i => s.poisoned (farKey (fpa / 64 * 64) + 8 * i)

/-- A CXL access of this step to the line of a far address ends in error (R328): an input. -/
def State.lineError (s : State) (fpa : Nat) : Bool := s.met.contains (.cxlError (fpa / 64 * 64))

/-- Permissions: bit 0 RD, 1 WR, 2 AT (R298). -/
def permRD : BitVec 3 := 1
/-- WR. -/
def permWR : BitVec 3 := 2
/-- RD, WR and AT. -/
def permAll : BitVec 3 := 7

/-- Permissions of a TLB entry. -/
def TlbEntry.perms (e : TlbEntry) : BitVec 3 :=
  (BitVec.ofBool e.at').setWidth 3 <<< 2 ||| (BitVec.ofBool e.wr).setWidth 3 <<< 1 ||| (BitVec.ofBool e.rd).setWidth 3

/-- What a translation ends in (R301). -/
inductive XRes
  | ok (fpa : Nat)
  | notMapped
  | perm
  | migrating
  | bad
  /-- The tile's triad can issue no transaction: the access waits for its TLB fill or fault record (R345, R350). -/
  | stalled
  deriving DecidableEq, Repr

/-- What a walk ends in (R298, R300). -/
inductive WalkRes
  | leaf (e : TlbEntry)
  | notMapped
  | migrating
  | bad
  deriving DecidableEq, Repr

/-- Bits of VA below the index of a level (R297). -/
def levelShift : Nat → Nat
  | 0 => 48 | 1 => 39 | 2 => 30 | 3 => 21 | _ => 16
/-- Memory offset of the entry for VA in a table of a level (R297). -/
def entryAddr (table level va : Nat) : Nat :=
  table + 8 * (va / 2 ^ levelShift level % (if level = 4 then 32 else 512))

/-- The walk from a table of a level on; n levels remain (R297, R298). A table line that is not served,
whose read is in error, or that is poisoned, is BADTABLE. -/
def State.walk (s : State) (d : Domain) (va table : Nat) : Nat → WalkRes
  | 0 => .bad
  | n + 1 =>
    let level := 4 - n
    let a := entryAddr table level va
    if !(s.served a) || s.linePoison a || s.lineError a then .bad
    else
      let e : BitVec 64 := BitVec.ofNat 64 (s.readClean (farKey a) 8)
      let addr := (e.extractLsb' 12 40).toNat * 4096
      let size := levelShift level
      if e.extractLsb' 52 12 ≠ 0 ∨ e.extractLsb' 6 6 ≠ 0 then .bad
      else if !(e.getLsbD 0) then .notMapped
      else if e.getLsbD 1 then
        if level ≤ 1 ∨ addr % 2 ^ size ≠ 0 then .bad
        else if e.getLsbD 5 then .migrating
        else
          .leaf { dom := d.spec.dom, vpn := va / 2 ^ size, size := size, rd := e.getLsbD 2, wr := e.getLsbD 3,
                  at' := e.getLsbD 4, fpa := addr, key := d.spec.key }
      else if e.extractLsb' 2 4 ≠ 0 then .bad
      else s.walk d va addr n

/-- The entry of a TLB that holds VA (R299). -/
def tlbHit (l : List TlbEntry) (dom : BitVec 16) (va : Nat) : Option TlbEntry :=
  l.find? fun e => e.dom == dom && e.vpn == va / 2 ^ e.size
/-- An entry made the most recently used of a level that holds n (R299). -/
def tlbPut (n : Nat) (e : TlbEntry) (l : List TlbEntry) : List TlbEntry :=
  (e :: l.filter fun x => !(x.dom == e.dom && x.vpn == e.vpn && x.size == e.size)).take n

/-- Cluster TLB of a core. -/
def State.clusterTlb (s : State) (k : Nat) : List TlbEntry := tget [] (s.site (siteOf k)).ctlb (clusterOf k % 64)
/-- The entry stands first in the tile TLB of a site. -/
def State.fillTile (s : State) (n : Nat) (e : TlbEntry) : State :=
  s.onSite n fun t => { t with ttlb := tlbPut 4096 e t.ttlb }
/-- Fill the cluster TLB of a core. -/
def State.fillCluster (s : State) (k : Nat) (e : TlbEntry) : State :=
  s.onSite (siteOf k) fun t =>
    { t with ctlb := tset [] t.ctlb (clusterOf k % 64) (tlbPut 512 e (tget [] t.ctlb (clusterOf k % 64))) }
/-- Fill the micro-TLB of a core. -/
def State.fillMicro (s : State) (k : Nat) (e : TlbEntry) : State :=
  s.onCore k fun c => { c with sh := { c.sh with utlb := tlbPut 16 e c.sh.utlb } }

/-- The outcome of an access through a leaf (R301). -/
def TlbEntry.access (e : TlbEntry) (va : Nat) (need : BitVec 3) : XRes :=
  if need &&& ~~~e.perms = 0 then .ok (e.fpa + va % 2 ^ e.size) else .perm

/-- Copies of a site's triad that vote and whose walker, as an input says, gives a result no other gives (R300, R347). -/
def State.oddWalkers (s : State) (n : Nat) : Nat :=
  (s.site n).triad.voters.countP fun c => s.met.contains (.walker n (BitVec.ofNat 2 c))
/-- The walk of a domain's table by the walkers of a site's triad (R297, R300). With two that differ from every other all three
differ, and the result is BADTABLE; with one the other two agree. A REDUCED triad whose two walkers differ has halted and walks no
more (R347). -/
def State.walkFor (s : State) (n : Nat) (dom : BitVec 16) (va : Nat) : WalkRes :=
  match s.domain dom with
  | none => .notMapped
  | some d => if 2 ≤ s.oddWalkers n then .bad else s.walk d va d.spec.root.toNat 5

/-- Outcome of a walk that gives no leaf. -/
def WalkRes.fault : WalkRes → XRes
  | .leaf _ => .bad
  | .notMapped => .notMapped
  | .migrating => .migrating
  | .bad => .bad

/-- The outcome of an access through an entry of a TLB of a site's tile: a permission that is missing asks for a fault record, for
which the access waits while the triad can issue no transaction (R301, R345, R350). -/
def State.access (s : State) (n : Nat) (e : TlbEntry) (va : Nat) (need : BitVec 3) : XRes :=
  match e.access va need with
  | .perm => if (s.site n).triad.mayVote then .perm else .stalled
  | r => r
/-- Translation through the tile TLB of a site (R296, R299). -/
def State.translateTile (s : State) (n : Nat) (dom : BitVec 16) (va : Nat) (need : BitVec 3) : XRes × State :=
  match tlbHit (s.site n).ttlb dom va with
  | some e => (s.access n e va need, s.fillTile n e)
  | none =>
    if !(s.site n).triad.mayVote then (.stalled, s)
    else
      match s.walkFor n dom va with
      | .leaf e => (e.access va need, (s.vote n).fillTile n e)
      | w => (w.fault, s)

/-- Translation for a core, as far as a HALTED triad lets it come: micro-TLB, cluster TLB, tile TLB, walk; a miss fills every level below the
one that hit (R299). -/
def State.translate (s : State) (k : Nat) (dom : BitVec 16) (va : Nat) (need : BitVec 3) : XRes × State :=
  match tlbHit (s.coreAt k).sh.utlb dom va with
  | some e => (s.access (siteOf k) e va need, s.fillMicro k e)
  | none =>
    match tlbHit (s.clusterTlb k) dom va with
    | some e => (s.access (siteOf k) e va need, (s.fillCluster k e).fillMicro k e)
    | none =>
      let n := siteOf k
      match tlbHit (s.site n).ttlb dom va with
      | some e => (s.access n e va need, ((s.fillTile n e).fillCluster k e).fillMicro k e)
      | none =>
        if !(s.site n).triad.mayVote then (.stalled, s)
        else
          match s.walkFor n dom va with
          | .leaf e => (e.access va need, (((s.vote n).fillTile n e).fillCluster k e).fillMicro k e)
          | w => (w.fault, s)

/-- Every value of a table changed, canonical form kept. -/
def tmap {α : Type} [DecidableEq α] (d : α) (f : α → α) (t : Tbl α) : Tbl α :=
  (t.map fun e => (e.1, f e.2)).filter fun e => decide (e.2 ≠ d)

/-- Every core's record changed. -/
def State.mapCores (s : State) (f : Core → Core) : State :=
  { s with core := f s.core, peers := (s.peers.map fun e => (e.1, f e.2)).filter fun e => decide (e.2 ≠ Core.reset e.1) }

/-- TLB_DROP: every TLB of the panel drops the entries of a domain that overlap VA lo to hi - 1 (R307). -/
def State.dropTlbs (s : State) (dom : BitVec 16) (lo hi : Nat) : State :=
  let keep (e : TlbEntry) : Bool :=
    !(e.dom == dom && decide (e.vpn * 2 ^ e.size < hi) && decide (lo < (e.vpn + 1) * 2 ^ e.size))
  let s := s.mapCores fun c => { c with sh := { c.sh with utlb := c.sh.utlb.filter keep } }
  { s with sites := tmap Site.reset (fun t =>
      { t with ttlb := t.ttlb.filter keep, ctlb := tmap [] (fun l => l.filter keep) t.ctlb }) s.sites }

/-! ## Fault records (R302, R303) -/

/-- A record of a tile. -/
def State.faultAt (s : State) (n i : Nat) : FaultRec := tget FaultRec.free (s.site n).faults i
/-- Change a record of a tile. -/
def State.onRec (s : State) (n i : Nat) (f : FaultRec → FaultRec) : State :=
  s.onSite n fun t => { t with faults := tset FaultRec.free t.faults i (f (tget FaultRec.free t.faults i)) }

/-- VA bits 56:16. -/
def vpageOf (va : Nat) : BitVec 41 := BitVec.ofNat 41 (va / 65536)

/-- Who faults: site, domain, address, needed permissions, the joiner, its core, slot and SRC (R302). -/
structure Faulter where
  site : Nat
  dom  : BitVec 16
  va   : Nat
  need : BitVec 3
  who  : Joiner
  key  : Nat
  slot : SlotId
  src  : BitVec 3
  deriving DecidableEq, Repr

/-- A fault joins a record: one of its domain, page and kind that is PENDING, or that an UNMAP of this very tick has made FAILED, for the
join comes first (R302, R310). -/
def State.joins (s : State) (q : Faulter) (perm : Bool) (r : FaultRec) : Bool :=
  (r.st == .pending || (r.st == .failed && r.ended == some (s.clock.ticks, false)))
    && r.dom == q.dom && r.vpage == vpageOf q.va && r.perm == perm
/-- The lowest FREE record of a tile. -/
def Site.freeRec (t : Site) : Option Nat := (List.range 1024).find? fun i => (tget FaultRec.free t.faults i).st == .free
/-- A fault finds no record, but in this very tick a core at a higher coordinate has taken one: of the two faults the lower
coordinate's takes the last record (R310). This one is then not of this tick: it comes again later (DESIGN CHOICE, log entry 78). -/
def State.outOfTurn (s : State) (q : Faulter) (perm : Bool) : Bool :=
  let t := s.site q.site
  !(t.faults.any fun e => s.joins q perm e.2) && t.freeRec.isNone
    && t.faults.any fun e => e.2.since == s.clock.ticks && decide (q.key < keyOf e.2.x.toNat e.2.y.toNat)
/-- The state of a record as its joiners find it: one that becomes FAILED is so for them from the next tick on, for a MAP of the same
tick comes before the fault limit (R303, R310). -/
def State.recState (s : State) (r : FaultRec) : RecSt :=
  match r.st, r.ended with
  | .failed, some (t, _) => if t = s.clock.ticks then .pending else .failed
  | st, _ => st
/-- FAULT_RECORD: join a PENDING record of the same domain, page and kind, or take the lowest FREE
one, by a voted transaction (R345); none is a refusal (R302). -/
def State.faultRecord (s : State) (q : Faulter) (perm : Bool) : Option (Nat × State) :=
  let t := s.site q.site
  match t.faults.find? fun e => s.joins q perm e.2 with
  | some (i, _) =>
    some (i, s.onRec q.site i fun r =>
      { r with need := r.need ||| q.need, join := if r.join.contains q.who then r.join else r.join ++ [q.who] })
  | none =>
    match t.freeRec with
    | none => none
    | some i =>
      let s := s.onRec q.site i fun _ =>
        { vpage := vpageOf q.va, dom := q.dom, x := BitVec.ofNat 9 (keyX q.key), y := BitVec.ofNat 8 (keyY q.key), slot := q.slot,
          src := q.src, perm := perm, st := .pending, tag := t.tag + 1, need := q.need, join := [q.who],
          since := s.clock.ticks, ended := none }
      let s := s.vote q.site
      some (i, { s with pages := { s.pages with made := s.pages.made + 1 } }.onSite q.site fun t => { t with tag := t.tag + 1 })

/-- The record a joiner waits on. -/
def State.recordOf (s : State) (n : Nat) (j : Joiner) : Option (Nat × FaultRec) :=
  (s.site n).faults.find? fun e => e.2.st != .free && e.2.join.contains j

/-- A joiner leaves a record, with its outcome or without: the last one frees a record that is RESOLVED or FAILED
(R303). -/
def State.deliverRec (s : State) (n i : Nat) (j : Joiner) : State :=
  s.onRec n i fun r =>
    let l := r.join.filter (· != j)
    if l = [] ∧ r.st ≠ .pending then FaultRec.free else { r with join := l }

/-- A core whose context is gone joins no record any more: neither with its atomic nor, where its transfers are gone too, with
its streams (R303). -/
def State.leaveRecords (s : State) (k : Nat) (streams : Bool) : State :=
  let gone (j : Joiner) : Bool :=
    match j with
    | .atomic c => c == k
    | .stream c _ => streams && c == k
    | .copy _ => false
  ((s.site (siteOf k)).faults).foldl (fun s e =>
    (e.2.join.filter gone).foldl (fun s j => s.deliverRec (siteOf k) e.1 j) s) s

/-- The wait of back-off step k, with its jitter (R302). -/
def backoffTicks (rclk : BitVec 64) (k : Nat) : Nat :=
  let w := 2 ^ min k 6 * 1000
  w + (rclk.toNat % 1024) * w / 4096

end Sys2Proof.Machine
end

