-- ==== Sys2Proof/Machine/Atomic.lean ====
section
/-! DEFINITION. Atomics (R126-R130, R246, R247): `AMO` and `CAS`, their performance at homes and proxy
cores, the reply cache, resends and acknowledgements. -/

namespace Sys2Proof

/-- Bytes of an atomic's word (R156). -/
def AmoW.bytes : AmoW → Nat
  | .b32 => 4 | .b64 => 8

end Sys2Proof

namespace Sys2Proof.Machine

/-- The new word of an `AMO` of w bits (R247). -/
def amoNew (o : AmoOp) (w : Nat) (x y : Nat) : Nat :=
  let a := signExtend w x
  let b := signExtend w y
  match o with
  | .add => (x + y) % 2 ^ w
  | .swap => y
  | .and => x &&& y
  | .or => x ||| y
  | .xor => x ^^^ y
  | .min => if b < a then y else x
  | .max => if a < b then y else x
  | .minn => if y < x then y else x
  | .maxn => if x < y then y else x

/-- The new word an atomic request writes over x (R247). -/
def Packet.newWord (p : Packet) (x : Nat) : Nat :=
  let w := 8 * p.width.bytes
  let y := p.val.toNat % 2 ^ w
  if p.isCas then if x = p.cmp.toNat % 2 ^ w then y else x else amoNew p.op w x y

/-- Reply statuses of an atomic beside those of R225: ALIGN. -/
def stAlign : BitVec 8 := 0x40
/-- AMOFAIL. -/
def stAmoFail : BitVec 8 := 0x41

/-- Reply status of a cause a home check raises. -/
def Cause.status : Cause → BitVec 8
  | .bounds => 8
  | .align => stAlign
  | .hole => 4
  | _ => stAmoFail

/-- The request is a burst of an ORDERED transfer (R241). -/
def Packet.isBurst (p : Packet) : Bool := p.flits != 0
/-- Word i of a burst, and whether it carries poison, its own or the packet's (R88, R355). -/
def Packet.burstWord (p : Packet) (i : Nat) : Nat × Bool :=
  ((p.body.extractLsb' (64 * i) 64).toNat, p.aux.getLsbD i || p.pois)
/-- What word i of a burst writes over x: each element of its width is the operand of the atomic; a source that carries
poison is written as it is (R241). -/
def Packet.burstNew (p : Packet) (i x : Nat) : Nat × Bool :=
  let (v, q) := p.burstWord i
  if q then (v, true)
  else
    match p.width with
    | .b64 => (amoNew p.op 64 x v, false)
    | .b32 => (amoNew p.op 32 (x % 2 ^ 32) (v % 2 ^ 32) + 2 ^ 32 * amoNew p.op 32 (x / 2 ^ 32) (v / 2 ^ 32), false)
/-- Bytes an atomic request reads and writes. -/
def Packet.bytes (p : Packet) : Nat := if p.isBurst then 8 * p.flits else p.width.bytes
/-- What a request writes over the bytes of value x, in pieces: bytes and poison, which the operands of a poisoned packet carry (R88,
R126, R241, R355). -/
def Packet.pieces (p : Packet) (x : Nat) : List (List (BitVec 8) × Bool) :=
  if p.isBurst then
    (List.range p.flits).map fun i =>
      let (v, q) := p.burstNew i (x / 2 ^ (64 * i) % 2 ^ 64)
      (leBytes 8 v, q)
  else [(leBytes p.width.bytes (p.newWord x), p.pois)]

/-- The pieces of a request performed in order at a node, until one names a word that carries the poison code: that one
ends with AMOFAIL (R126, R241, R341). -/
def State.performAt (s : State) (k off : Nat) : List (List (BitVec 8) × Bool) → Bool × State
  | [] => (true, s)
  | (bs, q) :: r =>
    if s.poisoned (nodeBase k + off) then (false, s)
    else (s.write k off bs q).performAt k (off + bs.length) r

/-- The read-modify-write of an atomic, or of the elements of a burst, at a node's SRAM (R126): status, old value,
state. -/
def State.atomicAt (s : State) (k : Nat) (p : Packet) : BitVec 8 × BitVec 64 × State :=
  let off := p.addr.toNat % 262144
  match s.homeCheck p.dom k off (if p.isBurst then 8 else p.width.bytes) with
  | some c => (c.status, 0, s)
  | none =>
    let x := s.readNat (nodeBase k + off) p.bytes
    match s.performAt k off (p.pieces x) with
    | (false, t) => (stAmoFail, 0, t)
    | (true, t) => (0, BitVec.ofNat 64 x, t)

/-- The CXL read of a far atomic (R129): the value of its bytes, or the status it ends with. -/
def State.takeFar (s : State) (p : Packet) : Except (BitVec 8) Nat :=
  let a := p.addr.toNat
  if !(s.served a) then .error 4
  else if s.linePoison a || s.lineError a then .error stAmoFail
  else .ok (s.readNat (farKey a) p.bytes)
/-- The CXL write of a far atomic over the value it has read (R129): status and state. -/
def State.putFar (s : State) (p : Packet) (x : Nat) : BitVec 8 × State :=
  let a := p.addr.toNat
  if !(s.served a) then (4, s)
  else if s.lineError a then (stAmoFail, s)
  else
    (0, ((p.pieces x).foldl (fun (w : Nat × State) b => (w.1 + b.1.length, w.2.poke (farKey w.1) b.1 b.2)) (a, s)).2)

/-! ## Reply cache (R128) -/

/-- RID a is older than LOW: numbers wrap, and one that lies at most 2^15 before LOW counts as older; the spec gives no
comparison (DESIGN CHOICE, log entry 59). -/
def ridOlder (a low : BitVec 16) : Bool := a != low && decide (0x8000 ≤ (a - low).toNat)
/-- A row is that of a source. -/
def CacheRow.of (r : CacheRow) (p : Packet) : Bool := r.panel == p.srcPan && r.src == p.src
/-- A row is free: all its RIDs are older than its LOW. -/
def CacheRow.isFree (r : CacheRow) : Bool := r.entries.all fun e => ridOlder e.rid r.low

/-- A free row that no atomic under way belongs to. -/
def CacheRow.mayGo (busy : CacheRow → Bool) (r : CacheRow) : Bool := r.isFree && !(busy r)
/-- What a request meets in a cache. -/
inductive Cached
  | noRow
  | old (e : CacheEntry) (rows : List CacheRow)
  | fresh (rows : List CacheRow)
  deriving DecidableEq, Repr

/-- The row of the request's source, or a free row taken for it, with LOW written (R128); busy names the rows of sources whose
atomic is under way. -/
def cacheLookup (rows : List CacheRow) (busy : CacheRow → Bool) (p : Packet) : Cached :=
  let low (r : CacheRow) : CacheRow := { r with low := p.low }
  match rows.find? (·.of p) with
  | some r =>
    let rows := mapFirst (·.of p) low rows
    match r.entries.find? fun e => e.rid == p.rid with
    | some e => .old e rows
    | none => .fresh rows
  | none =>
    let new : CacheRow := ⟨p.srcPan, p.src, p.low, []⟩
    if rows.length < 64 then .fresh (rows ++ [new])
    else if rows.any (·.mayGo busy) then .fresh (mapFirst (·.mayGo busy) (fun _ => new) rows)
    else .noRow

/-- An entry kept, in place of one older than LOW, else of the oldest (R128). -/
def CacheRow.keep (r : CacheRow) (e : CacheEntry) : CacheRow :=
  if r.entries.length < 8 then { r with entries := r.entries ++ [e] }
  else if r.entries.any fun x => ridOlder x.rid r.low then
    { r with entries := dropFirst (fun x => ridOlder x.rid r.low) r.entries ++ [e] }
  else { r with entries := r.entries.drop 1 ++ [e] }
/-- An entry kept in the row of its source. -/
def cacheKeep (rows : List CacheRow) (p : Packet) (e : CacheEntry) : List CacheRow :=
  mapFirst (·.of p) (·.keep e) rows

/-- The reply to an atomic; that to a burst says whether its words have landed poisoned (R242, R355). -/
def Packet.amoReply (p : Packet) (st : BitVec 8) (old : BitVec 64) : Packet :=
  { p.answer .amoReply st with val := old, part := p.isBurst && p.pois }

/-! ## At the home (R126, R128, R129) -/

/-- Proxy queue of an address (R129). -/
def proxyQueue (a : Nat) : Nat := (a / 64 % 16) ^^^ (a / 1024 % 16) ^^^ (a / 16384 % 16)

/-- HOME_ATOMIC: a request at a node is performed once, by its reply cache; a far request enters its
queue of the proxy core, unless its site is not LIVE or no route leads there (R128, R129, R317). -/
def execHomeAtomic (n : Nat) (s : State) : Host.Outcome State Fault Refusal :=
  match s.arriving n with
  | none => .next s
  | some p =>
    if p.kind ≠ .amo then .next s
    else
      let s := s.unsend n
      if p.count ≠ 0 then
        let site := p.count - 1
        if (s.site site).st ≠ .live ∨ !(s.routed p.gid 0 p.entry p.dst) then .next (s.send (p.amoReply 4 0))
        else
          let q := proxyQueue p.addr.toNat
          .next (s.onSite site fun t => { t with proxy := tset [] t.proxy q (tget [] t.proxy q ++ [p]) })
      else
        let k := p.dst
        if !(s.arrives p.gid 0 p.entry k) then .next (s.send (p.amoReply 4 0))
        else
          match cacheLookup (s.node k).cache (fun _ => false) p with
          | .noRow => .next (s.send (p.amoReply 1 0))
          | .old e rows => .next ((s.onNode k fun q => { q with cache := rows }).send (p.amoReply e.status e.old))
          | .fresh rows =>
            let (st, old, s) := s.atomicAt k p
            let rows := cacheKeep rows p ⟨p.rid, st, old⟩
            .next ((s.onNode k fun q => { q with cache := rows }).send (p.amoReply st old))

/-- The oldest atomic of a queue is over: it leaves the queue, and is answered. -/
def State.proxyEnds (s : State) (site : Nat) (q : BitVec 4) (p : Packet) (st : BitVec 8) (old : BitVec 64) : State :=
  (s.onSite site fun t =>
    { t with proxy := tset [] t.proxy q.toNat ((tget [] t.proxy q.toNat).drop 1),
             taken := tset none t.taken q.toNat none }).send (p.amoReply st old)

/-- The row is that of a source whose far atomic has read its bytes and not written them (R129). -/
def Site.underWay (t : Site) (r : CacheRow) : Bool :=
  t.taken.any fun e => e.2.isSome && ((tget [] t.proxy e.1).head?.any r.of)
/-- PROXY_ATOMIC: a queue performs its oldest atomic, by a CXL read and then a CXL write: the row runs once for each,
and streams may reach the word between them (R129, R130). -/
def execProxyAtomic (site : Nat) (q : BitVec 4) (s : State) : Host.Outcome State Fault Refusal :=
  match tget [] (s.site site).proxy q.toNat with
  | [] => .next s
  | p :: _ =>
    let keep (s : State) (st : BitVec 8) (old : BitVec 64) : State :=
      s.onSite site fun t => { t with pcache := cacheKeep t.pcache p ⟨p.rid, st, old⟩ }
    match tget none (s.site site).taken q.toNat with
    | some x =>
      let (st, t) := s.putFar p x
      let old : BitVec 64 := if st = 0 then BitVec.ofNat 64 x else 0
      .next ((keep t st old).proxyEnds site q p st old)
    | none =>
      match cacheLookup (s.site site).pcache (s.site site).underWay p with
      | .noRow => .next (s.proxyEnds site q p 1 0)
      | .old e rows => .next ((s.onSite site fun t => { t with pcache := rows }).proxyEnds site q p e.status e.old)
      | .fresh rows =>
        let s := s.onSite site fun t => { t with pcache := rows }
        match s.takeFar p with
        | .error st => .next ((keep s st 0).proxyEnds site q p st 0)
        | .ok x => .next (s.onSite site fun t => { t with taken := tset none t.taken q.toNat (some x) })

/-! ## At the issuer (R127, R246) -/

/-- What an atomic asks for. -/
structure Atomic where
  isCas : Bool
  op    : AmoOp
  width : AmoW
  addr  : BitVec 64
  val   : BitVec 64
  cmp   : BitVec 64
  deriving DecidableEq, Repr

/-- The home a request goes to, as the acknowledgement list names it (R127). -/
def homeName (p : Packet) : Nat := if p.count = 0 then p.dst else 1048576 + p.count

/-- A request takes the core's next RID and joins the unanswered ones; it carries LOW, and so stands for an
acknowledgement to its home (R127). -/
def State.numbered (s : State) (p : Packet) : Packet × State :=
  let r := s.core.sh.rid
  let home := homeName p
  ({ p with rid := r, low := s.core.sh.unrep.headD r },
    s.onSh fun h => { h with rid := h.rid + 1, unrep := h.unrep ++ [r],
                             acks := h.acks.filter fun a => !(a.1 == p.dstPan && a.2.1 == home) })

/-- An earlier write of the core to a word is on its way on another path, or waits at a port: a later access to the
word by an atomic or a stream waits for it (R114). -/
def State.unsettled (s : State) (ws : List Nat) : Bool :=
  shareWord ws s.core.writing
    || (clusterKeys s.here).any fun k => (s.coreAt k).sh.port.any fun q => q.src == s.here && shareWord ws (q.words k)

/-- A new request of an atomic: the ninth waits while eight are unanswered (R127), and so does one whose word has an
earlier write on another path (R114); the core's late reads of its word come before it, and what was read ahead of the word is
dropped (R115). -/
def State.newRequest (s : State) (p : Packet) : Host.Outcome State Fault Refusal :=
  if decide (8 ≤ s.core.sh.unrep.length) || s.unsettled p.place then s.held
  else
    let (p, t) := (s.takeWords p.place).numbered p
    (t.forgetAhead p.dst p.place).request p

/-- An atomic's packet. -/
def State.atomicPacket (s : State) (x : Atomic) (d : Dest) (addr : BitVec 64) : Packet :=
  { s.packet .amo d with
    addr := addr, val := x.val, cmp := x.cmp, op := x.op, isCas := x.isCas, width := x.width }

/-- Completion of an atomic with a status and old value, which may be poisoned: gd, or the trap (R88, R246). -/
def State.atomicDone (s : State) (d : GR) (addr : BitVec 64) (st : BitVec 8) (old : BitVec 64) (q : Bool) :
    Host.Outcome State Fault Refusal :=
  match replyCause st with
  | some c => s.trapped c addr
  | none => .next ((s.setG d old q).commit 8)

/-- A refused far atomic: the next back-off step, or REFUSED after step 6 (R302). -/
def State.refuseAtomic (s : State) (addr : BitVec 64) : Host.Outcome State Fault Refusal :=
  let k := match s.core.sh.backoff with
    | some (k, _) => k + 1
    | none => 0
  if 6 < k then (s.onSh fun h => { h with backoff := none }).trapped .refused addr
  else (s.onSh fun h => { h with backoff := some (k, s.clock.ticks + backoffTicks s.rclk k) }).held

/-- A far atomic meets a fault: it waits on a record, or is refused (R301, R302). -/
def State.faultAtomic (s : State) (q : Faulter) (perm : Bool) (addr : BitVec 64) : Host.Outcome State Fault Refusal :=
  if s.outOfTurn q perm then s.held
  else
    match s.faultRecord q perm with
    | some (_, s) => s.held
    | none => s.refuseAtomic addr

/-- A far atomic translates at issue and goes to its proxy core (R129, R246, R301). -/
def State.farAtomic (s : State) (x : Atomic) : Host.Outcome State Fault Refusal :=
  let va := x.addr.toNat % 2 ^ 57
  let q : Faulter := ⟨siteOf s.here, s.core.ctl.dom, va, permAll, .atomic s.here, s.here, s.core.ctl.slot, 0⟩
  let (r, s) := s.translate s.here s.core.ctl.dom va permAll
  match r with
  | .ok fpa =>
    let s := s.onSh fun h => { h with backoff := none }
    let home := siteNode (fpaSite fpa)
    if !(s.served fpa && s.routed s.core.ctl.gid 0 s.here home) then s.trapped .hole x.addr
    else s.newRequest { s.atomicPacket x ⟨0xFF, home, 0⟩ (BitVec.ofNat 64 fpa) with count := fpaSite fpa + 1 }
  | .bad => (s.onSh fun h => { h with backoff := none }).trapped .page x.addr
  | .migrating | .stalled => s.held
  | .notMapped => s.faultAtomic q false x.addr
  | .perm => s.faultAtomic q true x.addr

/-- A far atomic at issue: it waits for its fault record or its back-off, else translates (R301,
R302). -/
def State.farStep (s : State) (x : Atomic) : Host.Outcome State Fault Refusal :=
  let n := siteOf s.here
  match s.recordOf n (.atomic s.here) with
  | some (i, r) =>
    match s.recState r with
    | .pending => s.held
    | .failed => ((s.deliverRec n i (.atomic s.here)).onSh fun h => { h with backoff := none }).trapped .page x.addr
    | .resolved | .free => (s.deliverRec n i (.atomic s.here)).farAtomic x
  | none =>
    match s.core.sh.backoff with
    | some (_, due) => if s.clock.ticks < due then s.held else s.farAtomic x
    | none => s.farAtomic x

/-- An atomic of the selected core: the local word at once, any other as a request (R246). -/
def State.atomic (s : State) (d : GR) (x : Atomic) : Host.Outcome State Fault Refusal :=
  if x.addr.toNat % x.width.bytes ≠ 0 then s.trapped .align x.addr
  else
    match s.rpcFor .amo with
    | some r =>
      match r.reply with
      | none => s.held
      | some (st, old) => s.endRpc.atomicDone d x.addr st old r.pois
    | none =>
      if isFar x.addr then
        if x.addr.extractLsb' 57 5 ≠ 0 then s.trapped .bounds x.addr else s.farStep x
      else
        match s.resolve x.addr with
        | none => s.trapped .bounds x.addr
        | some t =>
          if s.deadTarget 0 t then s.trapped .hole x.addr
          else if t.panel = 0xFF ∧ t.key = s.here then
            let p := s.atomicPacket x t x.addr
            if s.unsettled p.place then s.held
            else
              let (st, old, s) := s.atomicAt s.here p
              (s.output 1).atomicDone d x.addr st old false
          else s.newRequest (s.atomicPacket x t x.addr)

/-- The atomic at the program counter is under way: its request is out, or it waits on a fault record or a back-off. Its operands were
looked at when it issued (R89, R226, R301). -/
def State.atomicOpen (s : State) : Bool :=
  (s.rpcFor .amo).isSome || (s.recordOf (siteOf s.here) (.atomic s.here)).isSome || s.core.sh.backoff.isSome

/-- `AMO` (R246, R247). -/
def execAmo (d a b : GR) (w : AmoW) (o : AmoOp) (s : State) : Host.Outcome State Fault Refusal :=
  if (s.gp a || s.gp b) && !s.atomicOpen then s.trapped .poison 0
  else s.atomic d ⟨false, o, w, s.gv a, s.gv b, 0⟩

/-- `CAS`: gc is the expected word (R246, R247). -/
def execCas (d a b c : GR) (w : AmoW) (s : State) : Host.Outcome State Fault Refusal :=
  if (s.gp a || s.gp b || s.gp c) && !s.atomicOpen then s.trapped .poison 0
  else s.atomic d ⟨true, .swap, w, s.gv a, s.gv b, s.gv c⟩

/-- Send the outstanding request again, with the same RID (R127). -/
def State.resend (s : State) (r : Rpc) : State :=
  let p := { r.req with low := s.core.sh.unrep.headD r.req.rid }
  (s.launchPacket p).onSh fun h => { h with rpc := some { r with req := p, sent := s.clock.ticks, busyAt := none } }

/-! ## Bursts of ORDERED transfers (R125, R127, R241) -/

/-- Operation of a code (R156, R239). -/
def AmoOp.ofCode : Nat → AmoOp
  | 0 => .add | 1 => .swap | 2 => .and | 3 => .or | 4 => .xor | 5 => .min | 6 => .max | 7 => .minn | _ => .maxn

/-- The place a near address on another panel names (R30). -/
def peerDest (a : Nat) : Dest :=
  ⟨BitVec.ofNat 8 (a / 2 ^ 48), keyOf (a / 2 ^ 39 % 512) (a / 2 ^ 31 % 256), a % 262144⟩
/-- The request that carries a burst of a stream slot to its home. -/
def State.burstPacket (s : State) (k : BitVec 2) (t : Stream) (f : Flight) : Packet :=
  let body := BitVec.ofNat 512 (f.words.foldr (fun w n => w.1 + 2 ^ 64 * n) 0)
  let aux := BitVec.ofNat 64 (f.words.foldr (fun w n => (if w.2 then 1 else 0) + 2 * n) 0)
  let p (d : Dest) (addr count : Nat) : Packet :=
    { s.packet .amo d with
      flits := f.words.length, body := body, aux := aux, op := AmoOp.ofCode t.op.toNat, rid := f.rid,
      width := if t.w then .b64 else .b32, slot := k.setWidth 4, alloc := t.serial, addr := BitVec.ofNat 64 addr,
      count := count, low := s.core.sh.unrep.headD f.rid }
  match f.dest with
  | .near n off => p ⟨0xFF, n, off⟩ off 0
  | .far a => p ⟨0xFF, siteNode (fpaSite a), 0⟩ a (fpaSite a + 1)
  | .peer a => p (peerDest a) a 0

/-- Change the bursts in flight of a stream. -/
def Stream.onFly (t : Stream) (f : List Flight → List Flight) : Stream :=
  { t with legs := t.legs.map fun l => { l with fly := f l.fly } }
/-- The request of a burst of a transfer that is among the given RIDs. -/
def Packet.burstOf (p : Packet) (here : Nat) (k : BitVec 2) (serial : Nat) (rids : List (BitVec 16)) : Bool :=
  p.kind == .amo && p.isBurst && p.srcPan == 0xFF && p.src == here && p.slot == k.setWidth 4 && p.alloc == serial && rids.contains p.rid
/-- Requests taken out of the network, the ports, the panel links and the proxy queues: they are not performed (R304). -/
def State.dropRequests (s : State) (f : Packet → Bool) : State :=
  let keep (l : List Packet) : List Packet := l.filter fun p => !(f p)
  { s with net := keep s.net, queued := keep s.queued, out := keep s.out
           sites := tmap Site.reset (fun t =>
             { t with proxy := tmap [] keep t.proxy
                      taken := t.taken.filter fun e => !((tget [] t.proxy e.1).head?.any f) }) s.sites }
/-- The ORDERED bursts with the given RIDs of a stream slot are voided: their requests are no longer awaited, and one that its
home has not performed is not performed (R304). -/
def State.voidRequests (s : State) (k : BitVec 2) (serial : Nat) (rids : List (BitVec 16)) : State :=
  if rids.isEmpty then s
  else
    (s.onSh fun h => { h with unrep := h.unrep.filter fun r => !(rids.contains r) }).dropRequests
      fun p => p.burstOf s.here k serial rids

/-- The ORDERED bursts that are due are sent again, with their RID (R127). -/
def State.resendBursts (s : State) (due : Flight → Bool) : State :=
  (List.range 4).foldl (fun (s : State) i =>
    let k : BitVec 2 := BitVec.ofNat 2 i
    let t := bget s.core.sh.stream k
    if t.cls ≠ .ordered then s
    else
      let l : List Flight := t.flying.filter due
      let again (f : Flight) : Flight := if due f then { f with sent := s.clock.ticks, busyAt := none } else f
      let u : Stream := t.onFly fun fs => fs.map again
      if l.isEmpty then s
      else (l.foldl (fun (s : State) f => s.launchPacket (s.burstPacket k t f)) s).onSh fun h =>
        { h with stream := bset h.stream k u }) s

/-- ATOMIC_RESEND: no reply within 2^16 core cycles (R127). -/
def execAtomicResend (s : State) : Host.Outcome State Fault Refusal :=
  let late (sent : Nat) : Bool := decide (sent + s.cycleTicks s.here 65536 ≤ s.clock.ticks)
  if !s.tileUp then .next s
  else
  let s := s.resendBursts fun f => f.busyAt.isNone && late f.sent
  match s.rpcFor .amo with
  | none => .next s
  | some r => .next (if r.reply = none ∧ r.busyAt = none ∧ late r.sent then s.resend r else s)

/-- ATOMIC_BUSY_RESEND: 64 core cycles after a BUSY reply (R127). -/
def execAtomicBusyResend (s : State) : Host.Outcome State Fault Refusal :=
  let late (t : Option Nat) : Bool :=
    match t with
    | some t => decide (t + s.cycleTicks s.here 64 ≤ s.clock.ticks)
    | none => false
  if !s.tileUp then .next s
  else
  let s := s.resendBursts fun f => late f.busyAt
  match s.rpcFor .amo with
  | none => .next s
  | some r => .next (if late r.busyAt then s.resend r else s)

/-- A row of a source takes a LOW (R127, R128). -/
def lowerRow (rows : List CacheRow) (pan : BitVec 8) (src : Nat) (low : BitVec 16) : List CacheRow :=
  mapFirst (fun r => r.panel == pan && r.src == src) (fun r => { r with low := low }) rows
/-- An acknowledgement reaches its home: the row of its source there takes LOW (R127, R128). A tile that is not LIVE receives no
packet (R339). -/
def State.takeAck (s : State) (pan : BitVec 8) (src home : Nat) (low : BitVec 16) : State :=
  if !(s.siteLive (if home < 1048576 then siteOf home else home - 1048577)) then s
  else if home < 1048576 then s.onNode home fun q => { q with cache := lowerRow q.cache pan src low }
  else s.onSite (home - 1048577) fun t => { t with pcache := lowerRow t.pcache pan src low }

/-- LOW_ACKNOWLEDGEMENT: 1024 core cycles after the last answer of a home, unless a later request has
carried LOW (R127). LOW is the RID of the oldest unanswered request; without one it is the next RID (DESIGN CHOICE, log
entry 58). One for a home of another panel leaves on the panel links. It is an output of the core (R361). -/
def execLowAcknowledgement (n : Nat) (s : State) : Host.Outcome State Fault Refusal :=
  match s.core.sh.acks[n]? with
  | none => .next s
  | some (pan, home, t) =>
    if !s.tileUp ∨ s.clock.ticks < t + s.cycleTicks s.here 1024 then .next s
    else
      let low := s.core.sh.unrep.headD s.core.sh.rid
      let s := (s.onSh fun h => { h with acks := dropAt n h.acks }).output 1
      if pan = 0xFF then .next (s.takeAck 0xFF s.here home low)
      else .next (s.send { s.packet .lowAck ⟨pan, home, 0⟩ with low := low })

end Sys2Proof.Machine
end

