-- ==== Sys2Proof/Machine/Stream.lean ====
section
/-! DEFINITION. Streams (R125, R239-R244, R304): `SOPEN`, `SCTL`, `SWAIT`, the legs of a transfer and
its completion. The engine moves a transfer by single moves: it begins a leg, reads a word, lands one, sends a burst, or a
word of a burst in flight is performed at its home. -/

namespace Sys2Proof.Machine

/-! ## Checks of a descriptor (R239, R240) -/

/-- The address names the issuing core's own scratchpad (R239). -/
def State.ownEnd (s : State) (a : BitVec 64) : Bool :=
  !(isFar a) && match s.resolve a with
    | some d => d.panel == 0xFF && d.key == s.here
    | none => false

/-- A far address with bits 61:57 zero, or a near one that passes checks 1-3 of R31. -/
def State.goodEnd (s : State) (a : BitVec 64) : Bool :=
  if isFar a then a.extractLsb' 57 5 == 0 else (s.resolve a).isSome

/-- A near end holds len bytes from its offset on (check 8). -/
def State.fits (s : State) (a : BitVec 64) (len : Nat) : Bool :=
  if isFar a then true
  else match s.resolve a with
    | some d => decide (d.off + len ≤ nodeSize d.key)
    | none => false

/-- Checks 6-8 of R240 on the two ends. -/
def State.endsFault (s : State) (src dst : BitVec 64) (len : Nat) : Option (Cause × BitVec 64) :=
  if !(s.goodEnd src) then some (.bounds, src)
  else if !(s.goodEnd dst) then some (.bounds, dst)
  else if !(s.ownEnd src || s.ownEnd dst) then some (.bounds, src)
  else if src.extractLsb' 0 3 ≠ 0 then some (.align, src)
  else if dst.extractLsb' 0 3 ≠ 0 then some (.align, dst)
  else if !(s.fits src len) then some (.bounds, src)
  else if !(s.fits dst len) then some (.bounds, dst)
  else none

/-- Check 9 of R240. -/
def State.flagFault (s : State) (a : BitVec 64) : Option (Cause × BitVec 64) :=
  if a = 0 then none
  else if isFar a ∨ (s.resolve a).isNone then some (.bounds, a)
  else if a.extractLsb' 0 3 ≠ 0 then some (.align, a)
  else none

/-- Field of n bits from bit i of a descriptor. -/
def sfield (d : BitVec 512) (i n : Nat) : BitVec n := d.extractLsb' i n

/-- Check 5 of R240. -/
def State.descFields (s : State) (d : BitVec 512) (c : SClass) : Bool :=
  let len := (sfield d 192 32).toNat
  let op := (sfield d 232 4).toNat
  sfield d 320 192 == 0 && sfield d 237 3 == 0 && sfield d 227 5 == 0 && decide ((sfield d 224 3).toNat ≤ 6) &&
    decide (8 ≤ len) && len % 8 == 0 &&
    (match c with
      | .ordered => decide (op ≤ 8) && !(s.ownEnd (sfield d 64 64))
      | .stream | .random => op == 0 && !(d.getLsbD 236))

/-- The lowest-numbered FREE stream slot. -/
def Core.freeStream (c : Core) : Option Nat :=
  (List.range 4).find? fun k => (c.sh.stream[k]?.map (·.st)) == some .free

/-- A stream slot of the selected core. -/
def State.stream (s : State) (k : BitVec 2) : Stream := bget s.core.sh.stream k
/-- Replace a stream slot of the selected core. -/
def State.setStream (s : State) (k : BitVec 2) (t : Stream) : State :=
  s.onSh fun h => { h with stream := bset h.stream k t }

/-- The transfer a descriptor opens (R240); its serial number keeps answers of an earlier one from it. -/
def State.newStream (s : State) (d : BitVec 512) (w : WC) (c : SClass) : Stream :=
  { Stream.free with
    st := .active, owner := s.core.ctl.slot, alloc := s.slot.alloc, wc := w, cls := c, src := sfield d 0 64,
    dst := sfield d 64 64, flag := sfield d 128 64, len := sfield d 192 32, legl := sfield d 224 3,
    op := sfield d 232 4, w := d.getLsbD 236, seq := sfield d 240 16, sstep := sfield d 256 32,
    dstep := sfield d 288 32, serial := s.core.sh.opened }

/-- `SOPEN` (R240). -/
def execSopen (d a : GR) (w : WC) (c : SClass) (s : State) : Host.Outcome State Fault Refusal :=
  let addr := s.gv a
  s.finish 4 (s.consume a (s.checkedOwn addr 1 fun off =>
    if off % 64 ≠ 0 then .trap .align addr
    else if s.anyPoison (nodeBase s.here + off) 64 then .trap .poison 0
    else
      let x : BitVec 512 := BitVec.ofNat 512 (s.readNat (nodeBase s.here + off) 64)
      if !(s.descFields x c) then .trap .bounds addr
      else
        match s.endsFault (sfield x 0 64) (sfield x 64 64) (sfield x 192 32).toNat with
        | some (k, v) => .trap k v
        | none =>
          match s.flagFault (sfield x 128 64) with
          | some (k, v) => .trap k v
          | none =>
            match s.core.freeStream with
            | none => .ok (s.status d (-1))
            | some k =>
              .ok (((s.setStream (BitVec.ofNat 2 k) (s.newStream x w c)).onSh fun h =>
                { h with opened := h.opened + 1 }).status d (BitVec.ofNat 64 k))))

/-! ## Ends of a transfer (R242) -/

/-- A record a leg waited on is no longer joined by it. -/
def State.leaveRecord (s : State) (k : BitVec 2) : State :=
  match (s.stream k).wait with
  | .record n i => s.deliverRec n i (.stream s.here k)
  | .none | .migrating _ | .refused _ _ => s

/-- A stream without what its legs had in hand: reads not sent, and bursts in flight, which are voided. -/
def State.voidAll (s : State) (k : BitVec 2) : State :=
  let t := s.stream k
  let rids := if t.cls = .ordered then t.flying.map (·.rid) else []
  (s.setStream k { t with legs := [], redo := [] }).voidRequests k t.serial rids

/-- STREAM_FAULT: a slot becomes FAULTED with its cause and increments its counter; it starts nothing further (R242). -/
def State.faultStream (s : State) (k : BitVec 2) (cause : BitVec 5) : State :=
  let s := (s.leaveRecord k).voidAll k
  let t := s.stream k
  let s := s.setStream k { t with st := .faulted, cause := cause, wait := .none }
  { s with core := s.core.bump t.owner t.alloc t.wc }

/-- What stands in the way of a leg. -/
inductive LegStop
  | fault (cause : BitVec 5)
  | wait (perm : Bool) (va : Nat)
  | migrating (va : Nat)
  /-- The tile's triad can issue no transaction (R350): the move is made later. -/
  | later
  deriving DecidableEq, Repr

/-- The near end of an access: the checks of its home (R31, R242). -/
def State.nearEnd (s : State) (a : BitVec 64) (lc : BitVec 2) : Except LegStop End :=
  match s.resolve a with
  | none => .error (.fault Cause.bounds.num)
  | some d =>
    if d.panel ≠ 0xFF then
      if s.leaves s.core.ctl.gid s.core.ctl.dom lc s.here d.panel then .ok (.peer a.toNat) else .error (.fault Cause.hole.num)
    else if d.key = s.here then .ok (.near d.key d.off)
    else if !(s.arrives s.core.ctl.gid lc s.here d.key) then .error (.fault Cause.hole.num)
    else
      match s.homeCheck s.core.ctl.dom d.key d.off 8 with
      | some c => .error (.fault c.num)
      | none => .ok (.near d.key d.off)

/-- SRC of a fault of the transfer (R302). -/
def Stream.faultSrc (t : Stream) (get : Bool) : BitVec 3 := if get then 1 else if t.cls = .ordered then 3 else 2
/-- Permissions its far end needs (R298). -/
def Stream.need (t : Stream) (get : Bool) : BitVec 3 :=
  if get then permRD else if t.cls = .ordered then permAll else permWR

/-- The FPA of a far address of a leg: by the unit of 64 KiB the leg has translated, else by a translation, which it
keeps (R296, R301). -/
def State.farPlace (s : State) (t : Stream) (l : Leg) (va : Nat) : Except LegStop (Nat × Leg) × State :=
  match l.units.find? (·.1 == va / 65536) with
  | some u => (.ok (u.2 + va % 65536, l), s)
  | none =>
    let (r, s) := s.translate s.here s.core.ctl.dom va (t.need (s.ownEnd t.dst))
    match r with
    | .ok a => (.ok (a, { l with units := l.units ++ [(va / 65536, a - va % 65536)] }), s)
    | .notMapped => (.error (.wait false va), s)
    | .perm => (.error (.wait true va), s)
    | .migrating => (.error (.migrating va), s)
    | .bad => (.error (.fault Cause.page.num), s)
    | .stalled => (.error .later, s)

/-- An access of a leg at an address: its end, and the leg with what it has translated. -/
def State.legEnd (s : State) (t : Stream) (l : Leg) (a : BitVec 64) (lc : BitVec 2) : Except LegStop (End × Leg) × State :=
  if isFar a then
    match s.farPlace t l (a.toNat % 2 ^ 57) with
    | (.ok (f, l), s) => (.ok (.far f, l), s)
    | (.error e, s) => (.error e, s)
  else
    match s.nearEnd a lc with
    | .ok e => (.ok (e, l), s)
    | .error e => (.error e, s)

/-- What an access of a lane class at its home ends with, when it is not performed: HOLE where no port serves it or no route leads to
the port; a CXL error gives a cause that the spec leaves open (R242, R317, R328, R329). -/
def State.endFault (s : State) (e : End) (lc : BitVec 2) : Option (BitVec 5) :=
  match e with
  | .near _ _ => none
  | .far f =>
    if !(s.served f && s.routed s.core.ctl.gid lc s.here (siteNode (fpaSite f))) then some Cause.hole.num else if s.lineError f then some (Config.cxlCause s.draws) else none
  | .peer _ =>
    let n := Config.peerOutcome s.draws
    if 3 ≤ n ∧ n ≤ 5 then some (BitVec.ofNat 5 n) else none

/-- The word at an end: its value and whether it carries poison. -/
def State.endWord (s : State) (e : End) : Nat × Bool :=
  match e with
  | .near k off => (s.readNat (nodeBase k + off) 8, s.poisoned (nodeBase k + off))
  | .far f => (s.readNat (farKey f) 8, s.linePoison f)
  | .peer a => (leNat ((List.range 8).map fun j => Config.peerByte s.draws (a + j)), false)

/-! ## Voided legs (R301, R302, R304) -/

/-- Units of 64 KiB of VA the far end of a leg touches; none without a far end. -/
def State.legUnits (s : State) (t : Stream) (pos : Nat) : List Nat :=
  let a := if s.ownEnd t.dst then t.src else t.dst
  if !(isFar a) then []
  else
    let va := (a.toNat + pos) % 2 ^ 57
    (List.range ((va + t.bytesAt pos - 1) / 65536 + 1 - va / 65536)).map (va / 65536 + ·)
/-- A leg has translated every page it touches. -/
def State.translated (s : State) (t : Stream) (l : Leg) : Bool :=
  (s.legUnits t l.pos).all fun u => l.units.any (·.1 == u)
/-- A number put into its place in a rising list. -/
def putRising (n : Nat) : List Nat → List Nat
  | [] => [n]
  | m :: r => if n < m then n :: m :: r else if n = m then m :: r else m :: putRising n r

/-- The leg that starts at a position is voided, with its partner when that has not translated all its pages: what has
completed stays, and both run again from their first byte (R304). -/
def State.voidLeg (s : State) (k : BitVec 2) (pos : Nat) : State :=
  let t := s.stream k
  let stays (l : Leg) : Bool := l.pos != pos && s.translated t l
  let gone := t.legs.filter fun l => !(stays l)
  let rids := if t.cls = .ordered then gone.flatMap fun l => l.fly.map (·.rid) else []
  let redo := (gone.map (·.pos)).foldl (fun l p => putRising p l) t.redo
  (s.setStream k (Stream.settle { t with legs := t.legs.filter stays, redo := redo })).voidRequests k t.serial rids

/-- A leg that cannot go on: the slot faults, or the leg is voided and waits on a record, a migration or a back-off
(R242, R301, R302). -/
def State.stopLeg (s : State) (k : BitVec 2) (pos : Nat) (x : LegStop) : State :=
  match x with
  | .fault c => s.faultStream k c
  | .later => s
  | .migrating va =>
    let s := s.voidLeg k pos
    s.setStream k { s.stream k with wait := .migrating va }
  | .wait perm va =>
    let s := s.voidLeg k pos
    let t := s.stream k
    let get := s.ownEnd t.dst
    let q : Faulter := ⟨siteOf s.here, s.core.ctl.dom, va, t.need get, .stream s.here k, s.here, t.owner, t.faultSrc get⟩
    if s.outOfTurn q perm then s
    else
    match s.faultRecord q perm with
    | some (i, u) => u.setStream k { t with wait := .record (siteOf s.here) i }
    | none =>
      s.setStream k { t with wait := .refused t.tries (s.clock.ticks + backoffTicks s.rclk t.tries), tries := min 6 (t.tries + 1) }

/-! ## The moves of a transfer (R125, R241) -/

/-- One thing the engine does for a transfer: begin the next leg; of a leg, by its place, read a word, put a word that is read
into the issuing core's own scratchpad, send the next burst, or have a word of a burst in flight performed. -/
inductive Move
  | begin
  | read (l w : Nat)
  | put (l w : Nat)
  | emit (l : Nat)
  | land (l f w : Nat)
  deriving DecidableEq, Repr

/-- Where the next leg starts: a voided one that runs again, else the first that never began. -/
def Stream.nextPos (t : Stream) : Option Nat :=
  match t.redo with
  | p :: _ => some p
  | [] => if t.next < t.len.toNat then some t.next else none
/-- A leg may begin: nothing is waited for, fewer than two are in flight, and every write of the leg two before it has
completed (R241). -/
def Stream.mayBegin (t : Stream) : Bool :=
  t.wait == .none && decide (t.legs.length < 2) &&
    match t.nextPos with
    | some p => decide (p < t.pos + 2 * t.legBytes)
    | none => false
/-- The words of burst b of a leg: the number of its first, and how many. -/
def Stream.burst (t : Stream) (pos b : Nat) : Nat × Nat :=
  let d := t.lead pos
  let lo := 4 * b - d
  (lo, min (t.bytesAt pos / 8) (4 * b + 4 - d) - lo)
/-- The words of the next burst of a leg, when they are all read. -/
def Stream.nextBurst (t : Stream) (l : Leg) : Option (List (Nat × Bool)) :=
  if l.sent = t.bursts l.pos then none
  else
    let (lo, n) := t.burst l.pos l.sent
    (List.range n).mapM fun i => (l.got.find? (·.1 == lo + i)).map (·.2)
/-- Places of a leg's words in memory at one end, when the end is known without a translation. -/
def State.knownWords (s : State) (l : Leg) (a : BitVec 64) (n : Nat) : List Nat :=
  if isFar a then
    let va := a.toNat % 2 ^ 57
    match l.units.find? (·.1 == va / 65536) with
    | some u => wordsOf (farKey (u.2 + va % 65536)) (8 * n)
    | none => []
  else
    match s.resolve a with
    | some d => wordsOf (if d.panel = 0xFF then nodeBase d.key + d.off else peerBase + a.toNat) (8 * n)
    | none => []
/-- A leg stands before the others of its transfer. -/
def Stream.first (t : Stream) (more : Leg → Bool) (l : Leg) : Bool :=
  more l && t.legs.all fun g => !(more g) || decide (l.pos ≤ g.pos)

/-- Words the engine may read next: any of its legs in a STREAM transfer, else the next of the transfer (R125); none whose
place has an earlier write of the core on its way (R114). -/
def State.readMoves (s : State) (t : Stream) (i : Nat) (l : Leg) : List Move :=
  let open? (w : Nat) : Bool := !(s.unsettled (s.knownWords l (t.src + BitVec.ofNat 64 (l.pos + 8 * w)) 1))
  let ws := if t.cls = .stream then l.reads else if t.first (fun g => !g.reads.isEmpty) l then l.reads.take 1 else []
  (ws.filter open?).map (.read i)
/-- Words of a GET that may land: any of those read, in any order (R123, R125); none whose place has an earlier write of the core
on its way (R114). -/
def State.putMoves (s : State) (t : Stream) (i : Nat) (l : Leg) : List Move :=
  (l.got.filter fun g => !(s.unsettled (s.knownWords l (t.dst + BitVec.ofNat 64 (l.pos + 8 * g.1)) 1))).map fun g => .put i g.1
/-- The next burst of a leg may leave: its words are read, no earlier write of the core to them is on its way (R114), and in
an ORDERED transfer every burst before it has completed, and fewer than eight requests are unanswered (R125, R127). -/
def State.emitMoves (s : State) (t : Stream) (i : Nat) (l : Leg) : List Move :=
  match t.nextBurst l with
  | none => []
  | some ws =>
    let a := t.dst + BitVec.ofNat 64 (l.pos + 8 * (t.burst l.pos l.sent).1)
    let turn := t.cls != .ordered
      || (t.flying.isEmpty && t.first (fun g => g.sent != t.bursts g.pos) l && decide (s.core.sh.unrep.length < 8))
    if turn && !(s.unsettled (s.knownWords l a ws.length)) then [.emit i] else []
/-- The moves open to a transfer. -/
def State.moves (s : State) (k : BitVec 2) : List Move :=
  let t := s.stream k
  (if t.mayBegin then [.begin] else []) ++
    (t.legs.mapIdx fun i l =>
      s.readMoves t i l ++ (if s.ownEnd t.dst then s.putMoves t i l else s.emitMoves t i l)
        ++ (if t.cls = .ordered then []
            else (l.fly.mapIdx fun j f => (List.range f.words.length).map (.land i j)).flatten)).flatten

/-- A leg of a stream. -/
def Stream.leg (t : Stream) (i : Nat) : Leg := t.legs[i]?.getD ⟨0, [], [], [], 0, []⟩
/-- Replace a leg of a stream. -/
def State.setLeg (s : State) (k : BitVec 2) (i : Nat) (l : Leg) : State :=
  let t := s.stream k
  s.setStream k (Stream.settle { t with legs := t.legs.set i l })

/-- A leg has translated one more page; once it has all of them, its refusals in a row are over (R302). -/
def State.settleTries (s : State) (k : BitVec 2) (old new : Leg) : State :=
  if old.units.length < new.units.length && s.translated (s.stream k) new then s.setStream k { s.stream k with tries := 0 } else s

/-- The next leg begins: it translates the page of its first byte; a fault voids it (R241, R296, R301). -/
def State.beginLeg (s : State) (k : BitVec 2) : State :=
  let t := s.stream k
  match t.nextPos with
  | none => s
  | some pos =>
    let n := t.bytesAt pos
    let l : Leg := ⟨pos, [], [], List.range (n / 8), 0, []⟩
    let u : Stream := match t.redo with
      | _ :: r => { t with redo := r }
      | [] => { t with next := pos + n }
    let a := if s.ownEnd t.dst then t.src else t.dst
    let go (s : State) (l' : Leg) : State :=
      (s.setStream k (Stream.settle { u with legs := u.legs ++ [l'] })).settleTries k l l'
    if isFar a then
      match s.farPlace t l ((a.toNat + pos) % 2 ^ 57) with
      | (.ok (_, l), s) => go s l
      | (.error .later, s) => s
      | (.error x, s) => (s.setStream k (Stream.settle { u with legs := u.legs ++ [l] })).stopLeg k pos x
    else go s l

/-- Where an access travels to on the mesh. -/
def End.node : End → Option Nat
  | .near k _ => some k
  | .far a => some (siteNode (fpaSite a))
  | .peer _ => none
/-- A word of a leg is read (R125, R241); of another node it is asked for by a packet, an output of the core (R93, R361). One whose place, now known, has an earlier write of the core on its way is read later
(R114). -/
def State.readWord (s : State) (k : BitVec 2) (i w : Nat) : State :=
  let t := s.stream k
  let l := t.leg i
  match s.legEnd t l (t.src + BitVec.ofNat 64 (l.pos + 8 * w)) 0 with
  | (.error x, s) => s.stopLeg k l.pos x
  | (.ok (e, l'), s) =>
    match s.endFault e 0 with
    | some c => s.faultStream k c
    | none =>
      if s.unsettled (e.words 1) then (s.setLeg k i l').settleTries k l l'
      else
        let s := if e.node == some s.here then s else s.output 1
        let x := s.endWord e
        let g : Leg := { l' with got := l'.got ++ [(w, x)], reads := l'.reads.filter (· != w) }
        let s := (s.setLeg k i g).settleTries k l l'
        s.setStream k { s.stream k with pois := t.pois || x.2 }

/-- A word that a GET has read lands in the issuing core's own scratchpad (R241). -/
def State.putOwn (s : State) (k : BitVec 2) (i w : Nat) : State :=
  let t := s.stream k
  let l := t.leg i
  match l.got.find? (·.1 == w), s.nearEnd (t.dst + BitVec.ofNat 64 (l.pos + 8 * w)) 2 with
  | none, _ => s
  | some _, .error x => s.stopLeg k l.pos x
  | some g, .ok e => (s.putWord t.owner e 0 g.2).setLeg k i { l with got := l.got.filter (·.1 != w) }

/-- The core's late reads of words it writes at an end come before the write, and what it has read ahead of them is dropped (R114,
R115). -/
def State.forgetEnd (s : State) (e : End) (n : Nat) : State :=
  let s := s.takeWords (e.words n)
  match e with
  | .near k _ => s.forgetAhead k (e.words n)
  | .far _ | .peer _ => s

/-- The next burst of a leg leaves: it is in flight, an ORDERED one as a request; one of another class for another panel ends as
that panel answers (log entry 15) (R112, R125, R127, R241). It is an output of the core (R361). One whose place, now known, has an
earlier write of the core on its way leaves later (R114). -/
def State.emitBurst (s : State) (k : BitVec 2) (i : Nat) : State :=
  let t := s.stream k
  let l := t.leg i
  match t.nextBurst l with
  | none => s
  | some ws =>
    let (lo, n) := t.burst l.pos l.sent
    let lc : BitVec 2 := if t.cls = .ordered then 0 else 2
    match s.legEnd t l (t.dst + BitVec.ofNat 64 (l.pos + 8 * lo)) lc with
    | (.error x, s) => s.stopLeg k l.pos x
    | (.ok (e, l'), s) =>
      let keep (g : Leg) (s : State) : State := (s.setLeg k i g).settleTries k l l'
      if s.unsettled (e.words n) then keep l' s
      else
        let s := s.forgetEnd e n
        let g : Leg :=
          { l' with got := l'.got.filter fun g => !(decide (lo ≤ g.1) && decide (g.1 < lo + n)), sent := l'.sent + 1 }
        let fly (f : Flight) (s : State) : State := keep { g with fly := g.fly ++ [f] } s
        let f : Flight := ⟨l'.sent, ws, e, 0, s.clock.ticks, none⟩
        if t.cls = .ordered then
          let (p, u) := s.numbered (s.burstPacket k t f)
          (fly { f with rid := p.rid } u).launchPacket p
        else
          let s := s.output 1
          match e with
          | .peer _ =>
            match s.endFault e lc with
            | some c => s.faultStream k c
            | none => keep g s
          | .near _ _ | .far _ => fly f s

/-- A word of a burst in flight is performed at its home, or the burst ends there with a fault (R112, R242). -/
def State.landBurst (s : State) (k : BitVec 2) (i j w : Nat) : State :=
  let t := s.stream k
  let l := t.leg i
  match l.fly[j]? with
  | none => s
  | some f =>
    let fault : Option (BitVec 5) := match f.dest with
      | .near d off =>
        if !(s.arrives s.core.ctl.gid 2 s.here d) then some Cause.hole.num
        else (s.homeCheck s.core.ctl.dom d off 8).map (·.num)
      | e => s.endFault e 2
    match fault, f.words[w]? with
    | some c, _ => s.faultStream k c
    | none, none => s
    | none, some x =>
      (s.putWord t.owner f.dest w x).setLeg k i { l with fly := l.fly.take j ++ f.without w ++ l.fly.drop (j + 1) }

/-- A move of a transfer is made. -/
def State.makeMove (s : State) (k : BitVec 2) (m : Move) : State :=
  match m with
  | .begin => s.beginLeg k
  | .read i w => s.readWord k i w
  | .put i w => s.putOwn k i w
  | .emit i => s.emitBurst k i
  | .land i j w => s.landBurst k i j w

/-- STREAM_LEG_START: the engine makes one of the moves open to the transfer, which one is free (R125, R241; log entry
16). -/
def execStreamLegStart (k : BitVec 2) (s : State) : Host.Outcome State Fault Refusal :=
  if (s.stream k).st ≠ .active ∨ !s.tileUp then .next s
  else
    let l := s.moves k
    match l[Config.streamChoice s.draws % l.length]? with
    | some m => .next (s.makeMove k m)
    | none => .next s

/-- The answer to an ORDERED burst reaches its stream: BUSY starts the wait of R127; another one completes the burst, whose words may
have landed poisoned, or faults the slot (R127, R242). An answer to an earlier transfer of the slot finds none. -/
def State.burstReplied (s : State) (k : BitVec 2) (p : Packet) : State :=
  let t := s.stream k
  let mine (f : Flight) : Bool := f.rid == p.rid
  if t.serial ≠ p.alloc ∨ !(t.flying.any mine) then s
  else if p.status = 1 then
    s.setStream k (t.onFly fun fs => fs.map fun f => if mine f then { f with busyAt := some s.clock.ticks } else f)
  else if p.status = 0 then s.setStream k (Stream.settle { t.onFly (fun fs => fs.filter fun f => !(mine f)) with pois := t.pois || p.part })
  else s.faultStream k (match replyCause p.status with | some c => c.num | none => Cause.amofail.num)

/-- The outcome of the fault record a leg waits on (R303, R304). -/
def State.rewindRecord (s : State) (k : BitVec 2) (n i : Nat) : State :=
  let j : Joiner := .stream s.here k
  match if (s.faultAt n i).join.contains j then s.recState (s.faultAt n i) else .free with
  | .pending => s
  | .failed => s.faultStream k Cause.page.num
  | .resolved | .free => (s.deliverRec n i j).setStream k { s.stream k with wait := .none }

/-- The page a leg waits for is no longer in migration: its translation is tried (R301). -/
def State.migrationOver (s : State) (k : BitVec 2) (va : Nat) : Bool :=
  let t := s.stream k
  match (s.translate s.here s.core.ctl.dom va (t.need (s.ownEnd t.dst))).1 with
  | .migrating | .stalled => false
  | .ok _ | .notMapped | .perm | .bad => true

/-- LEG_REWIND: the record is settled, or the migration finished; the leg may run again from its first byte
(R304). A refusal's back-off ends in REFUSAL_RETRY. -/
def execLegRewind (k : BitVec 2) (s : State) : Host.Outcome State Fault Refusal :=
  let t := s.stream k
  if t.st ≠ .active ∨ !s.tileUp then .next s
  else
    match t.wait with
    | .none | .refused _ _ => .next s
    | .record n i => .next (s.rewindRecord k n i)
    | .migrating va => .next (if s.migrationOver k va then s.setStream k { t with wait := .none } else s)

/-- The flag word of a completed transfer (R123, R242). -/
def Stream.flagWord (t : Stream) : BitVec 64 := fieldAt (BitVec.ofBool t.pois) 17 ||| fieldAt t.seq 0

/-- A transfer is DONE and its counter counts (R242). -/
def State.doneStream (s : State) (k : BitVec 2) : State :=
  let t := s.stream k
  let s := s.setStream k { t with st := .done }
  { s with core := s.core.bump t.owner t.alloc t.wc }

/-- Every write of the last leg has completed. -/
def Stream.ended (t : Stream) : Bool :=
  t.legs.isEmpty && t.redo.isEmpty && decide (t.len.toNat ≤ t.next) && t.wait == .none

/-- STREAM_COMPLETION: the flag word, then DONE and the counter (R123, R242). Where the flag's home refuses the write the slot is FAULTED
with that cause (DESIGN CHOICE, log entry 88). -/
def execStreamCompletion (k : BitVec 2) (s : State) : Host.Outcome State Fault Refusal :=
  let t := s.stream k
  if t.st ≠ .active ∨ !t.ended ∨ !s.tileUp then .next s
  else if t.flag = 0 then .next (s.doneStream k)
  else
    match s.nearEnd t.flag 2 with
    | .error (.fault c) => .next (s.faultStream k c)
    | .error _ => .next s
    | .ok e =>
      if s.unsettled (e.words 1) then .next s
      else
        let u := s.forgetEnd e 1
        let u := if e.node == some s.here then u else u.output 1
        .next ((u.putWord t.owner e 0 (t.flagWord.toNat, false)).doneStream k)

/-- REFUSAL_RETRY: each refused agent of the selected core whose back-off has expired translates again;
a refused atomic does so when it is executed again (R302). -/
def State.retryStreams (s : State) : State :=
  (List.range 4).foldl (fun s i =>
    let k : BitVec 2 := BitVec.ofNat 2 i
    let t := s.stream k
    match t.st, t.wait with
    | .active, .refused _ due => if s.tileUp ∧ due ≤ s.clock.ticks then (s.setStream k { t with wait := .none }).beginLeg k else s
    | _, _ => s) s

/-! ## A site that leaves LIVE (R336, R337) -/

/-- Site an access goes to; none on another panel. -/
def End.site : End → Option Nat
  | .near k _ => some (siteOf k)
  | .far a => some (fpaSite a)
  | .peer _ => none
/-- Bursts in flight that are no requests of their own, with their core: those of STREAM and RANDOM transfers (R241). -/
def Core.bursts (c : Core) : List Flight :=
  c.sh.stream.toList.flatMap fun t => if t.cls = .ordered then [] else t.flying
/-- Bursts in flight on the panel, each with its core. -/
def State.bursts (s : State) : List (Nat × Flight) :=
  (s.core.bursts.map fun f => (s.here, f)) ++ s.peers.flatMap fun e => e.2.bursts.map fun f => (e.1, f)
/-- A transfer has a burst in flight to a node of a site. -/
def Stream.sendsTo (t : Stream) (n : Nat) : Bool :=
  t.st == .active && t.flying.any fun f => match f.dest with
    | .near k _ => siteOf k == n
    | .far _ | .peer _ => false
/-- A leg of a transfer is served by the CXL ports of a site: it has translated to them, and has reads or writes there to come or on
their way (R336 step 7). -/
def Stream.servedBy (t : Stream) (get : Bool) (n : Nat) : Bool :=
  t.st == .active && t.legs.any fun l =>
    (l.units.any fun u => fpaSite u.2 == n) &&
      (if get then !l.reads.isEmpty else l.sent != t.bursts l.pos || l.fly.any fun f => f.dest.site == some n)
/-- The transfers of the selected core that satisfy p end with HOLE. -/
def State.holeStreams (s : State) (p : State → Stream → Bool) : State :=
  (List.range 4).foldl (fun s i =>
    let k : BitVec 2 := BitVec.ofNat 2 i
    if p s (s.stream k) then s.faultStream k Cause.hole.num else s) s
/-- The transfers of every core that satisfy p end with HOLE. -/
def State.holeAll (s : State) (p : State → Stream → Bool) : State :=
  (s.here :: s.peers.map (·.1)).foldl (fun s k =>
    if (s.coreAt k).sh.stream.toList.any fun t => t.st == .active then s.atCore k fun s => s.holeStreams p else s) s

/-! ## `SCTL` and `SWAIT` (R243, R244) -/

/-- `SCTL` CLOSE (R243). -/
def execSctlClose (d : GR) (k : BitVec 2) (s : State) : Host.Outcome State Fault Refusal :=
  match (s.stream k).st with
  | .free => s.done d stDead 4
  | .active => s.done d stBusy 4
  | .faulted | .done => (s.setStream k Stream.free).done d stOk 4

/-- `SCTL` ABORT (R243). -/
def execSctlAbort (d : GR) (k : BitVec 2) (s : State) : Host.Outcome State Fault Refusal :=
  match (s.stream k).st with
  | .free => s.done d stDead 4
  | .active => (s.faultStream k 0).done d stOk 4
  | .faulted | .done => s.done d stOk 4

/-- A transfer advanced (R243). -/
def Stream.advance (t : Stream) : Stream :=
  { t with st := .active, src := t.src + t.sstep.signExtend 64, dst := t.dst + t.dstep.signExtend 64,
           seq := t.seq + 1, pos := 0, pois := false, cause := 0, wait := .none, tries := 0, legs := [], redo := [],
           next := 0 }

/-- `SCTL` ADVANCE (R243). -/
def execSctlAdvance (d : GR) (k : BitVec 2) (s : State) : Host.Outcome State Fault Refusal :=
  let t := s.stream k
  match t.st with
  | .free => s.done d stDead 4
  | .active | .faulted => s.done d stBusy 4
  | .done =>
    let u := t.advance
    match s.endsFault u.src u.dst u.len.toNat with
    | some _ => s.done d stBounds 4
    | none =>
      ((s.setStream k { u with serial := s.core.sh.opened }).onSh fun h => { h with opened := h.opened + 1 }).done d stOk 4

/-- STATE code of a stream slot (R244). -/
def StreamSt.code : StreamSt → BitVec 2
  | .free => 0 | .active => 1 | .faulted => 2 | .done => 3

/-- The snapshot of a stream slot (R244). -/
def Stream.word (t : Stream) : BitVec 64 :=
  fieldAt (BitVec.ofNat 32 t.pos) 32 ||| fieldAt t.owner 16
    ||| fieldAt (if t.st = .faulted then t.cause else 0) 8 ||| fieldAt t.st.code 0

/-- `SWAIT` (R244). -/
def execSwait (d : GR) (k : BitVec 2) (s : State) : Host.Outcome State Fault Refusal :=
  .next ((s.setG d (s.stream k).word false).commit 4)

end Sys2Proof.Machine
end

