-- ==== Sys2Proof/Machine/Arrive.lean ====
section
/-! DEFINITION. Packets arriving at cores and routers (R94-R101, R107, R110, R249, R251). An arrival
that is not enabled changes nothing (R7). -/

namespace Sys2Proof.Machine

/-- What a DATA packet meets at its seat: held, refused with a status, or queued (R94, R98). -/
inductive Landed
  | hold
  | refuse (status : BitVec 8)
  | late
  | queue (inRound : Bool)
  deriving DecidableEq, Repr

/-- R94 and R98 for a DATA packet. -/
def Seat.data (t : Seat) (p : Packet) : Landed :=
  let need := 1 + p.flits
  if t.cap < need then .refuse 8
  else if t.cap < t.used + need then .hold
  else
    let d := p.round - t.round
    if d = 0 then if t.fin then .late else .queue true
    else if d = 1 then .queue false
    else .late

/-- A core takes packets of a group: it is a core, and its `GRP.GID` is the header's (R43). -/
def State.seatOf (s : State) (p : Packet) : Option Nat :=
  let c := s.coreAt p.dst
  if isCore p.dst && c.ctl.gid == p.gid then c.seatFor p.chan p.lc else none

/-- DATA_ARRIVAL (R94, R95, R98). -/
def execDataArrival (n : Nat) (s : State) : Host.Outcome State Fault Refusal :=
  match s.arriving n with
  | none => .next s
  | some p =>
    if p.kind ≠ .data then .next s
    else if !(s.arrives p.gid p.lc p.entry p.dst) then .next (s.answered n p .reply 4)
    else
      match s.seatOf p with
      | none => .next (s.answered n p .reply 2)
      | some i =>
        match ((s.coreAt p.dst).seatAt i).data p with
        | .hold => .next s
        | .refuse st => .next (s.answered n p .reply st)
        | .late => .next ((s.late p.dst i p).answered n p .reply 3)
        | .queue r =>
          let info := infoWord (p.flits == 2) p.pois p.seq p.round p.gy p.gx
          .next ((s.enqueueMsg p.dst i info p.aux p.payload r).answered n p .reply 0)

/-- A FINISH at its seat: the status and the state (R98). -/
def State.finishAt (s : State) (p : Packet) (i : Nat) : BitVec 8 × State :=
  let t := (s.coreAt p.dst).seatAt i
  let d := p.round - t.round
  if d = 0 then
    (0, if t.fin then s else s.onCore p.dst fun c => (c.onSeat i fun t => { t with fin := true }).wakeJoins)
  else if d = 1 then (1, s)
  else (3, s.late p.dst i p)

/-- FINISH_ARRIVAL: at a seat (R98), or at a router of a tree (R105). -/
def execFinishArrival (n : Nat) (s : State) : Host.Outcome State Fault Refusal :=
  match s.arriving n with
  | none => .next s
  | some p =>
    if p.kind = .treeFinish then .next (s.treeFinishArrives n p)
    else if p.kind ≠ .finish then .next s
    else if !(s.arrives p.gid 3 p.entry p.dst) then .next (s.answered n p .reply 4)
    else
      match s.seatOf p with
      | none => .next (s.answered n p .reply 2)
      | some i =>
        let (st, t) := s.finishAt p i
        .next (t.answered n p .reply st)

/-- The packet a reply answers, as the slot keeps it. -/
def Packet.asUnanswered (p : Packet) : Unanswered := ⟨p.alloc, p.srcPan, p.src, p.chan, p.lc, p.fin, p.round, p.seq⟩

/-- The packet is answered: it no longer counts as unanswered, whoever holds the slot now (R95, R231). -/
def Slot.settled (t : Slot) (p : Packet) : Slot := { t with unans := dropFirst (· == p.asUnanswered) t.unans }
/-- The reply record after an answer: the first status other than OK (R231). A HOLE of a tree block makes the next FINISH
of its channel PARTIAL (R107). -/
def Slot.answer (t : Slot) (p : Packet) : Slot :=
  { t with record := if p.status = 0 ∨ t.record.isSome then t.record else some (p.status, p.chan),
           holed := if p.status = 4 ∧ !p.fin ∧ p.lc = 2 ∧ p.src = p.dst then t.holed ++ [p.chan] else t.holed }

/-- The FINISH a BUSY reply answered, to be sent again (R98). -/
def Packet.finishAgain (p : Packet) : Packet :=
  { p with kind := .finish, src := p.dst, dst := p.src, srcPan := 0xFF, dstPan := p.srcPan, status := 0 }

/-- A reply to a DATA or FINISH of a slot reaches its core (R98, R231): a FINISH answered BUSY stays unanswered, and is sent
again whatever has become of its slot; any other answer is recorded while the allocation that sent the packet
stands. -/
def State.sendReplied (s : State) (p : Packet) : State :=
  s.onCore p.dst fun c =>
    if p.fin && p.status == 1 then
      { c with sh := { c.sh with busyFin := c.sh.busyFin ++ [(p.finishAgain, s.clock.ticks)] } }
    else
      let c := c.onSlot p.slot fun t => t.settled p
      if (c.slot p.slot).alloc = p.alloc ∧ (c.slot p.slot).st ≠ .free then c.onSlot p.slot fun t => t.answer p else c

/-- The home of a burst, as the acknowledgement list names it (R127). -/
def Flight.home (f : Flight) : BitVec 8 × Nat :=
  match f.dest with
  | .near k _ => (0xFF, k)
  | .far a => (0xFF, 1048577 + fpaSite a)
  | .peer a => ((peerDest a).panel, (peerDest a).key)
/-- Requests of a core without an answer: RID and home (R127). -/
def Core.requests (c : Core) : List (BitVec 16 × BitVec 8 × Nat) :=
  (match c.sh.rpc with
    | some r => if r.req.kind = .amo ∧ r.reply = none then [(r.req.rid, r.req.dstPan, homeName r.req)] else []
    | none => []) ++
  c.sh.stream.toList.flatMap fun t => if t.cls = .ordered then t.flying.map fun f => (f.rid, f.home) else []
/-- A request is answered: it leaves the unanswered ones, and when it was the last one to its home the wait for the
acknowledgement begins (R127). -/
def Core.requestDone (c : Core) (rid : BitVec 16) (now : Nat) : Core :=
  let c' : Core := { c with sh := { c.sh with unrep := c.sh.unrep.filter (· != rid) } }
  match c.requests.find? (·.1 == rid) with
  | none => c'
  | some (_, h) =>
    if c.requests.any fun q => q.1 != rid && q.2 == h then c'
    else { c' with sh := { c'.sh with acks := c'.sh.acks.filter (fun a => !(a.1 == h.1 && a.2.1 == h.2)) ++ [(h.1, h.2, now)] } }

/-- The reply to a held request reaches its core; BUSY starts the wait of R127. -/
def Core.rpcReplied (c : Core) (p : Packet) (now : Nat) : Core :=
  match c.sh.rpc with
  | none => c
  | some r =>
    if r.req.kind.replyKind ≠ p.kind ∨ r.req.rid ≠ p.rid ∨ r.reply ≠ none then c
    else if p.kind = .amoReply ∧ p.status = 1 then { c with sh := { c.sh with rpc := some { r with busyAt := some now } } }
    else { c with sh := { c.sh with rpc := some { r with reply := some (p.status, p.val), pois := p.pois, busyAt := none } } }
/-- A reply to a request reaches its core: to the instruction that holds, or to the stream that sent the burst (R127). -/
def State.requestReplied (s : State) (p : Packet) : State :=
  let now := s.clock.ticks
  let done (c : Core) : Core := if p.kind = .amoReply ∧ p.status ≠ 1 then c.requestDone p.rid now else c
  let holds := match (s.coreAt p.dst).sh.rpc with
    | some r => r.req.kind.replyKind == p.kind && r.req.rid == p.rid
    | none => false
  let s := s.onCore p.dst done
  if p.kind = .amoReply ∧ !holds then s.atCore p.dst fun s => s.burstReplied (p.slot.setWidth 2) p
  else s.onCore p.dst fun c => c.rpcReplied p now

/-- A reply finds its node: one on a site that is LIVE, or DRAINING, whose packets are still answered (R338, R339; log entry
60). -/
def State.sinks (s : State) (k : Nat) : Bool :=
  let st := (s.site (siteOf k)).st
  st == .live || st == .draining

/-- REPLY_ARRIVAL: replies always sink (R93, R95); one whose way has a second failure on its detour is gone (R317). -/
def execReplyArrival (n : Nat) (s : State) : Host.Outcome State Fault Refusal :=
  match s.arriving n with
  | none => .next s
  | some p =>
    if !(s.sinks p.dst && s.travels p) then .next (match p.kind with
      | .reply | .treeReply | .amoReply | .watchReply | .wakeReply => s.unsend n
      | _ => s)
    else
    match p.kind with
    | .reply => .next ((s.unsend n).sendReplied p)
    | .treeReply => .next ((s.unsend n).treeReplied p)
    | .amoReply | .watchReply | .wakeReply => .next ((s.unsend n).requestReplied p)
    | .data | .finish | .renorm | .amo | .watch | .wake | .watchWake | .barArrive | .barRelease | .treeBlock
    | .treeFinish | .lowAck => .next s

/-- FINISH_RESEND: 64 core cycles after a BUSY answer (R98). -/
def execFinishResend (n : Nat) (s : State) : Host.Outcome State Fault Refusal :=
  match s.core.sh.busyFin[n]? with
  | none => .next s
  | some (p, t) =>
    .next (if s.tileUp ∧ t + s.cycleTicks s.here 64 ≤ s.clock.ticks then
      (s.onSh fun h => { h with busyFin := dropAt n h.busyFin }).launchPacket p
    else s)

/-! ## Barriers (R100, R344) -/

/-- A node's place below another on the combining tree: its own row east of it, and of column gx = 0
also every row north of it (R100). -/
def Group.below (g : Group) (k j : Nat) : Bool :=
  if keyX k = g.col0 then decide (keyY k ≤ keyY j)
  else decide (keyY j = keyY k) && decide (keyX k ≤ keyX j)

/-- A router is out of the group's combining path: its site is not LIVE, or is a bank site that has left LIVE since the group's
start (R100, R344). -/
def State.offPath (s : State) (g : Group) (k : Nat) : Bool := g.away.contains (siteOf k) || !(s.siteLive (siteOf k))
/-- The next router of the combining path: west, then south; routers out of the path are left out (R100, R344). n bounds the
steps. -/
def State.barrierHop (s : State) (g : Group) (k : Nat) : Nat → Nat
  | 0 => k
  | n + 1 =>
    let j := if g.col0 < keyX k then keyOf (keyX k - 1) (keyY k) else keyOf (keyX k) (keyY k - 1)
    if j = keyOf g.col0 g.row0 then j
    else if s.offPath g j then s.barrierHop g j n
    else j

/-- BARRIER_ARRIVAL: a router combines arrivals of a phase and passes one on, counting the participants
it stands for; shard (0, 0) releases (R100). An arrival on its way to a router that has left the path goes on to the next
one (R344); at the place of shard (0, 0) it is gone (R339), and so is one with no way (R317). -/
def execBarrierArrival (n : Nat) (s : State) : Host.Outcome State Fault Refusal :=
  match s.arriving n with
  | none => .next s
  | some p =>
    if p.kind ≠ .barArrive then .next s
    else
      let way := s.travels p
      let s := s.unsend n
      match if way then s.groupOf p.gid else none with
      | none => .next s
      | some i =>
        let g := s.group i
        let k := p.dst
        if s.offPath g k then
          .next (if k = keyOf g.col0 g.row0 then s else s.send { p with src := k, dst := s.barrierHop g k 480 })
        else
          let here (b : BarHeld) : Bool := b.gid == p.gid && b.b == p.dir && b.phase == p.round
          let held := match (s.node k).bars.find? here with
            | some b => b.count
            | none => 0
          let count := held + p.count
          let rest := (s.node k).bars.filter fun b => !(here b)
          if count < g.cores.countP (g.below k) then
            .next (s.onNode k fun q => { q with bars := rest ++ [⟨p.gid, p.dir, p.round, count⟩] })
          else
            let s := s.onNode k fun q => { q with bars := rest }
            if k = keyOf g.col0 g.row0 then
              .next (g.cores.foldl (fun s c => s.send { p with kind := .barRelease, src := k, dst := c, count := 0 }) s)
            else .next (s.send { p with src := k, dst := s.barrierHop g k 480, count := count })

/-- Slots asleep with WHY 4 whose phase is done wake (R80, R101). -/
def Core.wakeBarriers (c : Core) (b : BitVec 3) : Core :=
  allSlots.foldl (fun c i =>
    match (c.slot i).st, (c.slot i).why with
    | .sleep, .barrier j p => if j = b ∧ barrierDone (bget c.sh.done b) p then c.wake i 0 else c
    | _, _ => c) c

/-- BARRIER_RELEASE: DONE = ARR, and the sleepers wake (R100, R101). A tile that is not LIVE receives no packet (R339),
and no packet comes without a way (R317). -/
def execBarrierRelease (n : Nat) (s : State) : Host.Outcome State Fault Refusal :=
  match s.arriving n with
  | none => .next s
  | some p =>
    if p.kind ≠ .barRelease then .next s
    else if !(s.siteLive (siteOf p.dst) && s.travels p) then .next (s.unsend n)
    else
      .next ((s.unsend n).onCore p.dst fun c =>
        if c.ctl.gid = p.gid ∧ bget c.sh.arr p.dir = p.round then
          Core.wakeBarriers { c with sh := { c.sh with done := bset c.sh.done p.dir (bget c.sh.arr p.dir) } } p.dir
        else c)

/-! ## Watches and wakes (R110, R249, R251) -/

/-- The request at its home: status and watch table (R249). -/
def State.watchAt (s : State) (k : Nat) (p : Packet) : BitVec 8 × List WatchEntry :=
  let off := p.addr.toNat % 262144
  let ws := (s.node k).watches
  match s.homeCheck p.dom k off 8 with
  | some c => (c.status, ws)
  | none =>
    if s.poisoned (nodeBase k + off) then (stAmoFail, ws)
    else if s.readNat (nodeBase k + off) 8 ≠ p.val.toNat then (7, ws)
    else
      let mine (w : WatchEntry) : Bool := w.pan == p.srcPan && w.core == p.src && w.slot == p.slot
      let new : WatchEntry := ⟨off, p.addr, p.srcPan, p.src, p.slot, p.gid, p.dom⟩
      if ws.any mine then (0, mapFirst mine (fun _ => new) ws)
      else if ws.length < 32 then (0, ws ++ [new])
      else (5, ws)

/-- WATCH_REQUEST: the home compares the word and arms an entry (R249). -/
def execWatchRequest (n : Nat) (s : State) : Host.Outcome State Fault Refusal :=
  match s.arriving n with
  | none => .next s
  | some p =>
    if p.kind ≠ .watch then .next s
    else if !(s.arrives p.gid 0 p.entry p.dst) then .next (s.answered n p .watchReply 4)
    else
      let (st, ws) := s.watchAt p.dst p
      .next ((s.onNode p.dst fun q => { q with watches := ws }).answered n p .watchReply st)

/-- A watch wake at its core, at a count of its `RCLK`: HIT for a `SLEEP`, WL for a slot that is not asleep so, nothing when the
address is not that of the slot's last `WATCH` (R81, R110, R249). -/
def Core.watchHit (c : Core) (rclk : BitVec 64) (i : SlotId) (a : BitVec 64) : Core :=
  if (c.slot i).lastWatch ≠ a then c
  else
    match (c.slot i).st, (c.slot i).why with
    | .sleep, .sleep => (c.takeExpiry rclk i).wake i 1
    | .sleep, _ | .ready, _ | .running, _ => c.onSlot i fun t => { t with wl := true }
    | .free, _ | .retired, _ | .trapped, _ => c

/-- WATCH_WAKE_ARRIVAL (R249). A tile that is not LIVE receives no packet (R339), and no packet comes without a way (R317). -/
def execWatchWakeArrival (n : Nat) (s : State) : Host.Outcome State Fault Refusal :=
  match s.arriving n with
  | none => .next s
  | some p =>
    if p.kind ≠ .watchWake then .next s
    else if !(s.siteLive (siteOf p.dst) && s.travels p) then .next (s.unsend n)
    else
      .next ((s.unsend n).onCore p.dst fun c => if c.ctl.gid = p.gid then c.watchHit (s.rclkOf p.dst) p.slot p.addr else c)

/-- WAKE_ARRIVAL: a remote `WAKE` acts on the named slot and is answered (R251). A bank element, or a core of another group, has no such
slot: DEAD (DESIGN CHOICE, log entry 80). -/
def execWakeArrival (n : Nat) (s : State) : Host.Outcome State Fault Refusal :=
  match s.arriving n with
  | none => .next s
  | some p =>
    if p.kind ≠ .wake then .next s
    else if !(s.arrives p.gid 3 p.entry p.dst) then .next (s.answered n p .wakeReply 4)
    else if !(isCore p.dst) ∨ (s.coreAt p.dst).ctl.gid ≠ p.gid then .next (s.answered n p .wakeReply 6)
    else
      let (st, c) := (s.coreAt p.dst).awaken (s.rclkOf p.dst) (p.val.setWidth 4)
      .next ((s.setCore p.dst c).answered n p .wakeReply (st.setWidth 8))

end Sys2Proof.Machine
end

