-- ==== Sys2Proof/Machine/Branch.lean ====
section
/-! DEFINITION. Branches (R172) and jumps (R173). -/

namespace Sys2Proof.Machine

/-- Target of an offset in parcels, modulo 2^16 (R137). -/
def State.target (s : State) (o : BitVec 16) : BitVec 16 := s.pc + 4 * o

/-- A conditional branch: both operands are branch operands (R89, R172). -/
def State.branch (s : State) (a b : GR) (o : BitVec 16) (taken : Bool) : Host.Outcome State Fault Refusal :=
  if s.gp a || s.gp b then .next (s.takeTrap .poison 0 s.pc)
  else .next (s.commitTo (if taken then s.target o else s.pc + 4))

/-- `BEQ` (R172). -/
def execBeq (a b : GR) (o : BitVec 16) (s : State) : Host.Outcome State Fault Refusal :=
  s.branch a b o (s.gv a == s.gv b)
/-- `BNE` (R172). -/
def execBne (a b : GR) (o : BitVec 16) (s : State) : Host.Outcome State Fault Refusal :=
  s.branch a b o (s.gv a != s.gv b)
/-- `BLT` (R172). -/
def execBlt (a b : GR) (o : BitVec 16) (s : State) : Host.Outcome State Fault Refusal :=
  s.branch a b o ((s.gv a).slt (s.gv b))
/-- `BGE` (R172). -/
def execBge (a b : GR) (o : BitVec 16) (s : State) : Host.Outcome State Fault Refusal :=
  s.branch a b o ((s.gv b).sle (s.gv a))
/-- `BLTN` (R172). -/
def execBltn (a b : GR) (o : BitVec 16) (s : State) : Host.Outcome State Fault Refusal :=
  s.branch a b o ((s.gv a).ult (s.gv b))
/-- `BGEN` (R172). -/
def execBgen (a b : GR) (o : BitVec 16) (s : State) : Host.Outcome State Fault Refusal :=
  s.branch a b o ((s.gv b).ule (s.gv a))

/-- `JMP` (R173). -/
def execJmp (o : BitVec 16) (s : State) : Host.Outcome State Fault Refusal :=
  .next (s.commitTo (s.target o))
/-- `JAL`: the link carries no poison (R173). -/
def execJal (l : GR) (o : BitVec 16) (s : State) : Host.Outcome State Fault Refusal :=
  .next ((s.setG l ((s.pc + 4).setWidth 64) false).commitTo (s.target o))
/-- `JALR`: the base is read before the link is written; ALIGN comes before any write (R173). -/
def execJalr (d a : GR) (i : BitVec 16) (s : State) : Host.Outcome State Fault Refusal :=
  let t := s.gv a + i.signExtend 64
  if s.gp a then .next (s.takeTrap .poison 0 s.pc)
  else if t.extractLsb' 0 2 ≠ 0 then .next (s.takeTrap .align t s.pc)
  else .next ((s.setG d ((s.pc + 4).setWidth 64) false).commitTo (t.setWidth 16))

end Sys2Proof.Machine
end

