-- ==== Sys2Proof/Machine/Engine.lean ====
section
/-! DEFINITION. The tensor queue and the accumulator mover: the order of their operations (R201, R202),
fetch geometry (R207-R209), and what each operation performs (R211-R217). -/

namespace Sys2Proof.Machine

/-- A field of a descriptor word. -/
def dfield {n : Nat} (d : BitVec n) (i w : Nat) : Nat := d.toNat / 2 ^ i % 2 ^ w

/-! ## Descriptors (R207, R208) -/

/-- nb, the K-blocks per row. -/
def descNb (d : BitVec 256) : Nat := dfield d 0 8 + 1
/-- MODE is unfold. -/
def descUnfold (d : BitVec 256) : Bool := dfield d 8 2 == 1
/-- Channel blocks per pixel. -/
def descCb (d : BitVec 256) : Nat := dfield d 176 8 + 1
/-- Values kept per group of 24. -/
def descKept (d : BitVec 128) : Nat :=
  match dfield d 64 2 with
  | 0 => 4 | 1 => 8 | _ => 16

/-- A descriptor keeps the rules of R207. -/
def adescOk (d : BitVec 256) : Bool :=
  dfield d 184 72 == 0 && dfield d 171 5 == 0 && dfield d 167 1 == 0 && dfield d 159 1 == 0 &&
  dfield d 155 1 == 0 && dfield d 96 32 == 0 && dfield d 48 16 == 0 && dfield d 10 6 == 0 &&
  decide (dfield d 8 2 < 2) &&
  (!(descUnfold d) || (dfield d 128 8 != 0 && dfield d 136 8 != 0 && dfield d 144 8 != 0 &&
    descNb d == (dfield d 152 3 + 1) * (dfield d 156 3 + 1) * descCb d))
/-- A descriptor keeps the rules of R208. -/
def bdescOk (d : BitVec 128) : Bool := dfield d 66 62 == 0 && dfield d 64 2 != 3

/-- Offsets of mantissas and scale of K-block k of A row r; none is the zero block (R209). -/
def fetchA (d : BitVec 256) (ga : BitVec 64) (q r k : Nat) : Option (Nat × Nat) :=
  let am := dfield ga 0 16
  let as := dfield ga 16 16
  if !(descUnfold d) then
    some (am + r * dfield d 16 16 + k * dfield d 32 16, as + r * dfield d 64 16 + k * dfield d 80 16)
  else
    let p := dfield ga 32 16 + r
    let ow := dfield d 144 8
    let cb := descCb d
    let kw := dfield d 156 3 + 1
    let ih : Int := (p / ow * (dfield d 160 2 + 1) : Nat) + ((k / (cb * kw) : Nat) : Int) - dfield d 164 3
    let iw : Int := (p % ow * (dfield d 162 2 + 1) : Nat) + ((k / cb % kw : Nat) : Int) - dfield d 168 3
    if ih < 0 ∨ (dfield d 128 8 : Int) ≤ ih ∨ iw < 0 ∨ (dfield d 136 8 : Int) ≤ iw then none
    else
      let j := (ih.toNat * dfield d 136 8 + iw.toNat) * cb + k % cb
      some (am + j * q, as + 4 * j)

/-- Offsets of mantissas and scale of K-block k, or record k, of B column c (R209, R212). -/
def fetchB (d : BitVec 128) (gb : BitVec 64) (c k : Nat) : Nat × Nat :=
  (dfield gb 0 16 + c * dfield d 0 16 + k * dfield d 16 16,
   dfield gb 16 16 + c * dfield d 32 16 + k * dfield d 48 16)

/-- Bytes of a BS8 record that are fetched (R212). -/
def recordBytes (kept : Nat) : Nat := 208 + 4 * (32 / kept)
/-- K-blocks of a BS8 K-step (R61). -/
def stepBlocks (kept : Nat) : Nat := 96 / kept

/-! ## Order of operations (R201, R202) -/

/-- The operation of a tensor-queue kind. -/
def EngKind.tensor : EngKind → Bool
  | .mma _ | .mmas | .accz | .accrn => true
  | .accld _ | .accst _ => false

/-- No operation of an engine issued before o names its tile (R201). -/
def tileFree (o : EngOp) (other : List EngOp) : Bool :=
  other.all fun p => !(p.tile == o.tile && decide (p.serial < o.serial))

/-- The tensor queue's head, when it may start. -/
def Engines.readyT (e : Engines) : Option EngOp :=
  match e.tq with
  | o :: _ => if tileFree o e.mover then some o else none
  | [] => none
/-- The mover's head, when it may start. -/
def Engines.readyM (e : Engines) : Option EngOp :=
  match e.mover with
  | o :: _ => if tileFree o e.tq then some o else none
  | [] => none

/-- Completion: flags, then the wait counter, of the issuing slot's allocation (R202). -/
def State.completeOp (s : State) (o : EngOp) (f : Flags) (counter : Bool) : State :=
  let c := s.core.flags o.slot o.alloc f
  { s with core := if counter then c.bump o.slot o.alloc o.wc else c }

/-- A tile of the accumulator store. -/
def State.tile (s : State) (t : AT) : Vector AccRow 16 := bget s.core.eng.acc t
/-- Replace a tile. -/
def State.setTile (s : State) (t : AT) (x : Vector AccRow 16) : State :=
  s.onEng fun e => { e with acc := bset e.acc t x }
/-- A tile with every row changed by f, which is told the row number, and the flags. -/
def mapTile (t : Vector AccRow 16) (f : Nat → AccRow → AccRow × Flags) : Vector AccRow 16 × Flags :=
  let r := t.mapFinIdx fun i x _ => f i x
  (r.map (·.1), r.toList.foldl (fun a q => a ||| q.2) 0)

/-! ## MMA and MMAS (R211, R212) -/

/-- A block of n-bit mantissas read from the scratchpad, poisoned words as zero bytes, and whether any
word was poisoned. -/
def State.readBlk (s : State) (n q : Nat) (o : Option (Nat × Nat)) : Blk × Bool :=
  match o with
  | none => (zeroBlk, false)
  | some (m, sc) =>
    let b := nodeBase s.here
    (⟨mantissas n (s.readClean (b + m) q), s.readClean (b + sc) 4⟩, s.anyPoison (b + m) q || s.anyPoison (b + sc) 4)

/-- A BF16 K-block read from the scratchpad, after DAZ. -/
def State.readBf16 (s : State) (daz : Bool) (o : Option (Nat × Nat)) : List FVal × Bool :=
  match o with
  | none => (List.replicate 32 (.fin false 0 0), false)
  | some (m, _) =>
    let b := nodeBase s.here + m
    let w := s.readClean b 64
    ((List.range 32).map fun i => fmtBf16.unpack daz (w / 2 ^ (16 * i)), s.anyPoison b 64)

/-- Rows of A and columns of B combined into a tile, with row poison (R211). -/
def combine {α : Type} (t : Vector AccRow 16) (a b : List (List (α × Bool)))
    (el : List α → List α → Sum) : Vector AccRow 16 × Flags :=
  let bp := b.any fun c => c.any (·.2)
  let bs := b.map fun c => c.map (·.1)
  mapTile t fun r row =>
    let ar := a[r]?.getD []
    let av := ar.map (·.1)
    let x := accumulateRow row (bs.map (el av))
    ({ x.1 with p := x.1.p || bp || ar.any (·.2) }, x.2)

/-- The 16 × nb grid of what f reads. -/
def grid {α : Type} (nb : Nat) (f : Nat → Nat → α) : List (List α) :=
  (List.range 16).map fun r => (List.range nb).map fun k => f r k

/-- `MmaExecute` (R211). -/
def State.runMma (s : State) (o : EngOp) (y : Ty) : State :=
  let nb := descNb o.adesc
  let q := y.planeBytes
  let t := s.tile o.tile
  let r :=
    if y.float then
      combine t (grid nb fun r k => s.readBf16 (fpcrDaz o.fpcr) (fetchA o.adesc o.ga q r k))
        (grid nb fun c k => s.readBf16 (fpcrDaz o.fpcr) (some (fetchB o.bdesc o.gb c k))) bf16Element
    else
      combine t (grid nb fun r k => s.readBlk y.mbits q (fetchA o.adesc o.ga q r k))
        (grid nb fun c k => s.readBlk y.mbits q (some (fetchB o.bdesc o.gb c k))) (mmaElement y.mbits)
  (s.setTile o.tile r.1).completeOp o r.2 true

/-- A BS8 record read from the scratchpad and densified (R212). -/
def State.readRecord (s : State) (kept off : Nat) : List (Blk × Bool) :=
  let b := nodeBase s.here + off
  let p := s.anyPoison b (recordBytes kept)
  (densify kept (s.readClean b (recordBytes kept))).map fun x => (x, p)

/-- `MMAS` (R212). -/
def State.runMmas (s : State) (o : EngOp) : State :=
  let nb := descNb o.adesc
  let kept := descKept o.bdesc
  let cols := (grid (nb / stepBlocks kept) fun c j => s.readRecord kept (fetchB o.bdesc o.gb c j).1).map (·.flatten)
  let r := combine (s.tile o.tile) (grid nb fun r k => s.readBlk 8 32 (fetchA o.adesc o.ga 32 r k)) cols (mmaElement 8)
  (s.setTile o.tile r.1).completeOp o r.2 true

/-! ## Accumulator operations (R213-R217) -/

/-- `ACCZ` (R213). -/
def State.runAccz (s : State) (o : EngOp) : State :=
  (s.setTile o.tile (Vector.replicate 16 AccRow.zero)).completeOp o 0 false

/-- `ACCRN` (R214). -/
def State.runAccrn (s : State) (o : EngOp) : State :=
  let r := mapTile (s.tile o.tile) fun i row =>
    if o.ga.getLsbD (16 + i) then renormRow row (min (dfield o.ga 0 8) 254) else (row, 0)
  (s.setTile o.tile r.1).completeOp o r.2 false

/-- The row an `ACCLD` reads, its poison and flags, and row r's place in the image (R216, R217). -/
def State.loadRow (s : State) (y : Ty) (fpcr : BitVec 14) (b r : Nat) : AccRow × Flags :=
  let el (i n : Nat) : Nat := s.readNat (b + i) n
  match y with
  | .i32 =>
    let p := s.anyPoison (b + 64 * r) 64 || s.poisoned (b + 1024 + r)
    (AccRow.ofMs ((List.range 16).map fun c => signExtend 32 (el (64 * r + 4 * c) 4)) (BitVec.ofNat 8 (el (1024 + r) 1)) p, 0)
  | .f32 =>
    let v := (List.range 16).map fun c => fmtF32.unpack (fpcrDaz fpcr) (el (64 * r + 4 * c) 4)
    let x := AccRow.load (v.map FVal.exact) (s.anyPoison (b + 64 * r) 64)
    (x.1, x.2 ||| nvOf v)
  | _ =>
    let m := b + 64 * (r / 2)
    let blk : Blk := ⟨mantissas 16 (s.readNat m 64), s.readNat (b + 512 + 4 * (r / 2)) 4⟩
    let p := s.anyPoison (m + 32 * (r % 2)) 32 || s.poisoned (b + 512 + 4 * (r / 2))
    if blk.e = 255 then (AccRow.ofMs (List.replicate 16 accNar) 0xFF p, 0)
    else AccRow.load ((List.range 16).map fun c => blk.value 16 (16 * (r % 2) + c)) p

/-- `ACCLD` (R217). -/
def State.runAccld (s : State) (o : EngOp) (y : Ty) : State :=
  let b := nodeBase s.here + o.ga.toNat
  let r := mapTile (s.tile o.tile) fun i _ => s.loadRow y o.fpcr b i
  (s.setTile o.tile r.1).completeOp o r.2 true

/-- A signed mantissa as four bytes. -/
def word32 (z : Int) : Nat := wrap 32 z

/-- The image of a tile as pairs of a little-endian dword and its poison, with flags (R216, R217). -/
def imageOf (y : Ty) (t : Vector AccRow 16) (fpcr : BitVec 14) (draws : List (BitVec 16)) :
    List (Nat × Bool) × Flags :=
  let rows := t.toList
  let words (p : Bool) (l : List Nat) : List (Nat × Bool) :=
    (List.range (l.length / 2)).map fun i => (lane l (2 * i) + 2 ^ 32 * lane l (2 * i + 1), p)
  match y with
  | .i32 =>
    let exps (k : Nat) : Nat × Bool :=
      let g := (rows.drop (8 * k)).take 8
      (packNat 8 (g.map (·.x.toNat)), g.any (·.p))
    (rows.flatMap (fun r => words r.p (r.ms.map word32)) ++ [exps 0, exps 1], 0)
  | .f32 =>
    let v := rows.map fun r => (r.p, r.values.map (fmtF32.ofExact (fpcrEnv fpcr)))
    (v.flatMap fun q => words q.1 (q.2.map (·.1)), v.foldl (fun f q => f ||| allFlags q.2) 0)
  | _ =>
    let blk (j : Nat) : Bool × Bool × Blk × Flags :=
      let g := (rows.drop (2 * j)).take 2
      let r := convertToBlock (g.flatMap (·.values)) 16 (fpcrRm fpcr) (fpcrBsr fpcr) ((draws.drop (32 * j)).take 32) 1
      ((g.map (·.p)).headD false, (g.map (·.p)).getLastD false, r)
    let bs := (List.range 8).map blk
    let plane (q : Bool × Bool × Blk × Flags) : List (Nat × Bool) :=
      let w := planeNat 16 q.2.2.1.m
      (List.range 8).map fun i => (w / 2 ^ (64 * i) % 2 ^ 64, if i < 4 then q.1 else q.2.1)
    let scales (k : Nat) : Nat × Bool :=
      let g := (bs.drop (2 * k)).take 2
      (packNat 32 (g.map (·.2.2.1.scale)), g.any fun q => q.1 || q.2.1)
    (bs.flatMap plane ++ (List.range 4).map scales, bs.foldl (fun f q => f ||| q.2.2.2) 0)

/-- Dwords stored one after another, each with its poison. -/
def State.storeWords (s : State) (off : Nat) : List (Nat × Bool) → State
  | [] => s
  | (w, p) :: r => (s.write s.here off (leBytes 8 w) p).storeWords (off + 8) r

/-- `ACCST`: every line written takes the issuing slot's tag (R217). -/
def State.runAccst (s : State) (o : EngOp) (y : Ty) : State :=
  let x := imageOf y (s.tile o.tile) o.fpcr o.draws
  let off := o.ga.toNat
  let t := s.storeWords off x.1
  (t.retag (nodeBase s.here + off) (8 * x.1.length) fun _ => o.slot.setWidth 5).completeOp o x.2 true

/-- Perform an operation that has reached the head of its engine. -/
def State.runOp (s : State) (o : EngOp) : State :=
  match o.kind with
  | .mma y => s.runMma o y
  | .mmas => s.runMmas o
  | .accz => s.runAccz o
  | .accrn => s.runAccrn o
  | .accld y => s.runAccld o y
  | .accst y => s.runAccst o y

/-- Perform the tensor queue's head when it may start and p holds of it; else nothing. -/
def State.stepTensor (s : State) (p : EngKind → Bool) : State :=
  match s.core.eng.readyT with
  | some o => if p o.kind then (s.onEng fun e => { e with tq := e.tq.drop 1 }).runOp o else s
  | none => s
/-- Perform the mover's head when it may start and p holds of it; else nothing. -/
def State.stepMover (s : State) (p : EngKind → Bool) : State :=
  match s.core.eng.readyM with
  | some o => if p o.kind then (s.onEng fun e => { e with mover := e.mover.drop 1 }).runOp o else s
  | none => s

/-- MMA_EXECUTE (R211). -/
def execMmaExecute (s : State) : Host.Outcome State Fault Refusal :=
  .next (if s.tileUp then s.stepTensor fun | .mma _ => true | .mmas | .accz | .accrn | .accld _ | .accst _ => false else s)
/-- MMAS_EXECUTE (R212). -/
def execMmasExecute (s : State) : Host.Outcome State Fault Refusal :=
  .next (if s.tileUp then s.stepTensor fun | .mmas => true | .mma _ | .accz | .accrn | .accld _ | .accst _ => false else s)
/-- ACCZ_PERFORM (R213). -/
def execAcczPerform (s : State) : Host.Outcome State Fault Refusal :=
  .next (if s.tileUp then s.stepTensor fun | .accz => true | .mma _ | .mmas | .accrn | .accld _ | .accst _ => false else s)
/-- ACCRN_PERFORM (R214). -/
def execAccrnPerform (s : State) : Host.Outcome State Fault Refusal :=
  .next (if s.tileUp then s.stepTensor fun | .accrn => true | .mma _ | .mmas | .accz | .accld _ | .accst _ => false else s)
/-- ACCLD_PERFORM (R217). -/
def execAccldPerform (s : State) : Host.Outcome State Fault Refusal :=
  .next (if s.tileUp then s.stepMover fun | .accld _ => true | .mma _ | .mmas | .accz | .accrn | .accst _ => false else s)
/-- ACCST_PERFORM (R217). -/
def execAccstPerform (s : State) : Host.Outcome State Fault Refusal :=
  .next (if s.tileUp then s.stepMover fun | .accst _ => true | .mma _ | .mmas | .accz | .accrn | .accld _ => false else s)

/-- Perform one operation of either engine, while a rig is frozen (R165). -/
def State.engineTurn (s : State) : State :=
  match s.core.eng.readyT with
  | some _ => s.stepTensor fun _ => true
  | none => s.stepMover fun _ => true

end Sys2Proof.Machine
end

