-- ==== Sys2Proof/Machine/Crypto.lean ====
section
/-! DEFINITION. The ciphers the spec names: SHA-256, RSA-3072 PSS (R261) and AES-256-XTS (R306). The algorithms
are those of the standards the names stand for (PRESUMED, log entry 64). -/

namespace Sys2Proof

/-! ## SHA-256 (R261, R266) -/

/-- Round constants of SHA-256. -/
def shaConstants : List (BitVec 32) :=
  [0x428A2F98, 0x71374491, 0xB5C0FBCF, 0xE9B5DBA5,
   0x3956C25B, 0x59F111F1, 0x923F82A4, 0xAB1C5ED5] ++
  [0xD807AA98, 0x12835B01, 0x243185BE, 0x550C7DC3,
   0x72BE5D74, 0x80DEB1FE, 0x9BDC06A7, 0xC19BF174] ++
  [0xE49B69C1, 0xEFBE4786, 0x0FC19DC6, 0x240CA1CC,
   0x2DE92C6F, 0x4A7484AA, 0x5CB0A9DC, 0x76F988DA] ++
  [0x983E5152, 0xA831C66D, 0xB00327C8, 0xBF597FC7,
   0xC6E00BF3, 0xD5A79147, 0x06CA6351, 0x14292967] ++
  [0x27B70A85, 0x2E1B2138, 0x4D2C6DFC, 0x53380D13,
   0x650A7354, 0x766A0ABB, 0x81C2C92E, 0x92722C85] ++
  [0xA2BFE8A1, 0xA81A664B, 0xC24B8B70, 0xC76C51A3,
   0xD192E819, 0xD6990624, 0xF40E3585, 0x106AA070] ++
  [0x19A4C116, 0x1E376C08, 0x2748774C, 0x34B0BCB5,
   0x391C0CB3, 0x4ED8AA4A, 0x5B9CCA4F, 0x682E6FF3] ++
  [0x748F82EE, 0x78A5636F, 0x84C87814, 0x8CC70208,
   0x90BEFFFA, 0xA4506CEB, 0xBEF9A3F7, 0xC67178F2]

/-- Initial hash value of SHA-256. -/
def shaStart : List (BitVec 32) :=
  [0x6A09E667, 0xBB67AE85, 0x3C6EF372, 0xA54FF53A,
   0x510E527F, 0x9B05688C, 0x1F83D9AB, 0x5BE0CD19]

/-- A word of a list, 0 past its end. -/
def wordAt (l : List (BitVec 32)) (i : Nat) : BitVec 32 := l[i]?.getD 0

/-- Big-endian number of bytes. -/
def beNat : List (BitVec 8) → Nat
  | [] => 0
  | b :: r => b.toNat * 256 ^ r.length + beNat r

/-- n bytes of a number, the highest first. -/
def beBytes (n x : Nat) : List (BitVec 8) := (leBytes n x).reverse

/-- The message with its padding: a one bit, zeros, and the length in bits in 64 bits. -/
def shaPad (m : List (BitVec 8)) : List (BitVec 8) :=
  m ++ 0x80 :: List.replicate ((119 - m.length % 64) % 64) 0 ++ beBytes 8 (8 * m.length)

/-- The message schedule from its first 16 words, newest first; n words are still to come. -/
def shaSchedule : Nat → List (BitVec 32) → List (BitVec 32)
  | 0, w => w
  | n + 1, w =>
    let a := wordAt w 14
    let b := wordAt w 1
    let s0 := a.rotateRight 7 ^^^ a.rotateRight 18 ^^^ a >>> 3
    let s1 := b.rotateRight 17 ^^^ b.rotateRight 19 ^^^ b >>> 10
    shaSchedule n ((wordAt w 15 + s0 + wordAt w 6 + s1) :: w)

/-- One round on the eight working words. -/
def shaRound (v : List (BitVec 32)) (kw : BitVec 32 × BitVec 32) : List (BitVec 32) :=
  match v with
  | [a, b, c, d, e, f, g, h] =>
    let s1 := e.rotateRight 6 ^^^ e.rotateRight 11 ^^^ e.rotateRight 25
    let t1 := h + s1 + (e &&& f ^^^ ~~~e &&& g) + kw.1 + kw.2
    let s0 := a.rotateRight 2 ^^^ a.rotateRight 13 ^^^ a.rotateRight 22
    let t2 := s0 + (a &&& b ^^^ a &&& c ^^^ b &&& c)
    [t1 + t2, a, b, c, d + t1, e, f, g]
  | _ => v

/-- The 16 words of a block of 64 bytes. -/
def shaWords (b : List (BitVec 8)) : List (BitVec 32) :=
  (List.range 16).map fun i => BitVec.ofNat 32 (beNat ((b.drop (4 * i)).take 4))

/-- A block taken into the hash value. -/
def shaBlock (h : List (BitVec 32)) (b : List (BitVec 8)) : List (BitVec 32) :=
  let w := (shaSchedule 48 (shaWords b).reverse).reverse
  List.zipWith (· + ·) h ((shaConstants.zip w).foldl shaRound h)

/-- The blocks of a padded message taken in, n of them. -/
def shaBlocks : Nat → List (BitVec 32) → List (BitVec 8) → List (BitVec 32)
  | 0, h, _ => h
  | n + 1, h, m => shaBlocks n (shaBlock h (m.take 64)) (m.drop 64)

/-- SHA-256: 32 bytes. -/
def sha256 (m : List (BitVec 8)) : List (BitVec 8) :=
  let p := shaPad m
  (shaBlocks (p.length / 64) shaStart p).flatMap fun w => beBytes 4 w.toNat

/-! ## RSA-3072 PSS (R261) -/

/-- b ^ e modulo n; the last argument bounds the bits of e. -/
def powMod (n : Nat) : Nat → Nat → Nat → Nat
  | _, _, 0 => 1 % n
  | b, e, k + 1 =>
    let r := powMod n (b * b % n) (e / 2) k
    if e % 2 = 1 then b * r % n else r

/-- MGF1 with SHA-256: the first n bytes. -/
def mgf1 (seed : List (BitVec 8)) (n : Nat) : List (BitVec 8) :=
  ((List.range ((n + 31) / 32)).flatMap fun i => sha256 (seed ++ beBytes 4 i)).take n

/-- A PSS encoding of a message digest: SHA-256, a salt of 32 bytes, 3071 bits in 384 bytes. -/
def pssOk (hash em : List (BitVec 8)) : Bool :=
  let masked := em.take 351
  let h := (em.drop 351).take 32
  let db := List.zipWith (· ^^^ ·) masked (mgf1 h 351)
  let db := match db with
    | b :: r => (b &&& 0x7F) :: r
    | [] => []
  let salt := db.drop 319
  em.length == 384 && em.drop 383 == [0xBC] && ((masked.headD 0) &&& 0x80) == 0
    && db.take 318 == List.replicate 318 0 && (db.drop 318).take 1 == [1]
    && sha256 (List.replicate 8 0 ++ hash ++ salt) == h

/-- RSA-3072 PSS verification of a message under a public key; the signature is big-endian (R261). -/
def rsaVerify (n e : Nat) (m sig : List (BitVec 8)) : Bool :=
  let s := beNat sig
  sig.length == 384 && decide (2 ^ 3071 ≤ n) && decide (n < 2 ^ 3072) && decide (s < n)
    && pssOk (sha256 m) (beBytes 384 (powMod n s e (e.log2 + 1)))

/-! ## AES-256-XTS (R306) -/

/-- A byte times x in GF(2^8). -/
def xtime (a : BitVec 8) : BitVec 8 := (a <<< 1) ^^^ (if a.getLsbD 7 then 0x1B else 0)
/-- Product in GF(2^8), over the n low bits of b. -/
def gfMul (a b : BitVec 8) : Nat → BitVec 8
  | 0 => 0
  | n + 1 => (if b.getLsbD 0 then a else 0) ^^^ gfMul (xtime a) (b >>> 1) n
/-- a to the power 2^n - 1. -/
def gfPow (a : BitVec 8) : Nat → BitVec 8
  | 0 => 1
  | n + 1 => let p := gfPow a n; gfMul a (gfMul p p 8) 8
/-- Inverse in GF(2^8), 0 for 0: a to the power 254. -/
def gfInv (a : BitVec 8) : BitVec 8 := let p := gfPow a 7; gfMul p p 8
/-- The S-box of AES. -/
def aesSub (a : BitVec 8) : BitVec 8 :=
  let b := gfInv a
  b ^^^ b.rotateLeft 1 ^^^ b.rotateLeft 2 ^^^ b.rotateLeft 3 ^^^ b.rotateLeft 4 ^^^ 0x63

/-- Bytes added in GF(2^8). -/
def xorBytes (a b : List (BitVec 8)) : List (BitVec 8) := List.zipWith (· ^^^ ·) a b
/-- A byte of a list, 0 past its end. -/
def byteAt (l : List (BitVec 8)) (i : Nat) : BitVec 8 := l[i]?.getD 0

/-- The key schedule of AES-256 as words of 4 bytes, newest first: word i onward, n words to come. -/
def aesSchedule : Nat → Nat → BitVec 8 → List (List (BitVec 8)) → List (List (BitVec 8))
  | 0, _, _, w => w
  | n + 1, i, rc, w =>
    let prev := w[0]?.getD []
    let back := w[7]?.getD []
    let t :=
      if i % 8 = 0 then xorBytes (((prev.drop 1) ++ prev.take 1).map aesSub) [rc, 0, 0, 0]
      else if i % 8 = 4 then prev.map aesSub else prev
    aesSchedule n (i + 1) (if i % 8 = 0 then xtime rc else rc) (xorBytes back t :: w)
/-- Round keys of 16 bytes, round 0 first. -/
def aesKeys (key : List (BitVec 8)) : List (List (BitVec 8)) :=
  let first := (List.range 8).map fun i => (key.drop (4 * i)).take 4
  let w := (aesSchedule 52 8 1 first.reverse).reverse
  (List.range 15).map fun r => ((w.drop (4 * r)).take 4).flatten

/-- Rows shifted: byte r + 4 c comes from column c + r. -/
def aesShift (x : List (BitVec 8)) : List (BitVec 8) :=
  (List.range 16).map fun i => byteAt x (i % 4 + 4 * ((i / 4 + i % 4) % 4))
/-- Columns mixed. -/
def aesMix (x : List (BitVec 8)) : List (BitVec 8) :=
  (List.range 16).map fun i =>
    let b (d : Nat) : BitVec 8 := byteAt x (i / 4 * 4 + (i + d) % 4)
    xtime (b 0) ^^^ xtime (b 1) ^^^ b 1 ^^^ b 2 ^^^ b 3
/-- The rounds of AES with the keys that remain. -/
def aesRounds (x : List (BitVec 8)) : List (List (BitVec 8)) → List (BitVec 8)
  | [] => x
  | [k] => xorBytes (aesShift (x.map aesSub)) k
  | k :: r => aesRounds (xorBytes (aesMix (aesShift (x.map aesSub))) k) r
/-- AES-256 encryption of a block of 16 bytes. -/
def aesEncrypt (key x : List (BitVec 8)) : List (BitVec 8) :=
  match aesKeys key with
  | [] => x
  | k :: r => aesRounds (xorBytes x k) r

/-- A tweak times x in GF(2^128), its first byte the lowest. -/
def xtsDouble (t : List (BitVec 8)) : List (BitVec 8) :=
  let n := 2 * leNat t
  leBytes 16 (if 2 ^ 128 ≤ n then (n - 2 ^ 128) ^^^ 0x87 else n)
/-- Blocks of 16 bytes encrypted, each under its tweak; n of them. -/
def xtsBlocks (key : List (BitVec 8)) : Nat → List (BitVec 8) → List (BitVec 8) → List (BitVec 8)
  | 0, _, _ => []
  | n + 1, t, x => xorBytes (aesEncrypt key (xorBytes (x.take 16) t)) t ++ xtsBlocks key n (xtsDouble t) (x.drop 16)
/-- AES-256-XTS of a line of 64 bytes: the first key encrypts the data, the second the tweak, a 128-bit
little-endian value (R306). -/
def xtsLine (keys : BitVec 512) (tweak : Nat) (line : List (BitVec 8)) : List (BitVec 8) :=
  let k := leBytes 64 keys.toNat
  xtsBlocks (k.take 32) 4 (aesEncrypt (k.drop 32) (leBytes 16 tweak)) line

/-! ### Decryption -/

/-- Rows shifted back. -/
def aesUnshift (x : List (BitVec 8)) : List (BitVec 8) :=
  (List.range 16).map fun i => byteAt x (i % 4 + 4 * ((i / 4 + 4 - i % 4) % 4))
/-- Columns mixed back. -/
def aesUnmix (x : List (BitVec 8)) : List (BitVec 8) :=
  (List.range 16).map fun i =>
    let b (d : Nat) : BitVec 8 := byteAt x (i / 4 * 4 + (i + d) % 4)
    gfMul (b 0) 14 8 ^^^ gfMul (b 1) 11 8 ^^^ gfMul (b 2) 13 8 ^^^ gfMul (b 3) 9 8
/-- The byte that the S-box of AES sends to a byte. -/
def aesUnsub (a : BitVec 8) : BitVec 8 :=
  gfInv ((a.rotateLeft 1) ^^^ (a.rotateLeft 3) ^^^ (a.rotateLeft 6) ^^^ 0x05)
/-- The rounds of AES undone, last key first. -/
def aesUnrounds (x : List (BitVec 8)) : List (List (BitVec 8)) → List (BitVec 8)
  | [] => x
  | [k] => xorBytes x k
  | k :: r => aesUnrounds ((aesUnshift (aesUnmix (xorBytes x k))).map aesUnsub) r
/-- AES-256 decryption of a block of 16 bytes. -/
def aesDecrypt (key x : List (BitVec 8)) : List (BitVec 8) :=
  match (aesKeys key).reverse with
  | [] => x
  | k :: r => aesUnrounds ((aesUnshift (xorBytes x k)).map aesUnsub) r
/-- Blocks of 16 bytes decrypted, each under its tweak; n of them. -/
def xtsUnblocks (key : List (BitVec 8)) : Nat → List (BitVec 8) → List (BitVec 8) → List (BitVec 8)
  | 0, _, _ => []
  | n + 1, t, x =>
    xorBytes (aesDecrypt key (xorBytes (x.take 16) t)) t ++ xtsUnblocks key n (xtsDouble t) (x.drop 16)
/-- A line of 64 bytes decrypted (R306). -/
def xtsOpen (keys : BitVec 512) (tweak : Nat) (line : List (BitVec 8)) : List (BitVec 8) :=
  let k := leBytes 64 keys.toNat
  xtsUnblocks (k.take 32) 4 (aesEncrypt (k.drop 32) (leBytes 16 tweak)) line

end Sys2Proof
end

