-- ==== Sys2Proof/Machine/Kernel.lean ====
section
/-! DEFINITION. Kernels (R163, R259-R267): images, the checks of a registration, the kernel table, the
kernel store, and the host's request slots. -/

namespace Sys2Proof.Machine

/-! ## The lead cox (R351) -/

/-- The lead cox works: its site is LIVE and its triad is not halted (R350, R352). -/
def State.leadWorks (s : State) : Bool :=
  match s.lead.lead with
  | some n => decide ((s.site n).st = .live) && !(s.site n).triad.halted
  | none => false
/-- The lead cox works, and a change of its state can take effect now: its own triad puts out the voted transaction, and the
deputy's the acknowledgement of the write to its mirror, which holds the same state from then on (R346, R351). -/
def State.leadUp (s : State) : Bool :=
  s.leadWorks && match s.lead.lead with
    | some n => (s.site n).triad.mayVote && s.lead.deputy.all fun d => (s.site d).triad.mayVote
    | none => false

/-- What the lead cox does; nothing while no lead cox works. -/
def State.byLead (s : State) (t : State) : Host.Outcome State Fault Refusal := .next (if s.leadUp then t else s)

/-- Bytes of host memory (R289). -/
def State.hostBytes (s : State) (a n : Nat) : List (BitVec 8) := (List.range n).map fun i => s.byte (hostBase + a + i)

/-! ## Images (R163, R259, R260) -/

/-- n bytes of an image from a place. -/
def cutBytes (b : List (BitVec 8)) (i n : Nat) : List (BitVec 8) := (b.drop i).take n
/-- The number n bytes of an image from a place hold. -/
def imageNat (b : List (BitVec 8)) (i n : Nat) : Nat := leNat (cutBytes b i n)
/-- Every byte is zero. -/
def allZero (b : List (BitVec 8)) : Bool := b.all (· == 0)

/-- Section types (R163, R260). -/
def tyText : Nat := 1
/-- DATA. -/
def tyData : Nat := 2
/-- BSS. -/
def tyBss : Nat := 3
/-- SEAT. -/
def tySeat : Nat := 4
/-- PLACE. -/
def tyPlace : Nat := 5
/-- ENTRY. -/
def tyEntry : Nat := 6
/-- VARIANT. -/
def tyVariant : Nat := 7
/-- SCHED. -/
def tySched : Nat := 8
/-- TREE. -/
def tyTree : Nat := 9
/-- DRAWGEN. -/
def tyDrawGen : Nat := 10

/-- A SEAT record: seat number, the seat, and the shards that send on it (R160, R163). The number stands in
bits 101:96 (log entry 18). -/
structure SeatRec where
  num     : Nat
  word    : BitVec 128
  sources : List (Nat × Nat)
  deriving DecidableEq, Repr

/-- SEAT records from the bytes of a section body; the first argument bounds their number. -/
def seatRecs : Nat → List (BitVec 8) → Option (List SeatRec)
  | _, [] => some []
  | 0, _ :: _ => none
  | n + 1, x :: r =>
    let b := x :: r
    let c := imageNat b 16 4
    if b.length < 20 + 4 * c then none
    else
      let src (i : Nat) : Nat × Nat := (imageNat b (20 + 4 * i) 4 % 512, imageNat b (20 + 4 * i) 4 / 65536 % 256)
      let one : SeatRec := ⟨imageNat b 12 4 % 64, BitVec.ofNat 128 (imageNat b 0 16), (List.range c).map src⟩
      (seatRecs n (b.drop (20 + 4 * c))).map (one :: ·)

/-- SEAT records of a section. -/
def Sect.seats (t : Sect) : List SeatRec := (seatRecs t.body.length t.body).getD []

/-- A node record of a TREE section (R263). -/
structure TreeNode where
  gx     : Nat
  gy     : Nat
  parent : BitVec 3
  child  : BitVec 5
  deriving DecidableEq, Repr

/-- A TREE section (R263). -/
structure TreeDef where
  chan  : BitVec 12
  sink  : Sink
  nodes : List TreeNode
  deriving DecidableEq, Repr

/-- The tree of a TREE section. -/
def Sect.tree (t : Sect) : TreeDef :=
  let b := t.body
  let w : BitVec 64 := BitVec.ofNat 64 (imageNat b 8 8)
  let node (i : Nat) : TreeNode :=
    let x := imageNat b (16 + 8 * i) 8
    ⟨x % 512, x / 65536 % 256, BitVec.ofNat 3 (x / 2 ^ 32), BitVec.ofNat 5 (x / 2 ^ 35)⟩
  { chan := BitVec.ofNat 12 (imageNat b 0 2)
    sink := ⟨w.extractLsb' 52 12, w.extractLsb' 40 12, w.extractLsb' 24 16, w.extractLsb' 9 15⟩
    nodes := (List.range (imageNat b 4 4)).map node }

/-- Sections of one variant: its own and the common ones (R260). -/
def Image.of (m : Image) (k : Nat) : List Sect := m.sects.filter fun t => t.var == k || t.var == 255
/-- The sections of a type among those of a variant. -/
def Image.some? (m : Image) (k ty : Nat) : List Sect := (m.of k).filter (·.ty == ty)
/-- The number in a field of n bytes of a variant's section of a type, 0 when it has none. -/
def Image.field (m : Image) (k ty i n : Nat) : Nat :=
  match m.some? k ty with
  | t :: _ => imageNat t.body i n
  | [] => 0
/-- Lane width in clusters (R163). -/
def Image.laneW (m : Image) (k : Nat) : Nat := m.field k tyPlace 0 1
/-- Lane height in clusters. -/
def Image.laneH (m : Image) (k : Nat) : Nat := m.field k tyPlace 1 1
/-- Minimum live cores per draw region. -/
def Image.minCores (m : Image) (k : Nat) : Nat := m.field k tyPlace 2 1
/-- Minimum live bank elements per draw region. -/
def Image.minBanks (m : Image) (k : Nat) : Nat := m.field k tyPlace 3 1
/-- Minimum far ports per port region. -/
def Image.minPorts (m : Image) (k : Nat) : Nat := m.field k tyPlace 4 1
/-- Entry offset. -/
def Image.entry (m : Image) (k : Nat) : Nat := m.field k tyEntry 0 2
/-- LEVEL of the initial context. -/
def Image.level (m : Image) (k : Nat) : Nat := m.field k tyEntry 2 1 % 4
/-- Watchdog limit in ticks. -/
def Image.limit (m : Image) (k : Nat) : Nat := m.field k tyEntry 4 4
/-- Estimate in units of 0.125 W. -/
def Image.est (m : Image) (k : Nat) : Nat := m.field k tyVariant 2 2
/-- `KVEC.BASE` (R260). -/
def Image.kvec (m : Image) (k : Nat) : BitVec 4 := BitVec.ofNat 4 (m.field k tySched 0 2)
/-- The value for `SSCR` (R260). -/
def Image.sscr (m : Image) (k : Nat) : BitVec 64 := BitVec.ofNat 64 (m.field k tySched 2 2)
/-- SEAT records of a variant. -/
def Image.seats (m : Image) (k : Nat) : List SeatRec := (m.some? k tySeat).flatMap Sect.seats
/-- Trees of a variant. -/
def Image.trees (m : Image) (k : Nat) : List TreeDef := (m.some? k tyTree).map Sect.tree
/-- Variants of an image. -/
def Image.variants (m : Image) : List Nat := (List.range 4).filter fun k => m.sects.any (·.var == k)

/-! ## Registration (R264) -/

/-- Reason codes (R264). -/
inductive Reason
  | ok | signature | format | overlap | seat | tree | variant | tableFull | key | state
  deriving DecidableEq, Repr
/-- Number of a reason (R264). -/
def Reason.num : Reason → BitVec 16
  | ok => 0 | signature => 1 | format => 2 | overlap => 3 | seat => 4 | tree => 5 | variant => 6 | tableFull => 7
  | key => 8 | state => 9

/-- Check 1: the header (R259). size is the request's length. NSECT outside 1 to 4096 and a LENGTH that is no multiple of 8 fail here
(DESIGN CHOICE, log entry 82). -/
def headerOk (b : List (BitVec 8)) (size : Nat) : Bool :=
  let len := imageNat b 8 4
  imageNat b 0 4 == 0x4B4C4742 && imageNat b 4 2 == 1 && decide (1 ≤ imageNat b 6 2) && decide (imageNat b 6 2 ≤ 4096)
    && len % 8 == 0 && decide (64 ≤ len) && decide (len + 384 ≤ size) && decide (imageNat b 12 4 < 65536)
    && allZero (cutBytes b 48 16)

/-- Bytes of a section's body that the image holds (R163). -/
def bodyLen (ty len : Nat) : Nat := if ty = tyBss then 0 else len

/-- The sections from a place on; n of them end at the limit (R259). -/
def parseSects (b : List (BitVec 8)) (limit : Nat) : Nat → Nat → Option (List Sect)
  | 0, pos => if pos = limit then some [] else none
  | n + 1, pos =>
    let ty := imageNat b pos 4
    let len := imageNat b (pos + 12) 4
    let stop := pos + 16 + bodyLen ty len
    let next := (stop + 7) / 8 * 8
    if limit < next ∨ !(allZero (cutBytes b (pos + 5) 3)) ∨ !(allZero (cutBytes b stop (next - stop))) then none
    else
      (parseSects b limit n next).map
        (⟨ty, imageNat b (pos + 4) 1, imageNat b (pos + 8) 4, len, cutBytes b (pos + 16) (bodyLen ty len)⟩ :: ·)

/-- Check 4 of one section: type, variant, LOAD, and a body of the length and with the zeros its type
asks for (R163, R260, R263). A PLACE of a width or height outside 1 to 40 fails here (DESIGN CHOICE, log entry 82). -/
def Sect.ok (t : Sect) : Bool :=
  let b := t.body
  let own := t.var ≤ 3
  decide (1 ≤ t.ty) && decide (t.ty ≤ 10) && (decide own || t.var == 255)
    && (t.ty ≤ tyBss || t.load == 0)
    && (if t.ty = tySeat then (seatRecs b.length b).isSome
      else if t.ty = tyPlace then
        decide own && t.len == 8 && allZero (b.drop 5) && decide (1 ≤ imageNat b 0 1 ∧ imageNat b 0 1 ≤ 40)
          && decide (1 ≤ imageNat b 1 1 ∧ imageNat b 1 1 ≤ 40)
      else if t.ty = tyEntry then decide own && t.len == 8 && imageNat b 0 4 / 2 ^ 18 == 0
      else if t.ty = tyVariant then decide own && t.len == 4 && imageNat b 0 2 / 4 == 0
      else if t.ty = tySched then t.len == 8 && imageNat b 0 2 / 16 == 0 && imageNat b 4 4 == 0
      else if t.ty = tyDrawGen then t.len == 8
      else if t.ty = tyTree then
        t.len == 16 + 8 * imageNat b 4 4 && imageNat b 0 2 / 4096 == 0 && imageNat b 2 2 / 4096 == 0
          && imageNat b 8 8 % 512 == 0 && imageNat b 2 2 == imageNat b 8 8 / 2 ^ 52
          && (List.range (imageNat b 4 4)).all fun i =>
            let x := imageNat b (16 + 8 * i) 8
            x / 512 % 128 == 0 && x / 2 ^ 24 % 256 == 0 && x / 2 ^ 40 == 0
      else true)

/-- Check 5 of a variant (R260). A VARIANT section whose k is not its VAR fails here (DESIGN CHOICE, log entry 82). -/
def Image.variantOk (m : Image) (k : Nat) : Bool :=
  (m.some? k tyPlace).length == 1 && (m.some? k tyEntry).length == 1 && (m.some? k tyVariant).length == 1
    && (m.some? k tySched).length == 1 && decide ((m.some? k tyDrawGen).length ≤ 1) && decide (m.level k ≤ 2)
    && m.entry k % 4 == 0 && m.field k tyVariant 0 2 == k

/-- Two ranges of offsets share a byte. -/
def overlap (a b : Nat × Nat) : Bool := decide (a.1 < b.2) && decide (b.1 < a.2)
/-- No two of a list stand in a relation. -/
def pairwiseNot {α : Type} (r : α → α → Bool) : List α → Bool
  | [] => true
  | x :: l => l.all (fun y => !(r x y)) && pairwiseNot r l
/-- Check 6 of a variant. A section whose last byte lies at 0xFFFF fails it (DESIGN CHOICE, log entry 82). -/
def Image.layoutOk (m : Image) (k : Nat) : Bool :=
  let l := ((m.of k).filter fun t => t.ty ≤ tyBss && t.len != 0).map fun t => (t.load, t.load + t.len)
  l.all (fun r => decide (r.2 ≤ 0xFFFF)) && pairwiseNot overlap l

/-- A seat's fields from its 128-bit word (R43). -/
def Seat.ofWord (w : BitVec 128) : Seat :=
  { tail := 0, head := 0, seq := 0, count := 0, size := w.extractLsb' 48 8, base := w.extractLsb' 32 16,
    round := w.extractLsb' 24 8, ctx := w.extractLsb' 16 4, fin := false, valid := w.getLsbD 14,
    lc := w.extractLsb' 12 2, chan := w.extractLsb' 0 12 }
/-- A SEAT record meets R160 and R236: RO fields and reserved bits 0, an aligned ring inside the
scratchpad, a class other than 1. -/
def SeatRec.ok (r : SeatRec) : Bool :=
  let t := Seat.ofWord r.word
  r.word.extractLsb' 102 26 == 0 && r.word.extractLsb' 56 40 == 0 && r.word.extractLsb' 20 12 == 0
    && !(r.word.getLsbD 15) && t.valid && t.lc != 1 && t.base.toNat % 32 == 0
    && decide (t.base.toNat + 32 * t.cap ≤ 0x10000)
/-- Check 7 of a variant. -/
def Image.seatsOk (m : Image) (k : Nat) : Bool :=
  let l := m.seats k
  l.all (·.ok) && pairwiseNot (fun a b => a.num == b.num ||
    ((Seat.ofWord a.word).chan == (Seat.ofWord b.word).chan && (Seat.ofWord a.word).lc == (Seat.ofWord b.word).lc)) l

/-- The shard a direction leads to (R102). -/
def shardToward (gx gy : Nat) (d : BitVec 3) : Option (Nat × Nat) :=
  match d.toNat with
  | 0 => if gx = 0 then none else some (gx - 1, gy)
  | 1 => some (gx, gy + 1)
  | 2 => some (gx + 1, gy)
  | 3 => if gy = 0 then none else some (gx, gy - 1)
  | _ => none
/-- The node record of a shard. -/
def TreeDef.at? (t : TreeDef) (p : Nat × Nat) : Option TreeNode := t.nodes.find? fun n => (n.gx, n.gy) == p
/-- The record of the parent of a node. -/
def TreeDef.up (t : TreeDef) (n : TreeNode) : Option TreeNode := (shardToward n.gx n.gy n.parent).bind t.at?
/-- Within n parents of a node stands the root. -/
def TreeDef.rooted (t : TreeDef) : Nat → TreeNode → Bool
  | 0, n => n.parent == 4
  | k + 1, n => n.parent == 4 || (match t.up n with | some p => t.rooted k p | none => false)
/-- The root record. -/
def TreeDef.root (t : TreeDef) : Option TreeNode := t.nodes.find? (·.parent == 4)
/-- Planes and flag of the sink lie below an offset (R102). -/
def TreeDef.fitsNode (t : TreeDef) (size : Nat) : Bool :=
  let n := t.sink.nblkm1.toNat + 1
  decide (64 * t.sink.mbase.toNat + 64 * n ≤ size) && decide (4 * t.sink.sbase.toNat + 4 * n ≤ size)
    && decide (8 * t.sink.flag.toNat + 8 ≤ size)
/-- Check 8 of a tree in a lane of w by h clusters. -/
def TreeDef.ok (t : TreeDef) (w h : Nat) : Bool :=
  t.nodes.countP (·.parent == 4) == 1
    && pairwiseNot (fun a b => a.gx == b.gx && a.gy == b.gy) t.nodes
    && t.nodes.all (fun n => decide (n.parent.toNat ≤ 4) && decide (n.gx < 8 * w) && decide (n.gy < 4 * h)
      && t.rooted t.nodes.length n
      && (n.parent == 4 || (match t.up n with | some p => hasDir p.child (opposite n.parent) | none => false)))
    && t.fitsNode 0x40000
/-- Check 8 of a variant: its trees lie inside the lane of every variant. -/
def Image.treesOk (m : Image) (k : Nat) : Bool :=
  (m.trees k).all fun t => m.variants.all fun j => t.ok (m.laneW j) (m.laneH j)

/-- The index of a free entry of the kernel table. -/
def State.freeKern (s : State) : Option Nat :=
  (List.range 1024).find? fun i =>
    match (tget Kern.reset s.lead.kernels i).st with
    | .none | .retired => true
    | .registered | .resident => false

/-- A kernel-table entry. -/
def State.kern (s : State) (i : Nat) : Kern := tget Kern.reset s.lead.kernels i
/-- Change a kernel-table entry. -/
def State.onKern (s : State) (i : Nat) (f : Kern → Kern) : State :=
  { s with lead := { s.lead with kernels := tset Kern.reset s.lead.kernels i (f (s.kern i)) } }

/-- The digest of bytes as a number (R266). -/
def digestOf (b : List (BitVec 8)) : Nat := beNat (sha256 b)
/-- KEYID of a public key: the first 16 bytes of its digest (R259, log entry 12). -/
def keyIdOf (n e : Nat) : Nat := leNat ((sha256 (Config.keyBytes n e)).take 16)
/-- The key enrolled for a domain under a KEYID (R377). -/
def State.signKey (s : State) (dom : BitVec 16) (keyid : Nat) : Option SignKey :=
  s.boat.keys.find? fun k => k.dom == dom && k.keyid == keyid
/-- KEYID names a key enrolled for a domain (R377). -/
def State.enrolled (s : State) (dom : BitVec 16) (keyid : Nat) : Bool := (s.signKey dom keyid).isSome
/-- The signature of an image verifies under the key its KEYID names (R261). -/
def State.signed (s : State) (dom : BitVec 16) (keyid : Nat) (m sig : List (BitVec 8)) : Bool :=
  match s.signKey dom keyid with
  | some k => rsaVerify k.n k.e m sig
  | none => false

/-- The checks of a registration in order: the first failure, or the image and its table index (R264). -/
def State.checkImage (s : State) (q : Req) : Except Reason (Image × Nat) :=
  let b := s.hostBytes q.addr.toNat q.size.toNat
  let len := imageNat b 8 4
  let keyid := imageNat b 32 16
  let dom : BitVec 16 := BitVec.ofNat 16 (imageNat b 12 4)
  if !(headerOk b q.size.toNat) then .error .format
  else if !(s.enrolled dom keyid) || dom != q.dom then .error .key
  else if !(s.signed dom keyid (b.take len) (cutBytes b len 384)) then .error .signature
  else
    match parseSects b len (imageNat b 6 2) 64 with
    | none => .error .format
    | some l =>
      let m : Image := ⟨dom, keyid, l⟩
      let vs := m.variants
      if !(l.all (·.ok)) then .error .format
      else if vs = [] ∨ !(vs.all m.variantOk) then .error .variant
      else if !(vs.all m.layoutOk) then .error .overlap
      else if !(vs.all m.seatsOk) then .error .seat
      else if !(vs.all m.treesOk) then .error .tree
      else
        match s.freeKern with
        | none => .error .tableFull
        | some i => .ok (m, i)

/-! ## Request slots (R265, R266) -/

/-- A request slot. -/
def State.req (s : State) (i : Nat) : Req := tget Req.reset s.lead.reqs i
/-- Change a request slot. -/
def State.onReq (s : State) (i : Nat) (f : Req → Req) : State :=
  { s with lead := { s.lead with reqs := tset Req.reset s.lead.reqs i (f (s.req i)) } }
/-- The POSTED slot the lead cox takes next (R265). -/
def State.posted (s : State) : Option Nat := (List.range 16).find? fun i => (s.req i).st == 1
/-- A request is answered: REASON, then DONE (R265). -/
def State.answerReq (s : State) (i : Nat) (r : Reason) : State := s.onReq i fun q => { q with reason := r.num, st := 2 }
/-- Handle of a kernel-table entry (R265). -/
def handleOf (i : Nat) (gen : BitVec 16) : BitVec 32 := BitVec.ofNat 32 (i + gen.toNat * 65536)
/-- The entry a handle names, when its generation is not stale (R265). -/
def State.byHandle (s : State) (h : Nat) : Option Nat :=
  let i := h % 1024
  let k := s.kern i
  if h = (handleOf i k.gen).toNat ∧ (k.st = .registered ∨ k.st = .resident) then some i else none

/-- A slot's request when it is the one taken next. -/
def State.request? (s : State) (i : BitVec 4) (op : Nat → Bool) : Option Req :=
  if s.leadUp ∧ s.posted = some i.toNat ∧ op (s.req i.toNat).op.toNat then some (s.req i.toNat) else none

/-- REGISTER (R264, R266). A POSTED slot whose OP names no operation is answered FORMAT here. -/
def execRegister (i : BitVec 4) (s : State) : Host.Outcome State Fault Refusal :=
  match s.request? i fun op => op == 1 || op == 0 || decide (4 < op) with
  | none => .next s
  | some q =>
    if q.op ≠ 1 then .next (s.answerReq i.toNat .format)
    else
      match s.checkImage q with
      | .error r => .next (s.answerReq i.toNat r)
      | .ok (m, k) =>
        let s := s.onKern k fun e =>
          { st := .registered, gen := e.gen, image := m, digest := digestOf (s.hostBytes q.addr.toNat q.size.toNat),
            addr := q.addr, size := q.size, copies := [], paddle := none, owed := [] }
        .next ((s.onReq i.toNat fun q => { q with handle := (handleOf k (s.kern k).gen).setWidth 64 }).answerReq i.toNat .ok)

/-- A request that names a kernel: STATE when its handle is stale (R265). An admission pass that is due comes before an
EVICT or RETIRE (R270). -/
def State.kernelRequest (s : State) (i : BitVec 4) (op : Nat) (f : Nat → Reason × State) :
    Host.Outcome State Fault Refusal :=
  match (s.request? i (· == op)).filter fun _ => op ≤ 2 || !s.lead.passDue with
  | none => .next s
  | some q =>
    match s.byHandle q.handle.toNat with
    | none => .next (s.answerReq i.toNat .state)
    | some k => .next ((f k).2.answerReq i.toNat (f k).1)

/-! ## The kernel store (R267) -/

/-- Memory ports a kernel-store copy may stand behind. -/
def State.storePorts (s : State) : List Nat := (List.range 24).filter s.memoryPort
/-- Ports for two copies, behind different bank tiles, from those already taken on. -/
def State.placeCopies (s : State) (have_ : List Nat) : Option (List Nat) :=
  match have_ with
  | [] =>
    match s.storePorts with
    | [] => none
    | p :: r => ((r.find? fun q => portSite q != portSite p)).map fun q => [p, q]
  | p :: _ => (s.storePorts.find? fun q => portSite q != portSite p).map fun q => [p, q]
/-- Bytes of the kernel store in use: each image stands there twice. -/
def State.storeUsed (s : State) : Nat :=
  s.lead.kernels.foldl (fun n e => if e.2.st = .resident then n + 2 * e.2.size.toNat else n) 0

/-- RESIDE (R266, R267). -/
def execReside (i : BitVec 4) (s : State) : Host.Outcome State Fault Refusal :=
  s.kernelRequest i 2 fun k =>
    let e := s.kern k
    if e.st = .resident then (.ok, s)
    else if 0x4000000 < s.storeUsed + 2 * e.size.toNat then (.tableFull, s)
    else
      match s.placeCopies [] with
      | none => (.tableFull, s)
      | some l => (.ok, s.onKern k fun e => { e with st := .resident, copies := l })

/-- Some group of a kernel satisfies a condition. -/
def State.kernelGroup (s : State) (k : Nat) (p : GroupSt → Bool) : Bool :=
  s.lead.groups.any fun e => e.2.khandle == handleOf k (s.kern k).gen && p e.2.st

/-- A relaunch of the group waits in the bid list (R290). -/
def State.relaunchWaits (s : State) (i : Nat) : Bool := s.lead.bids.any fun b => b.what == .relaunch i
/-- A group of a kernel is admitted and its loading has not ended (R270). -/
def State.loadingOf (s : State) (k : Nat) : Bool :=
  s.lead.groups.any fun e => e.2.khandle == handleOf k (s.kern k).gen &&
    (match e.2.st with
      | .admitted => !(s.relaunchWaits e.1)
      | .seeding | .loading => true
      | .unused | .running | .draining | .suspended | .faulted | .retired => false)

/-- EVICT (R266, R270). -/
def execEvict (i : BitVec 4) (s : State) : Host.Outcome State Fault Refusal :=
  s.kernelRequest i 3 fun k =>
    if (s.kern k).st = .resident ∧ !(s.loadingOf k) then
      (.ok, s.onKern k fun e => { e with st := .registered, copies := [], owed := [] })
    else (.state, s)

/-- RETIRE (R266). -/
def execRetire (i : BitVec 4) (s : State) : Host.Outcome State Fault Refusal :=
  s.kernelRequest i 4 fun k =>
    if s.kernelGroup k (fun t => t != .retired && t != .unused) then (.state, s)
    else (.ok, s.onKern k fun e => { Kern.reset with st := .retired, gen := e.gen + 1 })

/-- KERNEL_STORE_RECOPY: the copies behind a site's ports are lost; a kernel that keeps one is copied
behind another port, at once or when one serves, and one that keeps none becomes REGISTERED (R267, R336). -/
def State.loseCopies (s : State) (n : Nat) : State :=
  (List.range 1024).foldl (fun s i =>
    let e := s.kern i
    let l := e.copies.filter fun p => portSite p != n
    if e.st ≠ .resident ∨ l = e.copies then s
    else if l = [] then s.onKern i fun e => { e with st := .registered, copies := [], owed := [] }
    else
      s.onKern i fun e => match s.placeCopies l with
        | some q => { e with copies := q }
        | none => { e with copies := l, owed := e.owed ++ [n] }) s

/-- A kernel that keeps one copy is copied behind another port as soon as one serves (R267). -/
def State.recopy (s : State) : State :=
  (List.range 1024).foldl (fun s i =>
    let e := s.kern i
    if e.st = .resident ∧ e.copies.length = 1 then
      match s.placeCopies e.copies with
      | some q => s.onKern i fun e => { e with copies := q, owed := [] }
      | none => s
    else s) s

end Sys2Proof.Machine
end

