-- ==== Sys2Proof/Machine/LoadStore.lean ====
section
/-! DEFINITION. Loads and stores (R174-R176) and the cluster port (R40). -/

namespace Sys2Proof.Machine

/-- Address of a base register and a signed displacement (R174). -/
def State.based (s : State) (a : GR) (d : BitVec 64) : BitVec 64 := s.gv a + d

/-- `LD`; from a peer its value may be taken later (R115, R174, R175). -/
def ldBody (t a : GR) (w : LdW) (d : BitVec 13) (s : State) : Res :=
  s.consume a (s.checkedLoad (s.based a (d.signExtend 64)) w.bytes fun p =>
    s.orLate (p.lates [(.scalar t w, 0)]) s (
      let (s, x, q) := s.loadAt p w.bytes
      .ok (s.setG t (loadedValue w x) q)))
/-- `LD` (R174, R175). -/
def execLd (t a : GR) (w : LdW) (d : BitVec 13) (s : State) : Host.Outcome State Fault Refusal :=
  s.finish 4 (ldBody t a w d s)

/-- `ST` (R174, R175). -/
def stBody (t a : GR) (w : StW) (d : BitVec 13) (s : State) : Res :=
  s.consume a (s.checked (s.based a (d.signExtend 64)) w.bytes fun p =>
    .ok (s.storeTo true p (leBytes w.bytes (s.gv t).toNat) (s.gp t)))
/-- `ST` (R174, R175). -/
def execSt (t a : GR) (w : StW) (d : BitVec 13) (s : State) : Host.Outcome State Fault Refusal :=
  s.finish 4 (stBody t a w d s)

/-- The path of dword i of a multiple access. -/
def Path.shift (p : Path) (i : Nat) : Path :=
  match p with
  | .own off => .own (off + 8 * i)
  | .peer k off => .peer k (off + 8 * i)
  | .trap c => .trap c

/-- Offset of a path within its scratchpad. -/
def Path.offset : Path → Nat
  | .own off => off
  | .peer _ off => off
  | .trap _ => 0

/-- Registers from t on, k of them. -/
def regRange (t k : Nat) : List Nat := (List.range k).map (t + ·)

/-- The check of a multiple access of k dwords, made before any dword moves (R176). -/
def State.multiple (s : State) (a : GR) (d : BitVec 11) (k : Nat) (f : Path → Res) : Res :=
  let addr := s.gv a + 8 * d.signExtend 64
  s.consume a (s.checked addr 8 fun p =>
    if 0x10000 < p.offset + 8 * k then .trap .bounds addr else f p)
/-- As multiple, for a load. -/
def State.multipleLoad (s : State) (a : GR) (d : BitVec 11) (k : Nat) (f : Path → Res) : Res :=
  s.multiple a d k fun p => if s.awaits p (8 * k) then .hold else f p

/-- Dwords loaded into consecutive registers, ascending (R176). -/
def State.loadRegs (s : State) (p : Path) : Nat → List Nat → State
  | _, [] => s
  | i, r :: rs =>
    let (t, x, q) := s.loadAt (p.shift i) 8
    (t.setG (BitVec.ofNat 5 r) (BitVec.ofNat 64 x) q).loadRegs p (i + 1) rs

/-- Consecutive registers stored as dwords, ascending (R176). -/
def State.storeRegs (s : State) (p : Path) : Nat → List Nat → State
  | _, [] => s
  | i, r :: rs =>
    let g := BitVec.ofNat 5 r
    (s.storeAt (p.shift i) (leBytes 8 (s.gv g).toNat) (s.gp g)).storeRegs p (i + 1) rs

/-- Late reads of dwords for consecutive registers (R115, R176). -/
def Path.lateRegs (p : Path) (l : List Nat) : List Late :=
  p.lates (l.mapIdx fun i r => (.scalar (BitVec.ofNat 5 r) .d64, 8 * i))

/-- `LDM` (R176). -/
def execLdm (t a l : GR) (d : BitVec 11) (s : State) : Host.Outcome State Fault Refusal :=
  let k := l.toNat + 1 - t.toNat
  let rs := regRange t.toNat k
  s.finish 4 (s.legal (.ldm t a l d) (s.multipleLoad a d k fun p => s.orLate (p.lateRegs rs) s (.ok (s.loadRegs p 0 rs))))

/-- `STM` (R176). -/
def execStm (t a l : GR) (d : BitVec 11) (s : State) : Host.Outcome State Fault Refusal :=
  let k := l.toNat + 1 - t.toNat
  s.finish 4 (s.legal (.stm t a l d) (s.multiple a d k fun p => .ok (s.storeRegs p 0 (regRange t.toNat k))))

/-- The position a cluster port serves: the first from its turn on with a store that may be performed (R40). -/
def State.portTurn (s : State) (k : Nat) : Option Nat :=
  ((List.range 32).map fun i => ((s.coreAt k).sh.turn + i) % 32).find? fun i => !(s.portReady k i).isEmpty

/-- CLUSTER_PORT_ACCESS: the port of the selected core performs a store of the peer whose turn it is (R40, R112).
Without a store waiting there is no event. -/
def execClusterPortAccess (s : State) : Host.Outcome State Fault Refusal :=
  match s.portTurn s.here with
  | none => .next s
  | some i => .next (if s.tileUp then s.portServe s.here i else s)

end Sys2Proof.Machine
end

