-- ==== Sys2Proof/Machine/Group.lean ====
section
/-! DEFINITION. Groups (R271-R281): retiring parts, lanes, loading, cuts, saves, faults, relaunches, and
paddle contexts. -/

namespace Sys2Proof.Machine

/-! ## Parts and their retirement (R18, R274, R358) -/

/-- The part behind a coordinate is retired onto the umpire core or spare element of its region row; a row
whose skip column is in use cannot absorb it (R18, R358). The tile keeps it on its retirement list (R340). A group at
work keeps the map it was seeded with (R19, R20). The routes of the site switch, from the first class on, and what a switch under
way held goes on unless the new one holds it (R320). Contents stay with the coordinates (log entry 19). -/
def State.retireNode (s : State) (k : Nat) : State :=
  let n := siteOf k
  let row := regionRow k
  if tget 32 (s.site n).skips row ≠ 32 ∨ (s.site n).triad.halted then s
  else
    let p := s.physCol k
    let t := (s.onSite n fun t =>
      { t with skips := tset 32 t.skips row p, retired := t.retired ++ [(row, p)], reroutes := [3, 1, 0, 2] }).releaseQueued.voteTiles [n]
    if isCore k then t.onUmpire (umpireOf k) fun u => { u with col := 33, filled := false, isOpen := false } else t
/-- A node is marked suspect and its region row can absorb its retirement. -/
def State.retirable (s : State) (k : Nat) : Bool :=
  (s.part k).suspect && s.bound k && tget 32 (s.site (siteOf k)).skips (regionRow k) == 32 && !(s.site (siteOf k)).triad.halted
/-- The suspect nodes of a list that their rows can absorb are retired; the draw map changes with them (R23, R358). -/
def State.retireAll (s : State) (ks : List Nat) : State :=
  if ks.any s.retirable then (ks.foldl (fun s k => if s.retirable k then s.retireNode k else s) s).redraw else s

/-! ## Lanes (R271) -/

/-- The group holds its lane (R273, R290). -/
def State.holdsLane (s : State) (i : Nat) : Bool :=
  match (s.group i).st with
  | .admitted => !(s.relaunchWaits i)
  | .seeding | .loading | .running | .draining | .faulted => true
  | .unused | .suspended | .retired => false
/-- Keys of the lane's nodes. -/
def Group.laneKeys (g : Group) : List Nat := rectKeys g.col0 g.row0 (8 * g.w) (4 * g.h)
/-- Table indexes of the groups. -/
def State.groupIds (s : State) : List Nat := s.lead.groups.map (·.1)
/-- A group that holds its lane covers the node (R358). -/
def State.covered (s : State) (k : Nat) : Bool := s.groupIds.any fun i => s.holdsLane i && (s.group i).inLane k

/-- The tile of a site is recommended for replacement; the report is logged once (R359). -/
def State.recommend (s : State) (n : Nat) : State :=
  if (s.site n).replace then s else (s.onSite n fun t => { t with replace := true }).note (.replace n)

/-- A suspect node: retired at once when no group covers it, else at the next start (R358). The tile is recommended for
replacement, and that is logged (R359). -/
def State.markSuspect (s : State) (k : Nat) : State :=
  let s := (s.onPart k fun q => { q with suspect := true }).recommend (siteOf k)
  if s.covered k then s.redraw else (s.retireNode k).redraw

/-- Each suspect node of the lane whose row has a free skip column is retired (R274 step 1). -/
def State.retireSuspects (s : State) (g : Group) : State := s.retireAll g.laneKeys
/-- The suspect nodes of a lane that no group covers any more are retired at once (R358). -/
def State.retireLoose (s : State) (g : Group) : State := s.retireAll (g.laneKeys.filter fun k => !(s.covered k))

/-! ## Fit (R268, R269, R290) -/

/-- One draw region meets the minima of a variant (R269). -/
def State.regionFits (s : State) (m : Image) (v d : Nat) : Bool :=
  let e := s.drawEntry d
  let site := siteOf (keyOf (8 * (d % 40)) (4 * (d / 40)))
  !(e.getLsbD 15)
    && (if computeSite site then decide (m.minCores v ≤ (e.extractLsb' 0 6).toNat)
        else decide (m.minBanks v ≤ (e.extractLsb' 6 6).toNat))
    && ((drawPort d).isNone || decide (m.minPorts v ≤ (e.extractLsb' 12 2).toNat))
/-- The lane of a variant fits at a cluster position (R269). -/
def State.fitsAt (s : State) (m : Image) (v cx cy : Nat) : Bool :=
  decide (cx + m.laneW v ≤ 40) && decide (cy + m.laneH v ≤ 40)
    && (List.range (m.laneH v)).all fun j => (List.range (m.laneW v)).all fun i =>
      s.regionFits m v (40 * (cy + j) + cx + i)
/-- Every tree's root falls on a node that can hold its planes and flag (R264, R290). -/
def Image.rootsFit (m : Image) (v cx cy : Nat) : Bool :=
  (m.trees v).all fun t =>
    match t.root with
    | some r => t.fitsNode (nodeSize (keyOf (8 * cx + r.gx) (4 * cy + r.gy)))
    | none => false
/-- Two rectangles of clusters, each (column, row, width, height), share a cluster. -/
def rectsMeet (a b : Nat × Nat × Nat × Nat) : Bool :=
  decide (a.1 < b.1 + b.2.2.1) && decide (b.1 < a.1 + a.2.2.1)
    && decide (a.2.1 < b.2.1 + b.2.2.2) && decide (b.2.1 < a.2.1 + a.2.2.2)
/-- Clusters of a group's lane. -/
def Group.rect (g : Group) : Nat × Nat × Nat × Nat := (g.col0 / 8, g.row0 / 4, g.w, g.h)
/-- A group holds a cluster of a rectangle. -/
def State.occupied (s : State) (r : Nat × Nat × Nat × Nat) : Bool :=
  s.groupIds.any fun i => s.holdsLane i && rectsMeet r (s.group i).rect

/-- Estimates of the groups that are neither RETIRED nor SUSPENDED, one excepted (R292). -/
def State.estimates (s : State) (but : Option Nat) : Nat :=
  s.lead.groups.foldl (fun n e =>
    if but = some e.1 ∨ e.2.st = .unused ∨ e.2.st = .retired ∨ e.2.st = .suspended then n else n + e.2.est) 0
/-- BUDGET as a pass of this tick takes it: a BUDGET command of the same tick leaves it the old one (R292, R295). -/
def State.budgetNow (s : State) : BitVec 24 := if s.lead.was.2 = s.clock.ticks then s.lead.was.1 else s.lead.budget
/-- An estimate is within the budget in force (R268, R292). -/
def State.affords (s : State) (but : Option Nat) (est : Nat) : Bool :=
  decide (est + s.estimates but ≤ s.budgetNow.toNat)

/-- An element put into a list sorted by lt. -/
def insertBy {α : Type} (lt : α → α → Bool) (x : α) : List α → List α
  | [] => [x]
  | y :: r => if lt x y then x :: y :: r else y :: insertBy lt x r
/-- A list sorted by lt; equal elements keep their order. -/
def sortBy {α : Type} (lt : α → α → Bool) (l : List α) : List α := l.foldr (insertBy fun a b => !(lt b a)) []
/-- Rank of variants: wider area, lower estimate, lower number (R268). -/
def Image.before (m : Image) (a b : Nat) : Bool :=
  let x := m.laneW a * m.laneH a
  let y := m.laneW b * m.laneH b
  decide (y < x) || (x == y && (decide (m.est a < m.est b) || (m.est a == m.est b && decide (a < b))))
/-- The variant of an admission: the first in rank whose estimate the budget affords, after one that was
draining in a ramp emergency (R268). -/
def State.chooseVariant (s : State) (m : Image) (but after : Option Nat) : Option Nat :=
  let l := sortBy m.before m.variants
  let l := match after with
    | some k => (l.dropWhile (· != k)).drop 1
    | none => l
  l.find? fun v => s.affords but (m.est v)

/-! ## Combine entries (R102, R107, R263) -/

/-- Child directions of a node that lead into a site that is not LIVE (R263). -/
def State.absentDirs (s : State) (k : Nat) (child : BitVec 5) : BitVec 5 :=
  [(0 : BitVec 3), 1, 2, 3].foldl (fun (m : BitVec 5) d =>
    if hasDir child d && (s.site (siteOf (neighbour k d))).st != .live then m ||| dirBit d else m) 0
/-- The combine entry of a node record (R102, R263). -/
def State.treeEntry (s : State) (gid : BitVec 16) (t : TreeDef) (n : TreeNode) (k : Nat) : CombEntry :=
  { gid := gid, chan := t.chan, parent := n.parent, child := n.child, absent := s.absentDirs k n.child, admv := false,
    admd := 0, admRound := 0, sink := if n.parent = 4 then some t.sink else none, nblkm1 := t.sink.nblkm1, latest := none, passed := none,
    rounds := match s.groupOf gid with
      | some i => ((s.group i).rounds.find? (·.1 == t.chan)).map (·.2) |>.getD 0
      | none => 0 }
/-- The combine entries of a group, at most eight at a router (R102, log entry 63), written into the live routers whose nodes satisfy p (R263, R274). -/
def State.loadTrees (s : State) (g : Group) (p : Nat → Bool) : State :=
  let place (n : TreeNode) : Nat := keyOf (g.col0 + n.gx) (g.row0 + n.gy)
  let mine (k : Nat) : Bool := p k && s.siteLive (siteOf k)
  ((g.image.trees g.var).foldl (fun s t =>
    t.nodes.foldl (fun s n =>
      let k := place n
      if mine k then s.onNode k fun q => { q with entries := (q.entries ++ [s.treeEntry g.gid t n k]).take 8 }
      else s) s) s).voteTiles (sitesOf (((g.image.trees g.var).flatMap fun t => t.nodes.map place).filter mine))
/-- A packet carries barrier traffic of a group. -/
def Packet.isBarrier (p : Packet) (gid : BitVec 16) : Bool := p.gid == gid && (p.kind == .barArrive || p.kind == .barRelease)
/-- What routers and homes hold of a GID is dropped: combine entries, buffers, finishes, barrier arrivals and watch entries (R273,
R274); the barrier ends with the group, and its packets on their way with it (R101). A suspension keeps barrier arrivals in
its save (log entry 62). -/
def State.dropGid (s : State) (gid : BitVec 16) : State :=
  let keep (l : List Packet) : List Packet := l.filter fun p => !(p.isBarrier gid)
  { s with
    net := keep s.net, queued := keep s.queued
    nodes := tmap Node.reset (fun q =>
      { q with entries := q.entries.filter (·.gid != gid), bufs := q.bufs.filter (·.gid != gid),
               fins := q.fins.filter (·.gid != gid), bars := q.bars.filter (·.gid != gid),
               watches := q.watches.filter (·.gid != gid) }) s.nodes }

/-! ## Loading (R274) -/

/-- Everything in the memory of the nodes that satisfy p becomes zero, without poison, unowned (R274). -/
def State.wipe (s : State) (p : Nat → Bool) : State :=
  let near (a : Nat) : Bool := decide (a < farBase) && p (a / 262144)
  { s with mem := s.mem.filter fun e => !(near e.1)
           pois := s.pois.filter fun e => !(near (8 * e.1))
           tags := s.tags.filter fun e => !(near (64 * e.1))
           nodes := tmap Node.reset id (s.nodes.map fun e => (e.1, if p e.1 then { e.2 with marked := false } else e.2)) }
/-- The bytes a variant loads: TEXT and DATA at LOAD (R274). -/
def Image.cells (m : Image) (v : Nat) : List Host.Cell :=
  ((m.of v).filter fun t => t.ty == tyText || t.ty == tyData).foldl (fun c t => putBytes c t.load t.body) []
/-- Bytes of one node put in at its place; those past its end have no place. -/
def State.placeCells (s : State) (k : Nat) (l : List Host.Cell) : State :=
  let here := l.filter fun e => decide (e.1 < 262144)
  { s with mem := s.mem.filter (fun e => decide (e.1 < nodeBase k)) ++ here.map (fun e => (nodeBase k + e.1, e.2))
      ++ s.mem.filter (fun e => decide (nodeBase k + 262144 ≤ e.1)) }

/-- The restart word (R279). -/
def Group.restartWord (g : Group) : BitVec 64 := if g.ckpt = 0xFFFFFFFF then -1 else g.ckpt.setWidth 64
/-- The seat table of a variant (R43, R274). -/
def Image.seatTable (m : Image) (v : Nat) : Vector Seat 64 :=
  (m.seats v).foldl (fun t r => t.setIfInBounds r.num (Seat.ofWord r.word)) (Vector.replicate 64 Seat.zero)
/-- A slot FREE with everything cleared; its allocations go on counting, and packets without an answer stay so
(R95). -/
def Slot.cleared (t : Slot) : Slot := { Slot.free with alloc := t.alloc, unans := t.unans }
/-- The identity registers of a core of a group (R48, R274). -/
def Group.identity (g : Group) (key : BitVec 13) (c : Ctl) (k : Nat) : Ctl :=
  { c with tidX := BitVec.ofNat 9 (keyX k), tidY := BitVec.ofNat 8 (keyY k), gx := BitVec.ofNat 9 (keyX k - g.col0),
           gy := BitVec.ofNat 8 (keyY k - g.row0), gid := g.gid, col0 := BitVec.ofNat 9 g.col0,
           row0 := BitVec.ofNat 8 g.row0, wm1 := BitVec.ofNat 9 (8 * g.w - 1), hm1 := BitVec.ofNat 8 (4 * g.h - 1),
           dom := g.dom, key := key }
/-- Key slot of a domain. -/
def State.keyOfDom (s : State) (d : BitVec 16) : BitVec 13 :=
  match s.domain d with
  | some x => x.spec.key
  | none => 0
/-- A core as group start leaves it before it is started (R274 steps 3 and 4). `RIGS` is zero (R382). The accumulator store, the
performance counters, RIDs and TLBs stay, operations still queued complete into their tiles (R202), and a FINISH that was answered
BUSY goes on being sent again (R98). -/
def Group.loadCore (g : Group) (key : BitVec 13) (k : Nat) (c : Core) : Core :=
  let m := g.image
  { regs := { Regs.reset with g := Regs.reset.g.set 1 ⟨g.restartWord, false⟩ }
    ctl := { g.identity key c.ctl k with
      slot := 0, kvec := m.kvec g.var, sscr := ⟨m.sscr g.var, false⟩, priv := .s, issue := .off, riga := false }
    slots := c.slots.map Slot.cleared
    eng := { c.eng with adesc := 0, bdesc := 0 }
    sh := { Shared.reset with
      seat := m.seatTable g.var, lfsr := lfsrSeed g.gid (BitVec.ofNat 9 (keyX k)) (BitVec.ofNat 8 (keyY k)), rid := c.sh.rid, acks := c.sh.acks,
      busyFin := c.sh.busyFin, utlb := c.sh.utlb, opened := c.sh.opened } }
/-- A node of the lane is live to the group; a bank element is loaded wherever its site is LIVE (R271, R342). -/
def State.laneLive (s : State) (g : Group) (k : Nat) : Bool := s.live k && (!(isCore k) || s.knows g (siteOf k))
/-- The live working cores of the lane (R271). -/
def State.laneCores (s : State) (g : Group) : List Nat := g.laneKeys.filter fun k => isCore k && s.laneLive g k
/-- The seeding map of a group: the skip columns of the region rows its lane covers, as they stand at its start (R19, R274
step 2). -/
def State.seedMap (s : State) (g : Group) (old : Tbl Nat) (p : Nat → Bool) : Tbl Nat :=
  g.laneKeys.foldl (fun t k =>
    let j := 64 * siteOf k + regionRow k
    if p (siteOf k) then tset 32 t j (tget 32 (s.site (siteOf k)).skips (regionRow k)) else t) old
/-- The lane reaches into a site. -/
def Group.touches (g : Group) (n : Nat) : Bool :=
  rectsMeet (g.col0, g.row0, 8 * g.w, 4 * g.h) (64 * (n % 5), 32 * (n / 5), 64, 32)
/-- The LIVE sites a lane touches, whose triads write its seeding maps, cores and bank elements (R345). -/
def State.laneSites (s : State) (g : Group) : List Nat := (List.range 25).filter fun n => g.touches n && s.siteLive n
/-- Every triad a lane needs can put out a transaction now (R346). -/
def State.laneVotes (s : State) (g : Group) : Bool := (s.laneSites g).all fun n => (s.site n).triad.mayVote
/-- Loading of a first start or a relaunch (R274 steps 3-5). No atomic or stream of an earlier context joins a fault record any more
(R303). -/
def State.loadGroup (s : State) (i : Nat) : State :=
  let g := s.group i
  let ks := s.laneCores g
  let s := ((s.closeWindows ks).wipe fun k => g.inLane k && s.laneLive g k).dropGid g.gid
  let s := s.onGroup i fun g => { g with rounds := [] }
  let cells := g.image.cells g.var
  let s := ks.foldl (fun s k => s.placeCells k cells) s
  let s := ks.foldl (fun s k => s.leaveRecords k true) s
  let s := (s.onCores ks fun k c => g.loadCore (s.keyOfDom g.dom) k c).voteTiles (s.laneSites g)
  (s.loadTrees g fun _ => true).onGroup i fun g => { g with cores := ks }

/-! ## Suspension and resumption (R276) -/

/-- What stands of a lane in a table whose keys count units of 2^18 / n bytes, by shard tag. -/
def Group.cutTable {α : Type} (g : Group) (n : Nat) (t : Tbl α) : List (Nat × α) :=
  (t.filter fun e => decide (e.1 < 2 ^ 17 * n) && g.inLane (e.1 / n)).map fun e => (n * g.tagOf (e.1 / n) + e.1 % n, e.2)
/-- The node of a shard tag. -/
def Group.atTag (g : Group) (t : Nat) : Nat := keyOf (g.col0 + t / 256) (g.row0 + t % 256)
/-- A `TCMP` as its remainder over `RCLK`, 0 when disarmed; one of 0 or less is kept as 1, as which it is armed again
(R276). -/
def remainder (rclk tcmp : BitVec 64) : BitVec 64 := if tcmp = 0 then 0 else if tcmp ≤ rclk then 1 else tcmp - rclk
/-- A `TCMP` armed again (R276). -/
def rearm (rclk rem : BitVec 64) : BitVec 64 := if rem = 0 then 0 else rclk + rem
/-- A core as the save holds it: paddle slots discarded, CUT clear (R276). -/
def Core.saved (c : Core) (rclk : BitVec 64) : Core :=
  { c with
    slots := c.slots.map fun t =>
      if t.paddle then t.toFree else { t with tcmp := remainder rclk t.tcmp, parked := false, cutPend := false }
    sh := { c.sh with cut := false, port := [], duringRig := [], ahead := [], late := [], woke := [] } }
/-- A barrier packet of the group, its nodes given as shard tags, or back as nodes. -/
def Packet.moved (p : Packet) (f : Nat → Nat) : Packet := { p with src := f p.src, dst := f p.dst }
/-- SUSPENSION_SAVE: cores, scratchpads with owner tags and poison codes, and bank elements (R276), and barrier arrivals
that routers hold or that are on their way (DESIGN CHOICE, log entry 62). -/
def State.saveGroup (s : State) (g : Group) : Save :=
  { cores := g.cores.map fun k => (g.tagOf k, (s.coreAt k).saved (s.rclkOf k))
    bytes := g.cutTable 262144 s.mem
    pois := g.cutTable 32768 s.pois
    tags := g.cutTable 4096 s.tags
    bars := g.laneKeys.flatMap fun k => ((s.node k).bars.filter fun (b : BarHeld) => b.gid == g.gid).map fun b => (g.tagOf k, b)
    flight := ((s.net ++ s.queued).filter fun (p : Packet) => p.isBarrier g.gid).map fun (p : Packet) => p.moved g.tagOf
    marked := (g.laneKeys.filter fun k => (s.node k).marked).map g.tagOf }
/-- Entries of a save put back at the nodes of their shard tags, where those are live. -/
def State.restoreTable {α : Type} (s : State) (g : Group) (n : Nat) (l : List (Nat × α)) (f : State → Nat → α → State) :
    State :=
  l.foldl (fun t e =>
    let k := g.atTag (e.1 / n)
    if s.live k then f t (n * k + e.1 % n) e.2 else t) s
/-- A sleeper with WHY 5 becomes READY with WOKEN (R276). -/
def Core.wokenSleeps (c : Core) : Core :=
  allSlots.foldl (fun c i =>
    match (c.slot i).st, (c.slot i).why with
    | .sleep, .sleep => c.wake i 2
    | _, _ => c) c
/-- A saved core put on a node: what the save does not hold stays the node's (R276). It waits at its idle `SLEEP` until the
group starts (R274 step 6). -/
def Group.restoreCore (g : Group) (key : BitVec 13) (rclk : BitVec 64) (k : Nat) (old saved : Core) : Core :=
  let c : Core :=
    { saved with
      ctl := { g.identity key saved.ctl k with
        pmc := old.ctl.pmc, paddle := false
        issue := match saved.ctl.issue with | .idle d => .restored d | x => x }
      slots := saved.slots.map fun t => { t with tcmp := rearm rclk t.tcmp }
      sh := { saved.sh with rid := old.sh.rid, acks := old.sh.acks, utlb := old.sh.utlb, port := [] } }
  c.wokenSleeps
/-- Loading of a resumption: every item goes to the node of its shard tag (R276). -/
def State.restoreGroup (s : State) (i : Nat) : State :=
  let g := s.group i
  match g.save with
  | none => s.loadGroup i
  | some v =>
    let s := ((s.closeWindows (s.laneCores g)).wipe fun k => g.inLane k && s.laneLive g k).dropGid g.gid
    let s := v.marked.foldl (fun s t => s.onNode (g.atTag t) fun q => { q with marked := true }) s
    let s := s.restoreTable g 262144 v.bytes fun s a b => { s with mem := tset unlistedByte s.mem a b }
    let s := s.restoreTable g 32768 v.pois fun s a b => { s with pois := tset (s.poisonBase a) s.pois a b }
    let s := s.restoreTable g 4096 v.tags fun s a b => { s with tags := tset 0x10 s.tags a b }
    let here := v.cores.filter fun e => isCore (g.atTag e.1) && s.laneLive g (g.atTag e.1)
    let s := here.foldl (fun s e =>
      s.onCore (g.atTag e.1) fun c => g.restoreCore (s.keyOfDom g.dom) (s.rclkOf (g.atTag e.1)) (g.atTag e.1) c e.2) s
    let s := v.bars.foldl (fun (s : State) (e : Nat × BarHeld) => s.onNode (g.atTag e.1) fun q => { q with bars := q.bars ++ [e.2] }) s
    let s := { s with net := s.net ++ v.flight.map fun (p : Packet) => p.moved g.atTag }
    let s := (here.foldl (fun s e => s.leaveRecords (g.atTag e.1) true) s).voteTiles (s.laneSites g)
    (s.loadTrees g fun _ => true).onGroup i fun g => { g with cores := here.map fun e => g.atTag e.1, save := none }
/-- Arrivals that a group's routers hold out of its combining path go on to the next router of the path (R100, R344); at the
place of shard (0, 0) they are gone (R339). -/
def State.rerouteBars (s : State) (i : Nat) : State :=
  let g := s.group i
  (g.laneKeys.filter fun k => s.offPath g k).foldl (fun (s : State) k =>
    let l := (s.node k).bars.filter (·.gid == g.gid)
    if l.isEmpty then s
    else
      let s := s.onNode k fun q => { q with bars := q.bars.filter (·.gid != g.gid) }
      if k = keyOf g.col0 g.row0 then s
      else
        l.foldl (fun (s : State) b =>
          s.send { Packet.blank .barArrive k (s.barrierHop g k 480) with
            gid := g.gid, lc := 3, dir := b.b, round := b.phase, count := b.count }) s) s

/-! ## Ends of a group (R273, R279) -/

/-- A core of an ended or restarted group: every slot FREE, no issue, its owner tags released (R39, R77), its umpire's
window closed (R360). Its far atomic joins no fault record any more; its streams go on (R77, R303). -/
def State.freeCore (s : State) (k : Nat) : State :=
  let lo := nodeBase k / 64
  let s := (s.closeWindowAt k).onCore k fun (c : Core) =>
    { c with slots := c.slots.map Slot.toFree, ctl := { c.ctl with issue := .off, paddle := false }
             sh := { c.sh with fifo := Vector.replicate 4 [], cut := false } }
  { s.leaveRecords k false with tags := s.tags.filter fun e => !(decide (lo ≤ e.1) && decide (e.1 < lo + 1024) && decide (e.2 < 0x10)) }
/-- Every core of a list freed, but those of a tile whose triad is HALTED: they run until the boathouse controller stops them (R350). -/
def State.freeCores (s : State) (ks : List Nat) : State :=
  let ks := ks.filter fun k => !(s.site (siteOf k)).triad.halted
  (ks.foldl State.freeCore s).voteTiles (sitesOf ks)
/-- Draw regions of a group's lane whose rows the group maps otherwise than their tile: their entries may change when it lets go of
its map (R19, R22). -/
def State.ownRegions (s : State) (g : Group) : List Nat :=
  if !g.mapped then []
  else
    (g.laneKeys.filter fun k =>
      keyX k % 8 == 0 && keyY k % 4 == 0 && (List.range 4).any fun j =>
        let n := siteOf k
        let row := regionRow (k + j)
        tget 32 g.skips (64 * n + row) != tget 32 (s.site n).skips row).map drawRegion
/-- A group lets go of its seeding map: the draw map is written anew where its lane reads otherwise without it (R23). -/
def State.unmapped (s old : State) (g : Group) : State := s.redrawn old (old.ownRegions g)

/-- The LAUNCH that started a group completes (R287). -/
def State.endLaunch (s : State) (i st : Nat) : State :=
  let g := s.group i
  match (s.queue g.queue).cmds.find? fun c => c.group == some i with
  | some c => s.complete g.queue c st g.gid
  | none => s
/-- A group becomes RETIRED: lane, combine entries and watch entries released, slots FREE, its LAUNCH
completes with a status, and the lane's suspect nodes are retired (R273, R287, R358). An admission pass is due
(R290). -/
def State.retireGroup (s : State) (i st : Nat) : State :=
  let old := s
  let g := s.group i
  let s := ((s.endSuspend i 8).freeCores g.cores).dropGid g.gid
  let s := (s.endLaunch i st).onGroup i fun g => { g with st := .retired, cut := .none, cores := [], save := none, rows := false }
  let s := s.unmapped old g
  let s := { s with lead := { s.lead with bids := s.lead.bids.filter fun (b : Bid) => b.what != BidFor.relaunch i, passDue := true } }
  s.retireLoose g
/-- SEEDING finds that the lane no longer fits: RETIRED, and the launch bids again at its age (R273). -/
def State.rebid (s : State) (i : Nat) : State :=
  let g := s.group i
  let q := g.queue
  let mine (c : Cmd) : Bool := c.group == some i
  let old := (s.queue q).cmds.find? mine
  let s := ((s.dropGid g.gid).onGroup i fun g => { g with st := .retired, cores := [], save := none }).retireLoose g
  match old with
  | some c =>
    let s := s.onQueue q fun u => { u with cmds := mapFirst mine (fun c => { c with group := none }) u.cmds }
    { s with lead := { s.lead with bids := s.lead.bids ++ [(⟨.launch q c.no, g.cls, g.age, q, 0, none⟩ : Bid)], passDue := true } }
  | none => s
/-- A relaunch: RST + 1, slots FREE, and a bid at the old age (R77, R279, R290). -/
def State.relaunchGroup (s : State) (i : Nat) : State :=
  let g := s.group i
  let old := s
  let s := ((s.freeCores g.cores).dropGid g.gid).onGroup i fun g =>
    { g with st := .admitted, rst := min 8 (g.rst + 1), cut := .none, peersIn := false, resume := false, cores := [], begun := false,
             save := none, rows := false }
  let s := s.unmapped old g
  let s := { s with lead := { s.lead with
    bids := s.lead.bids ++ [(⟨.relaunch i, g.cls, g.age, g.queue, 0, none⟩ : Bid)], passDue := true } }
  s.retireLoose g

/-! ## Cuts (R275, R280) -/

/-- Paddle slots of a core that satisfy p become FREE, out of their FIFO, their owner tags released (R39, R77, R280). -/
def State.freePaddlesAt (s : State) (k : Nat) (p : Slot → Bool) : State :=
  allSlots.foldl (fun (s : State) i =>
    let t := (s.coreAt k).slot i
    if t.paddle && p t then ((s.onCore k fun c => (c.unqueue i).onSlot i Slot.toFree).releaseTags k i).voteTiles [siteOf k]
    else s) s
/-- PADDLE_REMOVAL on a core: a READY paddle slot becomes FREE, a RUNNING one takes PREEMPT, and becomes FREE once it is READY
(R84, R280). -/
def State.dropPaddlesAt (s : State) (k : Nat) : State :=
  (s.freePaddlesAt k fun t => t.st == .ready).coxWrites [k] fun _ c =>
    allSlots.foldl (fun c i =>
      if (c.slot i).paddle && (c.slot i).st == .running then c.onSlot i fun t => { t.pendOn 1 0 with doomed := true } else c) c
/-- A cut begins in every core of a group (R275). -/
def State.beginCut (s : State) (i : Nat) (f : CutFor) : State :=
  let now := s.clock.ticks
  let ks := (s.group i).cores.filter fun k => !(s.site (siteOf k)).triad.halted
  ((ks.foldl State.dropPaddlesAt s).coxWrites ks fun _ c =>
    { c with sh := { c.sh with cut := true, cutTick := now } }).onGroup i fun g => { g with cut := f, cutTick := now }
/-- A RUNNING group begins to drain: a SUSPEND in progress passes with BUSY (R273, R275, R295). -/
def State.drainGroup (s : State) (i : Nat) (after : Option Nat) : State :=
  if (s.group i).st = .running then
    ((s.endSuspend i 8).onGroup i fun g => { g with st := .draining, after := after }).beginCut i .drain
  else s
/-- CUT cleared in every core of a group; what a cut left in its slots ends with it (R275). -/
def State.endCut (s : State) (i : Nat) : State :=
  (s.coxWrites (s.group i).cores fun _ c =>
    { c with sh := { c.sh with cut := false }
             slots := c.slots.map fun t => { t with cutPend := false, parked := false } }).onGroup i fun g =>
      { g with cut := .none }

/-- A slot without PADDLE is parked (R275). -/
def Slot.isParked (t : Slot) : Bool :=
  match t.st, t.why with
  | .free, _ | .retired, _ => true
  | .sleep, .join _ | .sleep, .sleep => true
  | .ready, _ => t.parked
  | _, _ => false
/-- Engines idle, no stream ACTIVE, nothing unanswered (R273, R275). -/
def Core.quiet (c : Core) : Bool :=
  c.eng.tq.isEmpty && c.eng.mover.isEmpty && c.sh.stream.toList.all (fun t => t.st != .active)
    && c.slots.toList.all (fun t => t.unans.isEmpty) && c.sh.rpc.all (fun r => r.reply.isSome) && c.sh.busyFin.isEmpty
/-- The core waits in an idle `SLEEP` at S (R83). -/
def Core.idles (c : Core) : Bool :=
  match c.ctl.issue with
  | .idle _ => true
  | .off | .run | .hold | .wait | .stopped | .restored _ => false
/-- No block or finish that a router of the group has forwarded waits for its answer (R103-R105, R273, R275). -/
def State.treesQuiet (s : State) (gid : BitVec 16) : Bool :=
  (s.nodes.all fun e => e.2.bufs.all fun b => b.gid != gid || !b.sent) &&
    (s.net ++ s.queued).all fun p =>
      p.gid != gid || (p.kind != .treeBlock && p.kind != .treeFinish && p.kind != .treeReply)
/-- The cut of a group is complete (R275): at once in a group whose cores have not been started, which holds no context (R271). -/
def State.cutDone (s : State) (i : Nat) : Bool :=
  !(s.group i).begun || s.treesQuiet (s.group i).gid && (s.group i).cores.all fun k =>
    let c := s.coreAt k
    c.quiet && c.idles && c.slots.toList.all fun t => t.paddle || t.isParked

/-- The retirement test of a group whose cores have been started: every slot that is no paddle slot is FREE or RETIRED, the cores
are quiet, and no packet of the group is unanswered (R273). -/
def State.groupEnded (s : State) (i : Nat) : Bool :=
  (s.group i).begun && s.treesQuiet (s.group i).gid && (s.group i).cores.all fun k =>
    let c := s.coreAt k
    c.quiet && c.slots.toList.all fun t => t.paddle || t.st == .free || t.st == .retired
/-- Every store waiting at the port of a core is performed, in order (R40, R276). -/
def State.drainPortOf (s : State) (k : Nat) : State :=
  (List.range (s.coreAt k).sh.port.length).foldl (fun s _ => s.portPerform k 0) s

/-- CUT_COMPLETE: a suspension saves the group and releases its lane; a drain relaunches it (R273, R275,
R276, R279). A group that meets the retirement test retires (R281). -/
def execCutComplete (i : Nat) (s : State) : Host.Outcome State Fault Refusal :=
  let g := s.group i
  s.byLead (if !(s.cutDone i) then s
    else if g.cut ≠ .none ∧ s.groupEnded i then s.retireGroup i 0
    else
      match g.cut with
      | .suspend qs =>
        let old := s
        let s := g.cores.foldl (fun s k => s.atCore k State.takeLate) s
        let s := g.cores.foldl (fun s k => (s.drainPortOf k).freePaddlesAt k fun _ => true) s
        let v := s.saveGroup g
        let s := qs.foldl (fun s q => s.completeCurrent q 0) ((s.freeCores g.cores).dropGid g.gid)
        let s := s.onGroup i fun g => { g with st := .suspended, cut := .none, save := some v, cores := [], begun := false, rows := false }
        let s := (s.unmapped old g).retireLoose g
        { s with lead := { s.lead with passDue := true } }
      | .drain => s.relaunchGroup i
      | .none => s)

/-- CUT_DEADLINE: a suspension is given up, a drain relaunches (R273, R275); a group that meets the retirement test retires
(R281). -/
def execCutDeadline (i : Nat) (s : State) : Host.Outcome State Fault Refusal :=
  let g := s.group i
  s.byLead (if s.clock.ticks < g.cutTick + 2 ^ 26 ∨ s.cutDone i then s
    else if g.cut ≠ .none ∧ s.groupEnded i then s.retireGroup i 0
    else
      match g.cut with
      | .suspend _ => (s.endSuspend i 8).endCut i
      | .drain => s.relaunchGroup i
      | .none => s)

/-- RELAUNCH of a FAULTED group, once its engines are idle and nothing is unanswered, or after 2^20 ticks;
after eight restarts it retires with FAULT (R273, R279). -/
def execRelaunch (i : Nat) (s : State) : Host.Outcome State Fault Refusal :=
  let g := s.group i
  s.byLead (if g.st ≠ .faulted then s
    else if s.clock.ticks < g.faultAt + 2 ^ 20 ∧ !(s.treesQuiet g.gid && (g.cores.filter s.live).all fun k => (s.coreAt k).quiet) then s
    else if 8 ≤ g.rst then s.retireGroup i 9
    else s.relaunchGroup i)

/-- GROUP_RETIREMENT of a RUNNING group, or of one whose cut it ends (R273, R281). -/
def execGroupRetirement (i : Nat) (s : State) : Host.Outcome State Fault Refusal :=
  let g := s.group i
  s.byLead (if (g.st = .running ∨ (g.st = .draining ∧ g.cut ≠ .none)) ∧ s.groupEnded i then s.retireGroup i 0 else s)

/-! ## Placement and start (R274) -/

/-- The image of a kernel that is not RESIDENT, fetched at loading, still has the digest kept (R266). -/
def State.imageStands (s : State) (g : Group) : Bool :=
  match s.byHandle g.khandle.toNat with
  | none => false
  | some k =>
    let e := s.kern k
    e.st == .resident || digestOf (s.hostBytes e.addr.toNat e.size.toNat) == e.digest

/-- PLACEMENT: an admitted group whose panels have all admitted begins SEEDING; a SEEDING group retires
suspects, takes its seeding map, tests the fit again and is loaded (R266, R273, R274, R293). A relaunch or a resumption
reaches from here on what has healed since the group's admission (R342). It waits while a triad of the lane can put out no
transaction (R345, R346). -/
def execPlacement (i : Nat) (s : State) : Host.Outcome State Fault Refusal :=
  let g := s.group i
  s.byLead (match g.st with
    | .admitted =>
      if s.holdsLane i ∧ (g.npan ≤ 1 ∨ g.peersIn) then s.onGroup i fun g => { g with st := .seeding } else s
    | .seeding =>
      if !(s.laneVotes g) then s else
      let s := s.retireSuspects g
      if !(s.fitsAt g.image g.var (g.col0 / 8) (g.row0 / 4)) then s.rebid i
      else
        let again := g.resume || g.rst != 0
        let map := s.seedMap g [] fun _ => true
        let now := s.clock.ticks
        let s := s.onGroup i fun g => { g with st := .loading, skips := map, rows := true, since := if again then now else g.since }
        if g.resume then s.restoreGroup i
        else if s.imageStands g then s.loadGroup i
        else s.retireGroup i 3
    | .unused | .loading | .running | .draining | .suspended | .faulted | .retired => s)

/-- A loaded core starts: slot 0 READY and queued, and the scheduler entered with code 0 (R77, R79). -/
def Core.start (c : Core) (level : BitVec 2) (entry : BitVec 16) : Core :=
  let c := (c.onSlot 0 fun t => t.leaveFree level false).enqueue 0
  { c with ctl := { c.ctl with
      async := false, cause := 0, tval := 0, tpc := entry, priv := .s, issue := .run,
      pc := c.ctl.kvec.setWidth 16 <<< 12, slot := 0 } }
/-- A restored core resumes at its idle `SLEEP`, which writes 0 and completes (R53, R83, R276). -/
def Core.resumeIdle (c : Core) : Core :=
  match c.ctl.issue with
  | .idle d | .restored d =>
    { c with regs := { c.regs with g := bset c.regs.g d ⟨0, false⟩ }
             ctl := { c.ctl with pc := c.ctl.pc + 4, issue := .run } }.countN 2 1
  | .off | .run | .hold | .wait | .stopped => c

/-- GROUP_START: every core starts at once, and CKPT is formed again (R274 step 6, R278); the barrier's path takes in every
bank site of the lane that is LIVE (R344). -/
def execGroupStart (i : Nat) (s : State) : Host.Outcome State Fault Refusal :=
  let g := s.group i
  s.byLead (if g.st ≠ .loading ∨ !(s.laneVotes g) then s
    else
      let level : BitVec 2 := BitVec.ofNat 2 (g.image.level g.var)
      let entry : BitVec 16 := BitVec.ofNat 16 (g.image.entry g.var)
      let s := (s.closeWindows g.cores).coxWrites g.cores fun _ c => if g.resume then c.resumeIdle else c.start level entry
      let now := s.clock.ticks
      let out := (List.range 25).filter fun n => !(computeSite n) && g.touches n && !(s.siteLive n)
      (s.onGroup i fun g =>
        { g with st := .running, begun := true, started := now, healed := [], away := out, resume := false }.recommit (s.liveTags g)).rerouteBars i)

/-- PEER_PANEL_ADMISSION: every other listed panel has admitted its group (R293). -/
def execPeerPanelAdmission (gid : BitVec 16) (s : State) : Host.Outcome State Fault Refusal :=
  s.byLead (match s.groupOf gid with
    | some i =>
      if (s.group i).st = .admitted ∧ s.holdsLane i ∧ 1 < (s.group i).npan then
        s.onGroup i fun g => { g with st := .seeding, peersIn := true }
      else s
    | none => s)

/-- A group of several panels follows another one of its GID into FAULTED or DRAINING, from whatever state it is in; what
waits for it in the bid list is taken out, and a RESUME in progress passes with BUSY (R271). -/
def State.follow (s : State) (i : Nat) (draining : Bool) : State :=
  let g := s.group i
  let mine (b : Bid) : Bool := b.what == .relaunch i || (match b.what with | .resume j _ => j == i | _ => false)
  let waits := s.lead.bids.filterMap fun b => match b.what with | .resume j q => if j = i then some q else none | _ => none
  let off (s : State) : State :=
    waits.foldl (fun s q => s.completeCurrent q 8) { s with lead := { s.lead with bids := s.lead.bids.filter fun b => !(mine b) } }
  match g.st with
  | .running => if draining then s.drainGroup i none else s.faultGroup i
  | .seeding | .loading => if draining then (s.onGroup i fun g => { g with st := .draining }).beginCut i .drain else s.faultGroup i
  | .draining => if draining then s else s.faultGroup i
  | .admitted | .suspended =>
    let now := s.clock.ticks
    (off s).onGroup i fun g =>
      if draining then { g with st := .draining, cut := .drain, cutTick := now, cores := [], begun := false, save := none }
      else { g with st := .faulted, faultAt := now, cores := [], save := none }
  | .unused | .faulted | .retired => s

/-- PEER_PANEL_GROUP_FAULT: a group of the GID on another panel went FAULTED or DRAINING (R271). -/
def execPeerPanelGroupFault (gid : BitVec 16) (draining : Bool) (s : State) : Host.Outcome State Fault Refusal :=
  s.byLead (match s.groupOf gid with
    | some i => s.follow i draining
    | none => s)

/-! ## Paddle contexts (R280) -/

/-- The highest-numbered FREE slot. -/
def Core.lastFree (c : Core) : Option SlotId := allSlots.reverse.find? fun i => (c.slot i).st == .free
/-- A paddle context's block: every register 0, `TPC` = the entry, VLIVE = 0 (R91, R280). -/
def paddleBlock (entry : BitVec 16) : List (BitVec 8) :=
  List.replicate 0x148 0 ++ leBytes 8 entry.toNat ++ List.replicate (0x600 - 0x150) 0

/-- An offset lies in a TEXT section of a variant, and is a multiple of 4 (R280). -/
def Image.inText (m : Image) (v : Nat) (o : BitVec 16) : Bool :=
  o.toNat % 4 == 0 && (m.some? v tyText).any fun t => decide (t.load ≤ o.toNat) && decide (o.toNat < t.load + t.len)

/-- A kernel runs under the standard scheduler, with which the standard paddle routine stands: its SCHED section names entry page 9 and
the save area of R262, and the scheduler's text stands at that page (log entry 75). -/
def Image.standardSched (m : Image) (v : Nat) : Bool :=
  m.kvec v == 9 && m.sscr v == 0xA000 &&
    (m.some? v tyText).any fun t => t.var == 255 && t.load == 0x9000 && t.body == Config.standardText
/-- A value that a kernel's symbol `_paddle` may have: none where it is not defined, else an offset in TEXT (R280). -/
def Image.symbolOk (m : Image) (v : Nat) : Option (BitVec 16) → Bool
  | some e => m.inText v e
  | none => true
/-- Where a kernel's paddle context starts (R280): at its symbol `_paddle`, when it has one; else at the standard paddle routine, which
lies in the standard scheduler's code from 0x94C0 on (R403). A kernel with a scheduler of its own and no `_paddle` has none. -/
def Image.paddleEntry (m : Image) (v : Nat) (own : Option (BitVec 16)) : Option (BitVec 16) :=
  match own with
  | some e => some e
  | none => if m.standardSched v then some (BitVec.ofNat 16 (0x94C0 + 4 * (Config.paddleRoutine % 720))) else none

/-- PADDLE_CREATION in the selected core; own is the value of the kernel's symbol `_paddle`, where it is defined (R280): the first
creation for a kernel settles it (log entry 75). Where PADDLE has fallen or a cut is on, a paddle slot that is READY becomes FREE. -/
def execPaddleCreation (own : Option (BitVec 16)) (s : State) : Host.Outcome State Fault Refusal :=
  let c := s.core
  let paddles := c.slots.toList.any (·.paddle)
  if !(s.site (siteOf s.here)).triad.mayVote then .next s
  else if !c.ctl.paddle || c.sh.cut then .next (s.freePaddlesAt s.here fun t => t.st == .ready)
  else
    match s.groupOf c.ctl.gid, c.lastFree with
    | some i, some j =>
      let g := s.group i
      match s.byHandle g.khandle.toNat with
      | none => .next s
      | some k =>
        let own := (s.kern k).paddle.getD own
        if g.st ≠ .running ∨ paddles ∨ !(g.image.symbolOk g.var own) then .next s
        else
          let s := s.onKern k fun e => { e with paddle := some own }
          match g.image.paddleEntry g.var own with
          | none => .next s
          | some entry =>
            let off := ((g.image.sscr g.var).toNat + 1536 * j.toNat) % 65536
            let s := s.write s.here off (paddleBlock entry) false
            .next ({ s with core := (s.core.onSlot j fun t => t.leaveFree 3 true).enqueue j }.vote (siteOf s.here))
    | _, _ => .next s

end Sys2Proof.Machine
end

