-- ==== Sys2Proof/Machine/Queue.lean ====
section
/-! DEFINITION. Queues, commands, signals and admission (R282-R295), and the back-off of refused agents
(R302). -/

namespace Sys2Proof.Machine

/-! ## Queue states (R282, R283) -/

/-- The control window is open to host ports (R353 step 6). -/
def State.windowOpen (s : State) : Bool :=
  s.lead.isOpen || (s.lead.lead.isSome &&
    (decide (2 ^ 34 ≤ s.clock.ticks) || (List.range 25).all fun n =>
      match (s.site n).st with
      | .live | .safe | .empty => true
      | .seated | .training | .fenced | .draining | .lost => false))
/-- The window stays open once it has opened. -/
def State.openWindowOnce (s : State) : State := { s with lead := { s.lead with isOpen := s.windowOpen } }
/-- What a host does through the window of a working lead cox. -/
def State.byHost (s : State) (t : State → State) : Host.Outcome State Fault Refusal :=
  .next (if s.windowOpen && s.leadUp then t s.openWindowOnce else s)

/-- STATE = 1 written (R283). -/
def State.activate (s : State) (q : Nat) : State :=
  let u := s.queue q
  if u.st = .off ∧ 4 ≤ u.logn.toNat ∧ u.logn.toNat ≤ 12 ∧ u.base ≠ 0 then
    s.onQueue q fun u => { u with st := .active, head := 0, tail := 0 }
  else s
/-- A command of a stopping queue that ends with STOPPED: a WAITSIG, or a LAUNCH that no pass has admitted
(R283, R285, R290). -/
def Cmd.abandoned (c : Cmd) : Bool := !c.passed && (c.op == 4 || c.op == 1)
/-- STATE = 0 written (R283). -/
def State.stopQueue (s : State) (q : Nat) : State :=
  let u := s.queue q
  match u.st with
  | .off | .stopping => s
  | .active | .error =>
    if u.cmds = [] then s.onQueue q fun u => { u with st := .off }
    else
      let s := s.onQueue q fun u => { u with st := .stopping }
      match u.cmds.find? Cmd.abandoned with
      | none => s
      | some c =>
        { s with lead := { s.lead with bids := s.lead.bids.filter fun b => b.what != BidFor.launch q c.no } }.complete q c 11 0

/-- QUEUE_ACTIVATE (R283). -/
def execQueueActivate (q : BitVec 6) (_dom : BitVec 16) (s : State) : Host.Outcome State Fault Refusal :=
  s.byHost fun s => s.activate q.toNat
/-- QUEUE_STOP (R283). -/
def execQueueStop (q : BitVec 6) (_dom : BitVec 16) (s : State) : Host.Outcome State Fault Refusal :=
  s.byHost fun s => s.stopQueue q.toNat
/-- TAIL written (R283). A write while the queue is not ACTIVE changes nothing (DESIGN CHOICE, log entry 83). -/
def State.ring (s : State) (q : Nat) (tail : BitVec 16) : State :=
  let u := s.queue q
  if u.st = .active ∧ tail.toNat < 2 ^ u.logn.toNat then s.onQueue q fun u => { u with tail := tail } else s
/-- DOORBELL (R283). -/
def execDoorbell (q : BitVec 6) (_dom : BitVec 16) (tail : BitVec 16) (s : State) : Host.Outcome State Fault Refusal :=
  s.byHost fun s => s.ring q.toNat tail

/-! ## Fetching a command (R284, R285) -/

/-- A command entry as it stands in host memory (R284). -/
structure Entry where
  op   : Nat
  sub  : Nat
  zero : Bool
  cmpl : Nat
  a0   : Nat
  a1   : Nat
  a2   : Nat
  a3   : Nat
  deriving DecidableEq, Repr

/-- The entry at a ring index. -/
def State.ringAt (s : State) (q idx : Nat) : Entry :=
  let b := s.hostBytes ((s.queue q).base.toNat + 64 * idx) 64
  { op := imageNat b 0 1, sub := imageNat b 1 1, zero := allZero (cutBytes b 2 2) && allZero (cutBytes b 40 24),
    cmpl := imageNat b 4 4, a0 := imageNat b 8 8, a1 := imageNat b 16 8, a2 := imageNat b 24 8, a3 := imageNat b 32 8 }

/-- Page count of a PAGE command (R305). -/
def pageCount (a2 : Nat) : Nat := a2 % 2 ^ 32
/-- Operand bits of a PAGE command (R305). -/
def Entry.pageOk (e : Entry) : Bool :=
  decide (e.a0 < 2 ^ 57) && decide (e.a1 < 2 ^ 52) && decide (e.a2 < 2 ^ 34) && decide (1 ≤ pageCount e.a2)
    && decide (pageCount e.a2 ≤ 2 ^ 20) && e.a2 / 2 ^ 32 != 3
    && (if e.sub = 0 then decide (e.a3 < 8) else e.a3 == 0) && (e.sub != 1 || e.a1 == 0)
/-- The entry is not refused with FORMAT (R285, R286). -/
def Entry.ok (e : Entry) : Bool :=
  e.zero && e.cmpl == 0 &&
    match e.op with
    | 1 => e.sub == 0 && decide (e.a0 < 2 ^ 48) && decide (e.a1 < 2 ^ 11) && (decide (1 < e.a1) || e.a2 == 0) && e.a3 == 0
    | 2 => decide (e.sub ≤ 3) && decide (e.a2 < 2 ^ 32) && e.a3 == 0
    | 3 => decide (e.sub ≤ 1) && decide (e.a0 < 4096) && e.a2 == 0 && e.a3 == 0
    | 4 => e.sub == 0 && decide (e.a0 < 4096) && e.a2 == 0 && e.a3 == 0
    | 5 => e.sub == 0 && e.a0 == 0 && e.a1 == 0 && e.a2 == 0 && e.a3 == 0
    | 6 =>
      e.a2 == 0 && e.a3 == 0 &&
        (match e.sub with
          | 0 => decide (e.a0 < 2 ^ 24) && decide (e.a1 < 2)
          | 1 => decide (e.a0 < 2 ^ 12) && e.a1 == 0
          | 2 | 3 => decide (e.a0 < 2 ^ 16) && e.a1 == 0
          | _ => false)
    | 7 => decide (e.sub ≤ 2) && e.pageOk
    | _ => false

/-- COMMAND_FETCH: a posted entry is fetched once every earlier command has passed; a malformed one stops
the queue in ERROR with HEAD at it (R283, R285, R287). A SIGNAL passes at once. -/
def execCommandFetch (q : BitVec 6) (s : State) : Host.Outcome State Fault Refusal :=
  let u := s.queue q.toNat
  s.byLead (if u.st ≠ .active ∨ u.head = u.tail ∨ u.cmds.any (fun c => !c.passed) then s
    else
      let idx := u.head.toNat
      let e := s.ringAt q.toNat idx
      if !e.ok then
        (s.hostWrite (u.base.toNat + 64 * idx + 4) (leBytes 4 (cmplWord 1 0))).onQueue q.toNat fun u => { u with st := .error }
      else
        let c : Cmd :=
          { no := s.lead.cmdNo, idx := idx, op := BitVec.ofNat 8 e.op, sub := BitVec.ofNat 8 e.sub, a0 := BitVec.ofNat 64 e.a0,
            a1 := BitVec.ofNat 64 e.a1, a2 := BitVec.ofNat 64 e.a2, a3 := BitVec.ofNat 64 e.a3, passed := e.op == 3,
            done := false, bid := false, moved := if e.op = 1 then s.clock.ticks else 0, group := none, wait := .none, leaf := none }
        { s with lead := { s.lead with cmdNo := s.lead.cmdNo + 1 } }.onQueue q.toNat fun u =>
          { u with cmds := u.cmds ++ [c], head := BitVec.ofNat 16 ((idx + 1) % 2 ^ u.logn.toNat) })

/-- The command of a queue that runs, when it has an operation and a sub-operation and satisfies p. -/
def State.running? (s : State) (q : Nat) (op : Nat) (p : Cmd → Bool) : Option Cmd :=
  (s.queue q).current.filter fun c => c.op.toNat == op && p c
/-- Change the command that runs. -/
def State.onCurrent (s : State) (q : Nat) (f : Cmd → Cmd) : State :=
  match (s.queue q).current with
  | some c => s.onQueue q fun u => { u with cmds := mapFirst (·.no == c.no) f u.cmds }
  | none => s

/-! ## Launches (R290, R293) -/

/-- Cluster positions in scan order: cy ascending, then cx (R290). -/
def positions : List (Nat × Nat) := (List.range 40).flatMap fun cy => (List.range 40).map fun cx => (cx, cy)
/-- Kernel handle of a LAUNCH (R286). -/
def Cmd.handle (c : Cmd) : Nat := c.a0.toNat % 2 ^ 32
/-- GIDREQ of a LAUNCH. -/
def Cmd.gidReq (c : Cmd) : BitVec 16 := c.a0.extractLsb' 32 16
/-- NPAN of a LAUNCH. -/
def Cmd.npan (c : Cmd) : Nat := c.a1.toNat % 2 ^ 11
/-- R293: what NPAN asks of GIDREQ and the panel list, whose entries are 16-bit system numbers (log
entry 20). -/
def State.panelsOk (s : State) (c : Cmd) : Bool :=
  if c.npan = 1 then c.gidReq == 0
  else
    decide (2 ≤ c.npan) && decide (c.npan ≤ 1024) && c.gidReq != 0
      && (List.range c.npan).any fun i => imageNat (s.hostBytes (c.a2.toNat + 2 * i) 2) 0 2 == s.links.sysnum.toNat
/-- Some variant and position satisfy a condition. -/
def Image.anywhere (m : Image) (p : Nat → Nat → Nat → Bool) : Bool :=
  m.variants.any fun v => positions.any fun (cx, cy) => p v cx cy
/-- The fixed checks of a launch in order; none when it enters the bid list (R285, R290, R293). -/
def State.launchFault (s : State) (q : Nat) (c : Cmd) : Option Nat :=
  if !(s.panelsOk c) then some 1
  else
    match s.byHandle c.handle with
    | none => some 2
    | some k =>
      let m := (s.kern k).image
      if m.dom ≠ (s.queue q).dom then some 10
      else if !(m.anywhere fun v cx cy => s.fitsAt m v cx cy) then some 6
      else if m.sects.any fun t => t.ty == tyDrawGen && imageNat t.body 0 8 != s.lead.drawGen.toNat then some 4
      else if !(m.anywhere fun v cx cy =>
          decide (cx + m.laneW v ≤ 40) && decide (cy + m.laneH v ≤ 40) && m.rootsFit v cx cy) then some 5
      else none

/-- A new bid; an admission pass is due (R290). -/
def State.newBid (s : State) (b : Bid) : State := { s with lead := { s.lead with bids := s.lead.bids ++ [b], passDue := true } }
/-- LAUNCH: the fixed checks, then a bid (R287, R290). -/
def execLaunch (q : BitVec 6) (s : State) : Host.Outcome State Fault Refusal :=
  s.byLead (match s.running? q.toNat 1 (!·.bid) with
    | none => s
    | some c =>
      match s.launchFault q.toNat c with
      | some st => s.complete q.toNat c st 0
      | none =>
        (s.onCurrent q.toNat fun c => { c with bid := true }).newBid
          ⟨.launch q.toNat c.no, (s.queue q.toNat).cls.toNat, c.moved, q.toNat, 0, none⟩)

/-! ## Admission (R268, R290-R293) -/

/-- Rank of bids: class, age, queue number (R290). -/
def Bid.before (a b : Bid) : Bool :=
  decide (a.cls < b.cls) || (a.cls == b.cls && (decide (a.age < b.age) || (a.age == b.age && decide (a.q < b.q))))
/-- The LAUNCH of a bid, by its command number. -/
def State.bidCmd (s : State) (q no : Nat) : Option Cmd := (s.queue q).cmds.find? fun c => c.no == no
/-- The image a bid places. -/
def State.bidImage (s : State) (b : Bid) : Image :=
  match b.what with
  | .launch q no =>
    match (s.bidCmd q no).bind fun c => s.byHandle c.handle with
    | some k => (s.kern k).image
    | none => Image.empty
  | .relaunch g | .resume g _ => (s.group g).image
/-- The group whose estimate a bid leaves out (R292). -/
def Bid.own (b : Bid) : Option Nat :=
  match b.what with
  | .launch _ _ => none
  | .relaunch g | .resume g _ => some g
/-- The variant a bid places (R268, R273). -/
def State.bidVariant (s : State) (b : Bid) : Option Nat :=
  let m := s.bidImage b
  match b.what with
  | .launch _ _ => s.chooseVariant m none none
  | .relaunch g => s.chooseVariant m (some g) (s.group g).after
  | .resume g _ => if s.affords (some g) (m.est (s.group g).var) then some (s.group g).var else none
/-- A rectangle lies in another entry's reservation (R290). -/
def State.reservedByOther (s : State) (b : Bid) (r : Nat × Nat × Nat × Nat) : Bool :=
  s.lead.bids.any fun o => o.what != b.what &&
    match o.resv with
    | some (cx, cy, v) => rectsMeet r (cx, cy, (s.bidImage o).laneW v, (s.bidImage o).laneH v)
    | none => false
/-- The variant a bid reserves for: that of a RESUME is fixed, whatever the budget (R273, R291). -/
def State.reservedVariant (s : State) (b : Bid) : Option Nat :=
  match b.what with
  | .resume g _ => some (s.group g).var
  | .launch _ _ | .relaunch _ => s.bidVariant b
/-- A first origin in scan order: R269, root placement, no reservation of another entry, and no group where
occupancy counts (R290, R291). -/
def State.scan (s : State) (b : Bid) (v : Nat) (occupancy : Bool) : Option (Nat × Nat) :=
  let m := s.bidImage b
  positions.find? fun (cx, cy) =>
    let r := (cx, cy, m.laneW v, m.laneH v)
    decide (cx + m.laneW v ≤ 40) && decide (cy + m.laneH v ≤ 40) && !(occupancy && s.occupied r)
      && !(s.reservedByOther b r) && m.rootsFit v cx cy && s.fitsAt m v cx cy
/-- Where a pass places a bid: its reservation, or the first free origin (R290, R291). -/
def State.spot (s : State) (b : Bid) : Option (Nat × Nat × Nat) :=
  let m := s.bidImage b
  match b.resv with
  | some (cx, cy, v) =>
    if s.affords b.own (m.est v) && !(s.occupied (cx, cy, m.laneW v, m.laneH v)) && m.rootsFit v cx cy
        && s.fitsAt m v cx cy then some (cx, cy, v) else none
  | none => (s.bidVariant b).bind fun v => (s.scan b v true).map fun (cx, cy) => (cx, cy, v)

/-- GID n in use by a group that is not RETIRED (R271). -/
def State.gidUsed (s : State) (n : BitVec 16) : Bool := n == 0 || (s.groupOf n).isSome
/-- The next GID not in use after n (R271). -/
def State.nextGid (s : State) (n : BitVec 16) : Nat → BitVec 16
  | 0 => n
  | k + 1 => if s.gidUsed (n + 1) then s.nextGid (n + 1) k else n + 1
/-- A free index of the group table: unused, or RETIRED (R272). -/
def State.freeGroup (s : State) : Option Nat :=
  (List.range 1024).find? fun i => (s.group i).st == .unused || (s.group i).st == .retired
/-- While ALIGNED is 0 no group of several panels is admitted (R325). -/
def State.unaligned (s : State) (npan : Nat) : Bool := decide (1 < npan) && !s.clock.aligned
/-- What holds back a launch: ALIGNED 0, or its GIDREQ in use (R293, R325). -/
def State.heldBack (s : State) (c : Cmd) : Bool := s.unaligned c.npan || (decide (1 < c.npan) && s.gidUsed c.gidReq)

/-- The bid is done with. -/
def State.dropBid (s : State) (w : BidFor) : State :=
  { s with lead := { s.lead with bids := s.lead.bids.filter fun b => b.what != w } }
/-- A group takes its lane and variant (R271, R273). -/
def Group.placed (g : Group) (m : Image) (cx cy v : Nat) : Group :=
  { g with col0 := 8 * cx, row0 := 4 * cy, w := m.laneW v, h := m.laneH v, var := v, est := m.est v, limit := m.limit v,
           after := none }
/-- Admission of a bid at a spot (R271-R273, R287, R294). At the admission of a resumption the other RESUMEs of the group pass with
BUSY. -/
def State.admitBid (s : State) (b : Bid) (cx cy v : Nat) : Option State :=
  let m := s.bidImage b
  match b.what with
  | .relaunch g =>
    if s.unaligned (s.group g).npan then none else some ((s.onGroup g fun g => g.placed m cx cy v).dropBid b.what)
  | .resume g q =>
    if s.unaligned (s.group g).npan then none
    else
      let others := s.lead.bids.filterMap fun o => match o.what with | .resume j p => if j = g ∧ p ≠ q then some p else none | _ => none
      let s := (s.onGroup g fun g => { g.placed m cx cy v with st := .seeding, resume := true }).completeCurrent q 0
      let s := { s with lead := { s.lead with bids := s.lead.bids.filter fun o => o.own != some g } }
      some (others.foldl (fun s p => s.completeCurrent p 8) s)
  | .launch q no =>
    match s.bidCmd q no, s.freeGroup with
    | some c, some i =>
      if s.heldBack c then none
      else
        let gid := if 1 < c.npan then c.gidReq else s.nextGid s.lead.gids 65536
        let g : Group :=
          { Group.reset with
            st := .admitted, gid := gid, ckpt := 0xFFFFFFFF, khandle := BitVec.ofNat 32 c.handle, dom := m.dom, cls := b.cls,
            age := b.age, order := s.lead.orders, queue := q, image := m, npan := c.npan,
            since := s.clock.ticks }
        let s := s.onGroup i fun _ => g.placed m cx cy v
        let s := s.onQueue q fun u =>
          { u with cmds := mapFirst (·.no == c.no) (fun c => { c with passed := true, group := some i }) u.cmds }
        let s := { s with lead := { s.lead with
          gids := if 1 < c.npan then s.lead.gids else gid, orders := s.lead.orders + 1 } }
        some (s.dropBid b.what)
    | _, _ => none
/-- One bid tried. -/
def State.tryBid (s : State) (b : Bid) : Option State := (s.spot b).bind fun (cx, cy, v) => s.admitBid b cx cy v

/-- Change an entry of the bid list. -/
def State.onBid (s : State) (w : BidFor) (f : Bid → Bid) : State :=
  { s with lead := { s.lead with bids := mapFirst (·.what == w) f s.lead.bids } }
/-- RESERVATION: an entry bypassed B times takes the first origin that meets R269 and overlaps no other
reservation (R291). -/
def State.reserve (s : State) (w : BidFor) : State :=
  match s.lead.bids.find? (·.what == w) with
  | none => s
  | some b =>
    if b.resv.isSome ∨ b.bypass < s.lead.bound.toNat then s
    else
      match (s.reservedVariant b).bind fun v => (s.scan b v false).map fun (cx, cy) => (cx, cy, v) with
      | some r => s.onBid w fun b => { b with resv := some r }
      | none => s
/-- B written: the entries that have reached it reserve, in rank order (R291, R295). -/
def State.setBound (s : State) (b : BitVec 4) : State :=
  let s := { s with lead := { s.lead with bound := b } }
  ((sortBy Bid.before s.lead.bids).map fun (b : Bid) => b.what).foldl State.reserve s
/-- The entries that failed to place are bypassed by one admitted (R291). -/
def State.bypassed (s : State) (l : List BidFor) : State := l.foldl (fun s w => s.onBid w fun b => { b with bypass := b.bypass + 1 }) s
/-- A reservation once a higher-ranked entry has reserved: it stands unless the two overlap, and else is the first origin for the same
variant that overlaps no other (R291). -/
def State.keepReservation (s : State) (w : BidFor) (cx cy v : Nat) : State :=
  match s.lead.bids.find? (·.what == w) with
  | none => s
  | some b =>
    let m := s.bidImage b
    if !(s.reservedByOther b (cx, cy, m.laneW v, m.laneH v)) then s.onBid w fun b => { b with resv := some (cx, cy, v) }
    else
      match s.scan b v false with
      | some (x, y) => s.onBid w fun b => { b with resv := some (x, y, v) }
      | none => s
/-- An entry reserves before lower-ranked ones that have reached B in the same pass (R291, R295). -/
def State.reserveBefore (s : State) (w : BidFor) (lower : List BidFor) : State :=
  let held := s.lead.bids.filterMap fun b => if lower.contains b.what then b.resv.map fun r => (b.what, r) else none
  let t := lower.foldl (fun s o => s.onBid o fun b => { b with resv := none }) s
  held.foldl (fun s o => s.keepReservation o.1 o.2.1 o.2.2.1 o.2.2.2) (t.reserve w)
/-- BYPASS of the entry has just reached B (R291). -/
def State.reaches? (s : State) (w : BidFor) : Bool :=
  s.lead.bids.any fun b => b.what == w && b.resv.isNone && b.bypass == s.lead.bound.toNat
/-- The entries that have failed in a pass, in rank order, and that reach B now take their reservations; taken are those that have reached
it in the pass before (R291, R295). The entries that have by now. -/
def State.reserveReached (s : State) (failed taken : List BidFor) : State × List BidFor :=
  let now := failed.filter s.reaches?
  let below (w : BidFor) : List BidFor := ((failed.dropWhile (· != w)).drop 1).filter taken.contains
  (now.foldl (fun (s : State) w => s.reserveBefore w (below w)) s, taken ++ now)
/-- The entries of a pass in rank order; failed are those tried before, taken those that have reached B in the pass. One that has reached
it before tries again to reserve (R290, R291). -/
def State.passOver (s : State) (taken failed : List BidFor) : List BidFor → State
  | [] => s
  | w :: r =>
    match s.lead.bids.find? (·.what == w) with
    | none => s.passOver taken failed r
    | some b =>
      match s.tryBid b with
      | some t =>
        let (u, taken) := (t.bypassed failed).reserveReached failed taken
        u.passOver taken failed r
      | none => (s.reserve w).passOver taken (failed ++ [w]) r
/-- An admission pass (R290); none is due after it, unless a BUDGET command of this very tick asks for one under the new budget (R292,
R295). -/
def State.pass (s : State) : State :=
  { s with lead := { s.lead with passDue := s.lead.was.2 == s.clock.ticks && s.lead.was.1 != s.lead.budget } }.passOver [] []
    ((sortBy Bid.before s.lead.bids).map fun (b : Bid) => b.what)
/-- ADMISSION_PASS (R290). One that is due runs before the next row of the lead cox (R295). -/
def execAdmissionPass (s : State) : Host.Outcome State Fault Refusal := s.byLead s.pass

/-! ## COPY (R289, R301) -/

/-- One end of a piece of a COPY: a memory key, or what stands in the way. -/
inductive CopyEnd
  | at (key : Nat)
  | fails
  | waits (perm : Bool)
  | migrating
  | stalled
  deriving DecidableEq, Repr

/-- An end of a COPY: a host address, or a far address translated through the lead cox's tile (R289,
R296). -/
def State.copyEnd (s : State) (q : Nat) (isHost : Bool) (a : BitVec 64) (need : BitVec 3) : CopyEnd × State :=
  if isHost then (.at (hostBase + a.toNat), s)
  else if !(isFar a) ∨ a.extractLsb' 57 5 ≠ 0 then (.fails, s)
  else
    let (r, t) := s.translateTile (s.lead.lead.getD 0) (s.queue q).dom (a.toNat % 2 ^ 57) need
    match r with
    | .ok f => (if t.served f then .at (farKey f) else .fails, t)
    | .notMapped => (.waits false, t)
    | .perm => (.waits true, t)
    | .migrating => (.migrating, t)
    | .bad => (.fails, t)
    | .stalled => (.stalled, t)

/-- A COPY meets a fault: it joins a record, or is refused and backs off (R301, R302). -/
def State.copyWaits (s : State) (q step : Nat) (a : BitVec 64) (need : BitVec 3) (perm : Bool) : State :=
  let n := s.lead.lead.getD 0
  let k := keyOf (64 * (n % 5)) (32 * (n / 5))
  let f : Faulter := ⟨n, (s.queue q).dom, a.toNat % 2 ^ 57, need, .copy q, k, 0, 4⟩
  if !(s.site n).triad.mayVote || s.outOfTurn f perm then s
  else
    match s.faultRecord f perm with
    | some (i, t) => t.onCurrent q fun c => { c with wait := .record n i }
    | none =>
      s.onCurrent q fun c =>
        { c with wait := .refused (min step 6) (s.clock.ticks + backoffTicks (s.rclkOf k) (min step 6)) }

/-- Bytes to the end of a 64 KiB page, all of n for a host address. -/
def toPageEnd (isHost : Bool) (a : BitVec 64) (n : Nat) : Nat := if isHost then n else min n (65536 - a.toNat % 65536)
/-- A CXL access to a line of far memory, by its key, ends in error in this step (R328). -/
def State.keyError (s : State) (key : Nat) : Bool := decide (key < hostBase) && s.lineError (key - farBase)
/-- Lines of a piece from x to y before the first that is poisoned or whose read or write ends in error. -/
def State.cleanLines (s : State) (x y : Nat) : Nat → Nat
  | 0 => 0
  | n + 1 =>
    if ((List.range 8).any fun i => s.poisoned (x + 8 * i)) || s.keyError x || s.keyError y then 0
    else 1 + s.cleanLines (x + 64) (y + 64) n
/-- Bytes of a piece that a COPY moves before poison or a CXL error, one at byte e of the piece among them. -/
def State.goodBytes (s : State) (x y n : Nat) (err : Option Nat) : Nat :=
  let m := 64 * s.cleanLines x y (n / 64)
  match err with
  | some e => min m (e / 64 * 64)
  | none => m

/-- A COPY moves up to the next page boundary of either end (R289). -/
def State.copyPiece (s : State) (q step : Nat) (c : Cmd) (err : Option Nat) : State :=
  let len := c.a2.toNat
  let hs := c.sub.getLsbD 0
  let hd := c.sub.getLsbD 1
  let src := c.a0 + BitVec.ofNat 64 c.moved
  let dst := c.a1 + BitVec.ofNat 64 c.moved
  let n := toPageEnd hd dst (toPageEnd hs src (min 65536 (len - c.moved)))
  match s.copyEnd q hs src permRD with
  | (.fails, t) => t.complete q c 7 0
  | (.waits p, t) => t.copyWaits q step src permRD p
  | (.migrating, t) => t.onCurrent q fun c => { c with wait := .migrating (src.toNat % 2 ^ 57) }
  | (.stalled, t) => t
  | (.at x, t) =>
    match t.copyEnd q hd dst permWR with
    | (.fails, t) => t.complete q c 7 0
    | (.waits p, t) => t.copyWaits q step dst permWR p
    | (.migrating, t) => t.onCurrent q fun c => { c with wait := .migrating (dst.toNat % 2 ^ 57) }
    | (.stalled, t) => t
    | (.at y, t) =>
      let m := t.goodBytes x y n (err.map (· - c.moved))
      let t := t.poke y ((List.range m).map fun i => t.byte (x + i)) false
      if m < n then t.complete q c 7 0
      else if c.moved + n = len then t.complete q c 0 0
      else t.onCurrent q fun c => { c with moved := c.moved + n, wait := .none }

/-- COPY: a wrong LEN is FORMAT, a misaligned address ADDR; a piece moves when nothing is waited for (R289,
R301, R303). A record it waits on is that of the tile that held the lead when it faulted (R352); one that the COPY joins no more is
gone, and the piece is tried again. err is the byte of the COPY at which CXL reports an error. -/
def execCopy (q : BitVec 6) (err : Option Nat) (s : State) : Host.Outcome State Fault Refusal :=
  s.byLead (match s.running? q.toNat 2 fun _ => true with
    | none => s
    | some c =>
      let q := q.toNat
      let len := c.a2.toNat
      if len % 64 ≠ 0 ∨ len < 64 ∨ 2 ^ 30 < len then s.complete q c 1 0
      else if c.a0.toNat % 64 ≠ 0 ∨ c.a1.toNat % 64 ≠ 0 then s.complete q c 7 0
      else
        match c.wait with
        | .none | .migrating _ => s.copyPiece q 0 c err
        | .refused _ _ => s
        | .record n i =>
          match if (s.faultAt n i).join.contains (.copy q) then s.recState (s.faultAt n i) else .free with
          | .pending => s
          | .failed => (s.deliverRec n i (.copy q)).complete q c 7 0
          | .resolved | .free => (s.deliverRec n i (.copy q)).copyPiece q 0 c err)

/-- REFUSAL_RETRY: the refused streams of the selected core and the refused COPY commands whose back-off has
expired translate again; a refused atomic does so when it is executed again (R302). -/
def execRefusalRetry (s : State) : Host.Outcome State Fault Refusal :=
  let again (s : State) (q : Nat) : State :=
    match s.running? q 2 fun _ => true with
    | some c =>
      match c.wait with
      | .refused k due => if due ≤ s.clock.ticks then s.copyPiece q (k + 1) c none else s
      | .none | .record _ _ | .migrating _ => s
    | none => s
  let t := s.retryStreams
  .next (if t.leadUp then (List.range 64).foldl again t else t)

/-! ## Signals, fences, power (R287, R288, R292, R294) -/

/-- A signal. -/
def State.signal (s : State) (i : Nat) : BitVec 64 := tget 0 s.lead.signals i
/-- The WAITSIG that a queue runs passes when its signal has reached its value (R288). -/
def State.testWait (s : State) (q : Nat) : State :=
  match s.running? q 4 fun c => decide (c.a1 ≤ s.signal (c.a0.toNat % 4096)) with
  | some c => s.complete q c 0 0
  | none => s
/-- Write a signal: every WAITSIG on it tests it again at once (R288, R295). -/
def State.setSignal (s : State) (i : Nat) (v : BitVec 64) : State :=
  (List.range 64).foldl (fun (s : State) q =>
    if ((s.queue q).current.any fun c => c.a0.toNat % 4096 == i) then s.testWait q else s)
    { s with lead := { s.lead with signals := tset 0 s.lead.signals i v } }
/-- The oldest command of a queue, when it is a SIGNAL: every earlier one has completed (R287). -/
def State.oldestSignal (s : State) (q : Nat) : Option Cmd := (s.queue q).cmds.head?.filter fun c => c.op == 3
/-- A SIGNAL of a kind that is due and that no lower queue's SIGNAL to the same signal goes before (R287, R295). -/
def State.signalDue (s : State) (q : Nat) (sub : BitVec 8) : Option Cmd :=
  (s.oldestSignal q).filter fun c =>
    c.sub == sub && (List.range q).all fun o => (s.oldestSignal o).all fun d => d.a0.toNat % 4096 != c.a0.toNat % 4096

/-- SIGNAL SET (R288). -/
def execSignalSet (q : BitVec 6) (s : State) : Host.Outcome State Fault Refusal :=
  s.byLead (match s.signalDue q.toNat 0 with
    | some c => (s.setSignal (c.a0.toNat % 4096) c.a1).complete q.toNat c 0 0
    | none => s)
/-- SIGNAL ADD (R288). -/
def execSignalAdd (q : BitVec 6) (s : State) : Host.Outcome State Fault Refusal :=
  s.byLead (match s.signalDue q.toNat 1 with
    | some c => (s.setSignal (c.a0.toNat % 4096) (s.signal (c.a0.toNat % 4096) + c.a1)).complete q.toNat c 0 0
    | none => s)
/-- WAITSIG (R287, R288). -/
def execWaitsig (q : BitVec 6) (s : State) : Host.Outcome State Fault Refusal := s.byLead (s.testWait q.toNat)
/-- FENCE: every earlier command has completed (R287). -/
def execQueueFence (q : BitVec 6) (s : State) : Host.Outcome State Fault Refusal :=
  s.byLead (match s.running? q.toNat 5 fun _ => (s.queue q.toNat).cmds.length == 1 with
    | some c => s.complete q.toNat c 0 0
    | none => s)

/-- Estimates of the groups that are not DRAINING (R292). -/
def State.steady (s : State) : Nat :=
  s.lead.groups.foldl (fun n e =>
    match e.2.st with
    | .unused | .retired | .suspended | .draining => n
    | .admitted | .seeding | .loading | .running | .faulted => n + e.2.est) 0
/-- The RUNNING group a ramp emergency drains next: highest class, then latest admitted (R292). -/
def State.drainNext (s : State) : Option Nat :=
  ((sortBy (fun a b => decide (b.2.cls < a.2.cls) || (a.2.cls == b.2.cls && decide (b.2.order < a.2.order)))
    (s.lead.groups.filter fun e => e.2.st == .running)).head?).map (·.1)
/-- RAMP_EMERGENCY: groups drain while the estimates exceed BUDGET (R292, R372); a drained group takes a
variant after its own (R268). -/
def State.drainOver (s : State) : Nat → State
  | 0 => s
  | n + 1 =>
    if s.steady ≤ s.lead.budget.toNat then s
    else
      match s.drainNext with
      | some i => (s.drainGroup i (some (s.group i).var)).drainOver n
      | none => s
/-- A ramp emergency arises (R372). -/
def State.emergency (s : State) : State := { s with power := { s.power with emerg := true } }.drainOver 1024

/-- POWER BUDGET (R286, R292). -/
def execPowerBudget (q : BitVec 6) (s : State) : Host.Outcome State Fault Refusal :=
  s.byLead (match s.running? q.toNat 6 (·.sub == 0) with
    | none => s
    | some c =>
      if (s.queue q.toNat).dom ≠ 0 then s.complete q.toNat c 10 0
      else
        let s := { s with lead := { s.lead with
          budget := c.a0.extractLsb' 0 24, was := (s.budgetNow, s.clock.ticks), passDue := true } }
        (if c.a1.getLsbD 0 then s.emergency else s).complete q.toNat c 0 0)
/-- The limit a RAMP command sets (R369). -/
def rampLimit (n : Nat) : Nat := if n = 0 then 180 else if n < 18 then 18 else if 3600 < n then 3600 else n
/-- L as a sample of this tick takes it: a RAMP command of the same tick leaves it the old L (R378). -/
def State.limitNow (s : State) : Nat := if s.power.was.2 = s.clock.ticks then s.power.was.1 else s.power.limit
/-- POWER RAMP (R286, R369). -/
def execPowerRamp (q : BitVec 6) (s : State) : Host.Outcome State Fault Refusal :=
  s.byLead (match s.running? q.toNat 6 (·.sub == 1) with
    | none => s
    | some c =>
      if (s.queue q.toNat).dom ≠ 0 then s.complete q.toNat c 10 0
      else
        let was := (s.limitNow, s.clock.ticks)
        { s with power := { s.power with limit := rampLimit (c.a0.toNat % 4096), was := was } }.complete q.toNat c 0 0)
/-- The group a SUSPEND or RESUME names, or the status it passes with (R294). -/
def State.powerGroup (s : State) (q : Nat) (c : Cmd) : Except Nat Nat :=
  match s.groupOf (c.a0.extractLsb' 0 16) with
  | none => .error 8
  | some i => if (s.group i).dom ≠ (s.queue q).dom then .error 10 else .ok i
/-- POWER SUSPEND; one of a group that a suspension already cuts waits for the same cut (R294). -/
def execPowerSuspend (q : BitVec 6) (s : State) : Host.Outcome State Fault Refusal :=
  s.byLead (match s.running? q.toNat 6 fun c => c.sub == 2 && !c.bid with
    | none => s
    | some c =>
      match s.powerGroup q.toNat c with
      | .error st => s.complete q.toNat c st 0
      | .ok i =>
        let t := s.onCurrent q.toNat fun c => { c with bid := true }
        if (s.group i).st ≠ .running then s.complete q.toNat c 8 0
        else
          match (s.group i).cut with
          | .suspend qs => t.onGroup i fun g => { g with cut := .suspend (qs ++ [q.toNat]) }
          | .none | .drain => t.beginCut i (.suspend [q.toNat]))
/-- POWER RESUME (R294). -/
def execPowerResume (q : BitVec 6) (s : State) : Host.Outcome State Fault Refusal :=
  s.byLead (match s.running? q.toNat 6 fun c => c.sub == 3 && !c.bid with
    | none => s
    | some c =>
      match s.powerGroup q.toNat c with
      | .error st => s.complete q.toNat c st 0
      | .ok i =>
        let g := s.group i
        if g.st ≠ .suspended then s.complete q.toNat c 8 0
        else
          (s.onCurrent q.toNat fun c => { c with bid := true }).newBid ⟨.resume i q.toNat, g.cls, g.age, g.queue, 0, none⟩)

end Sys2Proof.Machine
end

