-- ==== Sys2Proof/Machine/Page.lean ====
section
/-! DEFINITION. PAGE commands, fault records and domains (R297, R298, R303, R305-R309). -/

namespace Sys2Proof.Machine

/-! ## Tables (R297, R298) -/

/-- An entry of a page table. -/
def State.tableEntry (s : State) (a : Nat) : BitVec 64 := BitVec.ofNat 64 (s.readClean (farKey a) 8)
/-- An entry written whole (R298). -/
def State.setEntry (s : State) (a : Nat) (e : BitVec 64) : State := s.poke (farKey a) (leBytes 8 e.toNat) false
/-- ADDR of an entry. -/
def entryTarget (e : BitVec 64) : Nat := (e.extractLsb' 12 40).toNat * 4096
/-- A leaf entry; perms holds RD, WR, AT (R298). -/
def leafEntry (fpa : Nat) (perms : BitVec 3) (mig : Bool) : BitVec 64 :=
  BitVec.ofNat 64 (fpa / 4096 * 4096) ||| fieldAt (BitVec.ofBool mig) 5 ||| fieldAt perms 2 ||| 3
/-- A pointer entry. -/
def pointerEntry (table : Nat) : BitVec 64 := BitVec.ofNat 64 (table / 4096 * 4096) ||| 1
/-- Everything in n bytes of far memory becomes zero, without poison. -/
def State.clearFar (s : State) (fpa n : Nat) : State :=
  { s with mem := tclear s.mem (farKey fpa) (farKey fpa + n)
           pois := tclear s.pois (farKey fpa / 8) ((farKey fpa + n) / 8) }

/-- What stands at an address in a domain's table, looked for at a level. -/
inductive Leaf
  /-- The entry at the level: its place and word. -/
  | entry (a : Nat) (e : BitVec 64)
  /-- No table of the level stands there: an entry above is invalid, at its place and level. -/
  | missing (a level : Nat)
  /-- A leaf of a larger size stands there, or a table that cannot be read: no port serves it (R329), or its line is
  poisoned or in error (R298). -/
  | blocked
  deriving DecidableEq, Repr

/-- A table line can be read and written (R298, R329). -/
def State.tableLine (s : State) (a : Nat) : Bool := s.served a && !(s.linePoison a) && !(s.lineError a)
/-- The entry for VA at a level, from a table of level on; n levels remain to it. -/
def State.findLeaf (s : State) (va table level : Nat) : Nat → Leaf
  | 0 =>
    let a := entryAddr table level va
    if s.tableLine a then .entry a (s.tableEntry a) else .blocked
  | n + 1 =>
    let a := entryAddr table level va
    let e := s.tableEntry a
    if !(s.tableLine a) then .blocked
    else if !(e.getLsbD 0) then .missing a level
    else if e.getLsbD 1 then .blocked
    else s.findLeaf va (entryTarget e) (level + 1) n

/-- A valid leaf stands in a table or below it (R305), or the table is not served; n levels below it remain. -/
def State.anyLeaf (s : State) (table : Nat) : Nat → Bool
  | 0 => !(s.served table) || (List.range 32).any fun i => (s.tableEntry (table + 8 * i)).getLsbD 0
  | n + 1 =>
    !(s.served table) || (List.range 512).any fun i =>
      let e := s.tableEntry (table + 8 * i)
      e.getLsbD 0 && (e.getLsbD 1 || s.anyLeaf (entryTarget e) n)

/-- Level of a page size code (R297, R305). -/
def sizeLevel (size : Nat) : Nat := 4 - size
/-- Bytes of a page of a size code. -/
def pageBytes (size : Nat) : Nat := 2 ^ levelShift (sizeLevel size)

/-- The entry of a page: none when a valid leaf of another size overlaps it (R305). -/
def State.pageLeaf (s : State) (d : Domain) (va size : Nat) : Option Leaf :=
  let level := sizeLevel size
  match s.findLeaf va d.spec.root.toNat 0 level with
  | .blocked => none
  | .entry a e =>
    if e.getLsbD 0 && !(e.getLsbD 1) then
      if level < 4 ∧ s.anyLeaf (entryTarget e) (3 - level) then none else some (.entry a 0)
    else some (.entry a e)
  | .missing a l => some (.missing a l)

/-- Tables taken from the pool of a domain down to a level; the place of the page's entry (R297). -/
def State.makeTables (s : State) (dom : BitVec 16) (va a level : Nat) : Nat → Option (Nat × State)
  | 0 => some (a, s)
  | n + 1 =>
    match s.domain dom with
    | none => none
    | some d =>
      match d.pool with
      | [] => none
      | t :: r =>
        if !(s.served t.toNat) then none else
        let s := { s with pages := { s.pages with domains := tset none s.pages.domains dom.toNat (some { d with pool := r }) } }
        let s := (s.clearFar t.toNat 4096).setEntry a (pointerEntry t.toNat)
        s.makeTables dom va (entryAddr t.toNat (level + 1) va) (level + 1) n

/-! ## Fault records (R303) -/

/-- A record that a change of its page settles: PENDING, or made FAILED by the fault limit in this very tick, for a MAP of the tick comes
first (R303, R310). -/
def FaultRec.settles (r : FaultRec) (now : Nat) (dom : BitVec 16) (lo hi : Nat) : Bool :=
  let va := r.vpage.toNat * 65536
  (r.st == .pending || (r.st == .failed && r.ended == some (now, true))) && r.dom == dom && decide (lo ≤ va) && decide (va < hi)
/-- A record after a change: one that is RESOLVED or FAILED and that nobody waits on is FREE (R303). -/
def FaultRec.settled (r : FaultRec) : FaultRec := if r.st != .pending && r.join.isEmpty then FaultRec.free else r
/-- Every record of a domain whose page lies in VA lo to hi - 1 and is open changed by f, by voted transactions of its tile's triad: a
HALTED one changes none (R303, R345, R350). -/
def State.settleRecords (s : State) (dom : BitVec 16) (lo hi : Nat) (f : FaultRec → FaultRec) : State :=
  let open? (r : FaultRec) : Bool := r.settles s.clock.ticks dom lo hi
  let sites := (List.range 25).filter fun n => !(s.site n).triad.halted && (s.site n).faults.any fun e => open? e.2
  sites.foldl (fun (s : State) n =>
    (s.onSite n fun t => { t with faults := tmap FaultRec.free (fun r => if open? r then (f r).settled else r) t.faults }).vote n) s
/-- A page has become a valid leaf: RESOLVED when the permissions allow every joined access, else KIND
becomes PERM (R303). -/
def FaultRec.mapped (perms : BitVec 3) (r : FaultRec) : FaultRec :=
  if r.need &&& ~~~perms = 0 then { r with st := .resolved, ended := none } else { r with perm := true }
/-- FAILED in a tick, by the fault limit or by an UNMAP (R303). -/
def FaultRec.fail (now : Nat) (limit : Bool) (r : FaultRec) : FaultRec := { r with st := .failed, ended := some (now, limit) }

/-- FAULT_LIMIT: a record PENDING for 2^FLIM ticks FAILS, by a voted transaction of its tile's triad (R303, R345). -/
def execFaultLimit (site i : Nat) (s : State) : Host.Outcome State Fault Refusal :=
  let r := s.faultAt site i
  let now := s.clock.ticks
  .next (if r.st = .pending ∧ r.since + 2 ^ s.pages.flim.toNat ≤ now ∧ (s.site site).triad.mayVote then
      (s.onRec site i fun r => (r.fail now true).settled).vote site
    else s)

/-! ## Commands (R305, R307-R309) -/

/-- Size code of a PAGE command. -/
def Cmd.pageSize (c : Cmd) : Nat := c.a2.toNat / 2 ^ 32 % 4
/-- Page count of a PAGE command. -/
def Cmd.pages (c : Cmd) : Nat := pageCount c.a2.toNat
/-- VA of page i. -/
def Cmd.pageVa (c : Cmd) (i : Nat) : Nat := c.a0.toNat % 2 ^ 57 + i * pageBytes c.pageSize
/-- FPA of page i. -/
def Cmd.pageFpa (c : Cmd) (i : Nat) : Nat := c.a1.toNat + i * pageBytes c.pageSize
/-- The pages of the command are aligned and lie inside the virtual space. -/
def Cmd.vaOk (c : Cmd) : Bool :=
  c.a0.toNat % pageBytes c.pageSize == 0 && decide (c.pageVa c.pages ≤ 2 ^ 57)
/-- The frames are aligned and lie in the domain's far-memory grant (R305). -/
def Cmd.fpaOk (c : Cmd) (d : Domain) : Bool :=
  c.a1.toNat % pageBytes c.pageSize == 0 && (List.range c.pages).all fun i =>
    d.spec.far.any fun (lo, hi) => decide (lo ≤ c.pageFpa i) && decide (c.pageFpa (i + 1) - 1 ≤ hi)

/-- A far atomic of a range. -/
def Packet.farIn (p : Packet) (lo n : Nat) : Bool :=
  p.kind == .amo && p.count != 0 && decide (lo ≤ p.addr.toNat) && decide (p.addr.toNat < lo + n)
/-- A core has an atomic of a far range unanswered, or a leg in flight that has translated to it. -/
def Core.usesFar (c : Core) (lo n : Nat) : Bool :=
  c.sh.rpc.any (fun r => r.reply.isNone && r.req.farIn lo n) || c.sh.stream.toList.any fun t =>
    t.legs.any fun l => l.units.any fun u => decide (u.2 < lo + n) && decide (lo < u.2 + 65536)
/-- An access translated to a far range is not complete: an atomic in flight, in a proxy queue or waiting to be sent again,
or a leg in flight (R307). -/
def State.accessIn (s : State) (lo n : Nat) : Bool :=
  (s.net ++ s.queued).any (·.farIn lo n) || s.sites.any (fun e => e.2.proxy.any fun q => q.2.any (·.farIn lo n))
    || s.core.usesFar lo n || s.peers.any fun e => e.2.usesFar lo n
/-- A leaf under migration: commands leave its page as it is (R7, R309). -/
def migrating (e : BitVec 64) : Bool := e.getLsbD 0 && e.getLsbD 1 && e.getLsbD 5
/-- The old frames of the pages are free of accesses (R307). -/
def State.drained (s : State) (d : Domain) (c : Cmd) (pages : List Nat) : Bool :=
  pages.all fun i =>
    match s.pageLeaf d (c.pageVa i) c.pageSize with
    | some (.entry _ e) => migrating e || !(e.getLsbD 0 && s.accessIn (entryTarget e) (pageBytes c.pageSize))
    | _ => true
/-- A page's leaf is changed: the TLBs drop the page, and its records change (R303, R307). -/
def State.pageDone (s : State) (dom : BitVec 16) (va n : Nat) (f : FaultRec → FaultRec) : State :=
  (s.dropTlbs dom va (va + n)).settleRecords dom va (va + n) f

/-- One page mapped; none when a leaf of another size stands there or the pool lacks a table (R305). -/
def State.mapPage (s : State) (dom : BitVec 16) (c : Cmd) (i : Nat) : Option State :=
  match s.domain dom with
  | none => none
  | some d =>
    let va := c.pageVa i
    let perms : BitVec 3 := c.a3.extractLsb' 0 3
    let write (s : State) (a : Nat) : State :=
      (s.setEntry a (leafEntry (c.pageFpa i) perms false)).pageDone dom va (pageBytes c.pageSize) (FaultRec.mapped perms)
    match s.pageLeaf d va c.pageSize with
    | none | some .blocked => none
    | some (.entry a e) => some (if migrating e then s else write s a)
    | some (.missing a l) => (s.makeTables dom va a l (sizeLevel c.pageSize - l)).map fun (a, t) => write t a
/-- Pages mapped one after another. -/
def State.mapPages (s : State) (dom : BitVec 16) (c : Cmd) : List Nat → Option State
  | [] => some s
  | i :: r => (s.mapPage dom c i).bind fun t => t.mapPages dom c r

/-- A PAGE command that runs, with its domain; one whose queue has no domain's tables completes with ADDR. -/
def State.pageCommand (s : State) (q : BitVec 6) (sub : Nat) (f : Cmd → Domain → State) :
    Host.Outcome State Fault Refusal :=
  s.byLead (match s.running? q.toNat 7 (·.sub.toNat == sub) with
    | none => s
    | some c =>
      match s.domain (s.queue q.toNat).dom with
      | none => s.complete q.toNat c 7 0
      | some d => f c d)

/-- A fault of this very tick has been recorded on one of the command's pages: a MAP that completed in this tick would have come before it,
so this one completes in a later tick (R310; log entry 78). -/
def State.faultedNow (s : State) (dom : BitVec 16) (c : Cmd) : Bool :=
  let lo := c.pageVa 0
  let hi := c.pageVa c.pages
  s.sites.any fun e => e.2.faults.any fun r =>
    r.2.st == .pending && r.2.since == s.clock.ticks && r.2.settles s.clock.ticks dom lo hi
/-- PAGE MAP (R305, R307, R309). It waits while an access translated through a replaced leaf is not complete, and for the end of a tick
in which a fault has met one of its pages (R310). -/
def execPageMap (q : BitVec 6) (s : State) : Host.Outcome State Fault Refusal :=
  s.pageCommand q 0 fun c d =>
    let fail := s.complete q.toNat c 7 0
    if !(c.vaOk && c.fpaOk d) then fail
    else if !(s.drained d c (List.range c.pages)) || s.faultedNow d.spec.dom c then s
    else
      match s.mapPages d.spec.dom c (List.range c.pages) with
      | none => fail
      | some t => t.complete q.toNat c 0 0

/-- One page unmapped (R305, R309). -/
def State.unmapPage (s : State) (d : Domain) (c : Cmd) (i : Nat) : State :=
  let va := c.pageVa i
  let done (s : State) : State := s.pageDone d.spec.dom va (pageBytes c.pageSize) (FaultRec.fail s.clock.ticks false)
  match s.pageLeaf d va c.pageSize with
  | some (.entry a e) => if migrating e then s else done (if e.getLsbD 0 then s.setEntry a 0 else s)
  | some (.missing _ _) | some .blocked | none => done s
/-- PAGE UNMAP (R305, R307, R309). -/
def execPageUnmap (q : BitVec 6) (s : State) : Host.Outcome State Fault Refusal :=
  s.pageCommand q 1 fun c d =>
    let l := List.range c.pages
    if !(c.vaOk && l.all fun i => (s.pageLeaf d (c.pageVa i) c.pageSize).isSome) then s.complete q.toNat c 7 0
    else if !(s.drained d c l) then s
    else (l.foldl (fun t i => t.unmapPage d c i) s).complete q.toNat c 0 0

/-- n bytes of far memory put in the place of n others, poison with them (R308). -/
def State.moveFar (s : State) (src dst n : Nat) : State :=
  let shift {α : Type} (u : Nat) (t : Tbl α) : Tbl α :=
    let x := farKey src / u
    let y := farKey dst / u
    t.filter (fun e => decide (e.1 < y)) ++ (trange t x (x + n / u)).map (fun e => (e.1 - x + y, e.2))
      ++ t.filter fun e => decide (y + n / u ≤ e.1)
  { s with mem := shift 1 s.mem, pois := shift 8 s.pois }
/-- Bytes of a page before the end of its first poisoned line, or before a CXL error on either side: none when the copy
meets neither (R308). Frames that no port serves are in error at once (R329). -/
def State.migrateStop (s : State) (src dst n : Nat) (err : Option Nat) : Option Nat :=
  let bad := (trange s.pois (farKey src / 8) ((farKey src + n) / 8)).filterMap fun e =>
    if e.2 then some ((8 * e.1 - farKey src) / 64 * 64 + 64) else none
  let within (lo a : Nat) : Option Nat := if lo ≤ a ∧ a < lo + n then some ((a - lo) / 64 * 64) else none
  let errs := s.met.flatMap fun x => match x with
    | .cxlError a => (within src a).toList ++ (within dst a).toList
    | _ => []
  let given := ((err.filter (· < n)).map (· / 64 * 64)).toList
  let dead := if s.served src && s.served dst then [] else [0]
  (dead ++ given ++ errs ++ bad).foldl (fun (o : Option Nat) x => some (match o with | some y => min x y | none => x)) none

/-- Every page of a MIGRATE is a valid leaf of its size (R305). -/
def State.allMapped (s : State) (d : Domain) (c : Cmd) : Bool :=
  (List.range c.pages).all fun i =>
    match s.pageLeaf d (c.pageVa i) c.pageSize with
    | some (.entry _ e) => e.getLsbD 0
    | _ => false

/-- The next page of a MIGRATE, or its completion. -/
def State.nextPage (s : State) (q : Nat) (c : Cmd) : State :=
  if c.moved + 1 = c.pages then s.complete q c 0 0
  else s.onCurrent q fun c => { c with moved := c.moved + 1, bid := false, leaf := none }
/-- The first step of a page's move: MIG is written in its leaf, which the command keeps, and the TLBs drop the page; a page in
migration stays as it is (R7, R308, R309). -/
def State.beginMove (s : State) (q : Nat) (c : Cmd) (d : Domain) : State :=
  let va := c.pageVa c.moved
  let n := pageBytes c.pageSize
  match s.pageLeaf d va c.pageSize with
  | some (.entry a e) =>
    let old := entryTarget e
    if !(e.getLsbD 0) then s.complete q c 7 0
    else if migrating e then s.nextPage q c
    else if s.accessIn old n then s
    else
      ((s.setEntry a (leafEntry old (e.extractLsb' 2 3) true)).dropTlbs d.spec.dom va (va + n)).onCurrent q fun c =>
        { c with bid := true, leaf := some (a, e) }
  | _ => s.complete q c 7 0
/-- The other steps: the page is copied and its leaf, whose place and old word the command has kept, takes the new ADDR; where the copy
meets an error, or the leaf's line can not be read and written, the page stays at its old FPA, with MIG = 0 (R308). -/
def State.endMove (s : State) (q : Nat) (c : Cmd) (d : Domain) (err : Option Nat) (a : Nat) (e : BitVec 64) : State :=
  let va := c.pageVa c.moved
  let n := pageBytes c.pageSize
  let old := entryTarget e
  let perms : BitVec 3 := e.extractLsb' 2 3
  let stays := leafEntry old perms false
  if !(s.tableLine a) then (s.setEntry a stays).complete q c 7 0
  else
    match s.migrateStop old (c.pageFpa c.moved) n err with
    | some m => ((s.moveFar old (c.pageFpa c.moved) m).setEntry a stays).complete q c 7 0
    | none =>
      (((s.moveFar old (c.pageFpa c.moved) n).setEntry a (leafEntry (c.pageFpa c.moved) perms false)).settleRecords d.spec.dom va
        (va + n) (FaultRec.mapped perms)).nextPage q c
/-- PAGE MIGRATE: pages move one at a time, in ascending VA (R308). err is the byte of the page at which CXL reports an error. -/
def execPageMigrate (q : BitVec 6) (err : Option Nat) (s : State) : Host.Outcome State Fault Refusal :=
  s.pageCommand q 2 fun c d =>
    if c.moved = 0 ∧ !c.bid ∧ !(c.vaOk && c.fpaOk d && s.allMapped d c) then s.complete q.toNat c 7 0
    else
      match c.leaf with
      | some (a, e) => s.endMove q.toNat c d err a e
      | none => s.beginMove q.toNat c d

/-! ## Domains and their keys (R30, R297, R305, R306) -/

/-- The keys of a slot of the key store (R306). -/
def State.keysOf (s : State) (k : BitVec 13) : BitVec 512 := tget 0 s.links.keys k.toNat
/-- Key slot of the domain that owns a far physical address; slot 0 where none does (R306). -/
def State.ownerKey (s : State) (fpa : Nat) : BitVec 13 :=
  match s.pages.domains.find? fun e => e.2.any fun d => d.spec.far.any fun (lo, hi) => decide (lo ≤ fpa) && decide (fpa ≤ hi) with
  | some (_, some d) => d.spec.key
  | _ => 0
/-- The 64 bytes from a memory key on. -/
def State.lineAt (s : State) (key : Nat) : List (BitVec 8) := (List.range 64).map fun i => s.byte (key + i)
/-- The 64-byte line of a far physical address as it stands behind its port: encrypted under its owner's keys, with FPA bits
51:6 as the tweak (R306). -/
def State.portLine (s : State) (fpa : Nat) : List (BitVec 8) :=
  xtsLine (s.keysOf (s.ownerKey fpa)) (fpa / 64) (s.lineAt (farKey (fpa / 64 * 64)))
/-- The listed lines of a range read under other keys: what stands behind the port does not change (R306). -/
def State.rekey (s : State) (lo hi : Nat) (keys : BitVec 512) : State :=
  let lines := ((trange s.mem (farKey lo) (farKey hi + 1)).map fun e => (e.1 - farBase) / 64).eraseDups
  lines.foldl (fun (t : State) l =>
    if s.keysOf (s.ownerKey (64 * l)) = keys then t
    else { t with mem := putBytes t.mem (farKey (64 * l)) (xtsOpen keys l (s.portLine (64 * l))) }) s
/-- DOMAIN_CREATION: panel map, grants, root table and pool; the key slot is written when no domain names it, slot 0 being the
panel's own (R306). A
domain that exists stays. What the grant's lines hold is read under the new owner's keys from now on. -/
def execDomainCreation (d : DomainSpec) (s : State) : Host.Outcome State Fault Refusal :=
  match s.domain d.dom with
  | some _ => .next s
  | none =>
    let named := d.key == 0 || s.pages.domains.any fun e => e.2.any fun o => o.spec.key == d.key
    let keys := if named then s.keysOf d.key else d.keys
    let s := d.far.foldl (fun s (lo, hi) => s.rekey lo hi keys) s
    let s := { s with links := { s.links with keys := tset 0 s.links.keys d.key.toNat keys } }
    let s := s.clearFar d.root.toNat 4096
    .next { s with pages := { s.pages with domains := tset none s.pages.domains d.dom.toNat (some ⟨d, d.pool⟩) } }

end Sys2Proof.Machine
end

