-- ==== Sys2Proof/Machine/Site.lean ====
section
/-! DEFINITION. Sites and the cox triad (R317, R320, R329, R333-R353), and what the boathouse controller
keeps of boot and keys (R376, R377). -/

namespace Sys2Proof.Machine

/-! ## Pieces of leaving and entering LIVE (R336, R340) -/

/-- The cores of a tile that is powered down or gone issue nothing (R333). -/
def State.darkCores (s : State) (n : Nat) : State :=
  s.onCores ((s.here :: s.peers.map (·.1)).filter fun k => siteOf k == n) fun _ c => { c with ctl := { c.ctl with issue := .off } }
/-- A site enters a state; each entry to LIVE counts (R334). In EMPTY, SAFE and LOST the tile is out of its site or powered down
(R333). -/
def State.setSite (s : State) (n : Nat) (st : SiteSt) : State :=
  let s := match st with
    | .empty | .safe | .lost => s.darkCores n
    | .seated | .training | .fenced | .live | .draining => s
  (s.onSite n fun t =>
    { t with st := st, since := s.clock.ticks, epoch := if st = .live then t.epoch + 1 else t.epoch }).note (.site n st)
/-- Substrate links of a site's edges, and the panel link of a bank site (R314). -/
def siteLinks (n : Nat) : List Nat :=
  ((List.range 1920).filter fun i => siteOf (linkEnds i).1 == n || siteOf (linkEnds i).2 == n)
    ++ if computeSite n then [] else [1920 + (n - 1) / 2]
/-- Site at the other end of a substrate link. -/
def farSite (n i : Nat) : Nat := if siteOf (linkEnds i).1 = n then siteOf (linkEnds i).2 else siteOf (linkEnds i).1
/-- The links of a site that leaves LIVE are DOWN (R314). -/
def State.linksDown (s : State) (n : Nat) : State :=
  (siteLinks n).foldl (fun t i => t.onLink i fun l => { l with st := .down, slices := 0, since := s.clock.ticks, turn := [] }) s
/-- The links between a site and its LIVE neighbours are UP (R314, R340). -/
def State.linksUp (s : State) (n : Nat) : State :=
  (siteLinks n).foldl (fun t i =>
    if i < 1920 ∧ (s.site (farSite n i)).st = .live then
      t.onLink i fun l => { l with st := .up, slices := 0xF, since := s.clock.ticks, turn := [] }
    else t) s
/-- VALID is cleared in the four region offsets of a site (R336). -/
def State.clearOffsets (s : State) (n : Nat) : State :=
  { s with clock := { s.clock with regions := tmap Region.reset id (s.clock.regions.map fun e =>
      (e.1, if e.1 / 4 = n then { e.2 with valid := false } else e.2)) } }
/-- A re-admission in progress of a child direction that leads into a site ends. -/
def CombEntry.cancel (e : CombEntry) (k n : Nat) : CombEntry :=
  if e.admv && decide (e.admd.toNat < 4) && siteOf (neighbour k e.admd) == n then { e with admv := false } else e
/-- ABSENT set in every live router for every child direction into a site, by voted transactions of the routers' tiles (R107, R336,
R345). -/
def State.setAbsent (s : State) (n : Nat) : State :=
  let mark (k : Nat) (q : Node) : Node :=
    if siteOf k = n then q
    else { q with entries := q.entries.map fun c => { c.cancel k n with absent := c.absent ||| s.absentDirs k c.child } }
  let hit := s.nodes.filter fun (e : Nat × Node) => (mark e.1 e.2).entries != e.2.entries
  { s with nodes := tmap Node.reset id (s.nodes.map fun (e : Nat × Node) => (e.1, mark e.1 e.2)) }.voteTiles (sitesOf (hit.map fun (e : Nat × Node) => e.1))

/-- A site holds a live core shard of a group: in SEEDING, before its cores are listed, where a coordinate of its lane there is live
to it (R271, R273, R277). -/
def State.shardOn (s : State) (i n : Nat) : Bool :=
  let g := s.group i
  computeSite n && (if g.st = .seeding then s.laneCores g else g.cores).any fun k => siteOf k == n
/-- SITE in every slot of a core that is neither FREE nor a paddle slot (R277). -/
def Core.raiseSite (c : Core) (n : Nat) : Core :=
  allSlots.foldl (fun c i => if (c.slot i).paddle then c else c.raise i 5 (BitVec.ofNat 64 n)) c
/-- SITE in every live core of a group (R277, R343). -/
def State.raiseSite (s : State) (i n : Nat) : State :=
  s.coxWrites ((s.group i).cores.filter s.live) fun _ c => c.raiseSite n
/-- What a group does when a site leaves LIVE, where shard says that it had a live core shard there: FAULTED at a loss, DRAINING at a
drain, and SITE where it had none, in a group that is being restored too (R273, R277, R350). -/
def State.groupLeaves (s : State) (i n : Nat) (loss shard : Bool) : State :=
  let g := s.group i
  match g.st with
  | .running =>
    if shard then (if loss then s.faultGroup i else s.drainGroup i none)
    else if g.touches n then s.raiseSite i n else s
  | .draining =>
    if shard then (if loss then s.faultGroup i else s) else if g.touches n then s.raiseSite i n else s
  | .seeding => if shard then s.faultGroup i else s
  | .loading => if shard then s.faultGroup i else if g.touches n then s.raiseSite i n else s
  | .unused | .admitted | .suspended | .faulted | .retired => s
/-- Groups with a live core shard on a site go FAULTED (R338, R350, R354). -/
def State.faultShards (s : State) (n : Nat) : State :=
  s.groupIds.foldl (fun (s : State) i => if s.shardOn i n then s.faultGroup i else s) s
/-- Every far atomic queued at a site's proxy core is answered HOLE (R131, R336). -/
def State.emptyProxy (s : State) (n : Nat) : State :=
  ((s.site n).proxy.flatMap (·.2)).foldl (fun s p => s.send (p.amoReply 4 0))
    (s.onSite n fun t => { t with proxy := [], taken := [] })
/-- The CXL ports of a bank site come up in their roles, or go down with it (R327, R329, R340). -/
def State.portsUp (s : State) (n : Nat) (up : Bool) : State :=
  if computeSite n then s
  else
    { s with links := { s.links with cxl := [n - 1, n].foldl (fun t p =>
        let c := tget CxlPort.reset t p
        tset CxlPort.reset t p { c with trained := up && (c.host || c.attached) }) s.links.cxl } }
/-- A bank site of the lane leaves the barrier's path of a group at work; what its routers hold goes on (R344). -/
def State.leavePath (s : State) (i n : Nat) : State :=
  let g := s.group i
  let s := s.onGroup i fun g =>
    { g with healed := g.healed.filter (· != n),
             away := if g.touches n && !(computeSite n) && !(g.away.contains n) then g.away ++ [n] else g.away }
  if g.mapped then s.rerouteBars i else s

/-- The site to hold the cox of lowest number that is LIVE with a triad WHOLE, else REDUCED; but excepted
(R351, R352). -/
def State.candidate (s : State) (but : Option Nat) : Option Nat :=
  let ok (n v : Nat) : Bool :=
    decide (but ≠ some n) && decide ((s.site n).st = .live) && !(s.site n).triad.halted && (s.site n).triad.votes == v
  match (List.range 25).find? (ok · 3) with
  | some n => some n
  | none => (List.range 25).find? (ok · 2)
/-- The deputy: the cox of the next such tile, named anew at every change (R351, R352). -/
def State.nameDeputy (s : State) : State :=
  if s.lead.lead.isNone then s else { s with lead := { s.lead with deputy := s.candidate s.lead.lead } }
/-- The alignment tree is rooted in a tile: the panel reference is the tile's own count from now on, and no counter moves
(R27, R352). -/
def State.rootClock (s : State) (n : Nat) : State :=
  let d := (tget Region.reset s.clock.regions (4 * n)).lead
  { s with clock := { s.clock with
      slewed := s.clock.slewed + d, aim := s.clock.aim + d,
      regions := (List.range 100).foldl (fun t r =>
        let g := tget Region.reset t r
        tset Region.reset t r { g with lead := g.lead - d }) s.clock.regions } }
/-- A tile's cox becomes lead; the alignment tree is rooted in its tile (R351, R352). -/
def State.makeLead (s : State) (n : Nat) : State :=
  ({ s with lead := { s.lead with lead := some n, unseen := 0, beatAt := s.clock.ticks } }.rootClock n).nameDeputy
/-- The deputy takes over: it becomes lead, names the next deputy and resumes from its mirror (R352). -/
def State.takeOver (s : State) : State :=
  match s.lead.deputy with
  | some n => s.makeLead n
  | none => { s with lead := { s.lead with lead := none } }

/-- A packet for a hole, answered by the last live router (R21, R98, R103). -/
def Packet.holed (p : Packet) : Packet :=
  if p.kind = .treeBlock ∨ p.kind = .treeFinish then p.answer p.treeAnswerKind 4 else p.answer p.kind.replyKind 4
/-- The packet asks for an answer. -/
def Packet.asks (p : Packet) : Bool :=
  match p.kind with
  | .data | .finish | .amo | .watch | .wake | .treeBlock | .treeFinish => true
  | .renorm | .reply | .amoReply | .watchReply | .wakeReply | .watchWake | .barArrive | .barRelease | .treeReply | .lowAck => false
/-- The requests in flight that satisfy a condition are answered HOLE by the last live router (R21); the answer to one of another panel
goes back by the panel links (R323). -/
def State.answerHole (s : State) (into : Packet → Bool) : State :=
  let out (p : Packet) : Bool := into p && p.srcPan != 0xFF
  let t := { s with net := (s.net.filter fun p => !(out p)).map fun p => if into p then p.holed else p }
  (s.net.filter out).foldl (fun (t : State) p => t.send p.holed) t
/-- Edge routers stop sending into a site: every request bound into it is answered HOLE, and the transfers with a burst on its way
there, or, of a bank site, with a leg served by its ports, end with HOLE (R21, R242, R336 steps 1 and 7). -/
def State.holeInto (s : State) (n : Nat) : State :=
  let into (p : Packet) : Bool := p.asks && p.dstPan == 0xFF && siteOf p.dst == n
  let s := { s with net := s.net ++ s.queued.filter into, queued := s.queued.filter fun p => !(into p) }.answerHole into
  s.holeAll fun s t => t.sendsTo n || (!(computeSite n) && t.servedBy (s.ownEnd t.dst) n)

/-- LEAVING_LIVE: a site leaves LIVE for another state (R336). A LOST compute site loses its fault records (R337). -/
def State.leaveLive (s : State) (n : Nat) (next : SiteSt) (loss : Bool) : State :=
  let shards := s.groupIds.filter fun i => s.shardOn i n
  let s := (((s.setSite n next).linksDown n).portsUp n false).redraw
  let s := ((s.clearOffsets n).setAbsent n).holeInto n
  let s := s.groupIds.foldl (fun (s : State) i => s.groupLeaves i n loss (shards.contains i)) s
  let s := s.groupIds.foldl (fun (s : State) i => s.leavePath i n) s
  let s := if s.lead.lead = some n then s.takeOver else s.nameDeputy
  let s := (s.onSite n fun t =>
    { t with switches := [3, 1, 0, 2], reroutes := [], faults := if next = .lost then [] else t.faults }).releaseQueued
  if computeSite n then s else (s.emptyProxy n).loseCopies n

/-! ## Entering LIVE (R340) -/

/-- The skip columns a retirement list gives: the first part of each row (R340). -/
def skipsOf (l : List (Nat × Nat)) : Tbl Nat :=
  (List.range 64).foldl (fun t r =>
    match l.find? (·.1 == r) with
    | some (_, p) => tset 32 t r p
    | none => t) []
/-- The nodes of a site as an admission leaves them: those of a bank tile carry the poison code (R340). -/
def State.freshNodes (s : State) (n : Nat) : State :=
  let s := s.wipe fun k => siteOf k == n
  let s := { s with nodes := s.nodes.filter fun e => siteOf e.1 != n }
  if computeSite n then s
  else (siteKeys n).foldl (fun s k => s.onNode k fun q => { q with marked := true }) s
/-- The cores of a compute tile idle, every slot FREE (R340). -/
def State.freshCores (s : State) (n : Nat) : State :=
  { s with core := if isCore s.here && siteOf s.here == n then Core.reset s.here else s.core
           peers := s.peers.filter fun e => siteOf e.1 != n }
/-- The umpires of a compute tile: one that stands in for a retired core shadows nothing (R16, R340). The first interval of
the others begins at the admission, at physical column 31 and filled (DESIGN CHOICE, log entry 31). -/
def State.freshUmpires (s : State) (n : Nat) : State :=
  let now := s.clock.ticks
  (List.range 64).foldl (fun s r =>
    s.onUmpire (64 * n + r) fun _ =>
      if tget 32 (s.site n).skips r = 32 then { Umpire.reset with filled := true, since := now }
      else { Umpire.reset with col := 33 }) s

/-- The RUNNING groups whose lane a healed bank site touches: each takes the site's rows into its seeding map at once, and its routes
are switched to the site class by class (R343 steps 1 and 2). -/
def State.takeRows (s : State) (n : Nat) : State :=
  if computeSite n then s
  else
    s.groupIds.foldl (fun (s : State) i =>
      let g := s.group i
      if g.st = .running && g.touches n then
        (s.onGroup i fun g => { g with healed := g.healed ++ [n], skips := s.seedMap g g.skips (· == n) }).voteTiles (s.laneSites g)
      else s) s
/-- Admission of a tile to LIVE (R340). Before there is a lead its cox becomes lead (R353). -/
def State.enterLive (s : State) (n : Nat) : State :=
  let s := s.onSite n fun t =>
    { t with skips := skipsOf t.retired, ctlb := [], ttlb := [], faults := [], proxy := [], taken := [], pcache := [],
             switches := [3, 1, 0, 2], reroutes := [] }
  let s := s.freshNodes n
  let s := if computeSite n then (s.freshCores n).freshUmpires n else s
  let s := ((((s.setSite n .live).linksUp n).portsUp n true).takeRows n).redraw
  let s := if computeSite n then s else s.recopy
  let s := if s.lead.lead.isNone then s.makeLead n else s.nameDeputy
  s.releaseQueued.openWindowOnce

/-- All four region offsets of a site carry VALID (R334). -/
def State.offsetsValid (s : State) (n : Nat) : Bool :=
  (List.range 4).all fun r => (tget Region.reset s.clock.regions (4 * n + r)).valid

/-- A FENCED site that the lead cox may admit (R334). -/
def State.admissible (s : State) (n : Nat) : Bool := (s.site n).st == .fenced && s.offsetsValid n
/-- No other compute site reached FENCED before this one (R353). -/
def State.firstFenced (s : State) (n : Nat) : Bool :=
  (List.range 25).all fun m => m == n || !(computeSite m) || (s.site m).st != .fenced
    || decide ((s.site n).since < (s.site m).since) || (decide ((s.site n).since = (s.site m).since) && decide (n < m))
/-- SITE_ADMISSION: the lead cox admits a FENCED site whose offsets are VALID, the lowest number first; before there is a
lead, the boathouse controller admits the compute site that reached FENCED first (R334, R340, R353). -/
def execSiteAdmission (n : Nat) (s : State) : Host.Outcome State Fault Refusal :=
  .next (if 25 ≤ n ∨ (s.site n).st ≠ .fenced then s
    else if s.lead.lead.isNone then (if computeSite n && s.firstFenced n then s.enterLive n else s)
    else if s.leadUp && s.admissible n && (List.range n).all fun m => !(s.admissible m) then s.enterLive n else s)

/-! ## Re-admission into running groups (R107, R343) -/

/-- The first round a healed node counts in: the round after the latest of its nearest ancestor outside the
site; none when that has seen no round, or the root is inside (R107). -/
def State.admitRound (s : State) (g : Group) (t : TreeDef) (n : Nat) (x : TreeNode) : Nat → Option (BitVec 8)
  | 0 => none
  | k + 1 =>
    match t.up x with
    | none => none
    | some p =>
      let key := keyOf (g.col0 + p.gx) (g.row0 + p.gy)
      if siteOf key = n then s.admitRound g t n p k
      else (s.entryFor key g.gid t.chan).bind fun e => e.latest.map (· + 1)
/-- The live parent of a healed node takes it back: at once when it has forwarded its finish of the round
before, else from the round on (R107). -/
def CombEntry.readmit (e : CombEntry) (d : BitVec 3) (a : Option (BitVec 8)) : CombEntry :=
  match a with
  | none => { e with absent := e.absent &&& ~~~(dirBit d), admv := false }
  | some r =>
    if e.passed = some (r - 1) then { e with absent := e.absent &&& ~~~(dirBit d), admv := false }
    else { e with admv := true, admd := d, admRound := r }
/-- TREE_READMISSION of the nodes of a site in one tree (R107). -/
def State.readmitTree (s : State) (g : Group) (n : Nat) (t : TreeDef) : State :=
  t.nodes.foldl (fun s x =>
    let k := keyOf (g.col0 + x.gx) (g.row0 + x.gy)
    if siteOf k ≠ n then s
    else
      let a := s.admitRound g t n x t.nodes.length
      let s := s.onEntry k g.gid t.chan fun e =>
        match a with
        | some r => { e with admv := true, admd := 7, admRound := r }
        | none => e
      match t.up x with
      | none => s
      | some p =>
        let key := keyOf (g.col0 + p.gx) (g.row0 + p.gy)
        if siteOf key = n then s else s.onEntry key g.gid t.chan fun e => e.readmit (opposite x.parent) a) s
/-- READMISSION_INTO_GROUP, once every lane class is switched: tree nodes, then SITE (R343 steps 3 and 4). -/
def State.readmitGroup (s : State) (i n : Nat) : State :=
  let g := s.group i
  if g.st ≠ .running ∨ !(g.healed.contains n) then s
  else
    let s := s.loadTrees g fun k => siteOf k == n
    ((g.image.trees g.var).foldl (fun s t => s.readmitTree g n t) s).raiseSite i n

/-- A packet of a class that a switch of a site waits for: in the network, bound into the site or on a route that crosses it, a burst
of a transfer, which rides lane 2, among them (R93, R320 step 2). -/
def State.onOldPath (s : State) (n : Nat) (c : BitVec 2) : Bool :=
  (s.net.any fun p => p.lane == c.toNat && (siteOf p.dst == n || crosses n p.entry p.dst)) ||
    (c == 2 && s.bursts.any fun (k, f) => f.dest.node.any fun j => siteOf j == n || crosses n k j)
/-- A group takes a healed bank site back (R343). -/
def State.takesBack (s : State) (gid : BitVec 16) (n : Nat) : Bool :=
  match s.groupOf gid with
  | some i => (s.group i).healed.contains n
  | none => false
/-- What a group that takes a healed site back has sent into it on lane 2 before that lane's switch ends with HOLE: packets, and
transfers that do not ride lane 0; those of other groups go on (R343). -/
def State.holeLane2 (s : State) (n : Nat) : State :=
  (s.answerHole fun p => p.lane == 2 && p.asks && p.dstPan == 0xFF && siteOf p.dst == n && s.takesBack p.gid n).holeAll fun s t =>
    t.cls != .ordered && t.sendsTo n && s.takesBack s.core.ctl.gid n
/-- A group at work reaches into a site by a map of its own: a reseed's lane 2 waits for its boundary (R20, R320). -/
def State.atWork (s : State) (n : Nat) : Bool := s.lead.groups.any fun e => e.2.mapped && e.2.touches n
/-- The first retrained link at the east or north of a site whose next lane class to switch is the given one (R320). -/
def State.turningLink (s : State) (n : Nat) (c : BitVec 2) : Option Nat :=
  (s.links.links.find? fun e => siteOf (linkEnds e.1).1 == n && e.2.turn.head? == some c).map (·.1)
/-- A packet of a class is on the old paths of a link (R320 step 2). -/
def State.onOldLink (s : State) (i : Nat) (c : BitVec 2) : Bool :=
  (s.net.any fun p => p.lane == c.toNat && Machine.onLink i p.entry p.dst)
    || (c == 2 && s.bursts.any fun (k, f) => f.dest.node.any fun j => Machine.onLink i k j)
/-- ROUTE_SWITCH: a lane class is switched once no packet of it is on the old paths; the packets held meanwhile go on. After
the last class a healed bank site is taken back into its groups; lane 2 of a healed site is switched at once (R320,
R343). A reseed switches after the site's own switches, its lane 2 at a group boundary only; a retrained link after both. -/
def execRouteSwitch (cls : BitVec 2) (n : Nat) (s : State) : Host.Outcome State Fault Refusal :=
  match (s.site n).switches, (s.site n).reroutes with
  | c :: r, _ =>
    let heals := (s.site n).st = .live ∧ cls = 2
    if c ≠ cls ∨ (s.onOldPath n cls ∧ !heals) then .next s
    else
      let s := if heals then s.holeLane2 n else s
      let s := (s.onSite n fun t => { t with switches := r }).releaseQueued
      .next (if r = [] ∧ (s.site n).st = .live ∧ !(computeSite n) then
          s.groupIds.foldl (fun s i => s.readmitGroup i n) s
        else s)
  | [], c :: r =>
    if c ≠ cls ∨ s.onOldPath n cls ∨ (cls = 2 ∧ s.atWork n) then .next s
    else .next (s.onSite n fun t => { t with reroutes := r }).releaseQueued
  | [], [] =>
    match s.turningLink n cls with
    | none => .next s
    | some i =>
      if s.onOldLink i cls then .next s
      else .next (s.onLink i fun l => { l with turn := l.turn.drop 1 }).releaseQueued

/-! ## Site events (R334-R338) -/

/-- A site whose state is one of a list takes an event. -/
def State.siteEvent (s : State) (n : Nat) (from_ : List SiteSt) (t : State) : Host.Outcome State Fault Refusal :=
  .next (if n < 25 ∧ from_.contains (s.site n).st then t else s)

/-- Another tile in a site: nothing of the former one stays (R334). -/
def Site.newTile (t : Site) (list : List (Nat × Nat)) : Site :=
  { Site.reset with st := t.st, epoch := t.epoch, contact := t.contact, since := t.since, retired := list,
                    switches := t.switches, reroutes := t.reroutes }
/-- Another tile stands in a site: its quads' caps, trims and readings are its own, with no phase lost (R368), its cores' `RAMPF` has no
floor, and the marks of the former tile leave the draw map (R22, R23). -/
def State.swapTile (s : State) (n : Nat) (list : List (Nat × Nat)) : State :=
  ({ s.onSite n fun t => t.newTile list with
      power := { s.power with quads := tclear s.power.quads (1024 * n) (1024 * n + 1024), floors := tdel n s.power.floors } }).redrawn s
    (siteRegions n)
/-- CONTACT_MADE: tile is the retirement list of another tile, none when the former one is back (R334,
R340). A tile that arrives with a retired node is recommended for replacement (R359). In LOST the contact alone changes
(R7, R334). -/
def execContactMade (n : Nat) (tile : Option (List (Nat × Nat))) (s : State) : Host.Outcome State Fault Refusal :=
  let t := (match tile with | some l => s.swapTile n l | none => s).onSite n fun t => { t with contact := true }
  let t := match tile with | some (_ :: _) => t.recommend n | _ => t
  .next (if 25 ≤ n then s
    else match (s.site n).st with
      | .empty => t.setSite n .seated
      | .lost => if (s.site n).contact then s else t
      | .seated | .training | .fenced | .live | .draining | .safe => s)
/-- The race clocks of a site's four regions as bring-up finds them, each with its own lead (R27). -/
def State.regionsAt (s : State) (n : Nat) (leads : List Int) : State :=
  (List.range 4).foldl (fun s r =>
    let region := { Region.reset with lead := leads.getD r 0, measAt := s.clock.ticks }
    let regions := tset Region.reset s.clock.regions (4 * n + r) region
    { s with clock := { s.clock with regions := regions } }) s
/-- Firmware verifies: it is signed, by the Jankocor key whose digest is fused (R261, R376). -/
def Boat.verifies (b : Boat) (f : Firmware) : Bool := f.signed && f.key == b.fused
/-- The boathouse controller runs: its ROM has verified its firmware (R376 step 1). -/
def State.booted (s : State) : Bool := s.boat.verifies s.boat.firmware
/-- What a cold reset of a tile leaves: caches, fault records, buckets and marks, floors, trims, readings and cores as at reset. A failed
router stays failed, a lost phase and the cap it brings stay, and so does the retirement list (R6, R357, R358, R368; log entry 84).
The draw map is written anew where a mark of its parts was set (R22, R23). -/
def State.coldTile (s : State) (n : Nat) : State :=
  let parts := tmap Part.reset (fun q => { Part.reset with failed := q.failed }) (s.site n).parts
  let quads := s.power.quads.filter fun e => e.1 / 1024 != n
  let capped := (s.power.quads.filter fun e => e.1 / 1024 == n).foldl (fun t e =>
    tset Quad.reset t e.1 { Quad.reset with capR := e.2.capR, point := max Quad.reset.point e.2.capR }) quads
  let t := s.onSite n fun t =>
    { t with parts := parts, ctlb := [], ttlb := [], faults := [], tag := 0, proxy := [], taken := [], pcache := [], lapsed := none }
  let t := { t with power := { t.power with quads := capped, floors := tdel n t.power.floors } }
  (if computeSite n then t.freshCores n else t).redrawn s (siteRegions n)
/-- The tile starts cold; it is loaded with the triad firmware, where that verifies, and its boot ROM measures that, the retirement list
and the fuse set into the measurement register (R6, R376 steps 2 and 3; log entry 65). -/
def State.bootTile (s : State) (n : Nat) : State :=
  let b := s.boat
  (s.coldTile n).onSite n fun t =>
    { t with triad := Triad.reset,
             measured := if b.verifies b.triad then some ⟨b.triad.digest, t.retired, Config.fuseSet s.draws n⟩ else none }
/-- The quote of a tile over a nonce of the controller and its measurements; 0 before it has booted (R376). -/
def State.quoteOf (s : State) (n : Nat) : Nat :=
  match (s.site n).measured with
  | some m => Config.tileQuote n (Config.tileNonce s.draws) m.firmware m.retired m.fuses
  | none => 0
/-- BRING_UP_START: triad firmware is loaded and the site trains; leads are its regions' counters' leads over the panel
reference (R27, R334, R376). -/
def execBringUpStart (n : Nat) (leads : List Int) (s : State) : Host.Outcome State Fault Refusal :=
  s.siteEvent n [.seated] (if s.booted then ((s.bootTile n).regionsAt n leads).setSite n .training else s)
/-- Training fails: logged, and the tile is recommended for replacement (R334, R359). -/
def State.failTraining (s : State) (n : Nat) : State := ((s.recommend n).setSite n .safe).openWindowOnce
/-- The tile's identity is attested: it runs measured firmware, and the certificate chain of its key verifies (R376 steps 2 and 5). -/
def Site.attested (t : Site) : Bool := t.measured.isSome && !t.forged
/-- TRAINING_PASS, within 2^34 ticks: self-test and training have passed; the controller verifies the tile's quote and its certificate
chain, and keeps the digest of the quote. A tile that fails attestation goes SAFE (R334, R376; log entry 65). -/
def execTrainingPass (n : Nat) (s : State) : Host.Outcome State Fault Refusal :=
  s.siteEvent n [.training] (if (s.site n).since + 2 ^ 34 ≤ s.clock.ticks then s
    else if (s.site n).attested then (s.onSite n fun t => { t with quote := s.quoteOf n }).setSite n .fenced
    else s.failTraining n)
/-- TRAINING_FAILURE (R334, R359). -/
def execTrainingFailure (n : Nat) (s : State) : Host.Outcome State Fault Refusal :=
  s.siteEvent n [.training] (s.failTraining n)
/-- DRAIN of a LIVE site (R334). -/
def State.drainSite (s : State) (n : Nat) : State :=
  if n < 25 ∧ (s.site n).st = .live then s.leaveLive n .draining false else s
/-- DRAIN (R334, R336). -/
def execDrain (n : Nat) (s : State) : Host.Outcome State Fault Refusal := .next (s.drainSite n)
/-- READMIT: as from SEATED to TRAINING; what the counters of its regions lead by is free (R6, R27, R334; log entry 81). -/
def execReadmit (n : Nat) (s : State) : Host.Outcome State Fault Refusal :=
  let leads := (List.range 4).map fun r => Config.regionLead s.draws (4 * n + r)
  s.siteEvent n [.safe]
    (if (s.site n).contact && s.booted then ((s.bootTile n).regionsAt n leads).setSite n .training else s)
/-- A DRAINING site becomes LOST: its fault records are gone, and groups with shards on it go FAULTED (R336, R337, R354). -/
def State.loseDraining (s : State) (n : Nat) : State :=
  ((s.setSite n .lost).onSite n fun t => { t with faults := [] }).faultShards n
/-- CONTACT_LOST before the site is in service; in LOST the contact alone changes (R7, R334). In the tick in which the DRAINING deadline
has made the site SAFE it makes it LOST (R354). -/
def execContactLost (n : Nat) (s : State) : Host.Outcome State Fault Refusal :=
  let t := s.onSite n fun t => { t with contact := false }
  if (s.site n).st = .lost then s.siteEvent n [.lost] t
  else if (s.site n).st = .safe ∧ (s.site n).lapsed = some s.clock.ticks then s.siteEvent n [.safe] (t.loseDraining n)
  else s.siteEvent n [.seated, .training, .fenced, .safe] (t.setSite n .empty).openWindowOnce
/-- Every substrate link across the site's edges is DEAD (R335). -/
def State.cutOff (s : State) (n : Nat) : Bool := (siteLinks n).all fun i => decide (1920 ≤ i) || (s.link i).st == .dead
/-- SURPRISE_REMOVAL: by the death of every edge link the contact stays, else it is broken (R335). A DRAINING site has left
LIVE before: its groups with shards on it go FAULTED (R336, R354). -/
def execSurpriseRemoval (n : Nat) (s : State) : Host.Outcome State Fault Refusal :=
  let t := if s.cutOff n then s else s.onSite n fun t => { t with contact := false }
  s.siteEvent n [.live, .draining]
    (if (s.site n).st = .live then t.leaveLive n .lost true
     else t.loseDraining n)
/-- No packet in flight or held at a port, nor a burst of a transfer, is bound into a site (R337). -/
def State.nobodyBound (s : State) (n : Nat) : Bool :=
  !((s.net ++ s.queued).any fun p => siteOf p.dst == n) && !(s.bursts.any fun e => e.2.dest.site == some n)
/-- LOST_CLEANUP_COMPLETE: switches finished and no packet bound into the site; its fault records are gone
(R334, R337). -/
def execLostCleanupComplete (n : Nat) (s : State) : Host.Outcome State Fault Refusal :=
  let t := s.site n
  s.siteEvent n [.lost]
    (if t.switches = [] ∧ s.nobodyBound n then
      ((s.onSite n fun t => { t with faults := [], ctlb := [], ttlb := [] }).setSite n
        (if t.contact then .safe else .empty)).openWindowOnce
    else s)
/-- A group works with a live core shard on the site (R338). -/
def State.groupOn (s : State) (n : Nat) : Bool :=
  s.lead.groups.any fun e =>
    (match e.2.st with
      | .running | .draining | .seeding | .loading => true
      | .unused | .admitted | .suspended | .faulted | .retired => false) && s.shardOn e.1 n
/-- No router of a site waits for the answer to a block or finish it has sent (R338). -/
def State.routersQuiet (s : State) (n : Nat) : Bool :=
  (s.nodes.all fun e => siteOf e.1 != n || e.2.bufs.all fun b => !b.sent)
    && (s.net ++ s.queued).all fun p => siteOf p.src != n || (p.kind != .treeBlock && p.kind != .treeFinish)
/-- The conditions for DRAINING to end (R338). -/
def State.drainOver? (s : State) (n : Nat) : Bool :=
  let t := s.site n
  let coresQuiet := (siteOf s.here != n || s.core.quiet) && s.peers.all fun e => siteOf e.1 != n || e.2.quiet
  !(s.groupOn n) && coresQuiet && s.routersQuiet n && t.switches.isEmpty && t.proxy.isEmpty
    && s.lead.kernels.all fun e => !(e.2.owed.contains n)
/-- DRAIN_COMPLETE (R334, R338). -/
def execDrainComplete (n : Nat) (s : State) : Host.Outcome State Fault Refusal :=
  s.siteEvent n [.draining] (if s.drainOver? n then (s.setSite n .safe).openWindowOnce else s)
/-- DRAIN_DEADLINE: 2^30 ticks; groups that still hold a shard on the site go FAULTED (R338). -/
def execDrainDeadline (n : Nat) (s : State) : Host.Outcome State Fault Refusal :=
  s.siteEvent n [.draining]
    (if (s.site n).since + 2 ^ 30 ≤ s.clock.ticks then
      (((s.faultShards n).setSite n .safe).onSite n fun t => { t with lapsed := some s.clock.ticks }).openWindowOnce
    else s)

/-! ## The triad (R346-R350) -/

/-- DISSENT: the copy is OUT, the triad REDUCED; logged. What it has presented or owes is ignored (R347). -/
def State.dissent (s : State) (n c : Nat) : State :=
  ((s.onTriad n fun t =>
    { t.put c .out with shown := t.shown.filter (·.copy.toNat != c), silent := t.silent.filter (·.copy.toNat != c) }).note
      (.dissent n (BitVec.ofNat 2 c))).nameDeputy
/-- TRIAD_HALT: no further transaction; a LIVE site drains, and groups with a shard there take it as lost (R350). -/
def State.haltTriad (s : State) (n : Nat) : State :=
  let s := (s.onTriad n fun t => { t with halted := true, shown := [], silent := [], behind := 0 }).note (.halted n)
  match (s.site n).st with
  | .live => s.leaveLive n .draining true
  | .draining => (s.faultShards n).nameDeputy
  | .empty | .seated | .training | .fenced | .safe | .lost => s.nameDeputy
/-- A REDUCED triad whose two copies have presented different transactions of one number halts (R347). -/
def State.settleTriad (s : State) (n : Nat) : State :=
  let t := (s.site n).triad
  if !t.halted && t.votes == 2 && t.shown.any fun q => t.shown.any fun r => q.copy != r.copy && q.no == r.no then s.haltTriad n
  else s
/-- A copy dissents, and the triad is judged again. -/
def State.outvoted (s : State) (n c : Nat) : State := (s.dissent n c).settleTriad n
/-- The transaction of a number issues: two copies have presented it alike (R346). A third copy that has presented another
one dissents; one that has presented none is awaited. -/
def State.issueTx (s : State) (n no x c d : Nat) : State :=
  let now := s.clock.ticks
  let t := (s.site n).triad
  let odd := t.voters.filter fun e => e != c && e != d
  let given (e : Nat) : Bool := t.shown.any fun q => q.no == no && q.copy.toNat == e
  let owed := (odd.filter fun e => !(given e)).map fun e => (⟨BitVec.ofNat 2 e, no, x, now⟩ : Shown)
  let s := s.onTriad n fun t =>
    { t with txs := t.txs + 1, last := x, lastAt := now, shown := t.shown.filter (·.no != no), silent := t.silent ++ owed }
  (odd.filter given).foldl (fun s e => s.outvoted n e) s
/-- A copy that votes presents its next transaction: one the others have issued is compared with it, one that another copy
has presented alike issues, and else it waits; when every copy has presented a different one the triad halts. One presented
later than 1024 ticks counts as none; in a REDUCED triad either failing halts it, and both copies go on VOTING (R346, R347). -/
def State.present (s : State) (n c x : Nat) : State :=
  let t := (s.site n).triad
  if t.halted ∨ t.copy c ≠ .voting then s
  else
    let no := t.sentBy c
    let s := s.onTriad n fun t => { t with sent := t.sent.setIfInBounds c (no + 1) }
    let mine (q : Shown) : Bool := q.copy.toNat == c && q.no == no
    let late (q : Shown) : Bool := decide (q.tick + 1024 < s.clock.ticks)
    match t.silent.find? mine with
    | some q =>
      if q.tx = x && !(late q) then s.onTriad n fun t => { t with silent := t.silent.filter fun q => !(mine q) }
      else if t.votes = 2 then s.haltTriad n
      else s.outvoted n c
    | none =>
      let others := t.shown.filter (·.no == no)
      match others.find? (·.tx == x) with
      | some q => if t.votes = 2 && late q then s.haltTriad n else s.issueTx n no x c q.copy.toNat
      | none =>
        if others.length + 1 = t.votes then s.haltTriad n
        else s.onTriad n fun t => { t with shown := t.shown ++ [⟨BitVec.ofNat 2 c, no, x, s.clock.ticks⟩] }
/-- What the copy of a number presents. -/
def presentedBy (p : Presented) (c : Nat) : Option Nat := if c = 0 then p.copy0 else if c = 1 then p.copy1 else p.copy2
/-- The copies present what an input names, copy 0 first. -/
def State.presentAll (s : State) (n : Nat) (p : Presented) : State :=
  (List.range 3).foldl (fun s c => match presentedBy p c with | some x => s.present n c x | none => s) s

/-- The triad's own transactions that came behind one that has waited for its second copy issue once none waits any more (R346). -/
def State.catchUp (s : State) (n : Nat) : State := s.onTriad n fun t => t.catchUp s.clock.ticks
/-- VOTED_TRANSACTION (R346, R347). -/
def execVotedTransaction (n : Nat) (p : Presented) (s : State) : Host.Outcome State Fault Refusal :=
  .next ((s.presentAll n p).catchUp n)
/-- SILENT_COPY_TIMEOUT: a copy has presented nothing within 1024 ticks of the issue, or of the other copy's transaction in
a REDUCED triad; the copy dissents, or a REDUCED triad halts (R346, R347). -/
def execSilentCopyTimeout (n : Nat) (s : State) : Host.Outcome State Fault Refusal :=
  let t := (s.site n).triad
  let old (q : Shown) : Bool := decide (q.tick + 1024 ≤ s.clock.ticks)
  .next (if t.halted then s
    else if t.votes = 3 then
      match t.silent.find? old with
      | some q => (s.outvoted n q.copy.toNat).catchUp n
      | none => s
    else if t.votes = 2 && (t.silent.any old || t.shown.any old) then s.haltTriad n
    else s)
/-- COPY_RESET: an OUT copy reloads (R347). -/
def execCopyReset (n : Nat) (c : BitVec 2) (s : State) : Host.Outcome State Fault Refusal :=
  let t := (s.site n).triad
  .next (if t.copy c.toNat = .out ∧ !t.halted then s.onTriad n fun t => t.put c.toNat .reloading else s)
/-- A reloading copy at a checkpoint: it rejoins when its digest matches, at the first transaction after it, else it is OUT
again, and RETIRED after three reloads (R347, R348). -/
def Triad.rejoin (t : Triad) (c no : Nat) (same : Bool) : Triad :=
  if t.copy c ≠ .reloading then t
  else if same then { t.put c .voting with sent := t.sent.setIfInBounds c no }
  else
    let n := t.reloads[c]?.getD 0 + 1
    { t.put c (if 3 ≤ n then .retired else .out) with reloads := t.reloads.setIfInBounds c n }
/-- A checkpoint is committed: the reloading copies are judged by its digest (R348), a RETIRED one is reason to replace the
tile (R359), and the deputy is named anew. -/
def State.commitCheck (s : State) (n digest reloaded : Nat) : State :=
  let t := (s.site n).triad
  let no := t.voters.foldl (fun m c => max m (t.sentBy c)) 0
  let u := (List.range 3).foldl (fun t c => t.rejoin c no (digest == reloaded))
    { t with checks := t.checks + 1, digest := digest, checkAt := s.clock.ticks }
  let s := (s.onTriad n fun _ => u).nameDeputy
  if u.copies.toList.any (· == .retired) then s.recommend n else s
/-- TRIAD_CHECKPOINT: every 2^20 ticks the voting copies commit a digest as a voted transaction; p holds their digests,
reloaded that of a reloading copy (R348). Where the two copies of a REDUCED triad differ and the reloading one agrees with
one of them, the other dissents and the rejoin stands (R354). -/
def execTriadCheckpoint (n : Nat) (p : Presented) (reloaded : Nat) (s : State) : Host.Outcome State Fault Refusal :=
  let t := (s.site n).triad
  if t.halted ∨ s.clock.ticks < t.checkAt + 2 ^ 20 ∨ !t.shown.isEmpty then .next s
  else
    let same := t.voters.filter fun c => presentedBy p c == some reloaded
    let odd := t.voters.filter fun c => (presentedBy p c).isSome && presentedBy p c != some reloaded
    match t.votes == 2 && t.copies.toList.contains .reloading, same, odd with
    | true, [a], [b] =>
      let now := s.clock.ticks
      let s := s.onTriad n fun t =>
        { t with txs := t.txs + 1, last := reloaded, lastAt := now, sent := t.sent.setIfInBounds a (t.sentBy a + 1) }
      .next ((s.dissent n b).commitCheck n reloaded reloaded)
    | _, _, _ =>
      let u := s.presentAll n p
      .next (if (u.site n).triad.txs = t.txs + 1 then u.commitCheck n (u.site n).triad.last reloaded else u.catchUp n)

/-! ## The lead cox (R351, R352) -/

/-- HEARTBEAT: every 2^16 ticks, seen by the deputy or not (R352). -/
def execHeartbeat (seen : Bool) (s : State) : Host.Outcome State Fault Refusal :=
  s.byLead (if s.clock.ticks < s.lead.beatAt + 2 ^ 16 then s
    else { s with lead := { s.lead with unseen := if seen then 0 else s.lead.unseen + 1, beatAt := s.clock.ticks } })
/-- DEPUTY_TAKEOVER: four heartbeats unseen, or the lead cox no longer works (R352). -/
def execDeputyTakeover (s : State) : Host.Outcome State Fault Refusal :=
  .next (if s.lead.lead.isSome ∧ s.lead.deputy.isSome ∧ (4 ≤ s.lead.unseen ∨ !s.leadWorks) then s.takeOver else s)

/-! ## Bring-up, keys and quotes (R327, R330, R353, R376, R377) -/

/-- PANEL_BRING_UP by a boathouse controller that runs: ports, roles and identity are set, and every seated site trains, in ascending number
(R353). -/
def execPanelBringUp (b : BringUp) (s : State) : Host.Outcome State Fault Refusal :=
  if s.lead.lead.isSome ∨ !((List.range 25).all fun n => (s.site n).st == .empty) ∨ !s.booted then .next s
  else
    let port (p : Nat) : CxlPort :=
      match b.hosts.find? (·.1 == p) with
      | some (_, d, k) => ⟨true, false, d, k, false⟩
      | none => ⟨false, false, 0, 0, b.trained.contains p⟩
    let cxl := (List.range 24).foldl (fun t p => tset CxlPort.reset t p (port p)) []
    let s := { s with
      links := { s.links with cxl := cxl, window := b.window.take 4096, sysnum := b.sysnum, root := b.root }
      clock := { s.clock with aligned := b.root } }
    let s := b.queues.foldl (fun s (q, d) => if q < 64 then s.onQueue q fun u => { u with dom := d } else s) s
    .next (((List.range 25).filter b.seated.contains).foldl (fun s n =>
      (((s.onSite n fun t => { t with contact := true }).bootTile n).setSite n .seated).setSite n .training) s)

/-- CXL_LINK_TRAINING_CHANGE of a MEMORY port, which serves while its site is LIVE, and then its draw entry changes; a kernel left with
one copy finds another port (R17, R22, R23, R267, R329). -/
def execCxlLinkTrainingChange (p : Nat) (trained : Bool) (s : State) : Host.Outcome State Fault Refusal :=
  if 24 ≤ p ∨ (s.cxl p).host ∨ (s.cxl p).attached = trained then .next s
  else
    let c := { s.cxl p with attached := trained, trained := trained && s.siteLive (portSite p) }
    .next ({ s with links := { s.links with cxl := tset CxlPort.reset s.links.cxl p c } }.redrawn s (siteRegions (portSite p))).recopy
/-- ROUTER_FAILURE at a physical place, bound or not: crossings that pass the place become detours, and the tile's triad writes their seam
entries (R19, R25, R345). -/
def execRouterFailure (p : Place) (s : State) : Host.Outcome State Fault Refusal :=
  .next (if p.site < 25 ∧ p.row < 64 ∧ p.col < 33 then (s.onPartAt p.site p.row p.col fun q => { q with failed := true }).voteTiles [p.site] else s)

/-- KEY_ENROLMENT, by a boathouse controller that runs: up to 16 keys of a domain, on a request signed with the operator key; the key is named by its KEYID
(R377). -/
def execKeyEnrolment (dom : BitVec 16) (key : PubKey) (signed : Bool) (s : State) : Host.Outcome State Fault Refusal :=
  let id := keyIdOf key.n key.e
  .next (if s.booted && signed && !(s.enrolled dom id) && decide (s.boat.keys.countP (·.dom == dom) < 16) then
      { s with boat := { s.boat with keys := s.boat.keys ++ [⟨dom, id, key.n, key.e⟩] } }
    else s)
/-- KEY_REVOCATION (R377). -/
def execKeyRevocation (dom : BitVec 16) (key : Nat) (signed : Bool) (s : State) : Host.Outcome State Fault Refusal :=
  .next (if s.booted && signed then { s with boat := { s.boat with keys := s.boat.keys.filter fun k => k.dom != dom || k.keyid != key } } else s)
/-- QUOTE_REQUEST: the firmware's digest, LIVE sites with their quote digests, and the digest of the enrolled keys under the
nonce, signed with the panel identity key (R376). -/
def execQuoteRequest (nonce : BitVec 256) (s : State) : Host.Outcome State Fault Refusal :=
  let sites := (List.range 25).filter fun n => (s.site n).st == .live
  let keys := Config.keyListDigest (s.boat.keys.map fun k => (k.dom, k.keyid))
  let quotes := sites.map fun n => (n, (s.site n).quote)
  let own := s.boat.firmware.digest
  .next (if s.booted then s.note (.quote nonce own quotes keys (Config.panelSignature nonce own quotes keys)) else s)

end Sys2Proof.Machine
end

