-- ==== Sys2Proof/Machine/Health.lean ====
section
/-! DEFINITION. What the cox, the scrubbers, the umpires, the governor and the ramp limiter do of
themselves (R108, R109, R355-R375), and alignment (R28, R325). An event that is not due changes nothing
(R7). -/

namespace Sys2Proof.Machine

/-! ## Wait-for probes and watchdogs (R108, R109) -/

/-- A slot of a core, by the core's key. -/
abbrev Member := Nat × SlotId
/-- Order of members: by core, and of one core by slot, in which causes of one cycle are raised (R82, R92). -/
def Member.before (a b : Member) : Bool := decide (a.1 < b.1) || (a.1 == b.1 && decide (a.2.toNat < b.2.toNat))
/-- Slots of a core asleep with WHY 0 or 1. -/
def Core.waiters (c : Core) : List SlotId :=
  allSlots.filter fun i =>
    match (c.slot i).st, (c.slot i).why with
    | .sleep, .seat _ | .sleep, .join _ => true
    | _, _ => false
/-- Seats of a set whose FIN is 0, ascending. -/
def Core.openSeats (c : Core) (set : BitVec 64) : List Nat :=
  (List.range 64).filter fun i => set.getLsbD i && !(c.seatAt i).fin
/-- The seats a sleeping slot waits on (R108). -/
def Core.awaited (c : Core) (i : SlotId) : List Nat :=
  match (c.slot i).why with
  | .seat n => [n.toNat]
  | .join set => c.openSeats set
  | .none | .counter _ _ | .flag _ _ | .barrier _ _ | .sleep => []
/-- Declared source cores of a slot's seats (R108, R160). -/
def State.sourceCores (s : State) (g : Group) (m : Member) : List Nat :=
  ((s.coreAt m.1).awaited m.2).flatMap fun n =>
    ((g.image.seats g.var).filter (·.num == n)).flatMap fun r =>
      r.sources.map fun (gx, gy) => keyOf (g.col0 + gx) (g.row0 + gy)
/-- Edges from a slot: none when a declared source core has no slot that waits (R108). -/
def State.waitEdges (s : State) (g : Group) (m : Member) : List Member :=
  let ks := s.sourceCores g m
  if ks.any fun k => (s.coreAt k).waiters.isEmpty then []
  else ks.flatMap fun k => (s.coreAt k).waiters.map fun i => (k, i)
/-- The members of a shortest cycle through the start, of at most n more slots of the tile (R108). -/
def State.probe (s : State) (g : Group) (site : Nat) (start : Member) :
    Nat → List (List Member) → List Member → Option (List Member)
  | 0, _, _ => none
  | n + 1, paths, seen =>
    let next := paths.flatMap fun p =>
      match p with
      | m :: _ => (s.waitEdges g m).map fun x => (x, p)
      | [] => []
    match next.find? fun e => e.1 == start with
    | some (_, p) => some p
    | none =>
      let (paths, seen) := next.foldl (fun (l, seen) (m, p) =>
        if siteOf m.1 == site && !(seen.contains m) then (l ++ [m :: p], m :: seen) else (l, seen)) ([], seen)
      s.probe g site start n paths seen
/-- DEADLOCK_PROBE of a slot of the selected core: DEADLOCK in every member of a cycle, of one core in
ascending order of slots (R92, R108). -/
def execDeadlockProbe (i : SlotId) (id : BitVec 16) (s : State) : Host.Outcome State Fault Refusal :=
  let n := siteOf s.here
  match s.groupOf s.core.ctl.gid with
  | none => .next s
  | some x =>
    .next (if (s.site n).triad.halted ∨ !(s.core.waiters.contains i) ∨ s.clock.ticks < (s.core.slot i).slept + 65536 then s
      else
        match s.probe (s.group x) n (s.here, i) 64 [[(s.here, i)]] [(s.here, i)] with
        | none => s
        | some l =>
          let v := BitVec.ofNat 64 (id.toNat + 65536 * l.length)
          ((sortBy Member.before l).foldl (fun s m => s.onCore m.1 fun c => c.raise m.2 4 v) s).voteTiles [n])

/-- `TVAL` of WATCHDOG, for a WHY that it watches (R109). -/
def Core.watchdogVal (c : Core) (i : SlotId) : Option (BitVec 64) :=
  match (c.slot i).st, (c.slot i).why with
  | .sleep, .seat n => some (n.setWidth 64)
  | .sleep, .join set => some (BitVec.ofNat 64 ((c.openSeats set).headD 0))
  | .sleep, .flag a _ => some a
  | .sleep, .barrier b p => some (b.setWidth 64 ||| (p.setWidth 64 <<< 8))
  | _, _ => none
/-- WATCHDOG_EXPIRY of a slot of the selected core (R109). -/
def execWatchdogExpiry (i : SlotId) (s : State) : Host.Outcome State Fault Refusal :=
  match s.groupOf s.core.ctl.gid, s.core.watchdogVal i with
  | some x, some v =>
    let n := (s.group x).limit
    .next (if n = 0 ∨ s.clock.ticks < (s.core.slot i).slept + n then s else { s with core := s.core.raise i 3 v })
  | _, _ => .next s

/-! ## Codes, scrubbing and the bucket (R355-R359, R366, R367) -/

/-- The quad a node's stores run in, when it has one (R14). -/
def State.quadOf? (s : State) (k : Nat) : Option Nat := if isCore k then some (s.quadOf k) else none
/-- The trim in force at a node (R366). -/
def State.trimOf (s : State) (k : Nat) : Nat :=
  match s.quadOf? k with
  | some q => (s.quad q).trim
  | none => 0
/-- GOVERNOR_ERROR_RESPONSE in a trimmed quad: one step less and raises frozen, or the nominal rail (R367). -/
def State.trimBack (s : State) (k : Nat) (steps : Nat) (freeze : Nat) : State :=
  match s.quadOf? k with
  | some q => s.onQuad q fun r => { r with trim := steps, freeze := s.clock.ticks + freeze }
  | none => s
/-- Corrections note their tick in the quad (R366). -/
def State.quadErred (s : State) (k : Nat) : State :=
  match s.quadOf? k with
  | some q => s.onQuad q fun r => { r with errAt := s.clock.ticks }
  | none => s
/-- The bucket takes n; at 64 it stays and the node is suspect (R357, R358). -/
def State.fillBucket (s : State) (k n : Nat) : State :=
  let b := (s.part k).bucket
  let t := s.onPart k fun q => { q with bucket := min 64 (b + n) }
  if b < 64 ∧ 64 ≤ b + n then t.markSuspect k else t
/-- A correction in a store of a node: the governor's answer in a trimmed quad, else the bucket (R357, R367). -/
def State.correctedIn (s : State) (k : Nat) : State :=
  let n := s.trimOf k
  if 0 < n then (s.trimBack k (n - 1) (2 ^ 30)).quadErred k else (s.quadErred k).fillBucket k 1
/-- A corrected error in the memory of a node; that of a core's scratchpad is counted there (R53). -/
def State.corrected (s : State) (k : Nat) : State :=
  (if isCore k then s.onCore k fun c => c.countN 8 1 else s).correctedIn k
/-- A quad's trim has been lost in this very tick, by an error or a difference (R378). -/
def Quad.justLost (r : Quad) (now : Nat) : Bool := r.freeze == now + 2 ^ 34
/-- A node's quad runs with a trim, or has lost it in this very tick: what fails in it then is margin (R367, R378). -/
def State.margin (s : State) (k : Nat) : Bool :=
  decide (0 < s.trimOf k) || match s.quadOf? k with
    | some q => (s.quad q).justLost s.clock.ticks
    | none => false
/-- An uncorrectable error in a store of a node is reported with its place and owner tag, and answered (R355, R357,
R367); one that meets a difference of its umpire in one tick is margin, whichever comes first (R378). -/
def State.uncorrectableIn (s : State) (k line w : Nat) (owner : BitVec 5) : State :=
  let t := s.note (.uncorrectable k line w owner)
  if s.margin k then t.trimBack k 0 (2 ^ 34) else t.fillBucket k 16
/-- UNCORRECTABLE_ERROR in a word of a line: the poison code, in both words of a pair of a bank element (R355). -/
def State.uncorrectable (s : State) (k line w : Nat) : State :=
  let a := nodeBase k + 64 * line
  let set (t : State) (i : Nat) : State :=
    { t with pois := tset (t.poisonBase (a / 8 + i)) t.pois (a / 8 + i) true }
  let t := if isCore k then set s w else set (set s (w / 2 * 2)) (w / 2 * 2 + 1)
  t.uncorrectableIn k line w (s.tag a)
/-- A visit to a line: what the code says of its words; a word that carries poison stays as it is (R356). -/
def State.visit (s : State) (k line : Nat) (found : List (Nat × Ecc)) : State :=
  found.foldl (fun s (w, e) =>
    if 8 ≤ w ∨ s.poisoned (nodeBase k + 64 * line + 8 * w) then s
    else
      match e with
      | .corrected => s.corrected k
      | .uncorrectable => s.uncorrectable k line w) s
/-- A visit corrects an error in the line. -/
def State.corrects (s : State) (k line : Nat) (found : List (Nat × Ecc)) : Bool :=
  found.any fun (w, e) => decide (w < 8) && e == .corrected && !(s.poisoned (nodeBase k + 64 * line + 8 * w))
/-- A line enters the revisit list; a full list loses its oldest entry (R356). -/
def Part.listLine (q : Part) (line now : Nat) : Part :=
  if q.revisit.any (·.line == line) then
    { q with revisit := mapFirst (fun r => r.line == line) (fun r => { r with clean := 0 }) q.revisit }
  else { q with revisit := (if q.revisit.length < 16 then q.revisit else q.revisit.drop 1) ++ [⟨line, 0, now⟩] }
/-- A node is powered and its part works: a SAFE tile is powered down (R333). -/
def State.serving (s : State) (k : Nat) : Bool :=
  s.bound k &&
    match (s.site (siteOf k)).st with
    | .live | .draining | .fenced | .training => true
    | .empty | .seated | .lost | .safe => false
/-- SCRUB_VISIT: every 2^30 ticks each line once, in ascending offset (R356). -/
def execScrubVisit (k line : Nat) (found : List (Nat × Ecc)) (s : State) : Host.Outcome State Fault Refusal :=
  let q := s.part k
  .next (if !(s.serving k) ∨ line ≠ q.scrub ∨ (line = 0 ∧ s.clock.ticks < q.scrubAt + 2 ^ 30) then s
    else
      let now := s.clock.ticks
      let t := s.onPart k fun q =>
        let q := { q with scrub := if line + 1 < nodeSize k / 64 then line + 1 else 0
                          scrubAt := if line = 0 then now else q.scrubAt }
        if s.corrects k line found then q.listLine line now else q
      t.visit k line found)
/-- REVISIT of a listed line, every 2^26 ticks; after 64 without a correction it leaves the list (R356). -/
def execRevisit (k line : Nat) (found : List (Nat × Ecc)) (s : State) : Host.Outcome State Fault Refusal :=
  match (s.part k).revisit.find? (·.line == line) with
  | none => .next s
  | some r =>
    let now := s.clock.ticks
    .next (if !(s.serving k) ∨ now < r.last + 2 ^ 26 then s
      else
        let c := if s.corrects k line found then 0 else r.clean + 1
        let t := s.onPart k fun q =>
          { q with revisit :=
              if 64 ≤ c then q.revisit.filter fun x => x.line != line
              else mapFirst (fun x => x.line == line) (fun x => { x with clean := c, last := now }) q.revisit }
        t.visit k line found)
/-- BUCKET_LEAK: 1 every LEAK ticks; a full bucket stays (R357). -/
def execBucketLeak (k : Nat) (s : State) : Host.Outcome State Fault Refusal :=
  let q := s.part k
  .next (if s.clock.ticks < q.leakAt + s.power.leak then s
    else
      let now := s.clock.ticks
      s.onPart k fun q => { q with leakAt := now, bucket := if q.bucket = 64 then 64 else q.bucket - 1 })

/-! ## Umpires (R16, R360) -/

/-- The umpire quad of an umpire (R14). -/
def umpireQuad (u : Nat) : Nat := 256 * (u / 16) + 128 + u % 16 / 2

/-! ## Operating points, caps and trims (R14, R362-R368) -/

/-- The coordinate bound to physical column p of a region row of the panel, when there is one (R14, R18). -/
def State.coordOf (s : State) (region row p : Nat) : Option Nat :=
  let n := region / 4
  let r := region % 4
  let at_ (c : Nat) : Nat := keyOf (64 * (n % 5) + 32 * (r % 2) + c) (32 * (n / 5) + 16 * (r / 2) + row)
  ([p, p - 1].find? fun c => decide (c < 32) && s.physCol (at_ c) == p).map at_
/-- The nominal rail in a quad: trim 0, raises frozen for 2^34 ticks (R361, R367). -/
def State.nominalRail (s : State) (q : Nat) : State :=
  s.onQuad q fun r => { r with trim := 0, freeze := s.clock.ticks + 2 ^ 34 }
/-- The first difference in an umpire's window closes it and marks the core it shadows suspect, and the cox logs
the interval and the output; with a trim in force on the core's quad or the umpire's, or lost in this tick by an uncorrectable error, both take the nominal rail
and nothing is marked (R361, R367, R378). -/
def State.umpireDiffers (s : State) (u out : Nat) : State :=
  let w := s.umpire u
  let t := s.onUmpire u fun w => { w with isOpen := false, filled := false }
  match s.coordOf (u / 16) (u % 16) w.col with
  | none => t
  | some k =>
    let t := t.note (.mismatch k w.since out)
    let margin (q : Nat) : Bool := decide (0 < (s.quad q).trim) || (s.quad q).justLost s.clock.ticks
    if margin (s.quadOf k) || margin (umpireQuad u) then
      (t.nominalRail (s.quadOf k)).nominalRail (umpireQuad u)
    else t.markSuspect k
/-- UMPIRE_INTERVAL: 2^I core cycles of its quad later the umpire moves one core west and fills; the window
waits for an `SRET` (R16, R360). differs names an output of the window now open, by its number, that differs from the
umpire's own, an input of the environment (R361). -/
def execUmpireInterval (u : Nat) (differs : Option Nat) (s : State) : Host.Outcome State Fault Refusal :=
  let w := s.umpire u
  let due := w.since + 2 ^ s.power.interval * 10 / pointClock (s.quad (umpireQuad u)).point
  let now := s.clock.ticks
  .next (if 1600 ≤ u ∨ !(computeSite (u / 64)) ∨ 32 ≤ w.col then s
    else
      match differs with
      | some i => if w.isOpen && decide (i < w.outs) then s.umpireDiffers u i else s
      | none =>
        if now < due then s
        else s.onUmpire u fun w => { col := (w.col + 31) % 32, filled := true, isOpen := false, since := now, outs := 0 })

/-- The request for a working core: 0 while it belongs to a group in LOADING, RUNNING or DRAINING, else 7
(R363). -/
def State.pointRequest (s : State) (k : Option Nat) : Nat :=
  match k with
  | none => 7
  | some k =>
    if s.lead.groups.any fun e =>
      (match e.2.st with
        | .loading | .running | .draining => true
        | .unused | .admitted | .seeding | .suspended | .faulted | .retired => false) && e.2.cores.contains k
    then 0 else 7
/-- The physical column an umpire shadows or stands in for (R14, R16). -/
def State.umpireCol (s : State) (u : Nat) : Nat :=
  let c := (s.umpire u).col
  if c < 32 then c else tget 32 (s.site (u / 64)).skips (u % 64)
/-- Point of the quad of a physical place (R14). -/
def State.pointAt (s : State) (region row p : Nat) : Nat :=
  (s.quad (256 * region + (if 32 ≤ p then 128 + row / 2 else 16 * (row / 2) + p / 2))).point
/-- The point a quad should run at (R14, R363). -/
def State.wanted (s : State) (q : Nat) : Nat :=
  let r := q / 256
  let i := q % 256
  let asked : Nat :=
    if i < 128 then
      let x := 2 * (i % 16)
      let y := 2 * (i / 16)
      min (min (s.pointRequest (s.coordOf r y x)) (s.pointRequest (s.coordOf r y (x + 1))))
        (min (s.pointRequest (s.coordOf r (y + 1) x)) (s.pointRequest (s.coordOf r (y + 1) (x + 1))))
    else
      let y := 2 * (i - 128)
      min (s.pointAt r y (s.umpireCol (16 * r + y))) (s.pointAt r (y + 1) (s.umpireCol (16 * r + y + 1)))
  max asked (max (s.quad q).capR (s.quad q).capT)
/-- Nominal rail of a point, in mV (R362). -/
def nominalMv : Nat → Nat
  | 0 => 620 | 1 => 580 | 2 => 550 | 3 => 520 | 4 => 490 | 5 => 450 | 6 => 410 | _ => 380
/-- The largest trim a point's rail bears, in steps of 5 mV (R366). -/
def trimRoom (point : Nat) : Nat := min 8 ((nominalMv point - 380) / 5)
/-- A number is a quad's: of a compute region, and one of its 128 quads and 8 umpire quads (R14). -/
def isQuad (q : Nat) : Bool := decide (q / 1024 < 25) && computeSite (q / 1024) && decide (q % 256 < 136)
/-- A cap that has risen applies at once (R365). -/
def Quad.capped (r : Quad) (now : Nat) : Quad :=
  let a := max r.capR r.capT
  if a ≤ r.point then r else { r with point := a, changed := now, trim := min r.trim (trimRoom a) }
/-- OPERATING_POINT_CHANGE: at most once in 10^5 ticks but for a cap; a faster point waits for the share of its tile
(R363, R365, R370, R378). -/
def execOperatingPointChange (q : Nat) (s : State) : Host.Outcome State Fault Refusal :=
  let r := s.quad q
  let a := s.wanted q
  let now := s.clock.ticks
  let capped : Bool := decide (r.point < a) && (a == max r.capR r.capT)
  .next (if !(isQuad q) ∨ a = r.point ∨ (a < r.point ∧ s.power.exceeded.contains (q / 1024)) ∨ (!capped ∧ now < r.changed + 100000) then s
    else s.onQuad q fun r => { r with point := a, changed := now, trim := min r.trim (trimRoom a) })
/-- THERMAL_CAP_STEP with the quad's temperature in 0.25 °C, at each millisecond; at 115 °C the site drains
(R364). -/
def execThermalCapStep (q : Nat) (temp : BitVec 16) (s : State) : Host.Outcome State Fault Refusal :=
  let r := s.quad q
  let now := s.clock.ticks
  .next (if !(isQuad q) ∨ now < r.capAt + 1000000 then s
    else
      let t := temp.toInt
      let capT := if 400 ≤ t then min 7 (r.capT + 1) else if t < 380 then r.capT - 1 else r.capT
      let s := s.onQuad q fun r =>
        let new := { r with temp := temp, capT := capT, capAt := now }
        if r.capT < capT then new.capped now else new
      if 460 ≤ t then (s.drainSite (q / 1024)).note (.trip q) else s)
/-- The nodes behind the quads of a regulator group (R368). -/
def groupNode (n g k : Nat) : Bool := siteOf k == n && isCore k && 8 * regionOf k + keyY k % 16 / 2 == g
/-- PHASE_LOSS of a regulator group: a cap at two, dead coordinates at three (R359, R368). -/
def execPhaseLoss (n g : Nat) (s : State) : Host.Outcome State Fault Refusal :=
  let lost := tget 0 (s.site n).phases g
  if 25 ≤ n ∨ !(computeSite n) ∨ 32 ≤ g ∨ 4 ≤ lost then .next s
  else
    let hit (i : Nat) : Bool :=
      let x := s.group i
      if x.st = .seeding then x.laneKeys.any (groupNode n g) else x.cores.any (groupNode n g)
    let base := 256 * (4 * n + g / 8)
    let now := s.clock.ticks
    let lower (r : Quad) : Quad := { r with capR := 3 }.capped now
    let cap (s : State) : State :=
      ((List.range 16).foldl (fun s qx => s.onQuad (base + 16 * (g % 8) + qx) lower) s).onQuad (base + 128 + g % 8) lower
    let t := (s.onSite n fun x => { x with phases := tset 0 x.phases g (lost + 1) }).recommend n
    .next (if lost = 1 then cap t
      else if lost = 2 then (s.groupIds.foldl (fun u i => if hit i then u.faultGroup i else u) t).redrawn s (siteRegions n)
      else t)
/-- GOVERNOR_TRIM_RAISE, every 2^20 ticks (R366). -/
def execGovernorTrimRaise (q : Nat) (s : State) : Host.Outcome State Fault Refusal :=
  let r := s.quad q
  let now := s.clock.ticks
  .next (if !(isQuad q) ∨ now < r.trimAt + 2 ^ 20 then s
    else
      let may := decide (r.errAt + 2 ^ 20 ≤ now) && decide (r.freeze ≤ now) && !r.slow && decide (r.trim < trimRoom r.point)
      s.onQuad q fun r => { r with trimAt := now, trim := if may then r.trim + 1 else r.trim })

/-! ## The ramp limiter and telemetry (R369-R375) -/

/-- The counter the ramp limiter samples by: that of the lead cox's tile (R369). -/
def State.leadClock (s : State) : BitVec 64 := s.regionCount (4 * s.lead.lead.getD 0)
/-- 1588 time of a tick from the last two pairs (R373). -/
def ptpTime (pairs : List (Nat × BitVec 64)) (t : Nat) : BitVec 64 :=
  match pairs with
  | (r, v) :: (r0, v0) :: _ =>
    v + BitVec.ofInt 64 (((t : Int) - r) * ((v.toNat : Int) - v0.toNat) / ((r : Int) - r0))
  | [(r, v)] => v + BitVec.ofInt 64 ((t : Int) - r)
  | [] => 0
/-- Hundredfold D[n] and U[n] in units of 0.125 W (R369). -/
def rampLow (last limit : Nat) : Nat := 100 * last - 8 * limit
/-- As rampLow, for U[n] (R369). -/
def rampHigh (last limit : Nat) : Nat := 100 * last + 8 * limit
/-- Quotient rounded up. -/
def ceilDiv (a b : Nat) : Nat := (a + b - 1) / b
/-- `RAMPF.FLOOR` of a tile: its last sample times D over P, rounded up to 0.125 W (R371). -/
def rampFloor (tile last limit : Nat) : Nat := if last = 0 then 0 else ceilDiv (tile * rampLow last limit) (100 * last)
/-- The cores of RUNNING groups on a tile. -/
def State.runningOn (s : State) (n : Nat) : List Nat :=
  s.lead.groups.flatMap fun e => if e.2.st = .running then e.2.cores.filter fun k => siteOf k == n else []
/-- PADDLE of a tile's cores after a sample: set below FLOOR in the cores of RUNNING groups, cleared with PADDLE_REMOVAL at
FLOOR + 1 W in every core (R280, R371). -/
def State.setPaddles (s : State) (n sample floor : Nat) : State :=
  if sample < floor then
    s.onCores (s.runningOn n) fun _ c => { c with ctl := { c.ctl with paddle := true } }
  else if floor + 8 ≤ sample then
    ((s.here :: s.peers.map (·.1)).filter fun k => siteOf k == n).foldl (fun (s : State) k =>
      if (s.coreAt k).ctl.paddle then (s.dropPaddlesAt k).onCore k fun c => { c with ctl := { c.ctl with paddle := false } }
      else s) s
  else s
/-- Some core has `RAMPF.PADDLE` = 1. -/
def State.anyPaddle (s : State) : Bool := s.core.ctl.paddle || s.peers.any fun e => e.2.ctl.paddle
/-- Some group drains. -/
def State.anyDraining (s : State) : Bool := s.lead.groups.any fun e => e.2.st == .draining
/-- Dword 2 of a telemetry record (R374). -/
def telemetryWord (pwr floorp limit : Nat) (lock throt padl miss emerg : Bool) : BitVec 64 :=
  let b (x : Bool) (i : Nat) : Nat := if x then 2 ^ i else 0
  BitVec.ofNat 64 (pwr % 65536 * 2 ^ 48 + floorp % 65536 * 2 ^ 32 + limit % 4096 * 2 ^ 20 + b lock 15 + b throt 14
    + b padl 13 + b miss 12 + b emerg 11)
/-- RAMP_SAMPLE of the tiles' power and of the rest, in 0.125 W: throttling, floors, PADDLE, a ramp emergency,
and the TELEMETRY_RECORD (R369-R372, R374). `RAMPF` of a tile is written by a voted transaction of its triad; one that can
issue none keeps it (R345, R350). -/
def execRampSample (tiles : List (Nat × Nat)) (rest : Nat) (s : State) : Host.Outcome State Fault Refusal :=
  let n := BitVec.ofNat 32 (s.leadClock.toNat / 10000)
  s.byLead (if n = s.power.sampleNo then s
    else
      let w := s.power
      let limit := s.limitNow
      let sites := (List.range 25).filter computeSite
      let now (i : Nat) : Nat := ((tiles.find? (·.1 == i)).map (·.2)).getD 0
      let p := sites.foldl (fun a i => a + now i) rest
      let before := sites.foldl (fun a i => a + tget 0 w.tiles i) 0
      let low := rampLow w.last limit
      let floor (i : Nat) : Nat := rampFloor (tget 0 w.tiles i) w.last limit
      let above (i : Nat) : Bool := decide (rampHigh w.last limit * tget 0 w.tiles i < 100 * before * now i)
      let exceeded := sites.filter above
      let throttle := !exceeded.isEmpty
      let miss := decide (100 * p < low)
      let above := if s.lead.budget.toNat < p then w.above + 1 else 0
      let written := sites.filter fun i => (s.site i).triad.mayVote
      let floors := written.foldl (fun t i => tset 0 t i (BitVec.ofNat 16 (floor i))) w.floors
      let samples := sites.foldl (fun t i => tset 0 t i (now i)) []
      let w := { w with
        last := p, tiles := samples, floors := floors, above := if above = 100 then 0 else above, throttle := throttle,
        exceeded := exceeded, sampleNo := n }
      let s : State := { s with power := w }
      let s := written.foldl (fun (s : State) i => (s.vote i).setPaddles i (now i) (floor i)) s
      let s := if above = 100 then s.emergency else s
      let calm := decide (p ≤ s.lead.budget.toNat) && !s.anyDraining
      let s : State := if calm then { s with power := { s.power with emerg := false } } else s
      let s : State := if miss then s.note (.miss n) else s
      let tick := s.leadClock.toNat / 10000 * 10000
      let word := telemetryWord p (ceilDiv low 100) limit s.boat.locked throttle s.anyPaddle miss s.power.emerg
      let rec_ := (ptpTime s.boat.ptp tick, BitVec.ofNat 64 tick, word, n.setWidth 64 <<< 32)
      let old := if s.boat.telemetry.length < 65536 then s.boat.telemetry else s.boat.telemetry.drop 1
      { s with boat := { s.boat with telemetry := old ++ [rec_] } })

/-- The panel reference as the boathouse controller counts it (R27). -/
def State.panelCount (s : State) : Nat := ((s.clock.ticks : Int) + s.clock.slewed).toNat
/-- PTP_TIMESTAMP, every 2^20 ticks (R373). -/
def execPtpTimestamp (ns : BitVec 64) (locked : Bool) (s : State) : Host.Outcome State Fault Refusal :=
  let r := s.panelCount
  let soon := match s.boat.ptp with
    | (r0, _) :: _ => decide (r < r0 + 2 ^ 20)
    | [] => false
  .next (if soon then s else { s with boat := { s.boat with ptp := (r, ns) :: s.boat.ptp.take 1, locked := locked } })
/-- The monitor word of a quad (R375). -/
def Quad.monitor (r : Quad) : BitVec 64 :=
  BitVec.ofNat 64 (r.temp.toNat * 2 ^ 48 + r.vmv.toNat * 2 ^ 36 + r.roc.toNat * 2 ^ 16 + r.trim % 16 * 2 ^ 12
    + r.point % 16 * 2 ^ 8 + r.capR % 16 * 2 ^ 4 + r.capT % 16)
/-- MONITOR_READ, every 10^6 ticks; a quad whose ring oscillator reads below the threshold takes no trim (R366, R375). -/
def execMonitorRead (q : Nat) (temp : BitVec 16) (vmv : BitVec 12) (roc : BitVec 20) (s : State) :
    Host.Outcome State Fault Refusal :=
  let now := s.clock.ticks
  .next (if !(isQuad q) ∨ now < (s.quad q).readAt + 1000000 then s
    else
      let s := s.onQuad q fun r =>
        let slow := decide (roc < Config.slowRoc)
        { r with temp := temp, vmv := vmv, roc := roc, slow := slow, trim := if slow then 0 else r.trim, readAt := now }
      { s with boat := { s.boat with monitors := tset 0 s.boat.monitors q (s.quad q).monitor } })

/-! ## Alignment (R28, R29, R325) -/

/-- ALIGNMENT_REMEASURE, every 2^20 ticks: phase is what the counter leads by within a tick, in sixteenths;
an excess is logged, and the region slews back as the clock advances (R27, R28). -/
def execAlignmentRemeasure (r : Nat) (phase : Int) (s : State) : Host.Outcome State Fault Refusal :=
  let g := tget Region.reset s.clock.regions r
  let now := s.clock.ticks
  .next (if 100 ≤ r ∨ phase < -8 ∨ 8 ≤ phase ∨ now < g.measAt + 2 ^ 20 then s
    else
      let off : Int := 16 * g.lead + phase
      let ok := decide (-48 ≤ off) && decide (off ≤ 48)
      let g' := { g with offset := BitVec.ofInt 16 off, valid := ok, measAt := now }
      let s := { s with clock := { s.clock with regions := tset Region.reset s.clock.regions r g' } }
      if ok then s else s.note (.region r))

/-- A panel link that carries traffic. -/
def Link.carries (l : Link) : Bool :=
  match l.st with
  | .up | .degraded => true
  | .down | .dead => false
/-- The port of the link partner: fewest hops to the root, then the lower number (R325). -/
def State.partner (s : State) : Option Nat :=
  ((sortBy (fun a b => decide ((s.link (1920 + a)).hops < (s.link (1920 + b)).hops))
    ((List.range 12).filter fun b => (s.link (1920 + b)).carries)).head?)
/-- Offset to the partner from the four stamps (R325). -/
def exchangeOffset (t1 t2 t3 t4 : Nat) : Int := (((t2 : Int) - t1) - ((t4 : Int) - t3)).tdiv 2
/-- COUNTER_EXCHANGE on a panel link, every 2^20 ticks; a lane shed meanwhile discards the sample (R324-R326,
R332). -/
def execCounterExchange (b t1 t2 t3 t4 : Nat) (shed : Bool) (s : State) : Host.Outcome State Fault Refusal :=
  let l := s.link (1920 + b)
  let now := s.clock.ticks
  .next (if 12 ≤ b ∨ !l.carries ∨ now < l.exchAt + 2 ^ 20 then s
    else
      let s := s.onLink (1920 + b) fun l => { l with exchAt := now }
      if shed then s
      else
        let d := exchangeOffset t1 t2 t3 t4
        let s := s.onLink (1920 + b) fun l => { l with offset := BitVec.ofInt 16 d }
        if s.partner ≠ some b then s
        else
          let close := decide (-40 ≤ d) && decide (d ≤ 40)
          { s with clock := { s.clock with aim := if s.links.root then s.clock.aim else s.clock.slewed + d
                                           aligned := s.links.root || close } })

end Sys2Proof.Machine
end

