-- ==== Sys2Proof/Machine/Mask.lean ====
section
/-! DEFINITION. Mask instructions (R199). -/

namespace Sys2Proof.Machine

/-- `MAND` (R199). -/
def mandBody (d a b : MR) (s : State) : Res := .ok (s.setM d (s.mr a &&& s.mr b))
/-- `MAND` (R199). -/
def execMand (d a b : MR) (s : State) : Host.Outcome State Fault Refusal := s.finish 4 (mandBody d a b s)

/-- `MOR` (R199). -/
def morBody (d a b : MR) (s : State) : Res := .ok (s.setM d (s.mr a ||| s.mr b))
/-- `MOR` (R199). -/
def execMor (d a b : MR) (s : State) : Host.Outcome State Fault Refusal := s.finish 4 (morBody d a b s)

/-- `MXOR` (R199). -/
def mxorBody (d a b : MR) (s : State) : Res := .ok (s.setM d (s.mr a ^^^ s.mr b))
/-- `MXOR` (R199). -/
def execMxor (d a b : MR) (s : State) : Host.Outcome State Fault Refusal := s.finish 4 (mxorBody d a b s)

/-- `MNOT` (R199). -/
def mnotBody (d a : MR) (s : State) : Res := .ok (s.setM d (~~~(s.mr a)))
/-- `MNOT` (R199). -/
def execMnot (d a : MR) (s : State) : Host.Outcome State Fault Refusal := s.finish 4 (mnotBody d a s)

/-- `MPOP` (R199). -/
def mpopBody (d : GR) (a : MR) (s : State) : Res := .ok (s.setG d (BitVec.ofNat 64 ((List.range 64).countP fun i => (s.mr a).getLsbD i)) false)
/-- `MPOP` (R199). -/
def execMpop (d : GR) (a : MR) (s : State) : Host.Outcome State Fault Refusal := s.finish 4 (mpopBody d a s)

/-- Index of the lowest 1 bit, 64 when there is none (R199). -/
def firstOne (x : BitVec 64) : Nat := ((List.range 64).find? fun i => x.getLsbD i).getD 64

/-- `MFIRST` (R199). -/
def mfirstBody (d : GR) (a : MR) (s : State) : Res := .ok (s.setG d (BitVec.ofNat 64 (firstOne (s.mr a))) false)
/-- `MFIRST` (R199). -/
def execMfirst (d : GR) (a : MR) (s : State) : Host.Outcome State Fault Refusal := s.finish 4 (mfirstBody d a s)

end Sys2Proof.Machine
end

