-- ==== Sys2Proof/Machine/Fetch.lean ====
section
/-! DEFINITION. Fetching an instruction (R134-R136) and the choice of the row a step runs when the
agenda gives none (log entry 7). -/

namespace Sys2Proof.Machine

/-- What the fetch at the program counter gives. -/
inductive Fetched
  | instr (i : Instr)
  | illegal (p0 : BitVec 32)
  | poisoned
  deriving DecidableEq, Repr

/-- Memory key of an offset of the selected core's scratchpad, modulo 2^16 (R134). -/
def State.codeKey (s : State) (o : BitVec 16) : Nat := nodeBase s.here + o.toNat

/-- The parcel at an offset of the selected core's scratchpad. -/
def State.parcelAt (s : State) (o : BitVec 16) : Nat :=
  leNat [s.byte (s.codeKey o), s.byte (s.codeKey (o + 1)), s.byte (s.codeKey (o + 2)), s.byte (s.codeKey (o + 3))]

/-- Fetch and decode at the program counter: a poisoned parcel first, then ILLEGAL (R136). The
extension word is fetched for the allocated long majors only (R141). -/
def State.fetch (s : State) : Fetched :=
  let pc := s.pc
  let w := s.parcelAt pc
  if s.poisoned (s.codeKey pc) then .poisoned
  else if needsExt w && s.poisoned (s.codeKey (pc + 4)) then .poisoned
  else
    match decode w (if needsExt w then s.parcelAt (pc + 4) else 0) with
    | .ok i => .instr i
    | .error _ => .illegal (BitVec.ofNat 32 w)

/-- The row a fetch leads to. -/
def Fetched.row : Fetched → Instr
  | .instr i => i
  | .illegal p => .illegalInstruction p
  | .poisoned => .poisonedFetch

/-- The slot whose timer has expired before this tick. In the very tick it expires an instruction may still commit
first (R181). -/
def State.dueTimer (s : State) : Option SlotId :=
  (s.core.firstTimer s.rclk).filter fun i => decide ((s.core.slot i).tcmp < s.rclk)

/-- The row that moves a packet in flight. -/
def Packet.row (p : Packet) (n : Nat) : Instr :=
  match p.kind with
  | .data => .dataArrival n
  | .finish | .treeFinish => .finishArrival n
  | .renorm => .renormFromParent n
  | .reply | .treeReply | .amoReply | .watchReply | .wakeReply | .lowAck => .replyArrival n
  | .amo => .homeAtomic n
  | .watch => .watchRequest n
  | .wake => .wakeArrival n
  | .watchWake => .watchWakeArrival n
  | .barArrive => .barrierArrival n
  | .barRelease => .barrierRelease n
  | .treeBlock => .treeBlockDelivery n

/-- Rows of the packets in flight, from place n on. -/
def packetRows : Nat → List Packet → List Instr
  | _, [] => []
  | n, p :: r => p.row n :: packetRows (n + 1) r

/-- The row that performs an engine operation (R201). -/
def EngKind.row : EngKind → Instr
  | .mma _ => .mmaExecute
  | .mmas => .mmasExecute
  | .accz => .acczPerform
  | .accrn => .accrnPerform
  | .accld _ => .accldPerform
  | .accst _ => .accstPerform

/-- Rows of the selected core's engines, streams and cluster port that may be due. -/
def State.coreRows (s : State) : List Instr :=
  let c := s.core
  (c.eng.tq.take 1).map (·.kind.row) ++ (c.eng.mover.take 1).map (·.kind.row)
    ++ (if c.sh.port = [] then [] else [.clusterPortAccess])
    ++ ((List.range 4).filter fun k => (c.sh.stream[k]?.map (·.st)) == some .active).flatMap fun k =>
        let k := BitVec.ofNat 2 k
        [.streamLegStart k, .streamCompletion k, .legRewind k]

/-- The rows that may be due besides the core's own instruction. -/
def State.background (s : State) : List Instr :=
  s.coreRows ++ packetRows 0 s.net
    ++ (if s.core.sh.busyFin = [] then [] else [.finishResend 0])
    ++ (if s.core.sh.acks = [] then [] else [.lowAcknowledgement 0])
    ++ (match s.core.sh.rpc with | some _ => [.atomicResend, .atomicBusyResend] | none => [])
    ++ (match s.core.ctl.issue with | .idle _ => [.idleIssueResume false] | _ => [])
    ++ (match s.core.firstTimer s.rclk with | some i => [.timerExpiry i] | none => [])

/-- One of several rows, by turns of the draw counter. -/
def State.pick (s : State) (l : List Instr) : Option Instr := l[s.draws % l.length]?

/-- The row the next step runs when the agenda names none: a due timer; at U a pending cause (R55);
else the instruction at the program counter; a core that does not issue lets the other rows move, and
an instruction that holds or waits is tried at every second step (log entry 7). -/
def State.nextRow (s : State) : Option Instr :=
  match s.dueTimer with
  | some i => some (.timerExpiry i)
  | none =>
    match s.core.ctl.issue with
    | .run =>
      if s.core.ctl.priv = .u && s.slot.pend != 0 then some .asyncTrapEntry else some s.fetch.row
    | .wait =>
      if s.core.ctl.priv = .u && s.slot.pend != 0 then some .asyncTrapEntry
      else if s.draws % 2 = 0 then some s.fetch.row else s.pick s.background
    | .hold => if s.draws % 2 = 0 then some s.fetch.row else s.pick s.background
    | .off | .idle _ | .stopped | .restored _ => s.pick s.background

/-- Bytes placed at the program counter of the selected core, modulo 2^16, without poison. -/
def State.placeCode (s : State) (o : BitVec 16) : List (BitVec 8) → State
  | [] => s
  | b :: r =>
    let a := s.codeKey o
    State.placeCode { s with mem := tset unlistedByte s.mem a b, pois := tset (s.poisonBase (a / 8)) s.pois (a / 8) false } (o + 1) r

end Sys2Proof.Machine
end

