-- ==== Sys2Proof/Machine/Scalar.lean ====
section
/-! DEFINITION. Integer instructions (R167, R168), immediate forms (R169, R170), long `LI` (R154),
address forming (R171) and the tag table (R178). A body gives the effect, an exec its commit. -/

namespace Sys2Proof.Machine

/-- Outcome as a flag in a general register. -/
def flagWord (b : Bool) : BitVec 64 := if b then 1 else 0
/-- Shift count of a register (R167). -/
def shiftCount (b : BitVec 64) : Nat := b.toNat % 64
/-- Leading zero bits (R167). -/
def clz64 (a : BitVec 64) : Nat := if a = 0 then 64 else 63 - Nat.log2 a.toNat
/-- Index of the lowest 1 bit from bit i on, 64 when there is none. -/
def ctzFrom (a : BitVec 64) : Nat → Nat → Nat
  | 0, _ => 64
  | n + 1, i => if a.getLsbD i then i else ctzFrom a n (i + 1)
/-- Trailing zero bits (R167). -/
def ctz64 (a : BitVec 64) : Nat := ctzFrom a 64 0
/-- Bits that are 1 (R167). -/
def popc64 (a : BitVec 64) : Nat := (List.range 64).countP fun i => a.getLsbD i
/-- Quotient truncated toward zero; a zero divisor gives all ones (R168). -/
def divSigned (a b : BitVec 64) : BitVec 64 := if b = 0 then -1 else BitVec.ofInt 64 (Int.tdiv a.toInt b.toInt)
/-- Remainder with the sign of the dividend; a zero divisor gives the dividend (R168). -/
def remSigned (a b : BitVec 64) : BitVec 64 := if b = 0 then a else BitVec.ofInt 64 (Int.tmod a.toInt b.toInt)
/-- Unsigned quotient (R168). -/
def divUnsigned (a b : BitVec 64) : BitVec 64 := if b = 0 then -1 else BitVec.ofNat 64 (a.toNat / b.toNat)
/-- Unsigned remainder (R168). -/
def remUnsigned (a b : BitVec 64) : BitVec 64 := if b = 0 then a else BitVec.ofNat 64 (a.toNat % b.toNat)
/-- The low n bits. -/
def lowBits (n : Nat) (a : BitVec 64) : BitVec 64 := BitVec.ofNat 64 (a.toNat % 2 ^ n)
/-- a with the bits from p on, n of them, replaced by the low bits of b (R169). -/
def insertBits (a b : BitVec 64) (p n : Nat) : BitVec 64 :=
  let m := BitVec.ofNat 64 ((2 ^ n - 1) * 2 ^ p)
  (a &&& ~~~m) ||| ((b <<< p) &&& m)

/-- `ADD` (R167). -/
def addBody (d a b : GR) (s : State) : Res := s.alu2 d a b fun x y => x + y
/-- `ADD` (R167). -/
def execAdd (d a b : GR) (s : State) : Host.Outcome State Fault Refusal := s.finish 4 (addBody d a b s)

/-- `SUB` (R167). -/
def subBody (d a b : GR) (s : State) : Res := s.alu2 d a b fun x y => x - y
/-- `SUB` (R167). -/
def execSub (d a b : GR) (s : State) : Host.Outcome State Fault Refusal := s.finish 4 (subBody d a b s)

/-- `MUL` (R167). -/
def mulBody (d a b : GR) (s : State) : Res := s.alu2 d a b fun x y => x * y
/-- `MUL` (R167). -/
def execMul (d a b : GR) (s : State) : Host.Outcome State Fault Refusal := s.finish 4 (mulBody d a b s)

/-- `MULH` (R167). -/
def mulhBody (d a b : GR) (s : State) : Res := s.alu2 d a b fun x y => BitVec.ofInt 64 (x.toInt * y.toInt / (2 ^ 64 : Nat))
/-- `MULH` (R167). -/
def execMulh (d a b : GR) (s : State) : Host.Outcome State Fault Refusal := s.finish 4 (mulhBody d a b s)

/-- `MULHN` (R167). -/
def mulhnBody (d a b : GR) (s : State) : Res := s.alu2 d a b fun x y => BitVec.ofNat 64 (x.toNat * y.toNat / 2 ^ 64)
/-- `MULHN` (R167). -/
def execMulhn (d a b : GR) (s : State) : Host.Outcome State Fault Refusal := s.finish 4 (mulhnBody d a b s)

/-- `DIV` (R168). -/
def divBody (d a b : GR) (s : State) : Res := s.alu2 d a b fun x y => divSigned x y
/-- `DIV` (R168). -/
def execDiv (d a b : GR) (s : State) : Host.Outcome State Fault Refusal := s.finish 4 (divBody d a b s)

/-- `DIVN` (R168). -/
def divnBody (d a b : GR) (s : State) : Res := s.alu2 d a b fun x y => divUnsigned x y
/-- `DIVN` (R168). -/
def execDivn (d a b : GR) (s : State) : Host.Outcome State Fault Refusal := s.finish 4 (divnBody d a b s)

/-- `REM` (R168). -/
def remBody (d a b : GR) (s : State) : Res := s.alu2 d a b fun x y => remSigned x y
/-- `REM` (R168). -/
def execRem (d a b : GR) (s : State) : Host.Outcome State Fault Refusal := s.finish 4 (remBody d a b s)

/-- `REMN` (R168). -/
def remnBody (d a b : GR) (s : State) : Res := s.alu2 d a b fun x y => remUnsigned x y
/-- `REMN` (R168). -/
def execRemn (d a b : GR) (s : State) : Host.Outcome State Fault Refusal := s.finish 4 (remnBody d a b s)

/-- `MADD` (R167). -/
def maddBody (d a b c : GR) (s : State) : Res := .ok (s.setG d (s.gv a * s.gv b + s.gv c) (s.gp a || s.gp b || s.gp c))
/-- `MADD` (R167). -/
def execMadd (d a b c : GR) (s : State) : Host.Outcome State Fault Refusal := s.finish 4 (maddBody d a b c s)

/-- `AND` (R167). -/
def andBody (d a b : GR) (s : State) : Res := s.alu2 d a b fun x y => x &&& y
/-- `AND` (R167). -/
def execAnd (d a b : GR) (s : State) : Host.Outcome State Fault Refusal := s.finish 4 (andBody d a b s)

/-- `OR` (R167). -/
def orBody (d a b : GR) (s : State) : Res := s.alu2 d a b fun x y => x ||| y
/-- `OR` (R167). -/
def execOr (d a b : GR) (s : State) : Host.Outcome State Fault Refusal := s.finish 4 (orBody d a b s)

/-- `XOR` (R167). -/
def xorBody (d a b : GR) (s : State) : Res := s.alu2 d a b fun x y => x ^^^ y
/-- `XOR` (R167). -/
def execXor (d a b : GR) (s : State) : Host.Outcome State Fault Refusal := s.finish 4 (xorBody d a b s)

/-- `SHL` (R167). -/
def shlBody (d a b : GR) (s : State) : Res := s.alu2 d a b fun x y => x <<< shiftCount y
/-- `SHL` (R167). -/
def execShl (d a b : GR) (s : State) : Host.Outcome State Fault Refusal := s.finish 4 (shlBody d a b s)

/-- `SHR` (R167). -/
def shrBody (d a b : GR) (s : State) : Res := s.alu2 d a b fun x y => x >>> shiftCount y
/-- `SHR` (R167). -/
def execShr (d a b : GR) (s : State) : Host.Outcome State Fault Refusal := s.finish 4 (shrBody d a b s)

/-- `SRA` (R167). -/
def sraBody (d a b : GR) (s : State) : Res := s.alu2 d a b fun x y => x.sshiftRight (shiftCount y)
/-- `SRA` (R167). -/
def execSra (d a b : GR) (s : State) : Host.Outcome State Fault Refusal := s.finish 4 (sraBody d a b s)

/-- `ROL` (R167). -/
def rolBody (d a b : GR) (s : State) : Res := s.alu2 d a b fun x y => x.rotateLeft (shiftCount y)
/-- `ROL` (R167). -/
def execRol (d a b : GR) (s : State) : Host.Outcome State Fault Refusal := s.finish 4 (rolBody d a b s)

/-- `CLZ` (R167). -/
def clzBody (d a : GR) (s : State) : Res := s.alu1 d a fun x => BitVec.ofNat 64 (clz64 x)
/-- `CLZ` (R167). -/
def execClz (d a : GR) (s : State) : Host.Outcome State Fault Refusal := s.finish 4 (clzBody d a s)

/-- `CTZ` (R167). -/
def ctzBody (d a : GR) (s : State) : Res := s.alu1 d a fun x => BitVec.ofNat 64 (ctz64 x)
/-- `CTZ` (R167). -/
def execCtz (d a : GR) (s : State) : Host.Outcome State Fault Refusal := s.finish 4 (ctzBody d a s)

/-- `POPC` (R167). -/
def popcBody (d a : GR) (s : State) : Res := s.alu1 d a fun x => BitVec.ofNat 64 (popc64 x)
/-- `POPC` (R167). -/
def execPopc (d a : GR) (s : State) : Host.Outcome State Fault Refusal := s.finish 4 (popcBody d a s)

/-- `MIN` (R167). -/
def minBody (d a b : GR) (s : State) : Res := s.alu2 d a b fun x y => if y.slt x then y else x
/-- `MIN` (R167). -/
def execMin (d a b : GR) (s : State) : Host.Outcome State Fault Refusal := s.finish 4 (minBody d a b s)

/-- `MINN` (R167). -/
def minnBody (d a b : GR) (s : State) : Res := s.alu2 d a b fun x y => if y.ult x then y else x
/-- `MINN` (R167). -/
def execMinn (d a b : GR) (s : State) : Host.Outcome State Fault Refusal := s.finish 4 (minnBody d a b s)

/-- `MAX` (R167). -/
def maxBody (d a b : GR) (s : State) : Res := s.alu2 d a b fun x y => if x.slt y then y else x
/-- `MAX` (R167). -/
def execMax (d a b : GR) (s : State) : Host.Outcome State Fault Refusal := s.finish 4 (maxBody d a b s)

/-- `MAXN` (R167). -/
def maxnBody (d a b : GR) (s : State) : Res := s.alu2 d a b fun x y => if x.ult y then y else x
/-- `MAXN` (R167). -/
def execMaxn (d a b : GR) (s : State) : Host.Outcome State Fault Refusal := s.finish 4 (maxnBody d a b s)

/-- `CMPEQ` (R167). -/
def cmpeqBody (d a b : GR) (s : State) : Res := s.alu2 d a b fun x y => flagWord (x == y)
/-- `CMPEQ` (R167). -/
def execCmpeq (d a b : GR) (s : State) : Host.Outcome State Fault Refusal := s.finish 4 (cmpeqBody d a b s)

/-- `CMPLT` (R167). -/
def cmpltBody (d a b : GR) (s : State) : Res := s.alu2 d a b fun x y => flagWord (x.slt y)
/-- `CMPLT` (R167). -/
def execCmplt (d a b : GR) (s : State) : Host.Outcome State Fault Refusal := s.finish 4 (cmpltBody d a b s)

/-- `CMPLTN` (R167). -/
def cmpltnBody (d a b : GR) (s : State) : Res := s.alu2 d a b fun x y => flagWord (x.ult y)
/-- `CMPLTN` (R167). -/
def execCmpltn (d a b : GR) (s : State) : Host.Outcome State Fault Refusal := s.finish 4 (cmpltnBody d a b s)

/-- `CMPLE` (R167). -/
def cmpleBody (d a b : GR) (s : State) : Res := s.alu2 d a b fun x y => flagWord (x.sle y)
/-- `CMPLE` (R167). -/
def execCmple (d a b : GR) (s : State) : Host.Outcome State Fault Refusal := s.finish 4 (cmpleBody d a b s)

/-- `CMPLEN` (R167). -/
def cmplenBody (d a b : GR) (s : State) : Res := s.alu2 d a b fun x y => flagWord (x.ule y)
/-- `CMPLEN` (R167). -/
def execCmplen (d a b : GR) (s : State) : Host.Outcome State Fault Refusal := s.finish 4 (cmplenBody d a b s)

/-- `SEL` (R167). -/
def selBody (d a b c : GR) (s : State) : Res := .ok (s.setG d (if s.gv c ≠ 0 then s.gv a else s.gv b) (s.gp a || s.gp b || s.gp c))
/-- `SEL` (R167). -/
def execSel (d a b c : GR) (s : State) : Host.Outcome State Fault Refusal := s.finish 4 (selBody d a b c s)

/-- `SEXT` (R167). -/
def sextBody (d a : GR) (w : ExtW) (s : State) : Res := s.alu1 d a fun x => BitVec.ofInt 64 (signExtend w.bits x.toNat)
/-- `SEXT` (R167). -/
def execSext (d a : GR) (w : ExtW) (s : State) : Host.Outcome State Fault Refusal := s.finish 4 (sextBody d a w s)

/-- `ZEXT` (R167). -/
def zextBody (d a : GR) (w : ExtW) (s : State) : Res := s.alu1 d a fun x => lowBits w.bits x
/-- `ZEXT` (R167). -/
def execZext (d a : GR) (w : ExtW) (s : State) : Host.Outcome State Fault Refusal := s.finish 4 (zextBody d a w s)

/-- `ADDI` (R169). -/
def addiBody (d a : GR) (i : BitVec 16) (s : State) : Res := s.alu1 d a fun x => x + i.signExtend 64
/-- `ADDI` (R169). -/
def execAddi (d a : GR) (i : BitVec 16) (s : State) : Host.Outcome State Fault Refusal := s.finish 4 (addiBody d a i s)

/-- `ANDI` (R169). -/
def andiBody (d a : GR) (i : BitVec 16) (s : State) : Res := s.alu1 d a fun x => x &&& i.setWidth 64
/-- `ANDI` (R169). -/
def execAndi (d a : GR) (i : BitVec 16) (s : State) : Host.Outcome State Fault Refusal := s.finish 4 (andiBody d a i s)

/-- `ORI` (R169). -/
def oriBody (d a : GR) (i : BitVec 16) (s : State) : Res := s.alu1 d a fun x => x ||| i.setWidth 64
/-- `ORI` (R169). -/
def execOri (d a : GR) (i : BitVec 16) (s : State) : Host.Outcome State Fault Refusal := s.finish 4 (oriBody d a i s)

/-- `XORI` (R169). -/
def xoriBody (d a : GR) (i : BitVec 16) (s : State) : Res := s.alu1 d a fun x => x ^^^ i.setWidth 64
/-- `XORI` (R169). -/
def execXori (d a : GR) (i : BitVec 16) (s : State) : Host.Outcome State Fault Refusal := s.finish 4 (xoriBody d a i s)

/-- `SHLI` (R169). -/
def shliBody (d a : GR) (k : BitVec 6) (s : State) : Res := s.alu1 d a fun x => x <<< k.toNat
/-- `SHLI` (R169). -/
def execShli (d a : GR) (k : BitVec 6) (s : State) : Host.Outcome State Fault Refusal := s.finish 4 (shliBody d a k s)

/-- `SHRI` (R169). -/
def shriBody (d a : GR) (k : BitVec 6) (s : State) : Res := s.alu1 d a fun x => x >>> k.toNat
/-- `SHRI` (R169). -/
def execShri (d a : GR) (k : BitVec 6) (s : State) : Host.Outcome State Fault Refusal := s.finish 4 (shriBody d a k s)

/-- `SRAI` (R169). -/
def sraiBody (d a : GR) (k : BitVec 6) (s : State) : Res := s.alu1 d a fun x => x.sshiftRight k.toNat
/-- `SRAI` (R169). -/
def execSrai (d a : GR) (k : BitVec 6) (s : State) : Host.Outcome State Fault Refusal := s.finish 4 (sraiBody d a k s)

/-- `BFX` (R169). -/
def bfxBody (d a : GR) (l p : BitVec 6) (s : State) : Res := 
  s.legal (.bfx d a l p) (s.alu1 d a fun x => lowBits (l.toNat + 1) (x >>> p.toNat))
/-- `BFX` (R169). -/
def execBfx (d a : GR) (l p : BitVec 6) (s : State) : Host.Outcome State Fault Refusal := s.finish 4 (bfxBody d a l p s)

/-- `BFI` (R169). -/
def bfiBody (d a : GR) (l p : BitVec 6) (s : State) : Res := 
  s.legal (.bfi d a l p) (.ok (s.setG d (insertBits (s.gv d) (s.gv a) p.toNat (l.toNat + 1)) (s.gp d || s.gp a)))
/-- `BFI` (R169). -/
def execBfi (d a : GR) (l p : BitVec 6) (s : State) : Host.Outcome State Fault Refusal := s.finish 4 (bfiBody d a l p s)

/-- `LISHORT` (R169). -/
def liShortBody (d : GR) (i : BitVec 16) (s : State) : Res := .ok (s.setG d (i.signExtend 64) false)
/-- `LISHORT` (R169). -/
def execLiShort (d : GR) (i : BitVec 16) (s : State) : Host.Outcome State Fault Refusal := s.finish 4 (liShortBody d i s)

/-- `ADDPC` (R170). -/
def addpcBody (d : GR) (i : BitVec 16) (s : State) : Res := .ok (s.setG d ((s.pc + 4 * i).setWidth 64) false)
/-- `ADDPC` (R170). -/
def execAddpc (d : GR) (i : BitVec 16) (s : State) : Host.Outcome State Fault Refusal := s.finish 4 (addpcBody d i s)

/-- Near address of a coordinate word and an offset (R171). -/
def nearAddress (space : BitVec 64) (panel : Bool) (b c : BitVec 64) : BitVec 64 :=
  (space <<< 62) ||| (if panel then (b.extractLsb' 32 8).setWidth 64 <<< 48 else 0)
    ||| ((b.extractLsb' 0 9).setWidth 64 <<< 39) ||| ((b.extractLsb' 16 8).setWidth 64 <<< 31)
    ||| (c.extractLsb' 0 18).setWidth 64

/-- `MKAABS` (R171). -/
def mkaAbsBody (d b c : GR) (s : State) : Res := s.alu2 d b c (nearAddress 0 true)
/-- `MKAABS` (R171). -/
def execMkaAbs (d b c : GR) (s : State) : Host.Outcome State Fault Refusal := s.finish 4 (mkaAbsBody d b c s)

/-- `MKAGRP` (R171). -/
def mkaGrpBody (d b c : GR) (s : State) : Res := s.alu2 d b c (nearAddress 2 false)
/-- `MKAGRP` (R171). -/
def execMkaGrp (d b c : GR) (s : State) : Host.Outcome State Fault Refusal := s.finish 4 (mkaGrpBody d b c s)

/-- `MKACORE` (R171). -/
def mkaCoreBody (d b c : GR) (s : State) : Res := s.alu2 d b c (nearAddress 3 false)
/-- `MKACORE` (R171). -/
def execMkaCore (d b c : GR) (s : State) : Host.Outcome State Fault Refusal := s.finish 4 (mkaCoreBody d b c s)

/-- Index of the valid entry of the tag table that holds a key (R41, R178). -/
def State.tagFind (s : State) (key : BitVec 64) : Option Nat :=
  findAt (fun e => e.valid && e.key == key) s.core.sh.tag.toList
/-- Replace an entry of the tag table. -/
def State.setTag (s : State) (i : Nat) (e : TagEntry) : State :=
  s.onSh fun h => { h with tag := h.tag.setIfInBounds i e }
/-- An index of the tag table: poison, then its range (R178). -/
def State.tagIndex (s : State) (a : GR) (k : Nat → Res) : Res :=
  s.consume a (if 63 < (s.gv a).toNat then .trap .bounds (s.gv a) else k (s.gv a).toNat)

/-- `TLOOK` (R178). -/
def tlookBody (d a : GR) (s : State) : Res := 
  if s.gp a then .ok (s.setG d (-1) true)
  else .ok (s.setG d (match s.tagFind (s.gv a) with | some i => BitVec.ofNat 64 i | none => -1) false)
/-- `TLOOK` (R178). -/
def execTlook (d a : GR) (s : State) : Host.Outcome State Fault Refusal := s.finish 4 (tlookBody d a s)

/-- `TSET` (R178). -/
def tsetBody (d a b : GR) (s : State) : Res := 
  s.tagIndex a fun i =>
    if s.gp b then .ok (s.setG d (-1) true)
    else
      match s.tagFind (s.gv b) with
      | some j => .ok (s.setG d (BitVec.ofNat 64 j) false)
      | none => .ok ((s.setTag i ⟨s.gv b, true⟩).setG d (BitVec.ofNat 64 i) false)
/-- `TSET` (R178). -/
def execTset (d a b : GR) (s : State) : Host.Outcome State Fault Refusal := s.finish 4 (tsetBody d a b s)

/-- `TCLR` (R178). -/
def tclrBody (a : GR) (s : State) : Res := 
  s.tagIndex a fun i => .ok (s.setTag i ⟨(s.core.sh.tag[i]?.map (·.key)).getD 0, false⟩)
/-- `TCLR` (R178). -/
def execTclr (a : GR) (s : State) : Host.Outcome State Fault Refusal := s.finish 4 (tclrBody a s)

/-- `LI`, long, HI = 0 (R154). -/
def execLiLong (d : GR) (v : BitVec 32) (s : State) : Host.Outcome State Fault Refusal :=
  s.finish 8 (.ok (s.setG d (v.signExtend 64) false))
/-- `LI.hi` (R154). -/
def execLiHi (d : GR) (v : BitVec 32) (s : State) : Host.Outcome State Fault Refusal :=
  s.finish 8 (.ok (s.setG d (v ++ (s.gv d).setWidth 32) (s.gp d)))

end Sys2Proof.Machine
end

