-- ==== Sys2Proof/Machine/ScalarFloat.lean ====
section
/-! DEFINITION. Scalar floating point (R179, R180). -/

namespace Sys2Proof.Machine

/-- A floating result, zero-extended, with its flags (R179). -/
def State.putF (s : State) (d : GR) (p : Bool) (r : FRes) : Res := s.put d (BitVec.ofNat 64 r.1) p r.2
/-- A compare result as an unsigned integer, with its flags (R179). -/
def State.putB (s : State) (d : GR) (p : Bool) (r : Bool × Flags) : Res := s.put d (if r.1 then 1 else 0) p r.2

/-- `FADD` (R179). -/
def faddBody (d a b : GR) (t : FTy) (s : State) : Res :=
  s.putF d (s.gp a || s.gp b) (t.fmt.add s.fenv (s.fv t a) (s.fv t b))
/-- `FADD` (R179). -/
def execFadd (d a b : GR) (t : FTy) (s : State) : Host.Outcome State Fault Refusal := s.finish 4 (faddBody d a b t s)

/-- `FSUB` (R179). -/
def fsubBody (d a b : GR) (t : FTy) (s : State) : Res :=
  s.putF d (s.gp a || s.gp b) (t.fmt.sub s.fenv (s.fv t a) (s.fv t b))
/-- `FSUB` (R179). -/
def execFsub (d a b : GR) (t : FTy) (s : State) : Host.Outcome State Fault Refusal := s.finish 4 (fsubBody d a b t s)

/-- `FMUL` (R179). -/
def fmulBody (d a b : GR) (t : FTy) (s : State) : Res :=
  s.putF d (s.gp a || s.gp b) (t.fmt.mul s.fenv (s.fv t a) (s.fv t b))
/-- `FMUL` (R179). -/
def execFmul (d a b : GR) (t : FTy) (s : State) : Host.Outcome State Fault Refusal := s.finish 4 (fmulBody d a b t s)

/-- `FFMA` (R179). -/
def ffmaBody (d a b c : GR) (t : FTy) (s : State) : Res :=
  s.putF d (s.gp a || s.gp b || s.gp c) (t.fmt.fma s.fenv (s.fv t a) (s.fv t b) (s.fv t c))
/-- `FFMA` (R179). -/
def execFfma (d a b c : GR) (t : FTy) (s : State) : Host.Outcome State Fault Refusal := s.finish 4 (ffmaBody d a b c t s)

/-- `FDIV` (R179). -/
def fdivBody (d a b : GR) (t : FTy) (s : State) : Res :=
  s.putF d (s.gp a || s.gp b) (t.fmt.div s.fenv (s.fv t a) (s.fv t b))
/-- `FDIV` (R179). -/
def execFdiv (d a b : GR) (t : FTy) (s : State) : Host.Outcome State Fault Refusal := s.finish 4 (fdivBody d a b t s)

/-- `FSQRT` (R179). -/
def fsqrtBody (d a : GR) (t : FTy) (s : State) : Res :=
  s.putF d (s.gp a) (t.fmt.sqrt s.fenv (s.fv t a))
/-- `FSQRT` (R179). -/
def execFsqrt (d a : GR) (t : FTy) (s : State) : Host.Outcome State Fault Refusal := s.finish 4 (fsqrtBody d a t s)

/-- `FMIN` (R179). -/
def fminBody (d a b : GR) (t : FTy) (s : State) : Res :=
  s.putF d (s.gp a || s.gp b) (t.fmt.minMax s.fenv false (s.fv t a) (s.fv t b))
/-- `FMIN` (R179). -/
def execFmin (d a b : GR) (t : FTy) (s : State) : Host.Outcome State Fault Refusal := s.finish 4 (fminBody d a b t s)

/-- `FMAX` (R179). -/
def fmaxBody (d a b : GR) (t : FTy) (s : State) : Res :=
  s.putF d (s.gp a || s.gp b) (t.fmt.minMax s.fenv true (s.fv t a) (s.fv t b))
/-- `FMAX` (R179). -/
def execFmax (d a b : GR) (t : FTy) (s : State) : Host.Outcome State Fault Refusal := s.finish 4 (fmaxBody d a b t s)

/-- `FCMPEQ` (R179). -/
def fcmpeqBody (d a b : GR) (t : FTy) (s : State) : Res :=
  s.putB d (s.gp a || s.gp b) (cmpEq (s.fv t a) (s.fv t b))
/-- `FCMPEQ` (R179). -/
def execFcmpeq (d a b : GR) (t : FTy) (s : State) : Host.Outcome State Fault Refusal := s.finish 4 (fcmpeqBody d a b t s)

/-- `FCMPLT` (R179). -/
def fcmpltBody (d a b : GR) (t : FTy) (s : State) : Res :=
  s.putB d (s.gp a || s.gp b) (cmpLt (s.fv t a) (s.fv t b))
/-- `FCMPLT` (R179). -/
def execFcmplt (d a b : GR) (t : FTy) (s : State) : Host.Outcome State Fault Refusal := s.finish 4 (fcmpltBody d a b t s)

/-- `FCMPLE` (R179). -/
def fcmpleBody (d a b : GR) (t : FTy) (s : State) : Res :=
  s.putB d (s.gp a || s.gp b) (cmpLe (s.fv t a) (s.fv t b))
/-- `FCMPLE` (R179). -/
def execFcmple (d a b : GR) (t : FTy) (s : State) : Host.Outcome State Fault Refusal := s.finish 4 (fcmpleBody d a b t s)

/-- `FCLASS` (R179). -/
def fclassBody (d a : GR) (t : FTy) (s : State) : Res :=
  .ok (s.setG d (BitVec.ofNat 64 (t.fmt.classify (s.gv a).toNat)) (s.gp a))
/-- `FCLASS` (R179). -/
def execFclass (d a : GR) (t : FTy) (s : State) : Host.Outcome State Fault Refusal := s.finish 4 (fclassBody d a t s)

/-- Rounding of a conversion: its suffix, or `FPCR.RM` (R180). -/
def rndMode (r : Rnd) (v : FEnv) : Rm :=
  match r with
  | .dyn => v.rm | .rne => .rne | .rtz => .rtz | .rup => .rup | .rdn => .rdn

/-- Format of a number type; binary32 for the integers, whose fields are not read. -/
def numFmt : Num → Fmt
  | .f16 => fmtF16 | .bf16 => fmtBf16 | .f32 | .i32 | .n32 | .i64 | .n64 => fmtF32

/-- An operand of `FCVT`: a float after DAZ, or an integer, which ignores DAZ (R180). -/
def numVal (y : Num) (daz : Bool) (x : BitVec 64) : FVal :=
  let int (z : Int) : FVal := .fin (decide (z < 0)) z.natAbs 0
  match y with
  | .f32 | .f16 | .bf16 => (numFmt y).unpack daz x.toNat
  | .i32 => int (signExtend 32 x.toNat)
  | .n32 => int (x.toNat % 2 ^ 32)
  | .i64 => int x.toInt
  | .n64 => int x.toNat

/-- A result of `FCVT`: `.i32` sign-extended, `.n32` and floats zero-extended (R180). -/
def numPut (y : Num) (v : FEnv) (x : FVal) : BitVec 64 × Flags :=
  let int (lo hi : Int) : BitVec 64 × Flags := let r := toIntBounds v.rm lo hi x; (BitVec.ofInt 64 r.1, r.2)
  match y with
  | .f32 | .f16 | .bf16 => let r := (numFmt y).put v x; (BitVec.ofNat 64 r.1, r.2)
  | .i32 => int (-2147483648) 2147483647
  | .n32 => int 0 4294967295
  | .i64 => int (-9223372036854775808) 9223372036854775807
  | .n64 => int 0 18446744073709551615

/-- `FCVT` (R180). -/
def fcvtBody (d a : GR) (r : Rnd) (t f : Num) (s : State) : Res :=
  let v : FEnv := { s.fenv with rm := rndMode r s.fenv }
  let x := numPut t v (numVal f v.daz (s.gv a))
  s.legal (.fcvt d a r t f) (s.put d x.1 (s.gp a) x.2)
/-- `FCVT` (R180). -/
def execFcvt (d a : GR) (r : Rnd) (t f : Num) (s : State) : Host.Outcome State Fault Refusal := s.finish 4 (fcvtBody d a r t f s)

end Sys2Proof.Machine
end

