-- ==== Sys2Proof/Machine/Special.lean ====
section
/-! DEFINITION. The approximate functions of R75 and R198. Where the spec bounds a result and does not
state its bits, an opaque choice of Config picks one within the bound (log entry 10). -/

namespace Sys2Proof.Machine

/-- Binary32 rounding to nearest, without flushing. -/
def plainEnv : FEnv := ⟨.rne, false, false⟩

/-- n × 2^u as binary32 bits of a sign. -/
def f32Of (neg : Bool) (n : Nat) (u : Int) : Nat := (fmtF32.round plainEnv neg n u).1

/-- The significand near a / 2^k that a choice picks: nearest, moved by -2 to 2 where the distance to
a / 2^k, and 2^-16 of one ulp for the error of a, stays within 2 ulp of the result. A significand below 2^23
has half the ulp, but for subnormal results. -/
def pickNear (normal : Bool) (a k choice : Nat) : Nat :=
  let base := (a + 2 ^ k / 2) / 2 ^ k
  let n := base + choice % 5 - 2
  let d := if n * 2 ^ k ≤ a then a - n * 2 ^ k else n * 2 ^ k - a
  if d + 2 ^ k / 65536 ≤ (if normal && decide (n < 2 ^ 23) then 2 ^ k else 2 * 2 ^ k) then n else base

/-- 2^(f / 2^k) × 2^64 from the bits of f < 2^k, highest first; c is 2^(2^-j) × 2^64 at bit j. -/
def exp2Frac : Nat → Nat → Nat → Nat → Nat
  | 0, _, _, acc => acc
  | k + 1, f, c, acc =>
    let c := isqrt 66 (c * 2 ^ 64) 0
    exp2Frac k f c (if f.testBit k then acc * c / 2 ^ 64 else acc)

/-- Result of `VEXP2` on a finite number x = m × 2^e (R75). Below -126 the exact value is tiny; one that is not is, under FTZ,
no smaller than the smallest normal (R64). -/
def exp2Finite (w : BitVec 32) (fpcr : BitVec 14) (m e : Int) : FRes :=
  -- floor and fraction in 2^-48
  let x48 := (roundDyadic .rdn m (e + 48)).1
  let k := x48 / (2 ^ 48 : Nat)
  let whole := e ≥ 0 || m % (2 ^ (-e).toNat : Nat) == 0
  if 128 ≤ k then (fmtF32.inf false, flagOF ||| flagNX)
  else if k < -150 then (0, flagUF ||| flagNX)
  else if whole && decide (-149 ≤ k) then fmtF32.round (fpcrEnv fpcr) false 1 k
  else
    let a := exp2Frac 48 (x48 % (2 ^ 48 : Nat)).toNat (2 ^ 65) (2 ^ 64)
    let u : Int := max k (-126) - 23
    let n := pickNear (decide (-126 < k)) a (u - k + 64).toNat (Config.exp2Choice w fpcr)
    let y := f32Of false n u
    if !(fpcrFtz fpcr) then (y, flagNX ||| flagIf (decide (k < -126)) flagUF)
    else if k < -126 then (0, flagUF ||| flagNX)
    else (max y (2 ^ 23), flagNX)

/-- `VEXP2.f32` of one lane (R75). -/
def exp2Lane (w : Nat) (fpcr : BitVec 14) : FRes :=
  match fmtF32.unpack (fpcrDaz fpcr) w with
  | .nan s => (fmtF32.nan, flagIf s flagNV)
  | .inf n => (if n then 0 else fmtF32.inf false, 0)
  | .fin n m e => exp2Finite (BitVec.ofNat 32 w) fpcr (sgn n m) e

/-- Bits of log2 of m / 2^127, m from 2^127 to 2^128 - 1, highest first. -/
def log2Frac : Nat → Nat → Nat → Nat
  | 0, _, acc => acc
  | k + 1, m, acc =>
    let q := m * m / 2 ^ 127
    if 2 ^ 128 ≤ q then log2Frac k (q / 2) (2 * acc + 1) else log2Frac k q (2 * acc)

/-- Result of `VLOG2` on a positive number m × 2^e (R75). -/
def log2Finite (w : BitVec 32) (fpcr : BitVec 14) (m : Nat) (e : Int) : FRes :=
  let l := Nat.log2 m
  let k : Int := e + l
  if m = 2 ^ l then fmtF32.roundInt (fpcrEnv fpcr) false k 0
  else
    let v : Int := k * (2 ^ 64 : Nat) + log2Frac 64 (m * 2 ^ (127 - l)) 0
    let a := v.natAbs
    let sh := Nat.log2 a - 23
    (f32Of (decide (v < 0)) (pickNear true a sh (Config.log2Choice w fpcr)) ((sh : Int) - 64), flagNX)

/-- `VLOG2.f32` of one lane (R75). -/
def log2Lane (w : Nat) (fpcr : BitVec 14) : FRes :=
  match fmtF32.unpack (fpcrDaz fpcr) w with
  | .nan s => (fmtF32.nan, flagIf s flagNV)
  | .inf n => if n then (fmtF32.nan, flagNV) else (fmtF32.inf false, 0)
  | .fin n m e =>
    if m = 0 then (fmtF32.inf true, flagDZ)
    else if n then (fmtF32.nan, flagNV)
    else log2Finite (BitVec.ofNat 32 w) fpcr m e

/-- a × 2^ea ≤ b × 2^eb. -/
def dyadicLe (a ea b eb : Int) : Bool := decide ((dyadicAdd a ea (-b) eb).1 ≤ 0)

/-- The bit pattern a choice picks near base: one within 1024 of it that satisfies p, else base. -/
def pickBits (base choice : Nat) (p : Nat → Bool) : Nat :=
  let c := base + choice % 2049 - 1024
  if p c then c else base

/-- The significand and exponent of a finite positive bit pattern. -/
def finParts (b : Nat) : Nat × Int :=
  match fmtF32.unpack false b with
  | .fin _ m e => (m, e)
  | .nan _ | .inf _ => (0, 0)

/-- y is near 1 / (m × 2^e): within 2^-14 of it relatively, or, where y lies below 2^-126, within 2^-140 (R75). -/
def rcpOk (m : Nat) (e : Int) (y : Nat) : Bool :=
  let (c, f) := finParts y
  let d := dyadicAdd ((c * m : Nat) : Int) (f + e) (-1) 0
  decide (y < fmtF32.inf false) && (if y < 2 ^ 23 then dyadicLe d.1.natAbs d.2 m (e - 140) else dyadicLe d.1.natAbs d.2 1 (-14))

/-- `VRCPA.f32` of one lane (R75). Under FTZ the exact value alone says whether the result is tiny (R64); one that is not is no
smaller than the smallest normal. -/
def rcpaLane (w : Nat) (fpcr : BitVec 14) : FRes :=
  match fmtF32.unpack (fpcrDaz fpcr) w with
  | .nan s => (fmtF32.nan, flagIf s flagNV)
  | .inf n => (fmtF32.zero n, 0)
  | .fin n m e =>
    if m = 0 then (fmtF32.inf n, flagDZ)
    else
      let base := (fmtF32.div plainEnv (.fin false 1 0) (.fin false m e)).1
      if base = fmtF32.inf false then (fmtF32.inf n, flagOF ||| flagNX)
      else if fpcrFtz fpcr && (fmtF32.div (fpcrEnv fpcr) (.fin n 1 0) (.fin false m e)).2 &&& flagUF != 0 then
        (fmtF32.zero n, flagUF ||| flagNX)
      else
        let low := if fpcrFtz fpcr then 2 ^ 23 else 0
        let y := pickBits (max base low) (Config.rcpaChoice (BitVec.ofNat 32 w) fpcr) fun y => decide (low ≤ y) && rcpOk m e y
        (fmtF32.zero n + y, 0)

/-- y is within 2^-14 of 1 / √(m × 2^e) relatively, and no smaller than 2^-64, the smallest finite result (R75). -/
def rsqOk (m : Nat) (e : Int) (y : Nat) : Bool :=
  let (c, f) := finParts y
  let q : Int := ((c * c * m : Nat) : Int)
  decide (y < fmtF32.inf false) && decide (0x1F800000 ≤ y) &&
    dyadicLe ((16383 * 16383 : Nat) : Int) (-28) q (2 * f + e) &&
    dyadicLe q (2 * f + e) ((16385 * 16385 : Nat) : Int) (-28)

/-- `VRSQA.f32` of one lane (R75). -/
def rsqaLane (w : Nat) (fpcr : BitVec 14) : FRes :=
  match fmtF32.unpack (fpcrDaz fpcr) w with
  | .nan s => (fmtF32.nan, flagIf s flagNV)
  | .inf n => if n then (fmtF32.nan, flagNV) else (0, 0)
  | .fin n m e =>
    if m = 0 then (fmtF32.inf n, flagDZ)
    else if n then (fmtF32.nan, flagNV)
    else
      let (m', e') := if e % 2 = 0 then (m, e) else (2 * m, e - 1)
      let base := f32Of false (isqrt 64 (2 ^ 120 / m') 0) (-60 - e' / 2)
      (pickBits base (Config.rsqaChoice (BitVec.ofNat 32 w) fpcr) (rsqOk m e), 0)

end Sys2Proof.Machine
end

