-- ==== Sys2Proof/Machine/Vector.lean ====
section
/-! DEFINITION. Vector arithmetic, logic, selection, compare, reduction and permutation (R188-R193). -/

namespace Sys2Proof.Machine

/-- A lane as the integer its type gives. -/
def laneInt (y : Ty) (x : Nat) : Int := if y.signedInt then signExtend y.bits x else x
/-- A lane as a floating value after DAZ. -/
def laneFloat (y : Ty) (v : FEnv) (x : Nat) : FVal := y.fmt.unpack v.daz x

/-- A lane operation: one on integers, wrapped, one on floats (R189). -/
def laneOp2 (y : Ty) (v : FEnv) (int : Int → Int → Int) (fl : FVal → FVal → FRes) (a b : Nat) : FRes :=
  if y.float then fl (laneFloat y v a) (laneFloat y v b) else (wrap y.bits (int (laneInt y a) (laneInt y b)), 0)

/-- `VADD` of two lanes. -/
def laneAdd (y : Ty) (v : FEnv) : Nat → Nat → FRes := laneOp2 y v (· + ·) (y.fmt.add v)
/-- `VSUB` of two lanes. -/
def laneSub (y : Ty) (v : FEnv) : Nat → Nat → FRes := laneOp2 y v (· - ·) (y.fmt.sub v)
/-- `VMUL` of two lanes. -/
def laneMul (y : Ty) (v : FEnv) : Nat → Nat → FRes := laneOp2 y v (· * ·) (y.fmt.mul v)
/-- `VMIN` of two lanes. -/
def laneMin (y : Ty) (v : FEnv) : Nat → Nat → FRes := laneOp2 y v min (y.fmt.minMax v false)
/-- `VMAX` of two lanes. -/
def laneMax (y : Ty) (v : FEnv) : Nat → Nat → FRes := laneOp2 y v max (y.fmt.minMax v true)
/-- `VFMA` of three lanes. -/
def laneFma (y : Ty) (v : FEnv) (a b c : Nat) : FRes :=
  if y.float then y.fmt.fma v (laneFloat y v a) (laneFloat y v b) (laneFloat y v c)
  else (wrap y.bits (laneInt y a * laneInt y b + laneInt y c), 0)

/-- A sign operation on a floating lane: a NaN gives the default NaN, NV when it is signalling; the
other lanes keep every bit but the sign (R64, R189). -/
def laneSign (y : Ty) (a : Nat) (f : Nat → Nat) : FRes :=
  match y.fmt.unpack false a with
  | .nan s => (y.fmt.nan, flagIf s flagNV)
  | .inf _ | .fin _ _ _ => (f a, 0)
/-- Sign bit of a float type as a number. -/
def signBit (y : Ty) : Nat := 2 ^ (y.bits - 1)
/-- `VABS` of a lane (R189). -/
def laneAbs (y : Ty) (a : Nat) : FRes :=
  if y.float then laneSign y a (· % signBit y) else (wrap y.bits (laneInt y a).natAbs, 0)
/-- `VNEG` of a lane (R189). -/
def laneNeg (y : Ty) (a : Nat) : FRes :=
  if y.float then laneSign y a (fun x => if signBit y ≤ x then x - signBit y else x + signBit y)
  else (wrap y.bits (-(laneInt y a)), 0)

/-- Body lanes of a register. -/
def State.vl (s : State) (y : Ty) (r : VR) : List Nat := lanes y.bits (s.vr r).body

/-- A lane-by-lane operation on va. -/
def State.vec1 (s : State) (d a : VR) (m : Option MR) (y : Ty) (f : Nat → FRes) : Res :=
  let x := s.vl y a
  s.vlanes d m y.bits (s.vr a).p false fun i => f (lane x i)
/-- A lane-by-lane operation on va and vb. -/
def State.vec2 (s : State) (d a b : VR) (m : Option MR) (y : Ty) (f : Nat → Nat → FRes) : Res :=
  let x := s.vl y a
  let z := s.vl y b
  s.vlanes d m y.bits ((s.vr a).p || (s.vr b).p) false fun i => f (lane x i) (lane z i)

/-- A lane operation that sets no flag. -/
def plain2 (f : Nat → Nat → Nat) (a b : Nat) : FRes := (f a b, 0)

/-- `VMOV` (R188). -/
def vmovBody (d a : VR) (m : Option MR) (y : Ty) (s : State) : Res :=
  s.legal (.vmov d a m y) (match m with
    | none => .ok (s.setV d (s.vr a))
    | some _ => s.vec1 d a m y fun x => (x, 0))
/-- `VMOV` (R188). -/
def execVmov (d a : VR) (m : Option MR) (y : Ty) (s : State) : Host.Outcome State Fault Refusal :=
  s.finish 4 (vmovBody d a m y s)

/-- `VADD` (R189). -/
def vaddBody (d a b : VR) (m : Option MR) (y : Ty) (s : State) : Res :=
  s.legal (.vadd d a b m y) (s.vec2 d a b m y (laneAdd y s.fenv))
/-- `VADD` (R189). -/
def execVadd (d a b : VR) (m : Option MR) (y : Ty) (s : State) : Host.Outcome State Fault Refusal :=
  s.finish 4 (vaddBody d a b m y s)

/-- `VSUB` (R189). -/
def vsubBody (d a b : VR) (m : Option MR) (y : Ty) (s : State) : Res :=
  s.legal (.vsub d a b m y) (s.vec2 d a b m y (laneSub y s.fenv))
/-- `VSUB` (R189). -/
def execVsub (d a b : VR) (m : Option MR) (y : Ty) (s : State) : Host.Outcome State Fault Refusal :=
  s.finish 4 (vsubBody d a b m y s)

/-- `VMUL` (R189). -/
def vmulBody (d a b : VR) (m : Option MR) (y : Ty) (s : State) : Res :=
  s.legal (.vmul d a b m y) (s.vec2 d a b m y (laneMul y s.fenv))
/-- `VMUL` (R189). -/
def execVmul (d a b : VR) (m : Option MR) (y : Ty) (s : State) : Host.Outcome State Fault Refusal :=
  s.finish 4 (vmulBody d a b m y s)

/-- `VFMA` (R189). -/
def vfmaBody (d a b : VR) (m : Option MR) (y : Ty) (s : State) : Res :=
  s.legal (.vfma d a b m y) (
    let x := s.vl y a
    let z := s.vl y b
    let o := s.vl y d
    s.vlanes d m y.bits ((s.vr a).p || (s.vr b).p) true fun i => laneFma y s.fenv (lane x i) (lane z i) (lane o i))
/-- `VFMA` (R189). -/
def execVfma (d a b : VR) (m : Option MR) (y : Ty) (s : State) : Host.Outcome State Fault Refusal :=
  s.finish 4 (vfmaBody d a b m y s)

/-- `VMIN` (R189). -/
def vminBody (d a b : VR) (m : Option MR) (y : Ty) (s : State) : Res :=
  s.legal (.vmin d a b m y) (s.vec2 d a b m y (laneMin y s.fenv))
/-- `VMIN` (R189). -/
def execVmin (d a b : VR) (m : Option MR) (y : Ty) (s : State) : Host.Outcome State Fault Refusal :=
  s.finish 4 (vminBody d a b m y s)

/-- `VMAX` (R189). -/
def vmaxBody (d a b : VR) (m : Option MR) (y : Ty) (s : State) : Res :=
  s.legal (.vmax d a b m y) (s.vec2 d a b m y (laneMax y s.fenv))
/-- `VMAX` (R189). -/
def execVmax (d a b : VR) (m : Option MR) (y : Ty) (s : State) : Host.Outcome State Fault Refusal :=
  s.finish 4 (vmaxBody d a b m y s)

/-- `VABS` (R189). -/
def vabsBody (d a : VR) (m : Option MR) (y : Ty) (s : State) : Res :=
  s.legal (.vabs d a m y) (s.vec1 d a m y (laneAbs y))
/-- `VABS` (R189). -/
def execVabs (d a : VR) (m : Option MR) (y : Ty) (s : State) : Host.Outcome State Fault Refusal :=
  s.finish 4 (vabsBody d a m y s)

/-- `VNEG` (R189). -/
def vnegBody (d a : VR) (m : Option MR) (y : Ty) (s : State) : Res :=
  s.legal (.vneg d a m y) (s.vec1 d a m y (laneNeg y))
/-- `VNEG` (R189). -/
def execVneg (d a : VR) (m : Option MR) (y : Ty) (s : State) : Host.Outcome State Fault Refusal :=
  s.finish 4 (vnegBody d a m y s)

/-- `VAND` (R189). -/
def vandBody (d a b : VR) (m : Option MR) (y : Ty) (s : State) : Res :=
  s.legal (.vand d a b m y) (s.vec2 d a b m y (plain2 (· &&& ·)))
/-- `VAND` (R189). -/
def execVand (d a b : VR) (m : Option MR) (y : Ty) (s : State) : Host.Outcome State Fault Refusal :=
  s.finish 4 (vandBody d a b m y s)

/-- `VOR` (R189). -/
def vorBody (d a b : VR) (m : Option MR) (y : Ty) (s : State) : Res :=
  s.legal (.vor d a b m y) (s.vec2 d a b m y (plain2 (· ||| ·)))
/-- `VOR` (R189). -/
def execVor (d a b : VR) (m : Option MR) (y : Ty) (s : State) : Host.Outcome State Fault Refusal :=
  s.finish 4 (vorBody d a b m y s)

/-- `VXOR` (R189). -/
def vxorBody (d a b : VR) (m : Option MR) (y : Ty) (s : State) : Res :=
  s.legal (.vxor d a b m y) (s.vec2 d a b m y (plain2 (· ^^^ ·)))
/-- `VXOR` (R189). -/
def execVxor (d a b : VR) (m : Option MR) (y : Ty) (s : State) : Host.Outcome State Fault Refusal :=
  s.finish 4 (vxorBody d a b m y s)

/-- `VSHL` (R189). -/
def vshlBody (d a b : VR) (m : Option MR) (y : Ty) (s : State) : Res :=
  s.legal (.vshl d a b m y) (s.vec2 d a b m y (plain2 fun x k => x * 2 ^ (k % y.bits) % 2 ^ y.bits))
/-- `VSHL` (R189). -/
def execVshl (d a b : VR) (m : Option MR) (y : Ty) (s : State) : Host.Outcome State Fault Refusal :=
  s.finish 4 (vshlBody d a b m y s)

/-- `VSHR` (R189). -/
def vshrBody (d a b : VR) (m : Option MR) (y : Ty) (s : State) : Res :=
  s.legal (.vshr d a b m y) (s.vec2 d a b m y (plain2 fun x k => x / 2 ^ (k % y.bits)))
/-- `VSHR` (R189). -/
def execVshr (d a b : VR) (m : Option MR) (y : Ty) (s : State) : Host.Outcome State Fault Refusal :=
  s.finish 4 (vshrBody d a b m y s)

/-- `VSRA` (R189). -/
def vsraBody (d a b : VR) (m : Option MR) (y : Ty) (s : State) : Res :=
  s.legal (.vsra d a b m y) (s.vec2 d a b m y (plain2 fun x k => wrap y.bits (signExtend y.bits x / (2 ^ (k % y.bits) : Nat))))
/-- `VSRA` (R189). -/
def execVsra (d a b : VR) (m : Option MR) (y : Ty) (s : State) : Host.Outcome State Fault Refusal :=
  s.finish 4 (vsraBody d a b m y s)

/-- `VSEL` (R190). -/
def vselBody (d a b : VR) (m : MR) (y : Ty) (s : State) : Res :=
  s.legal (.vsel d a b m y) (
    let x := s.vl y a
    let z := s.vl y b
    let r := x.mapIdx fun i v => if (s.mr m).getLsbD i then v else lane z i
    .ok (s.setV d ⟨ofLanes y.bits r, 0, (s.vr a).p || (s.vr b).p⟩))
/-- `VSEL` (R190). -/
def execVsel (d a b : VR) (m : MR) (y : Ty) (s : State) : Host.Outcome State Fault Refusal :=
  s.finish 4 (vselBody d a b m y s)

/-- A comparison of two lanes with its flags: cond 0 eq, 1 ne, 2 lt, 3 le, 4 gt, 5 ge (R191). -/
def laneCmp (y : Ty) (v : FEnv) (cond : Nat) (a b : Nat) : Bool × Flags :=
  if y.float then
    let x := laneFloat y v a
    let z := laneFloat y v b
    match cond with
    | 0 => cmpEq x z
    | 1 => let r := cmpEq x z; (!r.1, r.2)
    | 2 => cmpLt x z
    | 3 => cmpLe x z
    | 4 => cmpLt z x
    | _ => cmpLe z x
  else
    let x := laneInt y a
    let z := laneInt y b
    (match cond with
      | 0 => decide (x = z) | 1 => decide (x ≠ z) | 2 => decide (x < z)
      | 3 => decide (x ≤ z) | 4 => decide (z < x) | _ => decide (z ≤ x), 0)

/-- `VCMP`: the whole mask is written; a poisoned operand is a consumption (R89, R191). -/
def State.vcmp (s : State) (d : MR) (a b : VR) (m : Option MR) (y : Ty) (cond : Nat) : Res :=
  if (s.vr a).p || (s.vr b).p then .trap .poison 0
  else
    let x := s.vl y a
    let z := s.vl y b
    let r := x.mapIdx fun i v => if s.active m i then laneCmp y s.fenv cond v (lane z i) else (false, 0)
    let bits := packNat 1 (r.map fun q => q.1.toNat)
    .ok ((s.setM d (BitVec.ofNat 64 bits)).orFlags (r.foldl (fun f q => f ||| q.2) 0))

/-- `VCMP.eq` (R191). -/
def vcmpEqBody (d : MR) (a b : VR) (m : Option MR) (y : Ty) (s : State) : Res :=
  s.legal (.vcmpEq d a b m y) (s.vcmp d a b m y 0)
/-- `VCMP.eq` (R191). -/
def execVcmpEq (d : MR) (a b : VR) (m : Option MR) (y : Ty) (s : State) : Host.Outcome State Fault Refusal :=
  s.finish 4 (vcmpEqBody d a b m y s)

/-- `VCMP.ne` (R191). -/
def vcmpNeBody (d : MR) (a b : VR) (m : Option MR) (y : Ty) (s : State) : Res :=
  s.legal (.vcmpNe d a b m y) (s.vcmp d a b m y 1)
/-- `VCMP.ne` (R191). -/
def execVcmpNe (d : MR) (a b : VR) (m : Option MR) (y : Ty) (s : State) : Host.Outcome State Fault Refusal :=
  s.finish 4 (vcmpNeBody d a b m y s)

/-- `VCMP.lt` (R191). -/
def vcmpLtBody (d : MR) (a b : VR) (m : Option MR) (y : Ty) (s : State) : Res :=
  s.legal (.vcmpLt d a b m y) (s.vcmp d a b m y 2)
/-- `VCMP.lt` (R191). -/
def execVcmpLt (d : MR) (a b : VR) (m : Option MR) (y : Ty) (s : State) : Host.Outcome State Fault Refusal :=
  s.finish 4 (vcmpLtBody d a b m y s)

/-- `VCMP.le` (R191). -/
def vcmpLeBody (d : MR) (a b : VR) (m : Option MR) (y : Ty) (s : State) : Res :=
  s.legal (.vcmpLe d a b m y) (s.vcmp d a b m y 3)
/-- `VCMP.le` (R191). -/
def execVcmpLe (d : MR) (a b : VR) (m : Option MR) (y : Ty) (s : State) : Host.Outcome State Fault Refusal :=
  s.finish 4 (vcmpLeBody d a b m y s)

/-- `VCMP.gt` (R191). -/
def vcmpGtBody (d : MR) (a b : VR) (m : Option MR) (y : Ty) (s : State) : Res :=
  s.legal (.vcmpGt d a b m y) (s.vcmp d a b m y 4)
/-- `VCMP.gt` (R191). -/
def execVcmpGt (d : MR) (a b : VR) (m : Option MR) (y : Ty) (s : State) : Host.Outcome State Fault Refusal :=
  s.finish 4 (vcmpGtBody d a b m y s)

/-- `VCMP.ge` (R191). -/
def vcmpGeBody (d : MR) (a b : VR) (m : Option MR) (y : Ty) (s : State) : Res :=
  s.legal (.vcmpGe d a b m y) (s.vcmp d a b m y 5)
/-- `VCMP.ge` (R191). -/
def execVcmpGe (d : MR) (a b : VR) (m : Option MR) (y : Ty) (s : State) : Host.Outcome State Fault Refusal :=
  s.finish 4 (vcmpGeBody d a b m y s)

/-- One level of the reduction tree: neighbours combined, with the flags (R192). -/
def redLevel (op : Nat → Nat → FRes) : List Nat → List Nat × Flags
  | a :: b :: r => let x := op a b; let t := redLevel op r; (x.1 :: t.1, x.2 ||| t.2)
  | l => (l, 0)

/-- The tree, level by level (R192). -/
def redTree (op : Nat → Nat → FRes) : Nat → List Nat → Nat × Flags
  | 0, l => (l.headD 0, 0)
  | n + 1, l => let t := redLevel op l; let r := redTree op n t.1; (r.1, t.2 ||| r.2)

/-- `VRED`: lane 0 receives the fold of the active lanes, every other lane 0 (R192). -/
def State.vred (s : State) (d a : VR) (m : Option MR) (y : Ty) (unit : Nat) (op : Nat → Nat → FRes) : Res :=
  let x := (s.vl y a).mapIdx fun i v => if s.active m i then v else unit
  let r := redTree op 6 x
  .ok ((s.setV d ⟨BitVec.ofNat 512 r.1, 0, (s.vr a).p⟩).orFlags r.2)

/-- Identity of `.add` (R192). -/
def unitAdd (y : Ty) : Nat := if y.float then y.fmt.zero true else 0
/-- Identity of `.min` (R192). -/
def unitMin (y : Ty) : Nat :=
  if y.float then y.fmt.inf false else if y.signedInt then 2 ^ (y.bits - 1) - 1 else 2 ^ y.bits - 1
/-- Identity of `.max` (R192). -/
def unitMax (y : Ty) : Nat := if y.float then y.fmt.inf true else if y.signedInt then 2 ^ (y.bits - 1) else 0

/-- `VRED.add` (R192). -/
def vredAddBody (d a : VR) (m : Option MR) (y : Ty) (s : State) : Res :=
  s.legal (.vredAdd d a m y) (s.vred d a m y (unitAdd y) (laneAdd y s.fenv))
/-- `VRED.add` (R192). -/
def execVredAdd (d a : VR) (m : Option MR) (y : Ty) (s : State) : Host.Outcome State Fault Refusal :=
  s.finish 4 (vredAddBody d a m y s)

/-- `VRED.min` (R192). -/
def vredMinBody (d a : VR) (m : Option MR) (y : Ty) (s : State) : Res :=
  s.legal (.vredMin d a m y) (s.vred d a m y (unitMin y) (laneMin y s.fenv))
/-- `VRED.min` (R192). -/
def execVredMin (d a : VR) (m : Option MR) (y : Ty) (s : State) : Host.Outcome State Fault Refusal :=
  s.finish 4 (vredMinBody d a m y s)

/-- `VRED.max` (R192). -/
def vredMaxBody (d a : VR) (m : Option MR) (y : Ty) (s : State) : Res :=
  s.legal (.vredMax d a m y) (s.vred d a m y (unitMax y) (laneMax y s.fenv))
/-- `VRED.max` (R192). -/
def execVredMax (d a : VR) (m : Option MR) (y : Ty) (s : State) : Host.Outcome State Fault Refusal :=
  s.finish 4 (vredMaxBody d a m y s)

/-- `VRED.or` (R192). -/
def vredOrBody (d a : VR) (m : Option MR) (y : Ty) (s : State) : Res :=
  s.legal (.vredOr d a m y) (s.vred d a m y (0) (plain2 (· ||| ·)))
/-- `VRED.or` (R192). -/
def execVredOr (d a : VR) (m : Option MR) (y : Ty) (s : State) : Host.Outcome State Fault Refusal :=
  s.finish 4 (vredOrBody d a m y s)

/-- `VPERM` (R193). -/
def vpermBody (d a b : VR) (m : Option MR) (y : Ty) (s : State) : Res :=
  s.legal (.vperm d a b m y) (
    let x := s.vl y a
    s.vec2 d a b m y fun _ k => (lane x (k % y.lanes), 0))
/-- `VPERM` (R193). -/
def execVperm (d a b : VR) (m : Option MR) (y : Ty) (s : State) : Host.Outcome State Fault Refusal :=
  s.finish 4 (vpermBody d a b m y s)

end Sys2Proof.Machine
end

