-- ==== Sys2Proof/Machine/VectorConv.lean ====
section
/-! DEFINITION. Vector conversions (R194-R197) and special functions (R198). -/

namespace Sys2Proof.Machine

/-- One lane of `VCVT` from type f to type y (R194). -/
def laneConvert (y f : Ty) (v : FEnv) (x : Nat) : FRes :=
  let val : FVal :=
    if f.float then f.fmt.unpack v.daz x
    else let z := laneInt f x; .fin (decide (z < 0)) z.natAbs 0
  if y.float then y.fmt.put v val
  else
    let r := toIntBounds v.rm y.bounds.1 y.bounds.2 val
    (wrap y.bits r.1, r.2)

/-- `VCVT`: lanes from N on are written 0 whatever the mask (R183, R194). -/
def vcvtBody (d a : VR) (f : Ty) (m : Option MR) (y : Ty) (s : State) : Res :=
  s.legal (.vcvt d a f m y) (
    let x := s.vl f a
    let n := min y.lanes f.lanes
    let r := (s.vl y d).mapIdx fun i z =>
      if n ≤ i then (0, 0) else if s.active m i then laneConvert y f s.fenv (lane x i) else (z, 0)
    let q := (s.vr a).p || (m.isSome && (s.vr d).p)
    .ok ((s.setV d ⟨ofLanes y.bits (r.map (·.1)), 0, q⟩).orFlags (allFlags r)))
/-- `VCVT` (R194). -/
def execVcvt (d a : VR) (f : Ty) (m : Option MR) (y : Ty) (s : State) : Host.Outcome State Fault Refusal :=
  s.finish 4 (vcvtBody d a f m y s)

/-- The block b of a register (R33, R196). -/
def VReg.block (x : VReg) (y : Ty) (b : Nat) : Blk :=
  let part := x.body.toNat / 2 ^ (256 * b)
  ⟨(List.range 32).map fun i => signExtend y.mbits (part / 2 ^ (y.laneBits * i)),
   x.side.toNat / 2 ^ (32 * b) % 2 ^ 32⟩

/-- Body bits of a block, one register lane per mantissa. -/
def Blk.bodyBits (b : Blk) (y : Ty) : Nat := packNat y.laneBits (b.m.map (wrap y.laneBits))

/-- Step the generator for a conversion into a block under `BSR`: the draws, and the state (R65). -/
def State.draw (s : State) (n : Nat) : List (BitVec 16) × State :=
  if fpcrBsr s.fpcr then
    let (l, x) := lfsrDraws n s.core.sh.lfsr
    (l, s.onSh fun h => { h with lfsr := x })
  else ([], s)

/-- Exponent floor that a side gives (R195). -/
def floorOf (side : BitVec 64) : Nat :=
  let f := side.toNat / 2 ^ 24 % 256
  if f = 0 then 1 else min f 254

/-- `VPACKBK` (R195). -/
def vpackbkBody (d a b : VR) (y : Ty) (s : State) : Res :=
  s.legal (.vpackbk d a b y) (
    let v := s.fenv
    let x := (s.vl .f32 a ++ s.vl .f32 b).map fun w => (fmtF32.unpack v.daz w).exact
    let (draws, t) := s.draw 32
    let r := convertToBlock x y.mbits v.rm (fpcrBsr s.fpcr) draws (floorOf (s.vr a).side)
    let old := s.vr d
    let p := (s.vr a).p || (s.vr b).p
    let new : VReg :=
      match y with
      | .bk16 => ⟨BitVec.ofNat 512 (r.1.bodyBits y), BitVec.ofNat 64 r.1.scale, p⟩
      | _ => ⟨BitVec.ofNat 512 (old.body.toNat / 2 ^ 256 + r.1.bodyBits y * 2 ^ 256),
              BitVec.ofNat 64 (old.side.toNat / 2 ^ 32 + r.1.scale * 2 ^ 32), p || old.p⟩
    .ok ((t.setV d new).orFlags r.2))
/-- `VPACKBK` (R195). -/
def execVpackbk (d a b : VR) (y : Ty) (s : State) : Host.Outcome State Fault Refusal :=
  s.finish 4 (vpackbkBody d a b y s)

/-- `VUNBK` (R196). -/
def vunbkBody (d a : VR) (k : BitVec 4) (m : Option MR) (y : Ty) (s : State) : Res :=
  s.legal (.vunbk d a k m y) (
    let blk := (s.vr a).block y (k.toNat / 2)
    s.vlanes d m 32 (s.vr a).p false fun i =>
      fmtF32.ofExact s.fenv (blk.value y.mbits (16 * (k.toNat % 2) + i)))
/-- `VUNBK` (R196). -/
def execVunbk (d a : VR) (k : BitVec 4) (m : Option MR) (y : Ty) (s : State) : Host.Outcome State Fault Refusal :=
  s.finish 4 (vunbkBody d a k m y s)

/-- Some mantissa of a block is not zero: of `.bk4` the low nibble of a byte lane (R33, R197). -/
def blockNonZero (y : Ty) (bits : Nat) : Bool :=
  match y with
  | .bk4 => (List.range 32).any fun i => bits / 2 ^ (8 * i) % 16 != 0
  | _ => bits != 0
/-- One block of `VSCALE`: its body bits, scale word and flags (R197). -/
def scaleBlock (y : Ty) (bits scale : Nat) (e : Int) : Nat × Nat × Flags :=
  let old : Nat := scale / 2 ^ 24
  let keep := scale / 256 * 256
  if old = 0 ∨ old = 255 then (bits, keep, 0)
  else if 254 < (old : Int) + e then ((narBlk y.mbits).bodyBits y, 255 * 2 ^ 24, flagOF)
  else if (old : Int) + e < 1 then (0, 0, flagIf (blockNonZero y bits) (flagUF ||| flagNX))
  else (bits, ((old : Int) + e).toNat * 2 ^ 24 + keep % 2 ^ 24, 0)

/-- `VSCALE` (R197). -/
def vscaleBody (d a b : VR) (y : Ty) (s : State) : Res :=
  s.legal (.vscale d a b y) (
    let x := s.vr a
    let n := lanes 32 (s.vr b).body
    let part (i w : Nat) : Nat × Nat × Flags :=
      scaleBlock y (x.body.toNat / 2 ^ (256 * i) % 2 ^ w) (x.side.toNat / 2 ^ (32 * i) % 2 ^ 32)
        (signExtend 32 (lane n i))
    let p := x.p || (s.vr b).p
    match y with
    | .bk16 =>
      let r := part 0 512
      .ok ((s.setV d ⟨BitVec.ofNat 512 r.1, BitVec.ofNat 64 r.2.1, p⟩).orFlags r.2.2)
    | _ =>
      let r := part 0 256
      let q := part 1 256
      .ok ((s.setV d ⟨BitVec.ofNat 512 (r.1 + q.1 * 2 ^ 256), BitVec.ofNat 64 (r.2.1 + q.2.1 * 2 ^ 32), p⟩).orFlags
        (r.2.2 ||| q.2.2)))
/-- `VSCALE` (R197). -/
def execVscale (d a b : VR) (y : Ty) (s : State) : Host.Outcome State Fault Refusal :=
  s.finish 4 (vscaleBody d a b y s)

/-- A special function lane by lane, under the controls `RM`, `BSR`, `FTZ` and `DAZ` of `FPCR` and not its sticky flags (R66,
R75, R198). -/
def State.special (s : State) (d a : VR) (m : Option MR) (f : Nat → BitVec 14 → FRes) : Res :=
  s.vec1 d a m .f32 fun x => f x (s.fpcr &&& 0xFF)

/-- `VEXP2` (R198). -/
def vexp2Body (d a : VR) (m : Option MR) (s : State) : Res := s.special d a m exp2Lane
/-- `VEXP2` (R198). -/
def execVexp2 (d a : VR) (m : Option MR) (s : State) : Host.Outcome State Fault Refusal := s.finish 4 (vexp2Body d a m s)
/-- `VLOG2` (R198). -/
def vlog2Body (d a : VR) (m : Option MR) (s : State) : Res := s.special d a m log2Lane
/-- `VLOG2` (R198). -/
def execVlog2 (d a : VR) (m : Option MR) (s : State) : Host.Outcome State Fault Refusal := s.finish 4 (vlog2Body d a m s)
/-- `VRCPA` (R198). -/
def vrcpaBody (d a : VR) (m : Option MR) (s : State) : Res := s.special d a m rcpaLane
/-- `VRCPA` (R198). -/
def execVrcpa (d a : VR) (m : Option MR) (s : State) : Host.Outcome State Fault Refusal := s.finish 4 (vrcpaBody d a m s)
/-- `VRSQA` (R198). -/
def vrsqaBody (d a : VR) (m : Option MR) (s : State) : Res := s.special d a m rsqaLane
/-- `VRSQA` (R198). -/
def execVrsqa (d a : VR) (m : Option MR) (s : State) : Host.Outcome State Fault Refusal := s.finish 4 (vrsqaBody d a m s)

end Sys2Proof.Machine
end

