-- ==== Sys2Proof/Machine/Tensor.lean ====
section
/-! DEFINITION. Tensor and accumulator instructions (R206, R210, R213-R218): checks at issue and entry
into their engine. -/

namespace Sys2Proof.Machine

/-! ## Descriptor loads (R206) -/

/-- The checks of a descriptor load of n bytes, continued with its value (R206). -/
def State.descLoad (s : State) (a : GR) (n : Nat) (ok : Nat → Bool) (k : Nat → Res) : Res :=
  s.consume a (s.checkedOwn (s.gv a) 8 fun off =>
    if off % n ≠ 0 then .trap .align (s.gv a)
    else if s.anyPoison (nodeBase s.here + off) n then .trap .poison 0
    else
      let v := s.readNat (nodeBase s.here + off) n
      if ok v then k v else .trap .bounds (s.gv a))

/-- `MAFD` (R206, R207). -/
def mafdBody (a : GR) (s : State) : Res :=
  s.descLoad a 32 (fun v => adescOk (BitVec.ofNat 256 v)) fun v =>
    .ok (s.onEng fun e => { e with adesc := BitVec.ofNat 256 v })
/-- `MAFD` (R206, R207). -/
def execMafd (a : GR) (s : State) : Host.Outcome State Fault Refusal := s.finish 4 (mafdBody a s)
/-- `MBFD` (R206, R208). -/
def mbfdBody (a : GR) (s : State) : Res :=
  s.descLoad a 16 (fun v => bdescOk (BitVec.ofNat 128 v)) fun v =>
    .ok (s.onEng fun e => { e with bdesc := BitVec.ofNat 128 v })
/-- `MBFD` (R206, R208). -/
def execMbfd (a : GR) (s : State) : Host.Outcome State Fault Refusal := s.finish 4 (mbfdBody a s)

/-! ## Checks of MMA and MMAS (R210) -/

/-- The first of the values that is not a multiple of its alignment (check 3). R210 gives no order: A's mantissa base and strides, A's
scales, then B's (DESIGN CHOICE, log entry 68). -/
def firstMisaligned (l : List (Nat × Nat)) : Option Nat := (l.find? fun e => e.1 % e.2 != 0).map (·.1)

/-- The A bases and strides with their alignments (check 3). Scale strides of a type whose scale bases are ignored are not checked
(DESIGN CHOICE, log entry 76). -/
def alignA (d : BitVec 256) (ga : BitVec 64) (q : Nat) (scales : Bool) : List (Nat × Nat) :=
  let dense := !(descUnfold d)
  (dfield ga 0 16, q) :: (if dense then [(dfield d 16 16, q), (dfield d 32 16, q)] else [])
    ++ (if scales then (dfield ga 16 16, 4) :: (if dense then [(dfield d 64 16, 4), (dfield d 80 16, 4)] else [])
        else [])
/-- The B bases and strides with their alignments (check 3), scale strides as in alignA (DESIGN CHOICE, log entry 76). -/
def alignB (d : BitVec 128) (gb : BitVec 64) (q : Nat) (scales : Bool) : List (Nat × Nat) :=
  [(dfield gb 0 16, q), (dfield d 0 16, q), (dfield d 16 16, q)]
    ++ (if scales then [(dfield gb 16 16, 4), (dfield d 32 16, 4), (dfield d 48 16, 4)] else [])

/-- The first start offset of n fetched bytes that reach past 0xFFFF (check 4). -/
def firstBeyond (n : Nat) (l : List Nat) : Option Nat := l.find? fun o => decide (0x10000 < o + n)

/-- Blocks of A, mantissas and scales, in the order of check 4. -/
def extentA (d : BitVec 256) (ga : BitVec 64) (q : Nat) : List (Nat × Nat) :=
  if descUnfold d then
    (List.range (dfield d 128 8 * dfield d 136 8 * descCb d)).map fun j =>
      (dfield ga 0 16 + j * q, dfield ga 16 16 + 4 * j)
  else (grid (descNb d) fun r k => (fetchA d ga q r k).getD (0, 0)).flatten

/-- Blocks of B, mantissas and scales, or records, in the order of check 4. -/
def extentB (d : BitVec 128) (gb : BitVec 64) (nb : Nat) : List (Nat × Nat) :=
  (grid nb fun c k => fetchB d gb c k).flatten

/-- The first of several candidates that is present. -/
def firstSome {α : Type} : List (Option α) → Option α
  | [] => none
  | some x :: _ => some x
  | none :: r => firstSome r

/-- Checks 3 and 4 of an `MMA` (R210). -/
def mmaFault (a : BitVec 256) (b : BitVec 128) (ga gb : BitVec 64) (y : Ty) : Option (Cause × Nat) :=
  let q := y.planeBytes
  let sc := !y.float
  match firstMisaligned (alignA a ga q sc ++ alignB b gb q sc) with
  | some v => some (.align, v)
  | none =>
    let ea := extentA a ga q
    let eb := extentB b gb (descNb a)
    (firstSome [firstBeyond q (ea.map (·.1)), if sc then firstBeyond 4 (ea.map (·.2)) else none,
      firstBeyond q (eb.map (·.1)), if sc then firstBeyond 4 (eb.map (·.2)) else none]).map fun v => (.bounds, v)

/-- Checks 3 and 4 of an `MMAS` (R210, R212). -/
def mmasFault (a : BitVec 256) (b : BitVec 128) (ga gb : BitVec 64) : Option (Cause × Nat) :=
  match firstMisaligned (alignA a ga 32 true ++ alignB b gb 128 false) with
  | some v => some (.align, v)
  | none =>
    let ea := extentA a ga 32
    let eb := extentB b gb (descNb a / stepBlocks (descKept b))
    (firstSome [firstBeyond 32 (ea.map (·.1)), firstBeyond 4 (ea.map (·.2)),
      firstBeyond (recordBytes (descKept b)) (eb.map (·.1))]).map fun v => (.bounds, v)

/-! ## Issue (R201) -/

/-- A check at issue: the cause with its `TVAL`, or the operation to enter. -/
inductive Issued
  | trap (c : Cause) (v : BitVec 64)
  | op (o : EngOp)
  deriving DecidableEq, Repr

/-- An operation with what every operation captures at issue (R66, R202). -/
def State.newOp (s : State) (k : EngKind) (t : AT) (w : WC) (ga gb : BitVec 64) : EngOp :=
  { kind := k, tile := t, ga := ga, gb := gb, wc := w, slot := s.core.ctl.slot, alloc := s.slot.alloc,
    serial := s.core.eng.serial, adesc := s.core.eng.adesc, bdesc := s.core.eng.bdesc, fpcr := s.fpcr,
    draws := [] }

/-- The engine of an operation has room: 16 or 4 entries (R201). -/
def Engines.room (e : Engines) (k : EngKind) : Bool :=
  if k.tensor then decide (e.tq.length < 16) else decide (e.mover.length < 4)

/-- An operation enters its engine; an `ACCST.bk16` under `BSR` takes its 256 draws here (R217). Event 3 of R53 counts the
operations of the tensor queue here, those of the mover not (DESIGN CHOICE, log entry 51). -/
def State.enterOp (s : State) (o : EngOp) : State :=
  let (draws, s) : List (BitVec 16) × State :=
    match o.kind with
    | .accst .bk16 => s.draw 256
    | _ => ([], s)
  let o := { o with draws := draws, serial := s.core.eng.serial }
  let s := if o.kind.tensor then s.count 3 else s
  s.onEng fun e =>
    if o.kind.tensor then { e with tq := e.tq ++ [o], serial := e.serial + 1 }
    else { e with mover := e.mover ++ [o], serial := e.serial + 1 }

/-- Outcome of an engine instruction outside a rig: a full engine makes issue wait (R201). -/
def State.issue (s : State) (r : Issued) : Host.Outcome State Fault Refusal :=
  match r with
  | .trap c v => .next (s.takeTrap c v s.pc)
  | .op o =>
    if s.core.eng.room o.kind then .next ((s.enterOp o).commit 4)
    else .next (s.onCtl fun k => { k with issue := .wait })

/-- Engines perform until p holds or n operations are done: a rig is frozen meanwhile (R165, R201). -/
def State.freeze (s : State) (p : State → Bool) : Nat → State
  | 0 => s
  | n + 1 => if p s then s else (s.engineTurn).freeze p n

/-- Outcome of an engine instruction inside a rig: a full engine freezes the rig (R223). -/
def State.issueRig (s : State) (r : Issued) : Res :=
  match r with
  | .trap c v => .trap c v
  | .op o => .ok ((s.freeze (fun t => t.core.eng.room o.kind) 20).enterOp o)

/-- As a check's outcome. -/
def Issued.guard (bad : Bool) (c : Cause) (v : BitVec 64) (r : Issued) : Issued := if bad then .trap c v else r

/-- Checks of `MMA` (R210). -/
def State.mmaIssue (s : State) (t : AT) (a b : GR) (w : WC) (y : Ty) : Issued :=
  Issued.guard (!(Instr.wellFormed (.mma t a b w y))) .illegal s.parcel <|
  Issued.guard (s.gp a || s.gp b) .poison 0 <|
    match mmaFault s.core.eng.adesc s.core.eng.bdesc (s.gv a) (s.gv b) y with
    | some (c, v) => .trap c (BitVec.ofNat 64 v)
    | none => .op (s.newOp (.mma y) t w (s.gv a) (s.gv b))
/-- `MMA` (R210). -/
def execMma (t : AT) (a b : GR) (w : WC) (y : Ty) (s : State) : Host.Outcome State Fault Refusal :=
  s.issue (s.mmaIssue t a b w y)

/-- Checks of `MMAS` (R210). -/
def State.mmasIssue (s : State) (t : AT) (a b : GR) (w : WC) : Issued :=
  let e := s.core.eng
  Issued.guard (s.gp a || s.gp b) .poison 0 <|
  Issued.guard (descNb e.adesc % stepBlocks (descKept e.bdesc) != 0) .bounds (s.gv b) <|
    match mmasFault e.adesc e.bdesc (s.gv a) (s.gv b) with
    | some (c, v) => .trap c (BitVec.ofNat 64 v)
    | none => .op (s.newOp .mmas t w (s.gv a) (s.gv b))
/-- `MMAS` (R210). -/
def execMmas (t : AT) (a b : GR) (w : WC) (s : State) : Host.Outcome State Fault Refusal :=
  s.issue (s.mmasIssue t a b w)

/-- `ACCZ`: nothing to check (R213). -/
def State.acczIssue (s : State) (t : AT) : Issued := .op (s.newOp .accz t 0 0 0)
/-- `ACCZ` (R213). -/
def execAccz (t : AT) (s : State) : Host.Outcome State Fault Refusal := s.issue (s.acczIssue t)

/-- Checks of `ACCRN` (R214). -/
def State.accrnIssue (s : State) (t : AT) (a : GR) : Issued :=
  Issued.guard (s.gp a) .poison 0 (.op (s.newOp .accrn t 0 (s.gv a) 0))
/-- `ACCRN` (R214). -/
def execAccrn (t : AT) (a : GR) (s : State) : Host.Outcome State Fault Refusal := s.issue (s.accrnIssue t a)

/-- Bytes of an image (R216). -/
def imageBytes : Ty → Nat
  | .i32 => 1040
  | .f32 => 1024
  | _ => 544

/-- Checks of `ACCLD` and `ACCST` (R216). -/
def State.imageIssue (s : State) (k : EngKind) (t : AT) (a : GR) (w : WC) (y : Ty) : Issued :=
  Issued.guard (s.gp a) .poison 0 <|
    match s.ownPath (s.gv a) 8 with
    | .trap c => .trap c (s.gv a)
    | .peer _ _ => .trap .bounds (s.gv a)
    | .own off =>
      Issued.guard (off % 64 != 0) .align (s.gv a) <|
      Issued.guard (decide (0x10000 < off + imageBytes y)) .bounds (s.gv a) <|
        .op (s.newOp k t w (BitVec.ofNat 64 off) 0)

/-- Checks of `ACCLD` (R216). -/
def State.accldIssue (s : State) (t : AT) (a : GR) (w : WC) (y : Ty) : Issued :=
  Issued.guard (!(Instr.wellFormed (.accld t a w y))) .illegal s.parcel (s.imageIssue (.accld y) t a w y)
/-- `ACCLD` (R216). -/
def execAccld (t : AT) (a : GR) (w : WC) (y : Ty) (s : State) : Host.Outcome State Fault Refusal :=
  s.issue (s.accldIssue t a w y)
/-- Checks of `ACCST` (R216). -/
def State.accstIssue (s : State) (t : AT) (a : GR) (w : WC) (y : Ty) : Issued :=
  Issued.guard (!(Instr.wellFormed (.accst t a w y))) .illegal s.parcel (s.imageIssue (.accst y) t a w y)
/-- `ACCST` (R216). -/
def execAccst (t : AT) (a : GR) (w : WC) (y : Ty) (s : State) : Host.Outcome State Fault Refusal :=
  s.issue (s.accstIssue t a w y)

/-- No operation names the tile. -/
def Engines.tileIdle (e : Engines) (t : AT) : Bool := (e.tq ++ e.mover).all fun o => o.tile != t

/-- The word `ACCSC` reads of a row (R215). -/
def rowWord (r : AccRow) : BitVec 64 := r.x.setWidth 64 ||| (BitVec.ofBool r.p).setWidth 64 <<< 8

/-- `ACCSC` once every operation on its tile has completed (R215). -/
def State.accsc (s : State) (t : AT) (d : GR) (r : Nat) : State :=
  s.setG d (rowWord ((s.tile t)[r]?.getD AccRow.zero)) false

/-- Checks of `ACCSC`, continued with the row (R215). -/
def State.accscRow (s : State) (b : GR) (k : Nat → Res) : Res :=
  s.consume b (if 15 < (s.gv b).toNat then .trap .bounds (s.gv b) else k (s.gv b).toNat)

/-- What an `ACCSC` inside a rig waits for: a longer wait freezes the rig, and what completes meanwhile sets its flags then
(R66, R215). -/
def accscFreeze (t : AT) (b : GR) (s : State) : State :=
  if s.gp b ∨ 15 < (s.gv b).toNat then s else s.freeze (fun u => u.core.eng.tileIdle t) 20
/-- `ACCSC` on an idle tile (R215). -/
def accscBody (t : AT) (d b : GR) (s : State) : Res := s.accscRow b fun r => .ok (s.accsc t d r)
/-- `ACCSC`: outside a rig it waits at issue, and an asynchronous cause may be taken (R215). -/
def execAccsc (t : AT) (d b : GR) (s : State) : Host.Outcome State Fault Refusal :=
  match accscBody t d b s with
  | .trap c v => .next (s.takeTrap c v s.pc)
  | .hold => .next s.holdIssue
  | .ok u =>
    if s.core.eng.tileIdle t then .next (u.commit 4)
    else .next (s.onCtl fun k => { k with issue := .wait })

/-- A wait counter of the running slot reduced (R218). -/
def State.takeCount (s : State) (w : WC) (n : BitVec 16) : State :=
  { s with core := s.core.onSlot s.core.ctl.slot fun t => { t with w := bset t.w w (bget t.w w - n) } }

/-- `WAIT`: consume the counts, or sleep at U, or hold at S. The accesses after a completed one come after those of the operations
it waited for, so that what was read ahead is dropped (R116, R218). -/
def execWait (c : BitVec 10) (w : WC) (s : State) : Host.Outcome State Fault Refusal :=
  if c = 0 then .next (s.takeTrap .illegal s.parcel s.pc)
  else if c.toNat ≤ (bget s.slot.w w).toNat then .next ((s.takeCount w (c.setWidth 16)).fenceAhead.commit 4)
  else .next (s.blockOrHold (.counter w c))

end Sys2Proof.Machine
end

