-- ==== Sys2Proof/Machine/VectorMem.lean ====
section
/-! DEFINITION. Vector loads and stores (R186, R187) and lane moves (R188). -/

namespace Sys2Proof.Machine

/-- Address of a part: base and unsigned displacement in parts of n bytes (R186). -/
def State.partAddr (s : State) (a : GR) (d : BitVec 5) (n : Nat) : BitVec 64 :=
  s.gv a + BitVec.ofNat 64 (n * d.toNat)

/-- `VLD.body`: the side becomes 0 (R186). -/
def vldBodyBody (v : VR) (a : GR) (d : BitVec 5) (s : State) : Res :=
  s.consume a (s.checkedLoad (s.partAddr a d 64) 64 fun p =>
    s.orLate (p.lates ((List.range 8).map fun i => (.body v i, 8 * i))) (s.setV v ⟨0, 0, false⟩) (
      let (t, x, q) := s.loadAt p 64
      .ok (t.setV v ⟨BitVec.ofNat 512 x, 0, q⟩)))
/-- `VLD.body` (R186). -/
def execVldBody (v : VR) (a : GR) (d : BitVec 5) (s : State) : Host.Outcome State Fault Refusal :=
  s.finish 4 (vldBodyBody v a d s)

/-- `VLD.side`: poison is the old or the word's (R186). -/
def vldSideBody (v : VR) (a : GR) (d : BitVec 5) (s : State) : Res :=
  s.consume a (s.checkedLoad (s.partAddr a d 8) 8 fun p =>
    s.orLate (p.lates [(.side v, 0)]) s (
      let (t, x, q) := s.loadAt p 8
      .ok (t.setV v { s.vr v with side := BitVec.ofNat 64 x, p := (s.vr v).p || q })))
/-- `VLD.side` (R186). -/
def execVldSide (v : VR) (a : GR) (d : BitVec 5) (s : State) : Host.Outcome State Fault Refusal :=
  s.finish 4 (vldSideBody v a d s)

/-- `VLD.mask`: a poisoned word is a consumption (R89, R186). -/
def vldMaskBody (v : MR) (a : GR) (d : BitVec 5) (s : State) : Res :=
  s.consume a (s.checkedLoad (s.partAddr a d 8) 8 fun p =>
    let (t, x, q) := s.loadAt p 8
    if q then .trap .poison 0 else .ok (t.setM v (BitVec.ofNat 64 x)))
/-- `VLD.mask` (R186). -/
def execVldMask (v : MR) (a : GR) (d : BitVec 5) (s : State) : Host.Outcome State Fault Refusal :=
  s.finish 4 (vldMaskBody v a d s)

/-- `VST.body` (R186). -/
def vstBodyBody (v : VR) (a : GR) (d : BitVec 5) (s : State) : Res :=
  s.consume a (s.checked (s.partAddr a d 64) 64 fun p =>
    .ok (s.storeAt p (bodyBytes (s.vr v).body) (s.vr v).p))
/-- `VST.body` (R186). -/
def execVstBody (v : VR) (a : GR) (d : BitVec 5) (s : State) : Host.Outcome State Fault Refusal :=
  s.finish 4 (vstBodyBody v a d s)

/-- `VST.side` (R186). -/
def vstSideBody (v : VR) (a : GR) (d : BitVec 5) (s : State) : Res :=
  s.consume a (s.checked (s.partAddr a d 8) 8 fun p =>
    .ok (s.storeAt p (leBytes 8 (s.vr v).side.toNat) (s.vr v).p))
/-- `VST.side` (R186). -/
def execVstSide (v : VR) (a : GR) (d : BitVec 5) (s : State) : Host.Outcome State Fault Refusal :=
  s.finish 4 (vstSideBody v a d s)

/-- `VST.mask` (R186). -/
def vstMaskBody (v : MR) (a : GR) (d : BitVec 5) (s : State) : Res :=
  s.consume a (s.checked (s.partAddr a d 8) 8 fun p => .ok (s.storeAt p (leBytes 8 (s.mr v).toNat) false))
/-- `VST.mask` (R186). -/
def execVstMask (v : MR) (a : GR) (d : BitVec 5) (s : State) : Host.Outcome State Fault Refusal :=
  s.finish 4 (vstMaskBody v a d s)

/-! ## Strided and indexed accesses (R187) -/

/-- The paths of the active elements, each with its number, checked ascending; or the first failing
address with its cause (R187). -/
def State.paths (s : State) (n : Nat) : List (Nat × BitVec 64) → Except (Cause × BitVec 64) (List (Nat × Path))
  | [] => .ok []
  | (i, a) :: r =>
    match s.path a n with
    | .trap c => .error (c, a)
    | p =>
      match s.paths n r with
      | .ok l => .ok ((i, p) :: l)
      | .error e => .error e

/-- Elements at the paths of addresses, checked, then loaded: a load waits for a burst of an ORDERED transfer of the core to one
of its words (R114). -/
def State.pathsLoad (s : State) (n : Nat) (l : List (Nat × BitVec 64)) (f : List (Nat × Path) → Res) : Res :=
  match s.paths n l with
  | .error (c, a) => .trap c a
  | .ok l => if l.any fun e => s.awaits e.2 n then .hold else f l

/-- Elements loaded ascending: their values by number, and whether any word was poisoned. -/
def State.gather (s : State) (n : Nat) : List (Nat × Path) → State × List (Nat × Nat) × Bool
  | [] => (s, [], false)
  | (i, p) :: r =>
    let (t, x, q) := s.loadAt p n
    let (u, l, q') := t.gather n r
    (u, (i, x) :: l, q || q')

/-- Elements stored ascending. -/
def State.scatter (s : State) (n : Nat) (q : Bool) (val : Nat → Nat) : List (Nat × Path) → State
  | [] => s
  | (i, p) :: r => (s.storeAt p (leBytes n (val i)) q).scatter n q val r

/-- The numbers of the active lanes, ascending. -/
def State.activeLanes (s : State) (m : Option MR) (n : Nat) : List Nat :=
  (List.range n).filter (s.active m)

/-- Elements on the own scratchpad: those a load reads at once when it takes the others later (R115). -/
def ownOnes (l : List (Nat × Path)) : List (Nat × Path) :=
  l.filter fun e => match e.2 with
    | .own _ => true
    | .peer _ _ | .trap _ => false
/-- A load of lanes at the addresses f gives (R187); those of peers may be taken later (R115). -/
def State.loadLanes (s : State) (v : VR) (m : Option MR) (y : Ty) (f : Nat → BitVec 64) : Res :=
  let put (l : List (Nat × Path)) : State :=
    let (t, vals, q) := s.gather (y.bits / 8) l
    let r := (lanes y.bits (s.vr v).body).mapIdx fun i z => ((vals.find? (·.1 == i)).map (·.2)).getD z
    t.setV v ⟨ofLanes y.bits r, 0, q || (m.isSome && (s.vr v).p)⟩
  s.pathsLoad (y.bits / 8) ((s.activeLanes m y.lanes).map fun i => (i, f i)) fun l =>
    s.orLate (l.flatMap fun e => e.2.lates [(.lane v y.bits e.1, 0)]) (put (ownOnes l)) (.ok (put l))

/-- A store of lanes at the addresses f gives (R187). -/
def State.storeLanes (s : State) (v : VR) (m : Option MR) (y : Ty) (f : Nat → BitVec 64) : Res :=
  match s.paths (y.bits / 8) ((s.activeLanes m y.lanes).map fun i => (i, f i)) with
  | .error (c, a) => .trap c a
  | .ok l => .ok (s.scatter (y.bits / 8) (s.vr v).p (lane (lanes y.bits (s.vr v).body)) l)

/-- The body part of a block from its plane: BK4 nibbles are sign-extended into byte lanes (R187). -/
def planeToBody (y : Ty) (x : Nat) : Nat :=
  match y with
  | .bk4 => packNat 8 ((List.range 32).map fun i => wrap 8 (signExtend 4 (x / 2 ^ (4 * i))))
  | _ => x
/-- The plane of a block from its body part (R60, R187). -/
def bodyToPlane (y : Ty) (x : Nat) : Nat :=
  match y with
  | .bk4 => packNat 4 ((List.range 32).map fun i => x / 2 ^ (8 * i))
  | _ => x

/-- Address of block b: base and b strides (R187). -/
def State.strideAddr (s : State) (a b : GR) (i : Nat) : BitVec 64 := s.gv a + BitVec.ofNat 64 i * s.gv b

/-- The words of a block's plane, and what of a body each gives (R187). -/
def planeReads (v : VR) (y : Ty) (i : Nat) : List (LateReg × Nat) :=
  (List.range (y.planeBytes / 8)).map fun j =>
    (match y with
      | .bk4 => .nibbles v (2 * i + j)
      | _ => .body v (4 * i + j), 8 * j)
/-- A load of the blocks of a body; the side becomes 0 (R187). The words of peers may be taken later (R115). -/
def State.loadBlocks (s : State) (v : VR) (y : Ty) (a b : GR) : Res :=
  let put (l : List (Nat × Path)) : State :=
    let (t, vals, q) := s.gather y.planeBytes l
    let body := vals.foldl (fun x e => x + planeToBody y e.2 * 2 ^ (256 * e.1)) 0
    t.setV v ⟨BitVec.ofNat 512 body, 0, q⟩
  s.pathsLoad y.planeBytes ((List.range y.blocks).map fun i => (i, s.strideAddr a b i)) fun l =>
    s.orLate (l.flatMap fun e => e.2.lates (planeReads v y e.1)) (put (ownOnes l)) (.ok (put l))

/-- A store of the blocks of a body (R187). -/
def State.storeBlocks (s : State) (v : VR) (y : Ty) (a b : GR) : Res :=
  match s.paths y.planeBytes ((List.range y.blocks).map fun i => (i, s.strideAddr a b i)) with
  | .error (c, x) => .trap c x
  | .ok l => .ok (s.scatter y.planeBytes (s.vr v).p (fun i => bodyToPlane y ((s.vr v).body.toNat / 2 ^ (256 * i))) l)

/-- `VLDS` (R187). A poisoned gb gives POISON under R184 for `.bk16` too, whose gb R187 ignores (DESIGN CHOICE, log entry
74). -/
def vldsBody (v : VR) (a b : GR) (m : Option MR) (y : Ty) (s : State) : Res :=
  s.legal (.vlds v a b m y) (s.consume a (s.consume b (
    if y.block then s.loadBlocks v y a b else s.loadLanes v m y (s.strideAddr a b))))
/-- `VLDS` (R187). -/
def execVlds (v : VR) (a b : GR) (m : Option MR) (y : Ty) (s : State) : Host.Outcome State Fault Refusal :=
  s.finish 4 (vldsBody v a b m y s)

/-- `VSTS` (R187); a poisoned gb as in `VLDS` (log entry 74). -/
def vstsBody (v : VR) (a b : GR) (m : Option MR) (y : Ty) (s : State) : Res :=
  s.legal (.vsts v a b m y) (s.consume a (s.consume b (
    if y.block then s.storeBlocks v y a b else s.storeLanes v m y (s.strideAddr a b))))
/-- `VSTS` (R187). -/
def execVsts (v : VR) (a b : GR) (m : Option MR) (y : Ty) (s : State) : Host.Outcome State Fault Refusal :=
  s.finish 4 (vstsBody v a b m y s)

/-- Address of lane i by an index vector: base and sign-extended index (R187). -/
def State.indexAddr (s : State) (a : GR) (i : VR) (y : Ty) (k : Nat) : BitVec 64 :=
  s.gv a + BitVec.ofInt 64 (signExtend y.bits (lane (lanes y.bits (s.vr i).body) k))

/-- A poisoned base or index vector is a consumption (R184, R187). -/
def State.indexed (s : State) (a : GR) (i : VR) (r : Res) : Res :=
  s.consume a (if (s.vr i).p then .trap .poison 0 else r)

/-- `VGATH` (R187). -/
def vgathBody (v : VR) (a : GR) (i : VR) (m : Option MR) (y : Ty) (s : State) : Res :=
  s.legal (.vgath v a i m y) (s.indexed a i (s.loadLanes v m y (s.indexAddr a i y)))
/-- `VGATH` (R187). -/
def execVgath (v : VR) (a : GR) (i : VR) (m : Option MR) (y : Ty) (s : State) : Host.Outcome State Fault Refusal :=
  s.finish 4 (vgathBody v a i m y s)

/-- `VSCAT` (R187). -/
def vscatBody (v : VR) (a : GR) (i : VR) (m : Option MR) (y : Ty) (s : State) : Res :=
  s.legal (.vscat v a i m y) (s.indexed a i (s.storeLanes v m y (s.indexAddr a i y)))
/-- `VSCAT` (R187). -/
def execVscat (v : VR) (a : GR) (i : VR) (m : Option MR) (y : Ty) (s : State) : Host.Outcome State Fault Refusal :=
  s.finish 4 (vscatBody v a i m y s)

/-! ## Lane moves (R188) -/

/-- `VBCAST` (R188). -/
def vbcastBody (v : VR) (a : GR) (m : Option MR) (y : Ty) (s : State) : Res :=
  s.legal (.vbcast v a m y) (s.vlanes v m y.bits (s.gp a) false fun _ => ((s.gv a).toNat % 2 ^ y.bits, 0))
/-- `VBCAST` (R188). -/
def execVbcast (v : VR) (a : GR) (m : Option MR) (y : Ty) (s : State) : Host.Outcome State Fault Refusal :=
  s.finish 4 (vbcastBody v a m y s)

/-- A lane operand: poison, then its range (R188). -/
def State.laneIndex (s : State) (b : GR) (y : Ty) (k : Nat → Res) : Res :=
  s.consume b (if y.lanes ≤ (s.gv b).toNat then .trap .bounds (s.gv b) else k (s.gv b).toNat)

/-- `VINS` (R188). -/
def vinsBody (v : VR) (a b : GR) (y : Ty) (s : State) : Res :=
  s.legal (.vins v a b y) (s.laneIndex b y fun n =>
    s.vlanes v none y.bits (s.gp a) true fun i =>
      (if i = n then (s.gv a).toNat % 2 ^ y.bits else lane (lanes y.bits (s.vr v).body) i, 0))
/-- `VINS` (R188). -/
def execVins (v : VR) (a b : GR) (y : Ty) (s : State) : Host.Outcome State Fault Refusal :=
  s.finish 4 (vinsBody v a b y s)

/-- `VEXT`: ga is written (R188). -/
def vextBody (v : VR) (a b : GR) (y : Ty) (s : State) : Res :=
  s.legal (.vext v a b y) (s.laneIndex b y fun n =>
    let x := lane (lanes y.bits (s.vr v).body) n
    .ok (s.setG a (if y.signedInt then BitVec.ofInt 64 (signExtend y.bits x) else BitVec.ofNat 64 x) (s.vr v).p))
/-- `VEXT` (R188). -/
def execVext (v : VR) (a b : GR) (y : Ty) (s : State) : Host.Outcome State Fault Refusal :=
  s.finish 4 (vextBody v a b y s)

end Sys2Proof.Machine
end

