-- ==== Sys2Proof/Machine/Rig.lean ====
section
/-! DEFINITION. Rigs (R86, R87, R151, R152, R165, R219-R223): the staged loop run as one step, and the
saving and loading of `RIGS`. -/

namespace Sys2Proof.Machine

/-- What an entry of a rig writes when its result lands (R165). -/
inductive RigDest
  | none
  | g (r : GR)
  | v (r : VR)
  | side (r : VR)
  | m (r : MR)
  | adesc
  | bdesc
  deriving DecidableEq, Repr

/-- An entry of a rig: destination, rig latency in strokes (R166, R185, R223), effect, and the freeze it may wait in first
(R165). -/
structure RigOp where
  dest  : RigDest
  lat   : Nat
  run   : State → Res
  first : State → State := id

/-- An entry with a result in a general register. -/
def RigOp.onG (r : GR) (lat : Nat) (f : State → Res) : RigOp := { dest := .g r, lat := lat, run := f }
/-- An entry with a result in a vector register. -/
def RigOp.onV (r : VR) (lat : Nat) (f : State → Res) : RigOp := { dest := .v r, lat := lat, run := f }
/-- An entry with a result in a mask register. -/
def RigOp.onM (r : MR) (lat : Nat) (f : State → Res) : RigOp := { dest := .m r, lat := lat, run := f }
/-- An entry without a result. -/
def RigOp.noResult (f : State → Res) : RigOp := { dest := .none, lat := 1, run := f }

/-- Latency of a lane operation: longer for floating types (R185). -/
def byFloat (y : Ty) (lat : Nat) : Nat := if y.float then lat else 1

/-- Scalar entries (R166). -/
def Instr.rigScalar : Instr → Option RigOp
  | .add d a b => some (.onG d 1 (addBody d a b))
  | .sub d a b => some (.onG d 1 (subBody d a b))
  | .mul d a b => some (.onG d 1 (mulBody d a b))
  | .mulh d a b => some (.onG d 1 (mulhBody d a b))
  | .mulhn d a b => some (.onG d 1 (mulhnBody d a b))
  | .div d a b => some (.onG d 2 (divBody d a b))
  | .divn d a b => some (.onG d 2 (divnBody d a b))
  | .rem d a b => some (.onG d 2 (remBody d a b))
  | .remn d a b => some (.onG d 2 (remnBody d a b))
  | .madd d a b c => some (.onG d 1 (maddBody d a b c))
  | .and d a b => some (.onG d 1 (andBody d a b))
  | .or d a b => some (.onG d 1 (orBody d a b))
  | .xor d a b => some (.onG d 1 (xorBody d a b))
  | .shl d a b => some (.onG d 1 (shlBody d a b))
  | .shr d a b => some (.onG d 1 (shrBody d a b))
  | .sra d a b => some (.onG d 1 (sraBody d a b))
  | .rol d a b => some (.onG d 1 (rolBody d a b))
  | .clz d a => some (.onG d 1 (clzBody d a))
  | .ctz d a => some (.onG d 1 (ctzBody d a))
  | .popc d a => some (.onG d 1 (popcBody d a))
  | .min d a b => some (.onG d 1 (minBody d a b))
  | .minn d a b => some (.onG d 1 (minnBody d a b))
  | .max d a b => some (.onG d 1 (maxBody d a b))
  | .maxn d a b => some (.onG d 1 (maxnBody d a b))
  | .cmpeq d a b => some (.onG d 1 (cmpeqBody d a b))
  | .cmplt d a b => some (.onG d 1 (cmpltBody d a b))
  | .cmpltn d a b => some (.onG d 1 (cmpltnBody d a b))
  | .cmple d a b => some (.onG d 1 (cmpleBody d a b))
  | .cmplen d a b => some (.onG d 1 (cmplenBody d a b))
  | .sel d a b c => some (.onG d 1 (selBody d a b c))
  | .sext d a w => some (.onG d 1 (sextBody d a w))
  | .zext d a w => some (.onG d 1 (zextBody d a w))
  | .addi d a i => some (.onG d 1 (addiBody d a i))
  | .andi d a i => some (.onG d 1 (andiBody d a i))
  | .ori d a i => some (.onG d 1 (oriBody d a i))
  | .xori d a i => some (.onG d 1 (xoriBody d a i))
  | .shli d a k => some (.onG d 1 (shliBody d a k))
  | .shri d a k => some (.onG d 1 (shriBody d a k))
  | .srai d a k => some (.onG d 1 (sraiBody d a k))
  | .bfx d a l p => some (.onG d 1 (bfxBody d a l p))
  | .bfi d a l p => some (.onG d 1 (bfiBody d a l p))
  | .liShort d i => some (.onG d 1 (liShortBody d i))
  | .addpc d i => some (.onG d 1 (addpcBody d i))
  | .mkaAbs d b c => some (.onG d 1 (mkaAbsBody d b c))
  | .mkaGrp d b c => some (.onG d 1 (mkaGrpBody d b c))
  | .mkaCore d b c => some (.onG d 1 (mkaCoreBody d b c))
  | .tlook d a => some (.onG d 1 (tlookBody d a))
  | .tset d a b => some (.onG d 1 (tsetBody d a b))
  | .tclr a => some (.noResult (tclrBody a))
  | .ld t a w d => some (.onG t 2 (ldBody t a w d))
  | .st t a w d => some (.noResult (stBody t a w d))
  | .crrd d n => some (.onG d 1 (crrdBody d n))
  | .crrdSeamt d a => some (.onG d 1 (crrdSeamtBody d a))
  | .fadd d a b t => some (.onG d 2 (faddBody d a b t))
  | .fsub d a b t => some (.onG d 2 (fsubBody d a b t))
  | .fmul d a b t => some (.onG d 2 (fmulBody d a b t))
  | .ffma d a b c t => some (.onG d 2 (ffmaBody d a b c t))
  | .fdiv d a b t => some (.onG d 3 (fdivBody d a b t))
  | .fsqrt d a t => some (.onG d 3 (fsqrtBody d a t))
  | .fmin d a b t => some (.onG d 2 (fminBody d a b t))
  | .fmax d a b t => some (.onG d 2 (fmaxBody d a b t))
  | .fcmpeq d a b t => some (.onG d 2 (fcmpeqBody d a b t))
  | .fcmplt d a b t => some (.onG d 2 (fcmpltBody d a b t))
  | .fcmple d a b t => some (.onG d 2 (fcmpleBody d a b t))
  | .fclass d a t => some (.onG d 2 (fclassBody d a t))
  | .fcvt d a r t f => some (.onG d 1 (fcvtBody d a r t f))
  | .nop => some (.noResult nopBody)
  | _ => none

/-- Vector and mask entries (R185). -/
def Instr.rigVector : Instr → Option RigOp
  | .vmov d a m y => some (.onV d 1 (vmovBody d a m y))
  | .vadd d a b m y => some (.onV d (byFloat y 2) (vaddBody d a b m y))
  | .vsub d a b m y => some (.onV d (byFloat y 2) (vsubBody d a b m y))
  | .vmul d a b m y => some (.onV d (byFloat y 2) (vmulBody d a b m y))
  | .vfma d a b m y => some (.onV d (byFloat y 2) (vfmaBody d a b m y))
  | .vmin d a b m y => some (.onV d (byFloat y 2) (vminBody d a b m y))
  | .vmax d a b m y => some (.onV d (byFloat y 2) (vmaxBody d a b m y))
  | .vabs d a m y => some (.onV d (byFloat y 2) (vabsBody d a m y))
  | .vneg d a m y => some (.onV d (byFloat y 2) (vnegBody d a m y))
  | .vand d a b m y => some (.onV d 1 (vandBody d a b m y))
  | .vor d a b m y => some (.onV d 1 (vorBody d a b m y))
  | .vxor d a b m y => some (.onV d 1 (vxorBody d a b m y))
  | .vshl d a b m y => some (.onV d 1 (vshlBody d a b m y))
  | .vshr d a b m y => some (.onV d 1 (vshrBody d a b m y))
  | .vsra d a b m y => some (.onV d 1 (vsraBody d a b m y))
  | .vsel d a b m y => some (.onV d 1 (vselBody d a b m y))
  | .vcmpEq d a b m y => some (.onM d 1 (vcmpEqBody d a b m y))
  | .vcmpNe d a b m y => some (.onM d 1 (vcmpNeBody d a b m y))
  | .vcmpLt d a b m y => some (.onM d 1 (vcmpLtBody d a b m y))
  | .vcmpLe d a b m y => some (.onM d 1 (vcmpLeBody d a b m y))
  | .vcmpGt d a b m y => some (.onM d 1 (vcmpGtBody d a b m y))
  | .vcmpGe d a b m y => some (.onM d 1 (vcmpGeBody d a b m y))
  | .vredAdd d a m y => some (.onV d (byFloat y 3) (vredAddBody d a m y))
  | .vredMin d a m y => some (.onV d (byFloat y 3) (vredMinBody d a m y))
  | .vredMax d a m y => some (.onV d (byFloat y 3) (vredMaxBody d a m y))
  | .vredOr d a m y => some (.onV d (byFloat y 3) (vredOrBody d a m y))
  | .vperm d a b m y => some (.onV d 1 (vpermBody d a b m y))
  | .vldBody v a d => some (.onV v 2 (vldBodyBody v a d))
  | .vldSide v a d => some { dest := .side v, lat := 2, run := vldSideBody v a d }
  | .vldMask v a d => some (.onM v 2 (vldMaskBody v a d))
  | .vstBody v a d => some (.noResult (vstBodyBody v a d))
  | .vstSide v a d => some (.noResult (vstSideBody v a d))
  | .vstMask v a d => some (.noResult (vstMaskBody v a d))
  | .vlds v a b m y => some (.onV v 3 (vldsBody v a b m y))
  | .vsts v a b m y => some (.noResult (vstsBody v a b m y))
  | .vgath v a i m y => some (.onV v 3 (vgathBody v a i m y))
  | .vscat v a i m y => some (.noResult (vscatBody v a i m y))
  | .vbcast v a m y => some (.onV v 1 (vbcastBody v a m y))
  | .vins v a b y => some (.onV v 1 (vinsBody v a b y))
  | .vext v a b y => some (.onG a 1 (vextBody v a b y))
  | .mand d a b => some (.onM d 1 (mandBody d a b))
  | .mor d a b => some (.onM d 1 (morBody d a b))
  | .mxor d a b => some (.onM d 1 (mxorBody d a b))
  | .mnot d a => some (.onM d 1 (mnotBody d a))
  | .mpop d a => some (.onG d 1 (mpopBody d a))
  | .mfirst d a => some (.onG d 1 (mfirstBody d a))
  | .vcvt d a f m y => some (.onV d 1 (vcvtBody d a f m y))
  | .vpackbk d a b y => some (.onV d 2 (vpackbkBody d a b y))
  | .vunbk d a k m y => some (.onV d 1 (vunbkBody d a k m y))
  | .vscale d a b y => some (.onV d 1 (vscaleBody d a b y))
  | .vexp2 d a m => some (.onV d 3 (vexp2Body d a m))
  | .vlog2 d a m => some (.onV d 3 (vlog2Body d a m))
  | .vrcpa d a m => some (.onV d 2 (vrcpaBody d a m))
  | .vrsqa d a m => some (.onV d 2 (vrsqaBody d a m))
  | _ => none

/-- Tensor entries (R223). -/
def Instr.rigTensor : Instr → Option RigOp
  | .mma t a b w y => some (.noResult fun s => s.issueRig (s.mmaIssue t a b w y))
  | .mmas t a b w => some (.noResult fun s => s.issueRig (s.mmasIssue t a b w))
  | .mafd a => some { dest := .adesc, lat := 1, run := mafdBody a }
  | .mbfd a => some { dest := .bdesc, lat := 1, run := mbfdBody a }
  | .accz t => some (.noResult fun s => s.issueRig (s.acczIssue t))
  | .accld t a w y => some (.noResult fun s => s.issueRig (s.accldIssue t a w y))
  | .accst t a w y => some (.noResult fun s => s.issueRig (s.accstIssue t a w y))
  | .accrn t a => some (.noResult fun s => s.issueRig (s.accrnIssue t a))
  | .accsc t d b => some { RigOp.onG d 2 (accscBody t d b) with first := accscFreeze t b }
  | _ => none

/-- The entry an instruction makes; none when a rig refuses it (R223). -/
def Instr.rigOp (i : Instr) : Option RigOp :=
  match Instr.rigScalar i with
  | some o => some o
  | none =>
    match Instr.rigVector i with
    | some o => some o
    | none => Instr.rigTensor i

/-! ## Opening checks (R152) -/

/-- The line address POISON gives for a fetch from an offset (R89). -/
def lineAddr (o : BitVec 16) : BitVec 64 := ownAddr (o.toNat / 64 * 64)

/-- The first stage word that is poisoned or holds a bit above LAST; words j to 2 are checked (R152). One that carries the poison code gives
POISON with the address of its line, as a fetch does, before its bits are looked at (DESIGN CHOICE, log entry 87). -/
def State.stageFault (s : State) (last : Nat) : Nat → Option (Cause × BitVec 64)
  | 0 => none
  | n + 1 =>
    let j := 2 - n
    let o := s.pc + BitVec.ofNat 16 (4 + 4 * j)
    let w := s.parcelAt o
    if s.poisoned (s.codeKey o) then some (.poison, lineAddr o)
    else if 2 ^ (3 * (last + 1) - 32 * j) ≤ w ∧ 3 * (last + 1) < 32 * j + 32 then some (.illegal, BitVec.ofNat 64 w)
    else s.stageFault last n

/-- The stage of entry i (R151). -/
def State.stageOf (s : State) (i : Nat) : Nat :=
  (s.parcelAt (s.pc + 4) + 2 ^ 32 * s.parcelAt (s.pc + 8) + 2 ^ 64 * s.parcelAt (s.pc + 12)) / 2 ^ (3 * i) % 8

/-- Offset of entry i (R151). -/
def State.entryAt (s : State) (i : Nat) : BitVec 16 := s.pc + BitVec.ofNat 16 (16 + 4 * i)

/-- Entries from i on, n of them, with their stages; or what the opening raises (R152). -/
def State.rigEntries (s : State) (i : Nat) : Nat → Except (Cause × BitVec 64) (List (Nat × RigOp))
  | 0 => .ok []
  | n + 1 =>
    let o := s.entryAt i
    let w := s.parcelAt o
    if s.poisoned (s.codeKey o) then .error (.poison, lineAddr o)
    else if needsExt w then .error (.illegal, BitVec.ofNat 64 w)
    else
      match decode w 0 with
      | .error _ => .error (.illegal, BitVec.ofNat 64 w)
      | .ok e =>
        match Instr.rigOp e with
        | none => .error (.illegal, BitVec.ofNat 64 w)
        | some p => (s.rigEntries (i + 1) n).map fun r => (s.stageOf i, p) :: r

/-- The rig that stands at the program counter: its entries, or what the opening raises (R152). -/
def State.rigBody (s : State) (last : Nat) : Except (Cause × BitVec 64) (List (Nat × RigOp)) :=
  match s.stageFault last 3 with
  | some e => .error e
  | none => s.rigEntries 0 (last + 1)

/-! ## Landing (R165) -/

/-- What lands: the value an entry computed, or the poison of an entry that faulted (R87). -/
inductive Landing
  | none
  | g (r : GR) (x : GReg)
  | v (r : VR) (x : VReg)
  | side (r : VR) (x : BitVec 64) (p : Bool)
  | m (r : MR) (x : BitVec 64)
  | adesc (x : BitVec 256)
  | bdesc (x : BitVec 128)
  | gPoison (r : GR)
  | vPoison (r : VR)
  deriving DecidableEq, Repr

/-- A result on its way: the stroke it lands before, the entry's index, the value and the flags its
operation sets when it completes (R47). -/
structure Due where
  stroke : Nat
  index  : Nat
  what   : Landing
  flags  : BitVec 6
  deriving DecidableEq, Repr

/-- A result lands. -/
def State.land (s : State) (q : Due) : State :=
  let s := s.orFlags q.flags
  match q.what with
  | .none => s
  | .g r x => s.setG r x.v x.p
  | .v r x => s.setV r x
  | .side r x p => s.setV r { s.vr r with side := x, p := (s.vr r).p || p }
  | .m r x => s.setM r x
  | .adesc x => s.onEng fun e => { e with adesc := x }
  | .bdesc x => s.onEng fun e => { e with bdesc := x }
  | .gPoison r => s.setG r (s.gv r) true
  | .vPoison r => s.setV r { s.vr r with p := true }

/-- The results that land before stroke t, the higher entry index last (R165). -/
def State.landAt (s : State) (q : List Due) (t : Nat) : State :=
  (List.range 32).foldl (fun s i => (q.filter fun d => d.stroke == t && d.index == i).foldl State.land s) s

/-- What an entry that completed writes at its landing, taken from the state after its effect. -/
def RigDest.value (d : RigDest) (t : State) : Landing :=
  match d with
  | .none => .none
  | .g r => .g r (bget t.core.regs.g r)
  | .v r => .v r (t.vr r)
  | .side r => .side r (t.vr r).side (t.vr r).p
  | .m r => .m r (t.mr r)
  | .adesc => .adesc t.core.eng.adesc
  | .bdesc => .bdesc t.core.eng.bdesc

/-- What an entry that faulted writes (R87). -/
def RigDest.faulted : RigDest → Landing
  | .g r => .gPoison r
  | .v r | .side r => .vPoison r
  | .none | .m _ | .adesc | .bdesc => .none

/-- The state after an entry's effect with its results held back until they land. -/
def RigDest.holdBack (d : RigDest) (s t : State) : State :=
  match d with
  | .none => t
  | .g _ | .v _ | .side _ | .m _ => t.onRegs fun _ => s.core.regs
  | .adesc => t.onEng fun e => { e with adesc := s.core.eng.adesc }
  | .bdesc => t.onEng fun e => { e with bdesc := s.core.eng.bdesc }

/-! ## Strokes (R219) -/

/-- A running rig: state, results on their way, strokes begun, the fault record (R54, R87). -/
structure RigRun where
  s      : State
  due    : List Due
  stroke : Nat
  record : BitVec 64

/-- Change the live `RIGS` (R220). -/
def State.onRigs (s : State) (f : Rigs → Rigs) : State := s.onRegs fun q => { q with rigs := f q.rigs }

/-- `TVAL` of RIGX (R54). -/
def rigRecord (i stage : Nat) (c : Cause) (stroke : Nat) : BitVec 64 :=
  BitVec.ofNat 64 (i + 32 * stage + 256 * c.num.toNat + 65536 * (stroke % 2 ^ 32))

/-- Entry i of the stroke: executed when its stage is valid, else a bubble (R219). No entry holds: the rig has waited at its
opening (State.rigWaits). -/
def RigRun.entry (r : RigRun) (p : BitVec 16) (i stage : Nat) (o : RigOp) : RigRun :=
  let s := r.s.onRigs fun q => { q with slot := BitVec.ofNat 5 i }
  if s.core.regs.rigs.sv.getLsbD stage then
    let s := s.onCtl fun k => { k with pc := p + BitVec.ofNat 16 (16 + 4 * i) }
    let s := o.first s
    match o.run s with
    | .hold => { r with s := s }
    | .ok t =>
      let due : Due := ⟨r.stroke + o.lat, i, o.dest.value t, t.fpcr.extractLsb' 8 6⟩
      { r with s := (o.dest.holdBack s t).count 2, due := due :: r.due }
    | .trap c _ =>
      let due : Due := ⟨r.stroke + o.lat, i, o.dest.faulted, 0⟩
      if s.core.regs.rigs.fault then { r with s := s, due := due :: r.due }
      else { r with s := s.onRigs fun q => { q with fault := true }, due := due :: r.due,
                    record := rigRecord i stage c r.stroke }
  else { r with s := s }

/-- The entries of one stroke in ascending order. -/
def RigRun.entries (r : RigRun) (p : BitVec 16) : Nat → List (Nat × RigOp) → RigRun
  | _, [] => r
  | i, (stage, o) :: l => (r.entry p i stage o).entries p (i + 1) l

/-- Time passes before a stroke; timers of the core expire, the earliest first (R82), and causes that the environment raises
during this stroke become pending (R49, R86). -/
def State.strokeTime (s : State) (t : Nat) : State :=
  let s := s.tick
  let s := allSlots.foldl (fun s _ => match s.core.firstTimer s.rclk with
    | some i => { s with core := s.core.expire i }
    | none => s) s
  (s.core.sh.duringRig.filter (·.stroke == t)).foldl
    (fun s e => { s with core := s.core.raise s.core.ctl.slot e.bit e.val }) s

/-- An asynchronous cause is pending that the rig drains for; at S causes wait (R56, R86). -/
def State.drains (s : State) : Bool := s.core.ctl.priv == .u && s.slot.pend != 0

/-- Strokes until SV is 0 (R219); k bounds their number. -/
def RigRun.loop (r : RigRun) (p : BitVec 16) (deep : Nat) (l : List (Nat × RigOp)) : Nat → RigRun
  | 0 => r
  | k + 1 =>
    let s := (r.s.strokeTime r.stroke).landAt r.due r.stroke
    let q := s.core.regs.rigs
    let start := q.iter != 0 && !(s.drains || q.fault)
    let sv := (q.sv <<< 1 ||| (BitVec.ofBool start).setWidth 8) &&& BitVec.ofNat 8 (2 ^ (deep + 1) - 1)
    let s := s.onRigs fun q => { q with sv := sv, iter := if start then q.iter - 1 else q.iter }
    let due := r.due.filter fun d => decide (r.stroke < d.stroke)
    if sv = 0 then { r with s := s, due := due }
    else
      let r := RigRun.entries { r with s := s, due := due } p 0 l
      RigRun.loop { r with stroke := r.stroke + 1 } p deep l k

/-- Every result on its way lands in the order of its stroke (R219). -/
def RigRun.landAll (r : RigRun) : State :=
  [1, 2, 3].foldl (fun s k => s.landAt r.due (r.stroke + k)) r.s

/-- The end of a rig: every result has landed, and every store to a peer is performed; a cause pending then is taken at the
exit (R86, R87, R219). -/
def RigRun.close (r : RigRun) (p exit : BitVec 16) : State :=
  let s := r.landAll.drainStores
  let q := s.core.regs.rigs
  let active := q.iter != 0 && !q.fault
  let s := s.onRigs fun q => { q with sv := 0, slot := 0, active := active }
  let s := (s.onCtl fun k => { k with riga := false, pc := p }).onSh fun h => { h with duringRig := [] }
  if q.fault then s.takeTrap .rigx r.record p
  else if active then
    match topBit s.slot.pend with
    | some b => s.takeAsync b p
    | none => s.onCtl fun k => { k with issue := .run }
  else (s.commitTo exit).takePending

/-- The stroke count of a rig that opens: resumed, or from ga (R219). -/
def State.rigCount (s : State) (a : GR) (l : BitVec 5) : Except (Cause × BitVec 64) (BitVec 32) :=
  let q := s.core.regs.rigs
  if q.active ∧ q.last = l then .ok q.iter
  else if s.gp a then .error (.poison, 0)
  else if 2 ^ 32 ≤ (s.gv a).toNat then .error (.bounds, s.gv a)
  else .ok ((s.gv a).setWidth 32)

/-- A rig of n strokes runs (R219). -/
def State.rigRun (s : State) (n : BitVec 32) (l : BitVec 5) (es : List (Nat × RigOp)) : State :=
  let deep := es.foldl (fun d e => max d e.1) 0
  let t := (s.onRigs fun _ => ⟨n, 0, false, true, l, 0⟩).onCtl fun k => { k with riga := true }
  (RigRun.loop ⟨t, [], 0, 0⟩ s.pc deep es (n.toNat + 9)).close s.pc (s.entryAt (l.toNat + 1))

/-- A rig waits at its opening for the bursts of the core's ORDERED transfers to its cluster, so that no load in it overtakes one
of them (R114). -/
def State.rigWaits (s : State) : Bool :=
  s.core.ordering.any fun w => decide (8 * w < farBase) && sameCluster (8 * w / 262144) s.here
/-- `RIG` (R219). -/
def execRig (a : GR) (l : BitVec 5) (s : State) : Host.Outcome State Fault Refusal :=
  match s.rigBody l.toNat with
  | .error (c, v) => .next (s.takeTrap c v s.pc)
  | .ok es =>
    match s.rigCount a l with
    | .error (c, v) => .next (s.takeTrap c v s.pc)
    | .ok n =>
      if n = 0 then .next ((s.onRigs fun _ => Rigs.zero).commitTo (s.entryAt (l.toNat + 1)))
      else if s.rigWaits then .next s.holdIssue
      else .next (s.rigRun n l es)

/-! ## Saving and loading `RIGS` (R222) -/

/-- `RIGSV` (R222). -/
def execRigsv (a : GR) (i : BitVec 16) (s : State) : Host.Outcome State Fault Refusal :=
  s.finish 4 (s.consume a (s.checkedOwn (s.gv a + i.signExtend 64) 8 fun off =>
    .ok (s.store off (leBytes 8 s.core.regs.rigs.word.toNat) false)))

/-- `RIGLD` (R222). -/
def execRigld (a : GR) (i : BitVec 16) (s : State) : Host.Outcome State Fault Refusal :=
  s.finish 4 (s.onlyS (s.consume a (s.checkedOwn (s.gv a + i.signExtend 64) 8 fun off =>
    if s.anyPoison (nodeBase s.here + off) 8 then .trap .poison 0
    else .ok (s.onRigs fun _ => Rigs.ofWord (BitVec.ofNat 64 (s.readNat (nodeBase s.here + off) 8))))))

end Sys2Proof.Machine
end

