-- ==== Sys2Proof/Machine/Window.lean ====
section
/-! DEFINITION. Link failure and repair (R312-R315, R326), the panel control window (R265, R272, R282, R288,
R291, R302, R303, R315, R323, R324, R326, R331), and the HDM window (R330). -/

namespace Sys2Proof.Machine

/-! ## Links (R312-R315, R322) -/

/-- All slices of a substrate link, or all lanes of a panel link (R312, R322). -/
def allSlices (i : Nat) : BitVec 8 := if i < 1920 then 0x0F else 0xFF
/-- A number names a substrate link or a panel link. -/
def isLink (i : Nat) : Bool := decide (i < 1932)
/-- Both ends of a link stand at LIVE sites; of a panel link, its own end, the partner's port being in service (R314). -/
def State.linkLive (s : State) (i : Nat) : Bool :=
  if i < 1920 then
    (s.site (siteOf (linkEnds i).1)).st == .live && (s.site (siteOf (linkEnds i).2)).st == .live
  else (s.site (2 * (i - 1920) + 1)).st == .live && !(s.link i).gone
/-- UP on all slices, DEGRADED on some (R314). -/
def Link.onSlices (l : Link) (i : Nat) (good : BitVec 8) (now : Nat) : Link :=
  { l with slices := good, since := now, st := if good = allSlices i then .up else .degraded }
/-- SLICE_TEST after eight failed replays: slices that fail are shed; with none left, or when the replay fails
still, LINK_DEATH (R313, R314). -/
def Link.sliceTest (l : Link) (i fails : Nat) (good : BitVec 8) (now : Nat) : Link :=
  let left := l.slices &&& good
  let l := { l with shed := min 255 (l.shed + (onesCount l.slices - onesCount left)) }
  if left = 0 ∨ 8 < fails then { l with slices := left, st := .dead, since := now }
  else if left = l.slices then l else l.onSlices i left now
/-- The sites a link joins; none for a panel link. -/
def linkSites (i : Nat) : List Nat := if i < 1920 then [siteOf (linkEnds i).1, siteOf (linkEnds i).2] else []
/-- A link has changed: the triads beside it write the seam entry of its boundary by voted transactions (R25, R345). -/
def State.linkSeen (s : State) (i : Nat) : State := s.voteTiles ((linkSites i).filter s.siteLive)
/-- LINK_REPLAY: a flit has failed a number of times; good names the slices that pass their test. What the
replay buffer holds is sent again: no packet is lost, doubled or reordered (R312, R313, R319, R321). -/
def execLinkReplay (i fails : Nat) (good : BitVec 8) (s : State) : Host.Outcome State Fault Refusal :=
  let now := s.clock.ticks
  .next (if !(isLink i) ∨ !((s.link i).carries) ∨ fails < 8 then s
    else (s.onLink i fun l => l.sliceTest i fails (good &&& allSlices i) now).linkSeen i)
/-- SLICE_RETEST of a DEGRADED link, every 2^20 ticks (R313, R314). -/
def execSliceRetest (i : Nat) (good : BitVec 8) (s : State) : Host.Outcome State Fault Refusal :=
  let l := s.link i
  let now := s.clock.ticks
  .next (if !(isLink i) ∨ l.st ≠ .degraded ∨ now < l.since + 2 ^ 20 then s
    else (s.onLink i fun l => l.onSlices i ((l.slices ||| good) &&& allSlices i) now).linkSeen i)
/-- LINK_RETRAIN of a DEAD link, every 2^24 ticks while both ends are LIVE; a panel link that is DOWN trains
when both ports are ready. A panel link learns its partner (R314, R325, R326). The routes of a retrained substrate link
switch (R320). -/
def execLinkRetrain (i : Nat) (good : BitVec 8) (peer : BitVec 10) (pport : BitVec 4) (hops : Nat) (s : State) :
    Host.Outcome State Fault Refusal :=
  let l := s.link i
  let now := s.clock.ticks
  let due : Bool := match l.st with
    | .dead => decide (l.since + 2 ^ 24 ≤ now)
    | .down => decide (1920 ≤ i)
    | .up | .degraded => false
  let passed : Bool := i < 1920 && (good &&& allSlices i) != 0
  .next (if !(isLink i) ∨ !(s.linkLive i) ∨ !due then s
    else
      let s := s.onLink i fun l =>
        let l := if l.st = .dead then { l with retrain := min 255 (l.retrain + 1), since := now } else l
        let ok := good &&& allSlices i
        if ok = 0 then l
        else
          let l := if i < 1920 then { l with turn := [3, 1, 0, 2] } else { l with peer := peer, pport := pport, hops := hops }
          l.onSlices i ok now
      (if passed then s.releaseQueued else s).linkSeen i)

/-! ## What a host reads in the control window (R331) -/

/-- A field at its lowest bit. -/
def bitsAt {n : Nat} (v : BitVec n) (i : Nat) : Nat := v.toNat * 2 ^ i
/-- Number of a link state (R315). -/
def LinkSt.num : LinkSt → Nat
  | .down => 0 | .up => 1 | .degraded => 2 | .dead => 3
/-- Number of a group state (R272). -/
def GroupSt.num : GroupSt → Nat
  | .unused => 0 | .admitted => 1 | .seeding => 2 | .loading => 3 | .running => 4 | .draining => 5
  | .suspended => 6 | .faulted => 7 | .retired => 8
/-- Number of a queue state (R282). -/
def QueueSt.num : QueueSt → Nat
  | .off => 0 | .active => 1 | .error => 2 | .stopping => 3
/-- Number of a fault record's state (R302). -/
def RecSt.num : RecSt → Nat
  | .free => 0 | .pending => 1 | .resolved => 2 | .failed => 3
/-- The identity dword (R324). -/
def State.identity (s : State) : Nat :=
  (if s.clock.aligned then 2 ^ 42 else 0) + bitsAt s.links.sysnum 32 + 0x1325
/-- An entry of the link status table (R315). -/
def Link.status (l : Link) : Nat :=
  l.retrain % 256 * 2 ^ 24 + l.shed % 256 * 2 ^ 16 + bitsAt (l.slices.setWidth 4) 4 + l.st.num
/-- An entry of the panel-link status table (R326). -/
def Link.panelStatus (l : Link) : Nat :=
  bitsAt l.offset 48 + bitsAt l.peer 28 + bitsAt l.pport 24 + l.retrain % 256 * 2 ^ 16 + bitsAt l.slices 8 + l.st.num
/-- Dwords of a request slot (R265). -/
def Req.word (q : Req) : Nat → Nat
  | 0 => bitsAt q.op 0 + bitsAt q.st 8 + bitsAt q.reason 16
  | 1 => q.handle.toNat
  | 2 => q.addr.toNat
  | 3 => q.size.toNat
  | _ => 0
/-- Dwords of a group table entry (R272). -/
def Group.word (g : Group) : Nat → Nat
  | 0 => bitsAt g.gid 48 + g.col0 % 512 * 2 ^ 39 + g.row0 % 256 * 2 ^ 31 + g.w % 64 * 2 ^ 25 + g.h % 64 * 2 ^ 19
      + g.var % 4 * 2 ^ 17 + g.rst % 16 * 2 ^ 8 + g.st.num
  | _ => bitsAt g.ckpt 32 + g.khandle.toNat
/-- Dwords of a queue descriptor (R282). -/
def Queue.word (u : Queue) : Nat → Nat
  | 0 => u.base.toNat
  | 1 => bitsAt u.dom 16 + bitsAt u.logn 8 + bitsAt u.cls 4 + u.st.num
  | 2 => u.head.toNat
  | _ => u.tail.toNat
/-- Dwords of a fault record (R302). -/
def FaultRec.word (r : FaultRec) : Nat → Nat
  | 0 => bitsAt r.vpage 16
  | _ => bitsAt r.dom 48 + bitsAt r.x 39 + bitsAt r.y 31 + bitsAt r.slot 27 + bitsAt r.src 24
      + (if r.perm then 2 ^ 22 else 0) + r.st.num * 2 ^ 20 + r.tag.toNat
/-- A fault record as a host of a domain sees it (R302). -/
def State.faultWord (s : State) (dom : BitVec 16) (n i j : Nat) : Nat :=
  let r := tget FaultRec.free (s.site n).faults i
  if !(computeSite n) ∨ (dom ≠ 0 ∧ r.dom ≠ dom) then 0 else r.word j
/-- Four 16-bit entries of a table as one dword. -/
def packFour (f : Nat → BitVec 16) (i : Nat) : Nat :=
  bitsAt (f i) 0 + bitsAt (f (i + 1)) 16 + bitsAt (f (i + 2)) 32 + bitsAt (f (i + 3)) 48
/-- The dword at an offset of the window that is a multiple of 8 (R331). -/
def State.windowDword (s : State) (dom : BitVec 16) (o : Nat) : Nat :=
  if o = 0 then s.identity
  else if 0x8000 ≤ o ∧ o < 0x8800 then packFour (fun i => tget 0 s.links.routing i) ((o - 0x8000) / 2)
  else if 0x10000 ≤ o ∧ o < 0x11E00 then
    let i := (o - 0x10000) / 4
    (s.link i).status + (s.link (i + 1)).status * 2 ^ 32
  else if 0x12000 ≤ o ∧ o < 0x12060 then (s.link (1920 + (o - 0x12000) / 8)).panelStatus
  else if o = 0x20000 then s.lead.drawGen.toNat
  else if 0x20008 ≤ o ∧ o < 0x20C88 then packFour s.drawEntry ((o - 0x20008) / 2)
  else if 0x30000 ≤ o ∧ o < 0x30400 then (s.req ((o - 0x30000) / 64)).word (o % 64 / 8)
  else if 0x40000 ≤ o ∧ o < 0x44000 then (s.group ((o - 0x40000) / 16)).word (o % 16 / 8)
  else if 0x50000 ≤ o ∧ o < 0x50800 then (s.queue ((o - 0x50000) / 32)).word (o % 32 / 8)
  else if o = 0x50800 then bitsAt s.lead.budget 16 + s.lead.bound.toNat
  else if 0x60000 ≤ o ∧ o < 0x68000 then (s.signal ((o - 0x60000) / 8)).toNat
  else if o = 0x70000 then s.pages.flim.toNat
  else if o = 0x70008 then s.pages.made.toNat
  else if 0x80000 ≤ o ∧ o < 0xE4000 then s.faultWord dom ((o - 0x80000) / 0x4000) (o % 0x4000 / 16) (o % 16 / 8)
  else 0
/-- An aligned access of 4 or 8 bytes inside the 1 MiB window (R331). -/
def windowSize (o size : Nat) : Bool := (size == 4 || size == 8) && o % size == 0 && decide (o + size ≤ 0x100000)
/-- What a host reads (R331). -/
def State.windowRead (s : State) (dom : BitVec 16) (o size : Nat) : Option (BitVec 64) :=
  if windowSize o size then
    some (BitVec.ofNat 64 (s.windowDword dom (o / 8 * 8) / 2 ^ (8 * (o % 8)) % 2 ^ (8 * size)))
  else none

/-! ## What a host writes (R331) -/

/-- A host's write to one dword of the window: which halves it covers, and the data in their places. -/
structure WinWrite where
  lo : Bool
  hi : Bool
  v  : BitVec 64
  deriving DecidableEq, Repr
/-- The write as it falls on its dword. -/
def winWrite (o size : Nat) (v : BitVec 64) : WinWrite :=
  if size = 8 then ⟨true, true, v⟩
  else if o % 8 = 0 then ⟨true, false, v⟩
  else ⟨false, true, v <<< 32⟩
/-- A dword with the written halves replaced. -/
def WinWrite.merge (w : WinWrite) (old : BitVec 64) : BitVec 64 :=
  (if w.hi then w.v.extractLsb' 32 32 else old.extractLsb' 32 32)
    ++ (if w.lo then w.v.extractLsb' 0 32 else old.extractLsb' 0 32)

/-- One entry of the panel routing table as written: a PORT of 12-15 writes VALID 0 (R323). -/
def routingEntry (v : BitVec 16) : BitVec 16 := if 12 ≤ v.toNat % 16 then v &&& 0x000F else v &&& 0x800F
/-- A write to the panel routing table by a host of domain 0 (R323). -/
def State.writeRouting (s : State) (sys : Nat) (v : BitVec 16) : State :=
  if sys < 1024 then { s with links := { s.links with routing := tset 0 s.links.routing sys (routingEntry v) } } else s
/-- PANEL_ROUTING_WRITE (R323). -/
def execPanelRoutingWrite (dom : BitVec 16) (sys : BitVec 10) (v : BitVec 16) (s : State) :
    Host.Outcome State Fault Refusal :=
  s.byHost fun s => if dom = 0 then s.writeRouting sys.toNat v else s

/-- A write to STATE of a request slot sets the field (R6, R265); the slot keeps the domain that posted it. -/
def Req.setState (q : Req) (dom : BitVec 16) (v : BitVec 8) : Req :=
  { q with st := v, dom := if v = 1 ∧ q.st ≠ 1 then dom else q.dom }
/-- A write to a dword of a request slot: fields other than STATE are ignored while STATE = 1 (R265). -/
def Req.write (q : Req) (dom : BitVec 16) (j : Nat) (w : WinWrite) : Req :=
  let open_ : Bool := q.st != 1
  match j with
  | 0 =>
    if w.lo then (if open_ then { q with op := w.v.extractLsb' 0 8 } else q).setState dom (w.v.extractLsb' 8 8) else q
  | 1 => if open_ then { q with handle := w.merge q.handle } else q
  | 2 => if open_ then { q with addr := w.merge q.addr } else q
  | 3 => if open_ && w.lo then { q with size := w.v.extractLsb' 0 32 } else q
  | _ => q
/-- STATE of a queue written: only 0 and 1 act (R282, R283). -/
def State.writeQueueState (s : State) (q : Nat) (v : BitVec 2) : State :=
  if v = 1 then s.activate q else if v = 0 then s.stopQueue q else s
/-- A write to a dword of a queue descriptor: BASE and LOGN only while OFF (R282). -/
def State.writeQueue (s : State) (q j : Nat) (w : WinWrite) : State :=
  let u := s.queue q
  match j with
  | 0 => if u.st = .off then s.onQueue q fun u => { u with base := w.merge u.base &&& ~~~0x3F } else s
  | 1 =>
    if w.lo then
      (s.onQueue q fun u =>
        { u with logn := if u.st = .off then w.v.extractLsb' 8 4 else u.logn
                 cls := w.v.extractLsb' 4 2 }).writeQueueState q (w.v.extractLsb' 0 2)
    else s
  | 3 => if w.lo then s.ring q (w.v.extractLsb' 0 16) else s
  | _ => s
/-- FLIM from a host of domain 0, 20 to 40 (R303). -/
def State.writeFlim (s : State) (v : BitVec 6) : State :=
  if 20 ≤ v.toNat ∧ v.toNat ≤ 40 then { s with pages := { s.pages with flim := v } } else s
/-- Entries of the routing table in the written halves. -/
def State.writeRoutings (s : State) (i : Nat) (w : WinWrite) : State :=
  let s := if w.lo then (s.writeRouting i (w.v.extractLsb' 0 16)).writeRouting (i + 1) (w.v.extractLsb' 16 16) else s
  if w.hi then (s.writeRouting (i + 2) (w.v.extractLsb' 32 16)).writeRouting (i + 3) (w.v.extractLsb' 48 16) else s
/-- A write to the dword at an offset (R265, R282, R291, R303, R323, R331): what the table does not allocate
and what is RO stays. -/
def State.windowWrite (s : State) (dom : BitVec 16) (o : Nat) (w : WinWrite) : State :=
  if 0x8000 ≤ o ∧ o < 0x8800 then (if dom = 0 then s.writeRoutings ((o - 0x8000) / 2) w else s)
  else if 0x30000 ≤ o ∧ o < 0x30400 then s.onReq ((o - 0x30000) / 64) fun q => q.write dom (o % 64 / 8) w
  else if 0x50000 ≤ o ∧ o < 0x50800 then s.writeQueue ((o - 0x50000) / 32) (o % 32 / 8) w
  else if o = 0x50800 then
    if dom = 0 ∧ w.lo then s.setBound (w.v.extractLsb' 0 4) else s
  else if o = 0x70000 then (if dom = 0 ∧ w.lo then s.writeFlim (w.v.extractLsb' 0 6) else s)
  else s
/-- CONTROL_WINDOW_WRITE: other sizes are unsupported requests and change nothing (R331). -/
def execControlWindowWrite (dom : BitVec 16) (o size : Nat) (v : BitVec 64) (s : State) :
    Host.Outcome State Fault Refusal :=
  s.byHost fun s => if windowSize o size then s.windowWrite dom (o / 8 * 8) (winWrite o size v) else s

/-! ## The HDM window (R330, R341) -/

/-- The bank element and offset of a window byte (R330). -/
def State.hdmPlace (s : State) (w : Nat) : Option (Nat × Nat) :=
  (s.links.window[w / 262144]?).map fun (x, y) => (keyOf x y, w % 262144)
/-- What a read of a place that gives nothing returns: poison over a free value (R330). -/
def State.hdmPoison (s : State) (w size : Nat) : BitVec 64 × Bool :=
  (BitVec.ofNat 64 (leNat ((List.range size).map fun i => Config.poisonByte s.draws (w + i))), true)
/-- A host's read (R330, R341). -/
def State.hdmRead (s : State) (dom : BitVec 16) (k off w size : Nat) : BitVec 64 × Bool :=
  let a := nodeBase k + off
  if !(s.live k) ∨ !(s.granted dom k) then s.hdmPoison w size
  else (BitVec.ofNat 64 (s.readNat a size), s.anyPoison a size)
/-- A host's write to an element that is not LIVE is logged and reported to the host (R330). -/
def State.dropWrite (s : State) (p w : Nat) : State :=
  { s.note (.droppedWrite p w) with links := { s.links with reports := s.links.reports ++ [(p, w)] } }
/-- A line of the window as it stands on the wires of a host port: encrypted under the port's key slot, with bits 51:6 of the
host address as the tweak (R330). -/
def State.hostLine (s : State) (p hpa : Nat) (line : List (BitVec 8)) : List (BitVec 8) :=
  xtsLine (s.keysOf (s.cxl p).key) (hpa / 64 % 2 ^ 46) line
/-- HDM_WINDOW_ACCESS through a host port: no value is a read (R130, R330, R341). -/
def execHdmWindowAccess (p w size : Nat) (v : Option (BitVec 64)) (s : State) : Host.Outcome State Fault Refusal :=
  let c := s.cxl p
  if 24 ≤ p ∨ !c.host ∨ !c.trained ∨ !([1, 2, 4, 8].contains size) ∨ w % size ≠ 0 then .next s
  else
    match s.hdmPlace w, v with
    | none, _ => .next s
    | some (k, off), none => .next { s with links := { s.links with answer := some (s.hdmRead c.dom k off w size) } }
    | some (k, off), some x =>
      .next (if !(s.live k) then s.dropWrite p w
        else if !(s.granted c.dom k) then s
        else s.write k off (leBytes size x.toNat) false)

end Sys2Proof.Machine
end

