-- ==== Sys2Proof/Machine/Dispatch.lean ====
section
/-! DEFINITION. One arm per instruction, operation and event: the meaning each runs. -/

namespace Sys2Proof.Machine

/-- What an instruction does on the selected core, or an operation or event on the panel. -/
def exec (i : Instr) (s : State) : Host.Outcome State Fault Refusal :=
  match i with
  | .add x0 x1 x2 => Sys2Proof.Machine.execAdd x0 x1 x2 s
  | .sub x0 x1 x2 => Sys2Proof.Machine.execSub x0 x1 x2 s
  | .mul x0 x1 x2 => Sys2Proof.Machine.execMul x0 x1 x2 s
  | .mulh x0 x1 x2 => Sys2Proof.Machine.execMulh x0 x1 x2 s
  | .mulhn x0 x1 x2 => Sys2Proof.Machine.execMulhn x0 x1 x2 s
  | .div x0 x1 x2 => Sys2Proof.Machine.execDiv x0 x1 x2 s
  | .divn x0 x1 x2 => Sys2Proof.Machine.execDivn x0 x1 x2 s
  | .rem x0 x1 x2 => Sys2Proof.Machine.execRem x0 x1 x2 s
  | .remn x0 x1 x2 => Sys2Proof.Machine.execRemn x0 x1 x2 s
  | .madd x0 x1 x2 x3 => Sys2Proof.Machine.execMadd x0 x1 x2 x3 s
  | .and x0 x1 x2 => Sys2Proof.Machine.execAnd x0 x1 x2 s
  | .or x0 x1 x2 => Sys2Proof.Machine.execOr x0 x1 x2 s
  | .xor x0 x1 x2 => Sys2Proof.Machine.execXor x0 x1 x2 s
  | .shl x0 x1 x2 => Sys2Proof.Machine.execShl x0 x1 x2 s
  | .shr x0 x1 x2 => Sys2Proof.Machine.execShr x0 x1 x2 s
  | .sra x0 x1 x2 => Sys2Proof.Machine.execSra x0 x1 x2 s
  | .rol x0 x1 x2 => Sys2Proof.Machine.execRol x0 x1 x2 s
  | .clz x0 x1 => Sys2Proof.Machine.execClz x0 x1 s
  | .ctz x0 x1 => Sys2Proof.Machine.execCtz x0 x1 s
  | .popc x0 x1 => Sys2Proof.Machine.execPopc x0 x1 s
  | .min x0 x1 x2 => Sys2Proof.Machine.execMin x0 x1 x2 s
  | .minn x0 x1 x2 => Sys2Proof.Machine.execMinn x0 x1 x2 s
  | .max x0 x1 x2 => Sys2Proof.Machine.execMax x0 x1 x2 s
  | .maxn x0 x1 x2 => Sys2Proof.Machine.execMaxn x0 x1 x2 s
  | .cmpeq x0 x1 x2 => Sys2Proof.Machine.execCmpeq x0 x1 x2 s
  | .cmplt x0 x1 x2 => Sys2Proof.Machine.execCmplt x0 x1 x2 s
  | .cmpltn x0 x1 x2 => Sys2Proof.Machine.execCmpltn x0 x1 x2 s
  | .cmple x0 x1 x2 => Sys2Proof.Machine.execCmple x0 x1 x2 s
  | .cmplen x0 x1 x2 => Sys2Proof.Machine.execCmplen x0 x1 x2 s
  | .sel x0 x1 x2 x3 => Sys2Proof.Machine.execSel x0 x1 x2 x3 s
  | .sext x0 x1 x2 => Sys2Proof.Machine.execSext x0 x1 x2 s
  | .zext x0 x1 x2 => Sys2Proof.Machine.execZext x0 x1 x2 s
  | .addi x0 x1 x2 => Sys2Proof.Machine.execAddi x0 x1 x2 s
  | .andi x0 x1 x2 => Sys2Proof.Machine.execAndi x0 x1 x2 s
  | .ori x0 x1 x2 => Sys2Proof.Machine.execOri x0 x1 x2 s
  | .xori x0 x1 x2 => Sys2Proof.Machine.execXori x0 x1 x2 s
  | .shli x0 x1 x2 => Sys2Proof.Machine.execShli x0 x1 x2 s
  | .shri x0 x1 x2 => Sys2Proof.Machine.execShri x0 x1 x2 s
  | .srai x0 x1 x2 => Sys2Proof.Machine.execSrai x0 x1 x2 s
  | .bfx x0 x1 x2 x3 => Sys2Proof.Machine.execBfx x0 x1 x2 x3 s
  | .bfi x0 x1 x2 x3 => Sys2Proof.Machine.execBfi x0 x1 x2 x3 s
  | .liShort x0 x1 => Sys2Proof.Machine.execLiShort x0 x1 s
  | .addpc x0 x1 => Sys2Proof.Machine.execAddpc x0 x1 s
  | .mkaAbs x0 x1 x2 => Sys2Proof.Machine.execMkaAbs x0 x1 x2 s
  | .mkaGrp x0 x1 x2 => Sys2Proof.Machine.execMkaGrp x0 x1 x2 s
  | .mkaCore x0 x1 x2 => Sys2Proof.Machine.execMkaCore x0 x1 x2 s
  | .tlook x0 x1 => Sys2Proof.Machine.execTlook x0 x1 s
  | .tset x0 x1 x2 => Sys2Proof.Machine.execTset x0 x1 x2 s
  | .tclr x0 => Sys2Proof.Machine.execTclr x0 s
  | .beq x0 x1 x2 => Sys2Proof.Machine.execBeq x0 x1 x2 s
  | .bne x0 x1 x2 => Sys2Proof.Machine.execBne x0 x1 x2 s
  | .blt x0 x1 x2 => Sys2Proof.Machine.execBlt x0 x1 x2 s
  | .bge x0 x1 x2 => Sys2Proof.Machine.execBge x0 x1 x2 s
  | .bltn x0 x1 x2 => Sys2Proof.Machine.execBltn x0 x1 x2 s
  | .bgen x0 x1 x2 => Sys2Proof.Machine.execBgen x0 x1 x2 s
  | .jmp x0 => Sys2Proof.Machine.execJmp x0 s
  | .jal x0 x1 => Sys2Proof.Machine.execJal x0 x1 s
  | .jalr x0 x1 x2 => Sys2Proof.Machine.execJalr x0 x1 x2 s
  | .ld x0 x1 x2 x3 => Sys2Proof.Machine.execLd x0 x1 x2 x3 s
  | .st x0 x1 x2 x3 => Sys2Proof.Machine.execSt x0 x1 x2 x3 s
  | .ldm x0 x1 x2 x3 => Sys2Proof.Machine.execLdm x0 x1 x2 x3 s
  | .stm x0 x1 x2 x3 => Sys2Proof.Machine.execStm x0 x1 x2 x3 s
  | .crrd x0 x1 => Sys2Proof.Machine.execCrrd x0 x1 s
  | .crrdSeamt x0 x1 => Sys2Proof.Machine.execCrrdSeamt x0 x1 s
  | .crwr x0 x1 => Sys2Proof.Machine.execCrwr x0 x1 s
  | .crwrFpcr x0 => Sys2Proof.Machine.execCrwrFpcr x0 s
  | .crwrTid x0 => Sys2Proof.Machine.execCrwrTid x0 s
  | .crwrTcmp x0 => Sys2Proof.Machine.execCrwrTcmp x0 s
  | .crwrPrio x0 => Sys2Proof.Machine.execCrwrPrio x0 s
  | .crwrTstat x0 => Sys2Proof.Machine.execCrwrTstat x0 s
  | .crwrRigs x0 => Sys2Proof.Machine.execCrwrRigs x0 s
  | .crwrSscr x0 => Sys2Proof.Machine.execCrwrSscr x0 s
  | .fadd x0 x1 x2 x3 => Sys2Proof.Machine.execFadd x0 x1 x2 x3 s
  | .fsub x0 x1 x2 x3 => Sys2Proof.Machine.execFsub x0 x1 x2 x3 s
  | .fmul x0 x1 x2 x3 => Sys2Proof.Machine.execFmul x0 x1 x2 x3 s
  | .ffma x0 x1 x2 x3 x4 => Sys2Proof.Machine.execFfma x0 x1 x2 x3 x4 s
  | .fdiv x0 x1 x2 x3 => Sys2Proof.Machine.execFdiv x0 x1 x2 x3 s
  | .fsqrt x0 x1 x2 => Sys2Proof.Machine.execFsqrt x0 x1 x2 s
  | .fmin x0 x1 x2 x3 => Sys2Proof.Machine.execFmin x0 x1 x2 x3 s
  | .fmax x0 x1 x2 x3 => Sys2Proof.Machine.execFmax x0 x1 x2 x3 s
  | .fcmpeq x0 x1 x2 x3 => Sys2Proof.Machine.execFcmpeq x0 x1 x2 x3 s
  | .fcmplt x0 x1 x2 x3 => Sys2Proof.Machine.execFcmplt x0 x1 x2 x3 s
  | .fcmple x0 x1 x2 x3 => Sys2Proof.Machine.execFcmple x0 x1 x2 x3 s
  | .fclass x0 x1 x2 => Sys2Proof.Machine.execFclass x0 x1 x2 s
  | .fcvt x0 x1 x2 x3 x4 => Sys2Proof.Machine.execFcvt x0 x1 x2 x3 x4 s
  | .vmov x0 x1 x2 x3 => Sys2Proof.Machine.execVmov x0 x1 x2 x3 s
  | .vadd x0 x1 x2 x3 x4 => Sys2Proof.Machine.execVadd x0 x1 x2 x3 x4 s
  | .vsub x0 x1 x2 x3 x4 => Sys2Proof.Machine.execVsub x0 x1 x2 x3 x4 s
  | .vmul x0 x1 x2 x3 x4 => Sys2Proof.Machine.execVmul x0 x1 x2 x3 x4 s
  | .vfma x0 x1 x2 x3 x4 => Sys2Proof.Machine.execVfma x0 x1 x2 x3 x4 s
  | .vmin x0 x1 x2 x3 x4 => Sys2Proof.Machine.execVmin x0 x1 x2 x3 x4 s
  | .vmax x0 x1 x2 x3 x4 => Sys2Proof.Machine.execVmax x0 x1 x2 x3 x4 s
  | .vabs x0 x1 x2 x3 => Sys2Proof.Machine.execVabs x0 x1 x2 x3 s
  | .vneg x0 x1 x2 x3 => Sys2Proof.Machine.execVneg x0 x1 x2 x3 s
  | .vand x0 x1 x2 x3 x4 => Sys2Proof.Machine.execVand x0 x1 x2 x3 x4 s
  | .vor x0 x1 x2 x3 x4 => Sys2Proof.Machine.execVor x0 x1 x2 x3 x4 s
  | .vxor x0 x1 x2 x3 x4 => Sys2Proof.Machine.execVxor x0 x1 x2 x3 x4 s
  | .vshl x0 x1 x2 x3 x4 => Sys2Proof.Machine.execVshl x0 x1 x2 x3 x4 s
  | .vshr x0 x1 x2 x3 x4 => Sys2Proof.Machine.execVshr x0 x1 x2 x3 x4 s
  | .vsra x0 x1 x2 x3 x4 => Sys2Proof.Machine.execVsra x0 x1 x2 x3 x4 s
  | .vsel x0 x1 x2 x3 x4 => Sys2Proof.Machine.execVsel x0 x1 x2 x3 x4 s
  | .vcmpEq x0 x1 x2 x3 x4 => Sys2Proof.Machine.execVcmpEq x0 x1 x2 x3 x4 s
  | .vcmpNe x0 x1 x2 x3 x4 => Sys2Proof.Machine.execVcmpNe x0 x1 x2 x3 x4 s
  | .vcmpLt x0 x1 x2 x3 x4 => Sys2Proof.Machine.execVcmpLt x0 x1 x2 x3 x4 s
  | .vcmpLe x0 x1 x2 x3 x4 => Sys2Proof.Machine.execVcmpLe x0 x1 x2 x3 x4 s
  | .vcmpGt x0 x1 x2 x3 x4 => Sys2Proof.Machine.execVcmpGt x0 x1 x2 x3 x4 s
  | .vcmpGe x0 x1 x2 x3 x4 => Sys2Proof.Machine.execVcmpGe x0 x1 x2 x3 x4 s
  | .vredAdd x0 x1 x2 x3 => Sys2Proof.Machine.execVredAdd x0 x1 x2 x3 s
  | .vredMin x0 x1 x2 x3 => Sys2Proof.Machine.execVredMin x0 x1 x2 x3 s
  | .vredMax x0 x1 x2 x3 => Sys2Proof.Machine.execVredMax x0 x1 x2 x3 s
  | .vredOr x0 x1 x2 x3 => Sys2Proof.Machine.execVredOr x0 x1 x2 x3 s
  | .vperm x0 x1 x2 x3 x4 => Sys2Proof.Machine.execVperm x0 x1 x2 x3 x4 s
  | .vldBody x0 x1 x2 => Sys2Proof.Machine.execVldBody x0 x1 x2 s
  | .vldSide x0 x1 x2 => Sys2Proof.Machine.execVldSide x0 x1 x2 s
  | .vldMask x0 x1 x2 => Sys2Proof.Machine.execVldMask x0 x1 x2 s
  | .vstBody x0 x1 x2 => Sys2Proof.Machine.execVstBody x0 x1 x2 s
  | .vstSide x0 x1 x2 => Sys2Proof.Machine.execVstSide x0 x1 x2 s
  | .vstMask x0 x1 x2 => Sys2Proof.Machine.execVstMask x0 x1 x2 s
  | .vlds x0 x1 x2 x3 x4 => Sys2Proof.Machine.execVlds x0 x1 x2 x3 x4 s
  | .vsts x0 x1 x2 x3 x4 => Sys2Proof.Machine.execVsts x0 x1 x2 x3 x4 s
  | .vgath x0 x1 x2 x3 x4 => Sys2Proof.Machine.execVgath x0 x1 x2 x3 x4 s
  | .vscat x0 x1 x2 x3 x4 => Sys2Proof.Machine.execVscat x0 x1 x2 x3 x4 s
  | .vbcast x0 x1 x2 x3 => Sys2Proof.Machine.execVbcast x0 x1 x2 x3 s
  | .vins x0 x1 x2 x3 => Sys2Proof.Machine.execVins x0 x1 x2 x3 s
  | .vext x0 x1 x2 x3 => Sys2Proof.Machine.execVext x0 x1 x2 x3 s
  | .mand x0 x1 x2 => Sys2Proof.Machine.execMand x0 x1 x2 s
  | .mor x0 x1 x2 => Sys2Proof.Machine.execMor x0 x1 x2 s
  | .mxor x0 x1 x2 => Sys2Proof.Machine.execMxor x0 x1 x2 s
  | .mnot x0 x1 => Sys2Proof.Machine.execMnot x0 x1 s
  | .mpop x0 x1 => Sys2Proof.Machine.execMpop x0 x1 s
  | .mfirst x0 x1 => Sys2Proof.Machine.execMfirst x0 x1 s
  | .vcvt x0 x1 x2 x3 x4 => Sys2Proof.Machine.execVcvt x0 x1 x2 x3 x4 s
  | .vpackbk x0 x1 x2 x3 => Sys2Proof.Machine.execVpackbk x0 x1 x2 x3 s
  | .vunbk x0 x1 x2 x3 x4 => Sys2Proof.Machine.execVunbk x0 x1 x2 x3 x4 s
  | .vscale x0 x1 x2 x3 => Sys2Proof.Machine.execVscale x0 x1 x2 x3 s
  | .vexp2 x0 x1 x2 => Sys2Proof.Machine.execVexp2 x0 x1 x2 s
  | .vlog2 x0 x1 x2 => Sys2Proof.Machine.execVlog2 x0 x1 x2 s
  | .vrcpa x0 x1 x2 => Sys2Proof.Machine.execVrcpa x0 x1 x2 s
  | .vrsqa x0 x1 x2 => Sys2Proof.Machine.execVrsqa x0 x1 x2 s
  | .mma x0 x1 x2 x3 x4 => Sys2Proof.Machine.execMma x0 x1 x2 x3 x4 s
  | .mmas x0 x1 x2 x3 => Sys2Proof.Machine.execMmas x0 x1 x2 x3 s
  | .mafd x0 => Sys2Proof.Machine.execMafd x0 s
  | .mbfd x0 => Sys2Proof.Machine.execMbfd x0 s
  | .accz x0 => Sys2Proof.Machine.execAccz x0 s
  | .accld x0 x1 x2 x3 => Sys2Proof.Machine.execAccld x0 x1 x2 x3 s
  | .accst x0 x1 x2 x3 => Sys2Proof.Machine.execAccst x0 x1 x2 x3 s
  | .accrn x0 x1 => Sys2Proof.Machine.execAccrn x0 x1 s
  | .accsc x0 x1 x2 => Sys2Proof.Machine.execAccsc x0 x1 x2 s
  | .wait x0 x1 => Sys2Proof.Machine.execWait x0 x1 s
  | .rig x0 x1 => Sys2Proof.Machine.execRig x0 x1 s
  | .rigsv x0 x1 => Sys2Proof.Machine.execRigsv x0 x1 s
  | .rigld x0 x1 => Sys2Proof.Machine.execRigld x0 x1 s
  | .nop => Sys2Proof.Machine.execNop s
  | .recv x0 x1 x2 => Sys2Proof.Machine.execRecv x0 x1 x2 s
  | .recvv x0 x1 x2 => Sys2Proof.Machine.execRecvv x0 x1 x2 s
  | .peek x0 x1 => Sys2Proof.Machine.execPeek x0 x1 s
  | .seatset x0 x1 x2 x3 => Sys2Proof.Machine.execSeatset x0 x1 x2 x3 s
  | .seatclr x0 x1 => Sys2Proof.Machine.execSeatclr x0 x1 s
  | .join x0 x1 => Sys2Proof.Machine.execJoin x0 x1 s
  | .sopen x0 x1 x2 x3 => Sys2Proof.Machine.execSopen x0 x1 x2 x3 s
  | .sctlClose x0 x1 => Sys2Proof.Machine.execSctlClose x0 x1 s
  | .sctlAbort x0 x1 => Sys2Proof.Machine.execSctlAbort x0 x1 s
  | .sctlAdvance x0 x1 => Sys2Proof.Machine.execSctlAdvance x0 x1 s
  | .swait x0 x1 => Sys2Proof.Machine.execSwait x0 x1 s
  | .fwait x0 x1 => Sys2Proof.Machine.execFwait x0 x1 s
  | .fence x0 => Sys2Proof.Machine.execFence x0 s
  | .watch x0 x1 => Sys2Proof.Machine.execWatch x0 x1 s
  | .sleep x0 => Sys2Proof.Machine.execSleep x0 s
  | .yield => Sys2Proof.Machine.execYield s
  | .wake x0 x1 => Sys2Proof.Machine.execWake x0 x1 s
  | .tqpush x0 x1 x2 => Sys2Proof.Machine.execTqpush x0 x1 x2 s
  | .tqpop x0 => Sys2Proof.Machine.execTqpop x0 s
  | .barr x0 x1 => Sys2Proof.Machine.execBarr x0 x1 s
  | .bwait x0 x1 => Sys2Proof.Machine.execBwait x0 x1 s
  | .siteq x0 x1 => Sys2Proof.Machine.execSiteq x0 x1 s
  | .coxcallPoisoned x0 x1 x2 => Sys2Proof.Machine.execCoxcallPoisoned x0 x1 x2 s
  | .coxcallLog x0 x1 x2 x3 => Sys2Proof.Machine.execCoxcallLog x0 x1 x2 x3 s
  | .coxcallCheckpoint x0 x1 x2 => Sys2Proof.Machine.execCoxcallCheckpoint x0 x1 x2 s
  | .sret => Sys2Proof.Machine.execSret s
  | .halt => Sys2Proof.Machine.execHalt s
  | .haltSlot x0 => Sys2Proof.Machine.execHaltSlot x0 s
  | .trap x0 => Sys2Proof.Machine.execTrap x0 s
  | .liLong x0 x1 => Sys2Proof.Machine.execLiLong x0 x1 s
  | .liHi x0 x1 => Sys2Proof.Machine.execLiHi x0 x1 s
  | .send x0 x1 x2 x3 x4 x5 => Sys2Proof.Machine.execSend x0 x1 x2 x3 x4 x5 s
  | .sendv x0 x1 x2 x3 x4 x5 => Sys2Proof.Machine.execSendv x0 x1 x2 x3 x4 x5 s
  | .sendr x0 x1 x2 x3 x4 x5 x6 => Sys2Proof.Machine.execSendr x0 x1 x2 x3 x4 x5 x6 s
  | .finish x0 x1 x2 x3 x4 => Sys2Proof.Machine.execFinish x0 x1 x2 x3 x4 s
  | .renorm x0 x1 x2 x3 x4 => Sys2Proof.Machine.execRenorm x0 x1 x2 x3 x4 s
  | .amo x0 x1 x2 x3 x4 => Sys2Proof.Machine.execAmo x0 x1 x2 x3 x4 s
  | .cas x0 x1 x2 x3 x4 => Sys2Proof.Machine.execCas x0 x1 x2 x3 x4 s
  | .asyncTrapEntry => Sys2Proof.Machine.execAsyncTrapEntry s
  | .timerExpiry x0 => Sys2Proof.Machine.execTimerExpiry x0 s
  | .idleIssueResume x0 => Sys2Proof.Machine.execIdleIssueResume x0 s
  | .clusterPortAccess => Sys2Proof.Machine.execClusterPortAccess s
  | .mmaExecute => Sys2Proof.Machine.execMmaExecute s
  | .mmasExecute => Sys2Proof.Machine.execMmasExecute s
  | .acczPerform => Sys2Proof.Machine.execAcczPerform s
  | .accrnPerform => Sys2Proof.Machine.execAccrnPerform s
  | .accldPerform => Sys2Proof.Machine.execAccldPerform s
  | .accstPerform => Sys2Proof.Machine.execAccstPerform s
  | .streamLegStart x0 => Sys2Proof.Machine.execStreamLegStart x0 s
  | .streamCompletion x0 => Sys2Proof.Machine.execStreamCompletion x0 s
  | .legRewind x0 => Sys2Proof.Machine.execLegRewind x0 s
  | .illegalInstruction x0 => Sys2Proof.Machine.execIllegalInstruction x0 s
  | .poisonedFetch => Sys2Proof.Machine.execPoisonedFetch s
  | .dataArrival x0 => Sys2Proof.Machine.execDataArrival x0 s
  | .finishArrival x0 => Sys2Proof.Machine.execFinishArrival x0 s
  | .replyArrival x0 => Sys2Proof.Machine.execReplyArrival x0 s
  | .finishResend x0 => Sys2Proof.Machine.execFinishResend x0 s
  | .treeBlockDelivery x0 => Sys2Proof.Machine.execTreeBlockDelivery x0 s
  | .renormFromParent x0 => Sys2Proof.Machine.execRenormFromParent x0 s
  | .treeFinishForward x0 x1 x2 x3 => Sys2Proof.Machine.execTreeFinishForward x0 x1 x2 x3 s
  | .rootFlagWrite x0 x1 x2 x3 => Sys2Proof.Machine.execRootFlagWrite x0 x1 x2 x3 s
  | .barrierArrival x0 => Sys2Proof.Machine.execBarrierArrival x0 s
  | .barrierRelease x0 => Sys2Proof.Machine.execBarrierRelease x0 s
  | .homeAtomic x0 => Sys2Proof.Machine.execHomeAtomic x0 s
  | .atomicResend => Sys2Proof.Machine.execAtomicResend s
  | .atomicBusyResend => Sys2Proof.Machine.execAtomicBusyResend s
  | .lowAcknowledgement x0 => Sys2Proof.Machine.execLowAcknowledgement x0 s
  | .proxyAtomic x0 x1 => Sys2Proof.Machine.execProxyAtomic x0 x1 s
  | .watchRequest x0 => Sys2Proof.Machine.execWatchRequest x0 s
  | .watchWakeArrival x0 => Sys2Proof.Machine.execWatchWakeArrival x0 s
  | .wakeArrival x0 => Sys2Proof.Machine.execWakeArrival x0 s
  | .deadlockProbe x0 x1 => Sys2Proof.Machine.execDeadlockProbe x0 x1 s
  | .watchdogExpiry x0 => Sys2Proof.Machine.execWatchdogExpiry x0 s
  | .scrubVisit x0 x1 x2 => Sys2Proof.Machine.execScrubVisit x0 x1 x2 s
  | .revisit x0 x1 x2 => Sys2Proof.Machine.execRevisit x0 x1 x2 s
  | .bucketLeak x0 => Sys2Proof.Machine.execBucketLeak x0 s
  | .umpireInterval x0 x1 => Sys2Proof.Machine.execUmpireInterval x0 x1 s
  | .operatingPointChange x0 => Sys2Proof.Machine.execOperatingPointChange x0 s
  | .thermalCapStep x0 x1 => Sys2Proof.Machine.execThermalCapStep x0 x1 s
  | .phaseLoss x0 x1 => Sys2Proof.Machine.execPhaseLoss x0 x1 s
  | .governorTrimRaise x0 => Sys2Proof.Machine.execGovernorTrimRaise x0 s
  | .rampSample x0 x1 => Sys2Proof.Machine.execRampSample x0 x1 s
  | .paddleCreation x0 => Sys2Proof.Machine.execPaddleCreation x0 s
  | .ptpTimestamp x0 x1 => Sys2Proof.Machine.execPtpTimestamp x0 x1 s
  | .monitorRead x0 x1 x2 x3 => Sys2Proof.Machine.execMonitorRead x0 x1 x2 x3 s
  | .alignmentRemeasure x0 x1 => Sys2Proof.Machine.execAlignmentRemeasure x0 x1 s
  | .counterExchange x0 x1 x2 x3 x4 x5 => Sys2Proof.Machine.execCounterExchange x0 x1 x2 x3 x4 x5 s
  | .linkReplay x0 x1 x2 => Sys2Proof.Machine.execLinkReplay x0 x1 x2 s
  | .sliceRetest x0 x1 => Sys2Proof.Machine.execSliceRetest x0 x1 s
  | .linkRetrain x0 x1 x2 x3 x4 => Sys2Proof.Machine.execLinkRetrain x0 x1 x2 x3 x4 s
  | .routeSwitch x0 x1 => Sys2Proof.Machine.execRouteSwitch x0 x1 s
  | .contactMade x0 x1 => Sys2Proof.Machine.execContactMade x0 x1 s
  | .bringUpStart x0 x1 => Sys2Proof.Machine.execBringUpStart x0 x1 s
  | .trainingPass x0 => Sys2Proof.Machine.execTrainingPass x0 s
  | .trainingFailure x0 => Sys2Proof.Machine.execTrainingFailure x0 s
  | .siteAdmission x0 => Sys2Proof.Machine.execSiteAdmission x0 s
  | .drain x0 => Sys2Proof.Machine.execDrain x0 s
  | .readmit x0 => Sys2Proof.Machine.execReadmit x0 s
  | .contactLost x0 => Sys2Proof.Machine.execContactLost x0 s
  | .surpriseRemoval x0 => Sys2Proof.Machine.execSurpriseRemoval x0 s
  | .lostCleanupComplete x0 => Sys2Proof.Machine.execLostCleanupComplete x0 s
  | .drainComplete x0 => Sys2Proof.Machine.execDrainComplete x0 s
  | .drainDeadline x0 => Sys2Proof.Machine.execDrainDeadline x0 s
  | .votedTransaction x0 x1 => Sys2Proof.Machine.execVotedTransaction x0 x1 s
  | .copyReset x0 x1 => Sys2Proof.Machine.execCopyReset x0 x1 s
  | .triadCheckpoint x0 x1 x2 => Sys2Proof.Machine.execTriadCheckpoint x0 x1 x2 s
  | .heartbeat x0 => Sys2Proof.Machine.execHeartbeat x0 s
  | .deputyTakeover => Sys2Proof.Machine.execDeputyTakeover s
  | .panelBringUp x0 => Sys2Proof.Machine.execPanelBringUp x0 s
  | .quoteRequest x0 => Sys2Proof.Machine.execQuoteRequest x0 s
  | .keyEnrolment x0 x1 x2 => Sys2Proof.Machine.execKeyEnrolment x0 x1 x2 s
  | .keyRevocation x0 x1 x2 => Sys2Proof.Machine.execKeyRevocation x0 x1 x2 s
  | .register x0 => Sys2Proof.Machine.execRegister x0 s
  | .reside x0 => Sys2Proof.Machine.execReside x0 s
  | .evict x0 => Sys2Proof.Machine.execEvict x0 s
  | .retire x0 => Sys2Proof.Machine.execRetire x0 s
  | .queueActivate x0 x1 => Sys2Proof.Machine.execQueueActivate x0 x1 s
  | .queueStop x0 x1 => Sys2Proof.Machine.execQueueStop x0 x1 s
  | .doorbell x0 x1 x2 => Sys2Proof.Machine.execDoorbell x0 x1 x2 s
  | .commandFetch x0 => Sys2Proof.Machine.execCommandFetch x0 s
  | .launch x0 => Sys2Proof.Machine.execLaunch x0 s
  | .copy x0 x1 => Sys2Proof.Machine.execCopy x0 x1 s
  | .signalSet x0 => Sys2Proof.Machine.execSignalSet x0 s
  | .signalAdd x0 => Sys2Proof.Machine.execSignalAdd x0 s
  | .waitsig x0 => Sys2Proof.Machine.execWaitsig x0 s
  | .queueFence x0 => Sys2Proof.Machine.execQueueFence x0 s
  | .powerBudget x0 => Sys2Proof.Machine.execPowerBudget x0 s
  | .powerRamp x0 => Sys2Proof.Machine.execPowerRamp x0 s
  | .powerSuspend x0 => Sys2Proof.Machine.execPowerSuspend x0 s
  | .powerResume x0 => Sys2Proof.Machine.execPowerResume x0 s
  | .pageMap x0 => Sys2Proof.Machine.execPageMap x0 s
  | .pageUnmap x0 => Sys2Proof.Machine.execPageUnmap x0 s
  | .pageMigrate x0 x1 => Sys2Proof.Machine.execPageMigrate x0 x1 s
  | .admissionPass => Sys2Proof.Machine.execAdmissionPass s
  | .panelRoutingWrite x0 x1 x2 => Sys2Proof.Machine.execPanelRoutingWrite x0 x1 x2 s
  | .controlWindowWrite x0 x1 x2 x3 => Sys2Proof.Machine.execControlWindowWrite x0 x1 x2 x3 s
  | .hdmWindowAccess x0 x1 x2 x3 => Sys2Proof.Machine.execHdmWindowAccess x0 x1 x2 x3 s
  | .placement x0 => Sys2Proof.Machine.execPlacement x0 s
  | .groupStart x0 => Sys2Proof.Machine.execGroupStart x0 s
  | .groupRetirement x0 => Sys2Proof.Machine.execGroupRetirement x0 s
  | .cutComplete x0 => Sys2Proof.Machine.execCutComplete x0 s
  | .cutDeadline x0 => Sys2Proof.Machine.execCutDeadline x0 s
  | .relaunch x0 => Sys2Proof.Machine.execRelaunch x0 s
  | .refusalRetry => Sys2Proof.Machine.execRefusalRetry s
  | .faultLimit x0 x1 => Sys2Proof.Machine.execFaultLimit x0 x1 s
  | .routerFailure x0 => Sys2Proof.Machine.execRouterFailure x0 s
  | .cxlLinkTrainingChange x0 x1 => Sys2Proof.Machine.execCxlLinkTrainingChange x0 x1 s
  | .domainCreation x0 => Sys2Proof.Machine.execDomainCreation x0 s
  | .peerPanelAdmission x0 => Sys2Proof.Machine.execPeerPanelAdmission x0 s
  | .peerPanelGroupFault x0 x1 => Sys2Proof.Machine.execPeerPanelGroupFault x0 x1 s
  | .silentCopyTimeout x0 => Sys2Proof.Machine.execSilentCopyTimeout x0 s

end Sys2Proof.Machine
end

