-- ==== Sys2Proof/Machine/Named.lean ====
section
/-! DEFINITION. The registers an instruction names: those that do not name the register of a cluster-direct read may go before it
(R115). -/

namespace Sys2Proof.Machine

/-- General and vector registers an instruction names, of those that order no earlier access of the context: all but the fences,
releases and acquires, the rigs, the control registers of a context, and what gives up the core, waits or asks another agent (R115,
R118-R121, R219). -/
def Instr.names (i : Instr) : Option (List GR × List VR) :=
  match i with
  | .add d a b | .sub d a b | .mul d a b | .mulh d a b | .mulhn d a b | .div d a b | .divn d a b | .rem d a b
  | .remn d a b => some ([d, a, b], [])
  | .madd d a b c => some ([d, a, b, c], [])
  | .and d a b | .or d a b | .xor d a b | .shl d a b | .shr d a b | .sra d a b | .rol d a b => some ([d, a, b], [])
  | .clz d a | .ctz d a | .popc d a => some ([d, a], [])
  | .min d a b | .minn d a b | .max d a b | .maxn d a b | .cmpeq d a b | .cmplt d a b | .cmpltn d a b | .cmple d a b
  | .cmplen d a b => some ([d, a, b], [])
  | .sel d a b c => some ([d, a, b, c], [])
  | .sext d a _ | .zext d a _ | .addi d a _ | .andi d a _ | .ori d a _ | .xori d a _ | .shli d a _ | .shri d a _
  | .srai d a _ | .bfx d a _ _ | .bfi d a _ _ => some ([d, a], [])
  | .liShort d _ | .addpc d _ => some ([d], [])
  | .mkaAbs d b c | .mkaGrp d b c | .mkaCore d b c => some ([d, b, c], [])
  | .tlook d a => some ([d, a], [])
  | .tset d a b => some ([d, a, b], [])
  | .tclr a => some ([a], [])
  | .beq a b _ | .bne a b _ | .blt a b _ | .bge a b _ | .bltn a b _ | .bgen a b _ => some ([a, b], [])
  | .jmp _ => some ([], [])
  | .jal l _ => some ([l], [])
  | .jalr d a _ => some ([d, a], [])
  | .ld t a _ _ | .st t a _ _ => some ([t, a], [])
  | .ldm t a l _ => some (a :: (regRange t.toNat (l.toNat + 1 - t.toNat)).map (BitVec.ofNat 5), [])
  | .stm t a l _ => some (a :: (regRange t.toNat (l.toNat + 1 - t.toNat)).map (BitVec.ofNat 5), [])
  | .crrd d _ => some ([d], [])
  | .crrdSeamt d a => some ([d, a], [])
  | .crwrFpcr a => some ([a], [])
  | .fadd d a b _ | .fsub d a b _ | .fmul d a b _ => some ([d, a, b], [])
  | .ffma d a b c _ => some ([d, a, b, c], [])
  | .fdiv d a b _ => some ([d, a, b], [])
  | .fsqrt d a _ => some ([d, a], [])
  | .fmin d a b _ | .fmax d a b _ | .fcmpeq d a b _ | .fcmplt d a b _ | .fcmple d a b _ => some ([d, a, b], [])
  | .fclass d a _ | .fcvt d a _ _ _ => some ([d, a], [])
  | .vmov d a _ _ => some ([], [d, a])
  | .vadd d a b _ _ | .vsub d a b _ _ | .vmul d a b _ _ | .vfma d a b _ _ | .vmin d a b _ _ | .vmax d a b _ _
    => some ([], [d, a, b])
  | .vabs d a _ _ | .vneg d a _ _ => some ([], [d, a])
  | .vand d a b _ _ | .vor d a b _ _ | .vxor d a b _ _ | .vshl d a b _ _ | .vshr d a b _ _ | .vsra d a b _ _
  | .vsel d a b _ _ => some ([], [d, a, b])
  | .vcmpEq _ a b _ _ | .vcmpNe _ a b _ _ | .vcmpLt _ a b _ _ | .vcmpLe _ a b _ _ | .vcmpGt _ a b _ _
  | .vcmpGe _ a b _ _ => some ([], [a, b])
  | .vredAdd d a _ _ | .vredMin d a _ _ | .vredMax d a _ _ | .vredOr d a _ _ => some ([], [d, a])
  | .vperm d a b _ _ => some ([], [d, a, b])
  | .vldBody v a _ | .vldSide v a _ => some ([a], [v])
  | .vldMask _ a _ => some ([a], [])
  | .vstBody v a _ | .vstSide v a _ => some ([a], [v])
  | .vstMask _ a _ => some ([a], [])
  | .vlds v a b _ _ | .vsts v a b _ _ => some ([a, b], [v])
  | .vgath v a i _ _ | .vscat v a i _ _ => some ([a], [v, i])
  | .vbcast v a _ _ => some ([a], [v])
  | .vins v a b _ | .vext v a b _ => some ([a, b], [v])
  | .mand _ _ _ | .mor _ _ _ | .mxor _ _ _ | .mnot _ _ => some ([], [])
  | .mpop d _ | .mfirst d _ => some ([d], [])
  | .vcvt d a _ _ _ => some ([], [d, a])
  | .vpackbk d a b _ => some ([], [d, a, b])
  | .vunbk d a _ _ _ => some ([], [d, a])
  | .vscale d a b _ => some ([], [d, a, b])
  | .vexp2 d a _ | .vlog2 d a _ | .vrcpa d a _ | .vrsqa d a _ => some ([], [d, a])
  | .mma _ a b _ _ | .mmas _ a b _ => some ([a, b], [])
  | .mafd a | .mbfd a => some ([a], [])
  | .accz _ => some ([], [])
  | .accld _ a _ _ | .accst _ a _ _ | .accrn _ a => some ([a], [])
  | .accsc _ d b => some ([d, b], [])
  | .nop => some ([], [])
  | .liLong d _ | .liHi d _ => some ([d], [])
  | .send d a b c _ _ => some ([d, a, b, c], [])
  | .sendv d a b c _ _ => some ([d, a, c], [b])
  | .amo d a b _ _ => some ([d, a, b], [])
  | .cas d a b c _ => some ([d, a, b, c], [])
  | _ => none

/-- A late read writes a register an instruction names, or the instruction orders every earlier access (R115). -/
def Late.namedBy (i : Instr) (q : Late) : Bool :=
  match Instr.names i with
  | none => true
  | some (g, v) =>
    match q.reg with
    | .scalar r _ => g.contains r
    | .body r _ | .side r | .lane r _ _ | .nibbles r _ => v.contains r

end Sys2Proof.Machine
end

