-- ==== Sys2Proof/Machine/Input.lean ====
section
/-! DEFINITION. What the environment does in a step beside the row it runs (R38, R115, R127, R300, R314, R355-R357,
R360), the state a step begins with, and the row it runs. -/

namespace Sys2Proof.Machine

/-! ## Errors in stores (R38, R355, R356) -/

/-- An access meets an error in a word of a node's memory: corrected in place and counted, the line then being listed for
revisits, or poison (R38, R355, R356). A word that carries poison stays as it is. -/
def State.meetWord (s : State) (k line w : Nat) (e : Ecc) : State :=
  if !(s.serving k) ∨ nodeSize k ≤ 64 * line then s
  else
    let now := s.clock.ticks
    let s' := if s.corrects k line [(w, e)] then s.onPart k fun q => q.listLine line now else s
    s'.visit k line [(w, e)]
/-- The owner tag an error in a core's registers is reported with: the running slot's (R39, R355). -/
def Core.ownTag (c : Core) : BitVec 5 := if c.ctl.priv = .u then c.ctl.slot.setWidth 5 else 0x10
/-- An error in a store of a core that is no memory: corrected on the read, or the poison of the register or row; the report
names it by a line number past the scratchpad's and the register (R355, log entry 43). -/
def State.meetCore (s : State) (k : Nat) (e : Ecc) (line w : Nat) (f : Core → Core) : State :=
  if !(isCore k) ∨ !(s.serving k) then s
  else
    match e with
    | .corrected => s.correctedIn k
    | .uncorrectable => (s.onCore k f).uncorrectableIn k line w (s.coreAt k).ownTag
/-- The poison bit of a general register set. -/
def Core.spoilG (r : GR) (c : Core) : Core :=
  { c with regs := { c.regs with g := bset c.regs.g r ⟨(bget c.regs.g r).v, true⟩ } }
/-- The poison bit of a vector register set. -/
def Core.spoilV (r : VR) (c : Core) : Core :=
  { c with regs := { c.regs with v := bset c.regs.v r { bget c.regs.v r with p := true } } }
/-- The poison bit of an accumulator row set. -/
def Core.spoilRow (t : AT) (i : BitVec 4) (c : Core) : Core :=
  let tile := bget c.eng.acc t
  { c with eng := { c.eng with acc := bset c.eng.acc t (bset tile i { bget tile i with p := true }) } }

/-! ## Inputs -/

/-- A walker's result that no other walker gives: the copy dissents, and a REDUCED triad, whose two copies then differ, halts (R300,
R346, R347). Where all three differ no copy stands alone. -/
def State.meetWalker (s : State) (n : Nat) (c : BitVec 2) : State :=
  let t := (s.site n).triad
  if t.halted ∨ t.copy c.toNat ≠ .voting then s
  else if t.votes = 2 then s.haltTriad n
  else if t.votes = 3 ∧ s.oddWalkers n ≤ 1 then (s.outvoted n c.toNat).catchUp n
  else s
/-- A word of a cluster peer that the selected core reads ahead of its place in the program (R115): not one that it still reads for an
instruction before, and not one that an ORDERED burst or an atomic of the core is writing (R114). -/
def State.readAhead (s : State) (k w : Nat) : State :=
  if !(isCore k) ∨ k = s.here ∨ !(sameCluster k s.here) ∨ !(s.live k) ∨ w * 8 < nodeBase k ∨ nodeBase k + 65536 ≤ w * 8
      ∨ s.core.ordering.contains w ∨ s.core.sh.late.any (·.words.contains w) then s
  else
    let t := s.portRead k [w]
    let a : Ahead := ⟨k, w, BitVec.ofNat 64 (t.readNat (8 * w) 8), t.anyPoison (8 * w) 8⟩
    (t.forgetAhead k [w]).onSh fun h => { h with ahead := h.ahead ++ [a] }
/-- One of the selected core's late reads is taken, by its place, after those of the same word before it (R114, R115). -/
def State.takeNth (s : State) (n : Nat) : State :=
  match s.core.sh.late[n]? with
  | none => s
  | some q =>
    let l := ((s.core.sh.late.take (n + 1)).filter fun r => shareWord r.words q.words)
    s.takeIf fun r => l.contains r
/-- The router of a node meets an error in its buffers, in a packet in flight: corrected and counted, or the poison bit of the packet;
the report names it by a line number past the others' and no owner (R355, R357, R367, log entry 43). -/
def State.meetPacket (s : State) (k n : Nat) (e : Ecc) : State :=
  if !(s.serving k) ∨ s.net.length ≤ n then s
  else
    match e with
    | .corrected => s.correctedIn k
    | .uncorrectable =>
      let net := s.net.mapIdx fun j (p : Packet) => if j = n then { p with pois := true } else p
      { s with net := net }.uncorrectableIn k 4099 n 0x10
/-- The words of a burst in flight take the poison code, and the transfer's POIS is set; those of an ORDERED one travel as packets (R127,
R242, R355). -/
def Stream.spoilBurst (t : Stream) (i j : Nat) : Stream :=
  if t.cls = .ordered ∨ (t.leg i).fly.length ≤ j then t
  else
    { t with
      pois := true
      legs := t.legs.modify i fun l => { l with fly := l.fly.modify j fun f => { f with words := f.words.map fun w => (w.1, true) } } }
/-- A word that a leg has read from another node takes the poison code, and the transfer's POIS is set (R242, R355). -/
def Stream.spoilWord (t : Stream) (i w : Nat) : Stream :=
  if !((t.leg i).got.any (·.1 == w)) then t
  else
    { t with
      pois := true
      legs := t.legs.modify i fun l => { l with got := l.got.map fun g => if g.1 = w then (w, g.2.1, true) else g } }
/-- The router of a node meets an error in data of a transfer of a core: corrected and counted, or poison (R355, R357, R367). -/
def State.meetStream (s : State) (k core : Nat) (i : BitVec 2) (e : Ecc) (w : Nat) (f : Stream → Stream) : State :=
  if !(s.serving k) then s
  else
    match e with
    | .corrected => s.correctedIn k
    | .uncorrectable =>
      let spoil (c : Core) : Core := { c with sh := { c.sh with stream := bset c.sh.stream i (f (bget c.sh.stream i)) } }
      (s.onCore core spoil).uncorrectableIn k 4099 w 0x10
/-- The words that a transfer of a core has read have crossed routers: a GET whose source lies at another node (R93). -/
def State.remoteGet (s : State) (core : Nat) (i : BitVec 2) : Bool :=
  let u := s.moveTo core
  u.ownEnd (u.stream i).dst && !(u.ownEnd (u.stream i).src)
/-- The boathouse controller stops the cores of a tile whose triad is HALTED (R350); their contexts end with the group's, TRAPPED
(R273). -/
def State.stopTile (s : State) (n : Nat) : State :=
  if !(s.site n).triad.halted then s
  else
    s.onCores ((s.here :: s.peers.map (·.1)).filter fun k => siteOf k == n && isCore k) fun _ c =>
      match c.ctl.issue with
      | .off => c
      | .run | .hold | .wait | .idle _ | .stopped | .restored _ => { c.trapSlots with ctl := { c.ctl with issue := .stopped } }
/-- Some router has failed (R19). -/
def State.anyFailed (s : State) : Bool := s.sites.any fun e => e.2.parts.any fun p => p.2.failed
/-- One input. Those an access asks for stand in met until the step ends. -/
def State.heed (s : State) (i : Input) : State :=
  match i with
  | .word k line w e => s.meetWord k line w e
  | .general k r e => s.meetCore k e 4096 r.toNat (Core.spoilG r)
  | .vector k r e => s.meetCore k e 4097 r.toNat (Core.spoilV r)
  | .accumulator k t row e => s.meetCore k e 4098 (16 * t.toNat + row.toNat) (Core.spoilRow t row)
  | .packet k n e => s.meetPacket k n e
  | .burst k c i l j e => s.meetStream k c i e j fun t => t.spoilBurst l j
  | .landing k c i l w e => if s.remoteGet c i then s.meetStream k c i e w fun t => t.spoilWord l w else s
  | .stopTile n => s.stopTile n
  | .lose n =>
    match s.net[n]? with
    | some p => if (p.kind = .amo ∨ p.kind = .amoReply) ∧ s.anyFailed then s.unsend n else s
    | none => s
  | .leak n => if 10 ^ 9 ≤ n ∧ n ≤ 10 ^ 12 then { s with power := { s.power with leak := n } } else s
  | .interval n => if 20 ≤ n ∧ n ≤ 32 then { s with power := { s.power with interval := n } } else s
  | .behind u => s.onUmpire u fun w => { w with isOpen := false, filled := w.filled && !w.isOpen }
  | .partner b gone =>
    if 12 ≤ b then s
    else
      s.onLink (1920 + b) fun l =>
        if gone then { l with gone := true, st := .down, slices := 0, since := s.clock.ticks } else { l with gone := false }
  | .walker n c => s.meetWalker n c
  | .readAhead k w => s.readAhead k w
  | .takeRead n => s.takeNth n
  | .firmware f =>
    if (List.range 25).all fun n => (s.site n).st == .empty then { s with boat := { s.boat with firmware := f } } else s
  | .triad f => { s with boat := { s.boat with triad := f } }
  | .forged n => if n < 25 then s.onSite n fun t => { t with forged := true } else s
  | .cxlError _ | .together _ | .readLate => s

/-! ## What the lead cox keeps (R351) -/

/-- What the lead cox keeps stands in two states alike: its tables, the site states with their EPOCH, the panel routing table, the page
configuration and the fault count (R351). That a kernel's paddle entry is fixed at its first paddle slot is no change: the kernel's image
and the standard scheduler give it (log entry 75). -/
def State.keepsLead (t old : State) : Bool :=
  let bare (l : Lead) : Lead := { l with kernels := l.kernels.map fun e => (e.1, { e.2 with paddle := .none }) }
  decide (bare t.lead = bare old.lead)
    && ((List.range 25).all fun n => (t.site n).st == (old.site n).st && (t.site n).epoch == (old.site n).epoch)
    && t.links.routing == old.links.routing && t.pages.flim == old.pages.flim && t.pages.made == old.pages.made
/-- A change of what the lead cox keeps can take effect: its triad puts out the voted transaction, and the deputy's acknowledges the
write to its mirror. While there is no lead the boathouse controller acts; where the change is of the lead itself the new lead resumes
from its mirror; a change of the deputy waits for the lead's triad alone (R351-R353). -/
def State.mayChange (old new : State) : Bool :=
  old.lead.lead.isNone || old.leadUp || new.lead.lead != old.lead.lead
    || (new.lead.deputy != old.lead.deputy && old.leadWorks && old.lead.lead.all fun n => (old.site n).triad.mayVote)
/-- What follows on a state: not yet a change of what the lead cox keeps that cannot take effect now (R351). -/
def State.gated (old new : State) : State := if old.mayChange new || new.keepsLead old then new else old
/-- One input takes effect, or waits for the lead cox (R351). -/
def State.meet (s : State) (i : Input) : State := s.gated (s.heed i)

/-! ## A step's beginning and its row -/

/-- Packets of other panels arrive at the port nodes of the links they come by: an acknowledgement acts at its home at once, the others
are in flight, or held there by a route switch (R127, R320, R323). -/
def State.arrive (s : State) (l : List Packet) : State :=
  l.foldl (fun (s : State) p =>
    if p.kind = .lowAck then s.takeAck p.srcPan p.src p.dst p.low else if s.switchHolds p then { s with queued := s.queued ++ [p] } else { s with net := s.net ++ [p] }) s
/-- A turn may name the row: no instruction, and no fetch that gives none; a core runs and traps on what it fetches (R136). -/
def Instr.isTurn (i : Instr) : Bool :=
  i.isEvent && match i with
    | .illegalInstruction _ | .poisonedFetch => false
    | _ => true
/-- The operation the first turn of the agenda names, unless it is a row of the fetch of a core. -/
def State.turnOp (s : State) : Option Instr :=
  match s.agenda with
  | [] => none
  | t :: _ => t.op.filter Instr.isTurn
/-- The selected core's late reads that must be taken before the row of this step: none where another agent's row runs; all where an
asynchronous cause is taken or no input lets reads wait; else those of registers that the next instruction names (R115). -/
def State.mustTake (s : State) (named : Option Instr) (q : Late) : Bool :=
  match named with
  | some e => e == .asyncTrapEntry
  | none =>
    !(s.met.contains .readLate) || (s.core.ctl.priv == .u && s.slot.pend != 0) ||
      match s.fetch with
      | .instr i => q.namedBy i
      | .illegal _ | .poisoned => true
/-- The late reads that must be taken before the row of this step are taken. -/
def State.settleReads (s : State) (named : Option Instr) : State :=
  if s.core.sh.late.isEmpty then s else s.takeIf (s.mustTake named)
/-- A row by which a group ends or gives up its lane, a SEEDING that finds no fit among them: a pass of the same tick comes after it
(R273, R295). -/
def endsGroup : Option Instr → Bool
  | some (.groupRetirement _) | some (.cutComplete _) | some (.cutDeadline _) | some (.relaunch _) | some (.placement _) => true
  | _ => false
/-- The state before a step's row: the first turn of the agenda selects its core, packets of other panels arrive, time
passes, inputs take effect, and an admission pass that is due runs, but not before a row by which a group ends or gives up its lane
(R290, R295). -/
def State.begin (s : State) : State :=
  let t := match s.agenda with
    | [] => { s with met := [] }
    | t :: r => ({ s with agenda := r, met := t.inputs }.arrive t.arrive).select t.core
  let t := t.tick
  let t := t.met.foldl State.meet t
  (if t.lead.passDue && t.leadUp && !(endsGroup s.turnOp) then t.pass else t).settleReads s.turnOp

/-- The end of a step: what the lead cox keeps has changed by a voted transaction of its triad (R351). Its mirror at the deputy holds the
same, since the change has waited for both triads. -/
def State.mirrored (t old : State) : State :=
  match t.lead.lead with
  | some n => if t.keepsLead old then t else t.voteTiles [n]
  | none => t
/-- A row's outcome at the end of a step, which stood in mid before the row: the row is not taken yet where it changes what the lead cox
keeps and that cannot take effect now (R351). -/
def mirrorNext (old mid : State) (o : Host.Outcome State Fault Refusal) : Host.Outcome State Fault Refusal :=
  match o with
  | .next t => .next ((mid.gated t).mirrored old)
  | .fault f => .fault f
  | .refused r => .refused r
/-- A core at an instruction boundary with a cause pending: the oldest instruction not committed, run now, raises a synchronous
cause, which goes before any asynchronous one (R55). -/
def State.syncFirst (s : State) : Bool :=
  s.core.ctl.takesAsync && s.slot.pend != 0 &&
    match exec s.fetch.row s with
    | .next t => t.core.ctl.priv == .s && !t.core.ctl.async && t.core.ctl.cause != 0
    | .fault _ | .refused _ => false
/-- The row a step runs: the one the agenda names, else the one nextRow gives; where that is to take an asynchronous cause
and a synchronous one is there, the instruction runs first (R55). -/
def State.chosen (s : State) (named : Option Instr) : Option Instr :=
  let row := match named with
    | some e => some e
    | none => s.nextRow
  match row with
  | some .asyncTrapEntry => if s.syncFirst then some s.fetch.row else row
  | _ => row

end Sys2Proof.Machine
end

