-- ==== Sys2Proof/Machine/Step.lean ====
section
/-! DEFINITION. One step of the panel. -/

namespace Sys2Proof.Machine

/-- One step: time passes and inputs take effect; then the agenda's operation runs, or the row nextRow chooses; what that changes of
the lead cox's state is voted, and waits where it cannot be. -/
def step (s : State) : Host.Outcome State Fault Refusal :=
  match s.begin.chosen s.turnOp with
  | some i => mirrorNext s s.begin (exec i s.begin)
  | none => .next (s.begin.mirrored s)

/-- The instruction of the opcode table's bits w placed where the selected core fetches next, with the
core made to issue and no turn before it (log entry 4). -/
def State.withFetchWord (s : State) (nbits w : Nat) : State :=
  ({ s with agenda := [] }.onCtl fun k => { k with issue := .run }).placeCode s.pc (leBytes 8 (w % 2 ^ nbits))

end Sys2Proof.Machine
end

