-- ==== Sys2Proof/Safety.lean ====
section
/-! DEFINITION. What the statements say of a step: that an instruction completes, what it leaves as it
was, and the properties every state of a run keeps. -/

namespace Sys2Proof.Machine

/-! ## Completion -/

/-- The instruction or event answers a next state, and P holds of that state. -/
def Completes (i : Instr) (s : State) (P : State → Prop) : Prop := ∃ t, exec i s = .next t ∧ P t

/-- Control registers of the selected core after an instruction that commits and passes on to pc: the
program counter, issue, and the counters of event 2, nothing else (R9, R53). -/
def State.ctlAt (s : State) (pc : BitVec 16) : Ctl := { (s.core.countN 2 1).ctl with pc := pc, issue := .run }

/-- The selected core passes on to pc; its other control registers are as before. -/
def Passes (s t : State) (pc : BitVec 16) : Prop := t.core.ctl = s.ctlAt pc

/-! ## Frames -/

/-- Memory, poison codes and owner tags read as before, at every address. -/
def SameMemory (s t : State) : Prop :=
  ∀ a, t.byte a = s.byte a ∧ t.poisoned a = s.poisoned a ∧ t.tag a = s.tag a

/-- Every byte outside the n bytes from address a reads as before. -/
def SameBytesBut (s t : State) (a n : Nat) : Prop :=
  ∀ b, (b < a ∨ a + n ≤ b) → t.byte b = s.byte b

/-- Every general register but those of the list reads as before, with its poison bit. -/
def SameG (s t : State) (but : List GR) : Prop :=
  ∀ r, ¬ r ∈ but → t.gv r = s.gv r ∧ t.gp r = s.gp r

/-- The vector registers, masks, accumulators and descriptors read as before. -/
def SameV (s t : State) : Prop :=
  t.core.regs.v = s.core.regs.v ∧ t.core.regs.m = s.core.regs.m ∧ t.core.eng = s.core.eng

/-- The core's slots, its shared tables, `FPCR` and `RIGS` are as before. -/
def SameTables (s t : State) : Prop :=
  t.core.slots = s.core.slots ∧ t.core.sh = s.core.sh ∧ t.core.regs.rigs = s.core.regs.rigs

/-- Everything outside the selected core is as before: other cores, memory, nodes, packets, sites,
clock, power, tables of the lead cox, pages, links and the boathouse controller. -/
def SameOutside (s t : State) : Prop := t = { s with core := t.core }

/-- All that an instruction of scalar registers keeps: the other general registers, the vector side of
the core, its tables, and everything outside the core. -/
def ScalarFrame (s t : State) (d : GR) : Prop := SameG s t [d] ∧ SameV s t ∧ SameTables s t ∧ SameOutside s t

/-- The result v with poison p is written to d, flags f are added to `FPCR`, the instruction of n bytes
commits, and nothing else changes. -/
def WritesG (s t : State) (d : GR) (v : BitVec 64) (p : Bool) (f : Flags) (n : BitVec 16) : Prop :=
  t.gv d = v ∧ t.gp d = p ∧ t.fpcr = s.fpcr ||| (f.setWidth 14 <<< 8) ∧ ScalarFrame s t d ∧ Passes s t (s.pc + n)

/-- No general register changes. -/
def KeepsG (s t : State) : Prop := t.core.regs.g = s.core.regs.g

/-- The vector register d becomes x, flags f are added to `FPCR`, the instruction commits, and nothing
else changes. -/
def WritesV (s t : State) (d : VR) (x : VReg) (f : Flags) : Prop :=
  t.vr d = x ∧ (∀ r, r ≠ d → t.vr r = s.vr r) ∧ KeepsG s t ∧ t.core.regs.m = s.core.regs.m ∧
  t.fpcr = s.fpcr ||| (f.setWidth 14 <<< 8) ∧ t.core.eng = s.core.eng ∧ SameTables s t ∧ SameOutside s t ∧
  Passes s t (s.pc + 4)

/-- The mask register d becomes x, flags f are added to `FPCR`, the instruction commits, and nothing
else changes. -/
def WritesM (s t : State) (d : MR) (x : BitVec 64) (f : Flags) : Prop :=
  t.mr d = x ∧ (∀ r, r ≠ d → t.mr r = s.mr r) ∧ KeepsG s t ∧ t.core.regs.v = s.core.regs.v ∧
  t.fpcr = s.fpcr ||| (f.setWidth 14 <<< 8) ∧ t.core.eng = s.core.eng ∧ SameTables s t ∧ SameOutside s t ∧
  Passes s t (s.pc + 4)

/-- No register but the program counter and those that a commit counts changes, and nothing outside the
core: what a branch without a link leaves. -/
def OnlyPc (s t : State) (pc : BitVec 16) : Prop :=
  t.core.regs = s.core.regs ∧ t.core.slots = s.core.slots ∧ t.core.eng = s.core.eng ∧ t.core.sh = s.core.sh ∧
  SameOutside s t ∧ Passes s t pc

/-- An acquire passes on: what the core has read ahead is dropped, and nothing else changes but the program counter and
what a commit counts (R118, R121). -/
def Acquires (s t : State) (pc : BitVec 16) : Prop :=
  t.core.regs = s.core.regs ∧ t.core.slots = s.core.slots ∧ t.core.eng = s.core.eng ∧
  t.core.sh = { s.core.sh with ahead := [] } ∧ SameOutside s t ∧ Passes s t pc

/-- No register of any core changes, no accumulator, no descriptor. -/
def SameRegs (s t : State) : Prop :=
  t.here = s.here ∧ ∀ k, (t.coreAt k).regs = (s.coreAt k).regs ∧ (t.coreAt k).eng = (s.coreAt k).eng

/-- No byte, poison code or owner tag changes. -/
def SameStore (s t : State) : Prop := t.mem = s.mem ∧ t.pois = s.pois ∧ t.tags = s.tags

/-- No core and no byte changes: what an event of the panel leaves. -/
def Still (s t : State) : Prop := t.here = s.here ∧ t.core = s.core ∧ t.peers = s.peers ∧ SameStore s t

/-- One packet more is on its way than before: in the network, or at its local port while its route is switched
(R320). -/
def Sent (s t : State) (p : Packet) : Prop :=
  (s.switchHolds p = false → t.net = s.net ++ [p] ∧ t.queued = s.queued) ∧
  (s.switchHolds p = true → t.net = s.net ∧ t.queued = s.queued ++ [p])
/-- A packet is on its way, others beside it. -/
def Travels (s t : State) (p : Packet) : Prop := if s.switchHolds p then p ∈ t.queued else p ∈ t.net
/-- The packets on their way are as before. -/
def SameNet (s t : State) : Prop := t.net = s.net ∧ t.queued = s.queued
/-- A slot is no paddle context that loses its core: `RAMPF.PADDLE` is set and has not fallen while it ran,
and the group is not cut and no cut has begun while it ran (R280). -/
def State.keepsPaddle (s : State) (i : SlotId) : Prop :=
  (s.core.slot i).paddle = true → s.core.ctl.paddle = true ∧ s.core.sh.cut = false ∧ (s.core.slot i).doomed = false

/-- The owner tag the selected core's store gives a line that has one: at U its slot, at S 0x1F where the line had no owner (R39). -/
def State.ownedBy (s : State) (old : BitVec 5) : BitVec 5 :=
  if s.core.ctl.priv = .u then s.core.ctl.slot.setWidth 5 else if old = 0x10 then 0x1F else old
/-- The lines of n bytes from address a have taken the owner of the selected core's stores, and no other line has (R39). -/
def Owns (s t : State) (a n : Nat) : Prop :=
  ∀ b, t.tag b = if a / 64 ≤ b / 64 ∧ b / 64 < (a + n + 63) / 64 then s.ownedBy (s.tag b) else s.tag b

/-- Nothing of the selected core is on its way to or from a peer of its cluster: no store waits at the peer's port, no read is put off
or has gone ahead, no burst and no atomic of the core is out, and no input puts reads off (R40, R114, R115). -/
def PeerQuiet (s : State) (k : Nat) : Prop :=
  (s.coreAt k).sh.port = [] ∧ s.core.sh.ahead = [] ∧ s.core.sh.late = [] ∧ s.core.flying = [] ∧ s.core.ordering = [] ∧
  ¬ Input.readLate ∈ s.met
/-- What a read of a peer leaves beside its registers: no byte, packet or slot changes, and the instruction commits. -/
def PeerRead (s t : State) : Prop :=
  t.core.slots = s.core.slots ∧ t.here = s.here ∧ SameStore s t ∧ t.nodes = s.nodes ∧ SameNet s t ∧ t.pc = s.pc + 4
/-- A store of the selected core as it waits at a peer's port, of an `ST` or another instruction (R39, R40). -/
def State.waitingStore (s : State) (st : Bool) (off : Nat) (bs : List (BitVec 8)) (p : Bool) : PortStore :=
  ⟨s.here, off, bs, p, if s.core.ctl.priv = .u then some s.core.ctl.slot else none, st⟩

/-- Every part but the one a coordinate is bound to is as before (R18). -/
def SamePartsBut (s t : State) (k : Nat) : Prop :=
  ∀ n r p, p < 33 → (n = siteOf k → r = regionRow k → p ≠ s.physCol k) → t.partAt n r p = s.partAt n r p

/-! ## Shapes of instructions -/

/-- A two-operand scalar instruction of 4 bytes: the result f of the operands, the poison of either. -/
def Alu2 (i : GR → GR → GR → Instr) (f : BitVec 64 → BitVec 64 → BitVec 64) : Prop :=
  ∀ s d a b, Completes (i d a b) s fun t => WritesG s t d (f (s.gv a) (s.gv b)) (s.gp a || s.gp b) 0 4

/-- A one-operand scalar instruction of 4 bytes. -/
def Alu1 (i : GR → GR → Instr) (f : BitVec 64 → BitVec 64) : Prop :=
  ∀ s d a, Completes (i d a) s fun t => WritesG s t d (f (s.gv a)) (s.gp a) 0 4

/-- `SEXT` or `ZEXT`: f8, f16 and f32 of the operand at the three widths. -/
def ExtendTo (i : GR → GR → ExtW → Instr) (f8 f16 f32 : BitVec 64 → BitVec 64) : Prop :=
  Alu1 (fun d a => i d a .b8) f8 ∧ Alu1 (fun d a => i d a .b16) f16 ∧ Alu1 (fun d a => i d a .b32) f32

/-- A scalar float instruction of two operands: the result and flags f gives under what it captures. -/
def Float2 (i : GR → GR → GR → FTy → Instr) (f : FTy → FEnv → FVal → FVal → FRes) : Prop :=
  ∀ s d a b y, Completes (i d a b y) s fun t =>
    let r := f y s.fenv (s.fv y a) (s.fv y b)
    WritesG s t d (BitVec.ofNat 64 r.1) (s.gp a || s.gp b) r.2 4

/-- A scalar float compare: 1 or 0, with flags. -/
def FloatCmp (i : GR → GR → GR → FTy → Instr) (f : FVal → FVal → Bool × Flags) : Prop :=
  ∀ s d a b y, Completes (i d a b y) s fun t =>
    let r := f (s.fv y a) (s.fv y b)
    WritesG s t d (if r.1 then 1 else 0) (s.gp a || s.gp b) r.2 4

/-- A conditional branch: both operands clean, it passes to the target when c holds and else to the next
instruction (R172). -/
def BranchOn (i : GR → GR → BitVec 16 → Instr) (c : BitVec 64 → BitVec 64 → Prop) : Prop :=
  ∀ s a b o, s.gp a = false → s.gp b = false →
    (c (s.gv a) (s.gv b) → Completes (i a b o) s fun t => OnlyPc s t (s.pc + 4 * o)) ∧
    (¬ c (s.gv a) (s.gv b) → Completes (i a b o) s fun t => OnlyPc s t (s.pc + 4))

/-- Lane results under a mask: f on the active lanes, the old lane with no flag on the others (R183). -/
def State.lanewise (s : State) (d : VR) (m : Option MR) (y : Ty) (f : Nat → FRes) : List FRes :=
  (s.vl y d).mapIdx fun i z => if s.active m i then f i else (z, 0)

/-- The register a lane-by-lane instruction writes: the lanes, side 0, and the poison of its operands with
that of the old destination where it merges or is read (R183, R184). -/
def State.laneReg (s : State) (d : VR) (m : Option MR) (y : Ty) (p reads : Bool) (f : Nat → FRes) : VReg :=
  ⟨ofLanes y.bits ((s.lanewise d m y f).map (·.1)), 0, p || ((m.isSome || reads) && (s.vr d).p)⟩

/-- A lane-by-lane instruction of two operands over the types of ok: f of the lanes of va and vb. -/
def Vec2 (i : VR → VR → VR → Option MR → Ty → Instr) (ok : Ty → Bool) (f : Ty → FEnv → Nat → Nat → FRes) : Prop :=
  ∀ s d a b m y, ok y = true → Completes (i d a b m y) s fun t =>
    let g (k : Nat) : FRes := f y s.fenv (lane (s.vl y a) k) (lane (s.vl y b) k)
    WritesV s t d (s.laneReg d m y ((s.vr a).p || (s.vr b).p) false g) (allFlags (s.lanewise d m y g))

/-- A lane-by-lane instruction of one operand. -/
def Vec1 (i : VR → VR → Option MR → Ty → Instr) (ok : Ty → Bool) (f : Ty → FEnv → Nat → FRes) : Prop :=
  ∀ s d a m y, ok y = true → Completes (i d a m y) s fun t =>
    let g (k : Nat) : FRes := f y s.fenv (lane (s.vl y a) k)
    WritesV s t d (s.laneReg d m y (s.vr a).p false g) (allFlags (s.lanewise d m y g))

/-- `VCMP`: bit i of the mask is the condition on active lane i, every other bit 0, and the flags are those of the active lanes (R191). -/
def VecCmp (i : MR → VR → VR → Option MR → Ty → Instr) (int : Int → Int → Bool)
    (fl : FVal → FVal → Bool × Flags) : Prop :=
  ∀ s d a b m y, y.intFloat = true → (s.vr a).p = false → (s.vr b).p = false → Completes (i d a b m y) s fun t =>
    (∀ k, k < 64 → (t.mr d).getLsbD k = (decide (k < y.lanes) && s.active m k &&
      (if y.float then (fl (laneFloat y s.fenv (lane (s.vl y a) k)) (laneFloat y s.fenv (lane (s.vl y b) k))).1
       else int (laneInt y (lane (s.vl y a) k)) (laneInt y (lane (s.vl y b) k))))) ∧
    (∀ r, r ≠ d → t.mr r = s.mr r) ∧ KeepsG s t ∧ t.core.regs.v = s.core.regs.v ∧ t.core.eng = s.core.eng ∧
    (y.float = false → t.fpcr = s.fpcr) ∧
    (y.float = true → t.fpcr = s.fpcr ||| ((((List.range y.lanes).filter (s.active m)).foldl (fun f k => f |||
      (fl (laneFloat y s.fenv (lane (s.vl y a) k)) (laneFloat y s.fenv (lane (s.vl y b) k))).2) 0 : Flags).setWidth 14 <<< 8)) ∧
    SameTables s t ∧ SameOutside s t ∧ Passes s t (s.pc + 4)

/-- `VRED`: lane 0 is the fold by the tree of R192 of the active lanes, the others counting as the unit;
every other lane and the side are 0. -/
def VecRed (i : VR → VR → Option MR → Ty → Instr) (ok : Ty → Bool) (unit : Ty → Nat)
    (f : Ty → FEnv → Nat → Nat → FRes) : Prop :=
  ∀ s d a m y, ok y = true → Completes (i d a m y) s fun t =>
    let r := redTree (f y s.fenv) 6 ((s.vl y a).mapIdx fun k v => if s.active m k then v else unit y)
    WritesV s t d ⟨BitVec.ofNat 512 r.1, 0, (s.vr a).p⟩ r.2

/-! ## Traps (R55, R56) -/

/-- Everything outside the selected core but the umpires, of which the one of its row may close its window, is as
before. -/
def TrapFrame (s t : State) : Prop :=
  t = { s with core := t.core, power := { s.power with umpires := t.power.umpires } }

/-- A cause is taken at U: the trap registers hold the cause with its `TVAL` and the resume address, the core is in S at
the cause's entry of the vector table, and nothing else of it changes but the counters (R53, R55). -/
def TrapTaken (s t : State) (c : Cause) (v : BitVec 64) (resume : BitVec 16) : Prop :=
  t.core.ctl = { s.core.ctl with
    priv := .s, async := c.isAsync, cause := c.num, tval := v, tpc := resume, issue := .run,
    pc := (s.core.ctl.kvec.setWidth 16 <<< 12) + 64 * c.num.setWidth 16, pmc := t.core.ctl.pmc } ∧
  t.core.regs = s.core.regs ∧ t.core.slots = s.core.slots ∧ t.core.eng = s.core.eng ∧ t.core.sh = s.core.sh ∧
  TrapFrame s t

/-- The core has entered the scheduler: S at entry 0 of the vector table with a give-up code and the resume
address; its other control registers but the counters, its registers and all outside the core are as before (R79). -/
def SchedulerEntered (s t : State) (code : BitVec 64) (resume : BitVec 16) : Prop :=
  t.core.ctl = { s.core.ctl with
    priv := .s, async := false, cause := 0, tval := code, tpc := resume, issue := .run,
    pc := s.core.ctl.kvec.setWidth 16 <<< 12, pmc := t.core.ctl.pmc } ∧
  t.core.regs = s.core.regs ∧ t.core.eng = s.core.eng ∧ TrapFrame s t

/-- The running context sleeps for a reason, and the core has entered the scheduler with code 2 (R77, R80). -/
def SleptFor (s t : State) (w : Why) : Prop :=
  t.slot = { s.slot with st := .sleep, why := w, slept := s.clock.ticks } ∧ SchedulerEntered s t 2 s.pc

/-- The instruction holds at issue, and nothing else changes (R226). -/
def HeldAt (s t : State) : Prop := t = s.onCtl fun k => { k with issue := .hold }

/-- The operation o enters its engine and the instruction commits (R201, R202). -/
def Enters (s t : State) (o : EngOp) : Prop :=
  (if o.kind.tensor then t.core.eng.tq = s.core.eng.tq ++ [o] ∧ t.core.eng.mover = s.core.eng.mover
    else t.core.eng.mover = s.core.eng.mover ++ [o] ∧ t.core.eng.tq = s.core.eng.tq) ∧
  t.core.eng.acc = s.core.eng.acc ∧ t.core.eng.adesc = s.core.eng.adesc ∧ t.core.eng.bdesc = s.core.eng.bdesc ∧
  t.core.regs = s.core.regs ∧ t.core.slots = s.core.slots ∧ SameOutside s t ∧ t.pc = s.pc + 4

/-- The instruction waits for an engine: nothing changes but issue (R201, R215). -/
def WaitsEngine (s t : State) : Prop := t = s.onCtl fun k => { k with issue := .wait }

/-- An operation that its engine performs: the queue loses it, no other tile changes, and no register,
descriptor or memory byte; flags and counts go to the issuing slot alone. -/
def Performs (s t : State) (o : EngOp) : Prop :=
  (if o.kind.tensor then t.core.eng.tq = s.core.eng.tq.tail ∧ t.core.eng.mover = s.core.eng.mover
    else t.core.eng.mover = s.core.eng.mover.tail ∧ t.core.eng.tq = s.core.eng.tq) ∧
  (∀ x, x ≠ o.tile → t.tile x = s.tile x) ∧ t.core.eng.adesc = s.core.eng.adesc ∧ t.core.eng.bdesc = s.core.eng.bdesc ∧
  t.core.regs.g = s.core.regs.g ∧ t.core.regs.v = s.core.regs.v ∧ t.core.regs.m = s.core.regs.m

/-- The wait counter of an operation's slot has counted its completion, saturating, unless the slot has
passed through FREE (R36, R202). -/
def Counted (s t : State) (o : EngOp) : Prop :=
  (s.core.slot o.slot).alloc = o.alloc → (s.core.slot o.slot).st ≠ .free →
    bget (t.core.slot o.slot).w o.wc =
      if bget (s.core.slot o.slot).w o.wc = 0xFFFF then 0xFFFF else bget (s.core.slot o.slot).w o.wc + 1

/-- A command of a queue has completed: it is gone from the queue, its completion word is written whole, and no
other byte, register or core has changed (R284, R287). -/
def CommandEnds (s t : State) (q : Nat) (c : Cmd) (st : Nat) (gid : BitVec 16) : Prop :=
  let a := hostBase + (s.queue q).base.toNat + 64 * c.idx + 4
  (t.queue q).cmds = (s.queue q).cmds.filter (·.no != c.no) ∧
  leNat ((List.range 4).map fun i => t.byte (a + i)) = cmplWord st gid ∧ SameBytesBut s t a 4 ∧ t.pois = s.pois ∧
  t.tags = s.tags ∧ t.here = s.here ∧ t.core = s.core ∧ t.peers = s.peers

/-- A kernel request has been answered; every other request slot is as it was (R265). -/
def Answered (s t : State) (i : BitVec 4) (r : Reason) : Prop :=
  Still s t ∧ (t.req i.toNat).st = 2 ∧ (t.req i.toNat).reason = r.num ∧ ∀ j, j ≠ i.toNat → t.req j = s.req j

/-! ## What every step keeps -/

/-- The record of a core at key k names its coordinate in `TID` (R18, R48). -/
def Core.at? (c : Core) (k : Nat) : Prop := c.ctl.tidX = BitVec.ofNat 9 (keyX k) ∧ c.ctl.tidY = BitVec.ofNat 8 (keyY k)
/-- The record of each core has one home: the selected key names a core, its record is not among the
peers, and each record's `TID` names its coordinate (R12, R18, R48). -/
def State.homed (s : State) : Prop :=
  isCore s.here = true ∧ s.core.at? s.here ∧ ∀ e ∈ s.peers, e.1 ≠ s.here ∧ e.2.at? e.1

/-- The memory lists its bytes, and the lines their owner tags, in canonical form: keys strictly rising,
no entry equal to what an unlisted key reads as. -/
def State.memOk (s : State) : Prop := twf unlistedByte s.mem = true ∧ twf 0x10 s.tags = true

end Sys2Proof.Machine
end

