-- ==== Sys2Proof/Certificates/Slice0/Obligations.lean ====
section
/-! DEFINITION. The statements for the provers. Each names the rules of the spec it rests on. -/

open Sys2Proof Sys2Proof.Machine

/-! ## Scalar instructions -/

/-- R167: the integer instructions, wrapping modulo 2^64, with the poison of any operand (R164), and their frame.
CLZ and CTZ of 0 are 64; else the bit they stop at is 1 and every bit before it 0. Each has the major 0x01, its FN and
its fields in the encoding. -/
def Obligations.IntegerResults : Prop :=
  (Alu2 .add (· + ·) ∧ Alu2 .sub (· - ·) ∧ Alu2 .mul (· * ·) ∧
   Alu2 .mulh (fun x y => BitVec.ofInt 64 (x.toInt * y.toInt / 2 ^ 64)) ∧
   Alu2 .mulhn (fun x y => BitVec.ofNat 64 (x.toNat * y.toNat / 2 ^ 64)) ∧
   Alu2 .and (· &&& ·) ∧ Alu2 .or (· ||| ·) ∧ Alu2 .xor (· ^^^ ·) ∧
   Alu2 .shl (fun x y => x <<< (y.toNat % 64)) ∧ Alu2 .shr (fun x y => x >>> (y.toNat % 64)) ∧
   Alu2 .sra (fun x y => x.sshiftRight (y.toNat % 64)) ∧ Alu2 .rol (fun x y => x.rotateLeft (y.toNat % 64)) ∧
   Alu2 .min (fun x y => if y.toInt < x.toInt then y else x) ∧
   Alu2 .minn (fun x y => if y.toNat < x.toNat then y else x) ∧
   Alu2 .max (fun x y => if x.toInt < y.toInt then y else x) ∧
   Alu2 .maxn (fun x y => if x.toNat < y.toNat then y else x) ∧
   Alu2 .cmpeq (fun x y => if x = y then 1 else 0) ∧
   Alu2 .cmplt (fun x y => if x.toInt < y.toInt then 1 else 0) ∧
   Alu2 .cmpltn (fun x y => if x.toNat < y.toNat then 1 else 0) ∧
   Alu2 .cmple (fun x y => if x.toInt ≤ y.toInt then 1 else 0) ∧
   Alu2 .cmplen (fun x y => if x.toNat ≤ y.toNat then 1 else 0)) ∧
  ((∀ s d a b c, Completes (.madd d a b c) s fun t =>
     WritesG s t d (s.gv a * s.gv b + s.gv c) (s.gp a || s.gp b || s.gp c) 0 4) ∧
   (∀ s d a b c, s.gv c ≠ 0 → Completes (.sel d a b c) s fun t =>
     WritesG s t d (s.gv a) (s.gp a || s.gp b || s.gp c) 0 4) ∧
   (∀ s d a b c, s.gv c = 0 → Completes (.sel d a b c) s fun t =>
     WritesG s t d (s.gv b) (s.gp a || s.gp b || s.gp c) 0 4) ∧
   ExtendTo .sext (fun x => (x.setWidth 8).signExtend 64) (fun x => (x.setWidth 16).signExtend 64)
     (fun x => (x.setWidth 32).signExtend 64) ∧
   ExtendTo .zext (fun x => (x.setWidth 8).setWidth 64) (fun x => (x.setWidth 16).setWidth 64)
     (fun x => (x.setWidth 32).setWidth 64) ∧
   (∀ s d a, Completes (.clz d a) s fun t => ∃ n, WritesG s t d (BitVec.ofNat 64 n) (s.gp a) 0 4 ∧ n ≤ 64 ∧
     (∀ i, i < n → (s.gv a).getLsbD (63 - i) = false) ∧ (n < 64 → (s.gv a).getLsbD (63 - n) = true)) ∧
   (∀ s d a, Completes (.ctz d a) s fun t => ∃ n, WritesG s t d (BitVec.ofNat 64 n) (s.gp a) 0 4 ∧ n ≤ 64 ∧
     (∀ i, i < n → (s.gv a).getLsbD i = false) ∧ (n < 64 → (s.gv a).getLsbD n = true)) ∧
   (∀ s d a, Completes (.popc d a) s fun t =>
     WritesG s t d (BitVec.ofNat 64 ((List.range 64).countP fun i => (s.gv a).getLsbD i)) (s.gp a) 0 4)) ∧
  (∀ d a b c : GR,
     let w (b c : GR) (fn : Nat) : Option (Nat × Option Nat) :=
       some (2 ^ 26 + d.toNat * 2 ^ 21 + a.toNat * 2 ^ 16 + b.toNat * 2 ^ 11 + c.toNat * 2 ^ 6 + fn, none)
     [Instr.add d a b, .sub d a b, .mul d a b, .mulh d a b, .mulhn d a b, .div d a b, .divn d a b, .rem d a b,
       .remn d a b].map encode = (List.range 9).map (w b 0) ∧
     encode (.madd d a b c) = w b c 0x09 ∧
     [Instr.and d a b, .or d a b, .xor d a b, .shl d a b, .shr d a b, .sra d a b, .rol d a b].map encode =
       (List.range' 0x0A 7).map (w b 0) ∧
     [Instr.clz d a, .ctz d a, .popc d a].map encode = (List.range' 0x11 3).map (w 0 0) ∧
     [Instr.min d a b, .minn d a b, .max d a b, .maxn d a b, .cmpeq d a b, .cmplt d a b, .cmpltn d a b, .cmple d a b,
       .cmplen d a b].map encode = (List.range' 0x14 9).map (w b 0) ∧
     encode (.sel d a b c) = w b c 0x1D ∧
     [ExtW.b8, .b16, .b32].map (fun x => encode (.sext d a x)) = [w 0 0 0x1E, w 0 1 0x1E, w 0 2 0x1E] ∧
     [ExtW.b8, .b16, .b32].map (fun x => encode (.zext d a x)) = [w 0 0 0x1F, w 0 1 0x1F, w 0 2 0x1F])

/-- R168: division. A zero divisor gives all ones, and the dividend as remainder; -2^63 / -1 gives -2^63
with remainder 0; else the quotient truncates toward zero and quotient times divisor plus remainder is
the dividend. No form traps. -/
def Obligations.DivisionResults : Prop :=
  (∀ s d a b, s.gv b = 0 →
    (Completes (.div d a b) s fun t => WritesG s t d (-1) (s.gp a || s.gp b) 0 4) ∧
    (Completes (.divn d a b) s fun t => WritesG s t d (-1) (s.gp a || s.gp b) 0 4) ∧
    (Completes (.rem d a b) s fun t => WritesG s t d (s.gv a) (s.gp a || s.gp b) 0 4) ∧
    (Completes (.remn d a b) s fun t => WritesG s t d (s.gv a) (s.gp a || s.gp b) 0 4)) ∧
  (∀ s d a b, s.gv a = 0x8000000000000000 → s.gv b = -1 →
    (Completes (.div d a b) s fun t => WritesG s t d 0x8000000000000000 (s.gp a || s.gp b) 0 4) ∧
    (Completes (.rem d a b) s fun t => WritesG s t d 0 (s.gp a || s.gp b) 0 4)) ∧
  (∀ s d a b, s.gv b ≠ 0 → ¬ (s.gv a = 0x8000000000000000 ∧ s.gv b = -1) → ∃ q r : BitVec 64,
    (Completes (.div d a b) s fun t => WritesG s t d q (s.gp a || s.gp b) 0 4) ∧
    (Completes (.rem d a b) s fun t => WritesG s t d r (s.gp a || s.gp b) 0 4) ∧
    (s.gv a).toInt = q.toInt * (s.gv b).toInt + r.toInt ∧ r.toInt.natAbs < (s.gv b).toInt.natAbs ∧
    (r.toInt ≠ 0 → (r.toInt < 0 ↔ (s.gv a).toInt < 0))) ∧
  (∀ s d a b, s.gv b ≠ 0 → ∃ q r : BitVec 64,
    (Completes (.divn d a b) s fun t => WritesG s t d q (s.gp a || s.gp b) 0 4) ∧
    (Completes (.remn d a b) s fun t => WritesG s t d r (s.gp a || s.gp b) 0 4) ∧
    (s.gv a).toNat = q.toNat * (s.gv b).toNat + r.toNat ∧ r.toNat < (s.gv b).toNat)

/-- R169, R170, R154: the immediate forms. `BFX` takes LEN bits from POS on, zero-extended; `BFI` puts the low LEN
bits of ga there and keeps the others, both bit by bit. A field that passes bit 63 is ILLEGAL (R141). -/
def Obligations.ImmediatesAndBitFields : Prop :=
  ((∀ i : BitVec 16,
     Alu1 (fun d a => .addi d a i) (· + i.signExtend 64) ∧ Alu1 (fun d a => .andi d a i) (· &&& i.setWidth 64) ∧
     Alu1 (fun d a => .ori d a i) (· ||| i.setWidth 64) ∧ Alu1 (fun d a => .xori d a i) (· ^^^ i.setWidth 64)) ∧
   (∀ k : BitVec 6,
     Alu1 (fun d a => .shli d a k) (· <<< k.toNat) ∧ Alu1 (fun d a => .shri d a k) (· >>> k.toNat) ∧
     Alu1 (fun d a => .srai d a k) (·.sshiftRight k.toNat)) ∧
   (∀ s d i, Completes (.liShort d i) s fun t => WritesG s t d (i.signExtend 64) false 0 4) ∧
   (∀ s d i, Completes (.addpc d i) s fun t => WritesG s t d ((s.pc + 4 * i).setWidth 64) false 0 4) ∧
   (∀ s d v, Completes (.liLong d v) s fun t => WritesG s t d (v.signExtend 64) false 0 8) ∧
   (∀ s d v, Completes (.liHi d v) s fun t => WritesG s t d (v ++ (s.gv d).setWidth 32) (s.gp d) 0 8)) ∧
  ((∀ s d a (l p : BitVec 6), p.toNat + (l.toNat + 1) ≤ 64 → ∃ v : BitVec 64,
     (Completes (.bfx d a l p) s fun t => WritesG s t d v (s.gp a) 0 4) ∧
     ∀ j, j < 64 → v.getLsbD j = (decide (j ≤ l.toNat) && (s.gv a).getLsbD (p.toNat + j))) ∧
   (∀ s d a (l p : BitVec 6), p.toNat + (l.toNat + 1) ≤ 64 → ∃ v : BitVec 64,
     (Completes (.bfi d a l p) s fun t => WritesG s t d v (s.gp d || s.gp a) 0 4) ∧
     ∀ j, j < 64 → v.getLsbD j =
       if p.toNat ≤ j ∧ j ≤ p.toNat + l.toNat then (s.gv a).getLsbD (j - p.toNat) else (s.gv d).getLsbD j) ∧
   (∀ s d a (l p : BitVec 6), 64 < p.toNat + (l.toNat + 1) → s.core.ctl.priv = .u →
     (Completes (.bfx d a l p) s fun t => TrapTaken s t .illegal s.parcel s.pc) ∧
     (Completes (.bfi d a l p) s fun t => TrapTaken s t .illegal s.parcel s.pc)))

/-- R41, R171, R178: the three address forms put the coordinate word's X, Y and panel index and the 18-bit offset
in their fields. `TLOOK` of a key that `TSET` has just installed gives its index, and after `TCLR` of the index
the key is not found there. -/
def Obligations.AddressFormsAndTags : Prop :=
  (let coord (b c : BitVec 64) : BitVec 64 :=
     ((b.extractLsb' 0 9).setWidth 64 <<< 39) ||| ((b.extractLsb' 16 8).setWidth 64 <<< 31) |||
       (c.extractLsb' 0 18).setWidth 64
   Alu2 .mkaAbs (fun b c => ((b.extractLsb' 32 8).setWidth 64 <<< 48) ||| coord b c) ∧
   Alu2 .mkaGrp (fun b c => 0x8000000000000000 ||| coord b c) ∧
   Alu2 .mkaCore (fun b c => 0xC000000000000000 ||| coord b c)) ∧
  (∀ s d a, s.gp a = false → Completes (.tlook d a) s fun t =>
    WritesG s t d (match s.tagFind (s.gv a) with | some i => BitVec.ofNat 64 i | none => -1) false 0 4) ∧
  (∀ s d a, s.gp a = true → Completes (.tlook d a) s fun t => WritesG s t d (-1) true 0 4) ∧
  (∀ s d a b, s.gp a = false → s.gp b = false → (s.gv a).toNat < 64 → s.tagFind (s.gv b) = none →
    Completes (.tset d a b) s fun t => t.gv d = s.gv a ∧ t.gp d = false ∧
      t.tagFind (s.gv b) = some (s.gv a).toNat ∧ SameG s t [d] ∧ SameV s t ∧ SameOutside s t ∧ Passes s t (s.pc + 4)) ∧
  (∀ s d a b i, s.gp a = false → s.gp b = false → (s.gv a).toNat < 64 → s.tagFind (s.gv b) = some i →
    Completes (.tset d a b) s fun t => WritesG s t d (BitVec.ofNat 64 i) false 0 4) ∧
  (∀ s a, s.gp a = false → (s.gv a).toNat < 64 → Completes (.tclr a) s fun t =>
    (∀ key, t.tagFind key ≠ some (s.gv a).toNat) ∧ KeepsG s t ∧ SameV s t ∧ SameOutside s t ∧ Passes s t (s.pc + 4))

/-- R172, R173: branches and jumps, and ALIGN for a jump target that is not a parcel's. -/
def Obligations.BranchesAndJumps : Prop :=
  BranchOn .beq (· = ·) ∧ BranchOn .bne (· ≠ ·) ∧ BranchOn .blt (fun x y => x.toInt < y.toInt) ∧
  BranchOn .bge (fun x y => y.toInt ≤ x.toInt) ∧ BranchOn .bltn (fun x y => x.toNat < y.toNat) ∧
  BranchOn .bgen (fun x y => y.toNat ≤ x.toNat) ∧
  (∀ s o, Completes (.jmp o) s fun t => OnlyPc s t (s.pc + 4 * o)) ∧
  (∀ s l o, Completes (.jal l o) s fun t =>
    t.gv l = (s.pc + 4).setWidth 64 ∧ t.gp l = false ∧ t.fpcr = s.fpcr ∧ ScalarFrame s t l ∧
      Passes s t (s.pc + 4 * o)) ∧
  (∀ s d a (i : BitVec 16), s.gp a = false → (s.gv a + i.signExtend 64).toNat % 4 = 0 →
    Completes (.jalr d a i) s fun t =>
      t.gv d = (s.pc + 4).setWidth 64 ∧ t.gp d = false ∧ t.fpcr = s.fpcr ∧ ScalarFrame s t d ∧
        Passes s t ((s.gv a + i.signExtend 64).setWidth 16)) ∧
  (∀ s d a (i : BitVec 16), s.gp a = false → (s.gv a + i.signExtend 64).toNat % 4 ≠ 0 → s.core.ctl.priv = .u →
    Completes (.jalr d a i) s fun t => TrapTaken s t .align (s.gv a + i.signExtend 64) s.pc)

/-- R179: the scalar float instructions, each rounded once under what it captures, with the flags, and the
poison of its operands. -/
def Obligations.ScalarFloatResults : Prop :=
  Float2 .fadd (fun y v a b => y.fmt.add v a b) ∧ Float2 .fsub (fun y v a b => y.fmt.sub v a b) ∧
  Float2 .fmul (fun y v a b => y.fmt.mul v a b) ∧ Float2 .fdiv (fun y v a b => y.fmt.div v a b) ∧
  Float2 .fmin (fun y v a b => y.fmt.minMax v false a b) ∧ Float2 .fmax (fun y v a b => y.fmt.minMax v true a b) ∧
  FloatCmp .fcmpeq cmpEq ∧ FloatCmp .fcmplt cmpLt ∧ FloatCmp .fcmple cmpLe ∧
  (∀ s d a b c y, Completes (.ffma d a b c y) s fun t =>
    let r := (FTy.fmt y).fma s.fenv (s.fv y a) (s.fv y b) (s.fv y c)
    WritesG s t d (BitVec.ofNat 64 r.1) (s.gp a || s.gp b || s.gp c) r.2 4) ∧
  (∀ s d a y, Completes (.fsqrt d a y) s fun t =>
    let r := (FTy.fmt y).sqrt s.fenv (s.fv y a)
    WritesG s t d (BitVec.ofNat 64 r.1) (s.gp a) r.2 4) ∧
  (∀ s d a y, Completes (.fclass d a y) s fun t =>
    WritesG s t d (BitVec.ofNat 64 ((FTy.fmt y).classify (s.gv a).toNat)) (s.gp a) 0 4) ∧
  (∀ s d a r y f, (Instr.fcvt d a r y f).wellFormed = true → Completes (.fcvt d a r y f) s fun t =>
    let v : FEnv := ⟨rndMode r s.fenv, s.fenv.ftz, s.fenv.daz⟩
    let x := numPut y v (numVal f v.daz (s.gv a))
    WritesG s t d x.1 (s.gp a) x.2 4)

/-! ## Loads and stores -/

/-- R30, R31, R38, R174, R175: `LD` from the issuing core's scratchpad and from a peer of its cluster: the value,
extended by its width, the poison of its word, no other register and no byte of memory; the 8 bytes that an `ST` has
just written come back; a word of a peer that was read ahead has the value taken then (R115); an `LD` waits for a burst of an
ORDERED transfer, or an atomic, of the core to its word (R114), and its value may be taken later, when its register is written (R115). What an address of the issuing core's own scratchpad gives, whatever its register: the access
when the offset is below 0x1_0000 and aligned, ALIGN when it is not aligned, BOUNDS from 0x1_0000 on, and BOUNDS for a
far address.
The model's choices in it: log entries 17 and 24. -/
def Obligations.LoadResultsAndChecks : Prop :=
  ((∀ s r a w (d : BitVec 13) off, s.gp a = false → s.path (s.gv a + d.signExtend 64) (LdW.bytes w) = .own off →
     Completes (.ld r a w d) s fun t =>
       let n := LdW.bytes w
       let x := s.readNat (nodeBase s.here + off) n
       WritesG s t r (if LdW.signed w then BitVec.ofInt 64 (signExtend (8 * n) x) else BitVec.ofNat 64 x)
         (s.poisoned (nodeBase s.here + off)) 0 4) ∧
   (∀ s r a w (d : BitVec 13) k off, s.gp a = false → s.path (s.gv a + d.signExtend 64) (LdW.bytes w) = .peer k off →
     PeerQuiet s k → Completes (.ld r a w d) s fun t =>
       let n := LdW.bytes w
       let x := s.readNat (nodeBase k + off) n
       t.gv r = (if LdW.signed w then BitVec.ofInt 64 (signExtend (8 * n) x) else BitVec.ofNat 64 x) ∧
       t.gp r = s.poisoned (nodeBase k + off) ∧ SameG s t [r] ∧ SameV s t ∧ PeerRead s t) ∧
   (∀ s r a w (d : BitVec 13) k off q, s.gp a = false →
     s.path (s.gv a + d.signExtend 64) (LdW.bytes w) = .peer k off → s.core.sh.ahead = [q] → q.key = k →
     wordsOf (nodeBase k + off) (LdW.bytes w) = [q.word] → ¬ q.word ∈ s.core.ordering → s.core.sh.late = [] →
     Completes (.ld r a w d) s fun t =>
       let n := LdW.bytes w
       let x := q.val.toNat / 256 ^ (off % 8) % 256 ^ n
       t.gv r = (if LdW.signed w then BitVec.ofInt 64 (signExtend (8 * n) x) else BitVec.ofNat 64 x) ∧ t.gp r = q.p ∧
       t.core.sh.ahead = [] ∧ SameG s t [r] ∧ SameV s t ∧ SameOutside s t ∧ t.pc = s.pc + 4) ∧
   (∀ s r a w (d : BitVec 13) k off, s.gp a = false → s.path (s.gv a + d.signExtend 64) (LdW.bytes w) = .peer k off →
     (shareWord (wordsOf (nodeBase k + off) (LdW.bytes w)) s.core.ordering = true →
       Completes (.ld r a w d) s (HeldAt s)) ∧
     (s.core.ordering = [] → s.core.sh.ahead = [] → .readLate ∈ s.met → s.core.ctl.riga = false →
       Completes (.ld r a w d) s fun t =>
         t.core.sh = { s.core.sh with late := s.core.sh.late ++ [⟨.scalar r w, k, off⟩] } ∧ t.core.regs = s.core.regs ∧
         t.core.slots = s.core.slots ∧ t.core.eng = s.core.eng ∧ SameOutside s t ∧ t.pc = s.pc + 4)) ∧
   (∀ s r w k off, k ≠ s.here → s.core.sh.late = [⟨.scalar r w, k, off⟩] → (s.coreAt k).sh.port = [] → s.core.flying = [] →
     let u := s.takeNth 0
     let n := LdW.bytes w
     let x := s.readNat (nodeBase k + off) n
     u.gv r = (if LdW.signed w then BitVec.ofInt 64 (signExtend (8 * n) x) else BitVec.ofNat 64 x) ∧
     u.gp r = s.anyPoison (nodeBase k + off) n ∧ u.core.sh.late = [] ∧ SameG s u [r] ∧ SameV s u ∧ u.pc = s.pc ∧
     SameStore s u) ∧
   (∀ s t r q a (d : BitVec 13) off, s.gp a = false → s.gp r = false →
      s.path (s.gv a + d.signExtend 64) 8 = .own off → exec (.st r a .w64 d) s = .next t →
      Completes (.ld q a .d64 d) t fun u => u.gv q = s.gv r ∧ u.gp q = false)) ∧
  (∀ s : State, isCore s.here → keyX s.here ≤ 319 → keyY s.here ≤ 159 →
     (∀ (w : LdW) off, off < 0x10000 → off % LdW.bytes w = 0 → s.path (ownAddr off) (LdW.bytes w) = .own off) ∧
     (∀ r a w off, s.core.ctl.priv = .u → s.gp a = false → s.gv a = ownAddr off → off < 0x10000 → off % LdW.bytes w ≠ 0 →
       Completes (.ld r a w 0) s fun t => TrapTaken s t .align (s.gv a) s.pc) ∧
     (∀ r a w off, s.core.ctl.priv = .u → s.gp a = false → s.gv a = ownAddr off → 0x10000 ≤ off → off < 0x40000 →
       Completes (.ld r a w 0) s fun t => TrapTaken s t .bounds (s.gv a) s.pc) ∧
     (∀ r a w, s.core.ctl.priv = .u → s.gp a = false → (s.gv a).extractLsb' 62 2 = 1 →
       Completes (.ld r a w 0) s fun t => TrapTaken s t .bounds (s.gv a) s.pc))

/-- R39, R40, R112, R175: `ST` into the issuing core's scratchpad writes the low bytes of its register there and sets
the line's owner tag; poisoned data poisons the word; clean data of 8 bytes clears its poison. No other byte of memory
and no register changes. `ST` to a peer of the cluster waits at the peer's port with its bytes, its poison and its
tag, after the core's own reads of its words that are still to be taken (R115), and changes no byte of memory until the port serves it.
The model's choices in it: log entry 17. -/
def Obligations.StoreEffects : Prop :=
  (∀ s r a w (d : BitVec 13) off, s.gp a = false → s.path (s.gv a + d.signExtend 64) (StW.bytes w) = .own off →
     Completes (.st r a w d) s fun t =>
       let n := StW.bytes w
       let m := nodeBase s.here + off
       (∀ i, i < n → t.byte (m + i) = (s.gv r).extractLsb' (8 * i) 8) ∧ SameBytesBut s t m n ∧
       (s.gp r = true → t.poisoned m = true) ∧ (s.gp r = false → w = .w64 → t.poisoned m = false) ∧
       (s.gp r = false → w ≠ .w64 → t.poisoned m = s.poisoned m) ∧
       (∀ b, b / 8 ≠ m / 8 → t.poisoned b = s.poisoned b) ∧
       t.tag m = (if s.core.ctl.priv = .u then s.core.ctl.slot.setWidth 5
         else if s.tag m = 0x10 then 0x1F else s.tag m) ∧
       (∀ b, b / 64 ≠ m / 64 → t.tag b = s.tag b) ∧
       t.core.regs = s.core.regs ∧ t.core.eng = s.core.eng ∧ Passes s t (s.pc + 4)) ∧
  ((∀ s r a w (d : BitVec 13) k off, s.gp a = false → s.path (s.gv a + d.signExtend 64) (StW.bytes w) = .peer k off →
     k ≠ s.here →
     let u := s.takeWords (wordsOf (nodeBase k + off) (StW.bytes w))
     (s.core.sh.late = [] → u = s) ∧
     Completes (.st r a w d) s fun t =>
       (t.coreAt k).sh.port = (u.coreAt k).sh.port ++ [s.waitingStore true off (leBytes (StW.bytes w) (s.gv r).toNat) (s.gp r)] ∧
       SameMemory u t ∧ t.core.regs = u.core.regs ∧ t.pc = s.pc + 4) ∧
   (∀ s q, s.tileUp = true → s.core.sh.port = [q] → shareWord (q.words s.here) (s.coreAt q.src).writing = false →
     Completes .clusterPortAccess s fun t => t.core.sh.port = [] ∧
       (∀ i, i < q.bytes.length → t.byte (nodeBase s.here + q.off + i) = q.bytes[i]!) ∧
       SameBytesBut s t (nodeBase s.here + q.off) q.bytes.length ∧ t.core.regs = s.core.regs ∧ t.core.ctl = s.core.ctl))

/-- R39, R88, R176: `LDM` and `STM` move the registers from gt to gl and nothing else, with their poison, by the issuing core's scratchpad
or a peer's; `STM` writes the poison code of a poisoned register and sets the owner tags of its lines, at a peer when the port performs
its stores; an `LDM` of a peer waits for what the core still writes there, and its reads may be taken later (R114, R115); a range that
leaves the scratchpad gives BOUNDS before any dword moves.
The model's choices in it: log entry 17. -/
def Obligations.MultipleAccesses : Prop :=
  (∀ s (r a l : GR) (d : BitVec 11) off, r.toNat ≤ l.toNat → s.gp a = false →
    s.path (s.gv a + 8 * d.signExtend 64) 8 = .own off → off + 8 * (l.toNat - r.toNat + 1) ≤ 0x10000 →
    let m := nodeBase s.here + off
    let n := 8 * (l.toNat - r.toNat + 1)
    (Completes (.ldm r a l d) s fun t =>
      (∀ g : GR, r.toNat ≤ g.toNat → g.toNat ≤ l.toNat →
        t.gv g = BitVec.ofNat 64 (s.readNat (m + 8 * (g.toNat - r.toNat)) 8) ∧
        t.gp g = s.poisoned (m + 8 * (g.toNat - r.toNat))) ∧
      (∀ g : GR, (g.toNat < r.toNat ∨ l.toNat < g.toNat) → t.gv g = s.gv g ∧ t.gp g = s.gp g) ∧
      SameV s t ∧ SameTables s t ∧ SameOutside s t ∧ Passes s t (s.pc + 4)) ∧
    (Completes (.stm r a l d) s fun t =>
      (∀ g : GR, r.toNat ≤ g.toNat → g.toNat ≤ l.toNat →
        (∀ i, i < 8 → t.byte (m + 8 * (g.toNat - r.toNat) + i) = (s.gv g).extractLsb' (8 * i) 8) ∧
        t.poisoned (m + 8 * (g.toNat - r.toNat)) = s.gp g) ∧
      SameBytesBut s t m n ∧ (∀ b, (b < m ∨ m + n ≤ b) → t.poisoned b = s.poisoned b) ∧ Owns s t m n ∧
      t.core.regs = s.core.regs ∧ t.core.eng = s.core.eng ∧ Passes s t (s.pc + 4))) ∧
  (∀ s (r a l : GR) (d : BitVec 11) k off, r.toNat ≤ l.toNat → s.gp a = false →
    s.path (s.gv a + 8 * d.signExtend 64) 8 = .peer k off → off + 8 * (l.toNat - r.toNat + 1) ≤ 0x10000 →
    let m := nodeBase k + off
    let n := l.toNat - r.toNat + 1
    let reg (i : Nat) : GR := BitVec.ofNat 5 (r.toNat + i)
    (PeerQuiet s k → Completes (.ldm r a l d) s fun t =>
      (∀ i, i < n → t.gv (reg i) = BitVec.ofNat 64 (s.readNat (m + 8 * i) 8) ∧ t.gp (reg i) = s.poisoned (m + 8 * i)) ∧
      (∀ g : GR, (g.toNat < r.toNat ∨ l.toNat < g.toNat) → t.gv g = s.gv g ∧ t.gp g = s.gp g) ∧ SameV s t ∧ PeerRead s t) ∧
    (shareWord (wordsOf m (8 * n)) s.core.ordering = true → Completes (.ldm r a l d) s (HeldAt s)) ∧
    (s.core.ordering = [] → s.core.sh.ahead = [] → .readLate ∈ s.met → s.core.ctl.riga = false →
      Completes (.ldm r a l d) s fun t =>
        t.core.sh = { s.core.sh with
          late := s.core.sh.late ++ (List.range n).map fun i => ⟨.scalar (reg i) .d64, k, off + 8 * i⟩ } ∧
        t.core.regs = s.core.regs ∧ t.core.slots = s.core.slots ∧ SameOutside s t ∧ t.pc = s.pc + 4) ∧
    (s.core.sh.late = [] → Completes (.stm r a l d) s fun t =>
      (t.coreAt k).sh.port = (s.coreAt k).sh.port ++
        (List.range n).map (fun i => s.waitingStore false (off + 8 * i) (leBytes 8 (s.gv (reg i)).toNat) (s.gp (reg i))) ∧
      SameMemory s t ∧ t.core.regs = s.core.regs ∧ t.pc = s.pc + 4)) ∧
  (∀ s (r a l : GR) (d : BitVec 11) off, r.toNat ≤ l.toNat → s.gp a = false → s.core.ctl.priv = .u →
    (s.path (s.gv a + 8 * d.signExtend 64) 8 = .own off ∨ ∃ k, s.path (s.gv a + 8 * d.signExtend 64) 8 = .peer k off) →
    0x10000 < off + 8 * (l.toNat - r.toNat + 1) →
    (Completes (.ldm r a l d) s fun t => TrapTaken s t .bounds (s.gv a + 8 * d.signExtend 64) s.pc) ∧
    (Completes (.stm r a l d) s fun t => TrapTaken s t .bounds (s.gv a + 8 * d.signExtend 64) s.pc))

/-! ## Control registers -/

/-- R6, R25, R26, R28, R46-R53, R177: `CRRD` writes the register's view at the current privilege, with no poison but that
of `SSCR`; a register without a U view gives PRIV at U. Each view is its fields at the places the spec gives and 0 in every
reserved bit; at U the ledger key of `DOMID` reads 0. `CRRD SEAMT` writes the entry its selector names: a region offset with
its VALID bit while the site is FENCED or LIVE, or a boundary of the seam table; a selector that names none gives BOUNDS
with the selector, a poisoned one POISON.
The model's choices in it: log entry 67 (what a seam entry counts) and log entry 70 (`TSTAT` shows PEND of the slot in `TID.SLOT`,
at U the running one). -/
def Obligations.ControlRegisterReads : Prop :=
  (∀ s d n, Cr.readRow n = true → (s.core.ctl.priv = .s ∨ crClosed n = false) →
    Completes (.crrd d n) s fun t =>
      WritesG s t d (s.crView n) (match n with | .sscr => s.core.ctl.sscr.p | _ => false) 0 4) ∧
  (∀ s d n, Cr.readRow n = true → s.core.ctl.priv = .u → crClosed n = true →
    Completes (.crrd d n) s fun t => TrapTaken s t .priv s.parcel s.pc) ∧
  (∀ n, crClosed n = true ↔ n ∈ [Cr.tcause, .tpc, .tval, .tstat, .kvec, .rampf, .sscr]) ∧
  (∀ s : State,
    let k := s.core.ctl
    let r := s.core.regs.rigs
    s.crView .fpcr = (0 : BitVec 50) ++ s.fpcr.extractLsb' 8 6 ++ (0 : BitVec 3) ++ s.fpcr.extractLsb' 0 5 ∧
    s.crView .tid = (0 : BitVec 24) ++ k.tidY ++ (0 : BitVec 7) ++ k.tidX ++ (0 : BitVec 12) ++ k.slot ∧
    s.crView .shard = (0 : BitVec 40) ++ k.gy ++ (0 : BitVec 7) ++ k.gx ∧
    s.crView .grp = k.hm1 ++ (0 : BitVec 7) ++ k.wm1 ++ k.row0 ++ (0 : BitVec 7) ++ k.col0 ++ k.gid ∧
    (k.priv = .u → s.crView .domid = (0 : BitVec 48) ++ k.dom) ∧
    (k.priv = .s → s.crView .domid = (0 : BitVec 35) ++ k.key ++ k.dom) ∧
    s.crView .rclk = s.rclk ∧ s.crView .tcmp = s.slot.tcmp ∧
    s.crView .prio = (0 : BitVec 55) ++ BitVec.ofBool s.slot.paddle ++ (0 : BitVec 6) ++ s.slot.level ∧
    s.crView .tcause = (0 : BitVec 55) ++ BitVec.ofBool k.async ++ (0 : BitVec 3) ++ k.cause ∧
    s.crView .tpc = (0 : BitVec 48) ++ k.tpc.extractLsb' 2 14 ++ (0 : BitVec 2) ∧ s.crView .tval = k.tval ∧
    s.crView .tstat = (0 : BitVec 49) ++ BitVec.ofBool k.riga ++ s.slot.pend ++ (0 : BitVec 8) ∧
    s.crView .rigs = r.iter ++ (0 : BitVec 8) ++ r.sv ++ (0 : BitVec 4) ++ BitVec.ofBool r.fault ++ BitVec.ofBool r.active ++
      r.last ++ r.slot ∧
    (∀ i : BitVec 6, (s.crView .seatb).getLsbD i.toNat = ((bget s.core.sh.seat i).count != 0)) ∧
    s.crView .kvec = (0 : BitVec 48) ++ k.kvec ++ (0 : BitVec 12) ∧
    s.crView .rampf = (0 : BitVec 47) ++ BitVec.ofBool k.paddle ++ tget 0 s.power.floors (siteOf s.here) ∧
    s.crView .sscr = k.sscr.v ∧ (∀ i, s.crView (.pmc i) = bget k.pmc i)) ∧
  (∀ s d a, s.gp a = false →
    let v := s.gv a
    let space := v.toNat / 512
    let i := v.toNat % 512
    let gives (x : BitVec 64) : Prop := Completes (.crrdSeamt d a) s fun t => WritesG s t d x false 0 4
    (space = 0 → i ≤ 318 → gives (s.seamEntry true i)) ∧ (space = 1 → i ≤ 158 → gives (s.seamEntry false i)) ∧
    (space = 2 → i ≤ 99 →
      let g := tget Region.reset s.clock.regions i
      let up := (s.site (i / 4)).st = .fenced ∨ (s.site (i / 4)).st = .live
      (up → gives ((0 : BitVec 47) ++ BitVec.ofBool g.valid ++ g.offset)) ∧ (¬ up → gives ((0 : BitVec 48) ++ g.offset))) ∧
    (s.core.ctl.priv = .u → (3 ≤ space ∨ (space = 0 ∧ 318 < i) ∨ (space = 1 ∧ 158 < i) ∨ (space = 2 ∧ 99 < i)) →
      Completes (.crrdSeamt d a) s fun t => TrapTaken s t .bounds v s.pc)) ∧
  (∀ s d a, s.gp a = true → s.core.ctl.priv = .u → Completes (.crrdSeamt d a) s fun t => TrapTaken s t .poison 0 s.pc)

/-- R6, R46-R51, R53, R81, R177: `CRWR` commits. At S a register takes the fields S writes, and its reserved bits stay 0; at
U a register that U only reads is left as it is, and one without a U view gives PRIV; `FPCR` clears flags written as 1 at U
and takes them as given at S; PEND clears bits written as 1; a new LEVEL moves a queued slot to the tail of its new FIFO;
`RIGS` is ILLEGAL while a rig is active; a poisoned source gives POISON but for `SSCR`, which takes its poison bit.
The model's choices in it: log entries 51 (that a `CRWR` which sets a counter to EVENT 2 is the first event it counts) and 70. -/
def Obligations.ControlRegisterWrites : Prop :=
  let rest (s t : State) : Prop := KeepsG s t ∧ SameV s t ∧ SameOutside s t
  let tables (s t : State) : Prop := t.core.slots = s.core.slots ∧ t.core.sh = s.core.sh
  let slots (s t : State) : Prop := t.core.sh = s.core.sh ∧ t.core.regs = s.core.regs ∧
    ∀ j, j ≠ s.core.ctl.slot → t.core.slot j = s.core.slot j
  let fields (i : Instr) (s : State) (k : Ctl) : Prop := Completes i s fun t => t.core.ctl = k ∧ rest s t ∧ tables s t ∧
    t.core.regs = s.core.regs
  (∀ s a, s.gp a = false →
    (Completes (.crwrFpcr a) s fun t =>
      t.fpcr.extractLsb' 0 5 = (s.gv a).extractLsb' 0 5 ∧ t.fpcr.extractLsb' 5 3 = 0 ∧
      t.fpcr.extractLsb' 8 6 = (match s.core.ctl.priv with
        | .s => (s.gv a).extractLsb' 8 6
        | .u => s.fpcr.extractLsb' 8 6 &&& ~~~((s.gv a).extractLsb' 8 6)) ∧
      rest s t ∧ SameTables s t ∧ Passes s t (s.pc + 4))) ∧
  (∀ s a, s.gp a = false → s.core.ctl.priv = .u →
    let kept (i : Instr) : Prop := Completes i s fun t => OnlyPc s t (s.pc + 4)
    kept (.crwrTid a) ∧ kept (.crwrTcmp a) ∧ kept (.crwrPrio a) ∧ (s.core.ctl.riga = false → kept (.crwrRigs a)) ∧
    (∀ n, n ∈ [Cr.shard, .grp, .domid, .rclk, .seatb, .seamt] → kept (.crwr a n)) ∧ (∀ i, kept (.crwr a (.pmc i))) ∧
    (s.core.ctl.riga = true → Completes (.crwrRigs a) s fun t => TrapTaken s t .illegal s.parcel s.pc)) ∧
  (∀ s a, s.core.ctl.priv = .u →
    let denied (i : Instr) : Prop := Completes i s fun t => TrapTaken s t .priv s.parcel s.pc
    let spoiled (i : Instr) : Prop := s.gp a = true → Completes i s fun t => TrapTaken s t .poison 0 s.pc
    denied (.crwrTstat a) ∧ denied (.crwrSscr a) ∧
    (∀ n, n ∈ [Cr.tcause, .tpc, .tval, .kvec, .rampf] → denied (.crwr a n)) ∧
    spoiled (.crwrFpcr a) ∧ spoiled (.crwrTid a) ∧ spoiled (.crwrTcmp a) ∧ spoiled (.crwrPrio a) ∧ spoiled (.crwrRigs a) ∧
    (∀ n, n ∈ [Cr.shard, .grp, .domid, .rclk, .seatb, .seamt] → spoiled (.crwr a n)) ∧ (∀ i, spoiled (.crwr a (.pmc i)))) ∧
  (∀ s a, s.gp a = false → s.core.ctl.priv = .s →
    let v := s.gv a
    let lv : BitVec 2 := if v.extractLsb' 0 2 = 3 ∧ s.slot.paddle = false then 2 else v.extractLsb' 0 2
    let me := s.core.ctl.slot
    fields (.crwrTid a) s { s.ctlAt (s.pc + 4) with slot := v.setWidth 4 } ∧
    (Completes (.crwrTcmp a) s fun t => t.slot = { s.slot with tcmp := v } ∧ rest s t ∧ slots s t ∧ Passes s t (s.pc + 4)) ∧
    (s.slot.qd = false ∨ s.slot.level = lv → Completes (.crwrPrio a) s fun t =>
      t.slot = { s.slot with level := lv } ∧ rest s t ∧ slots s t ∧ Passes s t (s.pc + 4)) ∧
    (s.slot.qd = true → s.slot.level ≠ lv → Completes (.crwrPrio a) s fun t =>
      t.slot.level = lv ∧ t.slot.qd = true ∧ t.slot.st = s.slot.st ∧ rest s t ∧
      bget t.core.sh.fifo lv = (bget s.core.sh.fifo lv).filter (· != me) ++ [me] ∧
      (∀ l : BitVec 2, l ≠ lv → bget t.core.sh.fifo l = (bget s.core.sh.fifo l).filter (· != me)) ∧
      (∀ j, j ≠ me → { t.core.slot j with pend := (s.core.slot j).pend, pendVal := (s.core.slot j).pendVal } = s.core.slot j) ∧
      (∀ j, j ≠ me → s.core.running ≠ some j → t.core.slot j = s.core.slot j) ∧
      (∀ j, s.core.running = some j → lv < (t.core.slot j).level → (t.core.slot j).pend.getLsbD 1 = true)) ∧
    (Completes (.crwrTstat a) s fun t =>
      { t.slot with cutPend := s.slot.cutPend } = { s.slot with pend := s.slot.pend &&& ~~~(v.extractLsb' 8 6) } ∧
      rest s t ∧ slots s t ∧ Passes s t (s.pc + 4)) ∧
    (s.core.ctl.riga = false → Completes (.crwrRigs a) s fun t => t.core.regs = { s.core.regs with rigs :=
        ⟨v.extractLsb' 32 32, v.extractLsb' 16 8, v.getLsbD 11, v.getLsbD 10, v.extractLsb' 5 5, v.extractLsb' 0 5⟩ } ∧
      rest s t ∧ tables s t ∧ Passes s t (s.pc + 4)) ∧
    fields (.crwr a .tpc) s { s.ctlAt (s.pc + 4) with tpc := v.extractLsb' 2 14 ++ (0 : BitVec 2) } ∧
    fields (.crwr a .tval) s { s.ctlAt (s.pc + 4) with tval := v } ∧
    fields (.crwr a .kvec) s { s.ctlAt (s.pc + 4) with kvec := v.extractLsb' 12 4 } ∧
    fields (.crwr a .tcause) s { s.ctlAt (s.pc + 4) with async := v.getLsbD 8, cause := v.extractLsb' 0 5 } ∧
    (∀ i, Completes (.crwr a (.pmc i)) s fun t =>
      (bget t.core.ctl.pmc i).extractLsb' 48 16 = v.extractLsb' 48 16 ∧
      (bget t.core.ctl.pmc i).extractLsb' 0 48 = v.extractLsb' 0 48 + (if v.extractLsb' 48 16 = 2 then 1 else 0) ∧
      (∀ j, j ≠ i → bget t.core.ctl.pmc j = bget (s.ctlAt s.pc).pmc j) ∧
      { t.core.ctl with pmc := s.core.ctl.pmc } = { s.core.ctl with pc := s.pc + 4, issue := .run } ∧
      rest s t ∧ tables s t ∧ t.core.regs = s.core.regs) ∧
    (∀ n, n ∈ [Cr.shard, .grp, .domid, .rclk, .seatb, .rampf, .seamt] →
      Completes (.crwr a n) s fun t => OnlyPc s t (s.pc + 4))) ∧
  (∀ s a, s.core.ctl.priv = .s → fields (.crwrSscr a) s { s.ctlAt (s.pc + 4) with sscr := ⟨s.gv a, s.gp a⟩ })

/-! ## Vector instructions -/

/-- R183, R184, R189: the lane-by-lane instructions over the types R182 allows each; an integer `VADD`, `VSUB` and
`VMUL` wraps in each lane by itself: every active lane of the result is the sum, difference or product of the lanes
modulo 2^w, and every inactive lane is as it was. -/
def Obligations.VectorLaneResults : Prop :=
  (Vec2 .vadd Ty.intFloat laneAdd ∧ Vec2 .vsub Ty.intFloat laneSub ∧ Vec2 .vmul Ty.intFloat laneMul ∧
   Vec2 .vmin Ty.intFloat laneMin ∧ Vec2 .vmax Ty.intFloat laneMax ∧
   Vec2 .vand Ty.intFloat (fun _ _ x z => (x &&& z, 0)) ∧ Vec2 .vor Ty.intFloat (fun _ _ x z => (x ||| z, 0)) ∧
   Vec2 .vxor Ty.intFloat (fun _ _ x z => (x ^^^ z, 0)) ∧
   Vec2 .vshl Ty.int (fun y _ x k => (x * 2 ^ (k % y.bits) % 2 ^ y.bits, 0)) ∧
   Vec2 .vshr Ty.int (fun y _ x k => (x / 2 ^ (k % y.bits), 0)) ∧
   Vec2 .vsra Ty.int (fun y _ x k => (wrap y.bits (signExtend y.bits x / (2 ^ (k % y.bits) : Nat)), 0)) ∧
   Vec1 .vabs (fun y => y.signedInt || y.float) (fun y _ => laneAbs y) ∧
   Vec1 .vneg (fun y => y.signedInt || y.float) (fun y _ => laneNeg y) ∧
   (∀ s d a b m y, Ty.intFloat y = true → Completes (.vfma d a b m y) s fun t =>
     let g (k : Nat) : FRes := laneFma y s.fenv (lane (s.vl y a) k) (lane (s.vl y b) k) (lane (s.vl y d) k)
     WritesV s t d (s.laneReg d m y ((s.vr a).p || (s.vr b).p) true g) (allFlags (s.lanewise d m y g))) ∧
   (∀ s d a y, Ty.intFloat y || Ty.block y → Completes (.vmov d a none y) s fun t => WritesV s t d (s.vr a) 0) ∧
   (∀ s d a k y, Ty.intFloat y = true → Completes (.vmov d a (some k) y) s fun t =>
     WritesV s t d (s.laneReg d (some k) y (s.vr a).p false fun i => (lane (s.vl y a) i, 0)) 0)) ∧
  (∀ s d a b m y k, Ty.int y = true → k < Ty.lanes y →
     (Completes (.vadd d a b m y) s fun t => lane (t.vl y d) k =
       if s.active m k then (lane (s.vl y a) k + lane (s.vl y b) k) % 2 ^ Ty.bits y else lane (s.vl y d) k) ∧
     (Completes (.vsub d a b m y) s fun t => lane (t.vl y d) k =
       if s.active m k then (lane (s.vl y a) k + (2 ^ Ty.bits y - lane (s.vl y b) k)) % 2 ^ Ty.bits y else lane (s.vl y d) k) ∧
     (Completes (.vmul d a b m y) s fun t => lane (t.vl y d) k =
       if s.active m k then (lane (s.vl y a) k * lane (s.vl y b) k) % 2 ^ Ty.bits y else lane (s.vl y d) k))

/-- R183, R184, R190-R193: selection by a mask bit, comparison into a mask with the flags of its lanes, reduction, permutation, each with
its side and poison. -/
def Obligations.VectorSelectCompareReduce : Prop :=
  (∀ s d a b m y k, Ty.intFloat y = true → k < Ty.lanes y → Completes (.vsel d a b m y) s fun t =>
    lane (t.vl y d) k = (if (s.mr m).getLsbD k then lane (s.vl y a) k else lane (s.vl y b) k) ∧
    (t.vr d).side = 0 ∧ (t.vr d).p = ((s.vr a).p || (s.vr b).p) ∧ (∀ r, r ≠ d → t.vr r = s.vr r) ∧ KeepsG s t ∧
    t.core.regs.m = s.core.regs.m ∧ t.fpcr = s.fpcr ∧ SameOutside s t ∧ Passes s t (s.pc + 4)) ∧
  VecCmp .vcmpEq (fun x z => decide (x = z)) cmpEq ∧
  VecCmp .vcmpNe (fun x z => decide (x ≠ z)) (fun x z => (!(cmpEq x z).1, (cmpEq x z).2)) ∧
  VecCmp .vcmpLt (fun x z => decide (x < z)) cmpLt ∧ VecCmp .vcmpLe (fun x z => decide (x ≤ z)) cmpLe ∧
  VecCmp .vcmpGt (fun x z => decide (z < x)) (fun x z => cmpLt z x) ∧
  VecCmp .vcmpGe (fun x z => decide (z ≤ x)) (fun x z => cmpLe z x) ∧
  VecRed .vredAdd Ty.intFloat unitAdd laneAdd ∧ VecRed .vredMin Ty.intFloat unitMin laneMin ∧
  VecRed .vredMax Ty.intFloat unitMax laneMax ∧ VecRed .vredOr Ty.int (fun _ => 0) (fun _ _ x z => (x ||| z, 0)) ∧
  (∀ s d a b m y k, Ty.intFloat y = true → k < Ty.lanes y → Completes (.vperm d a b m y) s fun t =>
    lane (t.vl y d) k = (if s.active m k then lane (s.vl y a) (lane (s.vl y b) k % Ty.lanes y) else lane (s.vl y d) k) ∧
    (t.vr d).side = 0 ∧ (t.vr d).p = ((s.vr a).p || (s.vr b).p || (m.isSome && (s.vr d).p)) ∧
    (∀ r, r ≠ d → t.vr r = s.vr r) ∧ KeepsG s t ∧ t.core.regs.m = s.core.regs.m ∧ t.fpcr = s.fpcr ∧ SameOutside s t ∧
    Passes s t (s.pc + 4))

/-- R39, R88, R186, R187: the parts of a vector or mask register and memory, through the issuing core's scratchpad or a peer's; strided
and indexed accesses whose active lanes all lie in the own scratchpad, or all in peers' of the cluster: lane i moves to or from
ga + i * gb, or ga plus its index; a byte outside every active lane is not written; a lane that no other active lane overlaps is stored as
it stands. A load takes the poison of its words, and of the old register where it merges; a store writes the poison of its register
and sets the owner tags of its lines, at a peer when the port performs it. `VLD.body` of a peer may be taken later, word by word (R115).
The model's choices in it: log entries 17 and 34. -/
def Obligations.VectorAccesses : Prop :=
  ((∀ s (v : VR) a (d : BitVec 5) off, s.gp a = false → s.path (s.gv a + BitVec.ofNat 64 (64 * d.toNat)) 64 = .own off →
     let m := nodeBase s.here + off
     (Completes (.vldBody v a d) s fun t =>
       WritesV s t v ⟨BitVec.ofNat 512 (s.readNat m 64), 0, s.anyPoison m 64⟩ 0) ∧
     (Completes (.vstBody v a d) s fun t =>
       (∀ i, i < 64 → t.byte (m + i) = (s.vr v).body.extractLsb' (8 * i) 8) ∧ SameBytesBut s t m 64 ∧
       (∀ i, i < 64 → t.poisoned (m + i) = (s.vr v).p) ∧ Owns s t m 64 ∧ t.core.regs = s.core.regs ∧
       t.core.eng = s.core.eng ∧ Passes s t (s.pc + 4))) ∧
   (∀ s (v : VR) a (d : BitVec 5) off, s.gp a = false → s.path (s.gv a + BitVec.ofNat 64 (8 * d.toNat)) 8 = .own off →
     let m := nodeBase s.here + off
     (Completes (.vldSide v a d) s fun t =>
       WritesV s t v ⟨(s.vr v).body, BitVec.ofNat 64 (s.readNat m 8), (s.vr v).p || s.poisoned m⟩ 0) ∧
     (Completes (.vstSide v a d) s fun t =>
       (∀ i, i < 8 → t.byte (m + i) = (s.vr v).side.extractLsb' (8 * i) 8) ∧ SameBytesBut s t m 8 ∧
       t.poisoned m = (s.vr v).p ∧ Owns s t m 8 ∧ t.core.regs = s.core.regs ∧ t.core.eng = s.core.eng ∧
       Passes s t (s.pc + 4))) ∧
   (∀ s (v : MR) a (d : BitVec 5) off, s.gp a = false → s.path (s.gv a + BitVec.ofNat 64 (8 * d.toNat)) 8 = .own off →
     let m := nodeBase s.here + off
     (s.poisoned m = false → Completes (.vldMask v a d) s fun t => WritesM s t v (BitVec.ofNat 64 (s.readNat m 8)) 0) ∧
     (s.poisoned m = true → s.core.ctl.priv = .u → Completes (.vldMask v a d) s fun t => TrapTaken s t .poison 0 s.pc) ∧
     (Completes (.vstMask v a d) s fun t =>
       (∀ i, i < 8 → t.byte (m + i) = (s.mr v).extractLsb' (8 * i) 8) ∧ SameBytesBut s t m 8 ∧ t.poisoned m = false ∧
       Owns s t m 8 ∧ t.core.regs = s.core.regs ∧ t.core.eng = s.core.eng ∧ Passes s t (s.pc + 4)))) ∧
  ((∀ s (v : VR) a (d : BitVec 5) k off, s.gp a = false →
     s.path (s.gv a + BitVec.ofNat 64 (64 * d.toNat)) 64 = .peer k off →
     (PeerQuiet s k → Completes (.vldBody v a d) s fun t =>
       t.vr v = ⟨BitVec.ofNat 512 (s.readNat (nodeBase k + off) 64), 0, s.anyPoison (nodeBase k + off) 64⟩ ∧
       (∀ r, r ≠ v → t.vr r = s.vr r) ∧ KeepsG s t ∧ t.core.regs.m = s.core.regs.m ∧ PeerRead s t) ∧
     (s.core.ordering = [] → s.core.sh.ahead = [] → .readLate ∈ s.met → s.core.ctl.riga = false →
       Completes (.vldBody v a d) s fun t =>
         t.core.sh.late = s.core.sh.late ++ (List.range 8).map (fun i => ⟨.body v i, k, off + 8 * i⟩) ∧
         (∀ r, r ≠ v → t.vr r = s.vr r) ∧ KeepsG s t ∧ SameOutside s t ∧ t.pc = s.pc + 4) ∧
     (s.core.sh.late = [] → Completes (.vstBody v a d) s fun t =>
       (t.coreAt k).sh.port = (s.coreAt k).sh.port ++ (List.range 8).map (fun i =>
         s.waitingStore false (off + 8 * i) ((List.range 8).map fun j => (s.vr v).body.extractLsb' (8 * (8 * i + j)) 8) (s.vr v).p) ∧
       SameMemory s t ∧ t.core.regs = s.core.regs ∧ t.pc = s.pc + 4)) ∧
   (∀ s (v : VR) (x : MR) a (d : BitVec 5) k off, s.gp a = false →
     s.path (s.gv a + BitVec.ofNat 64 (8 * d.toNat)) 8 = .peer k off →
     let m := nodeBase k + off
     let keeps (t : State) : Prop := KeepsG s t ∧ PeerRead s t
     let waits (t : State) (w : BitVec 64) (p : Bool) : Prop :=
       (t.coreAt k).sh.port = (s.coreAt k).sh.port ++ [s.waitingStore false off (leBytes 8 w.toNat) p] ∧
       SameMemory s t ∧ t.core.regs = s.core.regs ∧ t.pc = s.pc + 4
     (PeerQuiet s k →
       (Completes (.vldSide v a d) s fun t =>
         t.vr v = ⟨(s.vr v).body, BitVec.ofNat 64 (s.readNat m 8), (s.vr v).p || s.poisoned m⟩ ∧
         (∀ r, r ≠ v → t.vr r = s.vr r) ∧ t.core.regs.m = s.core.regs.m ∧ keeps t) ∧
       (s.poisoned m = false → Completes (.vldMask x a d) s fun t =>
         t.mr x = BitVec.ofNat 64 (s.readNat m 8) ∧ (∀ r, r ≠ x → t.mr r = s.mr r) ∧ t.core.regs.v = s.core.regs.v ∧ keeps t)) ∧
     (s.core.sh.late = [] →
       (Completes (.vstSide v a d) s fun t => waits t (s.vr v).side (s.vr v).p) ∧
       (Completes (.vstMask x a d) s fun t => waits t (s.mr x) false)))) ∧
  (∀ s (v x : VR) (a b : GR) m y, (∀ (f : Nat → BitVec 64) (offs : Nat → Nat),
     (∀ i, i < Ty.lanes y → s.active m i = true → s.path (f i) (Ty.bits y / 8) = .own (offs i)) →
     let n := Ty.bits y / 8
     let base := nodeBase s.here
     let hit (c : Nat) : Prop := ∃ i, i < Ty.lanes y ∧ s.active m i = true ∧ c = base + offs i
     let loaded (t : State) : Prop :=
       (∀ i, i < Ty.lanes y → lane (t.vl y v) i =
         if s.active m i then s.readNat (base + offs i) n else lane (s.vl y v) i) ∧
       (t.vr v).side = 0 ∧ ((t.vr v).p = true ↔ (∃ c, hit c ∧ s.poisoned c = true) ∨ (m.isSome = true ∧ (s.vr v).p = true)) ∧
       (∀ r, r ≠ v → t.vr r = s.vr r) ∧ KeepsG s t ∧ t.core.regs.m = s.core.regs.m ∧
       t.fpcr = s.fpcr ∧ SameTables s t ∧ SameOutside s t ∧ Passes s t (s.pc + 4)
     let stored (t : State) : Prop :=
       (∀ i, i < Ty.lanes y → s.active m i = true →
         (∀ j, j < Ty.lanes y → s.active m j = true → j ≠ i → offs j + n ≤ offs i ∨ offs i + n ≤ offs j) →
         ∀ k, k < n → t.byte (base + offs i + k) = BitVec.ofNat 8 (lane (s.vl y v) i / 256 ^ k)) ∧
       (∀ c, (∀ i, i < Ty.lanes y → s.active m i = true → c < base + offs i ∨ base + offs i + n ≤ c) →
         t.byte c = s.byte c) ∧
       (∀ c, hit c → t.poisoned c = if (s.vr v).p then true else if n = 8 then false else s.poisoned c) ∧
       (∀ b, (∀ c, hit c → c / 8 ≠ b / 8) → t.poisoned b = s.poisoned b) ∧
       (∀ c, hit c → t.tag c = s.ownedBy (s.tag c)) ∧ (∀ b, (∀ c, hit c → c / 64 ≠ b / 64) → t.tag b = s.tag b) ∧
       t.core.regs = s.core.regs ∧ t.core.eng = s.core.eng ∧ Passes s t (s.pc + 4)
     (Ty.intFloat y = true → s.gp a = false → s.gp b = false → f = s.strideAddr a b →
       Completes (.vlds v a b m y) s loaded ∧ Completes (.vsts v a b m y) s stored) ∧
     (Ty.gather y = true → s.gp a = false → (s.vr x).p = false → f = s.indexAddr a x y →
       Completes (.vgath v a x m y) s loaded ∧ Completes (.vscat v a x m y) s stored)) ∧
    (∀ (f : Nat → BitVec 64) (at_ : Nat → Nat × Nat),
     (∀ i, i < Ty.lanes y → s.active m i = true → s.path (f i) (Ty.bits y / 8) = .peer (at_ i).1 (at_ i).2) →
     let n := Ty.bits y / 8
     let lanesOf (k : Nat) : List Nat := (List.range (Ty.lanes y)).filter fun i => s.active m i && (at_ i).1 == k
     let loaded (t : State) : Prop :=
       (∀ i, i < Ty.lanes y → lane (t.vl y v) i =
         if s.active m i then s.readNat (nodeBase (at_ i).1 + (at_ i).2) n else lane (s.vl y v) i) ∧
       (t.vr v).side = 0 ∧ ((t.vr v).p = true ↔ (∃ i, i < Ty.lanes y ∧ s.active m i = true ∧
         s.poisoned (nodeBase (at_ i).1 + (at_ i).2) = true) ∨ (m.isSome = true ∧ (s.vr v).p = true)) ∧
       (∀ r, r ≠ v → t.vr r = s.vr r) ∧ KeepsG s t ∧ t.core.regs.m = s.core.regs.m ∧ PeerRead s t
     let waiting (t : State) : Prop :=
       (∀ k, k ≠ s.here → (t.coreAt k).sh.port = (s.coreAt k).sh.port ++ (lanesOf k).map fun i =>
         s.waitingStore false (at_ i).2 (leBytes n (lane (s.vl y v) i)) (s.vr v).p) ∧
       SameMemory s t ∧ t.core.regs = s.core.regs ∧ t.pc = s.pc + 4
     let quiet : Prop := ∀ i, i < Ty.lanes y → s.active m i = true → PeerQuiet s (at_ i).1
     (Ty.intFloat y = true → s.gp a = false → s.gp b = false → f = s.strideAddr a b →
       (quiet → Completes (.vlds v a b m y) s loaded) ∧ (s.core.sh.late = [] → Completes (.vsts v a b m y) s waiting)) ∧
     (Ty.gather y = true → s.gp a = false → (s.vr x).p = false → f = s.indexAddr a x y →
       (quiet → Completes (.vgath v a x m y) s loaded) ∧ (s.core.sh.late = [] → Completes (.vscat v a x m y) s waiting))))

/-- R187: the block forms of `VLDS` and `VSTS`: each block's mantissa plane, BK4 nibbles sign-extended into
byte lanes, the side written as 0; the planes are stored in ascending order, so that each one holds its block but for what a
later one overwrites; a store changes no byte outside its planes.
The model's choices in it: log entry 74. -/
def Obligations.VectorBlockAccesses : Prop :=
  ∀ s (v : VR) (a b : GR) y (offs : Nat → Nat), Ty.block y = true → s.gp a = false → s.gp b = false →
    (∀ i, i < Ty.blocks y → s.path (s.strideAddr a b i) (Ty.planeBytes y) = .own (offs i)) →
    let n := Ty.planeBytes y
    let base := nodeBase s.here
    (Completes (.vlds v a b none y) s fun t =>
      (∀ i, i < Ty.blocks y → (t.vr v).body.toNat / 2 ^ (256 * i) % 2 ^ (if y = .bk16 then 512 else 256) =
        planeToBody y (s.readNat (base + offs i) n)) ∧
      (t.vr v).side = 0 ∧ ((t.vr v).p = true ↔ ∃ i, i < Ty.blocks y ∧ s.anyPoison (base + offs i) n = true) ∧
      (∀ r, r ≠ v → t.vr r = s.vr r) ∧ KeepsG s t ∧ t.core.regs.m = s.core.regs.m ∧ t.fpcr = s.fpcr ∧ SameTables s t ∧
      SameOutside s t ∧ Passes s t (s.pc + 4)) ∧
    (Completes (.vsts v a b none y) s fun t =>
      (∀ c, (∀ i, i < Ty.blocks y → c < base + offs i ∨ base + offs i + n ≤ c) → t.byte c = s.byte c) ∧
      (∀ i, i < Ty.blocks y → (∀ j, i < j → j < Ty.blocks y → offs j + n ≤ offs i ∨ offs i + n ≤ offs j) →
        ∀ k, k < n → t.poisoned (base + offs i + k) = (s.vr v).p ∧
          t.byte (base + offs i + k) = BitVec.ofNat 8 (bodyToPlane y ((s.vr v).body.toNat / 2 ^ (256 * i)) / 256 ^ k)) ∧
      t.core.regs = s.core.regs ∧ t.core.eng = s.core.eng ∧ Passes s t (s.pc + 4))

/-- R188, R199: `VBCAST`, `VINS` and `VEXT`; a lane number outside the register gives BOUNDS and changes nothing.
The mask instructions. -/
def Obligations.LaneMovesAndMasks : Prop :=
  (∀ s v a m y, Ty.intFloat y = true → Completes (.vbcast v a m y) s fun t =>
    WritesV s t v (s.laneReg v m y (s.gp a) false fun _ => ((s.gv a).toNat % 2 ^ Ty.bits y, 0)) 0) ∧
  (∀ s v a b y, Ty.intFloat y = true → s.gp b = false → (s.gv b).toNat < Ty.lanes y →
    (Completes (.vins v a b y) s fun t =>
      (∀ i, i < Ty.lanes y → lane (t.vl y v) i =
        if i = (s.gv b).toNat then (s.gv a).toNat % 2 ^ Ty.bits y else lane (s.vl y v) i) ∧
      (∀ r, r ≠ v → t.vr r = s.vr r) ∧ KeepsG s t ∧ SameOutside s t ∧ Passes s t (s.pc + 4)) ∧
    (Completes (.vext v a b y) s fun t =>
      let x := lane (s.vl y v) (s.gv b).toNat
      WritesG s t a (if Ty.signedInt y then BitVec.ofInt 64 (signExtend (Ty.bits y) x) else BitVec.ofNat 64 x)
        (s.vr v).p 0 4)) ∧
  (∀ s v a b y, Ty.intFloat y = true → s.gp b = false → Ty.lanes y ≤ (s.gv b).toNat → s.core.ctl.priv = .u →
    (Completes (.vins v a b y) s fun t => TrapTaken s t .bounds (s.gv b) s.pc) ∧
    (Completes (.vext v a b y) s fun t => TrapTaken s t .bounds (s.gv b) s.pc)) ∧
  (∀ s d a b,
    (Completes (.mand d a b) s fun t => WritesM s t d (s.mr a &&& s.mr b) 0) ∧
    (Completes (.mor d a b) s fun t => WritesM s t d (s.mr a ||| s.mr b) 0) ∧
    (Completes (.mxor d a b) s fun t => WritesM s t d (s.mr a ^^^ s.mr b) 0) ∧
    (Completes (.mnot d a) s fun t => WritesM s t d (~~~(s.mr a)) 0)) ∧
  (∀ s d a,
    (Completes (.mpop d a) s fun t =>
      WritesG s t d (BitVec.ofNat 64 ((List.range 64).countP fun i => (s.mr a).getLsbD i)) false 0 4) ∧
    (Completes (.mfirst d a) s fun t => ∃ n, WritesG s t d (BitVec.ofNat 64 n) false 0 4 ∧ n ≤ 64 ∧
      (∀ i, i < n → (s.mr a).getLsbD i = false) ∧ (n < 64 → (s.mr a).getLsbD n = true)))

/-- R65, R194-R197: conversions between lane types, and between binary32 and block formats: each result with its poison and its
flags. `VPACKBK` steps the generator once for each of its 32 elements while `BSR` is set, and else leaves it. -/
def Obligations.VectorConversions : Prop :=
  (∀ s d a f m y, (Instr.vcvt d a f m y).wellFormed = true → Completes (.vcvt d a f m y) s fun t =>
    let g (k : Nat) : FRes := if min (Ty.lanes y) (Ty.lanes f) ≤ k then (0, 0)
      else if s.active m k then laneConvert y f s.fenv (lane (s.vl f a) k) else (lane (s.vl y d) k, 0)
    (∀ k, k < Ty.lanes y → lane (t.vl y d) k = (g k).1 % 2 ^ Ty.bits y) ∧ (t.vr d).side = 0 ∧
    (t.vr d).p = ((s.vr a).p || (m.isSome && (s.vr d).p)) ∧
    t.fpcr = s.fpcr ||| ((allFlags ((List.range (Ty.lanes y)).map g)).setWidth 14 <<< 8) ∧
    (∀ r, r ≠ d → t.vr r = s.vr r) ∧ KeepsG s t ∧ t.core.regs.m = s.core.regs.m ∧ t.core.eng = s.core.eng ∧
    SameTables s t ∧ SameOutside s t ∧ Passes s t (s.pc + 4)) ∧
  (∀ s d a b y, (Instr.vpackbk d a b y).wellFormed = true → Completes (.vpackbk d a b y) s fun t =>
    let x := (s.vl .f32 a ++ s.vl .f32 b).map fun w => (fmtF32.unpack s.fenv.daz w).exact
    let q := lfsrDraws 32 s.core.sh.lfsr
    let sr := fpcrBsr s.fpcr
    let r := convertToBlock x (Ty.mbits y) s.fenv.rm sr (if sr then q.1 else []) (floorOf (s.vr a).side)
    (y = .bk16 → t.vr d = ⟨BitVec.ofNat 512 (r.1.bodyBits y), BitVec.ofNat 64 r.1.scale, (s.vr a).p || (s.vr b).p⟩) ∧
    (y ≠ .bk16 →
      (t.vr d).body.toNat % 2 ^ 256 = (s.vr d).body.toNat / 2 ^ 256 ∧ (t.vr d).body.toNat / 2 ^ 256 = r.1.bodyBits y ∧
      (t.vr d).side.toNat % 2 ^ 32 = (s.vr d).side.toNat / 2 ^ 32 ∧ (t.vr d).side.toNat / 2 ^ 32 = r.1.scale ∧
      (t.vr d).p = ((s.vr a).p || (s.vr b).p || (s.vr d).p)) ∧
    t.fpcr = s.fpcr ||| (r.2.setWidth 14 <<< 8) ∧
    t.core.sh = { s.core.sh with lfsr := if sr then q.2 else s.core.sh.lfsr } ∧
    (∀ z, z ≠ d → t.vr z = s.vr z) ∧ KeepsG s t ∧ t.core.regs.m = s.core.regs.m ∧ t.core.regs.rigs = s.core.regs.rigs ∧
    t.core.eng = s.core.eng ∧ t.core.slots = s.core.slots ∧ SameOutside s t ∧ Passes s t (s.pc + 4)) ∧
  (∀ s d a k m y, Ty.block y = true → BitVec.toNat k < Ty.parts y → Completes (.vunbk d a k m y) s fun t =>
    let g (i : Nat) : FRes := fmtF32.ofExact s.fenv (((s.vr a).block y (k.toNat / 2)).value (Ty.mbits y) (16 * (k.toNat % 2) + i))
    WritesV s t d (s.laneReg d m .f32 (s.vr a).p false g) (allFlags (s.lanewise d m .f32 g))) ∧
  (∀ s d a b, Completes (.vscale d a b .bk16) s fun t =>
    let r := scaleBlock .bk16 (s.vr a).body.toNat ((s.vr a).side.toNat % 2 ^ 32) (signExtend 32 (lane (lanes 32 (s.vr b).body) 0))
    WritesV s t d ⟨BitVec.ofNat 512 r.1, BitVec.ofNat 64 r.2.1, (s.vr a).p || (s.vr b).p⟩ r.2.2) ∧
  (∀ s d a b y, y = .bk4 ∨ y = .bk8 → Completes (.vscale d a b y) s fun t =>
    let part (i : Nat) : Nat × Nat × Flags := scaleBlock y ((s.vr a).body.toNat / 2 ^ (256 * i) % 2 ^ 256)
      ((s.vr a).side.toNat / 2 ^ (32 * i) % 2 ^ 32) (signExtend 32 (lane (lanes 32 (s.vr b).body) i))
    WritesV s t d ⟨BitVec.ofNat 512 ((part 0).1 + (part 1).1 * 2 ^ 256),
      BitVec.ofNat 64 ((part 0).2.1 + (part 1).2.1 * 2 ^ 32), (s.vr a).p || (s.vr b).p⟩ ((part 0).2.2 ||| (part 1).2.2))

/-- R64, R75, R198: the approximate functions write each active lane under the captured controls of `FPCR`, and of every input
give what R75 says: every quiet and signalling NaN, the infinities and zeros, every integer of `VEXP2` and every power of two of
`VLOG2`, every negative number, what lies above or below the domain; for every other input a result within the bound, with its
flags. x is the input after DAZ, ulp the unit of R75.
The model's choices in it: log entry 10. -/
def Obligations.SpecialFunctions : Prop :=
  let lanewise (i : VR → VR → Option MR → Instr) (f : Nat → BitVec 14 → FRes) : Prop :=
    ∀ s d a m, Completes (i d a m) s fun t =>
      let g (k : Nat) : FRes := f (lane (s.vl .f32 a) k) (s.fpcr &&& 0xFF)
      WritesV s t d (s.laneReg d m .f32 (s.vr a).p false g) (allFlags (s.lanewise d m .f32 g))
  let expo (w : Nat) : Nat := w / 2 ^ 23 % 256
  let frac (w : Nat) : Nat := w % 2 ^ 23
  let val (daz : Bool) (w : Nat) : ℝ := (if 2 ^ 31 ≤ w then -1 else 1) *
    (if expo w = 0 then (if daz then 0 else (frac w : ℝ) * (2 : ℝ) ^ (-149 : ℤ))
      else ((2 ^ 23 + frac w : ℕ) : ℝ) * (2 : ℝ) ^ ((expo w : ℤ) - 150))
  let ulp (w : Nat) : ℝ := (2 : ℝ) ^ (((max (expo w) 1 : ℕ) : ℤ) - 150)
  let gives (r : FRes) (fl : Flags) (ok : Nat → Prop) : Prop := r.1 < 2 ^ 32 ∧ expo r.1 ≠ 255 ∧ r.2 = fl ∧ ok r.1
  lanewise .vexp2 exp2Lane ∧ lanewise .vlog2 log2Lane ∧ lanewise .vrcpa rcpaLane ∧ lanewise .vrsqa rsqaLane ∧
  (∀ (f : BitVec 14) w, w < 2 ^ 32 →
    let x := val (fpcrDaz f) w
    let sign : Nat := if 2 ^ 31 ≤ w then 2 ^ 31 else 0
    let between : Prop := ∀ k : ℤ, -149 ≤ k → x ≠ k
    (expo w = 255 → frac w ≠ 0 →
      let r : FRes := (0x7FC00000, if 2 ^ 22 ≤ frac w then 0 else flagNV)
      exp2Lane w f = r ∧ log2Lane w f = r ∧ rcpaLane w f = r ∧ rsqaLane w f = r) ∧
    (expo w = 255 → frac w = 0 →
      exp2Lane w f = (if sign = 0 then 0x7F800000 else 0, 0) ∧
      log2Lane w f = (if sign = 0 then (0x7F800000, 0) else (0x7FC00000, flagNV)) ∧ rcpaLane w f = (sign, 0) ∧
      rsqaLane w f = (if sign = 0 then (0, 0) else (0x7FC00000, flagNV))) ∧
    (expo w ≠ 255 →
      ((128 ≤ x → exp2Lane w f = (0x7F800000, flagOF ||| flagNX)) ∧
       (x < -150 → exp2Lane w f = (0, flagUF ||| flagNX)) ∧
       (∀ k : ℤ, x = k → -149 ≤ k → k ≤ 127 →
         (fpcrFtz f = true ∧ k < -126 → exp2Lane w f = (0, flagUF ||| flagNX)) ∧
         (fpcrFtz f = false ∨ -126 ≤ k → gives (exp2Lane w f) 0 fun y => val false y = (2 : ℝ) ^ k)) ∧
       (between → -126 ≤ x → x < 128 → gives (exp2Lane w f) flagNX fun y => |val false y - (2 : ℝ) ^ x| ≤ 2 * ulp y) ∧
       (between → -150 ≤ x → x < -126 →
         (fpcrFtz f = true → exp2Lane w f = (0, flagUF ||| flagNX)) ∧
         (fpcrFtz f = false → gives (exp2Lane w f) (flagUF ||| flagNX) fun y =>
           |val false y - (2 : ℝ) ^ x| ≤ 2 * (2 : ℝ) ^ (-149 : ℤ)))) ∧
      ((x = 0 → log2Lane w f = (0xFF800000, flagDZ)) ∧ (x < 0 → log2Lane w f = (0x7FC00000, flagNV)) ∧
       (∀ k : ℤ, x = (2 : ℝ) ^ k → (k = 0 → log2Lane w f = (0, 0)) ∧ gives (log2Lane w f) 0 fun y => val false y = k) ∧
       (0 < x → (∀ k : ℤ, x ≠ (2 : ℝ) ^ k) → gives (log2Lane w f) flagNX fun y =>
         |val false y - Real.logb 2 x| ≤ 2 * ulp y)) ∧
      ((x = 0 → rcpaLane w f = (0x7F800000 + sign, flagDZ)) ∧
       (x ≠ 0 → (2 : ℝ) ^ (128 : ℤ) ≤ |x⁻¹| → rcpaLane w f = (0x7F800000 + sign, flagOF ||| flagNX)) ∧
       (fpcrFtz f = true → x ≠ 0 → |x⁻¹| < (2 : ℝ) ^ (-126 : ℤ) → rcpaLane w f = (sign, flagUF ||| flagNX)) ∧
       (fpcrFtz f = false ∨ (2 : ℝ) ^ (-126 : ℤ) ≤ |x⁻¹| → x ≠ 0 → |x⁻¹| < (2 : ℝ) ^ (128 : ℤ) →
         gives (rcpaLane w f) 0 fun y => (2 ^ 31 ≤ y ↔ sign ≠ 0) ∧
           ((2 : ℝ) ^ (-126 : ℤ) ≤ |val false y| → |val false y - x⁻¹| ≤ (2 : ℝ) ^ (-14 : ℤ) * |x⁻¹|) ∧
           (|val false y| < (2 : ℝ) ^ (-126 : ℤ) → |val false y - x⁻¹| ≤ (2 : ℝ) ^ (-140 : ℤ)))) ∧
      ((x = 0 → rsqaLane w f = (0x7F800000 + sign, flagDZ)) ∧ (x < 0 → rsqaLane w f = (0x7FC00000, flagNV)) ∧
       (0 < x → gives (rsqaLane w f) 0 fun y => (2 : ℝ) ^ (-64 : ℤ) ≤ val false y ∧
         |val false y - (Real.sqrt x)⁻¹| ≤ (2 : ℝ) ^ (-14 : ℤ) * (Real.sqrt x)⁻¹))))

/-! ## Tensor unit and rigs -/

/-- R201, R202, R206-R208, R210, R213, R214, R216: an engine instruction whose checks pass captures its registers,
descriptors, `FPCR` and slot, and enters its engine; a full engine makes it wait. A descriptor load writes the whole
descriptor when it keeps its rules; one that breaks a rule gives BOUNDS at its address and changes nothing.
The model's choices in it: log entry 51. -/
def Obligations.TensorIssue : Prop :=
  ((∀ s t a b w y, Ty.mma y = true → s.gp a = false → s.gp b = false →
     mmaFault s.core.eng.adesc s.core.eng.bdesc (s.gv a) (s.gv b) y = none →
     (s.core.eng.tq.length < 16 → Completes (.mma t a b w y) s fun u => Enters s u (s.newOp (.mma y) t w (s.gv a) (s.gv b))) ∧
     (16 ≤ s.core.eng.tq.length → Completes (.mma t a b w y) s (WaitsEngine s))) ∧
   (∀ s t a b w, s.gp a = false → s.gp b = false →
     descNb s.core.eng.adesc % stepBlocks (descKept s.core.eng.bdesc) = 0 →
     mmasFault s.core.eng.adesc s.core.eng.bdesc (s.gv a) (s.gv b) = none →
     (s.core.eng.tq.length < 16 → Completes (.mmas t a b w) s fun u => Enters s u (s.newOp .mmas t w (s.gv a) (s.gv b))) ∧
     (16 ≤ s.core.eng.tq.length → Completes (.mmas t a b w) s (WaitsEngine s))) ∧
   (∀ s t a, s.core.eng.tq.length < 16 →
     (Completes (.accz t) s fun u => Enters s u (s.newOp .accz t 0 0 0)) ∧
     (s.gp a = false → Completes (.accrn t a) s fun u => Enters s u (s.newOp .accrn t 0 (s.gv a) 0))) ∧
   (∀ s t a w y off, Ty.image y = true → s.gp a = false → s.ownPath (s.gv a) 8 = .own off → off % 64 = 0 →
     off + imageBytes y ≤ 0x10000 →
     (s.core.eng.mover.length < 4 → Completes (.accld t a w y) s fun u =>
       Enters s u (s.newOp (.accld y) t w (BitVec.ofNat 64 off) 0)) ∧
     (s.core.eng.mover.length < 4 → fpcrBsr s.fpcr = false → Completes (.accst t a w y) s fun u =>
       Enters s u (s.newOp (.accst y) t w (BitVec.ofNat 64 off) 0)) ∧
     (4 ≤ s.core.eng.mover.length → Completes (.accld t a w y) s (WaitsEngine s) ∧
       Completes (.accst t a w y) s (WaitsEngine s)))) ∧
  ((∀ s a off, s.gp a = false → s.ownPath (s.gv a) 8 = .own off → off % 32 = 0 →
     s.anyPoison (nodeBase s.here + off) 32 = false →
     let v := BitVec.ofNat 256 (s.readNat (nodeBase s.here + off) 32)
     (adescOk v = true → Completes (.mafd a) s fun t => t.core.eng = { s.core.eng with adesc := v } ∧
       t.core.regs = s.core.regs ∧ SameTables s t ∧ SameOutside s t ∧ Passes s t (s.pc + 4)) ∧
     (adescOk v = false → s.core.ctl.priv = .u → Completes (.mafd a) s fun t => TrapTaken s t .bounds (s.gv a) s.pc)) ∧
   (∀ s a off, s.gp a = false → s.ownPath (s.gv a) 8 = .own off → off % 16 = 0 →
     s.anyPoison (nodeBase s.here + off) 16 = false →
     let v := BitVec.ofNat 128 (s.readNat (nodeBase s.here + off) 16)
     (bdescOk v = true → Completes (.mbfd a) s fun t => t.core.eng = { s.core.eng with bdesc := v } ∧
       t.core.regs = s.core.regs ∧ SameTables s t ∧ SameOutside s t ∧ Passes s t (s.pc + 4)) ∧
     (bdescOk v = false → s.core.ctl.priv = .u → Completes (.mbfd a) s fun t => TrapTaken s t .bounds (s.gv a) s.pc)))

/-- R201, R211-R214: on a tile that is up, an operation at the head of the tensor queue that may start writes its tile and no
other: `ACCZ` zeros, `ACCRN` the selected rows renormalised and the others kept, `MMA` the products of the
K-blocks added into each element.
The model's choices in it: log entry 30. -/
def Obligations.TensorOperations : Prop :=
  ∀ s o, s.tileUp = true → s.core.eng.readyT = some o →
    (o.kind = .accz → Completes .acczPerform s fun t => Performs s t o ∧ SameMemory s t ∧
      t.tile o.tile = Vector.replicate 16 ⟨Vector.replicate 16 0, 0, false⟩) ∧
    (o.kind = .accrn → Completes .accrnPerform s fun t => Performs s t o ∧ SameMemory s t ∧
      ∀ r (h : r < 16), (t.tile o.tile)[r] = (if o.ga.getLsbD (16 + r) then
        (renormRow (s.tile o.tile)[r] (min (o.ga.toNat % 256) 254)).1 else (s.tile o.tile)[r])) ∧
    (∀ y, o.kind = .mma y → Completes .mmaExecute s fun t => Performs s t o ∧ SameMemory s t ∧ Counted s t o ∧
      (y = .bf16 → t.tile o.tile = (combine (s.tile o.tile)
        (grid (descNb o.adesc) fun r k => s.readBf16 (fpcrDaz o.fpcr) (fetchA o.adesc o.ga 64 r k))
        (grid (descNb o.adesc) fun c k => s.readBf16 (fpcrDaz o.fpcr) (some (fetchB o.bdesc o.gb c k))) bf16Element).1) ∧
      (∀ q n, (y, q, n) ∈ [(Ty.bk4, 16, 4), (.bk8, 32, 8), (.bk16, 64, 16)] → t.tile o.tile = (combine (s.tile o.tile)
        (grid (descNb o.adesc) fun r k => s.readBlk n q (fetchA o.adesc o.ga q r k))
        (grid (descNb o.adesc) fun c k => s.readBlk n q (some (fetchB o.bdesc o.gb c k))) (mmaElement n)).1)) ∧
    (o.kind = .mmas → Completes .mmasExecute s fun t => Performs s t o ∧ SameMemory s t ∧ Counted s t o ∧
      let kept := descKept o.bdesc
      let column (c : Nat) : List (Blk × Bool) := (List.range (descNb o.adesc / stepBlocks kept)).flatMap fun j =>
        s.readRecord kept (fetchB o.bdesc o.gb c j).1
      t.tile o.tile = (combine (s.tile o.tile)
        (grid (descNb o.adesc) fun r k => s.readBlk 8 32 (fetchA o.adesc o.ga 32 r k))
        ((List.range 16).map column) (mmaElement 8)).1)

/-- R215-R218: `ACCLD.i32` reads mantissas and exponents from their places in the image; `ACCST` writes its image there
and no other byte. `ACCSC` reads a row's exponent and poison once its tile is idle, and waits before; `WAIT` takes its
count, sleeps at U and holds at S while the count is not there.
The model's choices in it: log entries 30 and 34. -/
def Obligations.AccumulatorImagesAndWaits : Prop :=
  (∀ s o, s.tileUp = true → s.core.eng.readyM = some o →
     (∀ y, o.kind = .accld y → Completes .accldPerform s fun t => Performs s t o ∧ SameMemory s t ∧ Counted s t o ∧
       (y = .i32 → ∀ r c (hr : r < 16) (hc : c < 16),
         ((t.tile o.tile)[r].m)[c] = BitVec.ofNat 32 (s.readNat (nodeBase s.here + o.ga.toNat + 64 * r + 4 * c) 4) ∧
         ((t.tile o.tile)[r]).x = BitVec.ofNat 8 (s.readNat (nodeBase s.here + o.ga.toNat + 1024 + r) 1)) ∧
       (y ≠ .i32 → ∀ r (hr : r < 16), (t.tile o.tile)[r] = (s.loadRow y o.fpcr (nodeBase s.here + o.ga.toNat) r).1)) ∧
     (∀ y, o.kind = .accst y → Completes .accstPerform s fun t => Performs s t o ∧ Counted s t o ∧
       t.tile o.tile = s.tile o.tile ∧
       SameBytesBut s t (nodeBase s.here + o.ga.toNat) (imageBytes y) ∧
       (y = .i32 → ∀ r c (hr : r < 16) (hc : c < 16), ∀ k, k < 4 →
         t.byte (nodeBase s.here + o.ga.toNat + 64 * r + 4 * c + k) = (((s.tile o.tile)[r].m)[c]).extractLsb' (8 * k) 8) ∧
       (∀ i w p, (imageOf y (s.tile o.tile) o.fpcr o.draws).1[i]? = some (w, p) → ∀ j, j < 8 →
         t.byte (nodeBase s.here + o.ga.toNat + 8 * i + j) = BitVec.ofNat 8 (w / 256 ^ j)))) ∧
  ((∀ s t d b (h : (s.gv b).toNat < 16), s.gp b = false →
     (s.core.eng.tileIdle t = true → Completes (.accsc t d b) s fun u =>
       let r := (s.tile t)[(s.gv b).toNat]
       WritesG s u d (r.x.setWidth 64 ||| (if r.p then 256 else 0)) false 0 4) ∧
     (s.core.eng.tileIdle t = false → Completes (.accsc t d b) s (WaitsEngine s))) ∧
   (∀ s (c : BitVec 10) w, c ≠ 0 →
     (c.toNat ≤ (bget s.slot.w w).toNat → Completes (.wait c w) s fun t =>
       t.slot = { s.slot with w := bset s.slot.w w (bget s.slot.w w - c.setWidth 16) } ∧ t.core.regs = s.core.regs ∧
       t.core.eng = s.core.eng ∧ t.core.sh = { s.core.sh with ahead := [] } ∧ SameOutside s t ∧ Passes s t (s.pc + 4)) ∧
     ((bget s.slot.w w).toNat < c.toNat → s.core.ctl.priv = .u → Completes (.wait c w) s fun t =>
       SleptFor s t (.counter w c)) ∧
     ((bget s.slot.w w).toNat < c.toNat → s.core.ctl.priv = .s → Completes (.wait c w) s (HeldAt s))))

/-- R51, R86, R151, R152, R165, R219-R222: a rig of no strokes clears `RIGS` and passes on behind its entries; a rig of strokes
ends with no rig active in the core, no stage valid and no slot named, behind its entries unless it faulted or can be resumed, a
cause pending there being taken with that address; a rig whose opening finds a fault raises it and changes nothing; one that would
overtake an ORDERED burst to its cluster holds. What the strokes do is said of two rigs of n strokes at S, whose count register may be
any: an entry of stage 1 works one stroke behind the entry of stage 0 whose results it reads; a store and the pointer it goes by
fill n dwords. `RIGSV` stores the fields of `RIGS` as one dword,
`RIGLD` at S writes every field from one and drops the rest, so that a saved `RIGS` comes back; `RIGLD` at U gives
PRIV.
The model's choices in it: log entry 29. -/
def Obligations.RigRunsAndSaves : Prop :=
  ((∀ s a l es, s.rigBody (BitVec.toNat l) = .ok es → s.rigCount a l = .ok 0 → Completes (.rig a l) s fun t =>
     t.core.regs = { s.core.regs with rigs := ⟨0, 0, false, false, 0, 0⟩ } ∧ t.core.slots = s.core.slots ∧
     t.core.eng = s.core.eng ∧ t.core.sh = s.core.sh ∧ SameOutside s t ∧
     Passes s t (s.pc + 16 + 4 * BitVec.ofNat 16 (l.toNat + 1))) ∧
   (∀ s a l es n, s.rigBody (BitVec.toNat l) = .ok es → s.rigCount a l = .ok n → n ≠ 0 →
     (s.rigWaits = true → Completes (.rig a l) s (HeldAt s)) ∧
     (s.rigWaits = false → Completes (.rig a l) s fun t =>
       let exit : BitVec 16 := s.pc + 16 + 4 * BitVec.ofNat 16 (l.toNat + 1)
       let q := t.core.regs.rigs
       t.core.ctl.riga = false ∧ q.sv = 0 ∧ q.slot = 0 ∧ q.last = l ∧
       (q.fault = false → q.active = false → q.iter = 0 ∧
         (t.core.ctl.priv = s.core.ctl.priv → t.pc = exit) ∧
         (t.core.ctl.priv ≠ s.core.ctl.priv → t.core.ctl.async = true ∧ t.core.ctl.tpc = exit)))) ∧
   (∀ (s : State) (a d e b : GR), s.core.ctl.priv = .s → s.core.regs.rigs.active = false → s.rigWaits = false →
     s.stageFault 1 3 = none → s.stageOf 0 = 0 → s.stageOf 1 = 1 → s.poisoned (s.codeKey (s.entryAt 0)) = false →
     s.poisoned (s.codeKey (s.entryAt 1)) = false →
     encode (.add d d b) = some (s.parcelAt (s.entryAt 0), none) → encode (.add e e d) = some (s.parcelAt (s.entryAt 1), none) →
     d ≠ b → e ≠ d → e ≠ b → s.gp a = false → s.gp b = false → s.gp d = false → s.gp e = false →
     s.gv a ≠ 0 → (s.gv a).toNat < 2 ^ 32 → Completes (.rig a 1) s fun t =>
       let n := (s.gv a).toNat
       t.gv d = s.gv d + s.gv a * s.gv b ∧
       t.gv e = s.gv e + s.gv a * s.gv d + BitVec.ofNat 64 (n * (n + 1) / 2) * s.gv b ∧ t.gp d = false ∧ t.gp e = false ∧
       SameG s t [d, e] ∧ SameV s t ∧ t.fpcr = s.fpcr ∧ t.pc = s.pc + 24 ∧ t.core.ctl.priv = .s ∧
       ((∀ k, (s.coreAt k).sh.port = []) → SameStore s t)) ∧
   (∀ (s : State) (a r x : GR) off, s.core.ctl.priv = .s → s.core.regs.rigs.active = false → s.rigWaits = false →
     s.stageFault 1 3 = none → s.stageOf 0 = 0 → s.stageOf 1 = 0 → s.poisoned (s.codeKey (s.entryAt 0)) = false →
     s.poisoned (s.codeKey (s.entryAt 1)) = false →
     encode (.st r x .w64 0) = some (s.parcelAt (s.entryAt 0), none) →
     encode (.addi x x 8) = some (s.parcelAt (s.entryAt 1), none) → r ≠ x → isCore s.here = true → keyX s.here ≤ 319 →
     keyY s.here ≤ 159 → s.gv x = ownAddr off → off % 8 = 0 → off + 8 * (s.gv a).toNat ≤ 0x10000 → s.gp a = false →
     s.gp r = false → s.gp x = false → s.gv a ≠ 0 → (∀ k, (s.coreAt k).sh.port = []) → Completes (.rig a 1) s fun t =>
       let n := (s.gv a).toNat
       (∀ j, j < n → ∀ i, i < 8 → t.byte (nodeBase s.here + off + 8 * j + i) = (s.gv r).extractLsb' (8 * i) 8) ∧
       SameBytesBut s t (nodeBase s.here + off) (8 * n) ∧ t.gv x = s.gv x + 8 * s.gv a ∧ t.gp x = false ∧ SameG s t [x] ∧
       SameV s t ∧ t.fpcr = s.fpcr ∧ t.pc = s.pc + 24) ∧
   (∀ s a l c v, s.rigBody (BitVec.toNat l) = .error (c, v) → s.core.ctl.priv = .u → Completes (.rig a l) s fun t =>
     TrapTaken s t c v s.pc)) ∧
  ((∀ s a (i : BitVec 16) off, s.gp a = false → s.ownPath (s.gv a + i.signExtend 64) 8 = .own off →
     (Completes (.rigsv a i) s fun t =>
       (∀ k, k < 8 → t.byte (nodeBase s.here + off + k) = (s.core.regs.rigs.word).extractLsb' (8 * k) 8) ∧
       SameBytesBut s t (nodeBase s.here + off) 8 ∧ t.core.regs = s.core.regs ∧ Passes s t (s.pc + 4)) ∧
     (s.core.ctl.priv = .s → s.poisoned (nodeBase s.here + off) = false → Completes (.rigld a i) s fun t =>
       t.core.regs = { s.core.regs with rigs := Rigs.ofWord (BitVec.ofNat 64 (s.readNat (nodeBase s.here + off) 8)) } ∧
       SameOutside s t ∧ Passes s t (s.pc + 4))) ∧
   (∀ s a i, s.core.ctl.priv = .u → Completes (.rigld a i) s fun t => TrapTaken s t .priv s.parcel s.pc) ∧
   (∀ r : Rigs, Rigs.ofWord r.word = r))

/-! ## Traps and the scheduler -/

/-- R55, R56, R136, R256: at U, `TRAP`, a parcel that is no instruction and a poisoned fetch take their causes; the core
is in S at the cause's entry of the vector table with the resume address in `TPC`. A synchronous cause at S is a core
fault: issue stops, every slot that is not FREE is TRAPPED, no slot is queued, the boathouse log has the cause, and a
RUNNING group of the core goes to FAULTED.
The model's choices in it: log entry 51. -/
def Obligations.TrapsAndCoreFaults : Prop :=
  (∀ s : State, s.core.ctl.priv = .u →
     (∀ i : BitVec 16, Completes (.trap i) s fun t => TrapTaken s t .swtrap (i.setWidth 64) (s.pc + 4)) ∧
     (∀ p : BitVec 32, Completes (.illegalInstruction p) s fun t => TrapTaken s t .illegal (p.setWidth 64) s.pc) ∧
     (s.poisoned (nodeBase s.here + s.pc.toNat) = true → Completes .poisonedFetch s fun t =>
       TrapTaken s t .poison (ownAddr (s.pc.toNat / 64 * 64)) s.pc)) ∧
  (∀ (s : State) (p : BitVec 32), s.core.ctl.priv = .s → Completes (.illegalInstruction p) s fun t =>
     t.core.ctl.issue = .stopped ∧
     (∀ i, (s.core.slot i).st ≠ .free → (t.core.slot i).st = .trapped) ∧
     (∀ i, (s.core.slot i).st = .free → (t.core.slot i).st = .free) ∧ (∀ l : BitVec 2, bget t.core.sh.fifo l = []) ∧
     LogEntry.coreFault s.here 1 (p.setWidth 64) ∈ t.boat.log ∧ t.core.regs = s.core.regs ∧
     (∀ g, s.groupOf s.core.ctl.gid = some g → (s.group g).st = .running → (t.group g).st = .faulted))

/-- R49, R55, R80-R82: of the timers of a core that are due the one of the earliest tick, and of one tick the one of the
lowest slot, is cleared and raises TIMER with the expired value, but wakes a `SLEEP`. An asynchronous cause is taken at
an instruction boundary of a context at U: the highest pending one, its bit of PEND clears, the interrupted
instruction's address is in `TPC`; at S, while an instruction holds and with nothing pending nothing happens. -/
def Obligations.TimersAndAsynchronousEntry : Prop :=
  (∀ s b, s.core.ctl.priv = .u → s.core.ctl.riga = false → s.core.ctl.issue = .run ∨ s.core.ctl.issue = .wait →
    topBit s.slot.pend = some b → Completes .asyncTrapEntry s fun t =>
      t.core.ctl.priv = .s ∧ t.core.ctl.async = true ∧ t.core.ctl.cause = (Cause.ofBit b.toNat).num ∧
      t.core.ctl.tval = s.slot.pendVal[b.toNat]?.getD 0 ∧ t.core.ctl.tpc = s.pc ∧
      t.core.ctl.pc = (s.core.ctl.kvec.setWidth 16 <<< 12) + 64 * (Cause.ofBit b.toNat).num.setWidth 16 ∧
      t.slot.pend = s.slot.pend &&& ~~~(1#6 <<< b.toNat) ∧ t.core.regs = s.core.regs ∧ t.mem = s.mem) ∧
  (∀ s, s.core.ctl.priv = .s ∨ s.core.ctl.issue = .hold ∨ s.slot.pend = 0 →
    Completes .asyncTrapEntry s fun t => t = s) ∧
  (∀ p : BitVec 6, (p.getLsbD 5 = true → topBit p = some 5) ∧
    (p.getLsbD 5 = false → p.getLsbD 4 = true → topBit p = some 4) ∧ (topBit p = none ↔ p = 0)) ∧
  (∀ s i, (s.core.slot i).tcmp ≠ 0 → (s.core.slot i).tcmp.toNat ≤ s.rclk.toNat →
    (∀ j, j ≠ i → (s.core.slot j).tcmp ≠ 0 → (s.core.slot i).tcmp.toNat < (s.core.slot j).tcmp.toNat ∨
      (s.core.slot i).tcmp = (s.core.slot j).tcmp ∧ i.toNat < j.toNat) →
    Completes (.timerExpiry i) s fun t => (t.core.slot i).tcmp = 0 ∧
      ((s.core.slot i).st = .running → (s.core.slot i).pend.getLsbD 0 = false →
        (t.core.slot i).pend = (s.core.slot i).pend ||| 1 ∧ (t.core.slot i).pendVal[0] = (s.core.slot i).tcmp) ∧
      ((s.core.slot i).st = .sleep → (s.core.slot i).why = .sleep → (s.core.slot i).lastFull = false →
        (t.core.slot i).st = .ready ∧ (t.core.slot i).wstat = 3 ∧ (t.core.slot i).pend = (s.core.slot i).pend) ∧
      t.core.regs = s.core.regs ∧ t.core.ctl = s.core.ctl ∧ SameOutside s t) ∧
  (∀ s i, ((s.core.slot i).tcmp = 0 ∨ s.rclk.toNat < (s.core.slot i).tcmp.toNat ∨
      ∃ j, (s.core.slot j).tcmp ≠ 0 ∧ ((s.core.slot j).tcmp.toNat < (s.core.slot i).tcmp.toNat ∨
        (s.core.slot j).tcmp = (s.core.slot i).tcmp ∧ j.toNat < i.toNat)) →
    Completes (.timerExpiry i) s fun t => t = s)

/-- R89, R136, R141, R177, R227: at U, what U may not do gives PRIV with the parcel in `TVAL`; a poisoned operand
that an instruction consumes gives POISON with `TVAL` 0; operands an encoding does not allow give ILLEGAL;
nothing else changes.
The model's choices in it: log entry 48. -/
def Obligations.FormsThatTrap : Prop :=
  (∀ s : State, s.core.ctl.priv = .u → ∀ i : Instr,
     ((∃ d a p, i = .tqpush d a p) ∨ (∃ d, i = .tqpop d) ∨ (∃ a, i = .haltSlot a) ∨ i = .sret ∨
       (∃ a j, i = .rigld a j) ∨ (∃ d a b, i = .coxcallPoisoned d a b) ∨
       (∃ d n, i = .crrd d n ∧ crClosed n = true) ∨ (∃ a n, i = .crwr a n ∧ crClosed n = true) ∨
       (∃ a, i = .crwrTstat a) ∨ (∃ a, i = .crwrSscr a)) → i.wellFormed = true →
     Completes i s fun t => TrapTaken s t .priv s.parcel s.pc) ∧
  (∀ s : State, s.core.ctl.priv = .u →
     (∀ r a w d, s.gp a = true → Completes (.ld r a w d) s fun t => TrapTaken s t .poison 0 s.pc) ∧
     (∀ r a w d, s.gp a = true → Completes (.st r a w d) s fun t => TrapTaken s t .poison 0 s.pc) ∧
     (∀ a b o, (s.gp a = true ∨ s.gp b = true) → (Completes (.beq a b o) s fun t => TrapTaken s t .poison 0 s.pc) ∧
       (Completes (.bltn a b o) s fun t => TrapTaken s t .poison 0 s.pc)) ∧
     (∀ d a i, s.gp a = true → Completes (.jalr d a i) s fun t => TrapTaken s t .poison 0 s.pc) ∧
     (∀ d a b m y, Ty.intFloat y = true → ((s.vr a).p = true ∨ (s.vr b).p = true) →
       Completes (.vcmpEq d a b m y) s fun t => TrapTaken s t .poison 0 s.pc) ∧
     (∀ t a b w y, Ty.mma y = true → (s.gp a = true ∨ s.gp b = true) →
       Completes (.mma t a b w y) s fun t => TrapTaken s t .poison 0 s.pc) ∧
     (∀ d a, s.gp a = true → (Completes (.join d a) s fun t => TrapTaken s t .poison 0 s.pc) ∧
       (Completes (.siteq d a) s fun t => TrapTaken s t .poison 0 s.pc)) ∧
     (∀ a, s.gp a = true → Completes (.crwrTcmp a) s fun t => TrapTaken s t .poison 0 s.pc))
 ∧
  (∀ (s : State) (i : Instr), s.core.ctl.priv = .u → i.wellFormed = false →
     Completes i s fun t => TrapTaken s t .illegal s.parcel s.pc)

/-- R55-R57, R66, R81: `SRET` at S into a READY or RUNNING slot enters U at `TPC` with that slot RUNNING and out
of every FIFO, its FLAGP added to `FPCR`, and changes no other register but the one a wake status goes to and no other slot but
the one it sets aside; a cause pending in the slot is taken at once, before any instruction at `TPC`; into any other slot it is
ILLEGAL, a core fault. -/
def Obligations.SchedulerReturn : Prop :=
  ∀ s : State, s.core.ctl.priv = .s →
    let i := s.core.ctl.slot
    let enters (t : State) : Prop :=
      t.slot.st = .running ∧ t.core.ctl.slot = i ∧ t.fpcr = s.fpcr ||| (s.slot.flagp.setWidth 14 <<< 8) ∧ t.slot.flagp = 0 ∧
      (s.slot.st = .ready → (∀ l : BitVec 2, ¬ i ∈ bget t.core.sh.fifo l) ∧
        (s.slot.wstat ≠ 0 → t.gv s.slot.wreg = s.slot.wstat.setWidth 64 ∧ t.gp s.slot.wreg = false)) ∧
      SameG s t (if s.slot.st = .ready ∧ s.slot.wstat ≠ 0 then [s.slot.wreg] else []) ∧ SameV s t ∧
      (∀ j, j ≠ i → s.core.running ≠ some j → t.core.slot j = s.core.slot j) ∧ t.mem = s.mem ∧ t.pois = s.pois ∧
      ((∀ r, s.core.running = some r → r = i ∨ s.keepsPaddle r) → SameMemory s t)
    (s.slot.st = .ready ∨ s.slot.st = .running → s.slot.pend = 0 → Completes .sret s fun t =>
      t.core.ctl.priv = .u ∧ t.pc = s.core.ctl.tpc ∧ t.core.ctl.issue = .run ∧ t.slot.pend = 0 ∧ enters t) ∧
    (∀ b, s.slot.st = .ready ∨ s.slot.st = .running → s.core.ctl.riga = false → topBit s.slot.pend = some b →
      Completes .sret s fun t =>
        t.core.ctl.priv = .s ∧ t.core.ctl.async = true ∧ t.core.ctl.cause = (Cause.ofBit b.toNat).num ∧
        t.core.ctl.tval = s.slot.pendVal[b.toNat]?.getD 0 ∧ t.core.ctl.tpc = s.core.ctl.tpc ∧
        t.pc = (s.core.ctl.kvec.setWidth 16 <<< 12) + 64 * (Cause.ofBit b.toNat).num.setWidth 16 ∧
        t.slot.pend = s.slot.pend &&& ~~~(1#6 <<< b.toNat) ∧ enters t) ∧
    (s.slot.st = .free ∨ s.slot.st = .sleep ∨ s.slot.st = .retired ∨ s.slot.st = .trapped →
      Completes .sret s fun t => t.core.ctl.issue = .stopped ∧
        (∀ j, (s.core.slot j).st ≠ .free → (t.core.slot j).st = .trapped) ∧
        (∀ j, (s.core.slot j).st = .free → (t.core.slot j).st = .free) ∧ (∀ l : BitVec 2, bget t.core.sh.fifo l = []) ∧
        LogEntry.coreFault s.here 1 s.parcel ∈ t.boat.log ∧ t.core.regs = s.core.regs ∧
        (∀ g, s.groupOf s.core.ctl.gid = some g → (s.group g).st = .running → (t.group g).st = .faulted))

/-- R77, R82, R92, R252, R280: `TQPUSH` queues a FREE slot, a READY one that stands in no FIFO and the RUNNING one, and
answers BUSY and DEAD without effect for the others; on a slot that a wake of the same cycle has queued it answers OK; a
paddle context that it makes READY while `RAMPF.PADDLE` is 0 or the group is cut, or after either while it ran, is FREE. `TQPOP` takes the head of the
non-empty FIFO of lowest LEVEL; `HALT ga` retires or frees.
The model's choices in it: log entries 44 (a paddle context that is doomed) and 69 (LEVEL where a wake of the same cycle has queued the
slot). -/
def Obligations.TaskQueues : Prop :=
  ∀ s : State, s.core.ctl.priv = .s →
    (∀ d a p, s.gp a = false → (s.gv a).toNat < 16 →
      let i : SlotId := (s.gv a).setWidth 4
      let lv : BitVec 2 := if p = 3 ∧ ¬ ((s.core.slot i).st ≠ .free ∧ (s.core.slot i).paddle = true) then 2 else p
      let takes : Prop := (s.core.slot i).st = .free ∨ ((s.core.slot i).st = .ready ∧ (s.core.slot i).qd = false) ∨
        (s.core.slot i).st = .running
      (takes → (s.core.slot i).st = .free ∨ s.keepsPaddle i →
        Completes (.tqpush d a p) s fun t => t.gv d = 0 ∧ t.gp d = false ∧ (t.core.slot i).st = .ready ∧
          (t.core.slot i).qd = true ∧ (t.core.slot i).level = lv ∧
          bget t.core.sh.fifo lv = bget s.core.sh.fifo lv ++ [i] ∧
          ((s.core.slot i).st = .free → (t.core.slot i).alloc = (s.core.slot i).alloc + 1 ∧ (t.core.slot i).pend = 0 ∧
            (t.core.slot i).tcmp = 0 ∧ (t.core.slot i).w = Vector.replicate 4 0) ∧ SameG s t [d] ∧ SameV s t ∧ SameOutside s t) ∧
      (takes → (s.core.slot i).st ≠ .free → ¬ s.keepsPaddle i →
        Completes (.tqpush d a p) s fun t => t.gv d = 0 ∧ t.gp d = false ∧ (t.core.slot i).st = .free ∧
          (∀ l : BitVec 2, ¬ i ∈ bget t.core.sh.fifo l) ∧ SameG s t [d] ∧ SameV s t ∧ t.mem = s.mem ∧ t.pois = s.pois) ∧
      ((s.core.slot i).st = .sleep ∨
        ((s.core.slot i).st = .ready ∧ (s.core.slot i).qd = true ∧ s.keepsPaddle i ∧
          ¬ (.together i ∈ s.met ∧ i ∈ s.core.sh.woke)) →
        Completes (.tqpush d a p) s fun t => WritesG s t d 1 false 0 4) ∧
      ((s.core.slot i).st = .ready → (s.core.slot i).qd = true → .together i ∈ s.met → i ∈ s.core.sh.woke →
        Completes (.tqpush d a p) s fun t => WritesG s t d 0 false 0 4) ∧
      ((s.core.slot i).st = .trapped ∨ (s.core.slot i).st = .retired →
        Completes (.tqpush d a p) s fun t => WritesG s t d 6 false 0 4)) ∧
    (∀ d, s.core.firstReady = none → Completes (.tqpop d) s fun t => WritesG s t d (-1) false 0 4) ∧
    (∀ d i, s.core.firstReady = some i → Completes (.tqpop d) s fun t => t.gv d = i.setWidth 64 ∧ t.gp d = false ∧
      (t.core.slot i).qd = false ∧ (∀ l : BitVec 2, bget t.core.sh.fifo l = (bget s.core.sh.fifo l).filter (fun j => j != i)) ∧
      SameG s t [d] ∧ SameV s t ∧ SameOutside s t) ∧
    (∀ a, s.gp a = false → (s.gv a).toNat < 16 →
      let i : SlotId := (s.gv a).setWidth 4
      ((s.core.slot i).st = .ready ∨ (s.core.slot i).st = .running ∨ (s.core.slot i).st = .sleep →
        Completes (.haltSlot a) s fun t => t.gv a = 0 ∧ (t.core.slot i).st = .retired) ∧
      ((s.core.slot i).st = .retired → Completes (.haltSlot a) s fun t => t.gv a = 0 ∧ (t.core.slot i).st = .free) ∧
      ((s.core.slot i).st = .free ∨ (s.core.slot i).st = .trapped →
        Completes (.haltSlot a) s fun t => t.gv a = 6 ∧ t.core.slots = s.core.slots))

/-- R77, R80-R83, R250, R256, R280: a context gives up the core by `YIELD`, `HALT` and `SLEEP`, each with its code and the
next instruction in `TPC`, a paddle context that loses its core becoming FREE; at S they act as the rules say, an idle
`SLEEP` resumes when a FIFO is non-empty; `NOP` only passes on. -/
def Obligations.GivingUpTheCore : Prop :=
  (∀ s : State, s.core.ctl.priv = .u →
    (s.keepsPaddle s.core.ctl.slot → Completes .yield s fun t =>
      SchedulerEntered s t 1 (s.pc + 4) ∧ t.slot.st = .ready ∧ t.slot.qd = true) ∧
    (¬ s.keepsPaddle s.core.ctl.slot → Completes .yield s fun t => t.core.ctl.priv = .s ∧ t.core.ctl.tval = 1 ∧
      t.core.ctl.tpc = s.pc + 4 ∧ t.slot.st = .free ∧ t.core.regs = s.core.regs ∧ t.mem = s.mem) ∧
    (Completes .halt s fun t => SchedulerEntered s t 4 (s.pc + 4) ∧ t.slot.st = .retired) ∧
    (∀ d, s.sleepNow s.core.ctl.slot = none → Completes (.sleep d) s fun t => SchedulerEntered s t 3 (s.pc + 4) ∧
      t.slot.st = .sleep ∧ t.slot.why = .sleep ∧ t.slot.wreg = d) ∧
    (∀ d, s.slot.wl = true → Completes (.sleep d) s fun t => t.gv d = 2 ∧ t.gp d = false ∧ t.slot.wl = false ∧
      t.pc = s.pc + 4 ∧ t.core.ctl.priv = .u)) ∧
  (∀ s : State, s.core.ctl.priv = .s →
    (Completes .yield s fun t => OnlyPc s t (s.pc + 4)) ∧
    (∀ d, s.core.firstReady ≠ none → Completes (.sleep d) s fun t => WritesG s t d 0 false 0 4) ∧
    (∀ d, s.core.firstReady = none → Completes (.sleep d) s fun t => t = s.onCtl fun k => { k with issue := .idle d }) ∧
    (s.slot.st = .running → Completes .halt s fun t => t.slot.st = .retired ∧ t.pc = s.pc + 4)) ∧
  (∀ s d c, s.core.ctl.issue = .idle d → (c = true ∨ s.core.firstReady ≠ none) →
    Completes (.idleIssueResume c) s fun t => WritesG s t d 0 false 0 4) ∧
  (∀ s, Completes .nop s fun t => OnlyPc s t (s.pc + 4))

/-! ## Decoding and steps -/

/-- R134-R141, R154-R156: words written out from the encoding tables decode to the instructions they stand for;
a zero parcel and a parcel of ones are ILLEGAL. -/
def Obligations.SpecWordsDecode : Prop :=
  decode 0x04853000 0 = .ok (.add 4 5 6) ∧ decode 0x8048EA01 0 = .ok (.vadd 1 2 3 (some 2) .f32) ∧
  decode 0x54E4BFF8 0 = .ok (.ld 7 4 .n32 (-8)) ∧ decode 0x18430085 0 = .ok (.srai 2 3 5) ∧
  decode 0xC4284A80 0x2010 = .ok (.send 1 8 9 10 .c2 16) ∧ decode 0xC8884800 0x400 = .ok (.amo 4 8 9 .b64 .add) ∧
  decode 0x90D09700 0 = .ok (.mma 3 8 9 1 .bk8) ∧ decode 0x94040002 0 = .ok (.rig 4 2) ∧
  decode 0xA0A60061 0 = .ok (.recv 5 6 3) ∧ decode 0xA0000016 0 = .ok .sret ∧
  decode 0xA4000042 0 = .ok (.trap 0x42) ∧ decode 0x1C8502C8 0 = .ok (.bfx 4 5 11 8) ∧
  (∀ x, decode 0 x = .error .zeros) ∧ (∀ x, decode 0xFFFFFFFF x = .error .ones)

/-- R134-R156: every well-formed instruction, with every operand at every value its encoding admits, comes back
from its words, and the bytes after it are left; a word that decodes is the encoding of what it decodes to. -/
def Obligations.DecodeAfterEncode : Prop :=
  (∀ i rest, Instr.wellFormed i = true → Instr.isEvent i = false → ∃ bs, encodeBytes i = some bs ∧
    decodeBytes (bs ++ rest) = .ok (i, rest)) ∧
  (∀ w x i, w < 2 ^ 32 → x < 2 ^ 32 → decode w x = .ok i →
    encode i = some (w, if needsExt w then some x else none) ∧ i.wellFormed = true ∧ i.isEvent = false)

/-- R9, R27, R134: while the agenda is empty, no timer is due, the core issues and no asynchronous cause is
pending at U, a step whose bytes at the program counter decode to an instruction is that instruction, run on the
state in which time has passed, and then at most a vote of the lead's triad; only what changes the state the lead cox keeps may be
not yet taken, where that cannot take effect now (R351); the passing of time changes the clock, the draw
counter, the performance counters and what woke in the tick alone, unless an admission pass is due or a read is still to be taken.
A turn of the agenda that names an instruction or a fetch names no row: a core runs and traps on what it fetches (R136).
What stands before an instruction here is the model's order of events (log entry 7). -/
def Obligations.StepRunsDecoded : Prop :=
  (∀ s i, s.agenda = [] → s.begin.dueTimer = none → s.begin.core.ctl.issue = .run →
    (s.begin.core.ctl.priv = .s ∨ s.begin.slot.pend = 0) → s.begin.fetch = .instr i →
    step s = mirrorNext s s.begin (exec i s.begin)) ∧
  (∀ s b t : State, mirrorNext s b (.next t) = .next ((b.gated t).mirrored s) ∧ (b.gated t = t ∨ b.gated t = b) ∧
    (t.keepsLead b = true ∨ b.lead.lead = none ∨ b.leadUp = true → b.gated t = t) ∧
    (t.lead = b.lead → t.sites = b.sites → t.links = b.links → t.pages = b.pages → b.gated t = t) ∧
    (t.mirrored s = t ∨ ∃ n, t.lead.lead = some n ∧ t.mirrored s = { t with sites := (t.mirrored s).sites } ∧
      (t.mirrored s).site n = { t.site n with triad := ((t.mirrored s).site n).triad } ∧
      ∀ m, m ≠ n → (t.mirrored s).site m = t.site m)) ∧
  (∀ s : State, s.agenda = [] → (s.lead.passDue && s.leadUp) = false → s.core.sh.late = [] →
    (s.begin = { s with
      met := [], clock := s.begin.clock, draws := s.draws + 1, core := s.begin.core, peers := s.begin.peers }) ∧
    (∀ k, s.begin.coreAt k =
      { s.coreAt k with ctl := { (s.coreAt k).ctl with pmc := (s.begin.coreAt k).ctl.pmc },
                        sh := { (s.coreAt k).sh with woke := (s.begin.coreAt k).sh.woke } } ∧
      ((s.begin.coreAt k).sh.woke = [] ∨ (s.begin.coreAt k).sh.woke = (s.coreAt k).sh.woke)) ∧
    s.clock.ticks ≤ s.begin.clock.ticks) ∧
  (∀ (s : State) i, s.poisoned (s.codeKey s.pc) = false → needsExt (s.parcelAt s.pc) = false →
    decode (s.parcelAt s.pc) 0 = .ok i → s.fetch = .instr i) ∧
  (∀ (s : State) i, s.poisoned (s.codeKey s.pc) = false → s.poisoned (s.codeKey (s.pc + 4)) = false →
    needsExt (s.parcelAt s.pc) = true → decode (s.parcelAt s.pc) (s.parcelAt (s.pc + 4)) = .ok i → s.fetch = .instr i) ∧
  (∀ (s : State) k l m, (∀ i, Instr.isEvent i = false → { s with agenda := [⟨k, l, m, some i⟩] }.turnOp = none) ∧
    (∀ p, { s with agenda := [⟨k, l, m, some (.illegalInstruction p)⟩] }.turnOp = none) ∧
    { s with agenda := [⟨k, l, m, some .poisonedFetch⟩] }.turnOp = none)

/-- R135: a zero parcel and a parcel of ones, wherever a core at U fetches one as a first parcel, give ILLEGAL with the
parcel in `TVAL`; as an extension word each is read by the rules of its long form alone, here that of the long `LI`. -/
def Obligations.ForbiddenParcels : Prop :=
  (∀ s : State, s.agenda = [] → s.begin.dueTimer = none → s.begin.core.ctl.issue = .run → s.begin.core.ctl.priv = .u →
    s.begin.slot.pend = 0 → s.begin.poisoned (s.begin.codeKey s.pc) = false →
    s.begin.parcelAt s.pc = 0 ∨ s.begin.parcelAt s.pc = 0xFFFFFFFF →
    ∃ t, step s = .next (t.mirrored s) ∧ TrapTaken s.begin t .illegal (BitVec.ofNat 64 (s.begin.parcelAt s.pc)) s.pc) ∧
  (∀ x, decode 0 x = .error .zeros ∧ decode 0xFFFFFFFF x = .error .ones) ∧
  (∀ i w x, Instr.wellFormed i = true → encode i = some (w, some x) → x = 0 ∨ x = 0xFFFFFFFF → decode w x = .ok i) ∧
  (∀ d : GR, decode (0xC0000000 + d.toNat * 2 ^ 21) 0 = .ok (.liLong d 0) ∧
    decode (0xC0000000 + d.toNat * 2 ^ 21) 0xFFFFFFFF = .ok (.liLong d (-1)))

/-- R27, R35, R44, R46-R53, R265, R272, R282, R288, R291, R303: the panel after cold reset: every slot FREE,
every queue OFF, every group and kernel entry unused, every signal 0, B = 8, BUDGET = 28800, FLIM = 26, the race
clock at 0, `FPCR` 0, memory with nothing listed; the clock at 0 is log entry 6, sites EMPTY and panel tables empty entry 14, every core at S and issuing
nothing entry 4, the empty list form of memory entry 3, `TID` at the coordinate (homed) entry 5, the other fields of a slot entry 1. -/
def Obligations.ResetState : Prop :=
  let r := State.reset
  r.memOk ∧ r.homed ∧ r.mem = [] ∧ r.clock.ticks = 0 ∧
  (∀ k, (r.coreAt k).slots = Vector.replicate 16 Slot.free ∧ (r.coreAt k).regs.fpcr = 0 ∧
    (r.coreAt k).ctl.priv = .s ∧ (r.coreAt k).ctl.issue = .off ∧ (r.coreAt k).sh.seat = Vector.replicate 64 Seat.zero) ∧
  (∀ q, (r.queue q).st = .off) ∧ (∀ g, (r.group g).st = .unused) ∧ (∀ i, (r.kern i).st = .none) ∧
  (∀ i, r.signal i = 0) ∧ (∀ i, (r.req i).st = 0) ∧ (∀ n, (r.site n).st = .empty) ∧ (∀ l, (r.link l).st = .down) ∧
  r.lead.bound = 8 ∧ r.lead.budget = 28800 ∧ r.pages.flim = 26 ∧ r.power.limit = 180 ∧ r.net = []

/-- R39, R88: from every state whose memory and owner tags stand in canonical form, every step leaves them so. The form is the
model's own: log entry 3. -/
def Obligations.MemoryStaysCanonical : Prop :=
  ∀ s t : State, s.memOk → step s = .next t → t.memOk

/-- R12, R18, R46: from every state in which each core's record has one home, every step leaves it so: the
selected core is a core, no second record of it stands among the others, and its `TID` names its coordinate. -/
def Obligations.CoreStaysHome : Prop :=
  ∀ s t : State, s.homed → step s = .next t → t.homed

/-! ## Messages -/

/-- R80, R226, R234-R236: `RECV` and `RECVV` take the oldest message of a seat, its information word with the
COUNT that is left written last; `PEEK` leaves the seat as it is. From an empty seat `RECV` sleeps at U and holds
at S, and `PEEK` gives 0; an invalid seat gives BOUNDS with its number. -/
def Obligations.Receives : Prop :=
  (∀ (s : State) (i : BitVec 6), (s.core.seatAt i.toNat).valid = true → (s.core.seatAt i.toNat).count ≠ 0 →
    let q := s.core.seatAt i.toNat
    let info : BitVec 64 := BitVec.ofNat 64 (s.readNat (nodeBase s.here + q.flitAt q.head) 8)
    let left (n : BitVec 8) : BitVec 64 := (n.setWidth 64 <<< 56) ||| (info.setWidth 56).setWidth 64
    let taken (t : State) : Prop :=
      t.core.seatAt i.toNat = { q with head := q.step q.head (if info.getLsbD 49 then 3 else 2), count := q.count - 1 } ∧
      (∀ j, j ≠ i.toNat → t.core.seatAt j = s.core.seatAt j) ∧ t.core.slots = s.core.slots ∧ SameOutside s t ∧
      Passes s t (s.pc + 4)
    (∀ d a, Completes (.recv d a i) s fun t => t.gv a = left (q.count - 1) ∧ t.gp a = false ∧
      (d ≠ a → t.gv d = BitVec.ofNat 64 (s.readNat (nodeBase s.here + q.flitAt (q.step q.head 1)) 8) ∧
        t.gp d = info.getLsbD 48) ∧ SameG s t [d, a] ∧ SameV s t ∧ taken t) ∧
    (∀ v a, Completes (.recvv v a i) s fun t => t.gv a = left (q.count - 1) ∧ t.gp a = false ∧
      (t.vr v).body.setWidth 256 = BitVec.ofNat 256 (s.readNat (nodeBase s.here + q.flitAt (q.step q.head 1)) 32) ∧
      (t.vr v).body.extractLsb' 256 256 = (if info.getLsbD 49 then
        BitVec.ofNat 256 (s.readNat (nodeBase s.here + q.flitAt (q.step q.head 2)) 32) else 0) ∧
      (t.vr v).side = BitVec.ofNat 64 (s.readNat (nodeBase s.here + q.flitAt q.head + 8) 8) ∧
      (t.vr v).p = info.getLsbD 48 ∧ (∀ r, r ≠ v → t.vr r = s.vr r) ∧ SameG s t [a] ∧
      t.core.regs.m = s.core.regs.m ∧ t.core.eng = s.core.eng ∧ taken t) ∧
    (∀ d, Completes (.peek d i) s fun t => WritesG s t d (left q.count) false 0 4)) ∧
  (∀ (s : State) (i : BitVec 6), (s.core.seatAt i.toNat).valid = true → (s.core.seatAt i.toNat).count = 0 →
    (∀ d, Completes (.peek d i) s fun t => WritesG s t d 0 false 0 4) ∧
    (s.core.ctl.priv = .u → (∀ d a, Completes (.recv d a i) s fun t => SleptFor s t (.seat i)) ∧
      (∀ v a, Completes (.recvv v a i) s fun t => SleptFor s t (.seat i))) ∧
    (s.core.ctl.priv = .s → (∀ d a, Completes (.recv d a i) s (HeldAt s)) ∧ (∀ v a, Completes (.recvv v a i) s (HeldAt s)))) ∧
  (∀ (s : State) (i : BitVec 6), s.core.ctl.priv = .u → (s.core.seatAt i.toNat).valid = false →
    (∀ d a, Completes (.recv d a i) s fun t => TrapTaken s t .bounds (i.setWidth 64) s.pc) ∧
    (∀ v a, Completes (.recvv v a i) s fun t => TrapTaken s t .bounds (i.setWidth 64) s.pc) ∧
    (∀ d, Completes (.peek d i) s fun t => TrapTaken s t .bounds (i.setWidth 64) s.pc))

/-- R43, R99, R225, R236-R238: `SEATSET` installs a seat in a place that holds no message, unless another seat
has its channel and class; `SEATCLR` invalidates one, reports its messages and makes every slot asleep on it READY; `JOIN` of a set whose seats have
all finished closes their rounds, one that names an invalid seat gives NOSEAT, and any other sleeps or holds. -/
def Obligations.SeatsAndRounds : Prop :=
  (∀ s d a b (i : BitVec 6), s.gp a = false → s.gp b = false →
    let x := s.gv a
    let base : BitVec 16 := x.extractLsb' 32 16
    let size : BitVec 8 := x.extractLsb' 48 8
    let cap : Nat := if size = 0 then 256 else size.toNat
    let old := s.core.seatAt i.toNat
    let twin : Prop := ∃ j, j < 64 ∧ j ≠ i.toNat ∧ (s.core.seatAt j).valid = true ∧
      (s.core.seatAt j).chan = x.extractLsb' 0 12 ∧ (s.core.seatAt j).lc = x.extractLsb' 12 2
    x.getLsbD 14 = true → (s.gv b).extractLsb' 32 32 = 0 → x.extractLsb' 20 4 = 0 → base.toNat % 32 = 0 →
    base.toNat + 32 * cap ≤ 0x10000 → x.extractLsb' 12 2 ≠ 1 →
    ((old.valid = true ∧ old.count ≠ 0) ∨ twin → Completes (.seatset d a b i) s fun t => WritesG s t d 1 false 0 4) ∧
    (¬ (old.valid = true ∧ old.count ≠ 0) → ¬ twin → Completes (.seatset d a b i) s fun t =>
      let q := t.core.seatAt i.toNat
      q.valid = true ∧ q.chan = x.extractLsb' 0 12 ∧ q.lc = x.extractLsb' 12 2 ∧ q.ctx = x.extractLsb' 16 4 ∧
      q.round = x.extractLsb' 24 8 ∧ q.base = base ∧ q.size = size ∧ q.count = 0 ∧ q.head = 0 ∧ q.tail = 0 ∧
      q.seq = 0 ∧ q.fin = false ∧ (∀ j, j ≠ i.toNat → t.core.seatAt j = s.core.seatAt j) ∧ t.gv d = 0 ∧ t.gp d = false ∧
      SameG s t [d] ∧ SameV s t ∧ t.core.slots = s.core.slots ∧ SameOutside s t ∧ Passes s t (s.pc + 4))) ∧
  (∀ s d (i : BitVec 6),
    ((s.core.seatAt i.toNat).valid = false → Completes (.seatclr d i) s fun t => WritesG s t d 2 false 0 4) ∧
    ((s.core.seatAt i.toNat).valid = true → Completes (.seatclr d i) s fun t =>
      (t.core.seatAt i.toNat).valid = false ∧ (t.core.seatAt i.toNat).count = 0 ∧
      (∀ j, j ≠ i.toNat → t.core.seatAt j = s.core.seatAt j) ∧
      (∀ x : SlotId, (s.core.slot x).st = .sleep → (s.core.slot x).why = .seat i → (t.core.slot x).st = .ready) ∧
      t.gv d = (s.core.seatAt i.toNat).count.setWidth 64 <<< 8 ∧ t.gp d = false ∧ SameG s t [d] ∧ SameV s t ∧
      SameOutside s t ∧ Passes s t (s.pc + 4))) ∧
  (∀ s d a, s.gp a = false →
    let inSet (j : Nat) : Prop := (s.gv a).getLsbD j = true
    ((∃ j, j < 64 ∧ inSet j ∧ (s.core.seatAt j).valid = false) →
      Completes (.join d a) s fun t => WritesG s t d 2 false 0 4) ∧
    ((∀ j, j < 64 → inSet j → (s.core.seatAt j).valid = true) →
      ((∀ j, j < 64 → inSet j → (s.core.seatAt j).fin = true) → Completes (.join d a) s fun t =>
        (∀ j, j < 64 → inSet j → t.core.seatAt j =
          { s.core.seatAt j with round := (s.core.seatAt j).round + 1, fin := false, seq := 0 }) ∧
        (∀ j, ¬ inSet j → t.core.seatAt j = s.core.seatAt j) ∧ t.gv d = 0 ∧ t.gp d = false ∧ SameG s t [d] ∧ SameV s t ∧
        SameOutside s t ∧ Passes s t (s.pc + 4)) ∧
      ((∃ j, j < 64 ∧ inSet j ∧ (s.core.seatAt j).fin = false) →
        (s.core.ctl.priv = .u → Completes (.join d a) s fun t => SleptFor s t (.join (s.gv a))) ∧
        (s.core.ctl.priv = .s → Completes (.join d a) s (HeldAt s)))))

/-- R97, R115, R118-R120, R225, R228-R233, R320: a send to a reachable node of this panel puts one packet on its way, with the
round of gc, the slot's send count and the poison of its data, and stands unanswered, once the core's reads of the node's
scratchpad that were put off are taken; into a tree it puts a block with the index of gc. `SENDR` and `FINISH` wait for
the accesses of their scope, and `FINISH` for the answers of its channel, then reports the reply record and clears
it. A target known dead gives HOLE and sends nothing; one outside what R228 allows gives BOUNDS. `RENORM` tests its target
before gb, and gb before gc. The model's choices in it: log entries 17, 51 and 77. -/
def Obligations.Sends : Prop :=
  (∀ (s : State) (d a c : GR) l (h : BitVec 12) k, s.gp a = false → s.gp c = false → s.target228 (s.gv a) = some k →
    k.panel = 0xFF → s.deadTarget (Lc.bits l) k = false → s.slot.unans.length < 64 → s.entersTree k l h = false →
    let u := s.takeAt k
    let sent (f : Nat) (v : BitVec 512) (x : BitVec 64) (q : Bool) (t : State) : Prop :=
      (∃ p, Sent u t p ∧ p.kind = .data ∧ p.src = s.here ∧ p.dst = k.key ∧ p.gid = s.core.ctl.gid ∧ p.chan = h ∧
        p.lc = Lc.bits l ∧ p.round = (s.gv c).setWidth 8 ∧ p.seq = s.slot.sendCount ∧ p.flits = f ∧ p.body = v ∧
        p.aux = x ∧ p.pois = q) ∧
      t.slot.sendCount = u.slot.sendCount + 1 ∧ t.slot.unans.length = u.slot.unans.length + 1 ∧ t.gv d = 0 ∧
      t.gp d = false ∧ SameG u t [d] ∧ SameV u t ∧ SameStore u t ∧ t.pc = u.pc + 8
    ((∀ q ∈ s.core.sh.late, q.key ≠ k.key) → u = s) ∧
    (∀ b, Completes (.send d a b c l h) s (sent 1 ((s.gv b).setWidth 512) 0 (s.gp b))) ∧
    (∀ b, Completes (.sendv d a b c l h) s (sent 2 (s.vr b).body (s.vr b).side (s.vr b).p)) ∧
    (∀ b p, (s.outstanding p = false → Completes (.sendr d a b c p l h) s (sent 1 ((s.gv b).setWidth 512) 0 (s.gp b))) ∧
      (s.outstanding p = true → Completes (.sendr d a b c p l h) s (HeldAt s))) ∧
    ((s.outstanding .panel = true ∨ s.slot.dataWaits k l h = true) → Completes (.finish d a c l h) s (HeldAt s)) ∧
    (s.outstanding .panel = false → s.slot.dataWaits k l h = false → Completes (.finish d a c l h) s fun t =>
      (∃ p, Sent s t p ∧ p.kind = .finish ∧ p.dst = k.key ∧ p.chan = h ∧ p.round = (s.gv c).setWidth 8 ∧
        p.seq = s.slot.sendCount) ∧
      t.slot.sendCount = 0 ∧ t.slot.record = none ∧ t.gv d = s.slot.report ∧ t.gp d = false ∧ SameG s t [d] ∧
      SameV s t ∧ SameStore s t ∧ t.pc = s.pc + 8)) ∧
  (∀ (s : State) (d a c : GR) l (h : BitVec 12) k, s.gp a = false → s.gp c = false → s.target228 (s.gv a) = some k →
    k.panel = 0xFF → s.deadTarget (Lc.bits l) k = false → s.slot.unans.length < 64 → s.entersTree k l h = true →
    (∀ b, Completes (.send d a b c l h) s fun t => let u := s.takeAt k
      (∃ p, Sent u t p ∧ p.kind = .treeBlock ∧ p.dst = s.here ∧ p.chan = h ∧ p.round = (s.gv c).setWidth 8 ∧
        p.seq = ((s.gv c).extractLsb' 8 12).setWidth 16 ∧ p.flits = 1 ∧ p.pois = s.gp b ∧ p.dir = 4) ∧
      t.slot.sendCount = u.slot.sendCount ∧ t.gv d = 0 ∧ t.gp d = false ∧ SameG u t [d] ∧ SameV u t ∧ SameStore u t ∧
      t.pc = u.pc + 8) ∧
    (s.outstanding .panel = false → s.slot.dataWaits k l h = false → Completes (.finish d a c l h) s fun t =>
      (∃ p, Sent s t p ∧ p.kind = .treeFinish ∧ p.dst = s.here ∧ p.chan = h ∧ p.round = (s.gv c).setWidth 8 ∧
        p.seq = s.slot.sendCount ∧ p.part = s.slot.holed.contains h ∧ p.dir = 4) ∧
      t.slot.sendCount = 0 ∧ t.slot.record = none ∧ h ∉ t.slot.holed ∧ t.gv d = s.slot.report ∧ t.gp d = false ∧
      SameG s t [d] ∧ SameV s t ∧ SameStore s t ∧ t.pc = s.pc + 8)) ∧
  (∀ (s : State) (d a c : GR) l (h : BitVec 12) k, s.gp a = false → s.gp c = false → s.target228 (s.gv a) = some k →
    s.deadTarget (Lc.bits l) k = true →
    (∀ b, Completes (.send d a b c l h) s fun t => WritesG s t d 4 false 0 8) ∧
    (Completes (.finish d a c l h) s fun t => WritesG s t d 4 false 0 8)) ∧
  (∀ (s : State) (d a c : GR) l (h : BitVec 12), s.core.ctl.priv = .u → s.gp a = false → s.gp c = false →
    s.target228 (s.gv a) = none → ∀ b, Completes (.send d a b c l h) s fun t => TrapTaken s t .bounds (s.gv a) s.pc) ∧
  (∀ r : Slot, (r.record = none → r.report = 0) ∧
    (∀ st ch, r.record = some (st, ch) → r.report = (ch.setWidth 64 <<< 8) ||| st.setWidth 64)) ∧
  (∀ (s : State) (d a b c : GR) (h : BitVec 12) k, s.gp a = false → s.gp b = false → s.gp c = false →
    s.target228 (s.gv a) = some k → k.panel = 0xFF → k.key = s.here → (s.gv b).extractLsb' 16 8 ≠ 0 →
    (s.gv b).extractLsb' 16 8 ≠ 0xFF →
    (s.deadTarget 3 k = true → Completes (.renorm d a b c h) s fun t => WritesG s t d 4 false 0 8) ∧
    (s.deadTarget 3 k = false →
    (s.entryFor s.here s.core.ctl.gid h = none → Completes (.renorm d a b c h) s fun t => WritesG s t d 2 false 0 8) ∧
    (∀ e, s.entryFor s.here s.core.ctl.gid h = some e → Completes (.renorm d a b c h) s fun t =>
      t.gv d = 0 ∧ t.gp d = false ∧ SameG s t [d] ∧ SameV s t ∧ t.pc = s.pc + 8 ∧
      (∀ x : BitVec 3, x.toNat < 4 → hasDir (e.child &&& ~~~(e.absentAt ((s.gv c).setWidth 8))) x = true → ∃ p, Travels s t p ∧ p.kind = .renorm ∧
        p.dst = neighbour s.here x ∧ p.chan = h ∧ p.round = (s.gv c).setWidth 8 ∧ p.status = (s.gv b).extractLsb' 16 8 ∧
        p.seq = ((s.gv b).setWidth 12).setWidth 16)))) ∧
  (∀ (s : State) (d a b c : GR) (h : BitVec 12), s.core.ctl.priv = .u →
    let own : Prop := ∃ k, s.target228 (s.gv a) = some k ∧ k.panel = 0xFF ∧ k.key = s.here
    let bad : Prop := (s.gv b).extractLsb' 16 8 = 0 ∨ (s.gv b).extractLsb' 16 8 = 0xFF
    let trap (c' : Cause) (v : BitVec 64) : Prop := Completes (.renorm d a b c h) s fun t => TrapTaken s t c' v s.pc
    (s.gp a = true → trap .poison 0) ∧ (s.gp a = false → ¬ own → trap .bounds (s.gv a)) ∧
    (s.gp a = false → own → (s.gp b = true → trap .poison 0) ∧ (s.gp b = false → bad → trap .bounds (s.gv b)) ∧
      (s.gp b = false → ¬ bad → s.gp c = true → trap .poison 0)))

/-- R80, R81, R110, R225, R226, R249, R251: `WATCH` sends its word to the home and holds until the reply, whose
status it returns; the home arms an entry when the word still holds what was expected, and answers CHANGED when it
does not and FULL when its table is full. `WAKE` of a slot of its own core wakes a `SLEEP` with WOKEN, sets WL in
another live slot, and answers DEAD for one that is not live; for another core it sends and holds. A watch wake at
its core wakes the `SLEEP` of the slot whose last `WATCH` named the address with HIT. The model's choices in it: a `WAKE` that
finds its slot READY after a HIT sets WL, log entry 86; a `WAKE` to a bank element or another group is DEAD, log entry 80; a watch
wake without a way is gone, log entry 79. -/
def Obligations.WatchesAndWakes : Prop :=
  let awake (c c' : Core) (i : SlotId) : Prop :=
    ((c.slot i).st = .sleep → (c.slot i).why = .sleep → (c'.slot i).st = .ready ∧ (c'.slot i).wstat = 2 ∧ (c'.slot i).qd = true) ∧
    (((c.slot i).st = .sleep ∧ (c.slot i).why ≠ .sleep) ∨ (c.slot i).st = .ready ∨ (c.slot i).st = .running →
      c'.slot i = { c.slot i with wl := true })
  (∀ (s : State) (d a : GR) k, s.gp a = false → s.gp d = false → isFar (s.gv a) = false → (s.gv a).extractLsb' 0 3 = 0 →
    s.resolve (s.gv a) = some k →
    (∀ r st v, s.rpcFor .watch = some r → r.reply = some (st, v) → st = 0 ∨ st = 5 ∨ st = 7 →
      Completes (.watch d a) s fun t => t.gv d = st.setWidth 64 ∧ t.gp d = false ∧ t.slot.lastWatch = k.addr ∧
        t.slot.lastFull = (st == 5) ∧ t.core.sh.rpc = none ∧ SameG s t [d] ∧ SameV s t ∧ SameOutside s t ∧
        Passes s t (s.pc + 4)) ∧
    (∀ r, s.rpcFor .watch = some r → r.reply = none → Completes (.watch d a) s (HeldAt s)) ∧
    (s.rpcFor .watch = none → s.deadTarget 0 k = true → Completes (.watch d a) s fun t => t.gv d = 4 ∧ t.gp d = false ∧
      t.slot.lastWatch = k.addr ∧ SameG s t [d] ∧ SameV s t ∧ SameOutside s t ∧ Passes s t (s.pc + 4)) ∧
    (s.rpcFor .watch = none → s.deadTarget 0 k = false → k.panel = 0xFF → Completes (.watch d a) s fun t =>
      (∃ p, Sent s t p ∧ p.kind = .watch ∧ p.dst = k.key ∧ p.addr = k.addr ∧ p.val = s.gv d ∧
        t.core.sh.rpc = some ⟨p, s.clock.ticks, none, false, none⟩) ∧ t.core.ctl.issue = .hold ∧ t.pc = s.pc ∧
      t.core.regs = s.core.regs ∧ SameStore s t)) ∧
  (∀ (s : State) (d a : GR) k, s.gp a = false → s.target228 (s.gv a) = some k → (s.gv a).extractLsb' 4 14 = 0 →
    let i : SlotId := (s.gv a).setWidth 4
    (k.panel = 0xFF → k.key = s.here → s.deadTarget 3 k = true →
      Completes (.wake d a) s fun t => WritesG s t d 4 false 0 4) ∧
    (k.panel = 0xFF → k.key = s.here → s.deadTarget 3 k = false →
      ((s.core.slot i).st = .free ∨ (s.core.slot i).st = .retired ∨ (s.core.slot i).st = .trapped →
        Completes (.wake d a) s fun t => WritesG s t d 6 false 0 4) ∧
      ((s.core.slot i).st = .sleep ∨ (s.core.slot i).st = .ready ∨ (s.core.slot i).st = .running →
        Completes (.wake d a) s fun t => awake s.core t.core i ∧ t.gv d = 0 ∧ t.gp d = false ∧ SameG s t [d] ∧ SameV s t ∧
          SameStore s t ∧ t.nodes = s.nodes ∧ SameNet s t ∧ t.peers = s.peers ∧ t.pc = s.pc + 4)) ∧
    (k.panel = 0xFF → k.key ≠ s.here →
      (∀ r st v, s.rpcFor .wake = some r → r.reply = some (st, v) → Completes (.wake d a) s fun t =>
        t.gv d = st.setWidth 64 ∧ t.gp d = false ∧ t.core.sh.rpc = none ∧ SameG s t [d] ∧ SameV s t ∧ SameOutside s t ∧
        t.pc = s.pc + 4) ∧
      (s.rpcFor .wake = none → s.deadTarget 3 k = false → Completes (.wake d a) s fun t =>
        (∃ p, Sent s t p ∧ p.kind = .wake ∧ p.dst = k.key ∧ p.val = i.setWidth 64) ∧
        t.core.ctl.issue = .hold ∧ t.pc = s.pc ∧ t.core.regs = s.core.regs ∧ SameStore s t))) ∧
  (∀ (s : State) n p, s.arriving n = some p → p.kind = .watch → p.srcPan = 0xFF → s.arrives p.gid 0 p.src p.dst = true →
    let off := p.addr.toNat % 262144
    let a := nodeBase p.dst + off
    let ws := (s.node p.dst).watches
    let mine (w : WatchEntry) : Prop := w.pan = p.srcPan ∧ w.core = p.src ∧ w.slot = p.slot
    let answers (st : BitVec 8) (t : State) : Prop :=
      Sent (s.unsend n) t (p.answer .watchReply st) ∧ SameRegs s t ∧ SameStore s t
    s.homeCheck p.dom p.dst off 8 = none → s.poisoned a = false →
    (s.readNat a 8 ≠ p.val.toNat → Completes (.watchRequest n) s fun t => answers 7 t ∧ (t.node p.dst).watches = ws) ∧
    (s.readNat a 8 = p.val.toNat →
      ((∃ w ∈ ws, mine w) ∨ ws.length < 32 → Completes (.watchRequest n) s fun t => answers 0 t ∧
        ∃ w ∈ (t.node p.dst).watches, mine w ∧ w.off = off ∧ w.addr = p.addr ∧ w.gid = p.gid) ∧
      ((∀ w ∈ ws, ¬ mine w) → 32 ≤ ws.length → Completes (.watchRequest n) s fun t => answers 5 t ∧
        (t.node p.dst).watches = ws))) ∧
  (∀ (s : State) n p, s.arriving n = some p → p.kind = .watchWake →
    s.siteLive (siteOf p.dst) = false ∨ s.travels p = false →
    Completes (.watchWakeArrival n) s fun t => t = s.unsend n) ∧
  (∀ (s : State) n p, s.arriving n = some p → p.kind = .watchWake → (s.coreAt p.dst).ctl.gid = p.gid →
    s.siteLive (siteOf p.dst) = true → s.travels p = true →
    Completes (.watchWakeArrival n) s fun t => SameNet (s.unsend n) t ∧ SameRegs s t ∧ SameStore s t ∧
      (((s.coreAt p.dst).slot p.slot).lastWatch ≠ p.addr → t.coreAt p.dst = s.coreAt p.dst) ∧
      (((s.coreAt p.dst).slot p.slot).lastWatch = p.addr → ((s.coreAt p.dst).slot p.slot).st = .sleep →
        (((s.coreAt p.dst).slot p.slot).why = .sleep → ((t.coreAt p.dst).slot p.slot).st = .ready ∧
          ((t.coreAt p.dst).slot p.slot).wstat = 1) ∧
        (((s.coreAt p.dst).slot p.slot).why ≠ .sleep → ((t.coreAt p.dst).slot p.slot).wl = true ∧
          ((t.coreAt p.dst).slot p.slot).st = .sleep))) ∧
  (∀ (s : State) n p, s.arriving n = some p → p.kind = .wake → p.srcPan = 0xFF → s.arrives p.gid 3 p.src p.dst = true →
    isCore p.dst = true → (s.coreAt p.dst).ctl.gid = p.gid →
    let i : SlotId := p.val.setWidth 4
    let st := ((s.coreAt p.dst).slot i).st
    Completes (.wakeArrival n) s fun t => awake (s.coreAt p.dst) (t.coreAt p.dst) i ∧ SameRegs s t ∧ SameStore s t ∧
      Sent (s.unsend n) t (p.answer .wakeReply (if st = .free ∨ st = .retired ∨ st = .trapped then 6 else 0))) ∧
  (∀ (s : State) n p, s.arriving n = some p → p.kind = .wake → p.srcPan = 0xFF →
    (s.arrives p.gid 3 p.src p.dst = false → Completes (.wakeArrival n) s fun t =>
      Still s t ∧ Sent (s.unsend n) t (p.answer .wakeReply 4)) ∧
    (s.arrives p.gid 3 p.src p.dst = true → isCore p.dst = false ∨ (s.coreAt p.dst).ctl.gid ≠ p.gid →
      Completes (.wakeArrival n) s fun t => Still s t ∧ Sent (s.unsend n) t (p.answer .wakeReply 6)))

/-- R80, R100, R101, R118-R121, R124, R225, R245, R248, R253, R344: `BARR` sends an arrival and counts it, BUSY while one
stands; `BWAIT` passes once its phase is done; `FWAIT` passes on its sequence number, raises SEQ when the flag has
passed it and sleeps or holds while it is behind; `FENCE` passes when nothing of its scope is outstanding; each that
passes drops what was read ahead. A router passes arrivals on once all below it have come, and the root releases every
core of the group; an arrival on its way to a router that has left the path goes on to the next one.
The model's choices in it: log entry 25; log entry 73: a `FENCE` holds whenever anything of its scope is outstanding, also what
stream slots emit while it is held; log entry 79: an arrival or a release without a way is gone. -/
def Obligations.BarriersAndFences : Prop :=
  (∀ (s : State) (d : GR) (b : BitVec 3),
    let arr := bget s.core.sh.arr b
    (arr ≠ bget s.core.sh.done b → Completes (.barr d b) s fun t => WritesG s t d (1 ||| (arr.setWidth 64 <<< 8)) false 0 4) ∧
    (arr = bget s.core.sh.done b → s.outstanding .panel = true → Completes (.barr d b) s (HeldAt s)) ∧
    (arr = bget s.core.sh.done b → s.outstanding .panel = false → Completes (.barr d b) s fun t =>
      bget t.core.sh.arr b = arr + 1 ∧ bget t.core.sh.done b = bget s.core.sh.done b ∧
      (∃ p, Sent s t p ∧ p.kind = .barArrive ∧ p.dst = s.here ∧ p.dir = b ∧ p.round = arr + 1 ∧ p.count = 1) ∧
      t.gv d = (arr + 1).setWidth 64 <<< 8 ∧ t.gp d = false ∧ SameG s t [d] ∧ SameV s t ∧ SameStore s t ∧
      Passes s t (s.pc + 4))) ∧
  (∀ (s : State) (a : GR) (b : BitVec 3), s.gp a = false →
    let p : BitVec 8 := (s.gv a).setWidth 8
    ((bget s.core.sh.done b - p).toNat < 128 → Completes (.bwait a b) s fun t => Acquires s t (s.pc + 4)) ∧
    (128 ≤ (bget s.core.sh.done b - p).toNat →
      (s.core.ctl.priv = .u → Completes (.bwait a b) s fun t => SleptFor s t (.barrier b p)) ∧
      (s.core.ctl.priv = .s → Completes (.bwait a b) s (HeldAt s)))) ∧
  (∀ (s : State) (a b : GR) off, s.gp a = false → s.gp b = false → s.ownPath (s.gv a) 8 = .own off →
    s.anyPoison (nodeBase s.here + off) 8 = false →
    let d := BitVec.ofNat 16 (s.readNat (nodeBase s.here + off) 8) - (s.gv b).setWidth 16
    (d = 0 → Completes (.fwait a b) s fun t => Acquires s t (s.pc + 4)) ∧
    (d ≠ 0 → d.toNat < 0x8000 → s.core.ctl.priv = .u → Completes (.fwait a b) s fun t => TrapTaken s t .seq (s.gv a) s.pc) ∧
    (0x8000 ≤ d.toNat →
      (s.core.ctl.priv = .u → Completes (.fwait a b) s fun t => SleptFor s t (.flag (s.gv a) ((s.gv b).setWidth 16))) ∧
      (s.core.ctl.priv = .s → Completes (.fwait a b) s (HeldAt s)))) ∧
  (∀ (s : State) p,
    (s.outstanding p = false → Completes (.fence p) s fun t => Acquires s t (s.pc + 4)) ∧
    (s.outstanding p = true → Completes (.fence p) s (HeldAt s)) ∧
    ((∀ u ∈ s.waiting, u.fin = true) → s.emitted = [] → s.storesWait = false → s.outstanding p = false)) ∧
  (∀ (s : State) n p i, s.arriving n = some p → p.kind = .barArrive → s.groupOf p.gid = some i →
    s.travels p = true → s.offPath (s.group i) p.dst = false →
    let g := s.group i
    let mine (b : BarHeld) : Bool := b.gid == p.gid && b.b == p.dir && b.phase == p.round
    let held := match (s.node p.dst).bars.find? mine with | some b => b.count | none => 0
    let below := g.cores.countP (g.below p.dst)
    (held + p.count < below → Completes (.barrierArrival n) s fun t => SameNet (s.unsend n) t ∧
      (t.node p.dst).bars.find? mine = some ⟨p.gid, p.dir, p.round, held + p.count⟩ ∧ Still s t) ∧
    (below ≤ held + p.count → Completes (.barrierArrival n) s fun t =>
      (t.node p.dst).bars.find? mine = none ∧ Still s t ∧
      (p.dst = keyOf g.col0 g.row0 → p.dstPan = 0xFF → ∀ c ∈ g.cores, ∃ q, Travels s t q ∧ q.kind = .barRelease ∧ q.dst = c ∧
        q.dir = p.dir ∧ q.round = p.round) ∧
      (p.dst ≠ keyOf g.col0 g.row0 → p.dstPan = 0xFF → ∃ q, Sent (s.unsend n) t q ∧ q.kind = .barArrive ∧
        q.dst = s.barrierHop g p.dst 480 ∧ q.count = held + p.count))) ∧
  (∀ (s : State) n p i, s.arriving n = some p → p.kind = .barArrive → s.groupOf p.gid = some i →
    s.travels p = true → s.offPath (s.group i) p.dst = true → p.dstPan = 0xFF → p.dst ≠ keyOf (s.group i).col0 (s.group i).row0 →
    Completes (.barrierArrival n) s fun t => Still s t ∧ t.nodes = s.nodes ∧
      Sent (s.unsend n) t { p with src := p.dst, dst := s.barrierHop (s.group i) p.dst 480 }) ∧
  (∀ (s : State) n p, s.arriving n = some p →
    (p.kind = .barArrive → s.travels p = false → Completes (.barrierArrival n) s fun t => t = s.unsend n) ∧
    (p.kind = .barRelease → s.siteLive (siteOf p.dst) = false ∨ s.travels p = false →
      Completes (.barrierRelease n) s fun t => t = s.unsend n)) ∧
  (∀ (s : State) n p, s.arriving n = some p → p.kind = .barRelease → (s.coreAt p.dst).ctl.gid = p.gid →
    s.siteLive (siteOf p.dst) = true → s.travels p = true → bget (s.coreAt p.dst).sh.arr p.dir = p.round → Completes (.barrierRelease n) s fun t =>
      bget (t.coreAt p.dst).sh.done p.dir = p.round ∧ SameNet (s.unsend n) t ∧ SameRegs s t ∧ SameStore s t ∧
      (∀ j q, ((s.coreAt p.dst).slot j).st = .sleep → ((s.coreAt p.dst).slot j).why = .barrier p.dir q →
        (p.round - q).toNat < 128 → ((t.coreAt p.dst).slot j).st = .ready))

/-- R90, R225-R227, R254, R255, R278, R350: `SITEQ` reads the state, kind and epoch of a site; `COXCALL` POISONED at S
logs, LOG queues its words or gives FULL, a service that is not allocated gives UNSUP, CHECKPOINT raises the shard's
report; each holds while the tile's triad can issue nothing.
The model's choices in it: log entries 11 and 21; log entry 61: the triad issues nothing also while a second copy of an
earlier transaction is awaited. -/
def Obligations.SitesAndServices : Prop :=
  (∀ (s : State) (d a : GR), s.gp a = false →
    ((s.gv a).toNat ≤ 24 → Completes (.siteq d a) s fun t => ∃ v, WritesG s t d v false 0 4 ∧
      v.extractLsb' 0 4 = (s.site (s.gv a).toNat).st.code ∧ v.getLsbD 4 = !(computeSite (s.gv a).toNat) ∧
      v.extractLsb' 16 16 = (s.site (s.gv a).toNat).epoch ∧ v.extractLsb' 32 32 = 0) ∧
    (24 < (s.gv a).toNat → s.core.ctl.priv = .u → Completes (.siteq d a) s fun t => TrapTaken s t .bounds (s.gv a) s.pc)) ∧
  (∀ (s : State) (d a b : GR), s.gp a = false → s.gp b = false → (s.site (siteOf s.here)).triad.mayVote = true →
    let returns (t : State) (v : BitVec 64) : Prop := t.gv d = v ∧ t.gp d = false ∧ SameG s t [d] ∧ SameV s t ∧
      SameTables s t ∧ SameStore s t ∧ Passes s t (s.pc + 4)
    (s.core.ctl.priv = .s → Completes (.coxcallPoisoned d a b) s fun t => returns t 0 ∧
      t.boat = { s.boat with log := s.boat.log ++ [.poisoned s.here ((s.gv a).setWidth 4) (s.gv b)] }) ∧
    (s.boat.queue.length < Config.logRoom → Completes (.coxcallLog d a b 1) s fun t => returns t 0 ∧
      t.boat = { s.boat with queue := s.boat.queue ++ [(siteOf s.here, s.gv a, s.gv b)] }) ∧
    (Config.logRoom ≤ s.boat.queue.length → Completes (.coxcallLog d a b 1) s fun t => returns t 5 ∧ t.boat = s.boat) ∧
    (∀ n : BitVec 6, 3 ≤ n.toNat → Completes (.coxcallLog d a b n) s fun t => returns t 9 ∧ t.boat = s.boat) ∧
    (Completes (.coxcallCheckpoint d a b) s fun t => returns t 0 ∧ t.boat = s.boat ∧
      (∀ i, s.groupOf s.core.ctl.gid = some i → (s.group i).st ≠ .faulted → (s.gv a).setWidth 32 ≠ (0xFFFFFFFF : BitVec 32) →
        ∃ e ∈ (t.group i).reports, e.1 = (s.group i).tagOf s.here ∧ ((s.gv a).setWidth 32 : BitVec 32).toNat ≤ e.2.toNat))) ∧
  (∀ (s : State) (d a b : GR), s.gp a = false → s.gp b = false → (s.site (siteOf s.here)).triad.mayVote = false →
    (s.core.ctl.priv = .s → Completes (.coxcallPoisoned d a b) s (HeldAt s)) ∧
    Completes (.coxcallLog d a b 1) s (HeldAt s) ∧ Completes (.coxcallCheckpoint d a b) s (HeldAt s))

/-! ## Streams and atomics -/

/-- R112, R114, R115, R123, R125, R239-R244, R301-R304, R333: `SOPEN` of a descriptor that passes the checks opens the lowest FREE
stream slot, -1 when there is none; `SCTL` closes, stops or advances; `SWAIT` reads the slot. On a tile that is up, an ACTIVE
transfer makes one of the moves open to it, whichever is chosen: it begins its next leg, reads a word, puts a word it has read
into the core's own scratchpad, sends a burst, or has a word of a burst in flight performed at its home. At the end
the flag word is written and the slot is DONE; a leg whose fault record failed makes the slot FAULTED with PAGE, one
whose record is resolved, or whose migration is over, may run again; a refused leg whose back-off has expired is tried
again, and one whose back-off has not stays. The core's late reads of the words a burst or a flag takes come first.
The model's choices in it: log entries 15, 16, 17 and 22; log entry 37: a tile that is not up makes no move; log entry 78: a record
that fails does so for its joiners from the next tick on; log entry 88: a flag whose home refuses the write. -/
def Obligations.Streams : Prop :=
  (∀ (s : State) (d a : GR) w c off, s.gp a = false → s.ownPath (s.gv a) 1 = .own off → off % 64 = 0 →
    s.anyPoison (nodeBase s.here + off) 64 = false →
    let x : BitVec 512 := BitVec.ofNat 512 (s.readNat (nodeBase s.here + off) 64)
    s.descFields x c = true → s.endsFault (x.extractLsb' 0 64) (x.extractLsb' 64 64) (x.extractLsb' 192 32).toNat = none →
    s.flagFault (x.extractLsb' 128 64) = none →
    (s.core.freeStream = none → Completes (.sopen d a w c) s fun t => WritesG s t d (-1) false 0 4) ∧
    (∀ k : BitVec 2, s.core.freeStream = some k.toNat → Completes (.sopen d a w c) s fun t =>
      t.gv d = k.setWidth 64 ∧ t.gp d = false ∧ (t.stream k).st = .active ∧ (t.stream k).src = x.extractLsb' 0 64 ∧
      (t.stream k).dst = x.extractLsb' 64 64 ∧ (t.stream k).flag = x.extractLsb' 128 64 ∧
      (t.stream k).len = x.extractLsb' 192 32 ∧ (t.stream k).wc = w ∧ (t.stream k).cls = c ∧ (t.stream k).pos = 0 ∧
      (t.stream k).owner = s.core.ctl.slot ∧ (∀ j, j ≠ k → t.stream j = s.stream j) ∧ SameG s t [d] ∧ SameV s t ∧
      SameOutside s t ∧ Passes s t (s.pc + 4))) ∧
  (∀ (s : State) (d : GR) (k : BitVec 2),
    let q := s.stream k
    let gives (i : Instr) (v : BitVec 64) (x : Stream) : Prop := Completes i s fun t => t.gv d = v ∧ t.gp d = false ∧
      t.stream k = x ∧ (∀ j, j ≠ k → t.stream j = s.stream j) ∧ SameG s t [d] ∧ SameV s t ∧ SameStore s t ∧ t.pc = s.pc + 4
    (q.st = .free → gives (.sctlClose d k) 6 q ∧ gives (.sctlAbort d k) 6 q ∧ gives (.sctlAdvance d k) 6 q) ∧
    (q.st = .active → gives (.sctlClose d k) 1 q ∧ gives (.sctlAdvance d k) 1 q ∧
      gives (.sctlAbort d k) 0 { q with st := .faulted, cause := 0, wait := .none, legs := [], redo := [] }) ∧
    (q.st = .faulted → gives (.sctlClose d k) 0 Stream.free ∧ gives (.sctlAbort d k) 0 q ∧ gives (.sctlAdvance d k) 1 q) ∧
    (q.st = .done → gives (.sctlClose d k) 0 Stream.free ∧ gives (.sctlAbort d k) 0 q ∧
      (s.endsFault (q.src + q.sstep.signExtend 64) (q.dst + q.dstep.signExtend 64) q.len.toNat ≠ none →
        gives (.sctlAdvance d k) 8 q) ∧
      (s.endsFault (q.src + q.sstep.signExtend 64) (q.dst + q.dstep.signExtend 64) q.len.toNat = none →
        gives (.sctlAdvance d k) 0 { q with
          st := .active, src := q.src + q.sstep.signExtend 64, dst := q.dst + q.dstep.signExtend 64, seq := q.seq + 1,
          pos := 0, pois := false, cause := 0, wait := .none, tries := 0, legs := [], redo := [], next := 0,
          serial := s.core.sh.opened })) ∧
    (Completes (.swait d k) s fun t => ∃ v, WritesG s t d v false 0 4 ∧ v.extractLsb' 32 32 = BitVec.ofNat 32 q.pos ∧
      v.extractLsb' 16 4 = q.owner ∧ v.extractLsb' 8 5 = (if q.st = .faulted then q.cause else 0) ∧
      v.extractLsb' 0 2 = q.st.code)) ∧
  (∀ (s : State) (k : BitVec 2), ((s.stream k).st ≠ .active ∨ s.moves k = [] ∨ s.tileUp = false) →
    Completes (.streamLegStart k) s fun t => t = s) ∧
  (∀ (s : State) (k : BitVec 2) m, s.tileUp = true → (s.stream k).st = .active →
    (s.moves k)[Config.streamChoice s.draws % (s.moves k).length]? = some m →
    let q := s.stream k
    let runs (P : State → Prop) : Prop := Completes (.streamLegStart k) s fun t => P t ∧ SameRegs s t ∧
      ∀ j, j ≠ k → t.stream j = s.stream j
    let landed (t : State) (n o : Nat) (ws : List (Nat × Bool)) : Prop :=
      (∀ i w, ws[i]? = some w → ∀ j, j < 8 → t.byte (nodeBase n + o + 8 * i + j) = BitVec.ofNat 8 (w.1 / 256 ^ j)) ∧
      SameBytesBut s t (nodeBase n + o) (8 * ws.length)
    (∀ p, m = .begin → q.nextPos = some p → isFar (if s.ownEnd q.dst then q.src else q.dst) = false → runs fun t =>
      t.stream k = Stream.settle { q with
        next := (if q.redo = [] then p + q.bytesAt p else q.next), redo := q.redo.tail,
        legs := q.legs ++ [⟨p, [], [], List.range (q.bytesAt p / 8), 0, []⟩] } ∧ SameStore s t ∧ SameNet s t) ∧
    (∀ i w k1 o1, m = .read i w →
      let l := q.leg i
      let a := q.src + BitVec.ofNat 64 (l.pos + 8 * w)
      let x := (s.readNat (nodeBase k1 + o1) 8, s.poisoned (nodeBase k1 + o1))
      isFar a = false → s.nearEnd a 0 = .ok (.near k1 o1) → runs fun t =>
        t.stream k = { Stream.settle { q with
          legs := q.legs.set i { l with got := l.got ++ [(w, x)], reads := l.reads.filter (· != w) } } with
          pois := q.pois || x.2 } ∧ SameStore s t ∧ SameNet s t) ∧
    (∀ i w g k2 o2, m = .put i w →
      let l := q.leg i
      l.got.find? (fun g => g.1 == w) = some g → s.nearEnd (q.dst + BitVec.ofNat 64 (l.pos + 8 * w)) 2 = .ok (.near k2 o2) →
        runs fun t => landed t k2 o2 [g.2] ∧ ((s.node k2).watches = [] → SameNet s t) ∧
          t.stream k = Stream.settle { q with legs := q.legs.set i { l with got := l.got.filter (fun g => g.1 != w) } }) ∧
    (∀ i ws k2 o2, m = .emit i → q.nextBurst (q.leg i) = some ws →
      let l := q.leg i
      let b := q.burst l.pos l.sent
      let a := q.dst + BitVec.ofNat 64 (l.pos + 8 * b.1)
      let sent : Leg := { l with got := l.got.filter (fun g => !(decide (b.1 ≤ g.1) && decide (g.1 < b.1 + b.2))), sent := l.sent + 1 }
      isFar a = false → s.nearEnd a (if q.cls = .ordered then 0 else 2) = .ok (.near k2 o2) →
      let u := s.takeWords ((End.near k2 o2).words ws.length)
      let leaves (P : State → Prop) : Prop := Completes (.streamLegStart k) s fun t => P t ∧ SameRegs u t ∧ SameStore u t ∧
        ∀ j, j ≠ k → t.stream j = u.stream j
      ((∀ y ∈ s.core.sh.late, shareWord y.words ((End.near k2 o2).words ws.length) = false) → u = s) ∧
      (q.cls ≠ .ordered → leaves fun t => SameNet u t ∧ t.stream k = Stream.settle { u.stream k with
        legs := (u.stream k).legs.set i { sent with fly := l.fly ++ [⟨l.sent, ws, .near k2 o2, 0, s.clock.ticks, none⟩] } }) ∧
      (q.cls = .ordered → leaves fun t => t.core.sh.rid = u.core.sh.rid + 1 ∧
        t.core.sh.unrep = u.core.sh.unrep ++ [u.core.sh.rid] ∧
        (∃ p, Sent u t p ∧ p.kind = .amo ∧ p.dst = k2 ∧ p.rid = u.core.sh.rid ∧ p.flits = ws.length) ∧
        t.stream k = Stream.settle { u.stream k with
          legs := (u.stream k).legs.set i { sent with fly := l.fly ++ [⟨l.sent, ws, .near k2 o2, u.core.sh.rid, s.clock.ticks, none⟩] } })) ∧
    (∀ i j w f x k2 o2, m = .land i j w → (q.leg i).fly[j]? = some f → f.words[w]? = some x → f.dest = .near k2 o2 →
      s.arrives s.core.ctl.gid 2 s.here k2 = true → s.homeCheck s.core.ctl.dom k2 o2 8 = none → runs fun t =>
        landed t k2 (o2 + 8 * w) [x] ∧ ((s.node k2).watches = [] → SameNet s t) ∧
        t.stream k = Stream.settle { q with legs := q.legs.set i { q.leg i with
          fly := (q.leg i).fly.take j ++ f.without w ++ (q.leg i).fly.drop (j + 1) } })) ∧
  (∀ (s : State) (k : BitVec 2),
    let q := s.stream k
    s.tileUp = true → q.st = .active → q.ended = true →
    (q.flag = 0 → Completes (.streamCompletion k) s fun t => t.stream k = { q with st := .done } ∧ SameStore s t ∧ SameRegs s t) ∧
    (∀ k2 o2, q.flag ≠ 0 → s.nearEnd q.flag 2 = .ok (.near k2 o2) →
      (s.unsettled (wordsOf (nodeBase k2 + o2) 8) = true → Completes (.streamCompletion k) s fun t => t = s) ∧
      (s.unsettled (wordsOf (nodeBase k2 + o2) 8) = false → Completes (.streamCompletion k) s fun t =>
        let u := s.takeWords ((End.near k2 o2).words 1)
        t.stream k = { u.stream k with st := .done } ∧
        (∀ i, i < 8 → t.byte (nodeBase k2 + o2 + i) =
          ((if q.pois then (0x20000 : BitVec 64) else 0) ||| q.seq.setWidth 64).extractLsb' (8 * i) 8) ∧
        SameBytesBut u t (nodeBase k2 + o2) 8 ∧ SameRegs u t ∧
        ((∀ y ∈ s.core.sh.late, shareWord y.words ((End.near k2 o2).words 1) = false) → u = s))) ∧
    (∀ c, q.flag ≠ 0 → s.nearEnd q.flag 2 = .error (.fault c) → Completes (.streamCompletion k) s fun t =>
      t.stream k = { q with st := .faulted, cause := c, wait := .none, legs := [], redo := [] } ∧ SameStore s t ∧ SameRegs s t)) ∧
  (∀ (s : State) (k : BitVec 2), ((s.stream k).st ≠ .active ∨ (s.stream k).ended = false ∨ s.tileUp = false) →
    Completes (.streamCompletion k) s fun t => t = s) ∧
  (∀ (s : State) (k : BitVec 2) n i,
    let q := s.stream k
    let st := if Joiner.stream s.here k ∈ (s.faultAt n i).join then s.recState (s.faultAt n i) else .free
    s.tileUp = true → q.st = .active → q.wait = .record n i →
    (st = .pending → Completes (.legRewind k) s fun t => t = s) ∧
    (st = .resolved ∨ st = .free → Completes (.legRewind k) s fun t =>
      t.stream k = { q with wait := .none } ∧ SameStore s t ∧ SameRegs s t) ∧
    (st = .failed → Completes (.legRewind k) s fun t =>
      t.stream k = { q with st := .faulted, cause := 6, wait := .none, legs := [], redo := [] } ∧
      SameStore s t ∧ SameRegs s t)) ∧
  (∀ (s : State) (k : BitVec 2) va,
    let q := s.stream k
    s.tileUp = true → q.st = .active → q.wait = .migrating va → Completes (.legRewind k) s fun t =>
      if s.migrationOver k va then t = s.setStream k { q with wait := .none } else t = s) ∧
  (∀ s : State, ∃ t, exec .refusalRetry s = .next t) ∧
  (∀ (s : State) (k : BitVec 2) n due, (s.stream k).st = .active → (s.stream k).wait = .refused n due →
    let q := s.stream k
    let alone : Prop := ∀ j, j ≠ k → (s.stream j).st = .active → ∀ n' due', (s.stream j).wait ≠ .refused n' due'
    let noCopy : Prop := ∀ j c, j < 64 → s.running? j 2 (fun _ => true) = some c → ∀ n' due', c.wait ≠ .refused n' due'
    (s.tileUp = true → due ≤ s.clock.ticks → Completes .refusalRetry s fun t =>
      (t.stream k).wait ≠ .refused n due ∧
      (alone → noCopy → t = (s.setStream k { q with wait := .none }).beginLeg k)) ∧
    (s.tileUp = false ∨ s.clock.ticks < due → Completes .refusalRetry s fun t => t.stream k = q ∧ (alone → noCopy → t = s)))

/-- R88, R114, R115, R126-R129, R225, R241, R246, R247, R323, R333, R355: an atomic on the core's own word reads and writes it at once; one on another
home sends a request with the next RID, once the core's late reads of the word are taken, and holds for its reply, which gives the
old word, with the poison the reply carries, or the cause it names; the ninth
unanswered request waits. A home performs a request once, whichever copies of it arrive, and answers with the old word,
a burst of an ORDERED transfer word by word; what a poisoned request writes carries the code; a proxy core reads the word in far memory and then writes it. A request
without a reply is sent again when it is due; the acknowledgement of a home carries the oldest unanswered RID; a tile
that is not up sends neither, and one that is not LIVE takes none.
The model's choices in it: log entries 32 and 58; log entry 37: a tile that is not up sends nothing; log entry 43: a poisoned request
or reply. -/
def Obligations.Atomics : Prop :=
  let performs (i : Instr) (d : GR) (w : AmoW) (new : Nat → Nat) (s : State) (off : Nat) : Prop :=
    let n := AmoW.bytes w
    let m := nodeBase s.here + off
    Completes i s fun t => t.gv d = BitVec.ofNat 64 (s.readNat m n) ∧ t.gp d = false ∧
      (∀ j, j < n → t.byte (m + j) = BitVec.ofNat 8 (new (s.readNat m n) / 256 ^ j)) ∧ SameBytesBut s t m n ∧
      SameG s t [d] ∧ SameV s t ∧ t.pc = s.pc + 8
  (∀ (s : State) (d a b : GR) w off, s.gp a = false → s.gp b = false → (s.gv a).toNat % AmoW.bytes w = 0 →
    s.rpcFor .amo = none → isFar (s.gv a) = false → s.resolve (s.gv a) = some ⟨0xFF, s.here, off⟩ →
    s.deadTarget 0 ⟨0xFF, s.here, off⟩ = false → s.homeCheck s.core.ctl.dom s.here off (AmoW.bytes w) = none →
    s.poisoned (nodeBase s.here + off) = false → s.unsettled [(nodeBase s.here + off) / 8] = false →
    let y := (s.gv b).toNat % 2 ^ (8 * AmoW.bytes w)
    let sg := signExtend (8 * AmoW.bytes w)
    performs (.amo d a b w .add) d w (fun x => (x + y) % 2 ^ (8 * AmoW.bytes w)) s off ∧
    performs (.amo d a b w .swap) d w (fun _ => y) s off ∧ performs (.amo d a b w .and) d w (· &&& y) s off ∧
    performs (.amo d a b w .or) d w (· ||| y) s off ∧ performs (.amo d a b w .xor) d w (· ^^^ y) s off ∧
    performs (.amo d a b w .min) d w (fun x => if sg y < sg x then y else x) s off ∧
    performs (.amo d a b w .max) d w (fun x => if sg x < sg y then y else x) s off ∧
    performs (.amo d a b w .minn) d w (fun x => if y < x then y else x) s off ∧
    performs (.amo d a b w .maxn) d w (fun x => if x < y then y else x) s off ∧
    (∀ c, s.gp c = false → performs (.cas d a b c w) d w
      (fun x => if x = (s.gv c).toNat % 2 ^ (8 * AmoW.bytes w) then y else x) s off)) ∧
  (∀ (s : State) (d a b : GR) w o k, s.gp a = false → s.gp b = false → (s.gv a).toNat % AmoW.bytes w = 0 →
    (∀ r st v, s.rpcFor .amo = some r → r.reply = some (st, v) →
      (st = 0 → Completes (.amo d a b w o) s fun t => t.gv d = v ∧ t.gp d = r.pois ∧ t.core.sh.rpc = none ∧ SameG s t [d] ∧
        SameV s t ∧ SameOutside s t ∧ Passes s t (s.pc + 8)) ∧
      (st = 0x41 → s.core.ctl.priv = .u → Completes (.amo d a b w o) s fun t => t.core.ctl.cause = 16 ∧
        t.core.ctl.tval = s.gv a ∧ t.core.ctl.tpc = s.pc ∧ t.core.ctl.priv = .s ∧ t.core.regs = s.core.regs ∧ SameStore s t)) ∧
    (s.rpcFor .amo = none → isFar (s.gv a) = false → s.resolve (s.gv a) = some k → s.deadTarget 0 k = false →
      k.panel = 0xFF → k.key ≠ s.here → 8 ≤ s.core.sh.unrep.length → Completes (.amo d a b w o) s (HeldAt s)) ∧
    (s.rpcFor .amo = none → isFar (s.gv a) = false → s.resolve (s.gv a) = some k → s.deadTarget 0 k = false →
      k.panel = 0xFF → k.key ≠ s.here → s.core.sh.unrep.length < 8 →
      let place := [(nodeBase k.key + (s.gv a).toNat % 262144) / 8]
      let u := s.takeWords place
      s.unsettled place = false → Completes (.amo d a b w o) s fun t =>
        ((∀ y ∈ s.core.sh.late, shareWord y.words place = false) → u = s) ∧
        (∃ p, Sent u t p ∧ p.kind = .amo ∧ p.dst = k.key ∧ p.addr = s.gv a ∧ p.val = s.gv b ∧ p.op = o ∧
          p.rid = u.core.sh.rid ∧ p.low = u.core.sh.unrep.headD p.rid ∧
          t.core.sh.rpc = some ⟨p, u.clock.ticks, none, false, none⟩) ∧
        t.core.sh.rid = u.core.sh.rid + 1 ∧ t.core.sh.unrep = u.core.sh.unrep ++ [u.core.sh.rid] ∧ t.core.ctl.issue = .hold ∧
        t.pc = u.pc ∧ t.core.regs = u.core.regs ∧ SameStore u t)) ∧
  (∀ (s : State) n p rows, s.arriving n = some p → p.kind = .amo → p.count = 0 → p.srcPan = 0xFF →
    s.arrives p.gid 0 p.src p.dst = true →
    let off := p.addr.toNat % 262144
    let m := nodeBase p.dst + off
    let w := AmoW.bytes p.width
    (p.flits = 0 → cacheLookup (s.node p.dst).cache (fun _ => false) p = .fresh rows → s.homeCheck p.dom p.dst off w = none →
      s.poisoned m = false → Completes (.homeAtomic n) s fun t =>
        (∀ j, j < w → t.byte (m + j) = BitVec.ofNat 8 (p.newWord (s.readNat m w) / 256 ^ j)) ∧ SameBytesBut s t m w ∧
        t.poisoned m = p.pois ∧ Travels s t (p.amoReply 0 (BitVec.ofNat 64 (s.readNat m w))) ∧ SameRegs s t) ∧
    (p.flits ≠ 0 → cacheLookup (s.node p.dst).cache (fun _ => false) p = .fresh rows → s.homeCheck p.dom p.dst off 8 = none →
      s.anyPoison m (8 * p.flits) = false → Completes (.homeAtomic n) s fun t =>
        (∀ i, i < p.flits → ∀ j, j < 8 →
          t.byte (m + 8 * i + j) = BitVec.ofNat 8 ((p.burstNew i (s.readNat (m + 8 * i) 8)).1 / 256 ^ j)) ∧
        (∀ i, i < p.flits → t.poisoned (m + 8 * i) = (p.burstNew i (s.readNat (m + 8 * i) 8)).2) ∧
        (∃ v, Travels s t (p.amoReply 0 v)) ∧ SameBytesBut s t m (8 * p.flits) ∧ SameRegs s t) ∧
    (∀ e, cacheLookup (s.node p.dst).cache (fun _ => false) p = .old e rows → Completes (.homeAtomic n) s fun t =>
      Sent (s.unsend n) t (p.amoReply e.status e.old) ∧ SameStore s t ∧ SameRegs s t)) ∧
  (∀ (s : State) site (q : BitVec 4) p r rows, tget [] (s.site site).proxy q.toNat = p :: r → p.srcPan = 0xFF →
    s.served p.addr.toNat = true → s.lineError p.addr.toNat = false →
    let m := farKey p.addr.toNat
    let w := AmoW.bytes p.width
    (tget none (s.site site).taken q.toNat = none → cacheLookup (s.site site).pcache (s.site site).underWay p = .fresh rows →
      s.linePoison p.addr.toNat = false → Completes (.proxyAtomic site q) s fun t => Still s t ∧ SameNet s t ∧
        tget none (t.site site).taken q.toNat = some (s.readNat m p.bytes) ∧
        tget [] (t.site site).proxy q.toNat = p :: r) ∧
    (∀ x, tget none (s.site site).taken q.toNat = some x → p.flits = 0 →
      Completes (.proxyAtomic site q) s fun t =>
        (∀ j, j < w → t.byte (m + j) = BitVec.ofNat 8 (p.newWord x / 256 ^ j)) ∧ SameBytesBut s t m w ∧
        Sent s t (p.amoReply 0 (BitVec.ofNat 64 x)) ∧ tget [] (t.site site).proxy q.toNat = r ∧
        tget none (t.site site).taken q.toNat = none ∧ SameRegs s t)) ∧
  (∀ (s : State) r, s.tileUp = true → s.rpcFor .amo = some r → r.req.dstPan = 0xFF → (∀ k, (s.stream k).flying = []) →
    let p := { r.req with low := s.core.sh.unrep.headD r.req.rid }
    let again (t : State) : Prop := Sent s t p ∧
      t.core.sh.rpc = some { r with req := p, sent := s.clock.ticks, busyAt := none } ∧ SameRegs s t ∧ SameStore s t
    (r.reply = none → r.busyAt = none → r.sent + s.cycleTicks s.here 65536 ≤ s.clock.ticks → Completes .atomicResend s again) ∧
    (s.clock.ticks < r.sent + s.cycleTicks s.here 65536 → Completes .atomicResend s fun t => t = s) ∧
    (∀ b, r.busyAt = some b → b + s.cycleTicks s.here 64 ≤ s.clock.ticks → Completes .atomicBusyResend s again) ∧
    (r.busyAt = none → Completes .atomicBusyResend s fun t => t = s)) ∧
  (∀ (s : State) k f a o, s.tileUp = true → (s.stream k).cls = .ordered → f ∈ (s.stream k).flying → f.dest = .near a o →
    let again (t : State) : Prop := SameRegs s t ∧ SameStore s t ∧ ∃ p, Travels s t p ∧ p.kind = .amo ∧ p.dst = a ∧
      p.rid = f.rid ∧ p.flits = f.words.length
    (f.busyAt = none → f.sent + s.cycleTicks s.here 65536 ≤ s.clock.ticks → Completes .atomicResend s again) ∧
    (∀ b, f.busyAt = some b → b + s.cycleTicks s.here 64 ≤ s.clock.ticks → Completes .atomicBusyResend s again)) ∧
  (∀ (s : State), s.tileUp = false → Completes .atomicResend s (fun t => t = s) ∧ Completes .atomicBusyResend s (fun t => t = s) ∧
    ∀ n, Completes (.lowAcknowledgement n) s fun t => t = s) ∧
  (∀ (s : State) n pan home b, s.tileUp = true → s.core.sh.acks[n]? = some (pan, home, b) →
    (s.clock.ticks < b + s.cycleTicks s.here 1024 → Completes (.lowAcknowledgement n) s fun t => t = s) ∧
    (b + s.cycleTicks s.here 1024 ≤ s.clock.ticks →
      let low := s.core.sh.unrep.headD s.core.sh.rid
      (pan = 0xFF → home < 1048576 → Completes (.lowAcknowledgement n) s fun t =>
        t.core.sh.acks = dropAt n s.core.sh.acks ∧ SameRegs s t ∧ SameStore s t ∧
        (s.siteLive (siteOf home) = false → (t.node home).cache = (s.node home).cache) ∧
        (s.siteLive (siteOf home) = true →
          ∀ r, (t.node home).cache.find? (fun x => x.panel == 0xFF && x.src == s.here) = some r → r.low = low)) ∧
      (pan ≠ 0xFF → Completes (.lowAcknowledgement n) s fun t =>
        t.core.sh.acks = dropAt n s.core.sh.acks ∧ SameRegs s t ∧ SameStore s t ∧ SameNet s t ∧
        (s.leaves s.core.ctl.gid s.core.ctl.dom 3 s.here pan = true →
          ∃ p, t.out = s.out ++ [p] ∧ p.kind = .lowAck ∧ p.dstPan = pan ∧ p.dst = home ∧ p.low = low) ∧
        (s.leaves s.core.ctl.gid s.core.ctl.dom 3 s.here pan = false → t.out = s.out))))

/-! ## Arrivals and reduction trees -/

/-- R93-R98, R111, R231, R234, R317, R320, R338: a DATA packet enters the ring of its seat and is answered OK, or is refused with
BOUNDS, LATE, NOSEAT or HOLE, or stays in flight while the ring is full; a FINISH sets FIN in its round, is BUSY one
round early and LATE otherwise; a reply leaves the network and what it answers no longer stands unanswered, its
status recorded while the allocation that sent the packet stands, when it is the first that is not OK; a FINISH answered
BUSY is sent again 64 core cycles later; at a site that no longer answers a reply is gone.
The model's choices in it: log entries 23, 51 and 60; log entry 37: a tile that is not up sends nothing again; log entry 79: a reply
without a way is gone. -/
def Obligations.PacketArrivals : Prop :=
  (∀ (s : State) n p, s.arriving n = some p → p.kind = .data → p.srcPan = 0xFF →
    let answers (st : BitVec 8) (t : State) : Prop := Travels s t (p.answer .reply st) ∧ SameRegs s t
    let quiet (st : BitVec 8) : Prop := Completes (.dataArrival n) s fun t =>
      Sent (s.unsend n) t (p.answer .reply st) ∧ SameRegs s t ∧ SameStore s t ∧
      (∀ k j, (t.coreAt k).seatAt j = (s.coreAt k).seatAt j)
    (s.arrives p.gid p.lc p.src p.dst = false → quiet 4) ∧
    (s.arrives p.gid p.lc p.src p.dst = true →
      (s.seatOf p = none → quiet 2) ∧
      (∀ i, s.seatOf p = some i →
        let q := (s.coreAt p.dst).seatAt i
        (q.cap < 1 + p.flits → quiet 8) ∧
        (1 + p.flits ≤ q.cap → q.cap < q.used + (1 + p.flits) → Completes (.dataArrival n) s fun t => t = s) ∧
        (q.used + (1 + p.flits) ≤ q.cap →
          ((p.round = q.round ∧ q.fin = false) ∨ p.round - q.round = 1 → Completes (.dataArrival n) s fun t =>
            ((t.coreAt p.dst).seatAt i).count = q.count + 1 ∧
            ((t.coreAt p.dst).seatAt i).tail = q.step q.tail (1 + p.payload.length) ∧
            ((t.coreAt p.dst).seatAt i).seq = (if p.round = q.round then q.seq + 1 else q.seq) ∧
            (∀ c, (c < nodeBase p.dst + q.base.toNat ∨ nodeBase p.dst + q.base.toNat + 32 * 256 ≤ c) → t.byte c = s.byte c) ∧
            answers 0 t) ∧
          ((p.round = q.round ∧ q.fin = true) ∨ (p.round ≠ q.round ∧ p.round - q.round ≠ 1) → quiet 3))))) ∧
  (∀ (s : State) n p i, s.arriving n = some p → p.kind = .finish → p.srcPan = 0xFF → s.arrives p.gid 3 p.src p.dst = true →
    s.seatOf p = some i →
    let q := (s.coreAt p.dst).seatAt i
    let answers (st : BitVec 8) (t : State) : Prop :=
      Sent (s.unsend n) t (p.answer .reply st) ∧ SameRegs s t ∧ SameStore s t
    (p.round = q.round → Completes (.finishArrival n) s fun t => ((t.coreAt p.dst).seatAt i).fin = true ∧
      ((t.coreAt p.dst).seatAt i).round = q.round ∧ answers 0 t) ∧
    (p.round - q.round = 1 → Completes (.finishArrival n) s fun t => (t.coreAt p.dst).seatAt i = q ∧ answers 1 t) ∧
    (p.round ≠ q.round → p.round - q.round ≠ 1 → Completes (.finishArrival n) s fun t =>
      (t.coreAt p.dst).seatAt i = q ∧ answers 3 t)) ∧
  (∀ (s : State) n p, s.arriving n = some p → p.kind = .reply →
    let q := (s.coreAt p.dst).slot p.slot
    let frame (t : State) : Prop := SameNet (s.unsend n) t ∧ SameRegs s t ∧ SameStore s t
    (s.sinks p.dst = false ∨ s.travels p = false → Completes (.replyArrival n) s fun t => t = s.unsend n) ∧
    (s.sinks p.dst = true → s.travels p = true → ¬ (p.fin = true ∧ p.status = 1) → Completes (.replyArrival n) s fun t => frame t ∧
      let u := (t.coreAt p.dst).slot p.slot
      u.unans = dropFirst (fun x => x == p.asUnanswered) q.unans ∧
      u.record = (if q.alloc = p.alloc ∧ q.st ≠ .free ∧ p.status ≠ 0 ∧ q.record = none then some (p.status, p.chan)
        else q.record)) ∧
    (s.sinks p.dst = true → s.travels p = true → p.fin = true ∧ p.status = 1 → Completes (.replyArrival n) s fun t => frame t ∧
      (t.coreAt p.dst).slot p.slot = q ∧
      (t.coreAt p.dst).sh.busyFin = (s.coreAt p.dst).sh.busyFin ++ [(p.finishAgain, s.clock.ticks)])) ∧
  (∀ (s : State) n p b, s.core.sh.busyFin[n]? = some (p, b) → p.dstPan = 0xFF →
    (s.clock.ticks < b + s.cycleTicks s.here 64 ∨ s.tileUp = false → Completes (.finishResend n) s fun t => t = s) ∧
    (s.tileUp = true → b + s.cycleTicks s.here 64 ≤ s.clock.ticks → Completes (.finishResend n) s fun t => Sent s t p ∧
      t.core.sh.busyFin = dropAt n s.core.sh.busyFin ∧ SameRegs s t ∧ SameStore s t))

/-- R95, R102-R107, R123: a router that has no entry for a tree refuses a block with NOSEAT; the first block of an
index opens a buffer while others are awaited; a root with one child stores the block that reaches it in its planes.
A finish that is due leaves for the parent, or stands at the root; the root's flag word then counts the rounds and
carries PARTIAL when blocks lack. A notice from the parent goes on to the present children.
The model's choices in it: log entries 35 and 55-57. -/
def Obligations.ReductionTrees : Prop :=
  (∀ (s : State) n p, s.arriving n = some p → p.kind = .treeBlock → p.srcPan = 0xFF → s.arrives p.gid 2 p.src p.dst = true →
    let idx : BitVec 12 := p.seq.setWidth 12
    let a := nodeBase p.dst
    (s.entryFor p.dst p.gid p.chan = none → Completes (.treeBlockDelivery n) s fun t =>
      Sent (s.unsend n) t (p.answer p.treeAnswerKind 2) ∧ Still s t) ∧
    (∀ e, s.entryFor p.dst p.gid p.chan = some e →
      (s.node p.dst).bufs.find? (fun b => b.is p.gid p.chan idx p.round) = none → e.refuses p none = none →
      (s.node p.dst).bufs.length < 64 →
      (e.child &&& ~~~(e.absentAt p.round) &&& ~~~(dirBit p.dir) ≠ 0 → Completes (.treeBlockDelivery n) s fun t =>
        (∃ b ∈ (t.node p.dst).bufs, b.gid = p.gid ∧ b.chan = p.chan ∧ b.idx = idx ∧ b.round = p.round ∧ b.sent = false ∧
          b.got = [(p.dir, ⟨p.body, p.aux.setWidth 32, p.pois⟩)]) ∧
        Sent (s.unsend n) t (p.answer p.treeAnswerKind 0) ∧ Still s t) ∧
      (∀ w, p.dir.toNat < 5 → e.child = dirBit p.dir → e.absentAt p.round = 0 → e.parent = 4 → e.sink = some w →
        64 * w.mbase.toNat + 64 * idx.toNat + 64 ≤ 4 * w.sbase.toNat + 4 * idx.toNat →
        Completes (.treeBlockDelivery n) s fun t =>
          (∀ i, i < 64 → t.byte (a + 64 * w.mbase.toNat + 64 * idx.toNat + i) = p.body.extractLsb' (8 * i) 8) ∧
          (∀ i, i < 4 → t.byte (a + 4 * w.sbase.toNat + 4 * idx.toNat + i) = p.aux.extractLsb' (8 * i) 8) ∧
          (∀ c, (c < a + 64 * w.mbase.toNat + 64 * idx.toNat ∨ a + 64 * w.mbase.toNat + 64 * idx.toNat + 64 ≤ c) →
            (c < a + 4 * w.sbase.toNat + 4 * idx.toNat ∨ a + 4 * w.sbase.toNat + 4 * idx.toNat + 4 ≤ c) →
            t.byte c = s.byte c) ∧ Travels s t (p.answer p.treeAnswerKind 0) ∧ SameRegs s t))) ∧
  (∀ (s : State) k gid chan round e, s.entryFor k gid chan = some e → s.finishDue k e (s.finHeld k gid chan round) = true →
    (e.parent ≠ 4 → Completes (.treeFinishForward k gid chan round) s fun t => Still s t ∧
      ∃ p, Sent s t p ∧ p.kind = .treeFinish ∧ p.src = k ∧ p.dst = neighbour k e.parent ∧ p.gid = gid ∧
        p.chan = chan ∧ p.round = round ∧ p.dir = opposite e.parent) ∧
    (e.parent = 4 → Completes (.treeFinishForward k gid chan round) s fun t => Still s t ∧ SameNet s t ∧
      (t.finHeld k gid chan round).root = true)) ∧
  (∀ (s : State) k gid chan round e w, s.entryFor k gid chan = some e → e.sink = some w →
    let f := s.finHeld k gid chan round
    let lacks : Prop := ∃ i, i ≤ w.nblkm1.toNat ∧ ¬ BitVec.ofNat 12 i ∈ f.wrote
    let flag (part : Bool) : BitVec 64 := (if part then 0x10000 else 0) ||| (e.rounds + 1).setWidth 64
    (f.root = false ∨ s.liveFor gid k = false → Completes (.rootFlagWrite k gid chan round) s fun t => t = s) ∧
    (∀ part, f.root = true → s.liveFor gid k = true → (part = true ↔ f.part = true ∨ lacks) →
      Completes (.rootFlagWrite k gid chan round) s fun t =>
        (∀ i, i < 8 → t.byte (nodeBase k + 8 * w.flag.toNat + i) = (flag part).extractLsb' (8 * i) 8) ∧
        SameBytesBut s t (nodeBase k + 8 * w.flag.toNat) 8 ∧
        (t.entryFor k gid chan).map (·.rounds) = some (e.rounds + 1) ∧ SameRegs s t)) ∧
  (∀ (s : State) n p e, s.arriving n = some p → p.kind = .renorm → p.dstPan = 0xFF → s.arrives p.gid 3 p.entry p.dst = true →
    s.entryFor p.dst p.gid p.chan = some e → Completes (.renormFromParent n) s fun t => SameRegs s t ∧
      ∀ x : BitVec 3, x.toNat < 4 → hasDir (e.child &&& ~~~(e.absentAt p.round)) x = true → ∃ q, Travels s t q ∧ q.kind = .renorm ∧
        q.dst = neighbour p.dst x ∧ q.chan = p.chan ∧ q.round = p.round ∧ q.status = p.status)

/-! ## Health, clock and power -/

/-- R108, R109: a probe that finds a cycle of slots asleep on one another's seats raises DEADLOCK in its members,
here of two slots of two cores; an expired watchdog raises WATCHDOG with what the slot waits on, and one that has not
expired nothing.
The model's choices in it: log entry 42. -/
def Obligations.ProbesAndWatchdogs : Prop :=
  (∀ (s : State) (i j : SlotId) k (id : BitVec 16) x, s.groupOf s.core.ctl.gid = some x →
    (s.site (siteOf s.here)).triad.halted = false → k ≠ s.here → siteOf k = siteOf s.here →
    s.core.waiters = [i] → (s.coreAt k).waiters = [j] → (s.core.slot i).slept + 65536 ≤ s.clock.ticks →
    s.sourceCores (s.group x) (s.here, i) = [k] → s.sourceCores (s.group x) (k, j) = [s.here] →
    Completes (.deadlockProbe i id) s fun t => (t.core.slot i).st = .ready ∧ (t.core.slot i).pend.getLsbD 4 = true ∧
      ((t.coreAt k).slot j).st = .ready ∧ ((t.coreAt k).slot j).pend.getLsbD 4 = true ∧
      ((s.core.slot i).pend.getLsbD 4 = false → (t.core.slot i).pendVal[4] = 0x20000 ||| id.setWidth 64) ∧
      SameRegs s t ∧ SameStore s t ∧ t.pc = s.pc) ∧
  (∀ (s : State) (i : SlotId) id, s.clock.ticks < (s.core.slot i).slept + 65536 →
    Completes (.deadlockProbe i id) s fun t => t = s) ∧
  (∀ (s : State) (i : SlotId) x v, s.groupOf s.core.ctl.gid = some x → s.core.watchdogVal i = some v →
    (s.clock.ticks < (s.core.slot i).slept + (s.group x).limit ∨ (s.group x).limit = 0 →
      Completes (.watchdogExpiry i) s fun t => t = s) ∧
    ((s.core.slot i).slept + (s.group x).limit ≤ s.clock.ticks → (s.group x).limit ≠ 0 →
      Completes (.watchdogExpiry i) s fun t => (t.core.slot i).st = .ready ∧ (t.core.slot i).pend.getLsbD 3 = true ∧
        ((s.core.slot i).pend.getLsbD 3 = false → (t.core.slot i).pendVal[3] = v) ∧
        SameRegs s t ∧ SameStore s t ∧ t.pc = s.pc)) ∧
  (∀ (c : Core) i, (c.slot i).st = .sleep →
    (∀ n, (c.slot i).why = .seat n → c.watchdogVal i = some (n.setWidth 64)) ∧
    (∀ a q, (c.slot i).why = .flag a q → c.watchdogVal i = some a) ∧
    (∀ k n, (c.slot i).why = .counter k n → c.watchdogVal i = none) ∧ ((c.slot i).why = .sleep → c.watchdogVal i = none))

/-- R16, R355-R361, R367, R378: a scrub visit that is in order and finds nothing passes to the next line and changes no byte; one
that finds errors it can correct changes no byte either, fills the bucket by 1 for each and lists the line, or in a trimmed quad takes
one step of the trim; an error it cannot
correct leaves the poison code in its word, of bank SRAM in both words of the pair, is logged with the owner tag and fills the bucket
by 16, or where a trim is in force, or was lost in this tick, restores the nominal rail;
a revisit without a correction counts; the bucket leaks one step at a time and stays when it is full; an umpire's
interval moves it one column on, filled, its window closed; an output that differs in an open window closes it, is logged
with the interval and the output, and marks the core suspect, or where a trim is in force, or was lost to an error in this
tick, restores the nominal rail of both quads.
The model's choices in it: log entries 31 and 43. -/
def Obligations.ScrubbingAndUmpires : Prop :=
  (∀ (s : State) k line found, s.serving k = true → line = (s.part k).scrub →
    (line = 0 → (s.part k).scrubAt + 2 ^ 30 ≤ s.clock.ticks) →
    (found = [] → Completes (.scrubVisit k line found) s fun t => Still s t ∧ SamePartsBut s t k ∧ t.nodes = s.nodes ∧
      (t.part k).scrub = (if line + 1 < nodeSize k / 64 then line + 1 else 0) ∧
      (t.part k).bucket = (s.part k).bucket ∧ t.boat = s.boat) ∧
    (∀ ws : List Nat, found = ws.map (fun w => (w, .corrected)) → ws ≠ [] →
      (∀ w ∈ ws, w < 8 ∧ s.poisoned (nodeBase k + 64 * line + 8 * w) = false) →
      s.trimOf k = 0 → (s.part k).bucket + ws.length < 64 → Completes (.scrubVisit k line found) s fun t =>
        SameRegs s t ∧ SameStore s t ∧ SamePartsBut s t k ∧ (t.part k).bucket = (s.part k).bucket + ws.length ∧
        (t.part k).revisit.any (·.line == line) = true ∧ t.boat = s.boat) ∧
    (∀ w n, found = [(w, .corrected)] → w < 8 → s.poisoned (nodeBase k + 64 * line + 8 * w) = false →
      s.trimOf k = n + 1 → Completes (.scrubVisit k line found) s fun t =>
        SameRegs s t ∧ SameStore s t ∧ SamePartsBut s t k ∧ (t.part k).bucket = (s.part k).bucket ∧ t.boat = s.boat ∧
        t.quad (s.quadOf k) = { s.quad (s.quadOf k) with
          trim := n, freeze := s.clock.ticks + 2 ^ 30, errAt := s.clock.ticks }) ∧
    (∀ w, found = [(w, .uncorrectable)] → w < 8 → s.poisoned (nodeBase k + 64 * line + 8 * w) = false →
      let first := nodeBase k / 8 + 8 * line + w / 2 * 2
      Completes (.scrubVisit k line found) s fun t =>
        t.poisoned (nodeBase k + 64 * line + 8 * w) = true ∧
        (isCore k = true → ∀ b, b / 8 ≠ nodeBase k / 8 + 8 * line + w → t.poisoned b = s.poisoned b) ∧
        (isCore k = false → ∀ b, t.poisoned b = (decide (b / 8 = first ∨ b / 8 = first + 1) || s.poisoned b)) ∧
        t.mem = s.mem ∧ t.tags = s.tags ∧ SameRegs s t ∧
        (s.margin k = false → (s.part k).bucket + 16 < 64 → (t.part k).bucket = (s.part k).bucket + 16) ∧
        (s.margin k = true → (t.part k).bucket = (s.part k).bucket ∧ (t.quad (s.quadOf k)).trim = 0 ∧
          (t.quad (s.quadOf k)).freeze = s.clock.ticks + 2 ^ 34) ∧
        LogEntry.uncorrectable k line w (s.tag (nodeBase k + 64 * line)) ∈ t.boat.log) ∧
    (∀ v w, found = [(v, .corrected), (w, .uncorrectable)] → v < 8 → w < 8 → v ≠ w → isCore k = true → s.margin k = false →
      s.poisoned (nodeBase k + 64 * line + 8 * v) = false → s.poisoned (nodeBase k + 64 * line + 8 * w) = false →
      (s.part k).bucket + 17 < 64 → Completes (.scrubVisit k line found) s fun t =>
        t.poisoned (nodeBase k + 64 * line + 8 * w) = true ∧ t.poisoned (nodeBase k + 64 * line + 8 * v) = false ∧
        (t.part k).bucket = (s.part k).bucket + 17)) ∧
  (∀ (s : State) k line found, line ≠ (s.part k).scrub → Completes (.scrubVisit k line found) s fun t => t = s) ∧
  (∀ (s : State) k line r, (s.part k).revisit.find? (fun x => x.line == line) = some r → s.serving k = true →
    r.last + 2 ^ 26 ≤ s.clock.ticks → Completes (.revisit k line []) s fun t => Still s t ∧ SamePartsBut s t k ∧
      (r.clean < 63 → (t.part k).revisit.find? (fun x => x.line == line) = some ⟨line, r.clean + 1, s.clock.ticks⟩) ∧
      (63 ≤ r.clean → (t.part k).revisit.find? (fun x => x.line == line) = none)) ∧
  (∀ (s : State) k,
    (s.clock.ticks < (s.part k).leakAt + s.power.leak → Completes (.bucketLeak k) s fun t => t = s) ∧
    ((s.part k).leakAt + s.power.leak ≤ s.clock.ticks → Completes (.bucketLeak k) s fun t => Still s t ∧
      (t.part k).bucket = (if (s.part k).bucket = 64 then 64 else (s.part k).bucket - 1) ∧
      SamePartsBut s t k ∧ t.nodes = s.nodes)) ∧
  (∀ (s : State) u, u < 1600 → computeSite (u / 64) = true → (s.umpire u).col < 32 →
    (s.umpire u).since + 2 ^ s.power.interval * 10 / pointClock (s.quad (umpireQuad u)).point ≤ s.clock.ticks →
    Completes (.umpireInterval u none) s fun t => Still s t ∧
      t.umpire u = ⟨if (s.umpire u).col = 0 then 31 else (s.umpire u).col - 1, true, false, s.clock.ticks, 0⟩ ∧
      (∀ v, v ≠ u → t.umpire v = s.umpire v)) ∧
  (∀ (s : State) u i, (s.umpire u).isOpen = false ∨ (s.umpire u).outs ≤ i →
    Completes (.umpireInterval u (some i)) s fun t => t = s) ∧
  (∀ (s : State) u i k, u < 1600 → computeSite (u / 64) = true → (s.umpire u).col < 32 → (s.umpire u).isOpen = true →
    i < (s.umpire u).outs → s.coordOf (u / 16) (u % 16) (s.umpire u).col = some k →
    let closed (t : State) : Prop := SameRegs s t ∧ SameStore s t ∧ (t.umpire u).isOpen = false ∧
      (t.umpire u).col = (s.umpire u).col ∧ LogEntry.mismatch k (s.umpire u).since i ∈ t.boat.log
    let margin (q : Nat) : Prop := (s.quad q).trim ≠ 0 ∨ (s.quad q).freeze = s.clock.ticks + 2 ^ 34
    (¬ margin (s.quadOf k) → ¬ margin (umpireQuad u) → s.covered k = true →
      Completes (.umpireInterval u (some i)) s fun t => closed t ∧ (t.part k).suspect = true ∧
        SamePartsBut s t k ∧ t.nodes = s.nodes ∧ t.power.quads = s.power.quads) ∧
    (margin (s.quadOf k) ∨ margin (umpireQuad u) →
      Completes (.umpireInterval u (some i)) s fun t => closed t ∧ t.nodes = s.nodes ∧ t.sites = s.sites ∧
        (∀ q, q = s.quadOf k ∨ q = umpireQuad u → (t.quad q).trim = 0 ∧ (t.quad q).freeze = s.clock.ticks + 2 ^ 34) ∧
        (∀ q, q ≠ s.quadOf k → q ≠ umpireQuad u → t.quad q = s.quad q)))

/-- R14, R27, R28, R325, R362-R368, R373, R375: the operating point of a quad follows what is wanted of it, a faster one
waiting for the share of its tile and each but a cap for its interval; the thermal cap rises from 100 °C and falls below
95 °C by one step, a higher one in force at once, and at 115 °C
the site drains; a trim is raised only when nothing has erred; a lost phase is counted, a second one caps its quads, and a third and a
fourth leave them off, the groups with a shard or a seat of their lane there FAULTED; readings and time stamps are
kept. A region is measured to the sixteenth of a tick, VALID while it stands within 48 of them and logged when it does
not; counters exchanged with the link partner slew the panel by half the difference, and ALIGNED says that it is
within 40 ticks.
The model's choices in it: log entry 45. -/
def Obligations.QuadsAndAlignment : Prop :=
  ((∀ (s : State) q, isQuad q = true →
     (s.wanted q = (s.quad q).point → Completes (.operatingPointChange q) s fun t => t = s) ∧
     (s.wanted q < (s.quad q).point → s.power.exceeded.contains (q / 1024) = true →
       Completes (.operatingPointChange q) s fun t => t = s) ∧
     (s.wanted q ≠ (s.quad q).point → ((s.quad q).point < s.wanted q ∨ s.power.exceeded.contains (q / 1024) = false) →
       ((s.quad q).changed + 100000 ≤ s.clock.ticks ∨
         (s.quad q).point < s.wanted q ∧ s.wanted q = max (s.quad q).capR (s.quad q).capT) →
       Completes (.operatingPointChange q) s fun t => Still s t ∧ (t.quad q).point = s.wanted q ∧
         (t.quad q).trim ≤ trimRoom (s.wanted q) ∧ (∀ r, r ≠ q → t.quad r = s.quad r))) ∧
   (∀ (s : State) q temp, isQuad q = true → (s.quad q).capAt + 1000000 ≤ s.clock.ticks →
     (∀ n, (temp : BitVec 16).toInt < 460 → (n = if 400 ≤ temp.toInt then min 7 ((s.quad q).capT + 1)
         else if temp.toInt < 380 then (s.quad q).capT - 1 else (s.quad q).capT) →
       Completes (.thermalCapStep q temp) s fun t => Still s t ∧ (t.quad q).capT = n ∧ (t.quad q).temp = temp ∧
         ((s.quad q).capT < n → n ≤ (t.quad q).point) ∧ (∀ r, r ≠ q → t.quad r = s.quad r)) ∧
     (460 ≤ temp.toInt → (s.site (q / 1024)).st = .live → Completes (.thermalCapStep q temp) s fun t =>
       (t.site (q / 1024)).st = .draining ∧ LogEntry.trip q ∈ t.boat.log)) ∧
   (∀ (s : State) q, isQuad q = true → (s.quad q).trimAt + 2 ^ 20 ≤ s.clock.ticks →
     let r := s.quad q
     let may : Prop := r.errAt + 2 ^ 20 ≤ s.clock.ticks ∧ r.freeze ≤ s.clock.ticks ∧ r.slow = false ∧ r.trim < trimRoom r.point
     (may → Completes (.governorTrimRaise q) s fun t => Still s t ∧ (t.quad q).trim = r.trim + 1) ∧
     (¬ may → Completes (.governorTrimRaise q) s fun t => Still s t ∧ (t.quad q).trim = r.trim)) ∧
   (∀ (s : State) n g, n < 25 → computeSite n = true → g < 32 →
     (tget 0 (s.site n).phases g = 0 → Completes (.phaseLoss n g) s fun t => Still s t ∧ tget 0 (t.site n).phases g = 1 ∧
       (t.site n).replace = true ∧ (t.site n).st = (s.site n).st ∧ (∀ m, m ≠ n → t.site m = s.site m)) ∧
     (tget 0 (s.site n).phases g = 1 → Completes (.phaseLoss n g) s fun t => Still s t ∧ tget 0 (t.site n).phases g = 2 ∧
       (∀ x, x < 16 → let q := 256 * (4 * n + g / 8) + 16 * (g % 8) + x
         (t.quad q).capR = 3 ∧ 3 ≤ (t.quad q).point) ∧
       (t.quad (256 * (4 * n + g / 8) + 128 + g % 8)).capR = 3) ∧
     (tget 0 (s.site n).phases g = 2 → Completes (.phaseLoss n g) s fun t => SameRegs s t ∧ tget 0 (t.site n).phases g = 3 ∧
       (∀ k, groupNode n g k = true → t.powered k = false ∧ t.bound k = false) ∧
       (∀ i, i ∈ s.groupIds →
         ((s.group i).st = .seeding ∧ (s.group i).laneKeys.any (groupNode n g) = true) ∨
         (((s.group i).st = .loading ∨ (s.group i).st = .running ∨ (s.group i).st = .draining) ∧
           (s.group i).cores.any (groupNode n g) = true) → (t.group i).st = .faulted)) ∧
     (tget 0 (s.site n).phases g = 3 → Completes (.phaseLoss n g) s fun t => Still s t ∧ tget 0 (t.site n).phases g = 4 ∧
       ∀ k, groupNode n g k = true → t.powered k = false) ∧
     (4 ≤ tget 0 (s.site n).phases g → Completes (.phaseLoss n g) s fun t => t = s)) ∧
   (∀ s : State, s.powered s.here = false → s.tileUp = false) ∧
   (∀ (s : State) q temp vmv roc, isQuad q = true → (s.quad q).readAt + 1000000 ≤ s.clock.ticks →
     Completes (.monitorRead q temp vmv roc) s fun t => Still s t ∧ (t.quad q).temp = temp ∧ (t.quad q).vmv = vmv ∧
       (t.quad q).roc = roc ∧ (t.quad q).slow = decide (roc < Config.slowRoc) ∧
       (roc < Config.slowRoc → (t.quad q).trim = 0) ∧
       tget 0 t.boat.monitors q = (t.quad q).monitor) ∧
   (∀ (s : State) ns locked, s.boat.ptp = [] → Completes (.ptpTimestamp ns locked) s fun t => Still s t ∧
     t.boat.ptp = [(s.panelCount, ns)] ∧ t.boat.locked = locked)) ∧
  ((∀ (s : State) r phase, r < 100 → -8 ≤ phase → phase < 8 →
     let g := tget Region.reset s.clock.regions r
     let off : Int := 16 * g.lead + phase
     g.measAt + 2 ^ 20 ≤ s.clock.ticks → Completes (.alignmentRemeasure r phase) s fun t => Still s t ∧
       (tget Region.reset t.clock.regions r).offset = BitVec.ofInt 16 off ∧
       ((tget Region.reset t.clock.regions r).valid = true ↔ -48 ≤ off ∧ off ≤ 48) ∧
       (tget Region.reset t.clock.regions r).lead = g.lead ∧ t.clock.ticks = s.clock.ticks ∧
       ((off < -48 ∨ 48 < off) → LogEntry.region r ∈ t.boat.log)) ∧
   (∀ (s : State) b t1 t2 t3 t4, b < 12 → (s.link (1920 + b)).carries = true →
     (s.link (1920 + b)).exchAt + 2 ^ 20 ≤ s.clock.ticks →
     let d := exchangeOffset t1 t2 t3 t4
     (Completes (.counterExchange b t1 t2 t3 t4 true) s fun t => Still s t ∧ t.clock = s.clock ∧
       (t.link (1920 + b)).offset = (s.link (1920 + b)).offset) ∧
     (Completes (.counterExchange b t1 t2 t3 t4 false) s fun t => Still s t ∧
       (t.link (1920 + b)).offset = BitVec.ofInt 16 d ∧ t.clock.ticks = s.clock.ticks ∧
       (s.partner = some b → s.links.root = false →
         t.clock.aim = s.clock.slewed + d ∧ (t.clock.aligned = true ↔ -40 ≤ d ∧ d ≤ 40)) ∧
       (s.partner ≠ some b → t.clock = s.clock))))

/-- R268, R280, R292, R369-R372, R374: a power sample takes its tiles' powers, logs a miss below the ramp's floor,
throttles when a tile rises faster than the ramp allows and says which, writes `RAMPF` of the tiles whose triad can vote, with PADDLE
set below the floor and cleared 1 W above it,
and adds one telemetry record; the hundredth sample in a row above BUDGET is an emergency, in which the RUNNING group of highest class,
admitted last, drains while the estimates exceed BUDGET. A tile whose triad can vote creates a paddle context READY in the highest FREE
slot where PADDLE asks for it and its entry lies in TEXT, or is the standard one of a kernel without its own, and where PADDLE has
fallen or a cut is on it makes a READY one FREE, its owner tags released.
The model's choices in it: log entries 44, 61 and 75. -/
def Obligations.PowerSamples : Prop :=
  (∀ (s : State) tiles rest, s.leadUp = true →
    let n := BitVec.ofNat 32 (s.leadClock.toNat / 10000)
    let w := s.power
    let limit := s.limitNow
    let now (i : Nat) : Nat := ((tiles.find? (fun e : Nat × Nat => e.1 == i)).map (·.2)).getD 0
    let sites := (List.range 25).filter computeSite
    let p := sites.foldl (fun a i => a + now i) rest
    (n = w.sampleNo → Completes (.rampSample tiles rest) s fun t => t = s) ∧
    (n ≠ w.sampleNo → Completes (.rampSample tiles rest) s fun t =>
      t.power.sampleNo = n ∧ t.power.last = p ∧ (∀ i, i ∈ sites → tget 0 t.power.tiles i = now i) ∧
      (∀ i, i ∈ sites → tget 0 t.power.floors i = (if (s.site i).triad.mayVote
        then BitVec.ofNat 16 (rampFloor (tget 0 w.tiles i) w.last limit) else tget 0 w.floors i)) ∧
      (t.power.throttle = true ↔ ∃ i ∈ sites, (100 * w.last + 8 * limit) * tget 0 w.tiles i <
        100 * sites.foldl (fun a j => a + tget 0 w.tiles j) 0 * now i) ∧
      (∀ i, i ∈ t.power.exceeded ↔ i ∈ sites ∧ (100 * w.last + 8 * limit) * tget 0 w.tiles i <
        100 * sites.foldl (fun a j => a + tget 0 w.tiles j) 0 * now i) ∧
      (∀ i, i ∈ sites → (s.site i).triad.mayVote = true →
        let floor := rampFloor (tget 0 w.tiles i) w.last limit
        (now i < floor → ∀ k ∈ s.runningOn i, (t.coreAt k).ctl.paddle = true) ∧
        (floor + 8 ≤ now i → ∀ k, siteOf k = i → (t.coreAt k).ctl.paddle = false)) ∧
      (100 * p < 100 * w.last - 8 * limit → LogEntry.miss n ∈ t.boat.log) ∧
      t.power.above = (if s.lead.budget.toNat < p then (if w.above + 1 = 100 then 0 else w.above + 1) else 0) ∧
      (s.lead.budget.toNat < p → w.above + 1 = 100 → t.power.emerg = true ∧
        (s.steady ≤ s.lead.budget.toNat → t.lead.groups = s.lead.groups) ∧
        (∀ i, s.lead.budget.toNat < s.steady → s.drainNext = some i → (s.group i).st = .running → (t.group i).st = .draining)) ∧
      (p ≤ s.lead.budget.toNat → s.anyDraining = false → t.power.emerg = false) ∧
      (s.boat.telemetry.length < 65536 → t.boat.telemetry.length = s.boat.telemetry.length + 1) ∧
      (let tick := s.leadClock.toNat / 10000 * 10000
       let low := 100 * w.last - 8 * limit
       t.boat.telemetry.getLast? = some (ptpTime s.boat.ptp tick, BitVec.ofNat 64 tick,
         telemetryWord p ((low + 99) / 100) limit s.boat.locked t.power.throttle t.anyPaddle (decide (100 * p < low)) t.power.emerg,
         n.setWidth 64 <<< 32)) ∧
      SameRegs s t)) ∧
  rampFloor 1280 16000 180 = 1279 ∧
  (∀ (s : State) own i j, (s.site (siteOf s.here)).triad.mayVote = true → s.core.ctl.paddle = true → s.core.sh.cut = false →
    s.groupOf s.core.ctl.gid = some i → (s.group i).st = .running → (s.core.slots.toList.any (·.paddle)) = false →
    s.core.lastFree = some j →
    let kernel := (s.group i).image
    let v := (s.group i).var
    let block := nodeBase s.here + (kernel.sscr v + 1536 * j.setWidth 64).toNat % 65536
    let created (t : State) : Prop := (t.core.slot j).st = .ready ∧
      (t.core.slot j).paddle = true ∧ (t.core.slot j).level = 3 ∧ (t.core.slot j).qd = true ∧ SameRegs s t ∧ t.pc = s.pc ∧
      SameBytesBut s t block 1536
    (s.byHandle (s.group i).khandle.toNat = none → Completes (.paddleCreation own) s fun t => t = s) ∧
    (∀ k, s.byHandle (s.group i).khandle.toNat = some k →
      let symbol := (s.kern k).paddle.getD own
      (∀ e, symbol = some e → (kernel.inText v e = false → Completes (.paddleCreation own) s fun t => t = s) ∧
        (kernel.inText v e = true → Completes (.paddleCreation own) s fun t => created t ∧
          (t.kern k).paddle = some (some e) ∧ ∀ b, b < 2 → t.byte (block + 0x148 + b) = e.extractLsb' (8 * b) 8)) ∧
      (symbol = none → (kernel.standardSched v = false → Completes (.paddleCreation own) s fun t =>
          Still s t ∧ (t.kern k).paddle = some none) ∧
        (kernel.standardSched v = true → Completes (.paddleCreation own) s fun t => created t ∧
          (t.kern k).paddle = some none)))) ∧
  (∀ (s : State) own, (s.site (siteOf s.here)).triad.mayVote = false → Completes (.paddleCreation own) s fun t => t = s) ∧
  (∀ (s : State) own, (s.site (siteOf s.here)).triad.mayVote = true → s.core.ctl.paddle = false ∨ s.core.sh.cut = true →
    Completes (.paddleCreation own) s fun t =>
    (∀ j, (s.core.slot j).paddle = true → (s.core.slot j).st = .ready → (t.core.slot j).st = .free ∧
      ∀ o, o < 65536 → s.tag (nodeBase s.here + o) = j.setWidth 5 → t.tag (nodeBase s.here + o) = 0x10) ∧ SameRegs s t ∧
    t.mem = s.mem ∧ t.pois = s.pois ∧ t.pc = s.pc)

/-! ## Links, sites and triads -/

/-- R19, R22, R23, R312, R315, R320, R323, R329, R331, R343, R345: a flit that fails less than eight times is replayed and the link
stays as it is; after eight the slices that fail their test are shed, and with none left the link is DEAD; a DEGRADED
link takes back slices at a retest and a DEAD one at a retrain, each after its interval; a lane class is switched
once no packet or burst of it is in flight to the site or across it, in the order of the classes, lane 2 of a healed site at once
(step 2 of R343); with its last class a healed bank site is back in its groups, whose live cores take SITE; a reseed switches after
the site's own switches, its lane 2 at a group boundary, and a retrained link class by class after both;
the router of a physical place fails, a port trains, which serves while its site is LIVE, and the draw map is written anew with it;
a route is written by a host of domain 0 alone.
The model's choices in it: log entries 47, 52 and 61. -/
def Obligations.LinksAndRoutes : Prop :=
  (∀ (s : State) i fails good, i < 1932 → (s.link i).carries = true →
    let left := (s.link i).slices &&& good &&& allSlices i
    (fails < 8 → Completes (.linkReplay i fails good) s fun t => t = s) ∧
    (fails = 8 → left = 0 → Completes (.linkReplay i fails good) s fun t => Still s t ∧ (t.link i).st = .dead ∧
      (t.link i).slices = 0 ∧ t.net = s.net) ∧
    (fails = 8 → left ≠ 0 → left ≠ (s.link i).slices → Completes (.linkReplay i fails good) s fun t => Still s t ∧
      (t.link i).slices = left ∧ (t.link i).st = (if left = allSlices i then .up else .degraded) ∧ t.net = s.net) ∧
    (8 < fails → Completes (.linkReplay i fails good) s fun t => Still s t ∧ (t.link i).st = .dead)) ∧
  (∀ (s : State) i good, i < 1932 → (s.link i).st = .degraded →
    (s.clock.ticks < (s.link i).since + 2 ^ 20 → Completes (.sliceRetest i good) s fun t => t = s) ∧
    ((s.link i).since + 2 ^ 20 ≤ s.clock.ticks → Completes (.sliceRetest i good) s fun t => Still s t ∧
      (t.link i).slices = ((s.link i).slices ||| good) &&& allSlices i ∧
      ((t.link i).st = .up ↔ ((s.link i).slices ||| good) &&& allSlices i = allSlices i))) ∧
  (∀ (s : State) i good peer pport hops, i < 1932 → s.linkLive i = true → (s.link i).st = .dead →
    (s.clock.ticks < (s.link i).since + 2 ^ 24 → Completes (.linkRetrain i good peer pport hops) s fun t => t = s) ∧
    ((s.link i).since + 2 ^ 24 ≤ s.clock.ticks → Completes (.linkRetrain i good peer pport hops) s fun t => Still s t ∧
      (t.link i).retrain = min 255 ((s.link i).retrain + 1) ∧
      ((t.link i).st = .dead ↔ good &&& allSlices i = 0) ∧
      (good &&& allSlices i ≠ 0 → (t.link i).slices = good &&& allSlices i))) ∧
  (∀ (s : State) c n r, (s.site n).switches = c :: r →
    let heals : Prop := (s.site n).st = .live ∧ c = 2
    let back : Prop := r = [] ∧ (s.site n).st = .live ∧ computeSite n = false
    (s.onOldPath n c = true → ¬ heals → Completes (.routeSwitch c n) s fun t => t = s) ∧
    (s.onOldPath n c = false → ¬ heals → ¬ back → Completes (.routeSwitch c n) s fun t => Still s t ∧
      (t.site n).switches = r ∧ (∀ m, m ≠ n → t.site m = s.site m)) ∧
    (heals ∨ s.onOldPath n c = false → Completes (.routeSwitch c n) s fun t => SameRegs s t ∧ SameStore s t ∧
      (t.site n).switches = r ∧
      (back → ∀ i ∈ s.groupIds, (s.group i).st = .running → n ∈ (s.group i).healed →
        ∀ k ∈ (s.group i).cores, s.live k = true → ∀ j, ((s.coreAt k).slot j).st ≠ .free → ((s.coreAt k).slot j).paddle = false →
          ((t.coreAt k).slot j).pend.getLsbD 5 = true)) ∧
    (∀ d, d ≠ c → Completes (.routeSwitch d n) s fun t => t = s)) ∧
  (∀ (s : State) c n, s.onOldPath n c = true ↔ 
    (∃ p ∈ s.net, p.lane = c.toNat ∧ (siteOf p.dst = n ∨ crosses n p.entry p.dst = true)) ∨
    (c = 2 ∧ ∃ e ∈ s.bursts, ∃ j, e.2.dest.node = some j ∧ (siteOf j = n ∨ crosses n e.1 j = true))) ∧
  (∀ (s : State) c n r, (s.site n).switches = [] → (s.site n).reroutes = c :: r →
    (s.onOldPath n c = true ∨ (c = 2 ∧ s.atWork n = true) → Completes (.routeSwitch c n) s fun t => t = s) ∧
    (s.onOldPath n c = false → (c = 2 → s.atWork n = false) → Completes (.routeSwitch c n) s fun t => Still s t ∧
      (t.site n).reroutes = r ∧ (∀ m, m ≠ n → t.site m = s.site m)) ∧
    (∀ d, d ≠ c → Completes (.routeSwitch d n) s fun t => t = s)) ∧
  (∀ (s : State) c n, (s.site n).switches = [] → (s.site n).reroutes = [] →
    (s.turningLink n c = none → Completes (.routeSwitch c n) s fun t => t = s) ∧
    (∀ i, s.turningLink n c = some i →
      (s.onOldLink i c = true → Completes (.routeSwitch c n) s fun t => t = s) ∧
      (s.onOldLink i c = false → Completes (.routeSwitch c n) s fun t => Still s t ∧
        (t.link i).turn = (s.link i).turn.drop 1 ∧ (∀ j, j ≠ i → t.link j = s.link j) ∧ ∀ m, t.site m = s.site m))) ∧
  (∀ (s : State) (p : Place), p.site < 25 → p.row < 64 → p.col < 33 → Completes (.routerFailure p) s fun t => Still s t ∧
    (t.partAt p.site p.row p.col).failed = true ∧ t.nodes = s.nodes ∧
    ∀ n r c, c < 33 → ¬ (n = p.site ∧ r = p.row ∧ c = p.col) → t.partAt n r c = s.partAt n r c) ∧
  (∀ (s : State) p b, p < 24 → (s.cxl p).host = false →
    ((s.cxl p).attached ≠ b → Completes (.cxlLinkTrainingChange p b) s fun t => Still s t ∧ (t.cxl p).attached = b ∧
      (t.cxl p).trained = (b && s.siteLive (portSite p)) ∧ (∀ q, q ≠ p → t.cxl q = s.cxl q) ∧
      (s.siteLive (portSite p) = true → s.leadUp = true → (s.cxl p).trained ≠ b → t.lead.drawGen = s.lead.drawGen + 2) ∧
      (s.siteLive (portSite p) = false → t.lead.drawGen = s.lead.drawGen)) ∧
    ((s.cxl p).attached = b → Completes (.cxlLinkTrainingChange p b) s fun t => t = s)) ∧
  (∀ (s : State) d (sys : BitVec 10) (v : BitVec 16), s.windowOpen = true → s.leadUp = true →
    (d ≠ 0 → Completes (.panelRoutingWrite d sys v) s fun t => t.links = s.links ∧ Still s t) ∧
    (d = 0 → Completes (.panelRoutingWrite d sys v) s fun t => Still s t ∧
      tget 0 t.links.routing sys.toNat = (if 12 ≤ v.toNat % 16 then v &&& 0x000F else v &&& 0x800F) ∧
      (∀ j, j ≠ sys.toNat → tget 0 t.links.routing j = tget 0 s.links.routing j)))

/-- R333-R338, R340, R353, R354, R359, R376: the life of a site, each event in the states it names and no other, and the counting of
its entries to LIVE, the lowest admissible number first; a site that leaves LIVE takes its links DOWN and the VALID of its
offsets; groups with a live shard on a site that is lost, from LIVE or while it drains, go FAULTED; the cores of a tile that is powered down
or gone issue nothing, and those of one that starts anew are as at reset; a tile starts only where the boathouse controller runs, and comes
into service only where its identity is attested; another tile that makes contact brings its own retirement list and nothing of the former
one; a contact lost in the tick of the DRAINING deadline makes the site LOST.
The model's choices in it: log entries 31, 37, 65, 81 and 84. -/
def Obligations.SiteLifecycle : Prop :=
  let dark (st : SiteSt) (c : Core) : Core :=
    if st = .empty ∨ st = .safe ∨ st = .lost then { c with ctl := { c.ctl with issue := .off } } else c
  let enters (i : Instr) (s : State) (n : Nat) (st : SiteSt) (f : Nat → Core → Core) : Prop := Completes i s fun t => SameStore s t ∧
    t.here = s.here ∧ (∀ k, t.coreAt k = if siteOf k = n then f k (s.coreAt k) else s.coreAt k) ∧ (t.site n).st = st ∧
    (t.site n).epoch = (s.site n).epoch ∧ (t.site n).since = s.clock.ticks ∧
    (∀ m, m ≠ n → t.site m = s.site m) ∧ LogEntry.site n st ∈ t.boat.log
  let moves (i : Instr) (s : State) (n : Nat) (st : SiteSt) : Prop := enters i s n st fun _ => dark st
  let starts (i : Instr) (s : State) (n : Nat) : Prop :=
    enters i s n .training (fun k c => if computeSite n then Core.reset k else c) ∧
    Completes i s fun t => (t.site n).triad = Triad.reset ∧ (t.site n).faults = [] ∧ (t.site n).retired = (s.site n).retired ∧
      ((t.site n).measured.isSome = true ↔ s.boat.verifies s.boat.triad = true) ∧
      (∀ r, r / 4 = n → (tget Region.reset t.clock.regions r).valid = false)
  let stays (i : Instr) (s : State) : Prop := Completes i s fun t => t = s
  (∀ (s : State) n, n < 25 →
    ((s.site n).st = .empty → moves (.contactMade n none) s n .seated ∧
      (Completes (.contactMade n none) s fun t => (t.site n).contact = true)) ∧
    (∀ l, (s.site n).st = .empty ∨ ((s.site n).st = .lost ∧ (s.site n).contact = false) →
      let st : SiteSt := if (s.site n).st = .empty then .seated else .lost
      Completes (.contactMade n (some l)) s fun t => Still s t ∧
        t.site n = { Site.reset with
          st := st, epoch := (s.site n).epoch, contact := true,
          since := if st = .seated then s.clock.ticks else (s.site n).since,
          retired := l, switches := (s.site n).switches, reroutes := (s.site n).reroutes, replace := !l.isEmpty } ∧
        (∀ q, q / 1024 = n → tget Quad.reset t.power.quads q = Quad.reset) ∧ (∀ m, m ≠ n → t.site m = s.site m) ∧
        (l ≠ [] → LogEntry.replace n ∈ t.boat.log)) ∧
    (∀ l, (s.site n).st ≠ .empty → (s.site n).st ≠ .lost → stays (.contactMade n l) s) ∧
    ((s.site n).st = .seated → ∀ l, (s.booted = true → starts (.bringUpStart n l) s n) ∧
      (s.booted = false → stays (.bringUpStart n l) s)) ∧
    ((s.site n).st ≠ .seated → ∀ l, stays (.bringUpStart n l) s) ∧
    ((s.site n).st = .training →
      (s.clock.ticks < (s.site n).since + 2 ^ 34 → (s.site n).attested = true → moves (.trainingPass n) s n .fenced) ∧
      (s.clock.ticks < (s.site n).since + 2 ^ 34 → (s.site n).attested = false → moves (.trainingPass n) s n .safe ∧
        (Completes (.trainingPass n) s fun t => (t.site n).replace = true)) ∧
      ((s.site n).since + 2 ^ 34 ≤ s.clock.ticks → stays (.trainingPass n) s) ∧
      moves (.trainingFailure n) s n .safe ∧ (Completes (.trainingFailure n) s fun t => (t.site n).replace = true)) ∧
    ((s.site n).st ≠ .training → stays (.trainingPass n) s ∧ stays (.trainingFailure n) s) ∧
    ((s.site n).st = .safe → (s.site n).contact = true → s.booted = true → starts (.readmit n) s n) ∧
    ((s.site n).st ≠ .safe ∨ (s.site n).contact = false ∨ s.booted = false → stays (.readmit n) s) ∧
    ((s.site n).st = .seated ∨ (s.site n).st = .training ∨ (s.site n).st = .fenced ∨
        ((s.site n).st = .safe ∧ (s.site n).lapsed ≠ some s.clock.ticks) →
      moves (.contactLost n) s n .empty) ∧
    ((s.site n).st = .safe → (s.site n).lapsed = some s.clock.ticks → Completes (.contactLost n) s fun t =>
      (t.site n).st = .lost ∧ (t.site n).contact = false ∧ (t.site n).faults = [] ∧ SameRegs s t ∧
      (∀ i, (s.group i).st = .running ∨ (s.group i).st = .draining → s.shardOn i n = true → (t.group i).st = .faulted)) ∧
    ((s.site n).st = .empty ∨ (s.site n).st = .live ∨ (s.site n).st = .draining → stays (.contactLost n) s) ∧
    ((s.site n).st = .lost →
      (Completes (.contactLost n) s fun t => Still s t ∧ (t.site n).st = .lost ∧ (t.site n).contact = false ∧
        ∀ m, m ≠ n → t.site m = s.site m) ∧
      (Completes (.contactMade n none) s fun t => Still s t ∧ (t.site n).st = .lost ∧ (t.site n).contact = true ∧
        ∀ m, m ≠ n → t.site m = s.site m)) ∧
    ((s.site n).st = .lost → (s.site n).switches = [] → (∀ p ∈ s.net ++ s.queued, siteOf p.dst ≠ n) →
      (∀ e ∈ s.bursts, e.2.dest.site ≠ some n) →
      moves (.lostCleanupComplete n) s n (if (s.site n).contact then .safe else .empty)) ∧
    ((s.site n).st ≠ .lost ∨ (s.site n).switches ≠ [] → stays (.lostCleanupComplete n) s) ∧
    ((s.site n).st = .draining → s.drainOver? n = true → moves (.drainComplete n) s n .safe) ∧
    ((s.site n).st ≠ .draining ∨ s.drainOver? n = false → stays (.drainComplete n) s) ∧
    ((s.site n).st ≠ .draining ∨ s.clock.ticks < (s.site n).since + 2 ^ 30 → stays (.drainDeadline n) s) ∧
    ((s.site n).st = .draining → (s.site n).since + 2 ^ 30 ≤ s.clock.ticks → Completes (.drainDeadline n) s fun t =>
      (t.site n).st = .safe ∧ (t.site n).lapsed = some s.clock.ticks ∧ SameRegs s t ∧
      (∀ i, (s.group i).st = .running ∨ (s.group i).st = .draining → s.shardOn i n = true → (t.group i).st = .faulted)) ∧
    ((s.site n).st = .live → Completes (.drain n) s fun t => (t.site n).st = .draining ∧ (t.site n).epoch = (s.site n).epoch ∧
      (∀ i ∈ siteLinks n, (t.link i).st = .down) ∧ (∀ r, r / 4 = n → (tget Region.reset t.clock.regions r).valid = false) ∧
      SameRegs s t) ∧
    ((s.site n).st ≠ .live → stays (.drain n) s) ∧
    ((s.site n).st = .live → Completes (.surpriseRemoval n) s fun t => (t.site n).st = .lost ∧
      (t.site n).contact = (if s.cutOff n then (s.site n).contact else false) ∧ (∀ i ∈ siteLinks n, (t.link i).st = .down) ∧
      SameRegs s t ∧
      (∀ i, (s.group i).st = .running → s.shardOn i n = true → (t.group i).st = .faulted)) ∧
    ((s.site n).st = .draining → Completes (.surpriseRemoval n) s fun t => (t.site n).st = .lost ∧ SameRegs s t ∧
      (∀ i, (s.group i).st = .running ∨ (s.group i).st = .draining → s.shardOn i n = true → (t.group i).st = .faulted)) ∧
    ((s.site n).st ≠ .live → (s.site n).st ≠ .draining → stays (.surpriseRemoval n) s) ∧
    ((s.site n).st = .fenced → s.lead.lead = none → computeSite n = true → s.firstFenced n = true →
      Completes (.siteAdmission n) s fun t => (t.site n).st = .live ∧ t.lead.lead = some n) ∧
    ((s.site n).st = .fenced → s.lead.lead.isSome = true → s.leadUp = true → s.offsetsValid n = true →
      (∀ m, m < n → s.admissible m = false) → Completes (.siteAdmission n) s fun t => (t.site n).st = .live ∧ (t.site n).epoch = (s.site n).epoch + 1 ∧
        (∀ m, m ≠ n → (t.site m).st = (s.site m).st ∧ (t.site m).epoch = (s.site m).epoch)) ∧
    ((s.site n).st ≠ .fenced ∨ (s.lead.lead.isSome = true ∧ (s.offsetsValid n = false ∨ s.leadUp = false ∨
        ∃ m, m < n ∧ s.admissible m = true)) → stays (.siteAdmission n) s))

/-- R346-R348, R352-R354, R376, R377: the voter issues what two copies agree on and puts the third OUT when it differs, halts
when none agree or two differ, or one of two comes late; a copy that stays silent for 1024 ticks is OUT, and a REDUCED triad then halts; an
OUT copy reloads, and rejoins at a checkpoint whose digest it has, also beside a dissent of the other two (the sixth row of R354); the
deputy takes over after four heartbeats unseen, without moving any counter; bring-up seats and trains the sites named; keys are enrolled on
a signed request, 16 to a domain, and revoked; a quote holds the controller's firmware digest, the LIVE sites with their tiles' quotes and
the digest of the enrolled keys; the controller does all that where its firmware verifies.
The model's choices in it: log entries 22, 37, 61, 65 and 84. -/
def Obligations.TriadsAndLead : Prop :=
  let stays (i : Instr) (s : State) : Prop := Completes i s fun t => t = s
  let halts (i : Instr) (s : State) (n : Nat) : Prop :=
    ((s.site n).st ≠ .live → (s.site n).st ≠ .draining → Completes i s fun t =>
      Still s t ∧ (t.site n).triad.halted = true ∧ (t.site n).triad.txs = (s.site n).triad.txs ∧
        (t.site n).triad.copies = (s.site n).triad.copies ∧ LogEntry.halted n ∈ t.boat.log) ∧
    ((s.site n).st = .draining → Completes i s fun t => SameRegs s t ∧ (t.site n).triad.halted = true ∧ (t.site n).st = .draining) ∧
    ((s.site n).st = .live → Completes i s fun t => SameRegs s t ∧ (t.site n).triad.halted = true ∧ (t.site n).st = .draining)
  (∀ (s : State) n k x y (p : Presented), (s.site n).triad.halted = false →
    (s.site n).triad.copies.toList = [.voting, .voting, .voting] →
    (s.site n).triad.shown = [] → (s.site n).triad.silent = [] → (s.site n).triad.sent.toList = [k, k, k] →
    let d := (s.site n).triad.behind
    let issues (t : State) : Prop := Still s t ∧ (t.site n).triad.txs = (s.site n).triad.txs + 1 + d ∧
      (d = 0 → (t.site n).triad.last = x ∧ (t.site n).triad.lastAt = s.clock.ticks)
    ((∀ e, e < 3 → presentedBy p e = some x) → Completes (.votedTransaction n p) s fun t => issues t ∧
      (t.site n).triad.copies = (s.site n).triad.copies ∧ (t.site n).triad.silent = []) ∧
    (∀ c, c < 3 → (∀ e, e < 3 → presentedBy p e = if e = c then some y else some x) → x ≠ y →
      Completes (.votedTransaction n p) s fun t => issues t ∧ (t.site n).triad.copy c = .out ∧
        (∀ e, e < 3 → e ≠ c → (t.site n).triad.copy e = .voting) ∧ LogEntry.dissent n (BitVec.ofNat 2 c) ∈ t.boat.log) ∧
    (∀ c, c < 3 → (∀ e, e < 3 → presentedBy p e = if e = c then none else some x) →
      Completes (.votedTransaction n p) s fun t => issues t ∧
        (d = 0 → (t.site n).triad.silent = [⟨BitVec.ofNat 2 c, k, x, s.clock.ticks⟩])) ∧
    (∀ c, c < 3 → (∀ e, e < 3 → presentedBy p e = if e = c then some x else none) →
      Completes (.votedTransaction n p) s fun t => Still s t ∧
        (t.site n).triad.shown = [⟨BitVec.ofNat 2 c, k, x, s.clock.ticks⟩] ∧ (t.site n).triad.txs = (s.site n).triad.txs) ∧
    (∀ z, presentedBy p 0 = some x → presentedBy p 1 = some y → presentedBy p 2 = some z → x ≠ y → y ≠ z → x ≠ z →
      halts (.votedTransaction n p) s n)) ∧
  (∀ (s : State) n a b k x y (p : Presented), (s.site n).triad.halted = false → (s.site n).triad.votes = 2 → a ≠ b →
    (s.site n).triad.copy a = .voting → (s.site n).triad.copy b = .voting → (s.site n).triad.silent = [] →
    (s.site n).triad.shown = [] → (s.site n).triad.sentBy a = k → (s.site n).triad.sentBy b = k →
    presentedBy p a = some x → presentedBy p b = some y →
    (x = y → Completes (.votedTransaction n p) s fun t => Still s t ∧
      (t.site n).triad.txs = (s.site n).triad.txs + 1 + (s.site n).triad.behind ∧
      (t.site n).triad.copies = (s.site n).triad.copies) ∧
    (x ≠ y → halts (.votedTransaction n p) s n)) ∧
  (∀ (s : State) n a k x y since (p : Presented), (s.site n).triad.halted = false → (s.site n).triad.votes = 2 →
    (s.site n).triad.copy a = .voting → (s.site n).triad.silent = [⟨BitVec.ofNat 2 a, k, x, since⟩] →
    (s.site n).triad.sentBy a = k → (∀ e, e < 3 → presentedBy p e = if e = a then some y else none) →
    (y ≠ x ∨ since + 1024 < s.clock.ticks → halts (.votedTransaction n p) s n) ∧
    (y = x → s.clock.ticks ≤ since + 1024 → Completes (.votedTransaction n p) s fun t => Still s t ∧
      (t.site n).triad.halted = false ∧ (t.site n).triad.silent = [])) ∧
  (∀ (s : State) n q, (s.site n).triad.halted = false → (s.site n).triad.silent = [q] → (s.site n).triad.votes = 3 →
    (s.clock.ticks < q.tick + 1024 → stays (.silentCopyTimeout n) s) ∧
    (q.tick + 1024 ≤ s.clock.ticks → q.copy ≠ 3 → (s.site n).triad.shown = [] → Completes (.silentCopyTimeout n) s fun t =>
      Still s t ∧ (t.site n).triad.copy q.copy.toNat = .out ∧ (t.site n).triad.silent = [])) ∧
  (∀ (s : State) n, (s.site n).triad.halted = false → (s.site n).triad.votes = 2 →
    ((∃ q ∈ (s.site n).triad.silent ++ (s.site n).triad.shown, q.tick + 1024 ≤ s.clock.ticks) → halts (.silentCopyTimeout n) s n) ∧
    ((∀ q ∈ (s.site n).triad.silent ++ (s.site n).triad.shown, s.clock.ticks < q.tick + 1024) → stays (.silentCopyTimeout n) s)) ∧
  (∀ (s : State) n c, (s.site n).triad.halted = false →
    ((s.site n).triad.copy c.toNat = .out → Completes (.copyReset n c) s fun t => Still s t ∧
      (c ≠ 3 → (t.site n).triad.copy c.toNat = .reloading)) ∧
    ((s.site n).triad.copy c.toNat ≠ .out → stays (.copyReset n c) s)) ∧
  (∀ (s : State) n p rl, (s.site n).triad.halted = true ∨ s.clock.ticks < (s.site n).triad.checkAt + 2 ^ 20 →
    stays (.triadCheckpoint n p rl) s) ∧
  (∀ (s : State) n k dg rl (p : Presented), (s.site n).triad.halted = false → (s.site n).triad.checkAt + 2 ^ 20 ≤ s.clock.ticks →
    (s.site n).triad.shown = [] → (s.site n).triad.silent = [] →
    let commits (t : State) (d : Nat) : Prop := Still s t ∧ (t.site n).triad.digest = d ∧
      (t.site n).triad.checks = (s.site n).triad.checks + 1 ∧ (t.site n).triad.txs = (s.site n).triad.txs + 1
    ((s.site n).triad.copies.toList = [.voting, .voting, .voting] → (s.site n).triad.sent.toList = [k, k, k] →
      (∀ e, e < 3 → presentedBy p e = some dg) → Completes (.triadCheckpoint n p rl) s fun t => commits t dg ∧
        (t.site n).triad.copies = (s.site n).triad.copies) ∧
    (∀ a b c, a ≠ b → (s.site n).triad.copy a = .voting → (s.site n).triad.copy b = .voting →
      (s.site n).triad.copy c = .reloading → (s.site n).triad.sentBy a = k → (s.site n).triad.sentBy b = k →
      presentedBy p a = some dg →
      (presentedBy p b = some dg → Completes (.triadCheckpoint n p rl) s fun t => commits t dg ∧
        (t.site n).triad.copy a = .voting ∧ (t.site n).triad.copy b = .voting ∧
        (dg = rl → (t.site n).triad.copy c = .voting) ∧
        (dg ≠ rl → (t.site n).triad.copy c = .out ∨ (t.site n).triad.copy c = .retired)) ∧
      (presentedBy p b = some rl → dg ≠ rl → Completes (.triadCheckpoint n p rl) s fun t => commits t rl ∧
        (t.site n).triad.copy a = .out ∧ (t.site n).triad.copy b = .voting ∧ (t.site n).triad.copy c = .voting ∧
        LogEntry.dissent n (BitVec.ofNat 2 a) ∈ t.boat.log))) ∧
  (∀ (s : State) b, s.leadUp = true →
    (s.clock.ticks < s.lead.beatAt + 2 ^ 16 → Completes (.heartbeat b) s fun t => t = s) ∧
    (s.lead.beatAt + 2 ^ 16 ≤ s.clock.ticks → Completes (.heartbeat b) s fun t => Still s t ∧
      t.lead.unseen = (if b then 0 else s.lead.unseen + 1) ∧ t.lead.lead = s.lead.lead)) ∧
  (∀ (s : State) n, n < 25 → s.lead.lead.isSome = true → s.lead.deputy = some n →
    (4 ≤ s.lead.unseen → Completes .deputyTakeover s fun t => Still s t ∧ t.lead.lead = some n ∧ t.lead.unseen = 0 ∧
      t.lead.groups = s.lead.groups ∧ t.lead.queues = s.lead.queues ∧ t.lead.kernels = s.lead.kernels ∧
      (∀ r, r < 100 → t.regionCount r = s.regionCount r) ∧ (tget Region.reset t.clock.regions (4 * n)).lead = 0) ∧
    (s.lead.unseen < 4 → s.leadWorks = true → Completes .deputyTakeover s fun t => t = s)) ∧
  (∀ (s : State) b, s.lead.lead = none → (∀ n, n < 25 → (s.site n).st = .empty) →
    (s.booted = false → stays (.panelBringUp b) s) ∧
    (s.booted = true → Completes (.panelBringUp b) s fun t => SameStore s t ∧ t.here = s.here ∧
      t.links.sysnum = b.sysnum ∧ t.links.root = b.root ∧
      (∀ k, t.coreAt k = if siteOf k < 25 ∧ siteOf k ∈ b.seated ∧ isCore k = true then Core.reset k else s.coreAt k) ∧
      (∀ n, n < 25 → (t.site n).st = (if n ∈ b.seated then .training else .empty)) ∧
      (∀ p, p < 24 → (t.cxl p).host = b.hosts.any (fun e => e.1 == p)))) ∧
  (∀ (s : State) b, s.lead.lead.isSome = true → stays (.panelBringUp b) s) ∧
  (∀ (s : State) d m e k,
    let id := keyIdOf m e
    stays (.keyEnrolment d ⟨m, e⟩ false) s ∧ stays (.keyRevocation d k false) s ∧
    (s.booted = false → stays (.keyEnrolment d ⟨m, e⟩ true) s ∧ stays (.keyRevocation d k true) s) ∧
    (s.booted = true → s.boat.keys.countP (·.dom == d) < 16 → s.enrolled d id = false →
      Completes (.keyEnrolment d ⟨m, e⟩ true) s fun t => Still s t ∧ t.boat.keys = s.boat.keys ++ [⟨d, id, m, e⟩]) ∧
    (16 ≤ s.boat.keys.countP (·.dom == d) ∨ s.enrolled d id = true → stays (.keyEnrolment d ⟨m, e⟩ true) s) ∧
    (s.booted = true → Completes (.keyRevocation d k true) s fun t => Still s t ∧
      ∀ x, x ∈ t.boat.keys ↔ x ∈ s.boat.keys ∧ ¬ (x.dom = d ∧ x.keyid = k))) ∧
  (∀ (s : State) nonce,
    let own := s.boat.firmware.digest
    let keys := Config.keyListDigest (s.boat.keys.map fun k => (k.dom, k.keyid))
    (s.booted = false → stays (.quoteRequest nonce) s) ∧
    (s.booted = true → Completes (.quoteRequest nonce) s fun t => Still s t ∧ ∃ l,
      t.boat.log = s.boat.log ++ [.quote nonce own l keys (Config.panelSignature nonce own l keys)] ∧
      (∀ n q, (n, q) ∈ l ↔ n < 25 ∧ (s.site n).st = .live ∧ q = (s.site n).quote)))

/-! ## Kernels and queues -/

/-- R261, R264-R267, R270: a REGISTER request is answered with the first of the nine checks it fails, and a kernel that passes all is
REGISTERED under a new handle; RESIDE places two copies behind ports of different bank tiles, EVICT frees them unless
a group is admitted whose loading has not ended, RETIRE frees the entry unless a group of the kernel lives; both wait for an
admission pass that is due (R270, log entry 39); a stale handle gives STATE.
The model's choices in it: log entries 12, 39, 64 and 82. -/
def Obligations.KernelRequests : Prop :=
  (∀ (s : State) (i : BitVec 4), s.leadUp = true → s.posted = some i.toNat →
    let q := s.req i.toNat
    let b := s.hostBytes q.addr.toNat q.size.toNat
    let len := imageNat b 8 4
    let refuses (r : Reason) : Prop := Completes (.register i) s fun t => Answered s t i r ∧ t.lead.kernels = s.lead.kernels
    ((q.op = 0 ∨ 4 < q.op.toNat) → refuses .format) ∧
    (q.op = 1 → headerOk b q.size.toNat = false → refuses .format) ∧
    (q.op = 1 → headerOk b q.size.toNat = true → s.enrolled (BitVec.ofNat 16 (imageNat b 12 4)) (imageNat b 32 16) = false ∨
      BitVec.ofNat 16 (imageNat b 12 4) ≠ q.dom → refuses .key) ∧
    (q.op = 1 → headerOk b q.size.toNat = true → s.enrolled q.dom (imageNat b 32 16) = true →
      BitVec.ofNat 16 (imageNat b 12 4) = q.dom → ∀ x, s.signKey q.dom (imageNat b 32 16) = some x →
      rsaVerify x.n x.e (b.take len) (cutBytes b len 384) = false → refuses .signature) ∧
    (q.op = 1 → headerOk b q.size.toNat = true → BitVec.ofNat 16 (imageNat b 12 4) = q.dom →
      s.signed q.dom (imageNat b 32 16) (b.take len) (cutBytes b len 384) = true →
      (parseSects b len (imageNat b 6 2) 64 = none → refuses .format) ∧
      (∀ l, parseSects b len (imageNat b 6 2) 64 = some l →
        let m : Image := ⟨q.dom, imageNat b 32 16, l⟩
        let vs := m.variants
        ((∃ x ∈ l, x.ok = false) → refuses .format) ∧
        ((∀ x ∈ l, x.ok = true) →
          (vs = [] ∨ (∃ k ∈ vs, m.variantOk k = false) → refuses .variant) ∧
          (vs ≠ [] → (∀ k ∈ vs, m.variantOk k = true) →
            ((∃ k ∈ vs, m.layoutOk k = false) → refuses .overlap) ∧
            ((∀ k ∈ vs, m.layoutOk k = true) →
              ((∃ k ∈ vs, m.seatsOk k = false) → refuses .seat) ∧
              ((∀ k ∈ vs, m.seatsOk k = true) →
                ((∃ k ∈ vs, m.treesOk k = false) → refuses .tree) ∧
                ((∀ k ∈ vs, m.treesOk k = true) → s.freeKern = none → refuses .tableFull))))))) ∧
    (∀ m k, q.op = 1 → s.checkImage q = .ok (m, k) → Completes (.register i) s fun t => Answered s t i .ok ∧
      (t.kern k).st = .registered ∧ (t.kern k).gen = (s.kern k).gen ∧ (t.kern k).image = m ∧
      (t.kern k).digest = beNat (sha256 b) ∧ (t.req i.toNat).handle = (handleOf k (s.kern k).gen).setWidth 64 ∧
      (∀ j, j ≠ k → t.kern j = s.kern j))) ∧
  (∀ (s : State) (i : BitVec 4), s.leadUp = true → s.posted = some i.toNat →
    let h := (s.req i.toNat).handle.toNat
    let only (op : Instr) (r : Reason) (k : Nat) (e : Kern) : Prop := Completes op s fun t => Answered s t i r ∧
      t.kern k = e ∧ ∀ j, j ≠ k → t.kern j = s.kern j
    ((s.req i.toNat).op = 2 → s.byHandle h = none → only (.reside i) .state 0 (s.kern 0)) ∧
    ((s.req i.toNat).op = 3 → s.lead.passDue = false → s.byHandle h = none → only (.evict i) .state 0 (s.kern 0)) ∧
    ((s.req i.toNat).op = 4 → s.lead.passDue = false → s.byHandle h = none → only (.retire i) .state 0 (s.kern 0)) ∧
    (s.lead.passDue = true → (Completes (.evict i) s fun t => t = s) ∧ (Completes (.retire i) s fun t => t = s)) ∧
    (∀ k, s.byHandle h = some k → (s.req i.toNat).op = 2 →
      ((s.kern k).st = .resident → only (.reside i) .ok k (s.kern k)) ∧
      ((s.kern k).st = .registered → 0x4000000 < s.storeUsed + 2 * (s.kern k).size.toNat →
        only (.reside i) .tableFull k (s.kern k)) ∧
      ((s.kern k).st = .registered → s.storeUsed + 2 * (s.kern k).size.toNat ≤ 0x4000000 →
        (∃ x y, x < 24 ∧ y < 24 ∧ s.memoryPort x = true ∧ s.memoryPort y = true ∧ portSite x ≠ portSite y) →
        ∃ x y, x < 24 ∧ y < 24 ∧ s.memoryPort x = true ∧ s.memoryPort y = true ∧ portSite x ≠ portSite y ∧
          only (.reside i) .ok k { s.kern k with st := .resident, copies := [x, y] }) ∧
      ((s.kern k).st = .registered →
        (∀ x y, x < 24 → y < 24 → s.memoryPort x = true → s.memoryPort y = true → portSite x = portSite y) →
        only (.reside i) .tableFull k (s.kern k))) ∧
    (∀ k, s.byHandle h = some k → (s.req i.toNat).op = 3 → s.lead.passDue = false →
      ((s.kern k).st = .resident → s.loadingOf k = false →
        only (.evict i) .ok k { s.kern k with st := .registered, copies := [], owed := [] }) ∧
      ((s.kern k).st ≠ .resident ∨ s.loadingOf k = true → only (.evict i) .state k (s.kern k))) ∧
    (∀ k, s.byHandle h = some k → (s.req i.toNat).op = 4 → s.lead.passDue = false →
      (s.kernelGroup k (fun x => x != .retired && x != .unused) = false → Completes (.retire i) s fun t =>
        Answered s t i .ok ∧ (t.kern k).st = .retired ∧ (t.kern k).gen = (s.kern k).gen + 1 ∧
        ∀ j, j ≠ k → t.kern j = s.kern j) ∧
      (s.kernelGroup k (fun x => x != .retired && x != .unused) = true → only (.retire i) .state k (s.kern k))))

/-- R283-R285: a queue goes ACTIVE only with a ring of 2^4 to 2^12 entries at a base other than 0; the doorbell posts
entries of an ACTIVE queue; an entry is fetched once every earlier command has passed, and a malformed one completes
with FORMAT and leaves the queue in ERROR with HEAD at it; a stop without commands gives OFF, with commands STOPPING,
and a WAITSIG in progress completes with STOPPED; TAIL of a queue that is not ACTIVE stays (log entry 83).
The model's choices in it: log entries 39 and 83. -/
def Obligations.QueueStates : Prop :=
  (∀ (s : State) (q : BitVec 6) d, s.windowOpen = true → s.leadUp = true →
    let u := s.queue q.toNat
    let becomes (i : Instr) (v : Queue) : Prop := Completes i s fun t => Still s t ∧ t.queue q.toNat = v ∧
      ∀ j, j ≠ q.toNat → t.queue j = s.queue j
    (u.st = .off → 4 ≤ u.logn.toNat → u.logn.toNat ≤ 12 → u.base ≠ 0 →
      becomes (.queueActivate q d) { u with st := .active, head := 0, tail := 0 }) ∧
    (u.st = .off → u.logn.toNat < 4 ∨ 12 < u.logn.toNat ∨ u.base = 0 → becomes (.queueActivate q d) u) ∧
    (∀ tail, u.st = .active → tail.toNat < 2 ^ u.logn.toNat → becomes (.doorbell q d tail) { u with tail := tail }) ∧
    (∀ tail, u.st ≠ .active ∨ 2 ^ u.logn.toNat ≤ tail.toNat → becomes (.doorbell q d tail) u) ∧
    (u.st = .active ∨ u.st = .error → u.cmds = [] → becomes (.queueStop q d) { u with st := .off }) ∧
    (u.st = .active ∨ u.st = .error → u.cmds ≠ [] → u.cmds.find? Cmd.abandoned = none →
      becomes (.queueStop q d) { u with st := .stopping }) ∧
    (u.st = .off ∨ u.st = .stopping → becomes (.queueStop q d) u) ∧
    (∀ c, u.st = .active ∨ u.st = .error → u.cmds = [c] → c.op = 4 → c.passed = false →
      Completes (.queueStop q d) s fun t => CommandEnds s t q.toNat c 11 0 ∧ (t.queue q.toNat).st = .off)) ∧
  (∀ (s : State) (q : BitVec 6), s.leadUp = true →
    let u := s.queue q.toNat
    let e := s.ringAt q.toNat u.head.toNat
    (u.st ≠ .active ∨ u.head = u.tail ∨ (∃ c ∈ u.cmds, c.passed = false) → Completes (.commandFetch q) s fun t => t = s) ∧
    (u.st = .active → u.head ≠ u.tail → (∀ c ∈ u.cmds, c.passed = true) → e.ok = false →
      Completes (.commandFetch q) s fun t =>
        (t.queue q.toNat).st = .error ∧ (t.queue q.toNat).head = u.head ∧ (t.queue q.toNat).cmds = u.cmds ∧
        leNat ((List.range 4).map fun i => t.byte (hostBase + u.base.toNat + 64 * u.head.toNat + 4 + i)) = 0x80010000 ∧
        SameBytesBut s t (hostBase + u.base.toNat + 64 * u.head.toNat + 4) 4 ∧ t.core = s.core ∧ t.peers = s.peers) ∧
    (u.st = .active → u.head ≠ u.tail → (∀ c ∈ u.cmds, c.passed = true) → e.ok = true →
      Completes (.commandFetch q) s fun t => Still s t ∧ (t.queue q.toNat).st = .active ∧
        (t.queue q.toNat).head = BitVec.ofNat 16 ((u.head.toNat + 1) % 2 ^ u.logn.toNat) ∧
        ∃ c, (t.queue q.toNat).cmds = u.cmds ++ [c] ∧ c.idx = u.head.toNat ∧ c.op.toNat = e.op ∧ c.sub.toNat = e.sub ∧
          c.a0.toNat = e.a0 ∧ c.a1.toNat = e.a1 ∧ c.a2.toNat = e.a2 ∧ c.a3.toNat = e.a3 ∧ (c.passed = true ↔ e.op = 3)))

/-- R285, R287, R288, R292, R294, R369: a SIGNAL at the head of its queue's commands sets or adds to its signal and
completes, a lower queue's on the same signal first, and every WAITSIG on it that is now met passes at once; a WAITSIG
completes when the signal has reached its value, unsigned, and waits before; a FENCE completes
once it is alone; BUDGET and RAMP need domain 0; SUSPEND begins the cut of a RUNNING group or waits for the one that another
has begun, RESUME of a SUSPENDED group enters the bid list, and each passes with BUSY or DOMAIN otherwise.
The model's choices in it: log entry 39. -/
def Obligations.Commands : Prop :=
  (∀ (s : State) (q : BitVec 6) c, s.leadUp = true → (s.queue q.toNat).cmds.head? = some c → c.op = 3 →
    let n := c.a0.toNat % 4096
    let v := if c.sub = 0 then c.a1 else s.signal n + c.a1
    let i := if c.sub = 0 then Instr.signalSet q else .signalAdd q
    let word (t : State) : Prop := leNat ((List.range 4).map fun j =>
      t.byte (hostBase + (s.queue q.toNat).base.toNat + 64 * c.idx + 4 + j)) = cmplWord 0 0
    c.sub = 0 ∨ c.sub = 1 → (∀ o d, o < q.toNat → s.oldestSignal o = some d → d.a0.toNat % 4096 ≠ n) →
    (Completes i s fun t => t.signal n = v ∧ (∀ j, j ≠ n → t.signal j = s.signal j) ∧ word t ∧
      (∀ e ∈ (t.queue q.toNat).cmds, e.no ≠ c.no) ∧ SameRegs s t ∧
      (∀ o d, o < 64 → o ≠ q.toNat → (s.queue o).current = some d → d.op = 4 → d.a0.toNat % 4096 = n →
        (d.a1 ≤ v → ∀ e ∈ (t.queue o).cmds, e.no ≠ d.no) ∧ (v < d.a1 → (t.queue o).cmds = (s.queue o).cmds))) ∧
    ((∀ o d, o < 64 → (s.queue o).current = some d → d.op = 4 → d.a0.toNat % 4096 ≠ n) →
      Completes i s fun t => CommandEnds s t q.toNat c 0 0)) ∧
  (∀ (s : State) (q : BitVec 6) c o d, s.leadUp = true → s.oldestSignal q.toNat = some c → o < q.toNat →
    s.oldestSignal o = some d → d.a0.toNat % 4096 = c.a0.toNat % 4096 →
    (Completes (.signalSet q) s fun t => t = s) ∧ (Completes (.signalAdd q) s fun t => t = s)) ∧
  (∀ (s : State) (q : BitVec 6) c, s.leadUp = true → (s.queue q.toNat).cmds.getLast? = some c → c.passed = false →
    let ends (i : Instr) (st : Nat) : Prop := Completes i s fun t => CommandEnds s t q.toNat c st 0 ∧
      t.lead.signals = s.lead.signals ∧ t.lead.bids = s.lead.bids ∧ t.lead.groups = s.lead.groups ∧
      t.lead.budget = s.lead.budget ∧ t.power = s.power
    (c.op = 4 → c.a1.toNat ≤ (s.signal (c.a0.toNat % 4096)).toNat → ends (.waitsig q) 0) ∧
    (c.op = 4 → (s.signal (c.a0.toNat % 4096)).toNat < c.a1.toNat → Completes (.waitsig q) s fun t => t = s) ∧
    (c.op = 5 → (s.queue q.toNat).cmds = [c] → ends (.queueFence q) 0) ∧
    (c.op = 5 → (s.queue q.toNat).cmds ≠ [c] → Completes (.queueFence q) s fun t => t = s) ∧
    (c.op = 6 → c.sub = 0 → (s.queue q.toNat).dom ≠ 0 → ends (.powerBudget q) 10) ∧
    (c.op = 6 → c.sub = 1 → (s.queue q.toNat).dom ≠ 0 → ends (.powerRamp q) 10) ∧
    (c.op = 6 → c.sub = 0 → (s.queue q.toNat).dom = 0 →
      (c.a1.getLsbD 0 = false → Completes (.powerBudget q) s fun t => CommandEnds s t q.toNat c 0 0 ∧
        t.lead.budget = c.a0.extractLsb' 0 24 ∧ t.lead.groups = s.lead.groups ∧ t.power = s.power) ∧
      (c.a1.getLsbD 0 = true → Completes (.powerBudget q) s fun t => t.lead.budget = c.a0.extractLsb' 0 24 ∧
        t.power.emerg = true ∧ SameRegs s t)) ∧
    (c.op = 6 → c.sub = 1 → (s.queue q.toNat).dom = 0 → Completes (.powerRamp q) s fun t =>
      let l := c.a0.toNat % 4096
      CommandEnds s t q.toNat c 0 0 ∧ t.lead.budget = s.lead.budget ∧
      t.power.limit = (if l = 0 then 180 else if l < 18 then 18 else if 3600 < l then 3600 else l)) ∧
    (c.op = 6 → c.sub = 2 → c.bid = false →
      (s.groupOf (c.a0.extractLsb' 0 16) = none → ends (.powerSuspend q) 8) ∧
      (∀ g, s.groupOf (c.a0.extractLsb' 0 16) = some g →
        ((s.group g).dom ≠ (s.queue q.toNat).dom → ends (.powerSuspend q) 10) ∧
        ((s.group g).dom = (s.queue q.toNat).dom → (s.group g).st ≠ .running → ends (.powerSuspend q) 8) ∧
        (∀ l, (s.group g).dom = (s.queue q.toNat).dom → (s.group g).st = .running → (s.group g).cut = .suspend l →
          Completes (.powerSuspend q) s fun t => Still s t ∧ t.group g = { s.group g with cut := .suspend (l ++ [q.toNat]) } ∧
            ∀ j, j ≠ g → t.group j = s.group j) ∧
        ((s.group g).dom = (s.queue q.toNat).dom → (s.group g).st = .running → (s.group g).cut = .none →
          Completes (.powerSuspend q) s fun t => (t.group g).st = .running ∧ (t.group g).cut = .suspend [q.toNat] ∧
            (t.group g).cutTick = s.clock.ticks ∧
            (∀ k ∈ (s.group g).cores, (s.site (siteOf k)).triad.halted = false →
              (t.coreAt k).sh.cut = true ∧ (t.coreAt k).sh.cutTick = s.clock.ticks) ∧
            SameRegs s t ∧ t.mem = s.mem ∧ t.pois = s.pois))) ∧
    (c.op = 6 → c.sub = 3 → c.bid = false →
      (s.groupOf (c.a0.extractLsb' 0 16) = none → ends (.powerResume q) 8) ∧
      (∀ g, s.groupOf (c.a0.extractLsb' 0 16) = some g →
        ((s.group g).dom ≠ (s.queue q.toNat).dom → ends (.powerResume q) 10) ∧
        ((s.group g).dom = (s.queue q.toNat).dom → (s.group g).st ≠ .suspended → ends (.powerResume q) 8) ∧
        ((s.group g).dom = (s.queue q.toNat).dom → (s.group g).st = .suspended →
          Completes (.powerResume q) s fun t => Still s t ∧ t.lead.bids = s.lead.bids ++
            [⟨.resume g q.toNat, (s.group g).cls, (s.group g).age, (s.group g).queue, 0, none⟩]))))

/-- R269, R271, R285, R287, R289-R293, R295: a LAUNCH that fails a fixed check completes with its status, in the order
of the checks, and else enters the bid list; a pass admits a bid at its spot, which takes GID, lane and variant, and
leaves one without a spot waiting, bypassed once more where a lower one is admitted; a COPY between host addresses
moves its bytes, one of a wrong length or alignment completes with FORMAT or ADDR. A pass of the tick of a BUDGET command leaves one due
that takes the new budget. The entries of a LAUNCH's panel list are system numbers of 16 bits (log entry 20).
The model's choices in it: log entries 20 and 39. -/
def Obligations.LaunchesAndCopies : Prop :=
  (∀ (s : State) (q : BitVec 6) c, s.leadUp = true → (s.queue q.toNat).cmds.getLast? = some c → c.passed = false →
    c.op = 1 → c.bid = false →
    let ends (st : Nat) : Prop := Completes (.launch q) s fun t => CommandEnds s t q.toNat c st 0 ∧ t.lead.bids = s.lead.bids
    (s.panelsOk c = false → ends 1) ∧
    (s.panelsOk c = true → s.byHandle (c.a0.toNat % 2 ^ 32) = none → ends 2) ∧
    (∀ k, s.panelsOk c = true → s.byHandle (c.a0.toNat % 2 ^ 32) = some k →
      let m := (s.kern k).image
      let stale : Bool := m.sects.any fun t => t.ty == 10 && imageNat t.body 0 8 != s.lead.drawGen.toNat
      let rooted : Bool := m.anywhere fun v cx cy =>
        decide (cx + m.laneW v ≤ 40) && decide (cy + m.laneH v ≤ 40) && m.rootsFit v cx cy
      let fits : Bool := m.anywhere fun v cx cy => s.fitsAt m v cx cy
      (m.dom ≠ (s.queue q.toNat).dom → ends 10) ∧
      (m.dom = (s.queue q.toNat).dom → fits = false → ends 6) ∧
      (m.dom = (s.queue q.toNat).dom → fits = true → stale = true → ends 4) ∧
      (m.dom = (s.queue q.toNat).dom → fits = true → stale = false → rooted = false → ends 5) ∧
      (m.dom = (s.queue q.toNat).dom → fits = true → stale = false → rooted = true → Completes (.launch q) s fun t =>
        Still s t ∧ t.lead.bids = s.lead.bids ++ [⟨.launch q.toNat c.no, (s.queue q.toNat).cls.toNat, c.moved, q.toNat, 0, none⟩]))) ∧
  (∀ (s : State), s.leadUp = true → s.lead.bids = [] → Completes .admissionPass s fun t =>
    t = { s with lead := { s.lead with passDue := decide (s.budgetNow ≠ s.lead.budget) } }) ∧
  (∀ (s : State) b, s.leadUp = true → s.lead.bids = [b] → s.spot b = none → b.bypass < s.lead.bound.toNat →
    Completes .admissionPass s fun t => t = { s with lead := { s.lead with passDue := decide (s.budgetNow ≠ s.lead.budget) } }) ∧
  (∀ (s : State) q no n b c i cx cy v, s.leadUp = true → b.what = .launch q no → s.bidCmd q no = some c → s.freeGroup = some i →
    s.heldBack c = false → s.spot b = some (cx, cy, v) →
    let m := s.bidImage b
    let admitted (t : State) : Prop := Still s t ∧ (t.group i).st = .admitted ∧
      (t.group i).gid = (if 1 < c.npan then c.gidReq else s.nextGid s.lead.gids 65536) ∧ (t.group i).col0 = 8 * cx ∧
      (t.group i).row0 = 4 * cy ∧ (t.group i).w = m.laneW v ∧ (t.group i).h = m.laneH v ∧ (t.group i).var = v ∧
      (t.group i).rst = 0 ∧ (t.group i).ckpt = 0xFFFFFFFF ∧ (t.group i).image = m ∧ ∀ j, j ≠ i → t.group j = s.group j
    (s.lead.bids = [b] → Completes .admissionPass s fun t => admitted t ∧ t.lead.bids = []) ∧
    (∀ a, s.lead.bids = [a, b] → a.what = .relaunch n → n ≠ i → Bid.before b a = false → s.spot a = none →
      a.bypass + 1 < s.lead.bound.toNat →
      Completes .admissionPass s fun t => admitted t ∧ t.lead.bids = [{ a with bypass := a.bypass + 1 }])) ∧
  (∀ (s : State) (q : BitVec 6) c e, s.leadUp = true → (s.queue q.toNat).cmds.getLast? = some c → c.passed = false →
    c.op = 2 →
    let len := c.a2.toNat
    let a := hostBase + c.a0.toNat
    let b := hostBase + c.a1.toNat
    let w := hostBase + (s.queue q.toNat).base.toNat + 64 * c.idx + 4
    (len % 64 ≠ 0 ∨ len < 64 ∨ 2 ^ 30 < len → Completes (.copy q e) s fun t => CommandEnds s t q.toNat c 1 0) ∧
    (len % 64 = 0 → 64 ≤ len → len ≤ 2 ^ 30 → c.a0.toNat % 64 ≠ 0 ∨ c.a1.toNat % 64 ≠ 0 →
      Completes (.copy q e) s fun t => CommandEnds s t q.toNat c 7 0) ∧
    (len % 64 = 0 → 64 ≤ len → len ≤ 65536 → c.a0.toNat % 64 = 0 → c.a1.toNat % 64 = 0 → c.sub = 3 → c.wait = .none →
      c.moved = 0 →
      ((∀ i, i < len → s.poisoned (a + i) = false) → e = none → Completes (.copy q e) s fun t =>
        (t.queue q.toNat).cmds = (s.queue q.toNat).cmds.filter (·.no != c.no) ∧
        (∀ i, i < len → (b + i < w ∨ w + 4 ≤ b + i) → t.byte (b + i) = s.byte (a + i)) ∧
        (∀ x, (x < b ∨ b + len ≤ x) → (x < w ∨ w + 4 ≤ x) → t.byte x = s.byte x) ∧
        t.core = s.core ∧ t.peers = s.peers) ∧
      (s.poisoned a = true → Completes (.copy q e) s fun t => CommandEnds s t q.toNat c 7 0)))

/-! ## Pages, domains and the windows -/

/-- R303, R305, R307-R310, R345: MAP of a page writes its leaf, takes the page out of every tile TLB and completes; UNMAP
makes a leaf invalid; both leave a page in migration as it is; MIGRATE first writes MIG, then copies the page and writes the
leaf with the new address, or with the old one where the leaf's line can not be read; each waits while an access through the
old leaf is not complete, and completes with ADDR where it may not run. A MAP or MIGRATE settles the records of its page: RESOLVED, or
KIND PERM where a joined access needs more; an UNMAP makes them FAILED; a MAP comes after a fault of its own tick (log entry 78). A record
that has stayed PENDING for the fault limit FAILS, by a transaction of its tile's triad. A domain is created once, with a cleared root table, and writes its key slot when no domain names it.
The model's choices in it: log entries 26, 40, 61, 64 and 78. -/
def Obligations.PagesAndDomains : Prop :=
  (∀ (s : State) (q : BitVec 6) c, s.leadUp = true → (s.queue q.toNat).cmds.getLast? = some c → c.passed = false →
    c.op = 7 → s.domain (s.queue q.toNat).dom = none →
    (c.sub = 0 → Completes (.pageMap q) s fun t => CommandEnds s t q.toNat c 7 0) ∧
    (c.sub = 1 → Completes (.pageUnmap q) s fun t => CommandEnds s t q.toNat c 7 0) ∧
    (∀ e, c.sub = 2 → Completes (.pageMigrate q e) s fun t => CommandEnds s t q.toNat c 7 0)) ∧
  (∀ (s : State) (q : BitVec 6) c d, s.leadUp = true → (s.queue q.toNat).cmds.getLast? = some c → c.passed = false →
    c.op = 7 → s.domain (s.queue q.toNat).dom = some d →
    let va := c.a0.toNat % 2 ^ 57
    let n := pageBytes c.pageSize
    let w := hostBase + (s.queue q.toNat).base.toNat + 64 * c.idx + 4
    let ends (t : State) : Prop := (t.queue q.toNat).cmds = (s.queue q.toNat).cmds.filter (·.no != c.no) ∧
      leNat ((List.range 4).map fun i => t.byte (w + i)) = cmplWord 0 0
    let holds (t : State) (a : Nat) (e : BitVec 64) : Prop := ∀ j, j < 8 → t.byte (farKey a + j) = (leBytes 8 e.toNat).getD j 0
    let dropped (t : State) : Prop := ∀ m, ∀ e ∈ (t.site m).ttlb, e.dom = d.spec.dom →
      va + n ≤ e.vpn * 2 ^ e.size ∨ (e.vpn + 1) * 2 ^ e.size ≤ va
    let kept (t : State) : Prop := t.here = s.here ∧ t.core.regs = s.core.regs ∧ t.core.eng = s.core.eng
    let records (t : State) (f : FaultRec → FaultRec) : Prop := ∀ m i, m < 25 → (s.site m).triad.halted = false →
      let r := s.faultAt m i
      r.st ≠ .free → r.join ≠ [] →
        t.faultAt m i = if r.settles s.clock.ticks d.spec.dom va (va + n) then f r else r
    (c.sub = 0 → c.vaOk = false ∨ c.fpaOk d = false → Completes (.pageMap q) s fun t => CommandEnds s t q.toNat c 7 0) ∧
    (c.sub = 1 → c.vaOk = false → Completes (.pageUnmap q) s fun t => CommandEnds s t q.toNat c 7 0) ∧
    (∀ e, c.sub = 2 → c.moved = 0 → c.bid = false → c.vaOk = false ∨ c.fpaOk d = false →
      Completes (.pageMigrate q e) s fun t => CommandEnds s t q.toNat c 7 0) ∧
    (∀ a e, c.pages = 1 → c.vaOk = true → s.pageLeaf d va c.pageSize = some (.entry a e) → d.spec.dom = (s.queue q.toNat).dom →
      migrating e = false →
      (c.sub = 0 → c.fpaOk d = true → e.getLsbD 0 = true → s.accessIn (entryTarget e) n = true →
        Completes (.pageMap q) s fun t => t = s) ∧
      (c.sub = 0 → c.fpaOk d = true → s.faultedNow d.spec.dom c = true → Completes (.pageMap q) s fun t => t = s) ∧
      (c.sub = 0 → c.fpaOk d = true → e.getLsbD 0 = false ∨ s.accessIn (entryTarget e) n = false →
        s.faultedNow d.spec.dom c = false →
        Completes (.pageMap q) s fun t => ends t ∧ holds t a (leafEntry c.a1.toNat (c.a3.extractLsb' 0 3) false) ∧
          dropped t ∧ kept t ∧ records t (FaultRec.mapped (c.a3.extractLsb' 0 3)) ∧
          ∀ x, (x < farKey a ∨ farKey a + 8 ≤ x) → (x < w ∨ w + 4 ≤ x) → t.byte x = s.byte x) ∧
      (c.sub = 1 → e.getLsbD 0 = true → s.accessIn (entryTarget e) n = true → Completes (.pageUnmap q) s fun t => t = s) ∧
      (c.sub = 1 → e.getLsbD 0 = true → s.accessIn (entryTarget e) n = false →
        Completes (.pageUnmap q) s fun t => ends t ∧ holds t a 0 ∧ dropped t ∧ kept t ∧
          records t (FaultRec.fail s.clock.ticks false) ∧
          ∀ x, (x < farKey a ∨ farKey a + 8 ≤ x) → (x < w ∨ w + 4 ≤ x) → t.byte x = s.byte x) ∧
      (∀ err, c.sub = 2 → c.moved = 0 → c.leaf = none → c.fpaOk d = true → e.getLsbD 0 = true →
        s.accessIn (entryTarget e) n = true → Completes (.pageMigrate q err) s fun t => t = s) ∧
      (∀ err, c.sub = 2 → c.moved = 0 → c.leaf = none → c.fpaOk d = true → e.getLsbD 0 = true → c.bid = false →
        s.accessIn (entryTarget e) n = false → Completes (.pageMigrate q err) s fun t =>
          holds t a (leafEntry (entryTarget e) (e.extractLsb' 2 3) true) ∧ dropped t ∧ kept t ∧
          SameBytesBut s t (farKey a) 8)) ∧
    (∀ a e, c.pages = 1 → c.vaOk = true → s.pageLeaf d va c.pageSize = some (.entry a e) → d.spec.dom = (s.queue q.toNat).dom →
      (c.sub = 0 → c.fpaOk d = true → migrating e = true → s.faultedNow d.spec.dom c = false →
        Completes (.pageMap q) s fun t => CommandEnds s t q.toNat c 0 0) ∧
      (c.sub = 1 → migrating e = true → Completes (.pageUnmap q) s fun t => CommandEnds s t q.toNat c 0 0)) ∧
    (∀ a e, c.sub = 2 → c.pages = 1 → c.moved = 0 → c.bid = true → c.leaf = some (a, e) →
      let old := entryTarget e
      let stays : Prop := ∀ err, Completes (.pageMigrate q err) s fun t =>
        (t.queue q.toNat).cmds = (s.queue q.toNat).cmds.filter (·.no != c.no) ∧
        leNat ((List.range 4).map fun i => t.byte (w + i)) = cmplWord 7 0 ∧ kept t ∧
        (farKey a + 8 ≤ hostBase → holds t a (leafEntry old (e.extractLsb' 2 3) false) ∧
          ∀ x, (x < farKey a ∨ farKey a + 8 ≤ x) → (x < w ∨ w + 4 ≤ x) → t.byte x = s.byte x)
      (s.tableLine a = false → stays) ∧
      (s.tableLine a = true → s.served old = true → s.served c.a1.toNat = true → s.met = [] →
        (∀ x ∈ s.pois, x.1 < farKey old / 8 ∨ (farKey old + n) / 8 ≤ x.1) →
        Completes (.pageMigrate q none) s fun t => ends t ∧ holds t a (leafEntry c.a1.toNat (e.extractLsb' 2 3) false) ∧
          kept t ∧ records t (FaultRec.mapped (e.extractLsb' 2 3)) ∧
          (∀ i, i < n → (farKey c.a1.toNat + i < farKey a ∨ farKey a + 8 ≤ farKey c.a1.toNat + i) →
            (farKey c.a1.toNat + i < w ∨ w + 4 ≤ farKey c.a1.toNat + i) →
            t.byte (farKey c.a1.toNat + i) = s.byte (farKey old + i))))) ∧
  (∀ (s : State) n i,
    let r := s.faultAt n i
    (r.st ≠ .pending ∨ s.clock.ticks < r.since + 2 ^ s.pages.flim.toNat ∨ (s.site n).triad.mayVote = false →
      Completes (.faultLimit n i) s fun t => t = s) ∧
    (r.st = .pending → r.since + 2 ^ s.pages.flim.toNat ≤ s.clock.ticks → (s.site n).triad.mayVote = true →
      Completes (.faultLimit n i) s fun t => Still s t ∧ (t.site n).triad.txs = (s.site n).triad.txs + 1 ∧
        t.faultAt n i = (if r.join = [] then FaultRec.free
          else { r with st := .failed, ended := some (s.clock.ticks, true) }))) ∧
  (∀ (s : State) d,
    (s.domain d.dom = none → Completes (.domainCreation d) s fun t => t.domain d.dom = some ⟨d, d.pool⟩ ∧
      (∀ e, e ≠ d.dom → t.domain e = s.domain e) ∧ (∀ i, i < 4096 → t.byte (farKey d.root.toNat + i) = 0) ∧
      (∀ x, (x < farKey d.root.toNat ∨ farKey d.root.toNat + 4096 ≤ x) →
        (∀ g ∈ d.far, x < farKey (g.1 / 64 * 64) ∨ farKey (g.2 / 64 * 64 + 64) ≤ x) → t.byte x = s.byte x) ∧
      (d.key ≠ 0 → (s.pages.domains.all fun e => e.2.all fun o => o.spec.key != d.key) = true → t.keysOf d.key = d.keys) ∧
      (∀ k, k ≠ d.key → t.keysOf k = s.keysOf k) ∧ t.core = s.core ∧ t.peers = s.peers) ∧
    (∀ x, s.domain d.dom = some x → Completes (.domainCreation d) s fun t => t = s))

/-- R265, R282, R291, R303, R323, R330, R331, R341: a host writes the fields the window gives it, with the conditions
each states, and nothing else: a request slot is POSTED, of a POSTED one STATE alone is written, BASE is written while the
queue is OFF, B, at which an entry that has reached it reserves, and FLIM by domain 0
alone, the group table by nobody, and an access of another size changes nothing. In the HDM window a read of a live
granted node returns its bytes and poison, a write stores them; a write to a dead node is dropped, logged and reported to the host, one
without a grant dropped.
The model's choices in it: log entries 26 and 46. -/
def Obligations.HostWindows : Prop :=
  (∀ (s : State) (dom : BitVec 16) (o size : Nat) (v : BitVec 64), s.windowOpen = true → s.leadUp = true →
    let i := Instr.controlWindowWrite dom o size v
    let nothing : Prop := Completes i s fun t => Still s t ∧ t.lead = { s.lead with isOpen := true } ∧ t.pages = s.pages ∧
      t.links = s.links ∧ t.power = s.power
    ((size ≠ 4 ∧ size ≠ 8) ∨ o % size ≠ 0 ∨ 0x100000 < o + size → nothing) ∧
    (0x40000 ≤ o → o < 0x44000 → nothing) ∧ (0x60000 ≤ o → o < 0x68000 → nothing) ∧ (o = 0 → nothing) ∧
    (o = 0x70000 → size = 8 → (dom ≠ 0 ∨ v.toNat % 64 < 20 ∨ 40 < v.toNat % 64) → nothing) ∧
    (o = 0x70000 → size = 8 → dom = 0 → 20 ≤ v.toNat % 64 → v.toNat % 64 ≤ 40 → Completes i s fun t => Still s t ∧
      t.pages = { s.pages with flim := BitVec.ofNat 6 (v.toNat % 64) } ∧ t.lead = { s.lead with isOpen := true }) ∧
    (o = 0x50800 → size = 8 → dom ≠ 0 → nothing) ∧
    (o = 0x50800 → size = 8 → dom = 0 →
      let b := BitVec.ofNat 4 (v.toNat % 16)
      (s.lead.bids = [] → Completes i s fun t => Still s t ∧ t.lead = { s.lead with isOpen := true, bound := b }) ∧
      (∀ e r, s.lead.bids = [e] → e.resv = none → b.toNat ≤ e.bypass →
        ((s.reservedVariant e).bind fun x => (s.scan e x false).map fun (cx, cy) => (cx, cy, x)) = some r →
        Completes i s fun t => Still s t ∧ t.lead = { s.lead with isOpen := true, bound := b, bids := [{ e with resv := some r }] })) ∧
    (∀ k, k < 16 → o = 0x30000 + 64 * k → size = 8 → (s.req k).st = 0 → v.extractLsb' 8 8 = 1 →
      Completes i s fun t => Still s t ∧ t.req k = { s.req k with op := v.extractLsb' 0 8, st := 1, dom := dom } ∧
        ∀ j, j ≠ k → t.req j = s.req j) ∧
    (∀ k, k < 16 → o = 0x30000 + 64 * k → size = 8 → (s.req k).st = 1 →
      Completes i s fun t => Still s t ∧ t.req k = { s.req k with st := v.extractLsb' 8 8 } ∧
        ∀ j, j ≠ k → t.req j = s.req j) ∧
    (∀ k, k < 16 → o = 0x30000 + 64 * k + 8 → size = 8 →
      ((s.req k).st = 1 → Completes i s fun t => t.req k = s.req k) ∧
      ((s.req k).st ≠ 1 → Completes i s fun t => t.req k = { s.req k with handle := v })) ∧
    (∀ k, k < 64 → o = 0x50000 + 32 * k → size = 8 → Completes i s fun t => Still s t ∧
      t.queue k = (if (s.queue k).st = .off then { s.queue k with base := v &&& ~~~0x3F } else s.queue k) ∧
      ∀ j, j ≠ k → t.queue j = s.queue j)) ∧
  (∀ (s : State) dom o size v, s.windowOpen = false → Completes (.controlWindowWrite dom o size v) s fun t => t = s) ∧
  (∀ (s : State) p w size k off, p < 24 → (s.cxl p).host = true → (s.cxl p).trained = true →
    size = 1 ∨ size = 2 ∨ size = 4 ∨ size = 8 → w % size = 0 → s.hdmPlace w = some (k, off) →
    let a := nodeBase k + off
    let ok : Bool := s.live k && s.granted (s.cxl p).dom k
    (ok = true → Completes (.hdmWindowAccess p w size none) s fun t => Still s t ∧
      t.links.answer = some (BitVec.ofNat 64 (s.readNat a size), s.anyPoison a size)) ∧
    (ok = false → Completes (.hdmWindowAccess p w size none) s fun t => Still s t ∧
      ∃ x, t.links.answer = some (x, true)) ∧
    (∀ v, ok = true → Completes (.hdmWindowAccess p w size (some v)) s fun t =>
      leNat ((List.range size).map fun i => t.byte (a + i)) = v.toNat % 2 ^ (8 * size) ∧ SameBytesBut s t a size ∧ SameRegs s t) ∧
    (∀ v, s.live k = false → Completes (.hdmWindowAccess p w size (some v)) s fun t => Still s t ∧
      LogEntry.droppedWrite p w ∈ t.boat.log ∧ (p, w) ∈ t.links.reports) ∧
    (∀ v, s.live k = true → s.granted (s.cxl p).dom k = false →
      Completes (.hdmWindowAccess p w size (some v)) s fun t => t = s))

/-! ## Groups -/

/-- R48, R65, R77, R79, R273, R274, R279: placement of an admitted group begins SEEDING; one whose lane fits is loaded:
every core of the lane that is live to it holds its image, zeroed registers but g1, which holds the restart word, its identity, its seats
and its seed, all slots FREE, and no byte outside the lane changes; one whose lane no longer fits retires. The start
makes slot 0 READY and enters the scheduler at S with code 0, and the group runs. Both wait while a triad of the lane can put out no
transaction.
The model's choices in it: log entries 38, 61 and 63. -/
def Obligations.GroupPlacementAndStart : Prop :=
  (∀ (s : State) i, s.leadUp = true → (s.group i).st = .admitted →
    (s.holdsLane i = true → (s.group i).npan ≤ 1 ∨ (s.group i).peersIn = true → Completes (.placement i) s fun t =>
      Still s t ∧ t.group i = { s.group i with st := .seeding } ∧ ∀ j, j ≠ i → t.group j = s.group j) ∧
    (1 < (s.group i).npan → (s.group i).peersIn = false → Completes (.placement i) s fun t => t = s)) ∧
  (∀ (s : State) i, s.laneVotes (s.group i) = false →
    ((s.group i).st = .seeding → Completes (.placement i) s fun t => t = s) ∧ Completes (.groupStart i) s fun t => t = s) ∧
  (∀ (s : State) i, s.leadUp = true → s.laneVotes (s.group i) = true → (s.group i).st = .seeding → (s.group i).resume = false →
    (s.group i).col0 + 8 * (s.group i).w ≤ 320 → (s.group i).row0 + 4 * (s.group i).h ≤ 160 →
    (∀ k ∈ (s.group i).laneKeys, (s.part k).suspect = false) →
    (∀ e ∈ s.lead.groups, e.2.mapped = true → ∀ k ∈ (s.group i).laneKeys, e.2.inLane k = false) →
    let g := { s.group i with since := if (s.group i).rst = 0 then (s.group i).since else s.clock.ticks }
    let fits := s.fitsAt g.image g.var (g.col0 / 8) (g.row0 / 4)
    (fits = false → Completes (.placement i) s fun t => Still s t ∧ (t.group i).st = .retired) ∧
    (fits = true → s.imageStands g = true → Completes (.placement i) s fun t =>
      (t.group i).st = .loading ∧ (t.group i).cores = s.laneCores g ∧ (t.group i).gid = g.gid ∧
      (∀ k ∈ s.laneCores g,
        let c := t.coreAt k
        (∀ r : GR, bget c.regs.g r = ⟨if r = 1 then g.restartWord else 0, false⟩) ∧ c.regs.v = Vector.replicate 16 VReg.zero ∧
        c.regs.m = Vector.replicate 8 0 ∧ c.regs.fpcr = 0 ∧ c.regs.rigs = ⟨0, 0, false, false, 0, 0⟩ ∧ (∀ j, (c.slot j).st = .free) ∧ c.ctl.issue = .off ∧
        c.ctl.gid = g.gid ∧ c.ctl.dom = g.dom ∧ c.ctl.gx.toNat = keyX k - g.col0 ∧ c.ctl.gy.toNat = keyY k - g.row0 ∧
        c.ctl.col0.toNat = g.col0 ∧ c.ctl.row0.toNat = g.row0 ∧ c.ctl.kvec = g.image.kvec g.var ∧
        c.ctl.sscr = ⟨g.image.sscr g.var, false⟩ ∧ c.sh.seat = g.image.seatTable g.var ∧
        c.sh.lfsr = lfsrSeed g.gid (BitVec.ofNat 9 (keyX k)) (BitVec.ofNat 8 (keyY k)) ∧
        c.sh.stream = Vector.replicate 4 Stream.free ∧ c.sh.arr = Vector.replicate 8 0 ∧ c.sh.done = Vector.replicate 8 0 ∧
        (∀ o, o < 262144 → t.byte (nodeBase k + o) = tget 0 (g.image.cells g.var) o)) ∧
      (∀ a, a < farBase → g.inLane (a / 262144) = true → s.laneLive g (a / 262144) = true →
        t.poisoned a = false ∧ t.tag a = 0x10 ∧ (isCore (a / 262144) = false → t.byte a = 0)) ∧
      (∀ a, (farBase ≤ a ∨ g.inLane (a / 262144) = false) → t.byte a = s.byte a ∧ t.tag a = s.tag a))) ∧
  (∀ (s : State) i, s.leadUp = true → (s.group i).st ≠ .loading → Completes (.groupStart i) s fun t => t = s) ∧
  (∀ (s : State) i, s.leadUp = true → s.laneVotes (s.group i) = true → (s.group i).st = .loading → (s.group i).resume = false →
    Completes (.groupStart i) s fun t => (t.group i).st = .running ∧ (t.group i).started = s.clock.ticks ∧
      (∀ k ∈ (s.group i).cores,
        let c := t.coreAt k
        (c.slot 0).st = .ready ∧ (c.slot 0).level = BitVec.ofNat 2 ((s.group i).image.level (s.group i).var) ∧
        c.ctl.priv = .s ∧ c.ctl.issue = .run ∧ c.ctl.cause = 0 ∧ c.ctl.async = false ∧ c.ctl.tval = 0 ∧ c.ctl.slot = 0 ∧
        c.ctl.tpc = BitVec.ofNat 16 ((s.group i).image.entry (s.group i).var) ∧
        c.ctl.pc = (s.coreAt k).ctl.kvec.setWidth 16 <<< 12) ∧
      (∀ k, ¬ k ∈ (s.group i).cores → t.coreAt k = s.coreAt k) ∧ SameRegs s t ∧ SameStore s t) ∧
  (∀ (s : State) i (d : GR), s.leadUp = true → s.laneVotes (s.group i) = true → (s.group i).st = .loading → (s.group i).resume = true →
    (s.group i).cores = [s.here] → s.core.ctl.issue = .idle d ∨ s.core.ctl.issue = .restored d → Completes (.groupStart i) s fun t =>
      (t.group i).st = .running ∧ t.gv d = 0 ∧ t.gp d = false ∧ SameG s t [d] ∧ t.pc = s.pc + 4 ∧
      t.core.ctl.issue = .run ∧ t.core.slots = s.core.slots ∧ SameStore s t)

/-- R39, R77, R271, R273, R275-R277, R279, R287, R293, R294: a group whose slots are all FREE or RETIRED and whose
cores are quiet retires, its slots FREE and its LAUNCH complete; a completed cut retires a group that has ended, suspends it with its state
saved, or relaunches it with one more restart; at the deadline a suspension is given up with BUSY and a drain
relaunches; a FAULTED group relaunches once it is quiet or 2^20 ticks have passed, and after eight restarts retires
with FAULT. The cores of a tile whose triad is HALTED run until the boathouse controller stops them (R350). Groups of other panels admit
and fault it, from every state it can be in.
The model's choices in it: log entries 27, 38 and 62. -/
def Obligations.GroupEndsAndRelaunches : Prop :=
  let freed (s t : State) (l : List Nat) : Prop := ∀ k ∈ l, (s.site (siteOf k)).triad.halted = false → (∀ j, ((t.coreAt k).slot j).st = .free) ∧
    (t.coreAt k).ctl.issue = .off ∧ (t.coreAt k).sh.cut = false
  let launchEnds (s t : State) (i st : Nat) : Prop := ∀ c,
    (s.queue (s.group i).queue).cmds.find? (fun c => c.group == some i) = some c →
    leNat ((List.range 4).map fun j =>
        t.byte (hostBase + (s.queue (s.group i).queue).base.toNat + 64 * c.idx + 4 + j)) = cmplWord st (s.group i).gid ∧
      (t.queue (s.group i).queue).cmds = (s.queue (s.group i).queue).cmds.filter (·.no != c.no)
  let relaunched (s t : State) (i : Nat) : Prop := (t.group i).st = .admitted ∧
    (t.group i).rst = min 8 ((s.group i).rst + 1) ∧ (t.group i).gid = (s.group i).gid ∧ (t.group i).ckpt = (s.group i).ckpt ∧
    (t.group i).cut = .none ∧ freed s t (s.group i).cores ∧ t.lead.bids = s.lead.bids ++
      [⟨.relaunch i, (s.group i).cls, (s.group i).age, (s.group i).queue, 0, none⟩] ∧ SameRegs s t ∧ t.mem = s.mem
  let ended (s : State) (i : Nat) : Prop := (s.group i).begun = true ∧ s.treesQuiet (s.group i).gid = true ∧
    ∀ k ∈ (s.group i).cores, (s.coreAt k).quiet = true ∧
    ∀ j, ((s.coreAt k).slot j).paddle = true ∨ ((s.coreAt k).slot j).st = .free ∨ ((s.coreAt k).slot j).st = .retired
  (∀ (s : State) i, s.leadUp = true →
    ((s.group i).st = .running ∧ (s.group i).cut = .none ∨ (s.group i).st = .draining ∧ (s.group i).cut = .drain) → ended s i →
    Completes (.groupRetirement i) s fun t => (t.group i).st = .retired ∧ freed s t (s.group i).cores ∧
      launchEnds s t i 0 ∧ SameRegs s t) ∧
  (∀ (s : State) i, s.leadUp = true →
    ((s.group i).st ≠ .running ∧ ((s.group i).st ≠ .draining ∨ (s.group i).cut = .none)) ∨ ¬ ended s i →
    Completes (.groupRetirement i) s fun t => t = s) ∧
  (∀ (s : State) i, s.leadUp = true → s.cutDone i = true → (s.group i).cut ≠ .none → ended s i →
    Completes (.cutComplete i) s fun t => (t.group i).st = .retired ∧ freed s t (s.group i).cores) ∧
  (∀ (s : State) i, s.leadUp = true → s.cutDone i = true → ¬ ended s i →
    (∀ q c, (s.group i).cut = .suspend [q] → (s.queue q).cmds.getLast? = some c → c.passed = false →
      (∀ k ∈ (s.group i).cores, (s.coreAt k).sh.port = [] ∧ (s.coreAt k).sh.late = [] ∧ ∀ j, ((s.coreAt k).slot j).paddle = false) →
      Completes (.cutComplete i) s fun t => (t.group i).st = .suspended ∧ (t.group i).save = some (s.saveGroup (s.group i)) ∧
        freed s t (s.group i).cores ∧ (t.queue q).cmds = (s.queue q).cmds.filter (·.no != c.no) ∧
        leNat ((List.range 4).map fun j => t.byte (hostBase + (s.queue q).base.toNat + 64 * c.idx + 4 + j)) = cmplWord 0 0 ∧
        SameRegs s t) ∧
    ((s.group i).cut = .drain → Completes (.cutComplete i) s fun t => relaunched s t i)) ∧
  (∀ (s : State) i, s.leadUp = true → s.cutDone i = false →
    (Completes (.cutComplete i) s fun t => t = s) ∧
    (s.clock.ticks < (s.group i).cutTick + 2 ^ 26 → Completes (.cutDeadline i) s fun t => t = s) ∧
    ((s.group i).cutTick + 2 ^ 26 ≤ s.clock.ticks → (s.group i).cut ≠ .none → ended s i →
      Completes (.cutDeadline i) s fun t => (t.group i).st = .retired ∧ freed s t (s.group i).cores) ∧
    ((s.group i).cutTick + 2 ^ 26 ≤ s.clock.ticks → ¬ ended s i →
      ((s.group i).cut = .drain → Completes (.cutDeadline i) s fun t => relaunched s t i) ∧
      (∀ q c, (s.group i).cut = .suspend [q] → (s.queue q).cmds.getLast? = some c → c.passed = false →
        Completes (.cutDeadline i) s fun t => (t.group i).st = (s.group i).st ∧ (t.group i).cut = .none ∧
          (∀ k ∈ (s.group i).cores, (t.coreAt k).sh.cut = false) ∧ (t.queue q).cmds = (s.queue q).cmds.filter (·.no != c.no) ∧
          leNat ((List.range 4).map fun j => t.byte (hostBase + (s.queue q).base.toNat + 64 * c.idx + 4 + j)) = cmplWord 8 0 ∧
          SameRegs s t))) ∧
  (∀ (s : State) i, s.leadUp = true → (s.group i).st = .faulted →
    let idle : Prop := s.treesQuiet (s.group i).gid = true ∧ ∀ k ∈ (s.group i).cores, s.live k = true → (s.coreAt k).quiet = true
    (s.clock.ticks < (s.group i).faultAt + 2 ^ 20 → ¬ idle → Completes (.relaunch i) s fun t => t = s) ∧
    ((s.group i).faultAt + 2 ^ 20 ≤ s.clock.ticks ∨ idle → (s.group i).rst < 8 →
      Completes (.relaunch i) s fun t => relaunched s t i) ∧
    ((s.group i).faultAt + 2 ^ 20 ≤ s.clock.ticks ∨ idle → 8 ≤ (s.group i).rst → (s.group i).cut = .none →
      Completes (.relaunch i) s fun t => (t.group i).st = .retired ∧ freed s t (s.group i).cores ∧ launchEnds s t i 9 ∧
        SameRegs s t)) ∧
  (∀ (s : State) gid i, s.leadUp = true → s.groupOf gid = some i →
    ((s.group i).st = .admitted → s.holdsLane i = true → 1 < (s.group i).npan →
      Completes (.peerPanelAdmission gid) s fun t => Still s t ∧ (t.group i).st = .seeding ∧ (t.group i).peersIn = true) ∧
    ((s.group i).st = .running → Completes (.peerPanelGroupFault gid false) s fun t => (t.group i).st = .faulted ∧
      (t.group i).faultAt = s.clock.ticks ∧ (∀ k ∈ (s.group i).cores, (s.site (siteOf k)).triad.halted = false →
        (t.coreAt k).ctl.issue = .stopped ∧ ∀ j, ((t.coreAt k).slot j).st = .free ∨ ((t.coreAt k).slot j).st = .trapped) ∧ SameRegs s t) ∧
    ((s.group i).st = .running → (s.group i).cut = .none → Completes (.peerPanelGroupFault gid true) s fun t =>
      (t.group i).st = .draining ∧ (t.group i).cut = .drain ∧
      (∀ k ∈ (s.group i).cores, (s.site (siteOf k)).triad.halted = false → (t.coreAt k).sh.cut = true) ∧ SameRegs s t ∧ t.mem = s.mem ∧ t.pois = s.pois) ∧
    ((s.group i).st = .seeding ∨ (s.group i).st = .loading →
      (Completes (.peerPanelGroupFault gid true) s fun t => (t.group i).st = .draining ∧ (t.group i).cut = .drain ∧ SameRegs s t) ∧
      (Completes (.peerPanelGroupFault gid false) s fun t => (t.group i).st = .faulted ∧ SameRegs s t)) ∧
    ((s.group i).st = .admitted ∨ (s.group i).st = .suspended →
      (Completes (.peerPanelGroupFault gid false) s fun t => (t.group i).st = .faulted ∧ SameRegs s t) ∧
      (Completes (.peerPanelGroupFault gid true) s fun t => (t.group i).st = .draining ∧ (t.group i).cut = .drain ∧
        t.cutDone i = true ∧ SameRegs s t))) ∧
  (∀ (s : State) gid d, s.leadUp = true → s.groupOf gid = none →
    (Completes (.peerPanelAdmission gid) s fun t => t = s) ∧ (Completes (.peerPanelGroupFault gid d) s fun t => t = s))
end

