-- ==== Sys2Proof/Laws/State.lean ====
section
/-! SUPPORT. What each update of the state does to each field, by rfl. -/

namespace Sys2Proof.Machine


/-! onCtl -/

@[simp] theorem onCtl_here (s : State) (f : Ctl → Ctl) : (s.onCtl f).here = s.here := rfl
@[simp] theorem onCtl_peers (s : State) (f : Ctl → Ctl) : (s.onCtl f).peers = s.peers := rfl
@[simp] theorem onCtl_mem (s : State) (f : Ctl → Ctl) : (s.onCtl f).mem = s.mem := rfl
@[simp] theorem onCtl_pois (s : State) (f : Ctl → Ctl) : (s.onCtl f).pois = s.pois := rfl
@[simp] theorem onCtl_tags (s : State) (f : Ctl → Ctl) : (s.onCtl f).tags = s.tags := rfl
@[simp] theorem onCtl_nodes (s : State) (f : Ctl → Ctl) : (s.onCtl f).nodes = s.nodes := rfl
@[simp] theorem onCtl_net (s : State) (f : Ctl → Ctl) : (s.onCtl f).net = s.net := rfl
@[simp] theorem onCtl_out (s : State) (f : Ctl → Ctl) : (s.onCtl f).out = s.out := rfl
@[simp] theorem onCtl_clock (s : State) (f : Ctl → Ctl) : (s.onCtl f).clock = s.clock := rfl
@[simp] theorem onCtl_sites (s : State) (f : Ctl → Ctl) : (s.onCtl f).sites = s.sites := rfl
@[simp] theorem onCtl_power (s : State) (f : Ctl → Ctl) : (s.onCtl f).power = s.power := rfl
@[simp] theorem onCtl_lead (s : State) (f : Ctl → Ctl) : (s.onCtl f).lead = s.lead := rfl
@[simp] theorem onCtl_pages (s : State) (f : Ctl → Ctl) : (s.onCtl f).pages = s.pages := rfl
@[simp] theorem onCtl_links (s : State) (f : Ctl → Ctl) : (s.onCtl f).links = s.links := rfl
@[simp] theorem onCtl_boat (s : State) (f : Ctl → Ctl) : (s.onCtl f).boat = s.boat := rfl
@[simp] theorem onCtl_agenda (s : State) (f : Ctl → Ctl) : (s.onCtl f).agenda = s.agenda := rfl
@[simp] theorem onCtl_queued (s : State) (f : Ctl → Ctl) : (s.onCtl f).queued = s.queued := rfl
@[simp] theorem onCtl_met (s : State) (f : Ctl → Ctl) : (s.onCtl f).met = s.met := rfl
@[simp] theorem onCtl_draws (s : State) (f : Ctl → Ctl) : (s.onCtl f).draws = s.draws := rfl
@[simp] theorem onCtl_core_regs (s : State) (f : Ctl → Ctl) : (s.onCtl f).core.regs = s.core.regs := rfl
@[simp] theorem onCtl_core_ctl (s : State) (f : Ctl → Ctl) : (s.onCtl f).core.ctl = f s.core.ctl := rfl
@[simp] theorem onCtl_core_slots (s : State) (f : Ctl → Ctl) : (s.onCtl f).core.slots = s.core.slots := rfl
@[simp] theorem onCtl_core_eng (s : State) (f : Ctl → Ctl) : (s.onCtl f).core.eng = s.core.eng := rfl
@[simp] theorem onCtl_core_sh (s : State) (f : Ctl → Ctl) : (s.onCtl f).core.sh = s.core.sh := rfl

/-! onRegs -/

@[simp] theorem onRegs_here (s : State) (f : Regs → Regs) : (s.onRegs f).here = s.here := rfl
@[simp] theorem onRegs_peers (s : State) (f : Regs → Regs) : (s.onRegs f).peers = s.peers := rfl
@[simp] theorem onRegs_mem (s : State) (f : Regs → Regs) : (s.onRegs f).mem = s.mem := rfl
@[simp] theorem onRegs_pois (s : State) (f : Regs → Regs) : (s.onRegs f).pois = s.pois := rfl
@[simp] theorem onRegs_tags (s : State) (f : Regs → Regs) : (s.onRegs f).tags = s.tags := rfl
@[simp] theorem onRegs_nodes (s : State) (f : Regs → Regs) : (s.onRegs f).nodes = s.nodes := rfl
@[simp] theorem onRegs_net (s : State) (f : Regs → Regs) : (s.onRegs f).net = s.net := rfl
@[simp] theorem onRegs_out (s : State) (f : Regs → Regs) : (s.onRegs f).out = s.out := rfl
@[simp] theorem onRegs_clock (s : State) (f : Regs → Regs) : (s.onRegs f).clock = s.clock := rfl
@[simp] theorem onRegs_sites (s : State) (f : Regs → Regs) : (s.onRegs f).sites = s.sites := rfl
@[simp] theorem onRegs_power (s : State) (f : Regs → Regs) : (s.onRegs f).power = s.power := rfl
@[simp] theorem onRegs_lead (s : State) (f : Regs → Regs) : (s.onRegs f).lead = s.lead := rfl
@[simp] theorem onRegs_pages (s : State) (f : Regs → Regs) : (s.onRegs f).pages = s.pages := rfl
@[simp] theorem onRegs_links (s : State) (f : Regs → Regs) : (s.onRegs f).links = s.links := rfl
@[simp] theorem onRegs_boat (s : State) (f : Regs → Regs) : (s.onRegs f).boat = s.boat := rfl
@[simp] theorem onRegs_agenda (s : State) (f : Regs → Regs) : (s.onRegs f).agenda = s.agenda := rfl
@[simp] theorem onRegs_queued (s : State) (f : Regs → Regs) : (s.onRegs f).queued = s.queued := rfl
@[simp] theorem onRegs_met (s : State) (f : Regs → Regs) : (s.onRegs f).met = s.met := rfl
@[simp] theorem onRegs_draws (s : State) (f : Regs → Regs) : (s.onRegs f).draws = s.draws := rfl
@[simp] theorem onRegs_core_regs (s : State) (f : Regs → Regs) : (s.onRegs f).core.regs = f s.core.regs := rfl
@[simp] theorem onRegs_core_ctl (s : State) (f : Regs → Regs) : (s.onRegs f).core.ctl = s.core.ctl := rfl
@[simp] theorem onRegs_core_slots (s : State) (f : Regs → Regs) : (s.onRegs f).core.slots = s.core.slots := rfl
@[simp] theorem onRegs_core_eng (s : State) (f : Regs → Regs) : (s.onRegs f).core.eng = s.core.eng := rfl
@[simp] theorem onRegs_core_sh (s : State) (f : Regs → Regs) : (s.onRegs f).core.sh = s.core.sh := rfl

/-! onEng -/

@[simp] theorem onEng_here (s : State) (f : Engines → Engines) : (s.onEng f).here = s.here := rfl
@[simp] theorem onEng_peers (s : State) (f : Engines → Engines) : (s.onEng f).peers = s.peers := rfl
@[simp] theorem onEng_mem (s : State) (f : Engines → Engines) : (s.onEng f).mem = s.mem := rfl
@[simp] theorem onEng_pois (s : State) (f : Engines → Engines) : (s.onEng f).pois = s.pois := rfl
@[simp] theorem onEng_tags (s : State) (f : Engines → Engines) : (s.onEng f).tags = s.tags := rfl
@[simp] theorem onEng_nodes (s : State) (f : Engines → Engines) : (s.onEng f).nodes = s.nodes := rfl
@[simp] theorem onEng_net (s : State) (f : Engines → Engines) : (s.onEng f).net = s.net := rfl
@[simp] theorem onEng_out (s : State) (f : Engines → Engines) : (s.onEng f).out = s.out := rfl
@[simp] theorem onEng_clock (s : State) (f : Engines → Engines) : (s.onEng f).clock = s.clock := rfl
@[simp] theorem onEng_sites (s : State) (f : Engines → Engines) : (s.onEng f).sites = s.sites := rfl
@[simp] theorem onEng_power (s : State) (f : Engines → Engines) : (s.onEng f).power = s.power := rfl
@[simp] theorem onEng_lead (s : State) (f : Engines → Engines) : (s.onEng f).lead = s.lead := rfl
@[simp] theorem onEng_pages (s : State) (f : Engines → Engines) : (s.onEng f).pages = s.pages := rfl
@[simp] theorem onEng_links (s : State) (f : Engines → Engines) : (s.onEng f).links = s.links := rfl
@[simp] theorem onEng_boat (s : State) (f : Engines → Engines) : (s.onEng f).boat = s.boat := rfl
@[simp] theorem onEng_agenda (s : State) (f : Engines → Engines) : (s.onEng f).agenda = s.agenda := rfl
@[simp] theorem onEng_queued (s : State) (f : Engines → Engines) : (s.onEng f).queued = s.queued := rfl
@[simp] theorem onEng_met (s : State) (f : Engines → Engines) : (s.onEng f).met = s.met := rfl
@[simp] theorem onEng_draws (s : State) (f : Engines → Engines) : (s.onEng f).draws = s.draws := rfl
@[simp] theorem onEng_core_regs (s : State) (f : Engines → Engines) : (s.onEng f).core.regs = s.core.regs := rfl
@[simp] theorem onEng_core_ctl (s : State) (f : Engines → Engines) : (s.onEng f).core.ctl = s.core.ctl := rfl
@[simp] theorem onEng_core_slots (s : State) (f : Engines → Engines) : (s.onEng f).core.slots = s.core.slots := rfl
@[simp] theorem onEng_core_eng (s : State) (f : Engines → Engines) : (s.onEng f).core.eng = f s.core.eng := rfl
@[simp] theorem onEng_core_sh (s : State) (f : Engines → Engines) : (s.onEng f).core.sh = s.core.sh := rfl

/-! onSh -/

@[simp] theorem onSh_here (s : State) (f : Shared → Shared) : (s.onSh f).here = s.here := rfl
@[simp] theorem onSh_peers (s : State) (f : Shared → Shared) : (s.onSh f).peers = s.peers := rfl
@[simp] theorem onSh_mem (s : State) (f : Shared → Shared) : (s.onSh f).mem = s.mem := rfl
@[simp] theorem onSh_pois (s : State) (f : Shared → Shared) : (s.onSh f).pois = s.pois := rfl
@[simp] theorem onSh_tags (s : State) (f : Shared → Shared) : (s.onSh f).tags = s.tags := rfl
@[simp] theorem onSh_nodes (s : State) (f : Shared → Shared) : (s.onSh f).nodes = s.nodes := rfl
@[simp] theorem onSh_net (s : State) (f : Shared → Shared) : (s.onSh f).net = s.net := rfl
@[simp] theorem onSh_out (s : State) (f : Shared → Shared) : (s.onSh f).out = s.out := rfl
@[simp] theorem onSh_clock (s : State) (f : Shared → Shared) : (s.onSh f).clock = s.clock := rfl
@[simp] theorem onSh_sites (s : State) (f : Shared → Shared) : (s.onSh f).sites = s.sites := rfl
@[simp] theorem onSh_power (s : State) (f : Shared → Shared) : (s.onSh f).power = s.power := rfl
@[simp] theorem onSh_lead (s : State) (f : Shared → Shared) : (s.onSh f).lead = s.lead := rfl
@[simp] theorem onSh_pages (s : State) (f : Shared → Shared) : (s.onSh f).pages = s.pages := rfl
@[simp] theorem onSh_links (s : State) (f : Shared → Shared) : (s.onSh f).links = s.links := rfl
@[simp] theorem onSh_boat (s : State) (f : Shared → Shared) : (s.onSh f).boat = s.boat := rfl
@[simp] theorem onSh_agenda (s : State) (f : Shared → Shared) : (s.onSh f).agenda = s.agenda := rfl
@[simp] theorem onSh_queued (s : State) (f : Shared → Shared) : (s.onSh f).queued = s.queued := rfl
@[simp] theorem onSh_met (s : State) (f : Shared → Shared) : (s.onSh f).met = s.met := rfl
@[simp] theorem onSh_draws (s : State) (f : Shared → Shared) : (s.onSh f).draws = s.draws := rfl
@[simp] theorem onSh_core_regs (s : State) (f : Shared → Shared) : (s.onSh f).core.regs = s.core.regs := rfl
@[simp] theorem onSh_core_ctl (s : State) (f : Shared → Shared) : (s.onSh f).core.ctl = s.core.ctl := rfl
@[simp] theorem onSh_core_slots (s : State) (f : Shared → Shared) : (s.onSh f).core.slots = s.core.slots := rfl
@[simp] theorem onSh_core_eng (s : State) (f : Shared → Shared) : (s.onSh f).core.eng = s.core.eng := rfl
@[simp] theorem onSh_core_sh (s : State) (f : Shared → Shared) : (s.onSh f).core.sh = f s.core.sh := rfl

/-! setG -/

@[simp] theorem setG_here (s : State) (r : GR) (v : BitVec 64) (p : Bool) : (s.setG r v p).here = s.here := rfl
@[simp] theorem setG_peers (s : State) (r : GR) (v : BitVec 64) (p : Bool) : (s.setG r v p).peers = s.peers := rfl
@[simp] theorem setG_mem (s : State) (r : GR) (v : BitVec 64) (p : Bool) : (s.setG r v p).mem = s.mem := rfl
@[simp] theorem setG_pois (s : State) (r : GR) (v : BitVec 64) (p : Bool) : (s.setG r v p).pois = s.pois := rfl
@[simp] theorem setG_tags (s : State) (r : GR) (v : BitVec 64) (p : Bool) : (s.setG r v p).tags = s.tags := rfl
@[simp] theorem setG_nodes (s : State) (r : GR) (v : BitVec 64) (p : Bool) : (s.setG r v p).nodes = s.nodes := rfl
@[simp] theorem setG_net (s : State) (r : GR) (v : BitVec 64) (p : Bool) : (s.setG r v p).net = s.net := rfl
@[simp] theorem setG_out (s : State) (r : GR) (v : BitVec 64) (p : Bool) : (s.setG r v p).out = s.out := rfl
@[simp] theorem setG_clock (s : State) (r : GR) (v : BitVec 64) (p : Bool) : (s.setG r v p).clock = s.clock := rfl
@[simp] theorem setG_sites (s : State) (r : GR) (v : BitVec 64) (p : Bool) : (s.setG r v p).sites = s.sites := rfl
@[simp] theorem setG_power (s : State) (r : GR) (v : BitVec 64) (p : Bool) : (s.setG r v p).power = s.power := rfl
@[simp] theorem setG_lead (s : State) (r : GR) (v : BitVec 64) (p : Bool) : (s.setG r v p).lead = s.lead := rfl
@[simp] theorem setG_pages (s : State) (r : GR) (v : BitVec 64) (p : Bool) : (s.setG r v p).pages = s.pages := rfl
@[simp] theorem setG_links (s : State) (r : GR) (v : BitVec 64) (p : Bool) : (s.setG r v p).links = s.links := rfl
@[simp] theorem setG_boat (s : State) (r : GR) (v : BitVec 64) (p : Bool) : (s.setG r v p).boat = s.boat := rfl
@[simp] theorem setG_agenda (s : State) (r : GR) (v : BitVec 64) (p : Bool) : (s.setG r v p).agenda = s.agenda := rfl
@[simp] theorem setG_queued (s : State) (r : GR) (v : BitVec 64) (p : Bool) : (s.setG r v p).queued = s.queued := rfl
@[simp] theorem setG_met (s : State) (r : GR) (v : BitVec 64) (p : Bool) : (s.setG r v p).met = s.met := rfl
@[simp] theorem setG_draws (s : State) (r : GR) (v : BitVec 64) (p : Bool) : (s.setG r v p).draws = s.draws := rfl
@[simp] theorem setG_core_ctl (s : State) (r : GR) (v : BitVec 64) (p : Bool) : (s.setG r v p).core.ctl = s.core.ctl := rfl
@[simp] theorem setG_core_slots (s : State) (r : GR) (v : BitVec 64) (p : Bool) : (s.setG r v p).core.slots = s.core.slots := rfl
@[simp] theorem setG_core_eng (s : State) (r : GR) (v : BitVec 64) (p : Bool) : (s.setG r v p).core.eng = s.core.eng := rfl
@[simp] theorem setG_core_sh (s : State) (r : GR) (v : BitVec 64) (p : Bool) : (s.setG r v p).core.sh = s.core.sh := rfl

/-! setV -/

@[simp] theorem setV_here (s : State) (r : VR) (x : VReg) : (s.setV r x).here = s.here := rfl
@[simp] theorem setV_peers (s : State) (r : VR) (x : VReg) : (s.setV r x).peers = s.peers := rfl
@[simp] theorem setV_mem (s : State) (r : VR) (x : VReg) : (s.setV r x).mem = s.mem := rfl
@[simp] theorem setV_pois (s : State) (r : VR) (x : VReg) : (s.setV r x).pois = s.pois := rfl
@[simp] theorem setV_tags (s : State) (r : VR) (x : VReg) : (s.setV r x).tags = s.tags := rfl
@[simp] theorem setV_nodes (s : State) (r : VR) (x : VReg) : (s.setV r x).nodes = s.nodes := rfl
@[simp] theorem setV_net (s : State) (r : VR) (x : VReg) : (s.setV r x).net = s.net := rfl
@[simp] theorem setV_out (s : State) (r : VR) (x : VReg) : (s.setV r x).out = s.out := rfl
@[simp] theorem setV_clock (s : State) (r : VR) (x : VReg) : (s.setV r x).clock = s.clock := rfl
@[simp] theorem setV_sites (s : State) (r : VR) (x : VReg) : (s.setV r x).sites = s.sites := rfl
@[simp] theorem setV_power (s : State) (r : VR) (x : VReg) : (s.setV r x).power = s.power := rfl
@[simp] theorem setV_lead (s : State) (r : VR) (x : VReg) : (s.setV r x).lead = s.lead := rfl
@[simp] theorem setV_pages (s : State) (r : VR) (x : VReg) : (s.setV r x).pages = s.pages := rfl
@[simp] theorem setV_links (s : State) (r : VR) (x : VReg) : (s.setV r x).links = s.links := rfl
@[simp] theorem setV_boat (s : State) (r : VR) (x : VReg) : (s.setV r x).boat = s.boat := rfl
@[simp] theorem setV_agenda (s : State) (r : VR) (x : VReg) : (s.setV r x).agenda = s.agenda := rfl
@[simp] theorem setV_queued (s : State) (r : VR) (x : VReg) : (s.setV r x).queued = s.queued := rfl
@[simp] theorem setV_met (s : State) (r : VR) (x : VReg) : (s.setV r x).met = s.met := rfl
@[simp] theorem setV_draws (s : State) (r : VR) (x : VReg) : (s.setV r x).draws = s.draws := rfl
@[simp] theorem setV_core_ctl (s : State) (r : VR) (x : VReg) : (s.setV r x).core.ctl = s.core.ctl := rfl
@[simp] theorem setV_core_slots (s : State) (r : VR) (x : VReg) : (s.setV r x).core.slots = s.core.slots := rfl
@[simp] theorem setV_core_eng (s : State) (r : VR) (x : VReg) : (s.setV r x).core.eng = s.core.eng := rfl
@[simp] theorem setV_core_sh (s : State) (r : VR) (x : VReg) : (s.setV r x).core.sh = s.core.sh := rfl

/-! setM -/

@[simp] theorem setM_here (s : State) (r : MR) (x : BitVec 64) : (s.setM r x).here = s.here := rfl
@[simp] theorem setM_peers (s : State) (r : MR) (x : BitVec 64) : (s.setM r x).peers = s.peers := rfl
@[simp] theorem setM_mem (s : State) (r : MR) (x : BitVec 64) : (s.setM r x).mem = s.mem := rfl
@[simp] theorem setM_pois (s : State) (r : MR) (x : BitVec 64) : (s.setM r x).pois = s.pois := rfl
@[simp] theorem setM_tags (s : State) (r : MR) (x : BitVec 64) : (s.setM r x).tags = s.tags := rfl
@[simp] theorem setM_nodes (s : State) (r : MR) (x : BitVec 64) : (s.setM r x).nodes = s.nodes := rfl
@[simp] theorem setM_net (s : State) (r : MR) (x : BitVec 64) : (s.setM r x).net = s.net := rfl
@[simp] theorem setM_out (s : State) (r : MR) (x : BitVec 64) : (s.setM r x).out = s.out := rfl
@[simp] theorem setM_clock (s : State) (r : MR) (x : BitVec 64) : (s.setM r x).clock = s.clock := rfl
@[simp] theorem setM_sites (s : State) (r : MR) (x : BitVec 64) : (s.setM r x).sites = s.sites := rfl
@[simp] theorem setM_power (s : State) (r : MR) (x : BitVec 64) : (s.setM r x).power = s.power := rfl
@[simp] theorem setM_lead (s : State) (r : MR) (x : BitVec 64) : (s.setM r x).lead = s.lead := rfl
@[simp] theorem setM_pages (s : State) (r : MR) (x : BitVec 64) : (s.setM r x).pages = s.pages := rfl
@[simp] theorem setM_links (s : State) (r : MR) (x : BitVec 64) : (s.setM r x).links = s.links := rfl
@[simp] theorem setM_boat (s : State) (r : MR) (x : BitVec 64) : (s.setM r x).boat = s.boat := rfl
@[simp] theorem setM_agenda (s : State) (r : MR) (x : BitVec 64) : (s.setM r x).agenda = s.agenda := rfl
@[simp] theorem setM_queued (s : State) (r : MR) (x : BitVec 64) : (s.setM r x).queued = s.queued := rfl
@[simp] theorem setM_met (s : State) (r : MR) (x : BitVec 64) : (s.setM r x).met = s.met := rfl
@[simp] theorem setM_draws (s : State) (r : MR) (x : BitVec 64) : (s.setM r x).draws = s.draws := rfl
@[simp] theorem setM_core_ctl (s : State) (r : MR) (x : BitVec 64) : (s.setM r x).core.ctl = s.core.ctl := rfl
@[simp] theorem setM_core_slots (s : State) (r : MR) (x : BitVec 64) : (s.setM r x).core.slots = s.core.slots := rfl
@[simp] theorem setM_core_eng (s : State) (r : MR) (x : BitVec 64) : (s.setM r x).core.eng = s.core.eng := rfl
@[simp] theorem setM_core_sh (s : State) (r : MR) (x : BitVec 64) : (s.setM r x).core.sh = s.core.sh := rfl

/-! orFlags -/

@[simp] theorem orFlags_here (s : State) (f : BitVec 6) : (s.orFlags f).here = s.here := rfl
@[simp] theorem orFlags_peers (s : State) (f : BitVec 6) : (s.orFlags f).peers = s.peers := rfl
@[simp] theorem orFlags_mem (s : State) (f : BitVec 6) : (s.orFlags f).mem = s.mem := rfl
@[simp] theorem orFlags_pois (s : State) (f : BitVec 6) : (s.orFlags f).pois = s.pois := rfl
@[simp] theorem orFlags_tags (s : State) (f : BitVec 6) : (s.orFlags f).tags = s.tags := rfl
@[simp] theorem orFlags_nodes (s : State) (f : BitVec 6) : (s.orFlags f).nodes = s.nodes := rfl
@[simp] theorem orFlags_net (s : State) (f : BitVec 6) : (s.orFlags f).net = s.net := rfl
@[simp] theorem orFlags_out (s : State) (f : BitVec 6) : (s.orFlags f).out = s.out := rfl
@[simp] theorem orFlags_clock (s : State) (f : BitVec 6) : (s.orFlags f).clock = s.clock := rfl
@[simp] theorem orFlags_sites (s : State) (f : BitVec 6) : (s.orFlags f).sites = s.sites := rfl
@[simp] theorem orFlags_power (s : State) (f : BitVec 6) : (s.orFlags f).power = s.power := rfl
@[simp] theorem orFlags_lead (s : State) (f : BitVec 6) : (s.orFlags f).lead = s.lead := rfl
@[simp] theorem orFlags_pages (s : State) (f : BitVec 6) : (s.orFlags f).pages = s.pages := rfl
@[simp] theorem orFlags_links (s : State) (f : BitVec 6) : (s.orFlags f).links = s.links := rfl
@[simp] theorem orFlags_boat (s : State) (f : BitVec 6) : (s.orFlags f).boat = s.boat := rfl
@[simp] theorem orFlags_agenda (s : State) (f : BitVec 6) : (s.orFlags f).agenda = s.agenda := rfl
@[simp] theorem orFlags_queued (s : State) (f : BitVec 6) : (s.orFlags f).queued = s.queued := rfl
@[simp] theorem orFlags_met (s : State) (f : BitVec 6) : (s.orFlags f).met = s.met := rfl
@[simp] theorem orFlags_draws (s : State) (f : BitVec 6) : (s.orFlags f).draws = s.draws := rfl
@[simp] theorem orFlags_core_ctl (s : State) (f : BitVec 6) : (s.orFlags f).core.ctl = s.core.ctl := rfl
@[simp] theorem orFlags_core_slots (s : State) (f : BitVec 6) : (s.orFlags f).core.slots = s.core.slots := rfl
@[simp] theorem orFlags_core_eng (s : State) (f : BitVec 6) : (s.orFlags f).core.eng = s.core.eng := rfl
@[simp] theorem orFlags_core_sh (s : State) (f : BitVec 6) : (s.orFlags f).core.sh = s.core.sh := rfl

/-! count -/

@[simp] theorem count_here (s : State) (e : Nat) : (s.count e).here = s.here := rfl
@[simp] theorem count_peers (s : State) (e : Nat) : (s.count e).peers = s.peers := rfl
@[simp] theorem count_mem (s : State) (e : Nat) : (s.count e).mem = s.mem := rfl
@[simp] theorem count_pois (s : State) (e : Nat) : (s.count e).pois = s.pois := rfl
@[simp] theorem count_tags (s : State) (e : Nat) : (s.count e).tags = s.tags := rfl
@[simp] theorem count_nodes (s : State) (e : Nat) : (s.count e).nodes = s.nodes := rfl
@[simp] theorem count_net (s : State) (e : Nat) : (s.count e).net = s.net := rfl
@[simp] theorem count_out (s : State) (e : Nat) : (s.count e).out = s.out := rfl
@[simp] theorem count_clock (s : State) (e : Nat) : (s.count e).clock = s.clock := rfl
@[simp] theorem count_sites (s : State) (e : Nat) : (s.count e).sites = s.sites := rfl
@[simp] theorem count_power (s : State) (e : Nat) : (s.count e).power = s.power := rfl
@[simp] theorem count_lead (s : State) (e : Nat) : (s.count e).lead = s.lead := rfl
@[simp] theorem count_pages (s : State) (e : Nat) : (s.count e).pages = s.pages := rfl
@[simp] theorem count_links (s : State) (e : Nat) : (s.count e).links = s.links := rfl
@[simp] theorem count_boat (s : State) (e : Nat) : (s.count e).boat = s.boat := rfl
@[simp] theorem count_agenda (s : State) (e : Nat) : (s.count e).agenda = s.agenda := rfl
@[simp] theorem count_queued (s : State) (e : Nat) : (s.count e).queued = s.queued := rfl
@[simp] theorem count_met (s : State) (e : Nat) : (s.count e).met = s.met := rfl
@[simp] theorem count_draws (s : State) (e : Nat) : (s.count e).draws = s.draws := rfl
@[simp] theorem count_core_regs (s : State) (e : Nat) : (s.count e).core.regs = s.core.regs := rfl
@[simp] theorem count_core_slots (s : State) (e : Nat) : (s.count e).core.slots = s.core.slots := rfl
@[simp] theorem count_core_eng (s : State) (e : Nat) : (s.count e).core.eng = s.core.eng := rfl
@[simp] theorem count_core_sh (s : State) (e : Nat) : (s.count e).core.sh = s.core.sh := rfl

/-! commit -/

@[simp] theorem commit_here (s : State) (n : Nat) : (s.commit n).here = s.here := rfl
@[simp] theorem commit_peers (s : State) (n : Nat) : (s.commit n).peers = s.peers := rfl
@[simp] theorem commit_mem (s : State) (n : Nat) : (s.commit n).mem = s.mem := rfl
@[simp] theorem commit_pois (s : State) (n : Nat) : (s.commit n).pois = s.pois := rfl
@[simp] theorem commit_tags (s : State) (n : Nat) : (s.commit n).tags = s.tags := rfl
@[simp] theorem commit_nodes (s : State) (n : Nat) : (s.commit n).nodes = s.nodes := rfl
@[simp] theorem commit_net (s : State) (n : Nat) : (s.commit n).net = s.net := rfl
@[simp] theorem commit_out (s : State) (n : Nat) : (s.commit n).out = s.out := rfl
@[simp] theorem commit_clock (s : State) (n : Nat) : (s.commit n).clock = s.clock := rfl
@[simp] theorem commit_sites (s : State) (n : Nat) : (s.commit n).sites = s.sites := rfl
@[simp] theorem commit_power (s : State) (n : Nat) : (s.commit n).power = s.power := rfl
@[simp] theorem commit_lead (s : State) (n : Nat) : (s.commit n).lead = s.lead := rfl
@[simp] theorem commit_pages (s : State) (n : Nat) : (s.commit n).pages = s.pages := rfl
@[simp] theorem commit_links (s : State) (n : Nat) : (s.commit n).links = s.links := rfl
@[simp] theorem commit_boat (s : State) (n : Nat) : (s.commit n).boat = s.boat := rfl
@[simp] theorem commit_agenda (s : State) (n : Nat) : (s.commit n).agenda = s.agenda := rfl
@[simp] theorem commit_queued (s : State) (n : Nat) : (s.commit n).queued = s.queued := rfl
@[simp] theorem commit_met (s : State) (n : Nat) : (s.commit n).met = s.met := rfl
@[simp] theorem commit_draws (s : State) (n : Nat) : (s.commit n).draws = s.draws := rfl
@[simp] theorem commit_core_regs (s : State) (n : Nat) : (s.commit n).core.regs = s.core.regs := rfl
@[simp] theorem commit_core_slots (s : State) (n : Nat) : (s.commit n).core.slots = s.core.slots := rfl
@[simp] theorem commit_core_eng (s : State) (n : Nat) : (s.commit n).core.eng = s.core.eng := rfl
@[simp] theorem commit_core_sh (s : State) (n : Nat) : (s.commit n).core.sh = s.core.sh := rfl

/-! commitTo -/

@[simp] theorem commitTo_here (s : State) (a : BitVec 16) : (s.commitTo a).here = s.here := rfl
@[simp] theorem commitTo_peers (s : State) (a : BitVec 16) : (s.commitTo a).peers = s.peers := rfl
@[simp] theorem commitTo_mem (s : State) (a : BitVec 16) : (s.commitTo a).mem = s.mem := rfl
@[simp] theorem commitTo_pois (s : State) (a : BitVec 16) : (s.commitTo a).pois = s.pois := rfl
@[simp] theorem commitTo_tags (s : State) (a : BitVec 16) : (s.commitTo a).tags = s.tags := rfl
@[simp] theorem commitTo_nodes (s : State) (a : BitVec 16) : (s.commitTo a).nodes = s.nodes := rfl
@[simp] theorem commitTo_net (s : State) (a : BitVec 16) : (s.commitTo a).net = s.net := rfl
@[simp] theorem commitTo_out (s : State) (a : BitVec 16) : (s.commitTo a).out = s.out := rfl
@[simp] theorem commitTo_clock (s : State) (a : BitVec 16) : (s.commitTo a).clock = s.clock := rfl
@[simp] theorem commitTo_sites (s : State) (a : BitVec 16) : (s.commitTo a).sites = s.sites := rfl
@[simp] theorem commitTo_power (s : State) (a : BitVec 16) : (s.commitTo a).power = s.power := rfl
@[simp] theorem commitTo_lead (s : State) (a : BitVec 16) : (s.commitTo a).lead = s.lead := rfl
@[simp] theorem commitTo_pages (s : State) (a : BitVec 16) : (s.commitTo a).pages = s.pages := rfl
@[simp] theorem commitTo_links (s : State) (a : BitVec 16) : (s.commitTo a).links = s.links := rfl
@[simp] theorem commitTo_boat (s : State) (a : BitVec 16) : (s.commitTo a).boat = s.boat := rfl
@[simp] theorem commitTo_agenda (s : State) (a : BitVec 16) : (s.commitTo a).agenda = s.agenda := rfl
@[simp] theorem commitTo_queued (s : State) (a : BitVec 16) : (s.commitTo a).queued = s.queued := rfl
@[simp] theorem commitTo_met (s : State) (a : BitVec 16) : (s.commitTo a).met = s.met := rfl
@[simp] theorem commitTo_draws (s : State) (a : BitVec 16) : (s.commitTo a).draws = s.draws := rfl
@[simp] theorem commitTo_core_regs (s : State) (a : BitVec 16) : (s.commitTo a).core.regs = s.core.regs := rfl
@[simp] theorem commitTo_core_slots (s : State) (a : BitVec 16) : (s.commitTo a).core.slots = s.core.slots := rfl
@[simp] theorem commitTo_core_eng (s : State) (a : BitVec 16) : (s.commitTo a).core.eng = s.core.eng := rfl
@[simp] theorem commitTo_core_sh (s : State) (a : BitVec 16) : (s.commitTo a).core.sh = s.core.sh := rfl

/-! holdIssue -/

@[simp] theorem holdIssue_here (s : State) : (s.holdIssue).here = s.here := rfl
@[simp] theorem holdIssue_peers (s : State) : (s.holdIssue).peers = s.peers := rfl
@[simp] theorem holdIssue_mem (s : State) : (s.holdIssue).mem = s.mem := rfl
@[simp] theorem holdIssue_pois (s : State) : (s.holdIssue).pois = s.pois := rfl
@[simp] theorem holdIssue_tags (s : State) : (s.holdIssue).tags = s.tags := rfl
@[simp] theorem holdIssue_nodes (s : State) : (s.holdIssue).nodes = s.nodes := rfl
@[simp] theorem holdIssue_net (s : State) : (s.holdIssue).net = s.net := rfl
@[simp] theorem holdIssue_out (s : State) : (s.holdIssue).out = s.out := rfl
@[simp] theorem holdIssue_clock (s : State) : (s.holdIssue).clock = s.clock := rfl
@[simp] theorem holdIssue_sites (s : State) : (s.holdIssue).sites = s.sites := rfl
@[simp] theorem holdIssue_power (s : State) : (s.holdIssue).power = s.power := rfl
@[simp] theorem holdIssue_lead (s : State) : (s.holdIssue).lead = s.lead := rfl
@[simp] theorem holdIssue_pages (s : State) : (s.holdIssue).pages = s.pages := rfl
@[simp] theorem holdIssue_links (s : State) : (s.holdIssue).links = s.links := rfl
@[simp] theorem holdIssue_boat (s : State) : (s.holdIssue).boat = s.boat := rfl
@[simp] theorem holdIssue_agenda (s : State) : (s.holdIssue).agenda = s.agenda := rfl
@[simp] theorem holdIssue_queued (s : State) : (s.holdIssue).queued = s.queued := rfl
@[simp] theorem holdIssue_met (s : State) : (s.holdIssue).met = s.met := rfl
@[simp] theorem holdIssue_draws (s : State) : (s.holdIssue).draws = s.draws := rfl
@[simp] theorem holdIssue_core_regs (s : State) : (s.holdIssue).core.regs = s.core.regs := rfl
@[simp] theorem holdIssue_core_slots (s : State) : (s.holdIssue).core.slots = s.core.slots := rfl
@[simp] theorem holdIssue_core_eng (s : State) : (s.holdIssue).core.eng = s.core.eng := rfl
@[simp] theorem holdIssue_core_sh (s : State) : (s.holdIssue).core.sh = s.core.sh := rfl

/-! onSlot -/

@[simp] theorem onSlot_here (s : State) (f : Slot → Slot) : (s.onSlot f).here = s.here := rfl
@[simp] theorem onSlot_peers (s : State) (f : Slot → Slot) : (s.onSlot f).peers = s.peers := rfl
@[simp] theorem onSlot_mem (s : State) (f : Slot → Slot) : (s.onSlot f).mem = s.mem := rfl
@[simp] theorem onSlot_pois (s : State) (f : Slot → Slot) : (s.onSlot f).pois = s.pois := rfl
@[simp] theorem onSlot_tags (s : State) (f : Slot → Slot) : (s.onSlot f).tags = s.tags := rfl
@[simp] theorem onSlot_nodes (s : State) (f : Slot → Slot) : (s.onSlot f).nodes = s.nodes := rfl
@[simp] theorem onSlot_net (s : State) (f : Slot → Slot) : (s.onSlot f).net = s.net := rfl
@[simp] theorem onSlot_out (s : State) (f : Slot → Slot) : (s.onSlot f).out = s.out := rfl
@[simp] theorem onSlot_clock (s : State) (f : Slot → Slot) : (s.onSlot f).clock = s.clock := rfl
@[simp] theorem onSlot_sites (s : State) (f : Slot → Slot) : (s.onSlot f).sites = s.sites := rfl
@[simp] theorem onSlot_power (s : State) (f : Slot → Slot) : (s.onSlot f).power = s.power := rfl
@[simp] theorem onSlot_lead (s : State) (f : Slot → Slot) : (s.onSlot f).lead = s.lead := rfl
@[simp] theorem onSlot_pages (s : State) (f : Slot → Slot) : (s.onSlot f).pages = s.pages := rfl
@[simp] theorem onSlot_links (s : State) (f : Slot → Slot) : (s.onSlot f).links = s.links := rfl
@[simp] theorem onSlot_boat (s : State) (f : Slot → Slot) : (s.onSlot f).boat = s.boat := rfl
@[simp] theorem onSlot_agenda (s : State) (f : Slot → Slot) : (s.onSlot f).agenda = s.agenda := rfl
@[simp] theorem onSlot_queued (s : State) (f : Slot → Slot) : (s.onSlot f).queued = s.queued := rfl
@[simp] theorem onSlot_met (s : State) (f : Slot → Slot) : (s.onSlot f).met = s.met := rfl
@[simp] theorem onSlot_draws (s : State) (f : Slot → Slot) : (s.onSlot f).draws = s.draws := rfl
@[simp] theorem onSlot_core_regs (s : State) (f : Slot → Slot) : (s.onSlot f).core.regs = s.core.regs := rfl
@[simp] theorem onSlot_core_ctl (s : State) (f : Slot → Slot) : (s.onSlot f).core.ctl = s.core.ctl := rfl
@[simp] theorem onSlot_core_eng (s : State) (f : Slot → Slot) : (s.onSlot f).core.eng = s.core.eng := rfl
@[simp] theorem onSlot_core_sh (s : State) (f : Slot → Slot) : (s.onSlot f).core.sh = s.core.sh := rfl

/-! status -/

@[simp] theorem status_here (s : State) (d : GR) (v : BitVec 64) : (s.status d v).here = s.here := rfl
@[simp] theorem status_peers (s : State) (d : GR) (v : BitVec 64) : (s.status d v).peers = s.peers := rfl
@[simp] theorem status_mem (s : State) (d : GR) (v : BitVec 64) : (s.status d v).mem = s.mem := rfl
@[simp] theorem status_pois (s : State) (d : GR) (v : BitVec 64) : (s.status d v).pois = s.pois := rfl
@[simp] theorem status_tags (s : State) (d : GR) (v : BitVec 64) : (s.status d v).tags = s.tags := rfl
@[simp] theorem status_nodes (s : State) (d : GR) (v : BitVec 64) : (s.status d v).nodes = s.nodes := rfl
@[simp] theorem status_net (s : State) (d : GR) (v : BitVec 64) : (s.status d v).net = s.net := rfl
@[simp] theorem status_out (s : State) (d : GR) (v : BitVec 64) : (s.status d v).out = s.out := rfl
@[simp] theorem status_clock (s : State) (d : GR) (v : BitVec 64) : (s.status d v).clock = s.clock := rfl
@[simp] theorem status_sites (s : State) (d : GR) (v : BitVec 64) : (s.status d v).sites = s.sites := rfl
@[simp] theorem status_power (s : State) (d : GR) (v : BitVec 64) : (s.status d v).power = s.power := rfl
@[simp] theorem status_lead (s : State) (d : GR) (v : BitVec 64) : (s.status d v).lead = s.lead := rfl
@[simp] theorem status_pages (s : State) (d : GR) (v : BitVec 64) : (s.status d v).pages = s.pages := rfl
@[simp] theorem status_links (s : State) (d : GR) (v : BitVec 64) : (s.status d v).links = s.links := rfl
@[simp] theorem status_boat (s : State) (d : GR) (v : BitVec 64) : (s.status d v).boat = s.boat := rfl
@[simp] theorem status_agenda (s : State) (d : GR) (v : BitVec 64) : (s.status d v).agenda = s.agenda := rfl
@[simp] theorem status_queued (s : State) (d : GR) (v : BitVec 64) : (s.status d v).queued = s.queued := rfl
@[simp] theorem status_met (s : State) (d : GR) (v : BitVec 64) : (s.status d v).met = s.met := rfl
@[simp] theorem status_draws (s : State) (d : GR) (v : BitVec 64) : (s.status d v).draws = s.draws := rfl
@[simp] theorem status_core_ctl (s : State) (d : GR) (v : BitVec 64) : (s.status d v).core.ctl = s.core.ctl := rfl
@[simp] theorem status_core_slots (s : State) (d : GR) (v : BitVec 64) : (s.status d v).core.slots = s.core.slots := rfl
@[simp] theorem status_core_eng (s : State) (d : GR) (v : BitVec 64) : (s.status d v).core.eng = s.core.eng := rfl
@[simp] theorem status_core_sh (s : State) (d : GR) (v : BitVec 64) : (s.status d v).core.sh = s.core.sh := rfl

/-! takeCount -/

@[simp] theorem takeCount_here (s : State) (w : WC) (n : BitVec 16) : (s.takeCount w n).here = s.here := rfl
@[simp] theorem takeCount_peers (s : State) (w : WC) (n : BitVec 16) : (s.takeCount w n).peers = s.peers := rfl
@[simp] theorem takeCount_mem (s : State) (w : WC) (n : BitVec 16) : (s.takeCount w n).mem = s.mem := rfl
@[simp] theorem takeCount_pois (s : State) (w : WC) (n : BitVec 16) : (s.takeCount w n).pois = s.pois := rfl
@[simp] theorem takeCount_tags (s : State) (w : WC) (n : BitVec 16) : (s.takeCount w n).tags = s.tags := rfl
@[simp] theorem takeCount_nodes (s : State) (w : WC) (n : BitVec 16) : (s.takeCount w n).nodes = s.nodes := rfl
@[simp] theorem takeCount_net (s : State) (w : WC) (n : BitVec 16) : (s.takeCount w n).net = s.net := rfl
@[simp] theorem takeCount_out (s : State) (w : WC) (n : BitVec 16) : (s.takeCount w n).out = s.out := rfl
@[simp] theorem takeCount_clock (s : State) (w : WC) (n : BitVec 16) : (s.takeCount w n).clock = s.clock := rfl
@[simp] theorem takeCount_sites (s : State) (w : WC) (n : BitVec 16) : (s.takeCount w n).sites = s.sites := rfl
@[simp] theorem takeCount_power (s : State) (w : WC) (n : BitVec 16) : (s.takeCount w n).power = s.power := rfl
@[simp] theorem takeCount_lead (s : State) (w : WC) (n : BitVec 16) : (s.takeCount w n).lead = s.lead := rfl
@[simp] theorem takeCount_pages (s : State) (w : WC) (n : BitVec 16) : (s.takeCount w n).pages = s.pages := rfl
@[simp] theorem takeCount_links (s : State) (w : WC) (n : BitVec 16) : (s.takeCount w n).links = s.links := rfl
@[simp] theorem takeCount_boat (s : State) (w : WC) (n : BitVec 16) : (s.takeCount w n).boat = s.boat := rfl
@[simp] theorem takeCount_agenda (s : State) (w : WC) (n : BitVec 16) : (s.takeCount w n).agenda = s.agenda := rfl
@[simp] theorem takeCount_queued (s : State) (w : WC) (n : BitVec 16) : (s.takeCount w n).queued = s.queued := rfl
@[simp] theorem takeCount_met (s : State) (w : WC) (n : BitVec 16) : (s.takeCount w n).met = s.met := rfl
@[simp] theorem takeCount_draws (s : State) (w : WC) (n : BitVec 16) : (s.takeCount w n).draws = s.draws := rfl
@[simp] theorem takeCount_core_regs (s : State) (w : WC) (n : BitVec 16) : (s.takeCount w n).core.regs = s.core.regs := rfl
@[simp] theorem takeCount_core_ctl (s : State) (w : WC) (n : BitVec 16) : (s.takeCount w n).core.ctl = s.core.ctl := rfl
@[simp] theorem takeCount_core_eng (s : State) (w : WC) (n : BitVec 16) : (s.takeCount w n).core.eng = s.core.eng := rfl
@[simp] theorem takeCount_core_sh (s : State) (w : WC) (n : BitVec 16) : (s.takeCount w n).core.sh = s.core.sh := rfl

/-! setTile -/

@[simp] theorem setTile_here (s : State) (t : AT) (x : Vector AccRow 16) : (s.setTile t x).here = s.here := rfl
@[simp] theorem setTile_peers (s : State) (t : AT) (x : Vector AccRow 16) : (s.setTile t x).peers = s.peers := rfl
@[simp] theorem setTile_mem (s : State) (t : AT) (x : Vector AccRow 16) : (s.setTile t x).mem = s.mem := rfl
@[simp] theorem setTile_pois (s : State) (t : AT) (x : Vector AccRow 16) : (s.setTile t x).pois = s.pois := rfl
@[simp] theorem setTile_tags (s : State) (t : AT) (x : Vector AccRow 16) : (s.setTile t x).tags = s.tags := rfl
@[simp] theorem setTile_nodes (s : State) (t : AT) (x : Vector AccRow 16) : (s.setTile t x).nodes = s.nodes := rfl
@[simp] theorem setTile_net (s : State) (t : AT) (x : Vector AccRow 16) : (s.setTile t x).net = s.net := rfl
@[simp] theorem setTile_out (s : State) (t : AT) (x : Vector AccRow 16) : (s.setTile t x).out = s.out := rfl
@[simp] theorem setTile_clock (s : State) (t : AT) (x : Vector AccRow 16) : (s.setTile t x).clock = s.clock := rfl
@[simp] theorem setTile_sites (s : State) (t : AT) (x : Vector AccRow 16) : (s.setTile t x).sites = s.sites := rfl
@[simp] theorem setTile_power (s : State) (t : AT) (x : Vector AccRow 16) : (s.setTile t x).power = s.power := rfl
@[simp] theorem setTile_lead (s : State) (t : AT) (x : Vector AccRow 16) : (s.setTile t x).lead = s.lead := rfl
@[simp] theorem setTile_pages (s : State) (t : AT) (x : Vector AccRow 16) : (s.setTile t x).pages = s.pages := rfl
@[simp] theorem setTile_links (s : State) (t : AT) (x : Vector AccRow 16) : (s.setTile t x).links = s.links := rfl
@[simp] theorem setTile_boat (s : State) (t : AT) (x : Vector AccRow 16) : (s.setTile t x).boat = s.boat := rfl
@[simp] theorem setTile_agenda (s : State) (t : AT) (x : Vector AccRow 16) : (s.setTile t x).agenda = s.agenda := rfl
@[simp] theorem setTile_queued (s : State) (t : AT) (x : Vector AccRow 16) : (s.setTile t x).queued = s.queued := rfl
@[simp] theorem setTile_met (s : State) (t : AT) (x : Vector AccRow 16) : (s.setTile t x).met = s.met := rfl
@[simp] theorem setTile_draws (s : State) (t : AT) (x : Vector AccRow 16) : (s.setTile t x).draws = s.draws := rfl
@[simp] theorem setTile_core_regs (s : State) (t : AT) (x : Vector AccRow 16) : (s.setTile t x).core.regs = s.core.regs := rfl
@[simp] theorem setTile_core_ctl (s : State) (t : AT) (x : Vector AccRow 16) : (s.setTile t x).core.ctl = s.core.ctl := rfl
@[simp] theorem setTile_core_slots (s : State) (t : AT) (x : Vector AccRow 16) : (s.setTile t x).core.slots = s.core.slots := rfl
@[simp] theorem setTile_core_sh (s : State) (t : AT) (x : Vector AccRow 16) : (s.setTile t x).core.sh = s.core.sh := rfl

/-! setTag -/

@[simp] theorem setTag_here (s : State) (i : Nat) (e : TagEntry) : (s.setTag i e).here = s.here := rfl
@[simp] theorem setTag_peers (s : State) (i : Nat) (e : TagEntry) : (s.setTag i e).peers = s.peers := rfl
@[simp] theorem setTag_mem (s : State) (i : Nat) (e : TagEntry) : (s.setTag i e).mem = s.mem := rfl
@[simp] theorem setTag_pois (s : State) (i : Nat) (e : TagEntry) : (s.setTag i e).pois = s.pois := rfl
@[simp] theorem setTag_tags (s : State) (i : Nat) (e : TagEntry) : (s.setTag i e).tags = s.tags := rfl
@[simp] theorem setTag_nodes (s : State) (i : Nat) (e : TagEntry) : (s.setTag i e).nodes = s.nodes := rfl
@[simp] theorem setTag_net (s : State) (i : Nat) (e : TagEntry) : (s.setTag i e).net = s.net := rfl
@[simp] theorem setTag_out (s : State) (i : Nat) (e : TagEntry) : (s.setTag i e).out = s.out := rfl
@[simp] theorem setTag_clock (s : State) (i : Nat) (e : TagEntry) : (s.setTag i e).clock = s.clock := rfl
@[simp] theorem setTag_sites (s : State) (i : Nat) (e : TagEntry) : (s.setTag i e).sites = s.sites := rfl
@[simp] theorem setTag_power (s : State) (i : Nat) (e : TagEntry) : (s.setTag i e).power = s.power := rfl
@[simp] theorem setTag_lead (s : State) (i : Nat) (e : TagEntry) : (s.setTag i e).lead = s.lead := rfl
@[simp] theorem setTag_pages (s : State) (i : Nat) (e : TagEntry) : (s.setTag i e).pages = s.pages := rfl
@[simp] theorem setTag_links (s : State) (i : Nat) (e : TagEntry) : (s.setTag i e).links = s.links := rfl
@[simp] theorem setTag_boat (s : State) (i : Nat) (e : TagEntry) : (s.setTag i e).boat = s.boat := rfl
@[simp] theorem setTag_agenda (s : State) (i : Nat) (e : TagEntry) : (s.setTag i e).agenda = s.agenda := rfl
@[simp] theorem setTag_queued (s : State) (i : Nat) (e : TagEntry) : (s.setTag i e).queued = s.queued := rfl
@[simp] theorem setTag_met (s : State) (i : Nat) (e : TagEntry) : (s.setTag i e).met = s.met := rfl
@[simp] theorem setTag_draws (s : State) (i : Nat) (e : TagEntry) : (s.setTag i e).draws = s.draws := rfl
@[simp] theorem setTag_core_regs (s : State) (i : Nat) (e : TagEntry) : (s.setTag i e).core.regs = s.core.regs := rfl
@[simp] theorem setTag_core_ctl (s : State) (i : Nat) (e : TagEntry) : (s.setTag i e).core.ctl = s.core.ctl := rfl
@[simp] theorem setTag_core_slots (s : State) (i : Nat) (e : TagEntry) : (s.setTag i e).core.slots = s.core.slots := rfl
@[simp] theorem setTag_core_eng (s : State) (i : Nat) (e : TagEntry) : (s.setTag i e).core.eng = s.core.eng := rfl

/-! leaveS -/

@[simp] theorem leaveS_here (s : State) : (s.leaveS).here = s.here := rfl
@[simp] theorem leaveS_peers (s : State) : (s.leaveS).peers = s.peers := rfl
@[simp] theorem leaveS_mem (s : State) : (s.leaveS).mem = s.mem := rfl
@[simp] theorem leaveS_pois (s : State) : (s.leaveS).pois = s.pois := rfl
@[simp] theorem leaveS_tags (s : State) : (s.leaveS).tags = s.tags := rfl
@[simp] theorem leaveS_nodes (s : State) : (s.leaveS).nodes = s.nodes := rfl
@[simp] theorem leaveS_net (s : State) : (s.leaveS).net = s.net := rfl
@[simp] theorem leaveS_out (s : State) : (s.leaveS).out = s.out := rfl
@[simp] theorem leaveS_clock (s : State) : (s.leaveS).clock = s.clock := rfl
@[simp] theorem leaveS_sites (s : State) : (s.leaveS).sites = s.sites := rfl
@[simp] theorem leaveS_power (s : State) : (s.leaveS).power = s.power := rfl
@[simp] theorem leaveS_lead (s : State) : (s.leaveS).lead = s.lead := rfl
@[simp] theorem leaveS_pages (s : State) : (s.leaveS).pages = s.pages := rfl
@[simp] theorem leaveS_links (s : State) : (s.leaveS).links = s.links := rfl
@[simp] theorem leaveS_boat (s : State) : (s.leaveS).boat = s.boat := rfl
@[simp] theorem leaveS_agenda (s : State) : (s.leaveS).agenda = s.agenda := rfl
@[simp] theorem leaveS_queued (s : State) : (s.leaveS).queued = s.queued := rfl
@[simp] theorem leaveS_met (s : State) : (s.leaveS).met = s.met := rfl
@[simp] theorem leaveS_draws (s : State) : (s.leaveS).draws = s.draws := rfl
@[simp] theorem leaveS_core_regs (s : State) : (s.leaveS).core.regs = s.core.regs := rfl
@[simp] theorem leaveS_core_slots (s : State) : (s.leaveS).core.slots = s.core.slots := rfl
@[simp] theorem leaveS_core_eng (s : State) : (s.leaveS).core.eng = s.core.eng := rfl
@[simp] theorem leaveS_core_sh (s : State) : (s.leaveS).core.sh = s.core.sh := rfl

/-! endRpc -/

@[simp] theorem endRpc_here (s : State) : (s.endRpc).here = s.here := rfl
@[simp] theorem endRpc_peers (s : State) : (s.endRpc).peers = s.peers := rfl
@[simp] theorem endRpc_mem (s : State) : (s.endRpc).mem = s.mem := rfl
@[simp] theorem endRpc_pois (s : State) : (s.endRpc).pois = s.pois := rfl
@[simp] theorem endRpc_tags (s : State) : (s.endRpc).tags = s.tags := rfl
@[simp] theorem endRpc_nodes (s : State) : (s.endRpc).nodes = s.nodes := rfl
@[simp] theorem endRpc_net (s : State) : (s.endRpc).net = s.net := rfl
@[simp] theorem endRpc_out (s : State) : (s.endRpc).out = s.out := rfl
@[simp] theorem endRpc_clock (s : State) : (s.endRpc).clock = s.clock := rfl
@[simp] theorem endRpc_sites (s : State) : (s.endRpc).sites = s.sites := rfl
@[simp] theorem endRpc_power (s : State) : (s.endRpc).power = s.power := rfl
@[simp] theorem endRpc_lead (s : State) : (s.endRpc).lead = s.lead := rfl
@[simp] theorem endRpc_pages (s : State) : (s.endRpc).pages = s.pages := rfl
@[simp] theorem endRpc_links (s : State) : (s.endRpc).links = s.links := rfl
@[simp] theorem endRpc_boat (s : State) : (s.endRpc).boat = s.boat := rfl
@[simp] theorem endRpc_agenda (s : State) : (s.endRpc).agenda = s.agenda := rfl
@[simp] theorem endRpc_queued (s : State) : (s.endRpc).queued = s.queued := rfl
@[simp] theorem endRpc_met (s : State) : (s.endRpc).met = s.met := rfl
@[simp] theorem endRpc_draws (s : State) : (s.endRpc).draws = s.draws := rfl
@[simp] theorem endRpc_core_regs (s : State) : (s.endRpc).core.regs = s.core.regs := rfl
@[simp] theorem endRpc_core_ctl (s : State) : (s.endRpc).core.ctl = s.core.ctl := rfl
@[simp] theorem endRpc_core_slots (s : State) : (s.endRpc).core.slots = s.core.slots := rfl
@[simp] theorem endRpc_core_eng (s : State) : (s.endRpc).core.eng = s.core.eng := rfl

/-! completeOp -/

@[simp] theorem completeOp_here (s : State) (o : EngOp) (f : Flags) (c : Bool) : (s.completeOp o f c).here = s.here := rfl
@[simp] theorem completeOp_peers (s : State) (o : EngOp) (f : Flags) (c : Bool) : (s.completeOp o f c).peers = s.peers := rfl
@[simp] theorem completeOp_mem (s : State) (o : EngOp) (f : Flags) (c : Bool) : (s.completeOp o f c).mem = s.mem := rfl
@[simp] theorem completeOp_pois (s : State) (o : EngOp) (f : Flags) (c : Bool) : (s.completeOp o f c).pois = s.pois := rfl
@[simp] theorem completeOp_tags (s : State) (o : EngOp) (f : Flags) (c : Bool) : (s.completeOp o f c).tags = s.tags := rfl
@[simp] theorem completeOp_nodes (s : State) (o : EngOp) (f : Flags) (c : Bool) : (s.completeOp o f c).nodes = s.nodes := rfl
@[simp] theorem completeOp_net (s : State) (o : EngOp) (f : Flags) (c : Bool) : (s.completeOp o f c).net = s.net := rfl
@[simp] theorem completeOp_out (s : State) (o : EngOp) (f : Flags) (c : Bool) : (s.completeOp o f c).out = s.out := rfl
@[simp] theorem completeOp_clock (s : State) (o : EngOp) (f : Flags) (c : Bool) : (s.completeOp o f c).clock = s.clock := rfl
@[simp] theorem completeOp_sites (s : State) (o : EngOp) (f : Flags) (c : Bool) : (s.completeOp o f c).sites = s.sites := rfl
@[simp] theorem completeOp_power (s : State) (o : EngOp) (f : Flags) (c : Bool) : (s.completeOp o f c).power = s.power := rfl
@[simp] theorem completeOp_lead (s : State) (o : EngOp) (f : Flags) (c : Bool) : (s.completeOp o f c).lead = s.lead := rfl
@[simp] theorem completeOp_pages (s : State) (o : EngOp) (f : Flags) (c : Bool) : (s.completeOp o f c).pages = s.pages := rfl
@[simp] theorem completeOp_links (s : State) (o : EngOp) (f : Flags) (c : Bool) : (s.completeOp o f c).links = s.links := rfl
@[simp] theorem completeOp_boat (s : State) (o : EngOp) (f : Flags) (c : Bool) : (s.completeOp o f c).boat = s.boat := rfl
@[simp] theorem completeOp_agenda (s : State) (o : EngOp) (f : Flags) (c : Bool) : (s.completeOp o f c).agenda = s.agenda := rfl
@[simp] theorem completeOp_queued (s : State) (o : EngOp) (f : Flags) (c : Bool) : (s.completeOp o f c).queued = s.queued := rfl
@[simp] theorem completeOp_met (s : State) (o : EngOp) (f : Flags) (c : Bool) : (s.completeOp o f c).met = s.met := rfl
@[simp] theorem completeOp_draws (s : State) (o : EngOp) (f : Flags) (c : Bool) : (s.completeOp o f c).draws = s.draws := rfl

/-! onNode -/

@[simp] theorem onNode_here (s : State) (k : Nat) (f : Node → Node) : (s.onNode k f).here = s.here := rfl
@[simp] theorem onNode_core (s : State) (k : Nat) (f : Node → Node) : (s.onNode k f).core = s.core := rfl
@[simp] theorem onNode_peers (s : State) (k : Nat) (f : Node → Node) : (s.onNode k f).peers = s.peers := rfl
@[simp] theorem onNode_mem (s : State) (k : Nat) (f : Node → Node) : (s.onNode k f).mem = s.mem := rfl
@[simp] theorem onNode_pois (s : State) (k : Nat) (f : Node → Node) : (s.onNode k f).pois = s.pois := rfl
@[simp] theorem onNode_tags (s : State) (k : Nat) (f : Node → Node) : (s.onNode k f).tags = s.tags := rfl
@[simp] theorem onNode_nodes (s : State) (k : Nat) (f : Node → Node) : (s.onNode k f).nodes = tset Node.reset s.nodes k (f (s.node k)) := rfl
@[simp] theorem onNode_net (s : State) (k : Nat) (f : Node → Node) : (s.onNode k f).net = s.net := rfl
@[simp] theorem onNode_out (s : State) (k : Nat) (f : Node → Node) : (s.onNode k f).out = s.out := rfl
@[simp] theorem onNode_clock (s : State) (k : Nat) (f : Node → Node) : (s.onNode k f).clock = s.clock := rfl
@[simp] theorem onNode_sites (s : State) (k : Nat) (f : Node → Node) : (s.onNode k f).sites = s.sites := rfl
@[simp] theorem onNode_power (s : State) (k : Nat) (f : Node → Node) : (s.onNode k f).power = s.power := rfl
@[simp] theorem onNode_lead (s : State) (k : Nat) (f : Node → Node) : (s.onNode k f).lead = s.lead := rfl
@[simp] theorem onNode_pages (s : State) (k : Nat) (f : Node → Node) : (s.onNode k f).pages = s.pages := rfl
@[simp] theorem onNode_links (s : State) (k : Nat) (f : Node → Node) : (s.onNode k f).links = s.links := rfl
@[simp] theorem onNode_boat (s : State) (k : Nat) (f : Node → Node) : (s.onNode k f).boat = s.boat := rfl
@[simp] theorem onNode_agenda (s : State) (k : Nat) (f : Node → Node) : (s.onNode k f).agenda = s.agenda := rfl
@[simp] theorem onNode_queued (s : State) (k : Nat) (f : Node → Node) : (s.onNode k f).queued = s.queued := rfl
@[simp] theorem onNode_met (s : State) (k : Nat) (f : Node → Node) : (s.onNode k f).met = s.met := rfl
@[simp] theorem onNode_draws (s : State) (k : Nat) (f : Node → Node) : (s.onNode k f).draws = s.draws := rfl

/-! onSite -/

@[simp] theorem onSite_here (s : State) (n : Nat) (f : Site → Site) : (s.onSite n f).here = s.here := rfl
@[simp] theorem onSite_core (s : State) (n : Nat) (f : Site → Site) : (s.onSite n f).core = s.core := rfl
@[simp] theorem onSite_peers (s : State) (n : Nat) (f : Site → Site) : (s.onSite n f).peers = s.peers := rfl
@[simp] theorem onSite_mem (s : State) (n : Nat) (f : Site → Site) : (s.onSite n f).mem = s.mem := rfl
@[simp] theorem onSite_pois (s : State) (n : Nat) (f : Site → Site) : (s.onSite n f).pois = s.pois := rfl
@[simp] theorem onSite_tags (s : State) (n : Nat) (f : Site → Site) : (s.onSite n f).tags = s.tags := rfl
@[simp] theorem onSite_nodes (s : State) (n : Nat) (f : Site → Site) : (s.onSite n f).nodes = s.nodes := rfl
@[simp] theorem onSite_net (s : State) (n : Nat) (f : Site → Site) : (s.onSite n f).net = s.net := rfl
@[simp] theorem onSite_out (s : State) (n : Nat) (f : Site → Site) : (s.onSite n f).out = s.out := rfl
@[simp] theorem onSite_clock (s : State) (n : Nat) (f : Site → Site) : (s.onSite n f).clock = s.clock := rfl
@[simp] theorem onSite_sites (s : State) (n : Nat) (f : Site → Site) : (s.onSite n f).sites = tset Site.reset s.sites n (f (s.site n)) := rfl
@[simp] theorem onSite_power (s : State) (n : Nat) (f : Site → Site) : (s.onSite n f).power = s.power := rfl
@[simp] theorem onSite_lead (s : State) (n : Nat) (f : Site → Site) : (s.onSite n f).lead = s.lead := rfl
@[simp] theorem onSite_pages (s : State) (n : Nat) (f : Site → Site) : (s.onSite n f).pages = s.pages := rfl
@[simp] theorem onSite_links (s : State) (n : Nat) (f : Site → Site) : (s.onSite n f).links = s.links := rfl
@[simp] theorem onSite_boat (s : State) (n : Nat) (f : Site → Site) : (s.onSite n f).boat = s.boat := rfl
@[simp] theorem onSite_agenda (s : State) (n : Nat) (f : Site → Site) : (s.onSite n f).agenda = s.agenda := rfl
@[simp] theorem onSite_queued (s : State) (n : Nat) (f : Site → Site) : (s.onSite n f).queued = s.queued := rfl
@[simp] theorem onSite_met (s : State) (n : Nat) (f : Site → Site) : (s.onSite n f).met = s.met := rfl
@[simp] theorem onSite_draws (s : State) (n : Nat) (f : Site → Site) : (s.onSite n f).draws = s.draws := rfl

/-! note -/

@[simp] theorem note_here (s : State) (e : LogEntry) : (s.note e).here = s.here := rfl
@[simp] theorem note_core (s : State) (e : LogEntry) : (s.note e).core = s.core := rfl
@[simp] theorem note_peers (s : State) (e : LogEntry) : (s.note e).peers = s.peers := rfl
@[simp] theorem note_mem (s : State) (e : LogEntry) : (s.note e).mem = s.mem := rfl
@[simp] theorem note_pois (s : State) (e : LogEntry) : (s.note e).pois = s.pois := rfl
@[simp] theorem note_tags (s : State) (e : LogEntry) : (s.note e).tags = s.tags := rfl
@[simp] theorem note_nodes (s : State) (e : LogEntry) : (s.note e).nodes = s.nodes := rfl
@[simp] theorem note_net (s : State) (e : LogEntry) : (s.note e).net = s.net := rfl
@[simp] theorem note_out (s : State) (e : LogEntry) : (s.note e).out = s.out := rfl
@[simp] theorem note_clock (s : State) (e : LogEntry) : (s.note e).clock = s.clock := rfl
@[simp] theorem note_sites (s : State) (e : LogEntry) : (s.note e).sites = s.sites := rfl
@[simp] theorem note_power (s : State) (e : LogEntry) : (s.note e).power = s.power := rfl
@[simp] theorem note_lead (s : State) (e : LogEntry) : (s.note e).lead = s.lead := rfl
@[simp] theorem note_pages (s : State) (e : LogEntry) : (s.note e).pages = s.pages := rfl
@[simp] theorem note_links (s : State) (e : LogEntry) : (s.note e).links = s.links := rfl
@[simp] theorem note_agenda (s : State) (e : LogEntry) : (s.note e).agenda = s.agenda := rfl
@[simp] theorem note_queued (s : State) (e : LogEntry) : (s.note e).queued = s.queued := rfl
@[simp] theorem note_met (s : State) (e : LogEntry) : (s.note e).met = s.met := rfl
@[simp] theorem note_draws (s : State) (e : LogEntry) : (s.note e).draws = s.draws := rfl

/-! onGroup -/

@[simp] theorem onGroup_here (s : State) (i : Nat) (f : Group → Group) : (s.onGroup i f).here = s.here := rfl
@[simp] theorem onGroup_core (s : State) (i : Nat) (f : Group → Group) : (s.onGroup i f).core = s.core := rfl
@[simp] theorem onGroup_peers (s : State) (i : Nat) (f : Group → Group) : (s.onGroup i f).peers = s.peers := rfl
@[simp] theorem onGroup_mem (s : State) (i : Nat) (f : Group → Group) : (s.onGroup i f).mem = s.mem := rfl
@[simp] theorem onGroup_pois (s : State) (i : Nat) (f : Group → Group) : (s.onGroup i f).pois = s.pois := rfl
@[simp] theorem onGroup_tags (s : State) (i : Nat) (f : Group → Group) : (s.onGroup i f).tags = s.tags := rfl
@[simp] theorem onGroup_nodes (s : State) (i : Nat) (f : Group → Group) : (s.onGroup i f).nodes = s.nodes := rfl
@[simp] theorem onGroup_net (s : State) (i : Nat) (f : Group → Group) : (s.onGroup i f).net = s.net := rfl
@[simp] theorem onGroup_out (s : State) (i : Nat) (f : Group → Group) : (s.onGroup i f).out = s.out := rfl
@[simp] theorem onGroup_clock (s : State) (i : Nat) (f : Group → Group) : (s.onGroup i f).clock = s.clock := rfl
@[simp] theorem onGroup_sites (s : State) (i : Nat) (f : Group → Group) : (s.onGroup i f).sites = s.sites := rfl
@[simp] theorem onGroup_power (s : State) (i : Nat) (f : Group → Group) : (s.onGroup i f).power = s.power := rfl
@[simp] theorem onGroup_pages (s : State) (i : Nat) (f : Group → Group) : (s.onGroup i f).pages = s.pages := rfl
@[simp] theorem onGroup_links (s : State) (i : Nat) (f : Group → Group) : (s.onGroup i f).links = s.links := rfl
@[simp] theorem onGroup_boat (s : State) (i : Nat) (f : Group → Group) : (s.onGroup i f).boat = s.boat := rfl
@[simp] theorem onGroup_agenda (s : State) (i : Nat) (f : Group → Group) : (s.onGroup i f).agenda = s.agenda := rfl
@[simp] theorem onGroup_queued (s : State) (i : Nat) (f : Group → Group) : (s.onGroup i f).queued = s.queued := rfl
@[simp] theorem onGroup_met (s : State) (i : Nat) (f : Group → Group) : (s.onGroup i f).met = s.met := rfl
@[simp] theorem onGroup_draws (s : State) (i : Nat) (f : Group → Group) : (s.onGroup i f).draws = s.draws := rfl

/-! onQueue -/

@[simp] theorem onQueue_here (s : State) (q : Nat) (f : Queue → Queue) : (s.onQueue q f).here = s.here := rfl
@[simp] theorem onQueue_core (s : State) (q : Nat) (f : Queue → Queue) : (s.onQueue q f).core = s.core := rfl
@[simp] theorem onQueue_peers (s : State) (q : Nat) (f : Queue → Queue) : (s.onQueue q f).peers = s.peers := rfl
@[simp] theorem onQueue_mem (s : State) (q : Nat) (f : Queue → Queue) : (s.onQueue q f).mem = s.mem := rfl
@[simp] theorem onQueue_pois (s : State) (q : Nat) (f : Queue → Queue) : (s.onQueue q f).pois = s.pois := rfl
@[simp] theorem onQueue_tags (s : State) (q : Nat) (f : Queue → Queue) : (s.onQueue q f).tags = s.tags := rfl
@[simp] theorem onQueue_nodes (s : State) (q : Nat) (f : Queue → Queue) : (s.onQueue q f).nodes = s.nodes := rfl
@[simp] theorem onQueue_net (s : State) (q : Nat) (f : Queue → Queue) : (s.onQueue q f).net = s.net := rfl
@[simp] theorem onQueue_out (s : State) (q : Nat) (f : Queue → Queue) : (s.onQueue q f).out = s.out := rfl
@[simp] theorem onQueue_clock (s : State) (q : Nat) (f : Queue → Queue) : (s.onQueue q f).clock = s.clock := rfl
@[simp] theorem onQueue_sites (s : State) (q : Nat) (f : Queue → Queue) : (s.onQueue q f).sites = s.sites := rfl
@[simp] theorem onQueue_power (s : State) (q : Nat) (f : Queue → Queue) : (s.onQueue q f).power = s.power := rfl
@[simp] theorem onQueue_pages (s : State) (q : Nat) (f : Queue → Queue) : (s.onQueue q f).pages = s.pages := rfl
@[simp] theorem onQueue_links (s : State) (q : Nat) (f : Queue → Queue) : (s.onQueue q f).links = s.links := rfl
@[simp] theorem onQueue_boat (s : State) (q : Nat) (f : Queue → Queue) : (s.onQueue q f).boat = s.boat := rfl
@[simp] theorem onQueue_agenda (s : State) (q : Nat) (f : Queue → Queue) : (s.onQueue q f).agenda = s.agenda := rfl
@[simp] theorem onQueue_queued (s : State) (q : Nat) (f : Queue → Queue) : (s.onQueue q f).queued = s.queued := rfl
@[simp] theorem onQueue_met (s : State) (q : Nat) (f : Queue → Queue) : (s.onQueue q f).met = s.met := rfl
@[simp] theorem onQueue_draws (s : State) (q : Nat) (f : Queue → Queue) : (s.onQueue q f).draws = s.draws := rfl

/-! onUmpire -/

@[simp] theorem onUmpire_here (s : State) (u : Nat) (f : Umpire → Umpire) : (s.onUmpire u f).here = s.here := rfl
@[simp] theorem onUmpire_core (s : State) (u : Nat) (f : Umpire → Umpire) : (s.onUmpire u f).core = s.core := rfl
@[simp] theorem onUmpire_peers (s : State) (u : Nat) (f : Umpire → Umpire) : (s.onUmpire u f).peers = s.peers := rfl
@[simp] theorem onUmpire_mem (s : State) (u : Nat) (f : Umpire → Umpire) : (s.onUmpire u f).mem = s.mem := rfl
@[simp] theorem onUmpire_pois (s : State) (u : Nat) (f : Umpire → Umpire) : (s.onUmpire u f).pois = s.pois := rfl
@[simp] theorem onUmpire_tags (s : State) (u : Nat) (f : Umpire → Umpire) : (s.onUmpire u f).tags = s.tags := rfl
@[simp] theorem onUmpire_nodes (s : State) (u : Nat) (f : Umpire → Umpire) : (s.onUmpire u f).nodes = s.nodes := rfl
@[simp] theorem onUmpire_net (s : State) (u : Nat) (f : Umpire → Umpire) : (s.onUmpire u f).net = s.net := rfl
@[simp] theorem onUmpire_out (s : State) (u : Nat) (f : Umpire → Umpire) : (s.onUmpire u f).out = s.out := rfl
@[simp] theorem onUmpire_clock (s : State) (u : Nat) (f : Umpire → Umpire) : (s.onUmpire u f).clock = s.clock := rfl
@[simp] theorem onUmpire_sites (s : State) (u : Nat) (f : Umpire → Umpire) : (s.onUmpire u f).sites = s.sites := rfl
@[simp] theorem onUmpire_lead (s : State) (u : Nat) (f : Umpire → Umpire) : (s.onUmpire u f).lead = s.lead := rfl
@[simp] theorem onUmpire_pages (s : State) (u : Nat) (f : Umpire → Umpire) : (s.onUmpire u f).pages = s.pages := rfl
@[simp] theorem onUmpire_links (s : State) (u : Nat) (f : Umpire → Umpire) : (s.onUmpire u f).links = s.links := rfl
@[simp] theorem onUmpire_boat (s : State) (u : Nat) (f : Umpire → Umpire) : (s.onUmpire u f).boat = s.boat := rfl
@[simp] theorem onUmpire_agenda (s : State) (u : Nat) (f : Umpire → Umpire) : (s.onUmpire u f).agenda = s.agenda := rfl
@[simp] theorem onUmpire_queued (s : State) (u : Nat) (f : Umpire → Umpire) : (s.onUmpire u f).queued = s.queued := rfl
@[simp] theorem onUmpire_met (s : State) (u : Nat) (f : Umpire → Umpire) : (s.onUmpire u f).met = s.met := rfl
@[simp] theorem onUmpire_draws (s : State) (u : Nat) (f : Umpire → Umpire) : (s.onUmpire u f).draws = s.draws := rfl

/-! onQuad -/

@[simp] theorem onQuad_here (s : State) (q : Nat) (f : Quad → Quad) : (s.onQuad q f).here = s.here := rfl
@[simp] theorem onQuad_core (s : State) (q : Nat) (f : Quad → Quad) : (s.onQuad q f).core = s.core := rfl
@[simp] theorem onQuad_peers (s : State) (q : Nat) (f : Quad → Quad) : (s.onQuad q f).peers = s.peers := rfl
@[simp] theorem onQuad_mem (s : State) (q : Nat) (f : Quad → Quad) : (s.onQuad q f).mem = s.mem := rfl
@[simp] theorem onQuad_pois (s : State) (q : Nat) (f : Quad → Quad) : (s.onQuad q f).pois = s.pois := rfl
@[simp] theorem onQuad_tags (s : State) (q : Nat) (f : Quad → Quad) : (s.onQuad q f).tags = s.tags := rfl
@[simp] theorem onQuad_nodes (s : State) (q : Nat) (f : Quad → Quad) : (s.onQuad q f).nodes = s.nodes := rfl
@[simp] theorem onQuad_net (s : State) (q : Nat) (f : Quad → Quad) : (s.onQuad q f).net = s.net := rfl
@[simp] theorem onQuad_out (s : State) (q : Nat) (f : Quad → Quad) : (s.onQuad q f).out = s.out := rfl
@[simp] theorem onQuad_clock (s : State) (q : Nat) (f : Quad → Quad) : (s.onQuad q f).clock = s.clock := rfl
@[simp] theorem onQuad_sites (s : State) (q : Nat) (f : Quad → Quad) : (s.onQuad q f).sites = s.sites := rfl
@[simp] theorem onQuad_lead (s : State) (q : Nat) (f : Quad → Quad) : (s.onQuad q f).lead = s.lead := rfl
@[simp] theorem onQuad_pages (s : State) (q : Nat) (f : Quad → Quad) : (s.onQuad q f).pages = s.pages := rfl
@[simp] theorem onQuad_links (s : State) (q : Nat) (f : Quad → Quad) : (s.onQuad q f).links = s.links := rfl
@[simp] theorem onQuad_boat (s : State) (q : Nat) (f : Quad → Quad) : (s.onQuad q f).boat = s.boat := rfl
@[simp] theorem onQuad_agenda (s : State) (q : Nat) (f : Quad → Quad) : (s.onQuad q f).agenda = s.agenda := rfl
@[simp] theorem onQuad_queued (s : State) (q : Nat) (f : Quad → Quad) : (s.onQuad q f).queued = s.queued := rfl
@[simp] theorem onQuad_met (s : State) (q : Nat) (f : Quad → Quad) : (s.onQuad q f).met = s.met := rfl
@[simp] theorem onQuad_draws (s : State) (q : Nat) (f : Quad → Quad) : (s.onQuad q f).draws = s.draws := rfl

/-! unsend -/

@[simp] theorem unsend_here (s : State) (n : Nat) : (s.unsend n).here = s.here := rfl
@[simp] theorem unsend_core (s : State) (n : Nat) : (s.unsend n).core = s.core := rfl
@[simp] theorem unsend_peers (s : State) (n : Nat) : (s.unsend n).peers = s.peers := rfl
@[simp] theorem unsend_mem (s : State) (n : Nat) : (s.unsend n).mem = s.mem := rfl
@[simp] theorem unsend_pois (s : State) (n : Nat) : (s.unsend n).pois = s.pois := rfl
@[simp] theorem unsend_tags (s : State) (n : Nat) : (s.unsend n).tags = s.tags := rfl
@[simp] theorem unsend_nodes (s : State) (n : Nat) : (s.unsend n).nodes = s.nodes := rfl
@[simp] theorem unsend_net (s : State) (n : Nat) : (s.unsend n).net = dropAt n s.net := rfl
@[simp] theorem unsend_out (s : State) (n : Nat) : (s.unsend n).out = s.out := rfl
@[simp] theorem unsend_clock (s : State) (n : Nat) : (s.unsend n).clock = s.clock := rfl
@[simp] theorem unsend_sites (s : State) (n : Nat) : (s.unsend n).sites = s.sites := rfl
@[simp] theorem unsend_power (s : State) (n : Nat) : (s.unsend n).power = s.power := rfl
@[simp] theorem unsend_lead (s : State) (n : Nat) : (s.unsend n).lead = s.lead := rfl
@[simp] theorem unsend_pages (s : State) (n : Nat) : (s.unsend n).pages = s.pages := rfl
@[simp] theorem unsend_links (s : State) (n : Nat) : (s.unsend n).links = s.links := rfl
@[simp] theorem unsend_boat (s : State) (n : Nat) : (s.unsend n).boat = s.boat := rfl
@[simp] theorem unsend_agenda (s : State) (n : Nat) : (s.unsend n).agenda = s.agenda := rfl
@[simp] theorem unsend_queued (s : State) (n : Nat) : (s.unsend n).queued = s.queued := rfl
@[simp] theorem unsend_met (s : State) (n : Nat) : (s.unsend n).met = s.met := rfl
@[simp] theorem unsend_draws (s : State) (n : Nat) : (s.unsend n).draws = s.draws := rfl

/-! retag -/

@[simp] theorem retag_here (s : State) (a n : Nat) (f : BitVec 5 → BitVec 5) : (s.retag a n f).here = s.here := rfl
@[simp] theorem retag_core (s : State) (a n : Nat) (f : BitVec 5 → BitVec 5) : (s.retag a n f).core = s.core := rfl
@[simp] theorem retag_peers (s : State) (a n : Nat) (f : BitVec 5 → BitVec 5) : (s.retag a n f).peers = s.peers := rfl
@[simp] theorem retag_mem (s : State) (a n : Nat) (f : BitVec 5 → BitVec 5) : (s.retag a n f).mem = s.mem := rfl
@[simp] theorem retag_pois (s : State) (a n : Nat) (f : BitVec 5 → BitVec 5) : (s.retag a n f).pois = s.pois := rfl
@[simp] theorem retag_nodes (s : State) (a n : Nat) (f : BitVec 5 → BitVec 5) : (s.retag a n f).nodes = s.nodes := rfl
@[simp] theorem retag_net (s : State) (a n : Nat) (f : BitVec 5 → BitVec 5) : (s.retag a n f).net = s.net := rfl
@[simp] theorem retag_out (s : State) (a n : Nat) (f : BitVec 5 → BitVec 5) : (s.retag a n f).out = s.out := rfl
@[simp] theorem retag_clock (s : State) (a n : Nat) (f : BitVec 5 → BitVec 5) : (s.retag a n f).clock = s.clock := rfl
@[simp] theorem retag_sites (s : State) (a n : Nat) (f : BitVec 5 → BitVec 5) : (s.retag a n f).sites = s.sites := rfl
@[simp] theorem retag_power (s : State) (a n : Nat) (f : BitVec 5 → BitVec 5) : (s.retag a n f).power = s.power := rfl
@[simp] theorem retag_lead (s : State) (a n : Nat) (f : BitVec 5 → BitVec 5) : (s.retag a n f).lead = s.lead := rfl
@[simp] theorem retag_pages (s : State) (a n : Nat) (f : BitVec 5 → BitVec 5) : (s.retag a n f).pages = s.pages := rfl
@[simp] theorem retag_links (s : State) (a n : Nat) (f : BitVec 5 → BitVec 5) : (s.retag a n f).links = s.links := rfl
@[simp] theorem retag_boat (s : State) (a n : Nat) (f : BitVec 5 → BitVec 5) : (s.retag a n f).boat = s.boat := rfl
@[simp] theorem retag_agenda (s : State) (a n : Nat) (f : BitVec 5 → BitVec 5) : (s.retag a n f).agenda = s.agenda := rfl
@[simp] theorem retag_queued (s : State) (a n : Nat) (f : BitVec 5 → BitVec 5) : (s.retag a n f).queued = s.queued := rfl
@[simp] theorem retag_met (s : State) (a n : Nat) (f : BitVec 5 → BitVec 5) : (s.retag a n f).met = s.met := rfl
@[simp] theorem retag_draws (s : State) (a n : Nat) (f : BitVec 5 → BitVec 5) : (s.retag a n f).draws = s.draws := rfl

/-! releaseTags -/

@[simp] theorem releaseTags_here (s : State) (k : Nat) (i : SlotId) : (s.releaseTags k i).here = s.here := rfl
@[simp] theorem releaseTags_core (s : State) (k : Nat) (i : SlotId) : (s.releaseTags k i).core = s.core := rfl
@[simp] theorem releaseTags_peers (s : State) (k : Nat) (i : SlotId) : (s.releaseTags k i).peers = s.peers := rfl
@[simp] theorem releaseTags_mem (s : State) (k : Nat) (i : SlotId) : (s.releaseTags k i).mem = s.mem := rfl
@[simp] theorem releaseTags_pois (s : State) (k : Nat) (i : SlotId) : (s.releaseTags k i).pois = s.pois := rfl
@[simp] theorem releaseTags_nodes (s : State) (k : Nat) (i : SlotId) : (s.releaseTags k i).nodes = s.nodes := rfl
@[simp] theorem releaseTags_net (s : State) (k : Nat) (i : SlotId) : (s.releaseTags k i).net = s.net := rfl
@[simp] theorem releaseTags_out (s : State) (k : Nat) (i : SlotId) : (s.releaseTags k i).out = s.out := rfl
@[simp] theorem releaseTags_clock (s : State) (k : Nat) (i : SlotId) : (s.releaseTags k i).clock = s.clock := rfl
@[simp] theorem releaseTags_sites (s : State) (k : Nat) (i : SlotId) : (s.releaseTags k i).sites = s.sites := rfl
@[simp] theorem releaseTags_power (s : State) (k : Nat) (i : SlotId) : (s.releaseTags k i).power = s.power := rfl
@[simp] theorem releaseTags_lead (s : State) (k : Nat) (i : SlotId) : (s.releaseTags k i).lead = s.lead := rfl
@[simp] theorem releaseTags_pages (s : State) (k : Nat) (i : SlotId) : (s.releaseTags k i).pages = s.pages := rfl
@[simp] theorem releaseTags_links (s : State) (k : Nat) (i : SlotId) : (s.releaseTags k i).links = s.links := rfl
@[simp] theorem releaseTags_boat (s : State) (k : Nat) (i : SlotId) : (s.releaseTags k i).boat = s.boat := rfl
@[simp] theorem releaseTags_agenda (s : State) (k : Nat) (i : SlotId) : (s.releaseTags k i).agenda = s.agenda := rfl
@[simp] theorem releaseTags_queued (s : State) (k : Nat) (i : SlotId) : (s.releaseTags k i).queued = s.queued := rfl
@[simp] theorem releaseTags_met (s : State) (k : Nat) (i : SlotId) : (s.releaseTags k i).met = s.met := rfl
@[simp] theorem releaseTags_draws (s : State) (k : Nat) (i : SlotId) : (s.releaseTags k i).draws = s.draws := rfl

/-! redraw -/

@[simp] theorem redraw_here (s : State) : (s.redraw).here = s.here := rfl
@[simp] theorem redraw_core (s : State) : (s.redraw).core = s.core := rfl
@[simp] theorem redraw_peers (s : State) : (s.redraw).peers = s.peers := rfl
@[simp] theorem redraw_mem (s : State) : (s.redraw).mem = s.mem := rfl
@[simp] theorem redraw_pois (s : State) : (s.redraw).pois = s.pois := rfl
@[simp] theorem redraw_tags (s : State) : (s.redraw).tags = s.tags := rfl
@[simp] theorem redraw_nodes (s : State) : (s.redraw).nodes = s.nodes := rfl
@[simp] theorem redraw_net (s : State) : (s.redraw).net = s.net := rfl
@[simp] theorem redraw_out (s : State) : (s.redraw).out = s.out := rfl
@[simp] theorem redraw_clock (s : State) : (s.redraw).clock = s.clock := rfl
@[simp] theorem redraw_sites (s : State) : (s.redraw).sites = s.sites := rfl
@[simp] theorem redraw_power (s : State) : (s.redraw).power = s.power := rfl
@[simp] theorem redraw_pages (s : State) : (s.redraw).pages = s.pages := rfl
@[simp] theorem redraw_links (s : State) : (s.redraw).links = s.links := rfl
@[simp] theorem redraw_boat (s : State) : (s.redraw).boat = s.boat := rfl
@[simp] theorem redraw_agenda (s : State) : (s.redraw).agenda = s.agenda := rfl
@[simp] theorem redraw_queued (s : State) : (s.redraw).queued = s.queued := rfl
@[simp] theorem redraw_met (s : State) : (s.redraw).met = s.met := rfl
@[simp] theorem redraw_draws (s : State) : (s.redraw).draws = s.draws := rfl

/-! poke -/

@[simp] theorem poke_here (s : State) (a : Nat) (bs : List (BitVec 8)) (p : Bool) : (s.poke a bs p).here = s.here := rfl
@[simp] theorem poke_core (s : State) (a : Nat) (bs : List (BitVec 8)) (p : Bool) : (s.poke a bs p).core = s.core := rfl
@[simp] theorem poke_peers (s : State) (a : Nat) (bs : List (BitVec 8)) (p : Bool) : (s.poke a bs p).peers = s.peers := rfl
@[simp] theorem poke_mem (s : State) (a : Nat) (bs : List (BitVec 8)) (p : Bool) : (s.poke a bs p).mem = putBytes s.mem a bs := rfl
@[simp] theorem poke_pois (s : State) (a : Nat) (bs : List (BitVec 8)) (p : Bool) : (s.poke a bs p).pois = putPoison s.poisonBase s.pois a bs.length p := rfl
@[simp] theorem poke_tags (s : State) (a : Nat) (bs : List (BitVec 8)) (p : Bool) : (s.poke a bs p).tags = s.tags := rfl
@[simp] theorem poke_nodes (s : State) (a : Nat) (bs : List (BitVec 8)) (p : Bool) : (s.poke a bs p).nodes = s.nodes := rfl
@[simp] theorem poke_net (s : State) (a : Nat) (bs : List (BitVec 8)) (p : Bool) : (s.poke a bs p).net = s.net := rfl
@[simp] theorem poke_out (s : State) (a : Nat) (bs : List (BitVec 8)) (p : Bool) : (s.poke a bs p).out = s.out := rfl
@[simp] theorem poke_clock (s : State) (a : Nat) (bs : List (BitVec 8)) (p : Bool) : (s.poke a bs p).clock = s.clock := rfl
@[simp] theorem poke_sites (s : State) (a : Nat) (bs : List (BitVec 8)) (p : Bool) : (s.poke a bs p).sites = s.sites := rfl
@[simp] theorem poke_power (s : State) (a : Nat) (bs : List (BitVec 8)) (p : Bool) : (s.poke a bs p).power = s.power := rfl
@[simp] theorem poke_lead (s : State) (a : Nat) (bs : List (BitVec 8)) (p : Bool) : (s.poke a bs p).lead = s.lead := rfl
@[simp] theorem poke_pages (s : State) (a : Nat) (bs : List (BitVec 8)) (p : Bool) : (s.poke a bs p).pages = s.pages := rfl
@[simp] theorem poke_links (s : State) (a : Nat) (bs : List (BitVec 8)) (p : Bool) : (s.poke a bs p).links = s.links := rfl
@[simp] theorem poke_boat (s : State) (a : Nat) (bs : List (BitVec 8)) (p : Bool) : (s.poke a bs p).boat = s.boat := rfl
@[simp] theorem poke_agenda (s : State) (a : Nat) (bs : List (BitVec 8)) (p : Bool) : (s.poke a bs p).agenda = s.agenda := rfl
@[simp] theorem poke_queued (s : State) (a : Nat) (bs : List (BitVec 8)) (p : Bool) : (s.poke a bs p).queued = s.queued := rfl
@[simp] theorem poke_met (s : State) (a : Nat) (bs : List (BitVec 8)) (p : Bool) : (s.poke a bs p).met = s.met := rfl
@[simp] theorem poke_draws (s : State) (a : Nat) (bs : List (BitVec 8)) (p : Bool) : (s.poke a bs p).draws = s.draws := rfl

/-! onTriad -/

@[simp] theorem onTriad_here (s : State) (n : Nat) (f : Triad → Triad) : (s.onTriad n f).here = s.here := rfl
@[simp] theorem onTriad_core (s : State) (n : Nat) (f : Triad → Triad) : (s.onTriad n f).core = s.core := rfl
@[simp] theorem onTriad_peers (s : State) (n : Nat) (f : Triad → Triad) : (s.onTriad n f).peers = s.peers := rfl
@[simp] theorem onTriad_mem (s : State) (n : Nat) (f : Triad → Triad) : (s.onTriad n f).mem = s.mem := rfl
@[simp] theorem onTriad_pois (s : State) (n : Nat) (f : Triad → Triad) : (s.onTriad n f).pois = s.pois := rfl
@[simp] theorem onTriad_tags (s : State) (n : Nat) (f : Triad → Triad) : (s.onTriad n f).tags = s.tags := rfl
@[simp] theorem onTriad_nodes (s : State) (n : Nat) (f : Triad → Triad) : (s.onTriad n f).nodes = s.nodes := rfl
@[simp] theorem onTriad_net (s : State) (n : Nat) (f : Triad → Triad) : (s.onTriad n f).net = s.net := rfl
@[simp] theorem onTriad_queued (s : State) (n : Nat) (f : Triad → Triad) : (s.onTriad n f).queued = s.queued := rfl
@[simp] theorem onTriad_out (s : State) (n : Nat) (f : Triad → Triad) : (s.onTriad n f).out = s.out := rfl
@[simp] theorem onTriad_clock (s : State) (n : Nat) (f : Triad → Triad) : (s.onTriad n f).clock = s.clock := rfl
@[simp] theorem onTriad_sites (s : State) (n : Nat) (f : Triad → Triad) : (s.onTriad n f).sites = tset Site.reset s.sites n { s.site n with triad := f (s.site n).triad } := rfl
@[simp] theorem onTriad_power (s : State) (n : Nat) (f : Triad → Triad) : (s.onTriad n f).power = s.power := rfl
@[simp] theorem onTriad_lead (s : State) (n : Nat) (f : Triad → Triad) : (s.onTriad n f).lead = s.lead := rfl
@[simp] theorem onTriad_pages (s : State) (n : Nat) (f : Triad → Triad) : (s.onTriad n f).pages = s.pages := rfl
@[simp] theorem onTriad_links (s : State) (n : Nat) (f : Triad → Triad) : (s.onTriad n f).links = s.links := rfl
@[simp] theorem onTriad_boat (s : State) (n : Nat) (f : Triad → Triad) : (s.onTriad n f).boat = s.boat := rfl
@[simp] theorem onTriad_agenda (s : State) (n : Nat) (f : Triad → Triad) : (s.onTriad n f).agenda = s.agenda := rfl
@[simp] theorem onTriad_met (s : State) (n : Nat) (f : Triad → Triad) : (s.onTriad n f).met = s.met := rfl
@[simp] theorem onTriad_draws (s : State) (n : Nat) (f : Triad → Triad) : (s.onTriad n f).draws = s.draws := rfl

/-! onPartAt -/

@[simp] theorem onPartAt_here (s : State) (n row p : Nat) (f : Part → Part) : (s.onPartAt n row p f).here = s.here := rfl
@[simp] theorem onPartAt_core (s : State) (n row p : Nat) (f : Part → Part) : (s.onPartAt n row p f).core = s.core := rfl
@[simp] theorem onPartAt_peers (s : State) (n row p : Nat) (f : Part → Part) : (s.onPartAt n row p f).peers = s.peers := rfl
@[simp] theorem onPartAt_mem (s : State) (n row p : Nat) (f : Part → Part) : (s.onPartAt n row p f).mem = s.mem := rfl
@[simp] theorem onPartAt_pois (s : State) (n row p : Nat) (f : Part → Part) : (s.onPartAt n row p f).pois = s.pois := rfl
@[simp] theorem onPartAt_tags (s : State) (n row p : Nat) (f : Part → Part) : (s.onPartAt n row p f).tags = s.tags := rfl
@[simp] theorem onPartAt_nodes (s : State) (n row p : Nat) (f : Part → Part) : (s.onPartAt n row p f).nodes = s.nodes := rfl
@[simp] theorem onPartAt_net (s : State) (n row p : Nat) (f : Part → Part) : (s.onPartAt n row p f).net = s.net := rfl
@[simp] theorem onPartAt_queued (s : State) (n row p : Nat) (f : Part → Part) : (s.onPartAt n row p f).queued = s.queued := rfl
@[simp] theorem onPartAt_out (s : State) (n row p : Nat) (f : Part → Part) : (s.onPartAt n row p f).out = s.out := rfl
@[simp] theorem onPartAt_clock (s : State) (n row p : Nat) (f : Part → Part) : (s.onPartAt n row p f).clock = s.clock := rfl
@[simp] theorem onPartAt_sites (s : State) (n row p : Nat) (f : Part → Part) : (s.onPartAt n row p f).sites = tset Site.reset s.sites n
      { s.site n with parts := tset Part.reset (s.site n).parts (33 * row + p) (f (s.partAt n row p)) } := rfl
@[simp] theorem onPartAt_power (s : State) (n row p : Nat) (f : Part → Part) : (s.onPartAt n row p f).power = s.power := rfl
@[simp] theorem onPartAt_lead (s : State) (n row p : Nat) (f : Part → Part) : (s.onPartAt n row p f).lead = s.lead := rfl
@[simp] theorem onPartAt_pages (s : State) (n row p : Nat) (f : Part → Part) : (s.onPartAt n row p f).pages = s.pages := rfl
@[simp] theorem onPartAt_links (s : State) (n row p : Nat) (f : Part → Part) : (s.onPartAt n row p f).links = s.links := rfl
@[simp] theorem onPartAt_boat (s : State) (n row p : Nat) (f : Part → Part) : (s.onPartAt n row p f).boat = s.boat := rfl
@[simp] theorem onPartAt_agenda (s : State) (n row p : Nat) (f : Part → Part) : (s.onPartAt n row p f).agenda = s.agenda := rfl
@[simp] theorem onPartAt_met (s : State) (n row p : Nat) (f : Part → Part) : (s.onPartAt n row p f).met = s.met := rfl
@[simp] theorem onPartAt_draws (s : State) (n row p : Nat) (f : Part → Part) : (s.onPartAt n row p f).draws = s.draws := rfl

/-! onPart -/

@[simp] theorem onPart_here (s : State) (k : Nat) (f : Part → Part) : (s.onPart k f).here = s.here := rfl
@[simp] theorem onPart_core (s : State) (k : Nat) (f : Part → Part) : (s.onPart k f).core = s.core := rfl
@[simp] theorem onPart_peers (s : State) (k : Nat) (f : Part → Part) : (s.onPart k f).peers = s.peers := rfl
@[simp] theorem onPart_mem (s : State) (k : Nat) (f : Part → Part) : (s.onPart k f).mem = s.mem := rfl
@[simp] theorem onPart_pois (s : State) (k : Nat) (f : Part → Part) : (s.onPart k f).pois = s.pois := rfl
@[simp] theorem onPart_tags (s : State) (k : Nat) (f : Part → Part) : (s.onPart k f).tags = s.tags := rfl
@[simp] theorem onPart_nodes (s : State) (k : Nat) (f : Part → Part) : (s.onPart k f).nodes = s.nodes := rfl
@[simp] theorem onPart_net (s : State) (k : Nat) (f : Part → Part) : (s.onPart k f).net = s.net := rfl
@[simp] theorem onPart_queued (s : State) (k : Nat) (f : Part → Part) : (s.onPart k f).queued = s.queued := rfl
@[simp] theorem onPart_out (s : State) (k : Nat) (f : Part → Part) : (s.onPart k f).out = s.out := rfl
@[simp] theorem onPart_clock (s : State) (k : Nat) (f : Part → Part) : (s.onPart k f).clock = s.clock := rfl
@[simp] theorem onPart_power (s : State) (k : Nat) (f : Part → Part) : (s.onPart k f).power = s.power := rfl
@[simp] theorem onPart_lead (s : State) (k : Nat) (f : Part → Part) : (s.onPart k f).lead = s.lead := rfl
@[simp] theorem onPart_pages (s : State) (k : Nat) (f : Part → Part) : (s.onPart k f).pages = s.pages := rfl
@[simp] theorem onPart_links (s : State) (k : Nat) (f : Part → Part) : (s.onPart k f).links = s.links := rfl
@[simp] theorem onPart_boat (s : State) (k : Nat) (f : Part → Part) : (s.onPart k f).boat = s.boat := rfl
@[simp] theorem onPart_agenda (s : State) (k : Nat) (f : Part → Part) : (s.onPart k f).agenda = s.agenda := rfl
@[simp] theorem onPart_met (s : State) (k : Nat) (f : Part → Part) : (s.onPart k f).met = s.met := rfl
@[simp] theorem onPart_draws (s : State) (k : Nat) (f : Part → Part) : (s.onPart k f).draws = s.draws := rfl

/-! onRec -/

@[simp] theorem onRec_here (s : State) (n i : Nat) (f : FaultRec → FaultRec) : (s.onRec n i f).here = s.here := rfl
@[simp] theorem onRec_core (s : State) (n i : Nat) (f : FaultRec → FaultRec) : (s.onRec n i f).core = s.core := rfl
@[simp] theorem onRec_peers (s : State) (n i : Nat) (f : FaultRec → FaultRec) : (s.onRec n i f).peers = s.peers := rfl
@[simp] theorem onRec_mem (s : State) (n i : Nat) (f : FaultRec → FaultRec) : (s.onRec n i f).mem = s.mem := rfl
@[simp] theorem onRec_pois (s : State) (n i : Nat) (f : FaultRec → FaultRec) : (s.onRec n i f).pois = s.pois := rfl
@[simp] theorem onRec_tags (s : State) (n i : Nat) (f : FaultRec → FaultRec) : (s.onRec n i f).tags = s.tags := rfl
@[simp] theorem onRec_nodes (s : State) (n i : Nat) (f : FaultRec → FaultRec) : (s.onRec n i f).nodes = s.nodes := rfl
@[simp] theorem onRec_net (s : State) (n i : Nat) (f : FaultRec → FaultRec) : (s.onRec n i f).net = s.net := rfl
@[simp] theorem onRec_queued (s : State) (n i : Nat) (f : FaultRec → FaultRec) : (s.onRec n i f).queued = s.queued := rfl
@[simp] theorem onRec_out (s : State) (n i : Nat) (f : FaultRec → FaultRec) : (s.onRec n i f).out = s.out := rfl
@[simp] theorem onRec_clock (s : State) (n i : Nat) (f : FaultRec → FaultRec) : (s.onRec n i f).clock = s.clock := rfl
@[simp] theorem onRec_sites (s : State) (n i : Nat) (f : FaultRec → FaultRec) : (s.onRec n i f).sites = tset Site.reset s.sites n
      { s.site n with faults := tset FaultRec.free (s.site n).faults i (f (tget FaultRec.free (s.site n).faults i)) } := rfl
@[simp] theorem onRec_power (s : State) (n i : Nat) (f : FaultRec → FaultRec) : (s.onRec n i f).power = s.power := rfl
@[simp] theorem onRec_lead (s : State) (n i : Nat) (f : FaultRec → FaultRec) : (s.onRec n i f).lead = s.lead := rfl
@[simp] theorem onRec_pages (s : State) (n i : Nat) (f : FaultRec → FaultRec) : (s.onRec n i f).pages = s.pages := rfl
@[simp] theorem onRec_links (s : State) (n i : Nat) (f : FaultRec → FaultRec) : (s.onRec n i f).links = s.links := rfl
@[simp] theorem onRec_boat (s : State) (n i : Nat) (f : FaultRec → FaultRec) : (s.onRec n i f).boat = s.boat := rfl
@[simp] theorem onRec_agenda (s : State) (n i : Nat) (f : FaultRec → FaultRec) : (s.onRec n i f).agenda = s.agenda := rfl
@[simp] theorem onRec_met (s : State) (n i : Nat) (f : FaultRec → FaultRec) : (s.onRec n i f).met = s.met := rfl
@[simp] theorem onRec_draws (s : State) (n i : Nat) (f : FaultRec → FaultRec) : (s.onRec n i f).draws = s.draws := rfl

/-! onKern -/

@[simp] theorem onKern_here (s : State) (i : Nat) (f : Kern → Kern) : (s.onKern i f).here = s.here := rfl
@[simp] theorem onKern_core (s : State) (i : Nat) (f : Kern → Kern) : (s.onKern i f).core = s.core := rfl
@[simp] theorem onKern_peers (s : State) (i : Nat) (f : Kern → Kern) : (s.onKern i f).peers = s.peers := rfl
@[simp] theorem onKern_mem (s : State) (i : Nat) (f : Kern → Kern) : (s.onKern i f).mem = s.mem := rfl
@[simp] theorem onKern_pois (s : State) (i : Nat) (f : Kern → Kern) : (s.onKern i f).pois = s.pois := rfl
@[simp] theorem onKern_tags (s : State) (i : Nat) (f : Kern → Kern) : (s.onKern i f).tags = s.tags := rfl
@[simp] theorem onKern_nodes (s : State) (i : Nat) (f : Kern → Kern) : (s.onKern i f).nodes = s.nodes := rfl
@[simp] theorem onKern_net (s : State) (i : Nat) (f : Kern → Kern) : (s.onKern i f).net = s.net := rfl
@[simp] theorem onKern_queued (s : State) (i : Nat) (f : Kern → Kern) : (s.onKern i f).queued = s.queued := rfl
@[simp] theorem onKern_out (s : State) (i : Nat) (f : Kern → Kern) : (s.onKern i f).out = s.out := rfl
@[simp] theorem onKern_clock (s : State) (i : Nat) (f : Kern → Kern) : (s.onKern i f).clock = s.clock := rfl
@[simp] theorem onKern_sites (s : State) (i : Nat) (f : Kern → Kern) : (s.onKern i f).sites = s.sites := rfl
@[simp] theorem onKern_power (s : State) (i : Nat) (f : Kern → Kern) : (s.onKern i f).power = s.power := rfl
@[simp] theorem onKern_lead (s : State) (i : Nat) (f : Kern → Kern) : (s.onKern i f).lead = { s.lead with kernels := tset Kern.reset s.lead.kernels i (f (s.kern i)) } := rfl
@[simp] theorem onKern_pages (s : State) (i : Nat) (f : Kern → Kern) : (s.onKern i f).pages = s.pages := rfl
@[simp] theorem onKern_links (s : State) (i : Nat) (f : Kern → Kern) : (s.onKern i f).links = s.links := rfl
@[simp] theorem onKern_boat (s : State) (i : Nat) (f : Kern → Kern) : (s.onKern i f).boat = s.boat := rfl
@[simp] theorem onKern_agenda (s : State) (i : Nat) (f : Kern → Kern) : (s.onKern i f).agenda = s.agenda := rfl
@[simp] theorem onKern_met (s : State) (i : Nat) (f : Kern → Kern) : (s.onKern i f).met = s.met := rfl
@[simp] theorem onKern_draws (s : State) (i : Nat) (f : Kern → Kern) : (s.onKern i f).draws = s.draws := rfl

/-! onReq -/

@[simp] theorem onReq_here (s : State) (i : Nat) (f : Req → Req) : (s.onReq i f).here = s.here := rfl
@[simp] theorem onReq_core (s : State) (i : Nat) (f : Req → Req) : (s.onReq i f).core = s.core := rfl
@[simp] theorem onReq_peers (s : State) (i : Nat) (f : Req → Req) : (s.onReq i f).peers = s.peers := rfl
@[simp] theorem onReq_mem (s : State) (i : Nat) (f : Req → Req) : (s.onReq i f).mem = s.mem := rfl
@[simp] theorem onReq_pois (s : State) (i : Nat) (f : Req → Req) : (s.onReq i f).pois = s.pois := rfl
@[simp] theorem onReq_tags (s : State) (i : Nat) (f : Req → Req) : (s.onReq i f).tags = s.tags := rfl
@[simp] theorem onReq_nodes (s : State) (i : Nat) (f : Req → Req) : (s.onReq i f).nodes = s.nodes := rfl
@[simp] theorem onReq_net (s : State) (i : Nat) (f : Req → Req) : (s.onReq i f).net = s.net := rfl
@[simp] theorem onReq_queued (s : State) (i : Nat) (f : Req → Req) : (s.onReq i f).queued = s.queued := rfl
@[simp] theorem onReq_out (s : State) (i : Nat) (f : Req → Req) : (s.onReq i f).out = s.out := rfl
@[simp] theorem onReq_clock (s : State) (i : Nat) (f : Req → Req) : (s.onReq i f).clock = s.clock := rfl
@[simp] theorem onReq_sites (s : State) (i : Nat) (f : Req → Req) : (s.onReq i f).sites = s.sites := rfl
@[simp] theorem onReq_power (s : State) (i : Nat) (f : Req → Req) : (s.onReq i f).power = s.power := rfl
@[simp] theorem onReq_lead (s : State) (i : Nat) (f : Req → Req) : (s.onReq i f).lead = { s.lead with reqs := tset Req.reset s.lead.reqs i (f (s.req i)) } := rfl
@[simp] theorem onReq_pages (s : State) (i : Nat) (f : Req → Req) : (s.onReq i f).pages = s.pages := rfl
@[simp] theorem onReq_links (s : State) (i : Nat) (f : Req → Req) : (s.onReq i f).links = s.links := rfl
@[simp] theorem onReq_boat (s : State) (i : Nat) (f : Req → Req) : (s.onReq i f).boat = s.boat := rfl
@[simp] theorem onReq_agenda (s : State) (i : Nat) (f : Req → Req) : (s.onReq i f).agenda = s.agenda := rfl
@[simp] theorem onReq_met (s : State) (i : Nat) (f : Req → Req) : (s.onReq i f).met = s.met := rfl
@[simp] theorem onReq_draws (s : State) (i : Nat) (f : Req → Req) : (s.onReq i f).draws = s.draws := rfl

/-! setStream -/

@[simp] theorem setStream_here (s : State) (k : BitVec 2) (t : Stream) : (s.setStream k t).here = s.here := rfl
@[simp] theorem setStream_peers (s : State) (k : BitVec 2) (t : Stream) : (s.setStream k t).peers = s.peers := rfl
@[simp] theorem setStream_mem (s : State) (k : BitVec 2) (t : Stream) : (s.setStream k t).mem = s.mem := rfl
@[simp] theorem setStream_pois (s : State) (k : BitVec 2) (t : Stream) : (s.setStream k t).pois = s.pois := rfl
@[simp] theorem setStream_tags (s : State) (k : BitVec 2) (t : Stream) : (s.setStream k t).tags = s.tags := rfl
@[simp] theorem setStream_nodes (s : State) (k : BitVec 2) (t : Stream) : (s.setStream k t).nodes = s.nodes := rfl
@[simp] theorem setStream_net (s : State) (k : BitVec 2) (t : Stream) : (s.setStream k t).net = s.net := rfl
@[simp] theorem setStream_queued (s : State) (k : BitVec 2) (t : Stream) : (s.setStream k t).queued = s.queued := rfl
@[simp] theorem setStream_out (s : State) (k : BitVec 2) (t : Stream) : (s.setStream k t).out = s.out := rfl
@[simp] theorem setStream_clock (s : State) (k : BitVec 2) (t : Stream) : (s.setStream k t).clock = s.clock := rfl
@[simp] theorem setStream_sites (s : State) (k : BitVec 2) (t : Stream) : (s.setStream k t).sites = s.sites := rfl
@[simp] theorem setStream_power (s : State) (k : BitVec 2) (t : Stream) : (s.setStream k t).power = s.power := rfl
@[simp] theorem setStream_lead (s : State) (k : BitVec 2) (t : Stream) : (s.setStream k t).lead = s.lead := rfl
@[simp] theorem setStream_pages (s : State) (k : BitVec 2) (t : Stream) : (s.setStream k t).pages = s.pages := rfl
@[simp] theorem setStream_links (s : State) (k : BitVec 2) (t : Stream) : (s.setStream k t).links = s.links := rfl
@[simp] theorem setStream_boat (s : State) (k : BitVec 2) (t : Stream) : (s.setStream k t).boat = s.boat := rfl
@[simp] theorem setStream_agenda (s : State) (k : BitVec 2) (t : Stream) : (s.setStream k t).agenda = s.agenda := rfl
@[simp] theorem setStream_met (s : State) (k : BitVec 2) (t : Stream) : (s.setStream k t).met = s.met := rfl
@[simp] theorem setStream_draws (s : State) (k : BitVec 2) (t : Stream) : (s.setStream k t).draws = s.draws := rfl
@[simp] theorem setStream_core_regs (s : State) (k : BitVec 2) (t : Stream) : (s.setStream k t).core.regs = s.core.regs := rfl
@[simp] theorem setStream_core_ctl (s : State) (k : BitVec 2) (t : Stream) : (s.setStream k t).core.ctl = s.core.ctl := rfl
@[simp] theorem setStream_core_slots (s : State) (k : BitVec 2) (t : Stream) : (s.setStream k t).core.slots = s.core.slots := rfl
@[simp] theorem setStream_core_eng (s : State) (k : BitVec 2) (t : Stream) : (s.setStream k t).core.eng = s.core.eng := rfl
@[simp] theorem setStream_core_sh (s : State) (k : BitVec 2) (t : Stream) : (s.setStream k t).core.sh = { s.core.sh with stream := bset s.core.sh.stream k t } := rfl

/-! forgetAhead -/

@[simp] theorem forgetAhead_here (s : State) (k : Nat) (ws : List Nat) : (s.forgetAhead k ws).here = s.here := rfl
@[simp] theorem forgetAhead_peers (s : State) (k : Nat) (ws : List Nat) : (s.forgetAhead k ws).peers = s.peers := rfl
@[simp] theorem forgetAhead_mem (s : State) (k : Nat) (ws : List Nat) : (s.forgetAhead k ws).mem = s.mem := rfl
@[simp] theorem forgetAhead_pois (s : State) (k : Nat) (ws : List Nat) : (s.forgetAhead k ws).pois = s.pois := rfl
@[simp] theorem forgetAhead_tags (s : State) (k : Nat) (ws : List Nat) : (s.forgetAhead k ws).tags = s.tags := rfl
@[simp] theorem forgetAhead_nodes (s : State) (k : Nat) (ws : List Nat) : (s.forgetAhead k ws).nodes = s.nodes := rfl
@[simp] theorem forgetAhead_net (s : State) (k : Nat) (ws : List Nat) : (s.forgetAhead k ws).net = s.net := rfl
@[simp] theorem forgetAhead_queued (s : State) (k : Nat) (ws : List Nat) : (s.forgetAhead k ws).queued = s.queued := rfl
@[simp] theorem forgetAhead_out (s : State) (k : Nat) (ws : List Nat) : (s.forgetAhead k ws).out = s.out := rfl
@[simp] theorem forgetAhead_clock (s : State) (k : Nat) (ws : List Nat) : (s.forgetAhead k ws).clock = s.clock := rfl
@[simp] theorem forgetAhead_sites (s : State) (k : Nat) (ws : List Nat) : (s.forgetAhead k ws).sites = s.sites := rfl
@[simp] theorem forgetAhead_power (s : State) (k : Nat) (ws : List Nat) : (s.forgetAhead k ws).power = s.power := rfl
@[simp] theorem forgetAhead_lead (s : State) (k : Nat) (ws : List Nat) : (s.forgetAhead k ws).lead = s.lead := rfl
@[simp] theorem forgetAhead_pages (s : State) (k : Nat) (ws : List Nat) : (s.forgetAhead k ws).pages = s.pages := rfl
@[simp] theorem forgetAhead_links (s : State) (k : Nat) (ws : List Nat) : (s.forgetAhead k ws).links = s.links := rfl
@[simp] theorem forgetAhead_boat (s : State) (k : Nat) (ws : List Nat) : (s.forgetAhead k ws).boat = s.boat := rfl
@[simp] theorem forgetAhead_agenda (s : State) (k : Nat) (ws : List Nat) : (s.forgetAhead k ws).agenda = s.agenda := rfl
@[simp] theorem forgetAhead_met (s : State) (k : Nat) (ws : List Nat) : (s.forgetAhead k ws).met = s.met := rfl
@[simp] theorem forgetAhead_draws (s : State) (k : Nat) (ws : List Nat) : (s.forgetAhead k ws).draws = s.draws := rfl
@[simp] theorem forgetAhead_core_regs (s : State) (k : Nat) (ws : List Nat) : (s.forgetAhead k ws).core.regs = s.core.regs := rfl
@[simp] theorem forgetAhead_core_ctl (s : State) (k : Nat) (ws : List Nat) : (s.forgetAhead k ws).core.ctl = s.core.ctl := rfl
@[simp] theorem forgetAhead_core_slots (s : State) (k : Nat) (ws : List Nat) : (s.forgetAhead k ws).core.slots = s.core.slots := rfl
@[simp] theorem forgetAhead_core_eng (s : State) (k : Nat) (ws : List Nat) : (s.forgetAhead k ws).core.eng = s.core.eng := rfl
@[simp] theorem forgetAhead_core_sh (s : State) (k : Nat) (ws : List Nat) : (s.forgetAhead k ws).core.sh = { s.core.sh with
      ahead := s.core.sh.ahead.filter fun a => !(a.key == k && ws.contains a.word) } := rfl

/-! fenceAhead -/

@[simp] theorem fenceAhead_here (s : State) : (s.fenceAhead).here = s.here := rfl
@[simp] theorem fenceAhead_peers (s : State) : (s.fenceAhead).peers = s.peers := rfl
@[simp] theorem fenceAhead_mem (s : State) : (s.fenceAhead).mem = s.mem := rfl
@[simp] theorem fenceAhead_pois (s : State) : (s.fenceAhead).pois = s.pois := rfl
@[simp] theorem fenceAhead_tags (s : State) : (s.fenceAhead).tags = s.tags := rfl
@[simp] theorem fenceAhead_nodes (s : State) : (s.fenceAhead).nodes = s.nodes := rfl
@[simp] theorem fenceAhead_net (s : State) : (s.fenceAhead).net = s.net := rfl
@[simp] theorem fenceAhead_queued (s : State) : (s.fenceAhead).queued = s.queued := rfl
@[simp] theorem fenceAhead_out (s : State) : (s.fenceAhead).out = s.out := rfl
@[simp] theorem fenceAhead_clock (s : State) : (s.fenceAhead).clock = s.clock := rfl
@[simp] theorem fenceAhead_sites (s : State) : (s.fenceAhead).sites = s.sites := rfl
@[simp] theorem fenceAhead_power (s : State) : (s.fenceAhead).power = s.power := rfl
@[simp] theorem fenceAhead_lead (s : State) : (s.fenceAhead).lead = s.lead := rfl
@[simp] theorem fenceAhead_pages (s : State) : (s.fenceAhead).pages = s.pages := rfl
@[simp] theorem fenceAhead_links (s : State) : (s.fenceAhead).links = s.links := rfl
@[simp] theorem fenceAhead_boat (s : State) : (s.fenceAhead).boat = s.boat := rfl
@[simp] theorem fenceAhead_agenda (s : State) : (s.fenceAhead).agenda = s.agenda := rfl
@[simp] theorem fenceAhead_met (s : State) : (s.fenceAhead).met = s.met := rfl
@[simp] theorem fenceAhead_draws (s : State) : (s.fenceAhead).draws = s.draws := rfl
@[simp] theorem fenceAhead_core_regs (s : State) : (s.fenceAhead).core.regs = s.core.regs := rfl
@[simp] theorem fenceAhead_core_ctl (s : State) : (s.fenceAhead).core.ctl = s.core.ctl := rfl
@[simp] theorem fenceAhead_core_slots (s : State) : (s.fenceAhead).core.slots = s.core.slots := rfl
@[simp] theorem fenceAhead_core_eng (s : State) : (s.fenceAhead).core.eng = s.core.eng := rfl
@[simp] theorem fenceAhead_core_sh (s : State) : (s.fenceAhead).core.sh = { s.core.sh with ahead := [] } := rfl

/-! onLink -/

@[simp] theorem onLink_here (s : State) (i : Nat) (f : Link → Link) : (s.onLink i f).here = s.here := by
  unfold State.onLink; split <;> rfl
@[simp] theorem onLink_core (s : State) (i : Nat) (f : Link → Link) : (s.onLink i f).core = s.core := by
  unfold State.onLink; split <;> rfl
@[simp] theorem onLink_peers (s : State) (i : Nat) (f : Link → Link) : (s.onLink i f).peers = s.peers := by
  unfold State.onLink; split <;> rfl
@[simp] theorem onLink_mem (s : State) (i : Nat) (f : Link → Link) : (s.onLink i f).mem = s.mem := by
  unfold State.onLink; split <;> rfl
@[simp] theorem onLink_pois (s : State) (i : Nat) (f : Link → Link) : (s.onLink i f).pois = s.pois := by
  unfold State.onLink; split <;> rfl
@[simp] theorem onLink_tags (s : State) (i : Nat) (f : Link → Link) : (s.onLink i f).tags = s.tags := by
  unfold State.onLink; split <;> rfl
@[simp] theorem onLink_nodes (s : State) (i : Nat) (f : Link → Link) : (s.onLink i f).nodes = s.nodes := by
  unfold State.onLink; split <;> rfl
@[simp] theorem onLink_net (s : State) (i : Nat) (f : Link → Link) : (s.onLink i f).net = s.net := by
  unfold State.onLink; split <;> rfl
@[simp] theorem onLink_queued (s : State) (i : Nat) (f : Link → Link) : (s.onLink i f).queued = s.queued := by
  unfold State.onLink; split <;> rfl
@[simp] theorem onLink_out (s : State) (i : Nat) (f : Link → Link) : (s.onLink i f).out = s.out := by
  unfold State.onLink; split <;> rfl
@[simp] theorem onLink_clock (s : State) (i : Nat) (f : Link → Link) : (s.onLink i f).clock = s.clock := by
  unfold State.onLink; split <;> rfl
@[simp] theorem onLink_sites (s : State) (i : Nat) (f : Link → Link) : (s.onLink i f).sites = s.sites := by
  unfold State.onLink; split <;> rfl
@[simp] theorem onLink_power (s : State) (i : Nat) (f : Link → Link) : (s.onLink i f).power = s.power := by
  unfold State.onLink; split <;> rfl
@[simp] theorem onLink_lead (s : State) (i : Nat) (f : Link → Link) : (s.onLink i f).lead = s.lead := by
  unfold State.onLink; split <;> rfl
@[simp] theorem onLink_pages (s : State) (i : Nat) (f : Link → Link) : (s.onLink i f).pages = s.pages := by
  unfold State.onLink; split <;> rfl
@[simp] theorem onLink_boat (s : State) (i : Nat) (f : Link → Link) : (s.onLink i f).boat = s.boat := by
  unfold State.onLink; split <;> rfl
@[simp] theorem onLink_agenda (s : State) (i : Nat) (f : Link → Link) : (s.onLink i f).agenda = s.agenda := by
  unfold State.onLink; split <;> rfl
@[simp] theorem onLink_met (s : State) (i : Nat) (f : Link → Link) : (s.onLink i f).met = s.met := by
  unfold State.onLink; split <;> rfl
@[simp] theorem onLink_draws (s : State) (i : Nat) (f : Link → Link) : (s.onLink i f).draws = s.draws := by
  unfold State.onLink; split <;> rfl

/-! tick -/

@[simp] theorem tick_here (s : State) : (s.tick).here = s.here := rfl
@[simp] theorem tick_mem (s : State) : (s.tick).mem = s.mem := rfl
@[simp] theorem tick_pois (s : State) : (s.tick).pois = s.pois := rfl
@[simp] theorem tick_tags (s : State) : (s.tick).tags = s.tags := rfl
@[simp] theorem tick_nodes (s : State) : (s.tick).nodes = s.nodes := rfl
@[simp] theorem tick_net (s : State) : (s.tick).net = s.net := rfl
@[simp] theorem tick_queued (s : State) : (s.tick).queued = s.queued := rfl
@[simp] theorem tick_out (s : State) : (s.tick).out = s.out := rfl
@[simp] theorem tick_sites (s : State) : (s.tick).sites = s.sites := rfl
@[simp] theorem tick_power (s : State) : (s.tick).power = s.power := rfl
@[simp] theorem tick_lead (s : State) : (s.tick).lead = s.lead := rfl
@[simp] theorem tick_pages (s : State) : (s.tick).pages = s.pages := rfl
@[simp] theorem tick_links (s : State) : (s.tick).links = s.links := rfl
@[simp] theorem tick_boat (s : State) : (s.tick).boat = s.boat := rfl
@[simp] theorem tick_agenda (s : State) : (s.tick).agenda = s.agenda := rfl
@[simp] theorem tick_met (s : State) : (s.tick).met = s.met := rfl
@[simp] theorem tick_draws (s : State) : s.tick.draws = s.draws + 1 := rfl

/-! vote -/

@[simp] theorem vote_here (s : State) (n : Nat) : (s.vote n).here = s.here := rfl
@[simp] theorem vote_core (s : State) (n : Nat) : (s.vote n).core = s.core := rfl
@[simp] theorem vote_peers (s : State) (n : Nat) : (s.vote n).peers = s.peers := rfl
@[simp] theorem vote_mem (s : State) (n : Nat) : (s.vote n).mem = s.mem := rfl
@[simp] theorem vote_pois (s : State) (n : Nat) : (s.vote n).pois = s.pois := rfl
@[simp] theorem vote_tags (s : State) (n : Nat) : (s.vote n).tags = s.tags := rfl
@[simp] theorem vote_nodes (s : State) (n : Nat) : (s.vote n).nodes = s.nodes := rfl
@[simp] theorem vote_net (s : State) (n : Nat) : (s.vote n).net = s.net := rfl
@[simp] theorem vote_queued (s : State) (n : Nat) : (s.vote n).queued = s.queued := rfl
@[simp] theorem vote_out (s : State) (n : Nat) : (s.vote n).out = s.out := rfl
@[simp] theorem vote_clock (s : State) (n : Nat) : (s.vote n).clock = s.clock := rfl
@[simp] theorem vote_sites (s : State) (n : Nat) : (s.vote n).sites = tset Site.reset s.sites n { s.site n with triad := (s.site n).triad.vote s.clock.ticks 0 } := rfl
@[simp] theorem vote_power (s : State) (n : Nat) : (s.vote n).power = s.power := rfl
@[simp] theorem vote_lead (s : State) (n : Nat) : (s.vote n).lead = s.lead := rfl
@[simp] theorem vote_pages (s : State) (n : Nat) : (s.vote n).pages = s.pages := rfl
@[simp] theorem vote_links (s : State) (n : Nat) : (s.vote n).links = s.links := rfl
@[simp] theorem vote_boat (s : State) (n : Nat) : (s.vote n).boat = s.boat := rfl
@[simp] theorem vote_agenda (s : State) (n : Nat) : (s.vote n).agenda = s.agenda := rfl
@[simp] theorem vote_met (s : State) (n : Nat) : (s.vote n).met = s.met := rfl
@[simp] theorem vote_draws (s : State) (n : Nat) : (s.vote n).draws = s.draws := rfl

/-! onRigs -/

@[simp] theorem onRigs_here (s : State) (f : Rigs → Rigs) : (s.onRigs f).here = s.here := rfl
@[simp] theorem onRigs_peers (s : State) (f : Rigs → Rigs) : (s.onRigs f).peers = s.peers := rfl
@[simp] theorem onRigs_mem (s : State) (f : Rigs → Rigs) : (s.onRigs f).mem = s.mem := rfl
@[simp] theorem onRigs_pois (s : State) (f : Rigs → Rigs) : (s.onRigs f).pois = s.pois := rfl
@[simp] theorem onRigs_tags (s : State) (f : Rigs → Rigs) : (s.onRigs f).tags = s.tags := rfl
@[simp] theorem onRigs_nodes (s : State) (f : Rigs → Rigs) : (s.onRigs f).nodes = s.nodes := rfl
@[simp] theorem onRigs_net (s : State) (f : Rigs → Rigs) : (s.onRigs f).net = s.net := rfl
@[simp] theorem onRigs_queued (s : State) (f : Rigs → Rigs) : (s.onRigs f).queued = s.queued := rfl
@[simp] theorem onRigs_out (s : State) (f : Rigs → Rigs) : (s.onRigs f).out = s.out := rfl
@[simp] theorem onRigs_clock (s : State) (f : Rigs → Rigs) : (s.onRigs f).clock = s.clock := rfl
@[simp] theorem onRigs_sites (s : State) (f : Rigs → Rigs) : (s.onRigs f).sites = s.sites := rfl
@[simp] theorem onRigs_power (s : State) (f : Rigs → Rigs) : (s.onRigs f).power = s.power := rfl
@[simp] theorem onRigs_lead (s : State) (f : Rigs → Rigs) : (s.onRigs f).lead = s.lead := rfl
@[simp] theorem onRigs_pages (s : State) (f : Rigs → Rigs) : (s.onRigs f).pages = s.pages := rfl
@[simp] theorem onRigs_links (s : State) (f : Rigs → Rigs) : (s.onRigs f).links = s.links := rfl
@[simp] theorem onRigs_boat (s : State) (f : Rigs → Rigs) : (s.onRigs f).boat = s.boat := rfl
@[simp] theorem onRigs_agenda (s : State) (f : Rigs → Rigs) : (s.onRigs f).agenda = s.agenda := rfl
@[simp] theorem onRigs_met (s : State) (f : Rigs → Rigs) : (s.onRigs f).met = s.met := rfl
@[simp] theorem onRigs_draws (s : State) (f : Rigs → Rigs) : (s.onRigs f).draws = s.draws := rfl
@[simp] theorem onRigs_core_regs (s : State) (f : Rigs → Rigs) : (s.onRigs f).core.regs = { s.core.regs with rigs := f s.core.regs.rigs } := rfl
@[simp] theorem onRigs_core_ctl (s : State) (f : Rigs → Rigs) : (s.onRigs f).core.ctl = s.core.ctl := rfl
@[simp] theorem onRigs_core_slots (s : State) (f : Rigs → Rigs) : (s.onRigs f).core.slots = s.core.slots := rfl
@[simp] theorem onRigs_core_eng (s : State) (f : Rigs → Rigs) : (s.onRigs f).core.eng = s.core.eng := rfl
@[simp] theorem onRigs_core_sh (s : State) (f : Rigs → Rigs) : (s.onRigs f).core.sh = s.core.sh := rfl

/-! onBid -/

@[simp] theorem onBid_here (s : State) (w : BidFor) (f : Bid → Bid) : (s.onBid w f).here = s.here := rfl
@[simp] theorem onBid_core (s : State) (w : BidFor) (f : Bid → Bid) : (s.onBid w f).core = s.core := rfl
@[simp] theorem onBid_peers (s : State) (w : BidFor) (f : Bid → Bid) : (s.onBid w f).peers = s.peers := rfl
@[simp] theorem onBid_mem (s : State) (w : BidFor) (f : Bid → Bid) : (s.onBid w f).mem = s.mem := rfl
@[simp] theorem onBid_pois (s : State) (w : BidFor) (f : Bid → Bid) : (s.onBid w f).pois = s.pois := rfl
@[simp] theorem onBid_tags (s : State) (w : BidFor) (f : Bid → Bid) : (s.onBid w f).tags = s.tags := rfl
@[simp] theorem onBid_nodes (s : State) (w : BidFor) (f : Bid → Bid) : (s.onBid w f).nodes = s.nodes := rfl
@[simp] theorem onBid_net (s : State) (w : BidFor) (f : Bid → Bid) : (s.onBid w f).net = s.net := rfl
@[simp] theorem onBid_queued (s : State) (w : BidFor) (f : Bid → Bid) : (s.onBid w f).queued = s.queued := rfl
@[simp] theorem onBid_out (s : State) (w : BidFor) (f : Bid → Bid) : (s.onBid w f).out = s.out := rfl
@[simp] theorem onBid_clock (s : State) (w : BidFor) (f : Bid → Bid) : (s.onBid w f).clock = s.clock := rfl
@[simp] theorem onBid_sites (s : State) (w : BidFor) (f : Bid → Bid) : (s.onBid w f).sites = s.sites := rfl
@[simp] theorem onBid_power (s : State) (w : BidFor) (f : Bid → Bid) : (s.onBid w f).power = s.power := rfl
@[simp] theorem onBid_lead (s : State) (w : BidFor) (f : Bid → Bid) : (s.onBid w f).lead = { s.lead with bids := mapFirst (·.what == w) f s.lead.bids } := rfl
@[simp] theorem onBid_pages (s : State) (w : BidFor) (f : Bid → Bid) : (s.onBid w f).pages = s.pages := rfl
@[simp] theorem onBid_links (s : State) (w : BidFor) (f : Bid → Bid) : (s.onBid w f).links = s.links := rfl
@[simp] theorem onBid_boat (s : State) (w : BidFor) (f : Bid → Bid) : (s.onBid w f).boat = s.boat := rfl
@[simp] theorem onBid_agenda (s : State) (w : BidFor) (f : Bid → Bid) : (s.onBid w f).agenda = s.agenda := rfl
@[simp] theorem onBid_met (s : State) (w : BidFor) (f : Bid → Bid) : (s.onBid w f).met = s.met := rfl
@[simp] theorem onBid_draws (s : State) (w : BidFor) (f : Bid → Bid) : (s.onBid w f).draws = s.draws := rfl

/-! setLeg -/

@[simp] theorem setLeg_here (s : State) (k : BitVec 2) (i : Nat) (l : Leg) : (s.setLeg k i l).here = s.here := rfl
@[simp] theorem setLeg_peers (s : State) (k : BitVec 2) (i : Nat) (l : Leg) : (s.setLeg k i l).peers = s.peers := rfl
@[simp] theorem setLeg_mem (s : State) (k : BitVec 2) (i : Nat) (l : Leg) : (s.setLeg k i l).mem = s.mem := rfl
@[simp] theorem setLeg_pois (s : State) (k : BitVec 2) (i : Nat) (l : Leg) : (s.setLeg k i l).pois = s.pois := rfl
@[simp] theorem setLeg_tags (s : State) (k : BitVec 2) (i : Nat) (l : Leg) : (s.setLeg k i l).tags = s.tags := rfl
@[simp] theorem setLeg_nodes (s : State) (k : BitVec 2) (i : Nat) (l : Leg) : (s.setLeg k i l).nodes = s.nodes := rfl
@[simp] theorem setLeg_net (s : State) (k : BitVec 2) (i : Nat) (l : Leg) : (s.setLeg k i l).net = s.net := rfl
@[simp] theorem setLeg_queued (s : State) (k : BitVec 2) (i : Nat) (l : Leg) : (s.setLeg k i l).queued = s.queued := rfl
@[simp] theorem setLeg_out (s : State) (k : BitVec 2) (i : Nat) (l : Leg) : (s.setLeg k i l).out = s.out := rfl
@[simp] theorem setLeg_clock (s : State) (k : BitVec 2) (i : Nat) (l : Leg) : (s.setLeg k i l).clock = s.clock := rfl
@[simp] theorem setLeg_sites (s : State) (k : BitVec 2) (i : Nat) (l : Leg) : (s.setLeg k i l).sites = s.sites := rfl
@[simp] theorem setLeg_power (s : State) (k : BitVec 2) (i : Nat) (l : Leg) : (s.setLeg k i l).power = s.power := rfl
@[simp] theorem setLeg_lead (s : State) (k : BitVec 2) (i : Nat) (l : Leg) : (s.setLeg k i l).lead = s.lead := rfl
@[simp] theorem setLeg_pages (s : State) (k : BitVec 2) (i : Nat) (l : Leg) : (s.setLeg k i l).pages = s.pages := rfl
@[simp] theorem setLeg_links (s : State) (k : BitVec 2) (i : Nat) (l : Leg) : (s.setLeg k i l).links = s.links := rfl
@[simp] theorem setLeg_boat (s : State) (k : BitVec 2) (i : Nat) (l : Leg) : (s.setLeg k i l).boat = s.boat := rfl
@[simp] theorem setLeg_agenda (s : State) (k : BitVec 2) (i : Nat) (l : Leg) : (s.setLeg k i l).agenda = s.agenda := rfl
@[simp] theorem setLeg_met (s : State) (k : BitVec 2) (i : Nat) (l : Leg) : (s.setLeg k i l).met = s.met := rfl
@[simp] theorem setLeg_draws (s : State) (k : BitVec 2) (i : Nat) (l : Leg) : (s.setLeg k i l).draws = s.draws := rfl
@[simp] theorem setLeg_core_regs (s : State) (k : BitVec 2) (i : Nat) (l : Leg) : (s.setLeg k i l).core.regs = s.core.regs := rfl
@[simp] theorem setLeg_core_ctl (s : State) (k : BitVec 2) (i : Nat) (l : Leg) : (s.setLeg k i l).core.ctl = s.core.ctl := rfl
@[simp] theorem setLeg_core_slots (s : State) (k : BitVec 2) (i : Nat) (l : Leg) : (s.setLeg k i l).core.slots = s.core.slots := rfl
@[simp] theorem setLeg_core_eng (s : State) (k : BitVec 2) (i : Nat) (l : Leg) : (s.setLeg k i l).core.eng = s.core.eng := rfl

/-! ## Reads of registers after updates -/

/-- A vector after a write at a bit-vector index. -/
theorem bget_bset {α : Type} {n k : Nat} (v : Vector α k) (i j : BitVec n) (x : α) (h : 2 ^ n ≤ k) :
    bget (bset v i x h) j h = if j = i then x else bget v j h := by
  unfold bget bset
  rw [Vector.getElem_set]
  by_cases e : j = i
  · subst e; simp
  · have : i.toNat ≠ j.toNat := fun q => e (BitVec.eq_of_toNat_eq q.symm)
    simp [this, e]

@[simp] theorem bget_bset_self {α : Type} {n k : Nat} (v : Vector α k) (i : BitVec n) (x : α) (h : 2 ^ n ≤ k) :
    bget (bset v i x h) i h = x := by simp [bget_bset]

@[simp] theorem setG_gv (s : State) (d : GR) (v : BitVec 64) (p : Bool) : (s.setG d v p).gv d = v := by
  simp [State.gv, State.setG]
@[simp] theorem setG_gp (s : State) (d : GR) (v : BitVec 64) (p : Bool) : (s.setG d v p).gp d = p := by
  simp [State.gp, State.setG]
theorem setG_gv_ne (s : State) (d r : GR) (v : BitVec 64) (p : Bool) (h : r ≠ d) : (s.setG d v p).gv r = s.gv r := by
  simp [State.gv, State.setG, bget_bset, h]
theorem setG_gp_ne (s : State) (d r : GR) (v : BitVec 64) (p : Bool) (h : r ≠ d) : (s.setG d v p).gp r = s.gp r := by
  simp [State.gp, State.setG, bget_bset, h]
@[simp] theorem setV_vr (s : State) (d : VR) (x : VReg) : (s.setV d x).vr d = x := by
  simp [State.vr, State.setV]
theorem setV_vr_ne (s : State) (d r : VR) (x : VReg) (h : r ≠ d) : (s.setV d x).vr r = s.vr r := by
  simp [State.vr, State.setV, bget_bset, h]
@[simp] theorem setM_mr (s : State) (d : MR) (x : BitVec 64) : (s.setM d x).mr d = x := by
  simp [State.mr, State.setM]
theorem setM_mr_ne (s : State) (d r : MR) (x : BitVec 64) (h : r ≠ d) : (s.setM d x).mr r = s.mr r := by
  simp [State.mr, State.setM, bget_bset, h]

@[simp] theorem onCtl_gv (s : State) (f : Ctl → Ctl) (q : GR) : (s.onCtl f).gv q = s.gv q := rfl
@[simp] theorem onEng_gv (s : State) (f : Engines → Engines) (q : GR) : (s.onEng f).gv q = s.gv q := rfl
@[simp] theorem onSh_gv (s : State) (f : Shared → Shared) (q : GR) : (s.onSh f).gv q = s.gv q := rfl
@[simp] theorem setV_gv (s : State) (r : VR) (x : VReg) (q : GR) : (s.setV r x).gv q = s.gv q := rfl
@[simp] theorem setM_gv (s : State) (r : MR) (x : BitVec 64) (q : GR) : (s.setM r x).gv q = s.gv q := rfl
@[simp] theorem orFlags_gv (s : State) (f : BitVec 6) (q : GR) : (s.orFlags f).gv q = s.gv q := rfl
@[simp] theorem count_gv (s : State) (e : Nat) (q : GR) : (s.count e).gv q = s.gv q := rfl
@[simp] theorem commit_gv (s : State) (n : Nat) (q : GR) : (s.commit n).gv q = s.gv q := rfl
@[simp] theorem commitTo_gv (s : State) (a : BitVec 16) (q : GR) : (s.commitTo a).gv q = s.gv q := rfl
@[simp] theorem holdIssue_gv (s : State) (q : GR) : (s.holdIssue).gv q = s.gv q := rfl
@[simp] theorem onSlot_gv (s : State) (f : Slot → Slot) (q : GR) : (s.onSlot f).gv q = s.gv q := rfl
@[simp] theorem takeCount_gv (s : State) (w : WC) (n : BitVec 16) (q : GR) : (s.takeCount w n).gv q = s.gv q := rfl
@[simp] theorem onCtl_gp (s : State) (f : Ctl → Ctl) (q : GR) : (s.onCtl f).gp q = s.gp q := rfl
@[simp] theorem onEng_gp (s : State) (f : Engines → Engines) (q : GR) : (s.onEng f).gp q = s.gp q := rfl
@[simp] theorem onSh_gp (s : State) (f : Shared → Shared) (q : GR) : (s.onSh f).gp q = s.gp q := rfl
@[simp] theorem setV_gp (s : State) (r : VR) (x : VReg) (q : GR) : (s.setV r x).gp q = s.gp q := rfl
@[simp] theorem setM_gp (s : State) (r : MR) (x : BitVec 64) (q : GR) : (s.setM r x).gp q = s.gp q := rfl
@[simp] theorem orFlags_gp (s : State) (f : BitVec 6) (q : GR) : (s.orFlags f).gp q = s.gp q := rfl
@[simp] theorem count_gp (s : State) (e : Nat) (q : GR) : (s.count e).gp q = s.gp q := rfl
@[simp] theorem commit_gp (s : State) (n : Nat) (q : GR) : (s.commit n).gp q = s.gp q := rfl
@[simp] theorem commitTo_gp (s : State) (a : BitVec 16) (q : GR) : (s.commitTo a).gp q = s.gp q := rfl
@[simp] theorem holdIssue_gp (s : State) (q : GR) : (s.holdIssue).gp q = s.gp q := rfl
@[simp] theorem onSlot_gp (s : State) (f : Slot → Slot) (q : GR) : (s.onSlot f).gp q = s.gp q := rfl
@[simp] theorem takeCount_gp (s : State) (w : WC) (n : BitVec 16) (q : GR) : (s.takeCount w n).gp q = s.gp q := rfl
@[simp] theorem onCtl_vr (s : State) (f : Ctl → Ctl) (q : VR) : (s.onCtl f).vr q = s.vr q := rfl
@[simp] theorem onEng_vr (s : State) (f : Engines → Engines) (q : VR) : (s.onEng f).vr q = s.vr q := rfl
@[simp] theorem onSh_vr (s : State) (f : Shared → Shared) (q : VR) : (s.onSh f).vr q = s.vr q := rfl
@[simp] theorem setG_vr (s : State) (r : GR) (v : BitVec 64) (p : Bool) (q : VR) : (s.setG r v p).vr q = s.vr q := rfl
@[simp] theorem setM_vr (s : State) (r : MR) (x : BitVec 64) (q : VR) : (s.setM r x).vr q = s.vr q := rfl
@[simp] theorem orFlags_vr (s : State) (f : BitVec 6) (q : VR) : (s.orFlags f).vr q = s.vr q := rfl
@[simp] theorem count_vr (s : State) (e : Nat) (q : VR) : (s.count e).vr q = s.vr q := rfl
@[simp] theorem commit_vr (s : State) (n : Nat) (q : VR) : (s.commit n).vr q = s.vr q := rfl
@[simp] theorem commitTo_vr (s : State) (a : BitVec 16) (q : VR) : (s.commitTo a).vr q = s.vr q := rfl
@[simp] theorem holdIssue_vr (s : State) (q : VR) : (s.holdIssue).vr q = s.vr q := rfl
@[simp] theorem onSlot_vr (s : State) (f : Slot → Slot) (q : VR) : (s.onSlot f).vr q = s.vr q := rfl
@[simp] theorem status_vr (s : State) (d : GR) (v : BitVec 64) (q : VR) : (s.status d v).vr q = s.vr q := rfl
@[simp] theorem onCtl_mr (s : State) (f : Ctl → Ctl) (q : MR) : (s.onCtl f).mr q = s.mr q := rfl
@[simp] theorem onEng_mr (s : State) (f : Engines → Engines) (q : MR) : (s.onEng f).mr q = s.mr q := rfl
@[simp] theorem onSh_mr (s : State) (f : Shared → Shared) (q : MR) : (s.onSh f).mr q = s.mr q := rfl
@[simp] theorem setG_mr (s : State) (r : GR) (v : BitVec 64) (p : Bool) (q : MR) : (s.setG r v p).mr q = s.mr q := rfl
@[simp] theorem setV_mr (s : State) (r : VR) (x : VReg) (q : MR) : (s.setV r x).mr q = s.mr q := rfl
@[simp] theorem orFlags_mr (s : State) (f : BitVec 6) (q : MR) : (s.orFlags f).mr q = s.mr q := rfl
@[simp] theorem count_mr (s : State) (e : Nat) (q : MR) : (s.count e).mr q = s.mr q := rfl
@[simp] theorem commit_mr (s : State) (n : Nat) (q : MR) : (s.commit n).mr q = s.mr q := rfl
@[simp] theorem commitTo_mr (s : State) (a : BitVec 16) (q : MR) : (s.commitTo a).mr q = s.mr q := rfl
@[simp] theorem holdIssue_mr (s : State) (q : MR) : (s.holdIssue).mr q = s.mr q := rfl
@[simp] theorem onSlot_mr (s : State) (f : Slot → Slot) (q : MR) : (s.onSlot f).mr q = s.mr q := rfl
@[simp] theorem status_mr (s : State) (d : GR) (v : BitVec 64) (q : MR) : (s.status d v).mr q = s.mr q := rfl
@[simp] theorem onCtl_fpcr (s : State) (f : Ctl → Ctl) : (s.onCtl f).fpcr = s.fpcr := rfl
@[simp] theorem onEng_fpcr (s : State) (f : Engines → Engines) : (s.onEng f).fpcr = s.fpcr := rfl
@[simp] theorem onSh_fpcr (s : State) (f : Shared → Shared) : (s.onSh f).fpcr = s.fpcr := rfl
@[simp] theorem setG_fpcr (s : State) (r : GR) (v : BitVec 64) (p : Bool) : (s.setG r v p).fpcr = s.fpcr := rfl
@[simp] theorem setV_fpcr (s : State) (r : VR) (x : VReg) : (s.setV r x).fpcr = s.fpcr := rfl
@[simp] theorem setM_fpcr (s : State) (r : MR) (x : BitVec 64) : (s.setM r x).fpcr = s.fpcr := rfl
@[simp] theorem count_fpcr (s : State) (e : Nat) : (s.count e).fpcr = s.fpcr := rfl
@[simp] theorem commit_fpcr (s : State) (n : Nat) : (s.commit n).fpcr = s.fpcr := rfl
@[simp] theorem commitTo_fpcr (s : State) (a : BitVec 16) : (s.commitTo a).fpcr = s.fpcr := rfl
@[simp] theorem holdIssue_fpcr (s : State) : (s.holdIssue).fpcr = s.fpcr := rfl
@[simp] theorem onSlot_fpcr (s : State) (f : Slot → Slot) : (s.onSlot f).fpcr = s.fpcr := rfl
@[simp] theorem status_fpcr (s : State) (d : GR) (v : BitVec 64) : (s.status d v).fpcr = s.fpcr := rfl
@[simp] theorem orFlags_fpcr (s : State) (f : BitVec 6) : (s.orFlags f).fpcr = s.fpcr ||| (f.setWidth 14 <<< 8) := rfl

/-! ## What a commit and the outcome of a body do -/

/-- A commit passes on by n bytes and counts; nothing else (R9, R53). -/
theorem commit_ctl (s : State) (n : Nat) : (s.commit n).core.ctl = s.ctlAt (s.pc + BitVec.ofNat 16 n) := rfl
/-- A commit to a target (R172). -/
theorem commitTo_ctl (s : State) (a : BitVec 16) : (s.commitTo a).core.ctl = s.ctlAt a := rfl
/-- A body that ends well commits; one that traps takes its cause at the instruction (R54). -/
theorem finish_ok (s t : State) (n : Nat) : s.finish n (.ok t) = .next (t.commit n) := rfl
theorem finish_trap (s : State) (n : Nat) (c : Cause) (v : BitVec 64) :
    s.finish n (.trap c v) = .next (s.takeTrap c v s.pc) := rfl
/-- Whatever a body answers, its instruction answers a next state. -/
theorem finish_next (s : State) (n : Nat) (r : Res) : ∃ t, s.finish n r = .next t := by
  cases r <;> exact ⟨_, rfl⟩

end Sys2Proof.Machine
end

