-- ==== Sys2Proof/Laws/Memory.lean ====
section
/-! SUPPORT. Tables and memory: reads after writes, what a write leaves, and that every operation keeps
the canonical form. -/

namespace Sys2Proof.Machine

/-! ## Tables -/

theorem tget_tins {α : Type} (d v : α) (t : Tbl α) (k j : Nat) :
    tget d (tins k v t) j = if j = k then v else tget d t j := by
  induction t with
  | nil =>
    by_cases h : j = k
    · subst h; simp [tins, tget]
    · simp [tins, tget, h, Ne.symm h]
  | cons e r ih =>
    obtain ⟨i, w⟩ := e
    by_cases h : j = k
    · subst h
      rcases Nat.lt_trichotomy j i with q | q | q
      · simp [tins, tget, q]
      · subst q; simp [tins, tget]
      · simp [tins, tget, Nat.not_lt.2 (Nat.le_of_lt q), Nat.ne_of_lt q, ih]
    · rcases Nat.lt_trichotomy k i with q | q | q
      · simp [tins, tget, q, h, Ne.symm h]
      · subst q; simp [tins, tget, h, Ne.symm h]
      · simp [tins, tget, Nat.not_lt.2 (Nat.le_of_lt q), Nat.ne_of_lt q, h, ih]

theorem tget_tdel {α : Type} (d : α) (t : Tbl α) (k j : Nat) :
    tget d (tdel k t) j = if j = k then d else tget d t j := by
  unfold tdel
  induction t with
  | nil => simp [tget]
  | cons e r ih =>
    obtain ⟨i, w⟩ := e
    by_cases h : i = k
    · subst h
      by_cases q : j = i
      · subst q; simpa [tget] using ih
      · simpa [tget, q, Ne.symm q] using ih
    · have : (i != k) = true := by simpa using h
      simp only [List.filter, this, tget, ih]
      by_cases q : i = j
      · subst q; simp [h]
      · simp [q]

/-- A read of a table after a write. -/
theorem tget_tset {α : Type} [DecidableEq α] (d v : α) (t : Tbl α) (k j : Nat) :
    tget d (tset d t k v) j = if j = k then v else tget d t j := by
  unfold tset
  split
  · next h => subst h; exact tget_tdel _ _ _ _
  · exact tget_tins _ _ _ _ _

@[simp] theorem tget_tset_self {α : Type} [DecidableEq α] (d v : α) (t : Tbl α) (k : Nat) :
    tget d (tset d t k v) k = v := by simp [tget_tset]

theorem tget_tset_ne {α : Type} [DecidableEq α] (d v : α) (t : Tbl α) (k j : Nat) (h : j ≠ k) :
    tget d (tset d t k v) j = tget d t j := by simp [tget_tset, h]

theorem tsorted_mono {α : Type} {lo lo' : Nat} (t : Tbl α) (h : lo' ≤ lo) (s : tsorted lo t = true) :
    tsorted lo' t = true := by
  cases t with
  | nil => rfl
  | cons e r => obtain ⟨j, v⟩ := e; simp only [tsorted, Bool.and_eq_true, decide_eq_true_eq] at *; exact ⟨by omega, s.2⟩

/-- A sorted table stays sorted when some of its entries go. -/
theorem tsorted_filter {α : Type} (p : Nat × α → Bool) (t : Tbl α) :
    ∀ lo, tsorted lo t = true → tsorted lo (t.filter p) = true := by
  induction t with
  | nil => intros; rfl
  | cons e r ih =>
    obtain ⟨j, v⟩ := e
    intro lo h
    simp only [tsorted, Bool.and_eq_true, decide_eq_true_eq] at h
    simp only [List.filter]
    split
    · simp only [tsorted, Bool.and_eq_true, decide_eq_true_eq]; exact ⟨h.1, ih _ h.2⟩
    · exact ih _ (tsorted_mono r (by omega) h.2)

theorem tsorted_tins {α : Type} (k : Nat) (v : α) (t : Tbl α) :
    ∀ lo, lo ≤ k → tsorted lo t = true → tsorted lo (tins k v t) = true := by
  induction t with
  | nil => intro lo h _; simp [tins, tsorted, h]
  | cons e r ih =>
    obtain ⟨j, w⟩ := e
    intro lo h s
    simp only [tsorted, Bool.and_eq_true, decide_eq_true_eq] at s
    unfold tins
    split
    · simp only [tsorted, Bool.and_eq_true, decide_eq_true_eq]
      exact ⟨h, by omega, s.2⟩
    · split
      · next q => subst q; simp only [tsorted, Bool.and_eq_true, decide_eq_true_eq]; exact s
      · simp only [tsorted, Bool.and_eq_true, decide_eq_true_eq]
        exact ⟨s.1, ih _ (by omega) s.2⟩

theorem mem_tins {α : Type} (k : Nat) (v : α) (t : Tbl α) : ∀ e ∈ tins k v t, e = (k, v) ∨ e ∈ t := by
  induction t with
  | nil => intro e h; simp [tins] at h; exact .inl h
  | cons x r ih =>
    obtain ⟨j, w⟩ := x
    intro e h
    unfold tins at h
    split at h
    · simpa using h
    · split at h
      · simp only [List.mem_cons] at h ⊢; tauto
      · simp only [List.mem_cons] at h ⊢
        rcases h with h | h
        · tauto
        · rcases ih e h with h | h <;> tauto

/-- Dropping entries keeps the canonical form. -/
theorem twf_filter {α : Type} [DecidableEq α] (d : α) (p : Nat × α → Bool) (t : Tbl α) (h : twf d t = true) :
    twf d (t.filter p) = true := by
  simp only [twf, Bool.and_eq_true] at *
  refine ⟨tsorted_filter p t 0 h.1, ?_⟩
  rw [List.all_eq_true] at *
  exact fun e he => h.2 e (List.mem_filter.1 he).1

/-- A write keeps the canonical form. -/
theorem twf_tset {α : Type} [DecidableEq α] (d v : α) (t : Tbl α) (k : Nat) (h : twf d t = true) :
    twf d (tset d t k v) = true := by
  unfold tset
  split
  · exact twf_filter d _ t h
  · next n =>
    simp only [twf, Bool.and_eq_true] at *
    refine ⟨tsorted_tins k v t 0 (Nat.zero_le _) h.1, ?_⟩
    rw [List.all_eq_true] at *
    intro e he
    rcases mem_tins k v t e he with q | q
    · subst q; simpa using n
    · exact h.2 e q

/-- Unlisting a range keeps the canonical form. -/
theorem twf_tclear {α : Type} [DecidableEq α] (d : α) (t : Tbl α) (lo hi : Nat) (h : twf d t = true) :
    twf d (tclear t lo hi) = true := twf_filter d _ t h

/-! ## Memory -/

/-- Bytes written one after another keep the canonical form. -/
theorem twf_putBytes (bs : List (BitVec 8)) : ∀ (m : List Host.Cell) (a : Nat), twf unlistedByte m = true →
    twf unlistedByte (putBytes m a bs) = true := by
  induction bs with
  | nil => intro m a h; exact h
  | cons b r ih => intro m a h; exact ih _ _ (twf_tset _ _ _ _ h)

/-- A byte outside a write reads as before. -/
theorem putBytes_out (bs : List (BitVec 8)) : ∀ (m : List Host.Cell) (a b : Nat), (b < a ∨ a + bs.length ≤ b) →
    tget unlistedByte (putBytes m a bs) b = tget unlistedByte m b := by
  induction bs with
  | nil => intros; rfl
  | cons x r ih =>
    intro m a b h
    simp only [List.length_cons] at h
    rw [putBytes, ih _ _ _ (by omega), tget_tset_ne _ _ _ _ _ (by omega)]

/-- A byte of a write reads as written. -/
theorem putBytes_in (bs : List (BitVec 8)) : ∀ (m : List Host.Cell) (a i : Nat) (h : i < bs.length),
    tget unlistedByte (putBytes m a bs) (a + i) = bs[i] := by
  induction bs with
  | nil => intro m a i h; simp at h
  | cons x r ih =>
    intro m a i h
    cases i with
    | zero => rw [putBytes, putBytes_out _ _ _ _ (by omega)]; simp
    | succ i =>
      rw [putBytes, show a + (i + 1) = a + 1 + i by omega, ih _ _ _ (by simpa using h)]; simp

@[simp] theorem leBytes_length (n : Nat) : ∀ w, (leBytes n w).length = n := by
  induction n with
  | zero => intro; rfl
  | succ n ih => intro w; simp [leBytes, ih]

theorem leBytes_get (n : Nat) : ∀ (w i : Nat) (h : i < (leBytes n w).length),
    (leBytes n w)[i] = BitVec.ofNat 8 (w / 256 ^ i) := by
  induction n with
  | zero => intro w i h; simp [leBytes] at h
  | succ n ih =>
    intro w i h
    cases i with
    | zero => simp [leBytes]
    | succ i =>
      simp only [leBytes, List.getElem_cons_succ]
      rw [ih, Nat.div_div_eq_div_mul, pow_succ, Nat.mul_comm]

/-- The value of the bytes of a number is the number, when they hold it (R3). -/
theorem leNat_leBytes (n : Nat) : ∀ w, leNat (leBytes n w) = w % 256 ^ n := by
  induction n with
  | zero => intro w; simp [leBytes, leNat, Nat.mod_one]
  | succ n ih =>
    intro w
    have e : (BitVec.ofNat 8 w).toNat = w % 256 := by simp
    rw [leBytes, leNat, ih, e, pow_succ', Nat.mod_mul]

/-- A write leaves every byte outside it as it was. -/
theorem poke_byte_out (s : State) (a : Nat) (bs : List (BitVec 8)) (p : Bool) (b : Nat)
    (h : b < a ∨ a + bs.length ≤ b) : (s.poke a bs p).byte b = s.byte b := putBytes_out bs s.mem a b h

/-- A write is read back. -/
theorem poke_byte_in (s : State) (a : Nat) (bs : List (BitVec 8)) (p : Bool) (i : Nat) (h : i < bs.length) :
    (s.poke a bs p).byte (a + i) = bs[i] := putBytes_in bs s.mem a i h

/-- A write keeps the canonical form of memory. -/
theorem poke_memOk (s : State) (a : Nat) (bs : List (BitVec 8)) (p : Bool) (h : s.memOk) : (s.poke a bs p).memOk :=
  ⟨twf_putBytes bs s.mem a h.1, h.2⟩

/-- A change of owner tags keeps the canonical form of memory. -/
theorem retag_memOk (s : State) (a n : Nat) (f : BitVec 5 → BitVec 5) (h : s.memOk) : (s.retag a n f).memOk := by
  refine ⟨h.1, ?_⟩
  have key : ∀ (l : List Nat) (t : Tbl (BitVec 5)), twf 0x10 t = true → twf 0x10 (l.foldl (fun t i =>
      tset 0x10 t (a / 64 + i) (f (tget 0x10 t (a / 64 + i)))) t) = true := by
    intro l
    induction l with
    | nil => intro t ht; exact ht
    | cons x r ih => intro t ht; exact ih _ (twf_tset _ _ _ _ ht)
  exact key _ _ h.2

/-- The release of a slot's tags keeps the canonical form of memory. -/
theorem releaseTags_memOk (s : State) (k : Nat) (i : SlotId) (h : s.memOk) : (s.releaseTags k i).memOk :=
  ⟨h.1, twf_filter _ _ _ h.2⟩

/-- Reset lists nothing, so its memory is canonical. -/
theorem reset_memOk : State.reset.memOk := ⟨rfl, rfl⟩
theorem reset_memory_wf : Memory.wf State.reset = true := rfl

/-! ## Poison codes -/

/-- Poison codes after a write of n bytes at a, word by word (R88, R175). -/
theorem putPoison_get (base : Nat → Bool) (t : Tbl Bool) (a n : Nat) (p : Bool) (w : Nat) :
    tget (base w) (putPoison base t a n p) w =
      if a / 8 ≤ w ∧ w < (a + n + 7) / 8 then
        (if p then true else if a ≤ 8 * w ∧ 8 * w + 8 ≤ a + n then false else tget (base w) t w)
      else tget (base w) t w := by
  unfold putPoison
  have key : ∀ (m : Nat),
      tget (base w) ((List.range m).foldl (fun t i =>
        let w := a / 8 + i
        if p then tset (base w) t w true
        else if decide (a ≤ 8 * w) && decide (8 * w + 8 ≤ a + n) then tset (base w) t w false else t) t) w =
      if a / 8 ≤ w ∧ w < a / 8 + m then
        (if p then true else if a ≤ 8 * w ∧ 8 * w + 8 ≤ a + n then false else tget (base w) t w)
      else tget (base w) t w := by
    intro m
    induction m with
    | zero => simp
    | succ m ih =>
      rw [List.range_succ, List.foldl_append]
      simp only [List.foldl_cons, List.foldl_nil]
      by_cases e : w = a / 8 + m
      · subst e
        rw [if_neg (by omega)] at ih
        have hc : a / 8 ≤ a / 8 + m ∧ a / 8 + m < a / 8 + (m + 1) := ⟨by omega, by omega⟩
        rw [if_pos hc]
        cases p with
        | true => simp
        | false =>
          simp only [Bool.false_eq_true, if_false, Bool.and_eq_true, decide_eq_true_eq] at ih ⊢
          by_cases c : a ≤ 8 * (a / 8 + m) ∧ 8 * (a / 8 + m) + 8 ≤ a + n
          · rw [if_pos c, if_pos c]; exact tget_tset_self _ _ _ _
          · rw [if_neg c, if_neg c]; exact ih
      · have hw : (a / 8 ≤ w ∧ w < a / 8 + (m + 1)) ↔ (a / 8 ≤ w ∧ w < a / 8 + m) := by omega
        simp only [hw]
        rw [← ih]
        have other : ∀ (b : Bool) (t : Tbl Bool) (x : Bool),
            tget (base w) (tset b t (a / 8 + m) x) w = tget (base w) t w := by
          intro b t x
          unfold tset
          split
          · rw [tget_tdel, if_neg e]
          · rw [tget_tins, if_neg e]
        split
        · exact other _ _ _
        · split
          · exact other _ _ _
          · rfl
  have := key ((a + n + 7) / 8 - a / 8)
  by_cases c : a / 8 ≤ (a + n + 7) / 8
  · rw [show a / 8 + ((a + n + 7) / 8 - a / 8) = (a + n + 7) / 8 by omega] at this; exact this
  · omega

end Sys2Proof.Machine
end

