-- ==== Sys2Proof/Laws/Crypto.lean ====
section
/-! SUPPORT. A PSS encoder, and a key under which one signature signs any message: what the signature check of R261 accepts. -/

namespace Sys2Proof.Machine

/-! ## Lengths -/

@[simp] theorem beBytes_length (n x : Nat) : (beBytes n x).length = n := by simp [beBytes]

theorem shaRound_length (v : List (BitVec 32)) (e : BitVec 32 × BitVec 32) (h : v.length = 8) : (shaRound v e).length = 8 := by
  match v, h with
  | [_, _, _, _, _, _, _, _], _ => rfl

theorem shaRounds_length (l : List (BitVec 32 × BitVec 32)) : ∀ v : List (BitVec 32), v.length = 8 → (l.foldl shaRound v).length = 8 := by
  induction l with
  | nil => exact fun _ h => h
  | cons e l ih => exact fun v h => ih _ (shaRound_length v e h)

theorem shaBlocks_length (n : Nat) : ∀ (h : List (BitVec 32)) (m : List (BitVec 8)), h.length = 8 → (shaBlocks n h m).length = 8 := by
  induction n with
  | zero => exact fun _ _ h => h
  | succ n ih =>
    intro h m e
    exact ih _ _ (by simp [shaBlock, shaRounds_length _ h e, e])

@[simp] theorem sha256_length (m : List (BitVec 8)) : (sha256 m).length = 32 := by
  simp [sha256, List.length_flatMap, shaBlocks_length _ shaStart _ rfl]

@[simp] theorem mgf1_length (h : List (BitVec 8)) : (mgf1 h 351).length = 351 := by
  simp [mgf1, List.length_flatMap]

/-! ## Numbers and their bytes -/

theorem leNat_append (a : List (BitVec 8)) (b : BitVec 8) : leNat (a ++ [b]) = leNat a + b.toNat * 256 ^ a.length := by
  induction a with
  | nil => simp [leNat]
  | cons x r ih => simp [leNat, ih, pow_succ]; ring

theorem beNat_eq (l : List (BitVec 8)) : beNat l = leNat l.reverse := by
  induction l with
  | nil => rfl
  | cons b r ih => simp [beNat, ih, leNat_append]; ring

theorem leBytes_leNat (l : List (BitVec 8)) : leBytes l.length (leNat l) = l := by
  induction l with
  | nil => rfl
  | cons b r ih =>
    have h : (b.toNat + 256 * leNat r) / 256 = leNat r := by have := b.isLt; omega
    simp [leBytes, leNat, h, ih]
    apply BitVec.eq_of_toNat_eq
    have := b.isLt
    simp
    omega

theorem beBytes_beNat (l : List (BitVec 8)) : beBytes l.length (beNat l) = l := by
  have h := leBytes_leNat l.reverse
  rw [List.length_reverse] at h
  rw [beBytes, beNat_eq, h, List.reverse_reverse]

theorem beNat_lt (l : List (BitVec 8)) : beNat l < 256 ^ l.length := by
  induction l with
  | nil => decide
  | cons b r ih =>
    have := b.isLt
    have h : b.toNat * 256 ^ r.length ≤ 255 * 256 ^ r.length := Nat.mul_le_mul_right _ (by omega)
    simp only [beNat, List.length_cons, pow_succ]
    omega

/-! ## The encoder -/

theorem xor_cancel (a : List (BitVec 8)) : ∀ b : List (BitVec 8), a.length ≤ b.length →
    List.zipWith (· ^^^ ·) (List.zipWith (· ^^^ ·) a b) b = a := by
  induction a with
  | nil => simp
  | cons x a ih =>
    intro b h
    match b, h with
    | y :: b, h => simp [ih b (by simpa using h)]

/-- An encoding of a message of 384 bytes under a salt (R261; RFC 8017, 9.1.1), without the check of its length. -/
def pssEncode (m salt : List (BitVec 8)) : List (BitVec 8) :=
  let h := sha256 (List.replicate 8 0 ++ sha256 m ++ salt)
  let db := List.zipWith (· ^^^ ·) (List.replicate 318 0 ++ [1] ++ salt) (mgf1 h 351)
  (db.headD 0 &&& 0x7F) :: (db.drop 1 ++ h ++ [0xBC])

theorem mask_bits : ∀ y : BitVec 8, ((0 ^^^ y) &&& 0x7F ^^^ y) &&& 0x7F = 0 ∧ (0 ^^^ y) &&& 0x7F &&& 0x80 = 0 := by decide

/-- The check takes what the encoder gives. -/
theorem pssOk_encode (m salt : List (BitVec 8)) (hs : salt.length = 32) : pssOk (sha256 m) (pssEncode m salt) = true := by
  simp only [pssEncode]
  generalize hh : sha256 (List.replicate 8 0 ++ sha256 m ++ salt) = h
  have lh : h.length = 32 := by rw [← hh]; simp
  generalize hg : mgf1 h 351 = g
  have lg : g.length = 351 := by rw [← hg]; simp
  match g, lg with
  | y :: g, lg =>
    have l : g.length = 350 := by simpa using lg
    generalize hd : List.replicate 317 (0 : BitVec 8) ++ [1] ++ salt = d
    have ld : d.length = 350 := by
      rw [← hd]; simp only [List.length_append, List.length_replicate, List.length_singleton, hs]
    have e : List.replicate 318 (0 : BitVec 8) ++ [1] ++ salt = 0 :: d := by rw [← hd]; rfl
    have t1 : (List.zipWith (· ^^^ ·) d g ++ (h ++ [0xBC])).take 350 = List.zipWith (· ^^^ ·) d g := by
      rw [List.take_left' (by simp [ld, l])]
    have t2 : (List.zipWith (· ^^^ ·) d g ++ (h ++ [0xBC])).drop 350 = h ++ [0xBC] := by
      rw [List.drop_left' (by simp [ld, l])]
    have t3 : (h ++ [(0xBC : BitVec 8)]).take 32 = h := by rw [List.take_left' lh]
    have t4 : (List.zipWith (· ^^^ ·) d g ++ (h ++ [(0xBC : BitVec 8)])).drop 382 = [0xBC] := by
      rw [show 382 = 350 + 32 from rfl, ← List.drop_drop, t2, List.drop_left' lh]
    obtain ⟨y0, y1⟩ := mask_bits y
    have x : List.zipWith (· ^^^ ·) (List.zipWith (· ^^^ ·) d g) g = d := xor_cancel d g (by omega)
    have d1 : d.drop 318 = salt := by rw [← hd, List.drop_left' (by simp only [List.length_append, List.length_replicate, List.length_singleton])]
    have d2 : d.take 317 = List.replicate 317 0 := by rw [← hd, List.append_assoc, List.take_left' (List.length_replicate ..)]
    have d3 : (d.drop 317).take 1 = [1] := by rw [← hd, List.append_assoc, List.drop_left' (List.length_replicate ..)]; rfl
    have len : (((0 ^^^ y) &&& 0x7F) :: (List.zipWith (· ^^^ ·) d g ++ (h ++ [(0xBC : BitVec 8)]))).length = 384 := by
      simp only [List.length_cons, List.length_append, List.length_zipWith, List.length_nil, ld, l, lh]; rfl
    rw [List.append_assoc] at hh
    have t5 : List.replicate 318 (0 : BitVec 8) = 0 :: List.replicate 317 0 := rfl
    rw [e]
    simp only [List.zipWith_cons_cons, List.headD_cons, List.drop_succ_cons, List.drop_zero, List.append_assoc]
    simp only [pssOk, List.zipWith_cons_cons, List.headD_cons, List.drop_succ_cons, List.take_succ_cons, t1, t2, t3, t4,
      List.append_assoc, hg, x, y0, y1, d1, d2, d3, hh, len, t5, beq_self_eq_true, Bool.and_self]

theorem pssEncode_length (m salt : List (BitVec 8)) (hs : salt.length = 32) : (pssEncode m salt).length = 384 := by
  have l : (List.replicate 318 (0 : BitVec 8) ++ [1] ++ salt).length = 351 := by
    simp only [List.length_append, List.length_replicate, List.length_singleton, hs]
  simp only [pssEncode, List.length_cons, List.length_append, List.length_drop, List.length_zipWith, mgf1_length, sha256_length,
    List.length_nil, l]
  rfl

/-- The encoding as a number is not 0. -/
theorem pssEncode_pos (m salt : List (BitVec 8)) : 0 < beNat (pssEncode m salt) := by
  simp only [pssEncode]
  rw [← List.cons_append, beNat_eq, List.reverse_append]
  simp only [List.reverse_singleton, List.singleton_append, leNat]
  have : (0xBC : BitVec 8).toNat = 188 := rfl
  omega

/-- The encoding as a number: its highest bit is clear. -/
theorem pssEncode_lt (m salt : List (BitVec 8)) (hs : salt.length = 32) : beNat (pssEncode m salt) < 2 ^ 3071 := by
  have h := pssEncode_length m salt hs
  revert h
  simp only [pssEncode]
  generalize List.drop 1 _ ++ _ ++ _ = r
  generalize List.headD _ _ = x
  intro h
  have hr : r.length = 383 := by simpa using h
  have lt := beNat_lt r
  have hx : (x &&& 0x7F).toNat ≤ 127 := by
    rw [BitVec.toNat_and]; exact Nat.and_le_right
  have hm : (x &&& 0x7F).toNat * 256 ^ r.length ≤ 127 * 256 ^ r.length := Nat.mul_le_mul_right _ hx
  rw [beNat, hr] at *
  have : (2 : Nat) ^ 3071 = 128 * 256 ^ 383 := by decide +kernel
  omega

/-! ## A key for a message -/

/-- The modulus under which, with the exponent 3, 2^1024 signs the message. -/
def modulusOf (m salt : List (BitVec 8)) : Nat := 2 ^ 3072 - beNat (pssEncode m salt)

/-- The signature 2^1024. -/
def powerSignature : List (BitVec 8) := beBytes 384 (2 ^ 1024)

theorem powMod_cube (n b x : Nat) (h : b * (b * b) = n + x) (hx : x < n) (hb : b * b < n) : powMod n b 3 2 = x := by
  have one : 1 < n := by
    match b with
    | 0 => omega
    | b + 1 =>
      have : 1 ≤ (b + 1) * (b + 1) := Nat.mul_pos (by omega) (by omega)
      omega
  simp only [powMod, Nat.mod_eq_of_lt hb, Nat.mod_eq_of_lt one]
  simp [Nat.mod_eq_of_lt hb, h, Nat.mod_eq_of_lt hx]

theorem modulusOf_verifies (m salt : List (BitVec 8)) (hs : salt.length = 32) :
    rsaVerify (modulusOf m salt) 3 m powerSignature = true := by
  have lt := pssEncode_lt m salt hs
  have pos := pssEncode_pos m salt
  have ok := pssOk_encode m salt hs
  have e := beBytes_beNat (pssEncode m salt)
  rw [pssEncode_length m salt hs] at e
  have hp : beNat powerSignature = 2 ^ 1024 := by decide +kernel
  have hl : powerSignature.length = 384 := by simp [powerSignature]
  unfold modulusOf
  generalize hx : beNat (pssEncode m salt) = x at *
  generalize hn : 2 ^ 3072 - x = n
  have dbl : (2 : Nat) ^ 3072 = 2 * 2 ^ 3071 := by decide +kernel
  have cu : (2 : Nat) ^ 1024 * (2 ^ 1024 * 2 ^ 1024) = 2 ^ 3072 := by decide +kernel
  have p1 : (2 : Nat) ^ 1024 < 2 ^ 3071 := by decide +kernel
  have p2 : (2 : Nat) ^ 1024 * 2 ^ 1024 < 2 ^ 3071 := by decide +kernel
  have k : Nat.log2 3 + 1 = 2 := by decide
  simp only [rsaVerify, hp, hl, k]
  generalize (2 : Nat) ^ 3072 = a at *
  generalize (2 : Nat) ^ 3071 = b at *
  generalize (2 : Nat) ^ 1024 = c at *
  rw [powMod_cube n c x (by omega) (by omega) (by omega), e, ok]
  simp
  omega

end Sys2Proof.Machine
end

