-- ==== Sys2Proof/Laws/Ops.lean ====
section
/-! SUPPORT. What each shared operation can do, said once: queueing and waking slots, writes with their
watches and flag tests, loads and stores, traps, votes. -/

namespace Sys2Proof.Machine

/-! ## Slots: no operation on slots and FIFOs touches registers, control registers or engines -/

/-- Two cores agree on registers, control registers and engines, and on the shared tables but the FIFOs and the slots woken in the tick. -/
def Core.SameBut (c d : Core) : Prop :=
  d.regs = c.regs ∧ d.ctl = c.ctl ∧ d.eng = c.eng ∧ d.sh = { c.sh with fifo := d.sh.fifo, woke := d.sh.woke }

theorem Core.SameBut.refl (c : Core) : c.SameBut c := ⟨rfl, rfl, rfl, rfl⟩
theorem Core.SameBut.trans {a b c : Core} (h : a.SameBut b) (g : b.SameBut c) : a.SameBut c := by
  obtain ⟨h1, h2, h3, h4⟩ := h
  obtain ⟨g1, g2, g3, g4⟩ := g
  refine ⟨g1.trans h1, g2.trans h2, g3.trans h3, ?_⟩
  rw [g4, h4]

theorem Core.onSlot_same (c : Core) (i : SlotId) (f : Slot → Slot) : c.SameBut (c.onSlot i f) := ⟨rfl, rfl, rfl, rfl⟩
theorem Core.unqueue_same (c : Core) (i : SlotId) : c.SameBut (c.unqueue i) := ⟨rfl, rfl, rfl, rfl⟩
theorem Core.enqueue_same (c : Core) (i : SlotId) : c.SameBut (c.enqueue i) := by
  unfold Core.enqueue
  dsimp only
  split
  · split <;> exact ⟨rfl, rfl, rfl, rfl⟩
  · exact ⟨rfl, rfl, rfl, rfl⟩
/-- A wake changes one slot, its queueing, and the PREEMPT of the running slot. -/
theorem Core.wake_same (c : Core) (i : SlotId) (w : BitVec 3) : c.SameBut (c.wake i w) :=
  ((Core.onSlot_same c i _).trans (Core.enqueue_same _ i)).trans ⟨rfl, rfl, rfl, rfl⟩
/-- A cause raised changes slots and FIFOs only. -/
theorem Core.raise_same (c : Core) (i : SlotId) (b : BitVec 3) (v : BitVec 64) : c.SameBut (c.raise i b v) := by
  unfold Core.raise
  split
  · exact (Core.onSlot_same c i _).trans (Core.wake_same _ i _)
  all_goals first | exact Core.onSlot_same c i _ | exact Core.SameBut.refl c | skip
  all_goals split <;> first | exact Core.onSlot_same c i _ | exact Core.SameBut.refl c
/-- A counter's increment changes slots and FIFOs only. -/
theorem Core.bump_same (c : Core) (i : SlotId) (a : Nat) (k : WC) : c.SameBut (c.bump i a k) := by
  unfold Core.bump
  dsimp only
  split
  · split
    · split
      · exact (Core.onSlot_same c i _).trans (Core.wake_same _ i _)
      · exact Core.onSlot_same c i _
    · exact Core.onSlot_same c i _
  · exact Core.SameBut.refl c
theorem Core.foldl_same {α : Type} (f : Core → α → Core) (h : ∀ c x, Core.SameBut c (f c x)) (l : List α) :
    ∀ c : Core, c.SameBut (l.foldl f c) := by
  induction l with
  | nil => intro c; exact Core.SameBut.refl c
  | cons x r ih => intro c; exact (h c x).trans (ih _)

/-! ## Packets and watches -/

/-- Two states agree but on packets, watches and the slots of cores: what the effects of a write on
watchers and sleepers may touch. -/
def SameButWakes (s t : State) : Prop :=
  t = { s with core := t.core, peers := t.peers, nodes := t.nodes, net := t.net, queued := t.queued, out := t.out } ∧
  s.core.SameBut t.core ∧ ∀ k, (t.node k).marked = (s.node k).marked

theorem SameButWakes.refl (s : State) : SameButWakes s s := ⟨rfl, Core.SameBut.refl _, fun _ => rfl⟩
theorem SameButWakes.trans {a b c : State} (h : SameButWakes a b) (g : SameButWakes b c) : SameButWakes a c := by
  refine ⟨g.1.trans ?_, h.2.1.trans g.2.1, fun k => (g.2.2 k).trans (h.2.2 k)⟩
  rw [h.1]

/-- A sent packet stands in the network, at its port or on the panel links, or is gone; nothing else changes (R228, R320, R323). -/
theorem send_same (s : State) (p : Packet) : SameButWakes s (s.send p) := by
  unfold State.send
  split <;> split <;> exact ⟨rfl, Core.SameBut.refl _, fun _ => rfl⟩

theorem sends_same {α : Type} (f : α → Packet) (l : List α) :
    ∀ s : State, SameButWakes s (l.foldl (fun s w => s.send (f w)) s) := by
  induction l with
  | nil => intro s; exact SameButWakes.refl s
  | cons x r ih => intro s; exact (send_same s _).trans (ih _)

theorem node_onNode (s : State) (k j : Nat) (f : Node → Node) :
    (s.onNode k f).node j = if j = k then f (s.node k) else s.node j := by
  unfold State.node State.onNode
  exact tget_tset _ _ _ _ _

/-- A watch that fires goes, and its wake is sent; nothing else changes (R110). -/
theorem fire_same (s old : State) (k off n : Nat) (p st : Bool) : SameButWakes s (s.fire old k off n p st) := by
  unfold State.fire
  dsimp only
  split
  · refine SameButWakes.trans ?_ (sends_same _ _ _)
    refine ⟨rfl, Core.SameBut.refl _, fun j => ?_⟩
    rw [node_onNode]; split
    · next h => subst h; rfl
    · rfl
  · exact SameButWakes.refl s

theorem setCore_same (s : State) (k : Nat) (c : Core) (h : (s.coreAt k).SameBut c) : SameButWakes s (s.setCore k c) := by
  unfold State.setCore
  split
  · next e =>
    refine ⟨rfl, ?_, fun _ => rfl⟩
    unfold State.coreAt at h; rwa [if_pos e] at h
  · exact ⟨rfl, Core.SameBut.refl _, fun _ => rfl⟩

/-- The flag tests a write repeats wake slots; nothing else changes (R80, R124). -/
theorem wakeFlags_same (s : State) (k off n : Nat) : SameButWakes s (s.wakeFlags k off n) := by
  unfold State.wakeFlags
  dsimp only
  split
  · exact SameButWakes.refl s
  · exact setCore_same s k _ (Core.foldl_same _ (fun c x => Core.wake_same c x 0) _ _)

/-- A write performed at its home: the bytes and poison codes of poke, then watches and sleepers (R110,
R112). -/
theorem writeOf_same (s : State) (st : Bool) (k off : Nat) (bs : List (BitVec 8)) (p : Bool) :
    SameButWakes (s.poke (nodeBase k + off) bs p) (s.writeOf st k off bs p) := by
  unfold State.writeOf
  dsimp only
  split
  · exact (fire_same _ _ _ _ _ _ _).trans (wakeFlags_same _ _ _ _)
  · exact fire_same _ _ _ _ _ _ _
/-- A write or store of another instruction than `ST` is one of the general form. -/
theorem write_eq (s : State) (k off : Nat) (bs : List (BitVec 8)) (p : Bool) : s.write k off bs p = s.writeOf false k off bs p := rfl
theorem store_eq (s : State) (off : Nat) (bs : List (BitVec 8)) (p : Bool) : s.store off bs p = s.storeOf false off bs p := rfl

theorem SameButWakes.mem {s t : State} (h : SameButWakes s t) : t.mem = s.mem := by
  rw [h.1]
theorem SameButWakes.pois {s t : State} (h : SameButWakes s t) : t.pois = s.pois := by
  rw [h.1]
theorem SameButWakes.tags {s t : State} (h : SameButWakes s t) : t.tags = s.tags := by
  rw [h.1]
theorem SameButWakes.byte {s t : State} (h : SameButWakes s t) (a : Nat) : t.byte a = s.byte a := by
  unfold State.byte; rw [h.mem]
theorem SameButWakes.poisonBase {s t : State} (h : SameButWakes s t) : t.poisonBase = s.poisonBase := by
  funext w; unfold State.poisonBase; rw [h.2.2]
theorem SameButWakes.poisoned {s t : State} (h : SameButWakes s t) (a : Nat) : t.poisoned a = s.poisoned a := by
  unfold State.poisoned; rw [h.pois, h.poisonBase]
theorem SameButWakes.memOk {s t : State} (h : SameButWakes s t) (w : s.memOk) : t.memOk :=
  ⟨h.mem ▸ w.1, h.tags ▸ w.2⟩

theorem poke_node (s : State) (a : Nat) (bs : List (BitVec 8)) (p : Bool) (k : Nat) : (s.poke a bs p).node k = s.node k := rfl

/-- Bytes outside a write are as before, those of it as written. -/
theorem writeOf_byte_out (s : State) (st : Bool) (k off : Nat) (bs : List (BitVec 8)) (p : Bool) (b : Nat)
    (h : b < nodeBase k + off ∨ nodeBase k + off + bs.length ≤ b) : (s.writeOf st k off bs p).byte b = s.byte b := by
  rw [(writeOf_same s st k off bs p).byte]; exact poke_byte_out _ _ _ _ _ h
theorem writeOf_byte_in (s : State) (st : Bool) (k off : Nat) (bs : List (BitVec 8)) (p : Bool) (i : Nat) (h : i < bs.length) :
    (s.writeOf st k off bs p).byte (nodeBase k + off + i) = bs[i] := by
  rw [(writeOf_same s st k off bs p).byte]; exact poke_byte_in _ _ _ _ _ h
/-- Poison codes after a write (R88, R175). -/
theorem writeOf_poisoned (s : State) (st : Bool) (k off : Nat) (bs : List (BitVec 8)) (p : Bool) (b : Nat) :
    (s.writeOf st k off bs p).poisoned b =
      if (nodeBase k + off) / 8 ≤ b / 8 ∧ b / 8 < (nodeBase k + off + bs.length + 7) / 8 then
        (if p then true
          else if nodeBase k + off ≤ 8 * (b / 8) ∧ 8 * (b / 8) + 8 ≤ nodeBase k + off + bs.length then false
          else s.poisoned b)
      else s.poisoned b := by
  rw [(writeOf_same s st k off bs p).poisoned]
  unfold State.poisoned
  exact putPoison_get s.poisonBase s.pois _ _ _ _
/-- A write keeps the canonical form of memory. -/
theorem writeOf_memOk (s : State) (st : Bool) (k off : Nat) (bs : List (BitVec 8)) (p : Bool) (h : s.memOk) : (s.writeOf st k off bs p).memOk :=
  (writeOf_same s st k off bs p).memOk (poke_memOk _ _ _ _ h)
/-- A store keeps the canonical form of memory. -/
theorem storeOf_memOk (s : State) (st : Bool) (off : Nat) (bs : List (BitVec 8)) (p : Bool) (h : s.memOk) : (s.storeOf st off bs p).memOk :=
  retag_memOk _ _ _ _ (writeOf_memOk _ _ _ _ _ _ h)

/-- A store leaves registers, control registers and engines. -/
theorem storeOf_core (s : State) (st : Bool) (off : Nat) (bs : List (BitVec 8)) (p : Bool) :
    (s.storeOf st off bs p).core.regs = s.core.regs ∧ (s.storeOf st off bs p).core.ctl = s.core.ctl ∧
    (s.storeOf st off bs p).core.eng = s.core.eng := by
  have h := (writeOf_same s st s.here off bs p).2.1
  exact ⟨h.1, h.2.1, h.2.2.1⟩

/-- Owner tags after a change of the lines of n bytes at a: each line once, from what it was (R39). -/
theorem retag_tag (s : State) (a n : Nat) (f : BitVec 5 → BitVec 5) (b : Nat) :
    (s.retag a n f).tag b =
      if a / 64 ≤ b / 64 ∧ b / 64 < (a + n + 63) / 64 then f (s.tag b) else s.tag b := by
  unfold State.retag State.tag
  dsimp only
  have key : ∀ m : Nat, tget 0x10 ((List.range m).foldl (fun t i =>
      tset 0x10 t (a / 64 + i) (f (tget 0x10 t (a / 64 + i)))) s.tags) (b / 64) =
      if a / 64 ≤ b / 64 ∧ b / 64 < a / 64 + m then f (tget 0x10 s.tags (b / 64)) else tget 0x10 s.tags (b / 64) := by
    intro m
    induction m with
    | zero => simp
    | succ m ih =>
      rw [List.range_succ, List.foldl_append]
      simp only [List.foldl_cons, List.foldl_nil]
      rw [tget_tset]
      by_cases e : b / 64 = a / 64 + m
      · rw [if_pos e]
        have n1 : ¬ (a / 64 ≤ b / 64 ∧ b / 64 < a / 64 + m) := by omega
        have p1 : a / 64 ≤ b / 64 ∧ b / 64 < a / 64 + (m + 1) := by omega
        rw [if_neg n1] at ih
        rw [if_pos p1, ← e, ih]
      · rw [if_neg e, ih]
        by_cases q : a / 64 ≤ b / 64 ∧ b / 64 < a / 64 + m
        · have q' : a / 64 ≤ b / 64 ∧ b / 64 < a / 64 + (m + 1) := by omega
          rw [if_pos q, if_pos q']
        · have q' : ¬ (a / 64 ≤ b / 64 ∧ b / 64 < a / 64 + (m + 1)) := by omega
          rw [if_neg q, if_neg q']
  rw [key]
  have : a / 64 + ((a + n + 63) / 64 - a / 64) = (a + n + 63) / 64 := by omega
  rw [this]

/-! ## Traps -/

/-- A cause taken at U: the trap registers, the closing of the umpire's window and a count; nothing else
(R55, R360). -/
theorem takeTrap_u (s : State) (c : Cause) (v : BitVec 64) (r : BitVec 16) (h : s.core.ctl.priv = .u) :
    TrapTaken s (s.takeTrap c v r) c v r := by
  unfold State.takeTrap
  rw [h]
  dsimp only
  unfold State.closeWindow State.closeWindowAt
  split <;> (refine ⟨rfl, ?_⟩; and_intros <;> rfl)

/-- A synchronous cause at S is a core fault (R56). -/
theorem takeTrap_s (s : State) (c : Cause) (v : BitVec 64) (r : BitVec 16) (h : s.core.ctl.priv = .s) :
    s.takeTrap c v r = s.coreFault c v := by
  unfold State.takeTrap; rw [h]

/-! ## Votes (R345) -/

/-- What votes of triads may change: the triads of the sites (R345). -/
def SameButTriads (s t : State) : Prop :=
  t = { s with sites := t.sites } ∧ ∀ n, t.site n = { s.site n with triad := (t.site n).triad }

theorem SameButTriads.refl (s : State) : SameButTriads s s := ⟨rfl, fun _ => rfl⟩
theorem SameButTriads.trans {a b c : State} (h : SameButTriads a b) (g : SameButTriads b c) : SameButTriads a c := by
  refine ⟨g.1.trans ?_, fun n => (g.2 n).trans ?_⟩
  · rw [h.1]
  · rw [h.2 n]

theorem site_onTriad (s : State) (n m : Nat) (f : Triad → Triad) :
    (s.onTriad n f).site m = if m = n then { s.site n with triad := f (s.site n).triad } else s.site m := by
  unfold State.site State.onTriad State.onSite
  exact tget_tset _ _ _ _ _

theorem vote_same (s : State) (n : Nat) : SameButTriads s (s.vote n) := by
  refine ⟨rfl, fun m => ?_⟩
  unfold State.vote
  rw [site_onTriad]
  split
  · next h => subst h; rfl
  · rfl

/-- Transactions of several tiles' triads touch nothing else. -/
theorem voteTiles_same (ns : List Nat) : ∀ s : State, SameButTriads s (s.voteTiles ns) := by
  unfold State.voteTiles
  induction ns with
  | nil => exact SameButTriads.refl
  | cons n r ih =>
    intro s
    refine SameButTriads.trans (b := if (s.site n).triad.halted then s else s.vote n) ?_ (ih _)
    split
    · exact SameButTriads.refl s
    · exact vote_same s n

end Sys2Proof.Machine
end

