-- ==== Sys2Proof/Laws/PerInstr.lean ====
section
/-! SUPPORT. Per-instruction lemmas: the words of every instruction fit their parcels, and a row of an operation or
an event has none (R134). -/

namespace Sys2Proof.Laws.EncodingFits

/-- The encoding of an instruction is one parcel below 2^32, with an extension word below 2^32 in the long majors and
none elsewhere; an operation or event has no words (R134, R140). -/
def Statement (i : Instr) : Prop :=
  match encode i with
  | some (w, x) => i.isEvent = false ∧ w < 2 ^ 32 ∧ x.isSome = needsExt w ∧ x.all (fun e => decide (e < 2 ^ 32)) = true
  | none => i.isEvent = true

/-! The enumerated codes fit their fields. -/

theorem code_ty (y : Ty) : y.code < 16 := by cases y <;> decide
theorem code_fty (y : FTy) : y.code < 3 := by cases y <;> decide
theorem code_extW (y : ExtW) : y.code < 3 := by cases y <;> decide
theorem code_ldW (y : LdW) : y.code < 8 := by cases y <;> decide
theorem code_stW (y : StW) : y.code < 8 := by cases y <;> decide
theorem code_num (y : Num) : y.code < 8 := by cases y <;> decide
theorem code_rnd (y : Rnd) : y.code < 8 := by cases y <;> decide
theorem code_sclass (y : SClass) : y.code < 4 := by cases y <;> decide
theorem code_scope (y : Scope) : y.code < 8 := by cases y <;> decide
theorem code_amoOp (y : AmoOp) : y.code < 16 := by cases y <;> decide
theorem code_amoW (y : AmoW) : y.code < 4 := by cases y <;> decide
theorem code_lc (y : Lc) : y.code < 4 := by cases y <;> decide
theorem code_cr (y : Cr) : y.code < 32 := by cases y <;> simp [Cr.code] <;> omega
theorem mask_en (m : Option MR) : maskEn m < 2 := by cases m <;> simp [maskEn]
theorem mask_num (m : Option MR) : maskNum m < 8 := by cases m <;> simp [maskNum] <;> omega

/-! Each class of words lies within its major. -/

theorem short_fits {w maj : Nat} (h : w < (maj + 1) * 67108864) (l : maj * 67108864 ≤ w) (m : maj < 0x30) :
    w < 2 ^ 32 ∧ needsExt w = false := by
  have : w / 67108864 = maj := by omega
  simp [needsExt, this]; omega
theorem long_fits {w maj : Nat} (h : w < (maj + 1) * 67108864) (l : maj * 67108864 ≤ w)
    (m : maj = 0x30 ∨ maj = 0x31 ∨ maj = 0x32) : w < 2 ^ 32 ∧ needsExt w = true := by
  have : w / 67108864 = maj := by omega
  simp [needsExt, this]; omega
theorem fits_A {maj fn : Nat} (d a b c : GR) (m : maj < 0x30) (f : fn < 64) :
    fmtA maj d a b c fn < 2 ^ 32 ∧ needsExt (fmtA maj d a b c fn) = false := by
  apply short_fits (maj := maj) <;> (try unfold fmtA) <;> omega
theorem fits_B {maj imm : Nat} (d a : GR) (m : maj < 0x30) (f : imm < 65536) :
    fmtB maj d a imm < 2 ^ 32 ∧ needsExt (fmtB maj d a imm) = false := by
  apply short_fits (maj := maj) <;> (try unfold fmtB) <;> omega
theorem fits_C {maj low : Nat} (t a : GR) (m : maj < 0x30) (f : low < 65536) :
    fmtC maj t a low < 2 ^ 32 ∧ needsExt (fmtC maj t a low) = false := by
  apply short_fits (maj := maj) <;> (try unfold fmtC) <;> omega
theorem fits_D {maj : Nat} (a b : GR) (o : BitVec 16) (m : maj < 0x30) :
    fmtD maj a b o < 2 ^ 32 ∧ needsExt (fmtD maj a b o) = false := by
  apply short_fits (maj := maj) <;> (try unfold fmtD) <;> omega
theorem fits_E {maj vd va vb fn : Nat} (m : Option MR) (y : Ty) (h : maj < 0x30) (d : vd < 16) (a : va < 16) (b : vb < 16)
    (f : fn < 64) : fmtE maj vd va vb m y fn < 2 ^ 32 ∧ needsExt (fmtE maj vd va vb m y fn) = false := by
  have := code_ty y
  have := mask_en m
  have := mask_num m
  apply short_fits (maj := maj) <;> (try unfold fmtE) <;> omega
theorem fits_F {vt gb ty fn : Nat} (a : GR) (m : Option MR) (d : vt < 16) (b : gb < 32) (t : ty < 16) (f : fn < 16) :
    fmtF vt a gb m ty fn < 2 ^ 32 ∧ needsExt (fmtF vt a gb m ty fn) = false := by
  have := mask_en m
  have := mask_num m
  apply short_fits (maj := 0x21) <;> (try unfold fmtF) <;> omega
theorem fits_G {t ga gb wc ty fn : Nat} (h : t < 16) (a : ga < 32) (b : gb < 32) (c : wc < 4) (y : ty < 16) (f : fn < 64) :
    fmtG t ga gb wc ty fn < 2 ^ 32 ∧ needsExt (fmtG t ga gb wc ty fn) = false := by
  apply short_fits (maj := 0x24) <;> (try unfold fmtG) <;> omega
theorem fits_H {gd ga gb im fn : Nat} (d : gd < 32) (a : ga < 32) (b : gb < 32) (i : im < 64) (f : fn < 32) :
    fmtH gd ga gb im fn < 2 ^ 32 ∧ needsExt (fmtH gd ga gb im fn) = false := by
  apply short_fits (maj := 0x28) <;> (try unfold fmtH) <;> omega
theorem fits_L {maj ga gb gc low : Nat} (d : GR) (m : maj = 0x30 ∨ maj = 0x31 ∨ maj = 0x32) (a : ga < 32) (b : gb < 32)
    (c : gc < 32) (f : low < 64) :
    fmtL maj d ga gb gc low < 2 ^ 32 ∧ needsExt (fmtL maj d ga gb gc low) = true := by
  apply long_fits (maj := maj) <;> (try unfold fmtL) <;> omega

/-- What a short form gives. -/
theorem of_short {i : Instr} {w : Nat} (e : encode i = some (w, none)) (v : i.isEvent = false)
    (h : w < 2 ^ 32 ∧ needsExt w = false) : Statement i := by
  unfold Statement
  rw [e]
  exact ⟨v, h.1, h.2.symm, rfl⟩
/-- What a long form gives. -/
theorem of_long {i : Instr} {w x : Nat} (e : encode i = some (w, some x)) (v : i.isEvent = false)
    (h : w < 2 ^ 32 ∧ needsExt w = true) (k : x < 2 ^ 32) : Statement i := by
  unfold Statement
  rw [e]
  exact ⟨v, h.1, h.2.symm, decide_eq_true k⟩
theorem ext_send (sc : Nat) (l : Lc) (h : BitVec 12) (k : sc < 8) : extSend sc l h < 2 ^ 32 := by
  have := code_lc l
  unfold extSend
  omega
theorem ext_amo (k : AmoW) (o : AmoOp) : extAmo k o < 2 ^ 32 := by
  have := code_amoW k
  have := code_amoOp o
  unfold extAmo
  omega

/-! One lemma per instruction. -/

theorem add (x0 : GR) (x1 : GR) (x2 : GR) : Statement (.add x0 x1 x2) := of_short rfl rfl (by apply fits_A <;> omega)
theorem sub (x0 : GR) (x1 : GR) (x2 : GR) : Statement (.sub x0 x1 x2) := of_short rfl rfl (by apply fits_A <;> omega)
theorem mul (x0 : GR) (x1 : GR) (x2 : GR) : Statement (.mul x0 x1 x2) := of_short rfl rfl (by apply fits_A <;> omega)
theorem mulh (x0 : GR) (x1 : GR) (x2 : GR) : Statement (.mulh x0 x1 x2) := of_short rfl rfl (by apply fits_A <;> omega)
theorem mulhn (x0 : GR) (x1 : GR) (x2 : GR) : Statement (.mulhn x0 x1 x2) := of_short rfl rfl (by apply fits_A <;> omega)
theorem div (x0 : GR) (x1 : GR) (x2 : GR) : Statement (.div x0 x1 x2) := of_short rfl rfl (by apply fits_A <;> omega)
theorem divn (x0 : GR) (x1 : GR) (x2 : GR) : Statement (.divn x0 x1 x2) := of_short rfl rfl (by apply fits_A <;> omega)
theorem rem (x0 : GR) (x1 : GR) (x2 : GR) : Statement (.rem x0 x1 x2) := of_short rfl rfl (by apply fits_A <;> omega)
theorem remn (x0 : GR) (x1 : GR) (x2 : GR) : Statement (.remn x0 x1 x2) := of_short rfl rfl (by apply fits_A <;> omega)
theorem madd (x0 : GR) (x1 : GR) (x2 : GR) (x3 : GR) : Statement (.madd x0 x1 x2 x3) := of_short rfl rfl (by apply fits_A <;> omega)
theorem and (x0 : GR) (x1 : GR) (x2 : GR) : Statement (.and x0 x1 x2) := of_short rfl rfl (by apply fits_A <;> omega)
theorem or (x0 : GR) (x1 : GR) (x2 : GR) : Statement (.or x0 x1 x2) := of_short rfl rfl (by apply fits_A <;> omega)
theorem xor (x0 : GR) (x1 : GR) (x2 : GR) : Statement (.xor x0 x1 x2) := of_short rfl rfl (by apply fits_A <;> omega)
theorem shl (x0 : GR) (x1 : GR) (x2 : GR) : Statement (.shl x0 x1 x2) := of_short rfl rfl (by apply fits_A <;> omega)
theorem shr (x0 : GR) (x1 : GR) (x2 : GR) : Statement (.shr x0 x1 x2) := of_short rfl rfl (by apply fits_A <;> omega)
theorem sra (x0 : GR) (x1 : GR) (x2 : GR) : Statement (.sra x0 x1 x2) := of_short rfl rfl (by apply fits_A <;> omega)
theorem rol (x0 : GR) (x1 : GR) (x2 : GR) : Statement (.rol x0 x1 x2) := of_short rfl rfl (by apply fits_A <;> omega)
theorem clz (x0 : GR) (x1 : GR) : Statement (.clz x0 x1) := of_short rfl rfl (by apply fits_A <;> omega)
theorem ctz (x0 : GR) (x1 : GR) : Statement (.ctz x0 x1) := of_short rfl rfl (by apply fits_A <;> omega)
theorem popc (x0 : GR) (x1 : GR) : Statement (.popc x0 x1) := of_short rfl rfl (by apply fits_A <;> omega)
theorem min (x0 : GR) (x1 : GR) (x2 : GR) : Statement (.min x0 x1 x2) := of_short rfl rfl (by apply fits_A <;> omega)
theorem minn (x0 : GR) (x1 : GR) (x2 : GR) : Statement (.minn x0 x1 x2) := of_short rfl rfl (by apply fits_A <;> omega)
theorem max (x0 : GR) (x1 : GR) (x2 : GR) : Statement (.max x0 x1 x2) := of_short rfl rfl (by apply fits_A <;> omega)
theorem maxn (x0 : GR) (x1 : GR) (x2 : GR) : Statement (.maxn x0 x1 x2) := of_short rfl rfl (by apply fits_A <;> omega)
theorem cmpeq (x0 : GR) (x1 : GR) (x2 : GR) : Statement (.cmpeq x0 x1 x2) := of_short rfl rfl (by apply fits_A <;> omega)
theorem cmplt (x0 : GR) (x1 : GR) (x2 : GR) : Statement (.cmplt x0 x1 x2) := of_short rfl rfl (by apply fits_A <;> omega)
theorem cmpltn (x0 : GR) (x1 : GR) (x2 : GR) : Statement (.cmpltn x0 x1 x2) := of_short rfl rfl (by apply fits_A <;> omega)
theorem cmple (x0 : GR) (x1 : GR) (x2 : GR) : Statement (.cmple x0 x1 x2) := of_short rfl rfl (by apply fits_A <;> omega)
theorem cmplen (x0 : GR) (x1 : GR) (x2 : GR) : Statement (.cmplen x0 x1 x2) := of_short rfl rfl (by apply fits_A <;> omega)
theorem sel (x0 : GR) (x1 : GR) (x2 : GR) (x3 : GR) : Statement (.sel x0 x1 x2 x3) := of_short rfl rfl (by apply fits_A <;> omega)
theorem sext (x0 : GR) (x1 : GR) (x2 : ExtW) : Statement (.sext x0 x1 x2) := by
  have := code_extW x2
  exact of_short rfl rfl (by apply fits_A <;> omega)
theorem zext (x0 : GR) (x1 : GR) (x2 : ExtW) : Statement (.zext x0 x1 x2) := by
  have := code_extW x2
  exact of_short rfl rfl (by apply fits_A <;> omega)
theorem addi (x0 : GR) (x1 : GR) (x2 : BitVec 16) : Statement (.addi x0 x1 x2) := of_short rfl rfl (by apply fits_B <;> omega)
theorem andi (x0 : GR) (x1 : GR) (x2 : BitVec 16) : Statement (.andi x0 x1 x2) := of_short rfl rfl (by apply fits_B <;> omega)
theorem ori (x0 : GR) (x1 : GR) (x2 : BitVec 16) : Statement (.ori x0 x1 x2) := of_short rfl rfl (by apply fits_B <;> omega)
theorem xori (x0 : GR) (x1 : GR) (x2 : BitVec 16) : Statement (.xori x0 x1 x2) := of_short rfl rfl (by apply fits_B <;> omega)
theorem shli (x0 : GR) (x1 : GR) (x2 : BitVec 6) : Statement (.shli x0 x1 x2) := of_short rfl rfl (by apply fits_B <;> omega)
theorem shri (x0 : GR) (x1 : GR) (x2 : BitVec 6) : Statement (.shri x0 x1 x2) := of_short rfl rfl (by apply fits_B <;> omega)
theorem srai (x0 : GR) (x1 : GR) (x2 : BitVec 6) : Statement (.srai x0 x1 x2) := of_short rfl rfl (by apply fits_B <;> omega)
theorem bfx (x0 : GR) (x1 : GR) (x2 : BitVec 6) (x3 : BitVec 6) : Statement (.bfx x0 x1 x2 x3) := of_short rfl rfl (by apply fits_B <;> omega)
theorem bfi (x0 : GR) (x1 : GR) (x2 : BitVec 6) (x3 : BitVec 6) : Statement (.bfi x0 x1 x2 x3) := of_short rfl rfl (by apply fits_B <;> omega)
theorem liShort (x0 : GR) (x1 : BitVec 16) : Statement (.liShort x0 x1) := of_short rfl rfl (by apply fits_B <;> omega)
theorem addpc (x0 : GR) (x1 : BitVec 16) : Statement (.addpc x0 x1) := of_short rfl rfl (by apply fits_B <;> omega)
theorem mkaAbs (x0 : GR) (x1 : GR) (x2 : GR) : Statement (.mkaAbs x0 x1 x2) := of_short rfl rfl (by apply fits_A <;> omega)
theorem mkaGrp (x0 : GR) (x1 : GR) (x2 : GR) : Statement (.mkaGrp x0 x1 x2) := of_short rfl rfl (by apply fits_A <;> omega)
theorem mkaCore (x0 : GR) (x1 : GR) (x2 : GR) : Statement (.mkaCore x0 x1 x2) := of_short rfl rfl (by apply fits_A <;> omega)
theorem tlook (x0 : GR) (x1 : GR) : Statement (.tlook x0 x1) := of_short rfl rfl (by apply fits_A <;> omega)
theorem tset (x0 : GR) (x1 : GR) (x2 : GR) : Statement (.tset x0 x1 x2) := of_short rfl rfl (by apply fits_A <;> omega)
theorem tclr (x0 : GR) : Statement (.tclr x0) := of_short rfl rfl (by apply fits_A <;> omega)
theorem beq (x0 : GR) (x1 : GR) (x2 : BitVec 16) : Statement (.beq x0 x1 x2) := of_short rfl rfl (fits_D _ _ _ (by decide))
theorem bne (x0 : GR) (x1 : GR) (x2 : BitVec 16) : Statement (.bne x0 x1 x2) := of_short rfl rfl (fits_D _ _ _ (by decide))
theorem blt (x0 : GR) (x1 : GR) (x2 : BitVec 16) : Statement (.blt x0 x1 x2) := of_short rfl rfl (fits_D _ _ _ (by decide))
theorem bge (x0 : GR) (x1 : GR) (x2 : BitVec 16) : Statement (.bge x0 x1 x2) := of_short rfl rfl (fits_D _ _ _ (by decide))
theorem bltn (x0 : GR) (x1 : GR) (x2 : BitVec 16) : Statement (.bltn x0 x1 x2) := of_short rfl rfl (fits_D _ _ _ (by decide))
theorem bgen (x0 : GR) (x1 : GR) (x2 : BitVec 16) : Statement (.bgen x0 x1 x2) := of_short rfl rfl (fits_D _ _ _ (by decide))
theorem jmp (x0 : BitVec 16) : Statement (.jmp x0) := of_short rfl rfl (fits_D _ _ _ (by decide))
theorem jal (x0 : GR) (x1 : BitVec 16) : Statement (.jal x0 x1) := of_short rfl rfl (fits_D _ _ _ (by decide))
theorem jalr (x0 : GR) (x1 : GR) (x2 : BitVec 16) : Statement (.jalr x0 x1 x2) := of_short rfl rfl (by apply fits_B <;> omega)
theorem ld (x0 : GR) (x1 : GR) (x2 : LdW) (x3 : BitVec 13) : Statement (.ld x0 x1 x2 x3) := by
  have := code_ldW x2
  exact of_short rfl rfl (by apply fits_C <;> omega)
theorem st (x0 : GR) (x1 : GR) (x2 : StW) (x3 : BitVec 13) : Statement (.st x0 x1 x2 x3) := by
  have := code_stW x2
  exact of_short rfl rfl (by apply fits_C <;> omega)
theorem ldm (x0 : GR) (x1 : GR) (x2 : GR) (x3 : BitVec 11) : Statement (.ldm x0 x1 x2 x3) := of_short rfl rfl (by apply fits_C <;> omega)
theorem stm (x0 : GR) (x1 : GR) (x2 : GR) (x3 : BitVec 11) : Statement (.stm x0 x1 x2 x3) := of_short rfl rfl (by apply fits_C <;> omega)
theorem crrd (x0 : GR) (x1 : Cr) : Statement (.crrd x0 x1) := by
  have := code_cr x1
  exact of_short rfl rfl (by apply fits_B <;> omega)
theorem crrdSeamt (x0 : GR) (x1 : GR) : Statement (.crrdSeamt x0 x1) := of_short rfl rfl (by apply fits_B <;> omega)
theorem crwr (x0 : GR) (x1 : Cr) : Statement (.crwr x0 x1) := by
  have := code_cr x1
  exact of_short rfl rfl (by apply fits_B <;> omega)
theorem crwrFpcr (x0 : GR) : Statement (.crwrFpcr x0) := of_short rfl rfl (by apply fits_B <;> omega)
theorem crwrTid (x0 : GR) : Statement (.crwrTid x0) := of_short rfl rfl (by apply fits_B <;> omega)
theorem crwrTcmp (x0 : GR) : Statement (.crwrTcmp x0) := of_short rfl rfl (by apply fits_B <;> omega)
theorem crwrPrio (x0 : GR) : Statement (.crwrPrio x0) := of_short rfl rfl (by apply fits_B <;> omega)
theorem crwrTstat (x0 : GR) : Statement (.crwrTstat x0) := of_short rfl rfl (by apply fits_B <;> omega)
theorem crwrRigs (x0 : GR) : Statement (.crwrRigs x0) := of_short rfl rfl (by apply fits_B <;> omega)
theorem crwrSscr (x0 : GR) : Statement (.crwrSscr x0) := of_short rfl rfl (by apply fits_B <;> omega)
theorem fadd (x0 : GR) (x1 : GR) (x2 : GR) (x3 : FTy) : Statement (.fadd x0 x1 x2 x3) := by
  have := code_fty x3
  exact of_short rfl rfl (by apply fits_A <;> omega)
theorem fsub (x0 : GR) (x1 : GR) (x2 : GR) (x3 : FTy) : Statement (.fsub x0 x1 x2 x3) := by
  have := code_fty x3
  exact of_short rfl rfl (by apply fits_A <;> omega)
theorem fmul (x0 : GR) (x1 : GR) (x2 : GR) (x3 : FTy) : Statement (.fmul x0 x1 x2 x3) := by
  have := code_fty x3
  exact of_short rfl rfl (by apply fits_A <;> omega)
theorem ffma (x0 : GR) (x1 : GR) (x2 : GR) (x3 : GR) (x4 : FTy) : Statement (.ffma x0 x1 x2 x3 x4) := by
  have := code_fty x4
  exact of_short rfl rfl (by apply fits_A <;> omega)
theorem fdiv (x0 : GR) (x1 : GR) (x2 : GR) (x3 : FTy) : Statement (.fdiv x0 x1 x2 x3) := by
  have := code_fty x3
  exact of_short rfl rfl (by apply fits_A <;> omega)
theorem fsqrt (x0 : GR) (x1 : GR) (x2 : FTy) : Statement (.fsqrt x0 x1 x2) := by
  have := code_fty x2
  exact of_short rfl rfl (by apply fits_A <;> omega)
theorem fmin (x0 : GR) (x1 : GR) (x2 : GR) (x3 : FTy) : Statement (.fmin x0 x1 x2 x3) := by
  have := code_fty x3
  exact of_short rfl rfl (by apply fits_A <;> omega)
theorem fmax (x0 : GR) (x1 : GR) (x2 : GR) (x3 : FTy) : Statement (.fmax x0 x1 x2 x3) := by
  have := code_fty x3
  exact of_short rfl rfl (by apply fits_A <;> omega)
theorem fcmpeq (x0 : GR) (x1 : GR) (x2 : GR) (x3 : FTy) : Statement (.fcmpeq x0 x1 x2 x3) := by
  have := code_fty x3
  exact of_short rfl rfl (by apply fits_A <;> omega)
theorem fcmplt (x0 : GR) (x1 : GR) (x2 : GR) (x3 : FTy) : Statement (.fcmplt x0 x1 x2 x3) := by
  have := code_fty x3
  exact of_short rfl rfl (by apply fits_A <;> omega)
theorem fcmple (x0 : GR) (x1 : GR) (x2 : GR) (x3 : FTy) : Statement (.fcmple x0 x1 x2 x3) := by
  have := code_fty x3
  exact of_short rfl rfl (by apply fits_A <;> omega)
theorem fclass (x0 : GR) (x1 : GR) (x2 : FTy) : Statement (.fclass x0 x1 x2) := by
  have := code_fty x2
  exact of_short rfl rfl (by apply fits_A <;> omega)
theorem fcvt (x0 : GR) (x1 : GR) (x2 : Rnd) (x3 : Num) (x4 : Num) : Statement (.fcvt x0 x1 x2 x3 x4) := by
  have := code_rnd x2
  have := code_num x3
  have := code_num x4
  exact of_short rfl rfl (by apply fits_A <;> omega)
theorem vmov (x0 : VR) (x1 : VR) (x2 : Option MR) (x3 : Ty) : Statement (.vmov x0 x1 x2 x3) := by
  have := code_ty x3
  exact of_short rfl rfl (by apply fits_E <;> omega)
theorem vadd (x0 : VR) (x1 : VR) (x2 : VR) (x3 : Option MR) (x4 : Ty) : Statement (.vadd x0 x1 x2 x3 x4) := by
  have := code_ty x4
  exact of_short rfl rfl (by apply fits_E <;> omega)
theorem vsub (x0 : VR) (x1 : VR) (x2 : VR) (x3 : Option MR) (x4 : Ty) : Statement (.vsub x0 x1 x2 x3 x4) := by
  have := code_ty x4
  exact of_short rfl rfl (by apply fits_E <;> omega)
theorem vmul (x0 : VR) (x1 : VR) (x2 : VR) (x3 : Option MR) (x4 : Ty) : Statement (.vmul x0 x1 x2 x3 x4) := by
  have := code_ty x4
  exact of_short rfl rfl (by apply fits_E <;> omega)
theorem vfma (x0 : VR) (x1 : VR) (x2 : VR) (x3 : Option MR) (x4 : Ty) : Statement (.vfma x0 x1 x2 x3 x4) := by
  have := code_ty x4
  exact of_short rfl rfl (by apply fits_E <;> omega)
theorem vmin (x0 : VR) (x1 : VR) (x2 : VR) (x3 : Option MR) (x4 : Ty) : Statement (.vmin x0 x1 x2 x3 x4) := by
  have := code_ty x4
  exact of_short rfl rfl (by apply fits_E <;> omega)
theorem vmax (x0 : VR) (x1 : VR) (x2 : VR) (x3 : Option MR) (x4 : Ty) : Statement (.vmax x0 x1 x2 x3 x4) := by
  have := code_ty x4
  exact of_short rfl rfl (by apply fits_E <;> omega)
theorem vabs (x0 : VR) (x1 : VR) (x2 : Option MR) (x3 : Ty) : Statement (.vabs x0 x1 x2 x3) := by
  have := code_ty x3
  exact of_short rfl rfl (by apply fits_E <;> omega)
theorem vneg (x0 : VR) (x1 : VR) (x2 : Option MR) (x3 : Ty) : Statement (.vneg x0 x1 x2 x3) := by
  have := code_ty x3
  exact of_short rfl rfl (by apply fits_E <;> omega)
theorem vand (x0 : VR) (x1 : VR) (x2 : VR) (x3 : Option MR) (x4 : Ty) : Statement (.vand x0 x1 x2 x3 x4) := by
  have := code_ty x4
  exact of_short rfl rfl (by apply fits_E <;> omega)
theorem vor (x0 : VR) (x1 : VR) (x2 : VR) (x3 : Option MR) (x4 : Ty) : Statement (.vor x0 x1 x2 x3 x4) := by
  have := code_ty x4
  exact of_short rfl rfl (by apply fits_E <;> omega)
theorem vxor (x0 : VR) (x1 : VR) (x2 : VR) (x3 : Option MR) (x4 : Ty) : Statement (.vxor x0 x1 x2 x3 x4) := by
  have := code_ty x4
  exact of_short rfl rfl (by apply fits_E <;> omega)
theorem vshl (x0 : VR) (x1 : VR) (x2 : VR) (x3 : Option MR) (x4 : Ty) : Statement (.vshl x0 x1 x2 x3 x4) := by
  have := code_ty x4
  exact of_short rfl rfl (by apply fits_E <;> omega)
theorem vshr (x0 : VR) (x1 : VR) (x2 : VR) (x3 : Option MR) (x4 : Ty) : Statement (.vshr x0 x1 x2 x3 x4) := by
  have := code_ty x4
  exact of_short rfl rfl (by apply fits_E <;> omega)
theorem vsra (x0 : VR) (x1 : VR) (x2 : VR) (x3 : Option MR) (x4 : Ty) : Statement (.vsra x0 x1 x2 x3 x4) := by
  have := code_ty x4
  exact of_short rfl rfl (by apply fits_E <;> omega)
theorem vsel (x0 : VR) (x1 : VR) (x2 : VR) (x3 : MR) (x4 : Ty) : Statement (.vsel x0 x1 x2 x3 x4) := by
  have := code_ty x4
  exact of_short rfl rfl (by apply fits_E <;> omega)
theorem vcmpEq (x0 : MR) (x1 : VR) (x2 : VR) (x3 : Option MR) (x4 : Ty) : Statement (.vcmpEq x0 x1 x2 x3 x4) := by
  have := code_ty x4
  exact of_short rfl rfl (by apply fits_E <;> omega)
theorem vcmpNe (x0 : MR) (x1 : VR) (x2 : VR) (x3 : Option MR) (x4 : Ty) : Statement (.vcmpNe x0 x1 x2 x3 x4) := by
  have := code_ty x4
  exact of_short rfl rfl (by apply fits_E <;> omega)
theorem vcmpLt (x0 : MR) (x1 : VR) (x2 : VR) (x3 : Option MR) (x4 : Ty) : Statement (.vcmpLt x0 x1 x2 x3 x4) := by
  have := code_ty x4
  exact of_short rfl rfl (by apply fits_E <;> omega)
theorem vcmpLe (x0 : MR) (x1 : VR) (x2 : VR) (x3 : Option MR) (x4 : Ty) : Statement (.vcmpLe x0 x1 x2 x3 x4) := by
  have := code_ty x4
  exact of_short rfl rfl (by apply fits_E <;> omega)
theorem vcmpGt (x0 : MR) (x1 : VR) (x2 : VR) (x3 : Option MR) (x4 : Ty) : Statement (.vcmpGt x0 x1 x2 x3 x4) := by
  have := code_ty x4
  exact of_short rfl rfl (by apply fits_E <;> omega)
theorem vcmpGe (x0 : MR) (x1 : VR) (x2 : VR) (x3 : Option MR) (x4 : Ty) : Statement (.vcmpGe x0 x1 x2 x3 x4) := by
  have := code_ty x4
  exact of_short rfl rfl (by apply fits_E <;> omega)
theorem vredAdd (x0 : VR) (x1 : VR) (x2 : Option MR) (x3 : Ty) : Statement (.vredAdd x0 x1 x2 x3) := by
  have := code_ty x3
  exact of_short rfl rfl (by apply fits_E <;> omega)
theorem vredMin (x0 : VR) (x1 : VR) (x2 : Option MR) (x3 : Ty) : Statement (.vredMin x0 x1 x2 x3) := by
  have := code_ty x3
  exact of_short rfl rfl (by apply fits_E <;> omega)
theorem vredMax (x0 : VR) (x1 : VR) (x2 : Option MR) (x3 : Ty) : Statement (.vredMax x0 x1 x2 x3) := by
  have := code_ty x3
  exact of_short rfl rfl (by apply fits_E <;> omega)
theorem vredOr (x0 : VR) (x1 : VR) (x2 : Option MR) (x3 : Ty) : Statement (.vredOr x0 x1 x2 x3) := by
  have := code_ty x3
  exact of_short rfl rfl (by apply fits_E <;> omega)
theorem vperm (x0 : VR) (x1 : VR) (x2 : VR) (x3 : Option MR) (x4 : Ty) : Statement (.vperm x0 x1 x2 x3 x4) := by
  have := code_ty x4
  exact of_short rfl rfl (by apply fits_E <;> omega)
theorem vldBody (x0 : VR) (x1 : GR) (x2 : BitVec 5) : Statement (.vldBody x0 x1 x2) := of_short rfl rfl (by apply fits_F <;> omega)
theorem vldSide (x0 : VR) (x1 : GR) (x2 : BitVec 5) : Statement (.vldSide x0 x1 x2) := of_short rfl rfl (by apply fits_F <;> omega)
theorem vldMask (x0 : MR) (x1 : GR) (x2 : BitVec 5) : Statement (.vldMask x0 x1 x2) := of_short rfl rfl (by apply fits_F <;> omega)
theorem vstBody (x0 : VR) (x1 : GR) (x2 : BitVec 5) : Statement (.vstBody x0 x1 x2) := of_short rfl rfl (by apply fits_F <;> omega)
theorem vstSide (x0 : VR) (x1 : GR) (x2 : BitVec 5) : Statement (.vstSide x0 x1 x2) := of_short rfl rfl (by apply fits_F <;> omega)
theorem vstMask (x0 : MR) (x1 : GR) (x2 : BitVec 5) : Statement (.vstMask x0 x1 x2) := of_short rfl rfl (by apply fits_F <;> omega)
theorem vlds (x0 : VR) (x1 : GR) (x2 : GR) (x3 : Option MR) (x4 : Ty) : Statement (.vlds x0 x1 x2 x3 x4) := by
  have := code_ty x4
  exact of_short rfl rfl (by apply fits_F <;> omega)
theorem vsts (x0 : VR) (x1 : GR) (x2 : GR) (x3 : Option MR) (x4 : Ty) : Statement (.vsts x0 x1 x2 x3 x4) := by
  have := code_ty x4
  exact of_short rfl rfl (by apply fits_F <;> omega)
theorem vgath (x0 : VR) (x1 : GR) (x2 : VR) (x3 : Option MR) (x4 : Ty) : Statement (.vgath x0 x1 x2 x3 x4) := by
  have := code_ty x4
  exact of_short rfl rfl (by apply fits_F <;> omega)
theorem vscat (x0 : VR) (x1 : GR) (x2 : VR) (x3 : Option MR) (x4 : Ty) : Statement (.vscat x0 x1 x2 x3 x4) := by
  have := code_ty x4
  exact of_short rfl rfl (by apply fits_F <;> omega)
theorem vbcast (x0 : VR) (x1 : GR) (x2 : Option MR) (x3 : Ty) : Statement (.vbcast x0 x1 x2 x3) := by
  have := code_ty x3
  exact of_short rfl rfl (by apply fits_F <;> omega)
theorem vins (x0 : VR) (x1 : GR) (x2 : GR) (x3 : Ty) : Statement (.vins x0 x1 x2 x3) := by
  have := code_ty x3
  exact of_short rfl rfl (by apply fits_F <;> omega)
theorem vext (x0 : VR) (x1 : GR) (x2 : GR) (x3 : Ty) : Statement (.vext x0 x1 x2 x3) := by
  have := code_ty x3
  exact of_short rfl rfl (by apply fits_F <;> omega)
theorem mand (x0 : MR) (x1 : MR) (x2 : MR) : Statement (.mand x0 x1 x2) := of_short rfl rfl (by apply fits_A <;> omega)
theorem mor (x0 : MR) (x1 : MR) (x2 : MR) : Statement (.mor x0 x1 x2) := of_short rfl rfl (by apply fits_A <;> omega)
theorem mxor (x0 : MR) (x1 : MR) (x2 : MR) : Statement (.mxor x0 x1 x2) := of_short rfl rfl (by apply fits_A <;> omega)
theorem mnot (x0 : MR) (x1 : MR) : Statement (.mnot x0 x1) := of_short rfl rfl (by apply fits_A <;> omega)
theorem mpop (x0 : GR) (x1 : MR) : Statement (.mpop x0 x1) := of_short rfl rfl (by apply fits_A <;> omega)
theorem mfirst (x0 : GR) (x1 : MR) : Statement (.mfirst x0 x1) := of_short rfl rfl (by apply fits_A <;> omega)
theorem vcvt (x0 : VR) (x1 : VR) (x2 : Ty) (x3 : Option MR) (x4 : Ty) : Statement (.vcvt x0 x1 x2 x3 x4) := by
  have := code_ty x2
  have := code_ty x4
  exact of_short rfl rfl (by apply fits_E <;> omega)
theorem vpackbk (x0 : VR) (x1 : VR) (x2 : VR) (x3 : Ty) : Statement (.vpackbk x0 x1 x2 x3) := by
  have := code_ty x3
  exact of_short rfl rfl (by apply fits_E <;> omega)
theorem vunbk (x0 : VR) (x1 : VR) (x2 : BitVec 4) (x3 : Option MR) (x4 : Ty) : Statement (.vunbk x0 x1 x2 x3 x4) := by
  have := code_ty x4
  exact of_short rfl rfl (by apply fits_E <;> omega)
theorem vscale (x0 : VR) (x1 : VR) (x2 : VR) (x3 : Ty) : Statement (.vscale x0 x1 x2 x3) := by
  have := code_ty x3
  exact of_short rfl rfl (by apply fits_E <;> omega)
theorem vexp2 (x0 : VR) (x1 : VR) (x2 : Option MR) : Statement (.vexp2 x0 x1 x2) := of_short rfl rfl (by apply fits_E <;> omega)
theorem vlog2 (x0 : VR) (x1 : VR) (x2 : Option MR) : Statement (.vlog2 x0 x1 x2) := of_short rfl rfl (by apply fits_E <;> omega)
theorem vrcpa (x0 : VR) (x1 : VR) (x2 : Option MR) : Statement (.vrcpa x0 x1 x2) := of_short rfl rfl (by apply fits_E <;> omega)
theorem vrsqa (x0 : VR) (x1 : VR) (x2 : Option MR) : Statement (.vrsqa x0 x1 x2) := of_short rfl rfl (by apply fits_E <;> omega)
theorem mma (x0 : AT) (x1 : GR) (x2 : GR) (x3 : WC) (x4 : Ty) : Statement (.mma x0 x1 x2 x3 x4) := by
  have := code_ty x4
  exact of_short rfl rfl (by apply fits_G <;> omega)
theorem mmas (x0 : AT) (x1 : GR) (x2 : GR) (x3 : WC) : Statement (.mmas x0 x1 x2 x3) := of_short rfl rfl (by apply fits_G <;> omega)
theorem mafd (x0 : GR) : Statement (.mafd x0) := of_short rfl rfl (by apply fits_G <;> omega)
theorem mbfd (x0 : GR) : Statement (.mbfd x0) := of_short rfl rfl (by apply fits_G <;> omega)
theorem accz (x0 : AT) : Statement (.accz x0) := of_short rfl rfl (by apply fits_G <;> omega)
theorem accld (x0 : AT) (x1 : GR) (x2 : WC) (x3 : Ty) : Statement (.accld x0 x1 x2 x3) := by
  have := code_ty x3
  exact of_short rfl rfl (by apply fits_G <;> omega)
theorem accst (x0 : AT) (x1 : GR) (x2 : WC) (x3 : Ty) : Statement (.accst x0 x1 x2 x3) := by
  have := code_ty x3
  exact of_short rfl rfl (by apply fits_G <;> omega)
theorem accrn (x0 : AT) (x1 : GR) : Statement (.accrn x0 x1) := of_short rfl rfl (by apply fits_G <;> omega)
theorem accsc (x0 : AT) (x1 : GR) (x2 : GR) : Statement (.accsc x0 x1 x2) := of_short rfl rfl (by apply fits_G <;> omega)
theorem wait (x0 : BitVec 10) (x1 : WC) : Statement (.wait x0 x1) := of_short rfl rfl (by apply fits_G <;> omega)
theorem rig (x0 : GR) (x1 : BitVec 5) : Statement (.rig x0 x1) := of_short rfl rfl (by apply fits_B <;> omega)
theorem rigsv (x0 : GR) (x1 : BitVec 16) : Statement (.rigsv x0 x1) := of_short rfl rfl (by apply fits_B <;> omega)
theorem rigld (x0 : GR) (x1 : BitVec 16) : Statement (.rigld x0 x1) := of_short rfl rfl (by apply fits_B <;> omega)
theorem nop : Statement .nop := of_short rfl rfl (by apply fits_H <;> omega)
theorem recv (x0 : GR) (x1 : GR) (x2 : BitVec 6) : Statement (.recv x0 x1 x2) := of_short rfl rfl (by apply fits_H <;> omega)
theorem recvv (x0 : VR) (x1 : GR) (x2 : BitVec 6) : Statement (.recvv x0 x1 x2) := of_short rfl rfl (by apply fits_H <;> omega)
theorem peek (x0 : GR) (x1 : BitVec 6) : Statement (.peek x0 x1) := of_short rfl rfl (by apply fits_H <;> omega)
theorem seatset (x0 : GR) (x1 : GR) (x2 : GR) (x3 : BitVec 6) : Statement (.seatset x0 x1 x2 x3) := of_short rfl rfl (by apply fits_H <;> omega)
theorem seatclr (x0 : GR) (x1 : BitVec 6) : Statement (.seatclr x0 x1) := of_short rfl rfl (by apply fits_H <;> omega)
theorem join (x0 : GR) (x1 : GR) : Statement (.join x0 x1) := of_short rfl rfl (by apply fits_H <;> omega)
theorem sopen (x0 : GR) (x1 : GR) (x2 : WC) (x3 : SClass) : Statement (.sopen x0 x1 x2 x3) := by
  have := code_sclass x3
  exact of_short rfl rfl (by apply fits_H <;> omega)
theorem sctlClose (x0 : GR) (x1 : BitVec 2) : Statement (.sctlClose x0 x1) := of_short rfl rfl (by apply fits_H <;> omega)
theorem sctlAbort (x0 : GR) (x1 : BitVec 2) : Statement (.sctlAbort x0 x1) := of_short rfl rfl (by apply fits_H <;> omega)
theorem sctlAdvance (x0 : GR) (x1 : BitVec 2) : Statement (.sctlAdvance x0 x1) := of_short rfl rfl (by apply fits_H <;> omega)
theorem swait (x0 : GR) (x1 : BitVec 2) : Statement (.swait x0 x1) := of_short rfl rfl (by apply fits_H <;> omega)
theorem fwait (x0 : GR) (x1 : GR) : Statement (.fwait x0 x1) := of_short rfl rfl (by apply fits_H <;> omega)
theorem fence (x0 : Scope) : Statement (.fence x0) := by
  have := code_scope x0
  exact of_short rfl rfl (by apply fits_H <;> omega)
theorem watch (x0 : GR) (x1 : GR) : Statement (.watch x0 x1) := of_short rfl rfl (by apply fits_H <;> omega)
theorem sleep (x0 : GR) : Statement (.sleep x0) := of_short rfl rfl (by apply fits_H <;> omega)
theorem yield : Statement .yield := of_short rfl rfl (by apply fits_H <;> omega)
theorem wake (x0 : GR) (x1 : GR) : Statement (.wake x0 x1) := of_short rfl rfl (by apply fits_H <;> omega)
theorem tqpush (x0 : GR) (x1 : GR) (x2 : BitVec 2) : Statement (.tqpush x0 x1 x2) := of_short rfl rfl (by apply fits_H <;> omega)
theorem tqpop (x0 : GR) : Statement (.tqpop x0) := of_short rfl rfl (by apply fits_H <;> omega)
theorem barr (x0 : GR) (x1 : BitVec 3) : Statement (.barr x0 x1) := of_short rfl rfl (by apply fits_H <;> omega)
theorem bwait (x0 : GR) (x1 : BitVec 3) : Statement (.bwait x0 x1) := of_short rfl rfl (by apply fits_H <;> omega)
theorem siteq (x0 : GR) (x1 : GR) : Statement (.siteq x0 x1) := of_short rfl rfl (by apply fits_H <;> omega)
theorem coxcallPoisoned (x0 : GR) (x1 : GR) (x2 : GR) : Statement (.coxcallPoisoned x0 x1 x2) := of_short rfl rfl (by apply fits_H <;> omega)
theorem coxcallLog (x0 : GR) (x1 : GR) (x2 : GR) (x3 : BitVec 6) : Statement (.coxcallLog x0 x1 x2 x3) := of_short rfl rfl (by apply fits_H <;> omega)
theorem coxcallCheckpoint (x0 : GR) (x1 : GR) (x2 : GR) : Statement (.coxcallCheckpoint x0 x1 x2) := of_short rfl rfl (by apply fits_H <;> omega)
theorem sret : Statement .sret := of_short rfl rfl (by apply fits_H <;> omega)
theorem halt : Statement .halt := of_short rfl rfl (by apply fits_H <;> omega)
theorem haltSlot (x0 : GR) : Statement (.haltSlot x0) := of_short rfl rfl (by apply fits_H <;> omega)
theorem trap (x0 : BitVec 16) : Statement (.trap x0) := of_short rfl rfl (by apply fits_B <;> omega)
theorem liLong (x0 : GR) (x1 : BitVec 32) : Statement (.liLong x0 x1) := of_long rfl rfl (by apply fits_L <;> omega) (by omega)
theorem liHi (x0 : GR) (x1 : BitVec 32) : Statement (.liHi x0 x1) := of_long rfl rfl (by apply fits_L <;> omega) (by omega)
theorem send (x0 : GR) (x1 : GR) (x2 : GR) (x3 : GR) (x4 : Lc) (x5 : BitVec 12) : Statement (.send x0 x1 x2 x3 x4 x5) := by
  have := code_lc x4
  exact of_long rfl rfl (by apply fits_L <;> omega) (ext_send _ _ _ (by omega))
theorem sendv (x0 : GR) (x1 : GR) (x2 : VR) (x3 : GR) (x4 : Lc) (x5 : BitVec 12) : Statement (.sendv x0 x1 x2 x3 x4 x5) := by
  have := code_lc x4
  exact of_long rfl rfl (by apply fits_L <;> omega) (ext_send _ _ _ (by omega))
theorem sendr (x0 : GR) (x1 : GR) (x2 : GR) (x3 : GR) (x4 : Scope) (x5 : Lc) (x6 : BitVec 12) : Statement (.sendr x0 x1 x2 x3 x4 x5 x6) := by
  have := code_scope x4
  have := code_lc x5
  exact of_long rfl rfl (by apply fits_L <;> omega) (ext_send _ _ _ (by omega))
theorem finish (x0 : GR) (x1 : GR) (x2 : GR) (x3 : Lc) (x4 : BitVec 12) : Statement (.finish x0 x1 x2 x3 x4) := by
  have := code_lc x3
  exact of_long rfl rfl (by apply fits_L <;> omega) (ext_send _ _ _ (by omega))
theorem renorm (x0 : GR) (x1 : GR) (x2 : GR) (x3 : GR) (x4 : BitVec 12) : Statement (.renorm x0 x1 x2 x3 x4) := of_long rfl rfl (by apply fits_L <;> omega) (ext_send _ _ _ (by omega))
theorem amo (x0 : GR) (x1 : GR) (x2 : GR) (x3 : AmoW) (x4 : AmoOp) : Statement (.amo x0 x1 x2 x3 x4) := by
  have := code_amoW x3
  have := code_amoOp x4
  exact of_long rfl rfl (by apply fits_L <;> omega) (ext_amo _ _)
theorem cas (x0 : GR) (x1 : GR) (x2 : GR) (x3 : GR) (x4 : AmoW) : Statement (.cas x0 x1 x2 x3 x4) := by
  have := code_amoW x4
  exact of_long rfl rfl (by apply fits_L <;> omega) (ext_amo _ _)
theorem asyncTrapEntry : Statement .asyncTrapEntry := rfl
theorem timerExpiry (x0 : SlotId) : Statement (.timerExpiry x0) := rfl
theorem idleIssueResume (x0 : Bool) : Statement (.idleIssueResume x0) := rfl
theorem clusterPortAccess : Statement .clusterPortAccess := rfl
theorem mmaExecute : Statement .mmaExecute := rfl
theorem mmasExecute : Statement .mmasExecute := rfl
theorem acczPerform : Statement .acczPerform := rfl
theorem accrnPerform : Statement .accrnPerform := rfl
theorem accldPerform : Statement .accldPerform := rfl
theorem accstPerform : Statement .accstPerform := rfl
theorem streamLegStart (x0 : BitVec 2) : Statement (.streamLegStart x0) := rfl
theorem streamCompletion (x0 : BitVec 2) : Statement (.streamCompletion x0) := rfl
theorem legRewind (x0 : BitVec 2) : Statement (.legRewind x0) := rfl
theorem illegalInstruction (x0 : BitVec 32) : Statement (.illegalInstruction x0) := rfl
theorem poisonedFetch : Statement .poisonedFetch := rfl
theorem dataArrival (x0 : Nat) : Statement (.dataArrival x0) := rfl
theorem finishArrival (x0 : Nat) : Statement (.finishArrival x0) := rfl
theorem replyArrival (x0 : Nat) : Statement (.replyArrival x0) := rfl
theorem finishResend (x0 : Nat) : Statement (.finishResend x0) := rfl
theorem treeBlockDelivery (x0 : Nat) : Statement (.treeBlockDelivery x0) := rfl
theorem renormFromParent (x0 : Nat) : Statement (.renormFromParent x0) := rfl
theorem treeFinishForward (x0 : Nat) (x1 : BitVec 16) (x2 : BitVec 12) (x3 : BitVec 8) : Statement (.treeFinishForward x0 x1 x2 x3) := rfl
theorem rootFlagWrite (x0 : Nat) (x1 : BitVec 16) (x2 : BitVec 12) (x3 : BitVec 8) : Statement (.rootFlagWrite x0 x1 x2 x3) := rfl
theorem barrierArrival (x0 : Nat) : Statement (.barrierArrival x0) := rfl
theorem barrierRelease (x0 : Nat) : Statement (.barrierRelease x0) := rfl
theorem homeAtomic (x0 : Nat) : Statement (.homeAtomic x0) := rfl
theorem atomicResend : Statement .atomicResend := rfl
theorem atomicBusyResend : Statement .atomicBusyResend := rfl
theorem lowAcknowledgement (x0 : Nat) : Statement (.lowAcknowledgement x0) := rfl
theorem proxyAtomic (x0 : Nat) (x1 : BitVec 4) : Statement (.proxyAtomic x0 x1) := rfl
theorem watchRequest (x0 : Nat) : Statement (.watchRequest x0) := rfl
theorem watchWakeArrival (x0 : Nat) : Statement (.watchWakeArrival x0) := rfl
theorem wakeArrival (x0 : Nat) : Statement (.wakeArrival x0) := rfl
theorem deadlockProbe (x0 : SlotId) (x1 : BitVec 16) : Statement (.deadlockProbe x0 x1) := rfl
theorem watchdogExpiry (x0 : SlotId) : Statement (.watchdogExpiry x0) := rfl
theorem scrubVisit (x0 : Nat) (x1 : Nat) (x2 : List (Nat × Ecc)) : Statement (.scrubVisit x0 x1 x2) := rfl
theorem revisit (x0 : Nat) (x1 : Nat) (x2 : List (Nat × Ecc)) : Statement (.revisit x0 x1 x2) := rfl
theorem bucketLeak (x0 : Nat) : Statement (.bucketLeak x0) := rfl
theorem umpireInterval (x0 : Nat) (x1 : Option Nat) : Statement (.umpireInterval x0 x1) := rfl
theorem operatingPointChange (x0 : Nat) : Statement (.operatingPointChange x0) := rfl
theorem thermalCapStep (x0 : Nat) (x1 : BitVec 16) : Statement (.thermalCapStep x0 x1) := rfl
theorem phaseLoss (x0 : Nat) (x1 : Nat) : Statement (.phaseLoss x0 x1) := rfl
theorem governorTrimRaise (x0 : Nat) : Statement (.governorTrimRaise x0) := rfl
theorem rampSample (x0 : List (Nat × Nat)) (x1 : Nat) : Statement (.rampSample x0 x1) := rfl
theorem paddleCreation (x0 : Option (BitVec 16)) : Statement (.paddleCreation x0) := rfl
theorem ptpTimestamp (x0 : BitVec 64) (x1 : Bool) : Statement (.ptpTimestamp x0 x1) := rfl
theorem monitorRead (x0 : Nat) (x1 : BitVec 16) (x2 : BitVec 12) (x3 : BitVec 20) : Statement (.monitorRead x0 x1 x2 x3) := rfl
theorem alignmentRemeasure (x0 : Nat) (x1 : Int) : Statement (.alignmentRemeasure x0 x1) := rfl
theorem counterExchange (x0 : Nat) (x1 : Nat) (x2 : Nat) (x3 : Nat) (x4 : Nat) (x5 : Bool) : Statement (.counterExchange x0 x1 x2 x3 x4 x5) := rfl
theorem linkReplay (x0 : Nat) (x1 : Nat) (x2 : BitVec 8) : Statement (.linkReplay x0 x1 x2) := rfl
theorem sliceRetest (x0 : Nat) (x1 : BitVec 8) : Statement (.sliceRetest x0 x1) := rfl
theorem linkRetrain (x0 : Nat) (x1 : BitVec 8) (x2 : BitVec 10) (x3 : BitVec 4) (x4 : Nat) : Statement (.linkRetrain x0 x1 x2 x3 x4) := rfl
theorem routeSwitch (x0 : BitVec 2) (x1 : Nat) : Statement (.routeSwitch x0 x1) := rfl
theorem contactMade (x0 : Nat) (x1 : Option (List (Nat × Nat))) : Statement (.contactMade x0 x1) := rfl
theorem bringUpStart (x0 : Nat) (x1 : List Int) : Statement (.bringUpStart x0 x1) := rfl
theorem trainingPass (x0 : Nat) : Statement (.trainingPass x0) := rfl
theorem trainingFailure (x0 : Nat) : Statement (.trainingFailure x0) := rfl
theorem siteAdmission (x0 : Nat) : Statement (.siteAdmission x0) := rfl
theorem drain (x0 : Nat) : Statement (.drain x0) := rfl
theorem readmit (x0 : Nat) : Statement (.readmit x0) := rfl
theorem contactLost (x0 : Nat) : Statement (.contactLost x0) := rfl
theorem surpriseRemoval (x0 : Nat) : Statement (.surpriseRemoval x0) := rfl
theorem lostCleanupComplete (x0 : Nat) : Statement (.lostCleanupComplete x0) := rfl
theorem drainComplete (x0 : Nat) : Statement (.drainComplete x0) := rfl
theorem drainDeadline (x0 : Nat) : Statement (.drainDeadline x0) := rfl
theorem votedTransaction (x0 : Nat) (x1 : Presented) : Statement (.votedTransaction x0 x1) := rfl
theorem copyReset (x0 : Nat) (x1 : BitVec 2) : Statement (.copyReset x0 x1) := rfl
theorem triadCheckpoint (x0 : Nat) (x1 : Presented) (x2 : Nat) : Statement (.triadCheckpoint x0 x1 x2) := rfl
theorem heartbeat (x0 : Bool) : Statement (.heartbeat x0) := rfl
theorem deputyTakeover : Statement .deputyTakeover := rfl
theorem panelBringUp (x0 : BringUp) : Statement (.panelBringUp x0) := rfl
theorem quoteRequest (x0 : BitVec 256) : Statement (.quoteRequest x0) := rfl
theorem keyEnrolment (x0 : BitVec 16) (x1 : PubKey) (x2 : Bool) : Statement (.keyEnrolment x0 x1 x2) := rfl
theorem keyRevocation (x0 : BitVec 16) (x1 : Nat) (x2 : Bool) : Statement (.keyRevocation x0 x1 x2) := rfl
theorem register (x0 : BitVec 4) : Statement (.register x0) := rfl
theorem reside (x0 : BitVec 4) : Statement (.reside x0) := rfl
theorem evict (x0 : BitVec 4) : Statement (.evict x0) := rfl
theorem retire (x0 : BitVec 4) : Statement (.retire x0) := rfl
theorem queueActivate (x0 : BitVec 6) (x1 : BitVec 16) : Statement (.queueActivate x0 x1) := rfl
theorem queueStop (x0 : BitVec 6) (x1 : BitVec 16) : Statement (.queueStop x0 x1) := rfl
theorem doorbell (x0 : BitVec 6) (x1 : BitVec 16) (x2 : BitVec 16) : Statement (.doorbell x0 x1 x2) := rfl
theorem commandFetch (x0 : BitVec 6) : Statement (.commandFetch x0) := rfl
theorem launch (x0 : BitVec 6) : Statement (.launch x0) := rfl
theorem copy (x0 : BitVec 6) (x1 : Option Nat) : Statement (.copy x0 x1) := rfl
theorem signalSet (x0 : BitVec 6) : Statement (.signalSet x0) := rfl
theorem signalAdd (x0 : BitVec 6) : Statement (.signalAdd x0) := rfl
theorem waitsig (x0 : BitVec 6) : Statement (.waitsig x0) := rfl
theorem queueFence (x0 : BitVec 6) : Statement (.queueFence x0) := rfl
theorem powerBudget (x0 : BitVec 6) : Statement (.powerBudget x0) := rfl
theorem powerRamp (x0 : BitVec 6) : Statement (.powerRamp x0) := rfl
theorem powerSuspend (x0 : BitVec 6) : Statement (.powerSuspend x0) := rfl
theorem powerResume (x0 : BitVec 6) : Statement (.powerResume x0) := rfl
theorem pageMap (x0 : BitVec 6) : Statement (.pageMap x0) := rfl
theorem pageUnmap (x0 : BitVec 6) : Statement (.pageUnmap x0) := rfl
theorem pageMigrate (x0 : BitVec 6) (x1 : Option Nat) : Statement (.pageMigrate x0 x1) := rfl
theorem admissionPass : Statement .admissionPass := rfl
theorem panelRoutingWrite (x0 : BitVec 16) (x1 : BitVec 10) (x2 : BitVec 16) : Statement (.panelRoutingWrite x0 x1 x2) := rfl
theorem controlWindowWrite (x0 : BitVec 16) (x1 : Nat) (x2 : Nat) (x3 : BitVec 64) : Statement (.controlWindowWrite x0 x1 x2 x3) := rfl
theorem hdmWindowAccess (x0 : Nat) (x1 : Nat) (x2 : Nat) (x3 : Option (BitVec 64)) : Statement (.hdmWindowAccess x0 x1 x2 x3) := rfl
theorem placement (x0 : Nat) : Statement (.placement x0) := rfl
theorem groupStart (x0 : Nat) : Statement (.groupStart x0) := rfl
theorem groupRetirement (x0 : Nat) : Statement (.groupRetirement x0) := rfl
theorem cutComplete (x0 : Nat) : Statement (.cutComplete x0) := rfl
theorem cutDeadline (x0 : Nat) : Statement (.cutDeadline x0) := rfl
theorem relaunch (x0 : Nat) : Statement (.relaunch x0) := rfl
theorem refusalRetry : Statement .refusalRetry := rfl
theorem faultLimit (x0 : Nat) (x1 : Nat) : Statement (.faultLimit x0 x1) := rfl
theorem routerFailure (x0 : Place) : Statement (.routerFailure x0) := rfl
theorem cxlLinkTrainingChange (x0 : Nat) (x1 : Bool) : Statement (.cxlLinkTrainingChange x0 x1) := rfl
theorem domainCreation (x0 : DomainSpec) : Statement (.domainCreation x0) := rfl
theorem peerPanelAdmission (x0 : BitVec 16) : Statement (.peerPanelAdmission x0) := rfl
theorem peerPanelGroupFault (x0 : BitVec 16) (x1 : Bool) : Statement (.peerPanelGroupFault x0 x1) := rfl
theorem silentCopyTimeout (x0 : Nat) : Statement (.silentCopyTimeout x0) := rfl

end Sys2Proof.Laws.EncodingFits
end

