-- ==== Sys2Proof/Laws/Steps.lean ====
section
/-! SUPPORT. What a step adds around its row, said once: the gate of what the lead cox keeps, the votes of a triad, late reads. -/

namespace Sys2Proof.Machine

/-! ## What the lead cox keeps (R351) -/

/-- A state after the gate is the new one, where the change can take effect or touches nothing the lead cox keeps, or the old one. -/
theorem gated_cases (old new : State) :
    (old.gated new = new ∧ (old.mayChange new = true ∨ new.keepsLead old = true)) ∨
    (old.gated new = old ∧ old.mayChange new = false ∧ new.keepsLead old = false) := by
  unfold State.gated
  cases h : old.mayChange new <;> cases g : new.keepsLead old <;> simp
theorem gated_keeps {old new : State} (h : new.keepsLead old = true) : old.gated new = new := by simp [State.gated, h]
theorem gated_leadUp {old : State} (new : State) (h : old.leadUp = true) : old.gated new = new := by
  simp [State.gated, State.mayChange, h]
theorem keepsLead_refl (s : State) : s.keepsLead s = true := by simp [State.keepsLead]
@[simp] theorem gated_self (s : State) : s.gated s = s := by simp [State.gated, keepsLead_refl]

/-- The end of a step changes nothing but triads. -/
theorem mirrored_same (t old : State) : SameButTriads t (t.mirrored old) := by
  unfold State.mirrored
  split
  · split
    · exact SameButTriads.refl t
    · exact voteTiles_same _ t
  · exact SameButTriads.refl t
theorem mirrored_keeps {t old : State} (h : t.keepsLead old = true) : t.mirrored old = t := by
  unfold State.mirrored
  split <;> simp [h]

/-! ## Votes (R345, R346) -/

/-- With none waiting a triad's own transaction issues; else it comes behind the one that waits. -/
theorem vote_cases (t : Triad) (now x : Nat) :
    (t.shown = [] ∧ t.vote now x = t.issueOwn now x) ∨ (t.shown ≠ [] ∧ t.vote now x = { t with behind := t.behind + 1 }) := by
  unfold Triad.vote
  cases h : t.shown <;> simp
@[simp] theorem issueMany_halted (now n : Nat) : ∀ t : Triad, (t.issueMany now n).halted = t.halted := by
  induction n with
  | zero => exact fun _ => rfl
  | succ n ih => exact fun t => ih _
@[simp] theorem issueMany_txs (now n : Nat) : ∀ t : Triad, (t.issueMany now n).txs = t.txs + n := by
  induction n with
  | zero => exact fun _ => rfl
  | succ n ih =>
    intro t
    rw [Triad.issueMany, ih]
    simp only [Triad.issueOwn]
    omega
/-- Those behind have issued, and none is behind, or one still waits. -/
theorem catchUp_cases (t : Triad) (now : Nat) :
    (t.shown = [] ∧ t.halted = false ∧ (t.catchUp now).txs = t.txs + t.behind) ∨ ((t.shown ≠ [] ∨ t.halted = true) ∧ t.catchUp now = t) := by
  unfold Triad.catchUp
  cases h : t.shown <;> cases g : t.halted <;> simp

/-! ## Late reads (R115) -/

theorem takeIf_none {s : State} {p : Late → Bool} (h : ∀ q ∈ s.core.sh.late, p q = false) : s.takeIf p = s := by
  have e : s.core.sh.late.filter p = [] := List.filter_eq_nil_iff.mpr fun q m => by simp [h q m]
  simp [State.takeIf, e]
theorem takeIf_nil {s : State} (p : Late → Bool) (h : s.core.sh.late = []) : s.takeIf p = s := takeIf_none (by simp [h])
theorem takeLate_nil {s : State} (h : s.core.sh.late = []) : s.takeLate = s := takeIf_nil _ h
theorem takeWords_nil {s : State} (ws : List Nat) (h : s.core.sh.late = []) : s.takeWords ws = s := takeIf_nil _ h
theorem settleReads_nil {s : State} (named : Option Instr) (h : s.core.sh.late = []) : s.settleReads named = s := by
  simp [State.settleReads, h]
/-- No read goes late where no input says so. -/
theorem orLate_now {s : State} (l : List Late) (t : State) (r : Res) (h : ¬ Input.readLate ∈ s.met) : s.orLate l t r = r := by
  exact if_neg (by simp [State.goLate, h])

end Sys2Proof.Machine
end

