-- ==== Sys2Proof/Tests/Slice0.lean ====
section
/-! SUPPORT. Tests of the definitions: ill-formed terms, decoding of written-out words, values the spec's examples
give, and for every statement with hypotheses a state and operands that meet them. -/

set_option Elab.async false
namespace Sys2Proof.Tests
open Sys2Proof Sys2Proof.Machine

/-! ## Ill-formed terms: one for each check of WellFormed -/

theorem test_wf_bfx : (Instr.bfx 1 2 63 1).wellFormed = false := by decide
theorem test_wf_bfi : (Instr.bfi 1 2 0 63).wellFormed = true ∧ (Instr.bfi 1 2 1 63).wellFormed = false := by decide
theorem test_wf_ldm : (Instr.ldm 5 1 4 0).wellFormed = false ∧ (Instr.stm 5 1 4 0).wellFormed = false := by decide
theorem test_wf_crrd : (Instr.crrd 1 .seamt).wellFormed = false := by decide
theorem test_wf_crwr : (Instr.crwr 1 .fpcr).wellFormed = false ∧ (Instr.crwr 1 .sscr).wellFormed = false := by decide
theorem test_wf_fcvt : (Instr.fcvt 1 2 .rne .f32 .f32).wellFormed = false ∧
    (Instr.fcvt 1 2 .rne .i32 .n64).wellFormed = false := by decide
theorem test_wf_vmov : (Instr.vmov 1 2 (some 3) .bk8).wellFormed = false ∧ (Instr.vmov 1 2 none .bs8).wellFormed = false := by
  decide
theorem test_wf_lanes : [Instr.vadd 1 2 3 none .bk8, .vsub 1 2 3 none .bk8, .vmul 1 2 3 none .bk8, .vfma 1 2 3 none .bk8,
    .vmin 1 2 3 none .bk8, .vmax 1 2 3 none .bk8, .vand 1 2 3 none .bk8, .vor 1 2 3 none .bk8, .vxor 1 2 3 none .bk8,
    .vsel 1 2 3 0 .bk8, .vperm 1 2 3 none .bk8].all (!·.wellFormed) = true := by decide
theorem test_wf_signed : [Instr.vabs 1 2 none .n8, .vneg 1 2 none .n64].all (!·.wellFormed) = true := by decide
theorem test_wf_shifts : [Instr.vshl 1 2 3 none .f32, .vshr 1 2 3 none .f32, .vsra 1 2 3 none .f32,
    .vredOr 1 2 none .f16].all (!·.wellFormed) = true := by decide
theorem test_wf_compare : [Instr.vcmpEq 1 2 3 none .bk4, .vcmpNe 1 2 3 none .bk4, .vcmpLt 1 2 3 none .bk4,
    .vcmpLe 1 2 3 none .bk4, .vcmpGt 1 2 3 none .bk4, .vcmpGe 1 2 3 none .bk4, .vredAdd 1 2 none .bs8,
    .vredMin 1 2 none .bs8, .vredMax 1 2 none .bs8].all (!·.wellFormed) = true := by decide
theorem test_wf_strided : [Instr.vlds 1 2 3 (some 0) .bk8, .vsts 1 2 3 none .bs8, .vgath 1 2 3 none .i16,
    .vscat 1 2 3 none .f16].all (!·.wellFormed) = true := by decide
theorem test_wf_moves : [Instr.vbcast 1 2 none .bk8, .vins 1 2 3 .bk8, .vext 1 2 3 .bk8].all (!·.wellFormed) = true := by decide
theorem test_wf_conv : [Instr.vcvt 1 2 .f32 none .f32, .vcvt 1 2 .bk8 none .f32, .vpackbk 1 2 3 .f32, .vunbk 1 2 2 none .bk16,
    .vunbk 1 2 0 none .f32, .vscale 1 2 3 .i8].all (!·.wellFormed) = true := by decide
theorem test_wf_tensor : [Instr.mma 1 2 3 0 .f32, .accld 1 2 0 .bk8, .accst 1 2 0 .i8, .wait 0 1].all (!·.wellFormed) = true := by
  decide

/-! ## Words written out field by field from the encoding tables (R140-R156) -/

theorem test_decode_int : decode 0x04853000 0 = .ok (.add 4 5 6) ∧ decode 0x1C8502C8 0 = .ok (.bfx 4 5 11 8) := ⟨rfl, rfl⟩
theorem test_decode_imm : decode 0x18430085 0 = .ok (.srai 2 3 5) := rfl
theorem test_decode_address : decode 0x28602980 0 = .ok (.mkaAbs 3 5 6) := rfl
theorem test_decode_load : decode 0x54E4BFF8 0 = .ok (.ld 7 4 .n32 (-8)) := rfl
theorem test_decode_float : decode 0x70430098 0 = .ok (.fcvt 2 3 .rtz .i32 .f32) := rfl
theorem test_decode_vector : decode 0x8048EA01 0 = .ok (.vadd 1 2 3 (some 2) .f32) ∧
    decode 0x8048C212 0 = .ok (.vcmpLt 1 2 3 none .f32) := ⟨rfl, rfl⟩
theorem test_decode_gather : decode 0x854C7084 0 = .ok (.vgath 5 6 7 none .f32) := rfl
theorem test_decode_special : decode 0x8CA40204 0 = .ok (.vexp2 2 9 none) ∧ decode 0x88650004 0 = .ok (.mpop 3 5) := ⟨rfl, rfl⟩
theorem test_decode_tensor : decode 0x90D09700 0 = .ok (.mma 3 8 9 1 .bk8) ∧ decode 0x90003409 0 = .ok (.wait 3 1) := ⟨rfl, rfl⟩
theorem test_decode_rig : decode 0x94040002 0 = .ok (.rig 4 2) ∧ decode 0x98030150 0 = .ok (.rigsv 3 0x150) := ⟨rfl, rfl⟩
theorem test_decode_message : decode 0xA0A60061 0 = .ok (.recv 5 6 3) ∧ decode 0xA06800A7 0 = .ok (.sopen 3 8 1 .random) := ⟨rfl, rfl⟩
theorem test_decode_system : decode 0xA0000016 0 = .ok .sret ∧ decode 0xA4000042 0 = .ok (.trap 0x42) ∧
    decode 0xA0A60014 0 = .ok (.siteq 5 6) := ⟨rfl, rfl, rfl⟩
theorem test_decode_send : decode 0xC4284A80 0x2010 = .ok (.send 1 8 9 10 .c2 16) ∧
    decode 0xC4284A82 0x00062010 = .ok (.sendr 1 8 9 10 .panel .c2 16) := ⟨rfl, rfl⟩
theorem test_decode_atomic : decode 0xC8884800 0x400 = .ok (.amo 4 8 9 .b64 .add) ∧
    decode 0xC8884A81 0x400 = .ok (.cas 4 8 9 10 .b64) := ⟨rfl, rfl⟩
theorem test_decode_reserved : decode 0xFC000000 0 = .error .major ∧ decode 0xA000001F 0 = .error .function ∧
    decode 0xA0000020 0 = .error .field := ⟨rfl, rfl, rfl⟩
theorem test_decode_table : decodeTableWord 32 0x04853000 = some (.add 4 5 6) ∧
    decodeTableWord 64 0x2010C4284A80 = some (.send 1 8 9 10 .c2 16) := by decide

/-! ## States for the witnesses -/

/-- Domain 5: every node of the panel, two panels, far memory below 2^32. -/
def domain5 : DomainSpec :=
  { dom := 5, key := 7, keys := 0, panels := [(3, 9)], nodes := [(0, 0, 319, 159)], far := [(0, 0xFFFFFFFF)], root := 0x10000,
    pool := [0x20000, 0x21000, 0x22000] }
/-- Group 1, RUNNING on cores 0 and 1 in the first column of the panel. -/
def group1 : Group :=
  { Group.reset with st := .running, gid := 1, w := 1, h := 1, dom := 5, cores := [0, 1], begun := true, limit := 1000 }
/-- A LIVE site. -/
def liveSite : Site := { Site.reset with st := .live, contact := true }
/-- The core at a key, its slot 0 RUNNING in group 1, at a privilege. -/
def coreOf (k : Nat) (p : Priv) : Core :=
  { Core.reset k with
    ctl := { Ctl.reset k with priv := p, issue := .run, gid := 1, dom := 5, kvec := 2, pc := 0x100, wm1 := 7, hm1 := 3 }
    slots := bset (Core.reset k).slots (0 : SlotId) { Slot.free with st := .running, alloc := 1 } }
/-- The panel with cores 0 and 1 of group 1, site 0 LIVE and the lead's. -/
def run (p : Priv) : State :=
  { State.reset with
    core := coreOf 0 p, peers := [(1, coreOf 1 p)], sites := [(0, liveSite)]
    lead := { Lead.reset with lead := some 0, isOpen := true, groups := [(0, group1)] }
    pages := { State.reset.pages with domains := [(5, some ⟨domain5, domain5.pool⟩)] } }
/-- The same with general registers set. -/
def runG (p : Priv) (l : List (GR × BitVec 64)) : State := l.foldl (fun s e => s.setG e.1 e.2 false) (run p)
/-- The same with a poisoned register. -/
def runP (p : Priv) (r : GR) : State := (run p).setG r 0 true
/-- A slot of the selected core changed. -/
def onSlot (s : State) (i : SlotId) (f : Slot → Slot) : State := { s with core := s.core.onSlot i f }

/-! ## Scalar instructions -/

theorem witness_IntegerResults : (runG .u [(3, 1)]).gv 3 ≠ 0 ∧ (runG .u [(3, 0)]).gv 3 = 0 := by decide

theorem witness_DivisionResults :
    (runG .u [(2, 7)]).gv 3 = 0 ∧
    ((runG .u [(2, 0x8000000000000000), (3, -1)]).gv 2 = 0x8000000000000000 ∧
      (runG .u [(2, 0x8000000000000000), (3, -1)]).gv 3 = -1) ∧
    ((runG .u [(2, 0x8000000000000000), (3, 1)]).gv 3 ≠ 0 ∧
      ¬ ((runG .u [(2, 0x8000000000000000), (3, 1)]).gv 2 = 0x8000000000000000 ∧
        (runG .u [(2, 0x8000000000000000), (3, 1)]).gv 3 = -1)) := by decide

theorem witness_ImmediatesAndBitFields :
    (63 : BitVec 6).toNat + ((0 : BitVec 6).toNat + 1) ≤ 64 ∧ (0 : BitVec 6).toNat + ((63 : BitVec 6).toNat + 1) ≤ 64 ∧
    (64 < (63 : BitVec 6).toNat + ((1 : BitVec 6).toNat + 1) ∧ (run .u).core.ctl.priv = .u) := by decide

theorem witness_AddressFormsAndTags :
    (run .u).gp 2 = false ∧ (runP .u 2).gp 2 = true ∧
    -- a key that no entry has, at the last index
    ((runG .u [(2, 63), (3, 9)]).gp 2 = false ∧ (runG .u [(2, 63), (3, 9)]).gp 3 = false ∧
      ((runG .u [(2, 63), (3, 9)]).gv 2).toNat < 64 ∧
      (runG .u [(2, 63), (3, 9)]).tagFind ((runG .u [(2, 63), (3, 9)]).gv 3) = none) ∧
    -- a key that entry 63 has
    (((runG .u [(2, 5), (3, 9)]).onSh fun h => { h with tag := h.tag.set 63 ⟨9, true⟩ }).gp 2 = false ∧
      ((runG .u [(2, 5), (3, 9)]).gv 2).toNat < 64 ∧
      ((runG .u [(2, 5), (3, 9)]).onSh fun h => { h with tag := h.tag.set 63 ⟨9, true⟩ }).tagFind 9 = some 63) := by
  decide

theorem witness_BranchesAndJumps :
    ((run .u).gp 1 = false ∧ (run .u).gp 2 = false) ∧
    ((runG .u [(2, 0x204)]).gp 2 = false ∧ ((runG .u [(2, 0x204)]).gv 2 + (0xFFFC : BitVec 16).signExtend 64).toNat % 4 = 0) ∧
    (((runG .u [(2, 0x204)]).gv 2 + (2 : BitVec 16).signExtend 64).toNat % 4 ≠ 0 ∧ (run .u).core.ctl.priv = .u) := by
  decide

theorem witness_ScalarFloatResults : (Instr.fcvt 1 2 .dyn .f32 .i64).wellFormed = true := by decide

/-! ## Loads and stores -/

theorem witness_LoadResultsAndChecks :
    -- the last byte and the last dword of the scratchpad
    ((runG .u [(2, ownAddr 0xFFFF)]).gp 2 = false ∧
      (runG .u [(2, ownAddr 0xFFFF)]).path ((runG .u [(2, ownAddr 0xFFFF)]).gv 2 + (0 : BitVec 13).signExtend 64) 1 = .own 0xFFFF) ∧
    ((runG .u [(2, ownAddr 0xFFF0), (5, 77)]).gp 5 = false ∧
      (runG .u [(2, ownAddr 0xFFF0)]).path ((runG .u [(2, ownAddr 0xFFF0)]).gv 2 + (8 : BitVec 13).signExtend 64) 8 = .own 0xFFF8 ∧
      ∃ t, exec (.st 5 2 .w64 8) (runG .u [(2, ownAddr 0xFFF0), (5, 77)]) = .next t) ∧
    -- core 1 of the cluster
    ((runG .u [(2, 0x8000000080000008)]).path ((runG .u [(2, 0x8000000080000008)]).gv 2 + (0 : BitVec 13).signExtend 64) 8 = .peer 1 8 ∧
      ((run .u).coreAt 1).sh.port = [] ∧ (run .u).core.sh.ahead = [] ∧ (run .u).core.flying = [] ∧
      (run .u).core.ordering = [] ∧ (run .u).met = []) ∧
    -- a burst of an ORDERED transfer of the core to that word, and a value that may be taken later
    (let s := (run .u).onSh fun h => { h with stream := h.stream.set 3 { Stream.free with
       st := .active, alloc := 1, cls := .ordered, legs := [⟨0, [], [], [], 1, [⟨0, [(7, false)], .near 1 8, 4, 0, none⟩]⟩] } }
     shareWord (wordsOf (nodeBase 1 + 8) (LdW.bytes .d64)) s.core.ordering = true ∧
      .readLate ∈ ({ run .u with met := [.readLate] } : State).met) ∧
    -- a word of it read ahead
    (let s := (runG .u [(2, 0x8000000080000008)]).onSh fun h => { h with ahead := [⟨1, 32769, 6, false⟩] }
     s.path (s.gv 2 + (0 : BitVec 13).signExtend 64) 8 = .peer 1 8 ∧ s.core.sh.ahead = [⟨1, 32769, 6, false⟩] ∧
      wordsOf (nodeBase 1 + 8) (LdW.bytes .d64) = [32769]) ∧
    -- the checks of an address of its own
    (isCore (run .u).here = true ∧ keyX (run .u).here ≤ 319 ∧ keyY (run .u).here ≤ 159) ∧
    ((runG .u [(2, ownAddr 0xFFFC)]).gv 2 = ownAddr 0xFFFC ∧ 0xFFFC % LdW.bytes .d64 ≠ 0) ∧
    (runG .u [(2, ownAddr 0x3FFF8)]).gv 2 = ownAddr 0x3FFF8 ∧
    ((runG .u [(2, 0x4000000000000000)]).gv 2).extractLsb' 62 2 = 1 := by
  refine ⟨by decide, ⟨by decide, by decide, ⟨_, rfl⟩⟩, by decide, by decide, by decide, by decide⟩

theorem witness_StoreEffects :
    ((runG .u [(2, ownAddr 0xFFFF)]).gp 2 = false ∧
      (runG .u [(2, ownAddr 0xFFFF)]).path ((runG .u [(2, ownAddr 0xFFFF)]).gv 2 + (0 : BitVec 13).signExtend 64) 1 = .own 0xFFFF) ∧
    ((runG .u [(2, 0x8000000080000008)]).path ((runG .u [(2, 0x8000000080000008)]).gv 2 + (0 : BitVec 13).signExtend 64) 8 = .peer 1 8 ∧
      1 ≠ (run .u).here) ∧
    ((run .u).onSh fun h => { h with port := [⟨1, 0x40, [1, 2, 3, 4], false, none, true⟩] }).core.sh.port =
      [⟨1, 0x40, [1, 2, 3, 4], false, none, true⟩] ∧
    shareWord ((⟨1, 0x40, [1, 2, 3, 4], false, none, true⟩ : PortStore).words 0) ((run .u).coreAt 1).writing = false ∧
    (run .u).tileUp = true := by decide

theorem witness_MultipleAccesses :
    -- the whole file up to the last byte, and one dword more
    ((0 : GR).toNat ≤ (31 : GR).toNat ∧ (runG .u [(2, ownAddr 0xFF00)]).gp 2 = false ∧
      (runG .u [(2, ownAddr 0xFF00)]).path ((runG .u [(2, ownAddr 0xFF00)]).gv 2 + 8 * (0 : BitVec 11).signExtend 64) 8 = .own 0xFF00 ∧
      0xFF00 + 8 * ((31 : GR).toNat - (0 : GR).toNat + 1) ≤ 0x10000) ∧
    ((run .u).core.ctl.priv = .u ∧
      (runG .u [(2, ownAddr 0xFF00)]).path ((runG .u [(2, ownAddr 0xFF00)]).gv 2 + 8 * (1 : BitVec 11).signExtend 64) 8 = .own 0xFF08 ∧
      0x10000 < 0xFF08 + 8 * ((31 : GR).toNat - (0 : GR).toNat + 1)) := by decide

/-! ## Control registers -/

theorem witness_ControlRegisterReads :
    (Cr.readRow .sscr = true ∧ (run .s).core.ctl.priv = .s) ∧ (Cr.readRow .rclk = true ∧ crClosed .rclk = false) ∧
    (crClosed .rampf = true ∧ (run .u).core.ctl.priv = .u) ∧
    -- the last index of each space and one more
    ([318, 512 + 158, 1024 + 99].all fun v => (runG .u [(2, v)]).gp 2 == false && (runG .u [(2, v)]).gv 2 == v) = true ∧
    ([(318, 0, 318), (512 + 158, 1, 158), (1024 + 99, 2, 99), (319, 0, 319), (512 + 159, 1, 159), (1024 + 100, 2, 100),
      (1536, 3, 0)].all fun (v, a, b) => v / 512 == a && v % 512 == b) = true ∧
    ((run .u).site (0 / 4)).st = .live ∧ ((run .u).site (99 / 4)).st = .empty ∧ (runP .u 2).gp 2 = true := by decide

theorem witness_ControlRegisterWrites :
    ((run .u).gp 2 = false ∧ (runP .u 2).gp 2 = true ∧ (run .u).core.ctl.priv = .u ∧ (run .u).core.ctl.riga = false ∧
      ((run .u).onCtl fun k => { k with riga := true }).core.ctl.riga = true) ∧
    ((run .s).gp 2 = false ∧ (run .s).core.ctl.priv = .s ∧ (run .s).slot.qd = false ∧ (run .s).core.ctl.riga = false) ∧
    -- a queued slot that moves to LEVEL 2, because only a paddle context takes 3
    (let s := onSlot (runG .s [(2, 3)]) 0 fun t => { t with st := .ready, qd := true }
     s.slot.qd = true ∧ s.slot.level ≠ 2 ∧ s.slot.paddle = false ∧ (s.gv 2).extractLsb' 0 2 = 3) := by
  decide

/-! ## Vector instructions -/

theorem witness_VectorLaneResults :
    [Ty.i8, .n8, .i16, .n16, .i32, .n32, .i64, .n64, .f32, .f16, .bf16].all Ty.intFloat = true ∧ Ty.block .bk4 = true ∧
    (Ty.int .n64 = true ∧ 7 < Ty.lanes .n64) ∧ (Ty.int .i8 = true ∧ 63 < Ty.lanes .i8) ∧
    (Ty.signedInt .i8 || Ty.float .i8) = true := by decide

theorem witness_VectorSelectCompareReduce :
    (Ty.intFloat .n8 = true ∧ 63 < Ty.lanes .n8) ∧ (Ty.intFloat .f32 = true ∧ 15 < Ty.lanes .f32) ∧
    (((run .u).vr 1).p = false ∧ ((run .u).vr 2).p = false) ∧ Ty.int .i64 = true := by decide

theorem witness_VectorAccesses :
    -- the last 64 bytes, the last 8
    (runG .u [(2, ownAddr 0xFFC0)]).path ((runG .u [(2, ownAddr 0xFFC0)]).gv 2 + BitVec.ofNat 64 (64 * (0 : BitVec 5).toNat)) 64 =
      .own 0xFFC0 ∧
    (runG .u [(2, ownAddr 0xFF00)]).path ((runG .u [(2, ownAddr 0xFF00)]).gv 2 + BitVec.ofNat 64 (8 * (31 : BitVec 5).toNat)) 8 =
      .own 0xFFF8 ∧
    (runG .u [(2, ownAddr 0xFF00)]).gp 2 = false ∧ (runG .u [(2, ownAddr 0xFF00)]).poisoned (nodeBase 0 + 0xFFF8) = false ∧
    (((run .u).poke 0xFFF8 (List.replicate 8 0) true).poisoned (nodeBase 0 + 0xFFF8) = true ∧ (run .u).core.ctl.priv = .u) ∧
    -- sixteen lanes of 4 bytes, downward by 4 from an address
    ((∀ i, i < Ty.lanes .f32 → (runG .u [(2, ownAddr 0x3C), (3, -4)]).active none i = true →
        (runG .u [(2, ownAddr 0x3C), (3, -4)]).path ((runG .u [(2, ownAddr 0x3C), (3, -4)]).strideAddr 2 3 i) (Ty.bits .f32 / 8) =
          .own (0x3C - 4 * i)) ∧
      Ty.intFloat .f32 = true ∧ (runG .u [(2, ownAddr 0x3C), (3, -4)]).gp 3 = false) ∧
    -- gathering one word sixteen times
    ((∀ i, i < Ty.lanes .n32 → (runG .u [(2, ownAddr 0xFFFC)]).active none i = true →
        (runG .u [(2, ownAddr 0xFFFC)]).path ((runG .u [(2, ownAddr 0xFFFC)]).indexAddr 2 1 .n32 i) (Ty.bits .n32 / 8) = .own 0xFFFC) ∧
      Ty.gather .n32 = true ∧ ((run .u).vr 1).p = false) := by decide +kernel

theorem witness_VectorBlockAccesses : ∀ y, y ∈ [Ty.bk4, .bk8, .bk16] →
    Ty.block y = true ∧ (runG .u [(2, ownAddr 0xFF80), (3, 64)]).gp 2 = false ∧ (runG .u [(2, ownAddr 0xFF80), (3, 64)]).gp 3 = false ∧
    ∀ i, i < Ty.blocks y → (runG .u [(2, ownAddr 0xFF80), (3, 64)]).path
      ((runG .u [(2, ownAddr 0xFF80), (3, 64)]).strideAddr 2 3 i) (Ty.planeBytes y) = .own (0xFF80 + 64 * i) ∧
    ∀ j, i < j → 0xFF80 + 64 * j + Ty.planeBytes y ≤ 0xFF80 + 64 * i ∨ 0xFF80 + 64 * i + Ty.planeBytes y ≤ 0xFF80 + 64 * j := by
  have h : ∀ y, y ∈ [Ty.bk4, .bk8, .bk16] → Ty.block y = true ∧ Ty.planeBytes y ≤ 64 ∧
      (runG .u [(2, ownAddr 0xFF80), (3, 64)]).gp 2 = false ∧ (runG .u [(2, ownAddr 0xFF80), (3, 64)]).gp 3 = false ∧
      ∀ i, i < Ty.blocks y → (runG .u [(2, ownAddr 0xFF80), (3, 64)]).path
        ((runG .u [(2, ownAddr 0xFF80), (3, 64)]).strideAddr 2 3 i) (Ty.planeBytes y) = .own (0xFF80 + 64 * i) := by decide +kernel
  intro y hy
  obtain ⟨a, b, c, d, e⟩ := h y hy
  exact ⟨a, c, d, fun i hi => ⟨e i hi, fun j _ => by omega⟩⟩

theorem witness_LaneMovesAndMasks :
    (Ty.intFloat .i8 = true ∧ (runG .u [(3, 63)]).gp 3 = false ∧ ((runG .u [(3, 63)]).gv 3).toNat < Ty.lanes .i8) ∧
    (Ty.lanes .i8 ≤ ((runG .u [(3, 64)]).gv 3).toNat ∧ (run .u).core.ctl.priv = .u) := by decide

theorem witness_VectorConversions :
    ((Instr.vcvt 1 2 .f32 none .f16).wellFormed = true ∧ 15 < Ty.lanes .f32 ∧ 31 < Ty.lanes .f16) ∧
    (Instr.vpackbk 3 1 2 .bk4).wellFormed = true ∧
    (Ty.block .bk4 = true ∧ (3 : BitVec 2).toNat < Ty.parts .bk4) ∧ (Ty.block .bk16 = true ∧ (1 : BitVec 2).toNat < Ty.parts .bk16) := by
  decide

theorem witness_SpecialFunctions :
    let expo (w : Nat) : Nat := w / 2 ^ 23 % 256
    let frac (w : Nat) : Nat := w % 2 ^ 23
    let val (w : Nat) : ℝ := (if 2 ^ 31 ≤ w then -1 else 1) *
      (if expo w = 0 then (frac w : ℝ) * (2 : ℝ) ^ (-149 : ℤ) else ((2 ^ 23 + frac w : ℕ) : ℝ) * (2 : ℝ) ^ ((expo w : ℤ) - 150))
    -- quiet and signalling NaN, infinity
    (∀ w, w ∈ [0x7FC00000, 0xFFFFFFFF, 0x7F800001, 0xFFBFFFFF] → w < 2 ^ 32 ∧ expo w = 255 ∧ frac w ≠ 0) ∧
    (expo 0xFF800000 = 255 ∧ frac 0xFF800000 = 0) ∧ (fpcrFtz (run .u).fpcr = false ∧ fpcrFtz 8 = true) ∧
    -- 128, -151, 0, 1, -130; 1.5 and -126.5, which are no integers
    val 0x43000000 = 128 ∧ val 0xC3170000 = -151 ∧ val 0 = 0 ∧ val 0x3F800000 = (2 : ℝ) ^ (0 : ℤ) ∧ val 0xC3020000 = ((-130 : ℤ) : ℝ) ∧
    (val 0x3FC00000 = 3 / 2 ∧ val 0xC2FD0000 = -253 / 2 ∧ (∀ k : ℤ, (3 / 2 : ℝ) ≠ k) ∧ (∀ k : ℤ, (-253 / 2 : ℝ) ≠ k) ∧
      ∀ k : ℤ, (3 / 2 : ℝ) ≠ (2 : ℝ) ^ k) ∧
    -- numbers whose inverses lie above and below the normal range
    val 0x00100000 = (2 : ℝ) ^ (-129 : ℤ) ∧ val 0x7F000000 = (2 : ℝ) ^ (127 : ℤ) := by
  have no : ∀ (a : ℤ), a % 2 = 1 → ∀ k : ℤ, (a / 2 : ℝ) ≠ k := fun a ha k h => by
    have e : (a : ℝ) = ((2 * k : ℤ) : ℝ) := by push_cast; linarith
    have := Int.cast_injective (α := ℝ) e
    omega
  refine ⟨by decide, by decide, by decide, ?_, ?_, ?_, ?_, ?_, ⟨?_, ?_, ?_, ?_, fun k h => ?_⟩, ?_, ?_⟩
  all_goals first | (norm_num; done) | skip
  · intro k; simpa using no 3 (by norm_num) k
  · intro k; simpa using no (-253) (by norm_num) k
  · rcases lt_or_ge k 1 with c | c
    · have := zpow_le_zpow_right₀ (by norm_num : (1 : ℝ) ≤ 2) (by omega : k ≤ 0)
      rw [← h] at this
      norm_num at this
    · have := zpow_le_zpow_right₀ (by norm_num : (1 : ℝ) ≤ 2) c
      rw [← h] at this
      norm_num at this

/-! ## Tensor unit and rigs -/

/-- An engine operation on tile 3 of slot 0. -/
def opOf (k : EngKind) (ga gb : BitVec 64) : EngOp :=
  { kind := k, tile := 3, ga := ga, gb := gb, wc := 1, slot := 0, alloc := 1, serial := 9, adesc := 0, bdesc := 0,
    fpcr := 0, draws := [] }
/-- An operation at the head of the tensor queue, with n others behind it. -/
def queued (s : State) (o : EngOp) (n : Nat) : State := s.onEng fun e => { e with tq := o :: List.replicate n o }
/-- An operation at the head of the mover, with n others behind it. -/
def moving (s : State) (o : EngOp) (n : Nat) : State := s.onEng fun e => { e with mover := o :: List.replicate n o }
/-- A rig of one `NOP` at stage 0 at the program counter. -/
def rigged (s : State) : State :=
  s.poke (nodeBase s.here + 0x110) (leBytes 4 0xA0000000) false

/-- A rig of two entries at the program counter, the second at a stage. -/
def rigged2 (s : State) (stage : Nat) (e0 e1 : Instr) : State :=
  let word (i : Instr) : Nat := ((encode i).getD (0, none)).1
  (s.poke (nodeBase s.here + 0x104) (leBytes 4 (8 * stage)) false).poke (nodeBase s.here + 0x110) (leBytes 8 (word e0 + 2 ^ 32 * word e1)) false

theorem witness_TensorIssue :
    -- one K-block of each type at the end of the scratchpad
    (∀ e ∈ [(Ty.bk4, (16 : Nat)), (.bk8, 32), (.bk16, 64)], Ty.mma e.1 = true ∧
      mmaFault 0 0 (BitVec.ofNat 64 (0x10000 - e.2 + 65536 * 0xFFFC)) (BitVec.ofNat 64 (0x10000 - e.2)) e.1 = none) ∧
    (Ty.mma .bf16 = true ∧ mmaFault 0 0 (BitVec.ofNat 64 (0x10000 - 64)) 0 .bf16 = none) ∧
    -- sparse: a step of 24 blocks of 4 kept values
    (descNb 23 % stepBlocks (descKept 0) = 0 ∧ mmasFault 23 0 0 0xFE80 = none) ∧
    ((run .u).core.eng.tq.length < 16 ∧ 16 ≤ (queued (run .u) (opOf .accz 0 0) 15).core.eng.tq.length ∧
      (queued (run .u) (opOf .accz 0 0) 14).core.eng.tq.length < 16) ∧
    ((moving (run .u) (opOf .accz 0 0) 2).core.eng.mover.length < 4 ∧ 4 ≤ (moving (run .u) (opOf .accz 0 0) 3).core.eng.mover.length) ∧
    -- images that end at the last byte they may
    (∀ y, y ∈ [Ty.i32, .f32, .bk16] → Ty.image y = true) ∧
    ((runG .u [(2, ownAddr 0xFC00)]).gp 2 = false ∧
      (runG .u [(2, ownAddr 0xFC00)]).ownPath ((runG .u [(2, ownAddr 0xFC00)]).gv 2) 8 = .own 0xFC00 ∧ 0xFC00 % 64 = 0 ∧
      0xFC00 + imageBytes .f32 ≤ 0x10000 ∧ fpcrBsr (run .u).fpcr = false) ∧
    -- descriptors
    ((runG .u [(2, ownAddr 0xFFE0)]).ownPath ((runG .u [(2, ownAddr 0xFFE0)]).gv 2) 8 = .own 0xFFE0 ∧ 0xFFE0 % 32 = 0 ∧
      (runG .u [(2, ownAddr 0xFFE0)]).anyPoison (nodeBase 0 + 0xFFE0) 32 = false ∧
      adescOk (BitVec.ofNat 256 ((run .u).readNat (nodeBase 0 + 0xFFE0) 32)) = true ∧
      adescOk (BitVec.ofNat 256 (((run .u).poke 0xFFE1 [2] false).readNat (nodeBase 0 + 0xFFE0) 32)) = false) ∧
    ((runG .u [(2, ownAddr 0xFFF0)]).ownPath ((runG .u [(2, ownAddr 0xFFF0)]).gv 2) 8 = .own 0xFFF0 ∧ 0xFFF0 % 16 = 0 ∧
      (runG .u [(2, ownAddr 0xFFF0)]).anyPoison (nodeBase 0 + 0xFFF0) 16 = false ∧
      bdescOk (BitVec.ofNat 128 ((run .u).readNat (nodeBase 0 + 0xFFF0) 16)) = true ∧
      bdescOk (BitVec.ofNat 128 (((run .u).poke 0xFFF8 [3] false).readNat (nodeBase 0 + 0xFFF0) 16)) = false) := by
  decide +kernel

theorem witness_TensorOperations :
    (run .u).tileUp = true ∧
    (queued (run .u) (opOf .accz 0 0) 1).core.eng.readyT = some (opOf .accz 0 0) ∧
    (queued (run .u) (opOf .accrn 0xFFFF00FF 0) 1).core.eng.readyT = some (opOf .accrn 0xFFFF00FF 0) ∧
    (∀ y, y ∈ [Ty.bk4, .bk8, .bk16, .bf16] → (queued (run .u) (opOf (.mma y) 0x80000000 0x90001000) 0).core.eng.readyT =
      some (opOf (.mma y) 0x80000000 0x90001000)) ∧
    (queued (run .u) (opOf .mmas 0x80000000 0x1000) 0).core.eng.readyT = some (opOf .mmas 0x80000000 0x1000) := by decide

theorem witness_AccumulatorImagesAndWaits :
    (∀ y, y ∈ [Ty.i32, .f32, .bk16] →
      (moving (run .u) (opOf (.accld y) 0 0) 1).core.eng.readyM = some (opOf (.accld y) 0 0) ∧
      (moving (run .u) (opOf (.accst y) 0xFBC0 0) 0).core.eng.readyM = some (opOf (.accst y) 0xFBC0 0)) ∧
    (((runG .u [(2, 15)]).gv 2).toNat < 16 ∧ (runG .u [(2, 15)]).gp 2 = false ∧ (run .u).core.eng.tileIdle 3 = true ∧
      (queued (run .u) (opOf .accz 0 0) 0).core.eng.tileIdle 3 = false) ∧
    -- the counter at 1023 and one less
    ((1023 : BitVec 10) ≠ 0 ∧
      (1023 : BitVec 10).toNat ≤ (bget (onSlot (run .u) 0 fun t => { t with w := Vector.replicate 4 1023 }).slot.w (3 : WC)).toNat ∧
      (bget (onSlot (run .u) 0 fun t => { t with w := Vector.replicate 4 1022 }).slot.w (3 : WC)).toNat < (1023 : BitVec 10).toNat ∧
      (run .u).core.ctl.priv = .u ∧ (run .s).core.ctl.priv = .s) := by decide

theorem witness_RigRunsAndSaves :
    ((∃ es, (rigged (run .u)).rigBody 0 = .ok es) ∧ (rigged (run .u)).rigCount 3 0 = .ok 0 ∧
      (rigged (runG .u [(3, 2)])).rigCount 3 0 = .ok 2 ∧ (2 : BitVec 32) ≠ 0) ∧
    ((rigged (run .u)).rigWaits = false ∧
      (let s := (run .u).onSh fun h => { h with stream := h.stream.set 3 { Stream.free with
         st := .active, alloc := 1, cls := .ordered, legs := [⟨0, [], [], [], 1, [⟨0, [(7, false)], .near 1 8, 4, 0, none⟩]⟩] } }
       s.rigWaits = true)) ∧
    -- two additions, the second one stroke behind
    (let s := rigged2 (runG .s [(3, 2)]) 1 (.add 4 4 5) (.add 6 6 4)
     s.core.ctl.priv = .s ∧ s.core.regs.rigs.active = false ∧ s.rigWaits = false ∧ s.stageFault 1 3 = none ∧ s.stageOf 0 = 0 ∧
      s.stageOf 1 = 1 ∧ s.poisoned (s.codeKey (s.entryAt 0)) = false ∧ s.poisoned (s.codeKey (s.entryAt 1)) = false ∧
      encode (.add 4 4 5) = some (s.parcelAt (s.entryAt 0), none) ∧ encode (.add 6 6 4) = some (s.parcelAt (s.entryAt 1), none) ∧
      s.gp 3 = false ∧ s.gp 4 = false ∧ s.gp 5 = false ∧ s.gp 6 = false ∧ s.gv 3 ≠ 0 ∧ (s.gv 3).toNat < 2 ^ 32) ∧
    -- a store and its pointer, to the end of the scratchpad
    (let s := rigged2 (runG .s [(3, 2), (7, ownAddr 0xFFF0)]) 0 (.st 6 7 .w64 0) (.addi 7 7 8)
     s.core.ctl.priv = .s ∧ s.core.regs.rigs.active = false ∧ s.rigWaits = false ∧ s.stageFault 1 3 = none ∧ s.stageOf 0 = 0 ∧
      s.stageOf 1 = 0 ∧ s.poisoned (s.codeKey (s.entryAt 0)) = false ∧ s.poisoned (s.codeKey (s.entryAt 1)) = false ∧
      encode (.st 6 7 .w64 0) = some (s.parcelAt (s.entryAt 0), none) ∧ encode (.addi 7 7 8) = some (s.parcelAt (s.entryAt 1), none) ∧
      isCore s.here = true ∧ keyX s.here ≤ 319 ∧ keyY s.here ≤ 159 ∧ s.gv 7 = ownAddr 0xFFF0 ∧ 0xFFF0 % 8 = 0 ∧
      0xFFF0 + 8 * (s.gv 3).toNat ≤ 0x10000 ∧ s.gp 3 = false ∧ s.gp 6 = false ∧ s.gp 7 = false ∧ s.gv 3 ≠ 0) ∧
    ((∀ e ∈ (run .s).peers, e.2.sh.port = []) ∧ (run .s).core.sh.port = [] ∧ (Core.reset 7).sh.port = []) ∧
    ((run .u).rigBody 0 = .error (.illegal, 0) ∧ (run .u).core.ctl.priv = .u) ∧
    ((runG .s [(2, ownAddr 0xFFF0)]).gp 2 = false ∧
      (runG .s [(2, ownAddr 0xFFF0)]).ownPath ((runG .s [(2, ownAddr 0xFFF0)]).gv 2 + (8 : BitVec 16).signExtend 64) 8 = .own 0xFFF8 ∧
      (run .s).core.ctl.priv = .s ∧ (run .s).poisoned (nodeBase 0 + 0xFFF8) = false) := by
  and_intros <;> first | exact ⟨_, rfl⟩ | decide +kernel | rfl

/-! ## Traps and the scheduler -/

theorem witness_TrapsAndCoreFaults :
    ((run .u).core.ctl.priv = .u ∧
      ((run .u).poke 0x100 [0] true).poisoned (nodeBase (run .u).here + (run .u).pc.toNat) = true) ∧
    ((run .s).core.ctl.priv = .s ∧ ((run .s).core.slot 0).st ≠ .free ∧ ((run .s).core.slot 15).st = .free ∧
      (run .s).groupOf (run .s).core.ctl.gid = some 0 ∧ ((run .s).group 0).st = .running) := by decide

theorem witness_TimersAndAsynchronousEntry :
    ((run .u).core.ctl.priv = .u ∧ (run .u).core.ctl.riga = false ∧ (run .u).core.ctl.issue = .run ∧
      topBit (onSlot (run .u) 0 fun t => { t with pend := 0b100001 }).slot.pend = some 5) ∧
    ((run .s).core.ctl.priv = .s ∧ (run .u).slot.pend = 0) ∧
    -- due at the very tick, and one later
    (((onSlot (run .u) 15 fun t => { t with tcmp := 40 }).core.slot 15).tcmp ≠ 0 ∧
      ((onSlot (run .u) 15 fun t => { t with tcmp := 40 }).core.slot 15).tcmp.toNat ≤
        ({ onSlot (run .u) 15 fun t => { t with tcmp := 40 } with clock := ⟨40, 0, 0, [], false⟩ } : State).rclk.toNat) ∧
    ((run .u).rclk.toNat < ((onSlot (run .u) 15 fun t => { t with tcmp := 40 }).core.slot 15).tcmp.toNat) ∧
    -- slot 3 goes before slot 15 at one tick, slot 15 before slot 3 at an earlier one
    (let s (a b : BitVec 64) := onSlot (onSlot (run .u) 15 fun t => { t with tcmp := a }) 3 fun t => { t with tcmp := b }
     ((s 40 40).core.slot 3).tcmp = ((s 40 40).core.slot 15).tcmp ∧ (3 : SlotId).toNat < (15 : SlotId).toNat ∧
      ((s 39 40).core.slot 15).tcmp.toNat < ((s 39 40).core.slot 3).tcmp.toNat) ∧
    ((onSlot (run .u) 15 fun t => { t with st := .sleep, why := .sleep }).core.slot 15).why = .sleep := by decide

theorem witness_FormsThatTrap :
    ((run .u).core.ctl.priv = .u ∧ (Instr.tqpop 3).wellFormed = true ∧ (Instr.crrd 3 .sscr).wellFormed = true ∧
      crClosed .sscr = true ∧ (Instr.crwr 3 .kvec).wellFormed = true ∧ crClosed .kvec = true) ∧
    ((runP .u 2).gp 2 = true ∧ (((run .u).setV 1 ⟨0, 0, true⟩).vr 1).p = true ∧ Ty.intFloat .f32 = true ∧ Ty.mma .bk8 = true) ∧
    (Instr.bfx 1 2 63 1).wellFormed = false := by decide

theorem witness_SchedulerReturn :
    (run .s).core.ctl.priv = .s ∧ (run .s).slot.st = .running ∧ (run .s).slot.pend = 0 ∧ (run .s).core.ctl.riga = false ∧
    topBit (onSlot (run .s) 0 fun t => { t with pend := 0b000011 }).slot.pend = some 1 ∧
    ((run .s).groupOf (run .s).core.ctl.gid = some 0 ∧ ((run .s).group 0).st = .running) ∧
    (∀ st, st ∈ [SlotSt.ready, .free, .sleep, .retired, .trapped] → (onSlot (run .s) 0 fun t => { t with st := st }).slot.st = st) := by
  decide

theorem witness_TaskQueues :
    ((run .s).core.ctl.priv = .s ∧ (runG .s [(2, 15)]).gp 2 = false ∧ ((runG .s [(2, 15)]).gv 2).toNat < 16) ∧
    (∀ st, st ∈ [SlotSt.free, .ready, .running, .sleep, .trapped, .retired] →
      ((onSlot (run .s) 15 fun t => { t with st := st }).core.slot 15).st = st ∧
      ((onSlot (run .s) 15 fun t => { t with st := st }).core.slot 15).qd = false) ∧
    ((onSlot (run .s) 15 fun t => { t with st := .ready, qd := true }).core.slot 15).qd = true ∧
    -- a paddle context with PADDLE set and without; the wake of the same cycle
    (let s := onSlot (run .s) 15 fun t => { t with st := .ready, paddle := true }
     (s.core.slot 15).paddle = true ∧ s.core.ctl.paddle = false ∧ s.core.sh.cut = false ∧
      (s.onCtl fun k => { k with paddle := true }).core.ctl.paddle = true) ∧
    Input.together 15 ∈ ({ run .s with met := [.together 15] } : State).met ∧
    (15 : SlotId) ∈ ((run .s).onSh fun h => { h with woke := [15] }).core.sh.woke ∧ ¬ (15 : SlotId) ∈ (run .s).core.sh.woke ∧
    (run .s).core.firstReady = none ∧
    ((run .s).onSh fun h => { h with fifo := Vector.replicate 4 [5, 6] }).core.firstReady = some 5 := by decide

theorem witness_GivingUpTheCore :
    ((run .u).core.ctl.priv = .u ∧ (run .u).sleepNow (run .u).core.ctl.slot = none ∧
      (onSlot (run .u) 0 fun t => { t with wl := true }).slot.wl = true ∧
      (onSlot (run .u) 0 fun t => { t with paddle := true }).slot.paddle = true ∧ (run .u).slot.paddle = false ∧
      (run .u).core.ctl.paddle = false) ∧
    ((run .s).core.ctl.priv = .s ∧ (run .s).core.firstReady = none ∧ (run .s).slot.st = .running ∧
      ((run .s).onSh fun h => { h with fifo := Vector.replicate 4 [5, 6] }).core.firstReady ≠ none) ∧
    (((run .s).onCtl fun k => { k with issue := .idle 7 }).core.ctl.issue = .idle 7) := by decide

/-! ## Decoding and steps -/

theorem witness_DecodeAfterEncode :
    ((Instr.bfx 1 2 63 0).wellFormed = true ∧ (Instr.bfx 1 2 63 0).isEvent = false) ∧
    (Instr.cas 31 30 29 28 .b32).wellFormed = true ∧ (0xC8884800 < 2 ^ 32 ∧ 0x400 < 2 ^ 32) := by decide

/-- The state whose next step runs `ADD g4, g5, g6`. -/
def atAdd : State := (runG .u [(5, 2), (6, 3)]).withFetchWord 32 0x04853000

theorem witness_StepRunsDecoded :
    (atAdd.agenda = [] ∧ atAdd.begin.dueTimer = none ∧ atAdd.begin.core.ctl.issue = .run ∧ atAdd.begin.slot.pend = 0 ∧
      atAdd.begin.fetch = .instr (.add 4 5 6) ∧ atAdd.lead.passDue = false ∧ atAdd.core.sh.late = []) ∧
    (atAdd.poisoned (atAdd.codeKey atAdd.pc) = false ∧ needsExt (atAdd.parcelAt atAdd.pc) = false ∧
      decode (atAdd.parcelAt atAdd.pc) 0 = .ok (.add 4 5 6)) ∧
    (((run .u).withFetchWord 64 0x400C8884800).poisoned (((run .u).withFetchWord 64 0x400C8884800).codeKey 0x104) = false ∧
      needsExt (((run .u).withFetchWord 64 0x400C8884800).parcelAt ((run .u).withFetchWord 64 0x400C8884800).pc) = true) := by
  and_intros <;> decide +kernel

def atZeros : State := (run .u).withFetchWord 32 0
def atOnes : State := (run .u).withFetchWord 32 0xFFFFFFFF

theorem witness_ForbiddenParcels :
    (atZeros.agenda = [] ∧ atZeros.begin.dueTimer = none ∧ atZeros.begin.core.ctl.issue = .run ∧
      atZeros.begin.core.ctl.priv = .u ∧ atZeros.begin.slot.pend = 0 ∧
      atZeros.begin.poisoned (atZeros.begin.codeKey atZeros.pc) = false ∧ atZeros.begin.parcelAt atZeros.pc = 0) ∧
    (atOnes.agenda = [] ∧ atOnes.begin.dueTimer = none ∧ atOnes.begin.core.ctl.issue = .run ∧
      atOnes.begin.core.ctl.priv = .u ∧ atOnes.begin.slot.pend = 0 ∧
      atOnes.begin.poisoned (atOnes.begin.codeKey atOnes.pc) = false ∧ atOnes.begin.parcelAt atOnes.pc = 0xFFFFFFFF) ∧
    ((Instr.liLong 3 0).wellFormed = true ∧ encode (.liLong 3 0) = some (0xC0600000, some 0)) ∧
    (Instr.liHi 3 (-1)).wellFormed = true ∧ encode (.liHi 3 (-1)) = some (0xC0600001, some 0xFFFFFFFF) := by
  and_intros <;> decide +kernel

/-- R135: a step at a parcel of ones is ILLEGAL. -/
theorem test_ones_illegal : (match step atOnes with
    | .next t => t.core.ctl.cause == 1 && t.core.ctl.tval == 0xFFFFFFFF && t.core.ctl.priv == .s
    | _ => false) = true := by rfl

theorem witness_MemoryStaysCanonical : atAdd.memOk ∧ ∃ t, step atAdd = .next t := ⟨⟨by decide, by decide⟩, _, rfl⟩

theorem witness_CoreStaysHome : atAdd.homed ∧ ∃ t, step atAdd = .next t := by
  refine ⟨⟨by decide, ⟨by decide, by decide⟩, fun e h => ?_⟩, _, rfl⟩
  cases List.mem_singleton.1 h
  exact ⟨by decide, by decide, by decide⟩

theorem test_step_adds : ∃ t, step atAdd = .next t ∧ t.gv 4 = 5 ∧ t.pc = 0x104 := ⟨_, rfl, by decide, by decide⟩

/-! ## Messages -/

/-- Seat n of the selected core set. -/
def withSeat (s : State) (n : Nat) (q : Seat) : State := { s with core := s.core.onSeat n fun _ => q }
/-- A seat of four flits at 0x8000, channel 16 of class 2, its oldest message in the last place. -/
def seat4 (count tail : BitVec 8) (fin : Bool) : Seat := ⟨tail, 3, 0, count, 4, 0x8000, 7, 0, fin, true, 2, 16⟩
/-- A packet between cores 0 and 1 of group 1. -/
def packetTo (k : PKind) (src dst : Nat) : Packet :=
  { Packet.blank k src dst with gid := 1, dom := 5, chan := 16, lc := 2, round := 7, flits := 1, alloc := 1 }
/-- One packet in flight. -/
def flying (s : State) (p : Packet) : State := { s with net := [p] }
/-- The selected core waits for the answer of a request. -/
def asked (s : State) (p : Packet) (r : Option (BitVec 8 × BitVec 64)) : State :=
  s.onSh fun h => { h with rpc := some ⟨p, 0, r, false, none⟩ }
/-- Group address of core 1. -/
def core1 : BitVec 64 := 0x8000000080000000
/-- A root entry of channel 16 with children by a mask of directions. -/
def rootEntry (child : BitVec 5) : CombEntry :=
  { gid := 1, chan := 16, parent := 4, child := child, absent := 0, admv := false, admd := 0, admRound := 0,
    sink := some ⟨3, 1, 0x200, 0x300⟩, nblkm1 := 3, latest := none, passed := none, rounds := 6 }
/-- A combine entry at a node. -/
def withEntry (s : State) (k : Nat) (e : CombEntry) : State := s.onNode k fun q => { q with entries := [e] }

theorem witness_Receives :
    (((withSeat (run .u) 63 (seat4 255 2 false)).core.seatAt (63 : BitVec 6).toNat).valid = true ∧
      ((withSeat (run .u) 63 (seat4 255 2 false)).core.seatAt (63 : BitVec 6).toNat).count ≠ 0) ∧
    (((withSeat (run .u) 63 (seat4 0 3 false)).core.seatAt (63 : BitVec 6).toNat).valid = true ∧
      ((withSeat (run .u) 63 (seat4 0 3 false)).core.seatAt (63 : BitVec 6).toNat).count = 0 ∧
      (run .u).core.ctl.priv = .u ∧ (run .s).core.ctl.priv = .s) ∧
    (run .u).core.ctl.priv = .u ∧ ((run .u).core.seatAt (63 : BitVec 6).toNat).valid = false := by decide

/-- A `SEATSET` operand: the last 128 bytes of the scratchpad, channel 16 of class 2. -/
def seatWord : BitVec 64 := 0x0004FF8007006010

theorem witness_SeatsAndRounds :
    ((runG .u [(2, seatWord)]).gp 2 = false ∧ (runG .u [(2, seatWord)]).gp 3 = false ∧
      ((runG .u [(2, seatWord)]).gv 2).getLsbD 14 = true ∧ ((runG .u [(2, seatWord)]).gv 3).extractLsb' 32 32 = 0 ∧
      ((runG .u [(2, seatWord)]).gv 2).extractLsb' 20 4 = 0 ∧ (((runG .u [(2, seatWord)]).gv 2).extractLsb' 32 16).toNat = 0xFF80 ∧
      0xFF80 + 32 * 4 ≤ 0x10000 ∧ ((runG .u [(2, seatWord)]).gv 2).extractLsb' 12 2 ≠ 1) ∧
    -- its place holds a message; another seat is its twin
    (((withSeat (run .u) 63 (seat4 1 0 false)).core.seatAt 63).count ≠ 0 ∧
      ((withSeat (run .u) 0 (seat4 0 0 false)).core.seatAt 0).chan = seatWord.extractLsb' 0 12 ∧
      ((withSeat (run .u) 0 (seat4 0 0 false)).core.seatAt 0).lc = seatWord.extractLsb' 12 2) ∧
    -- sets whose seats are invalid, finished, and not finished
    ((runG .u [(2, 0x8000000000000000)]).gp 2 = false ∧ ((runG .u [(2, 0x8000000000000000)]).gv 2).getLsbD 63 = true ∧
      ((run .u).core.seatAt 63).valid = false) ∧
    (∀ b, b ∈ [true, false] → ∀ j, j < 64 → ((runG .u [(2, 0x8000000000000000)]).gv 2).getLsbD j = true →
      ((withSeat (run .u) 63 (seat4 0 0 b)).core.seatAt j).valid = true ∧
      ((withSeat (run .u) 63 (seat4 0 0 b)).core.seatAt j).fin = b) := by decide

def onSeat9 : State :=
  onSlot (withSeat (run .u) 9 (seat4 0 3 false)) 5 fun t => { t with st := .sleep, why := .seat 9 }

/-- R237: a slot asleep on the seat becomes READY, whatever CTX of the seat. -/
theorem test_seatclr_wakes : (onSeat9.core.slot 5).st = .sleep ∧ (onSeat9.core.slot 5).why = .seat 9 ∧
    (onSeat9.core.seatAt 9).valid = true ∧ (onSeat9.core.seatAt 9).ctx = 0 ∧
    (match execSeatclr 1 9 onSeat9 with
      | .next t => (t.core.slot 5).st == .ready && t.gv 1 == 0 && !(t.core.seatAt 9).valid
      | _ => false) = true := by decide

theorem witness_Sends :
    ((runG .u [(2, core1)]).gp 2 = false ∧ (runG .u [(2, core1)]).gp 4 = false ∧
      (runG .u [(2, core1)]).target228 ((runG .u [(2, core1)]).gv 2) = some ⟨0xFF, 1, 0⟩ ∧
      (runG .u [(2, core1)]).deadTarget (Lc.bits .c2) ⟨0xFF, 1, 0⟩ = false ∧ (run .u).slot.unans.length < 64 ∧
      (runG .u [(2, core1)]).entersTree ⟨0xFF, 1, 0⟩ .c2 16 = false ∧ (run .u).outstanding .panel = false ∧
      (run .u).slot.dataWaits ⟨0xFF, 1, 0⟩ .c2 16 = false) ∧
    -- a DATA to core 1 is not answered
    ((onSlot (run .u) 0 fun t => { t with unans := [⟨1, 0xFF, 1, 16, 2, false, 0, 0⟩] }).outstanding .panel = true ∧
      (onSlot (run .u) 0 fun t => { t with unans := [⟨1, 0xFF, 1, 16, 2, false, 0, 0⟩] }).slot.dataWaits ⟨0xFF, 1, 0⟩ .c2 16 = true) ∧
    -- site 0 is not LIVE
    ({ runG .u [(2, core1)] with sites := [] } : State).deadTarget (Lc.bits .c2) ⟨0xFF, 1, 0⟩ = true ∧
    ((run .u).core.ctl.priv = .u ∧ (runG .u [(2, 0x8000004000000000)]).target228 ((runG .u [(2, 0x8000004000000000)]).gv 2) = none) ∧
    -- a tree at the own router
    ((runG .u [(2, ownAddr 0), (3, 0x010000)]).target228 ((runG .u [(2, ownAddr 0), (3, 0x010000)]).gv 2) = some ⟨0xFF, 0, 0⟩ ∧
      ((runG .u [(2, ownAddr 0), (3, 0x010000)]).gv 3).extractLsb' 16 8 ≠ 0 ∧
      ((runG .u [(2, ownAddr 0), (3, 0x010000)]).gv 3).extractLsb' 16 8 ≠ 0xFF ∧
      (run .u).entryFor (run .u).here (run .u).core.ctl.gid 16 = none ∧
      (withEntry (run .u) 0 (rootEntry 6)).entryFor 0 1 16 = some (rootEntry 6) ∧
      (run .u).deadTarget 3 ⟨0xFF, 0, 0⟩ = false ∧ ((run .u).onSite 0 fun t => { t with st := .draining }).deadTarget 3 ⟨0xFF, 0, 0⟩ = true) := by
  decide

theorem witness_WatchesAndWakes :
    ((runG .u [(2, core1 + 0xFFF8)]).gp 2 = false ∧ (run .u).gp 4 = false ∧ isFar (core1 + 0xFFF8) = false ∧
      (core1 + 0xFFF8).extractLsb' 0 3 = 0 ∧ (runG .u [(2, core1 + 0xFFF8)]).resolve (core1 + 0xFFF8) = some ⟨0xFF, 1, 0xFFF8⟩ ∧
      (run .u).rpcFor .watch = none ∧ (run .u).deadTarget 0 ⟨0xFF, 1, 0xFFF8⟩ = false ∧
      ({ run .u with sites := [] } : State).deadTarget 0 ⟨0xFF, 1, 0xFFF8⟩ = true) ∧
    ((asked (run .u) (packetTo .watch 0 1) (some (5, 0))).rpcFor .watch = some ⟨packetTo .watch 0 1, 0, some (5, 0), false, none⟩ ∧
      (asked (run .u) (packetTo .watch 0 1) none).rpcFor .watch = some ⟨packetTo .watch 0 1, 0, none, false, none⟩) ∧
    -- wakes of the own core and of core 1
    ((runG .u [(2, ownAddr 15)]).target228 ((runG .u [(2, ownAddr 15)]).gv 2) = some ⟨0xFF, 0, 15⟩ ∧
      (ownAddr 15).extractLsb' 4 14 = 0 ∧ (runG .u [(2, core1 + 15)]).target228 (core1 + 15) = some ⟨0xFF, 1, 15⟩ ∧
      (run .u).rpcFor .wake = none ∧ (run .u).deadTarget 3 ⟨0xFF, 1, 15⟩ = false ∧ (run .u).deadTarget 3 ⟨0xFF, 0, 15⟩ = false ∧
      ((run .u).onSite 0 fun t => { t with st := .draining }).deadTarget 3 ⟨0xFF, 0, 15⟩ = true ∧
      (asked (run .u) (packetTo .wake 0 1) (some (0, 0))).rpcFor .wake = some ⟨packetTo .wake 0 1, 0, some (0, 0), false, none⟩) ∧
    -- arrivals
    (∀ k, k ∈ [PKind.watch, .watchWake, .wake] →
      (flying (run .u) (packetTo k 1 0)).arriving 0 = some (packetTo k 1 0) ∧ (packetTo k 1 0).srcPan = 0xFF ∧
      (flying (run .u) (packetTo k 1 0)).arrives 1 0 1 0 = true ∧ (flying (run .u) (packetTo k 1 0)).arrives 1 3 1 0 = true ∧
      (run .u).siteLive 0 = true ∧
      (run .u).homeCheck 5 0 0 8 = none ∧ (run .u).poisoned (nodeBase 0) = false ∧
      (run .u).readNat (nodeBase 0) 8 = (packetTo k 1 0).val.toNat ∧ isCore 0 = true ∧
      ((flying (run .u) (packetTo k 1 0)).coreAt 0).ctl.gid = 1) ∧
    ((run .u).readNat (nodeBase 0) 8 ≠ ({ packetTo .watch 1 0 with val := 1 } : Packet).val.toNat) ∧
    32 ≤ (((run .u).onNode 0 fun q => { q with watches := List.replicate 32 ⟨8, 8, 0xFF, 1, 3, 1, 5⟩ }).node 0).watches.length := by
  decide +kernel

theorem witness_BarriersAndFences :
    (bget (run .u).core.sh.arr (7 : BitVec 3) = bget (run .u).core.sh.done (7 : BitVec 3) ∧ (run .u).outstanding .panel = false ∧
      bget ((run .u).onSh fun h => { h with arr := bset h.arr (7 : BitVec 3) 1 }).core.sh.arr (7 : BitVec 3) ≠ 0 ∧
      (onSlot (run .u) 0 fun t => { t with unans := [⟨1, 0xFF, 1, 16, 2, false, 0, 0⟩] }).outstanding .panel = true) ∧
    -- 127 behind and 128 behind
    ((bget (run .u).core.sh.done (7 : BitVec 3) - ((runG .u [(2, 129)]).gv 2).setWidth 8).toNat < 128 ∧
      128 ≤ (bget (run .u).core.sh.done (7 : BitVec 3) - ((runG .u [(2, 128)]).gv 2).setWidth 8).toNat) ∧
    -- flags at their number, past it, behind it
    ((runG .u [(2, ownAddr 0xFFF8)]).ownPath ((runG .u [(2, ownAddr 0xFFF8)]).gv 2) 8 = .own 0xFFF8 ∧
      (run .u).anyPoison (nodeBase 0 + 0xFFF8) 8 = false ∧
      BitVec.ofNat 16 ((run .u).readNat (nodeBase 0 + 0xFFF8) 8) - ((run .u).gv 3).setWidth 16 = 0 ∧
      (BitVec.ofNat 16 ((run .u).readNat (nodeBase 0 + 0xFFF8) 8) - ((runG .u [(3, 0x8001)]).gv 3).setWidth 16).toNat = 0x7FFF ∧
      0x8000 ≤ (BitVec.ofNat 16 ((run .u).readNat (nodeBase 0 + 0xFFF8) 8) - ((runG .u [(3, 0x8000)]).gv 3).setWidth 16).toNat) ∧
    ((run .u).storesWait = false ∧ (run .u).waiting = [] ∧ (run .u).emitted = []) ∧
    -- arrivals at the root and above it
    ((flying (run .u) { packetTo .barArrive 1 0 with count := 1 }).arriving 0 = some { packetTo .barArrive 1 0 with count := 1 } ∧
      (run .u).groupOf 1 = some 0 ∧ ((run .u).group 0).cores.countP (((run .u).group 0).below 0) = 2 ∧
      ((run .u).group 0).cores.countP (((run .u).group 0).below 1) = 1 ∧ (0 : Nat) = keyOf group1.col0 group1.row0 ∧
      (run .u).offPath ((run .u).group 0) 0 = false ∧ (run .u).siteLive 0 = true ∧
      -- a bank router of a site out of the path
      (run .u).offPath { group1 with away := [2] } (keyOf 150 1) = true ∧ siteOf (keyOf 150 1) = 2 ∧
      keyOf 150 1 ≠ keyOf group1.col0 group1.row0) ∧
    ((flying (run .u) (packetTo .barRelease 1 0)).arriving 0 = some (packetTo .barRelease 1 0) ∧
      bget ((run .u).onSh fun h => { h with arr := Vector.replicate 8 7 }).core.sh.arr (packetTo .barRelease 1 0).dir = 7) := by
  decide +kernel

theorem witness_SitesAndServices :
    ((runG .u [(2, 24)]).gp 2 = false ∧ ((runG .u [(2, 24)]).gv 2).toNat ≤ 24) ∧
    (24 < ((runG .u [(2, 25)]).gv 2).toNat ∧ (run .u).core.ctl.priv = .u) ∧ (run .s).core.ctl.priv = .s ∧
    (3 ≤ (3 : BitVec 6).toNat ∧ 3 ≤ (63 : BitVec 6).toNat) ∧
    ((run .u).groupOf (run .u).core.ctl.gid = some 0 ∧ ((run .u).group 0).st ≠ .faulted ∧
      ((run .u).gv 2).setWidth 32 ≠ (0xFFFFFFFF : BitVec 32)) ∧
    (((run .u).site (siteOf (run .u).here)).triad.mayVote = true ∧
      (((run .u).onSite 0 fun t => { t with triad := { t.triad with halted := true } }).site 0).triad.mayVote = false) ∧
    (∀ n : Nat, ({ run .u with boat := { (run .u).boat with queue := List.replicate n (0, 0, 0) } } : State).boat.queue.length = n) := by
  and_intros <;> first | decide | exact fun n => List.length_replicate

/-! ## Streams and atomics -/

/-- A descriptor at 0xFFC0: 8 bytes from core 1 to the own scratchpad, flag word at 0x100. -/
def withDesc (s : State) : State :=
  s.poke 0xFFC0 (leBytes 64 (0x8000000080000000 + (0xC000000000000200 + (0xC000000000000100 + 8 * 2 ^ 64) * 2 ^ 64) * 2 ^ 64)) false
/-- An open stream from core 1 to the own scratchpad. -/
def open1 : Stream :=
  { Stream.free with
    st := .active, alloc := 1, src := 0x8000000080000000, dst := ownAddr 0x200, flag := ownAddr 0x100, len := 8,
    seq := 5, sstep := 8, dstep := 8 }
/-- The same with its one leg begun, and no leg left. -/
def stream1 : Stream := { open1 with next := 8 }
/-- Stream slot 3 of the selected core set. -/
def withStream (s : State) (q : Stream) : State := s.onSh fun h => { h with stream := h.stream.set 3 q }

set_option maxRecDepth 8000 in
theorem witness_Streams :
    ((withDesc (runG .u [(2, ownAddr 0xFFC0)])).gp 2 = false ∧
      (withDesc (runG .u [(2, ownAddr 0xFFC0)])).ownPath ((withDesc (runG .u [(2, ownAddr 0xFFC0)])).gv 2) 1 = .own 0xFFC0 ∧
      0xFFC0 % 64 = 0 ∧ (withDesc (run .u)).anyPoison (nodeBase 0 + 0xFFC0) 64 = false ∧
      (let x : BitVec 512 := BitVec.ofNat 512 ((withDesc (run .u)).readNat (nodeBase 0 + 0xFFC0) 64)
       (run .u).descFields x .stream = true ∧
        (run .u).endsFault (x.extractLsb' 0 64) (x.extractLsb' 64 64) (x.extractLsb' 192 32).toNat = none ∧
        (run .u).flagFault (x.extractLsb' 128 64) = none)) ∧
    ((run .u).core.freeStream = some 0 ∧
      ((run .u).onSh fun h => { h with stream := Vector.replicate 4 open1 }).core.freeStream = none) ∧
    -- every state of a slot
    (∀ st, st ∈ [StreamSt.free, .active, .faulted, .done] → ((withStream (run .u) { open1 with st := st }).stream 3).st = st) ∧
    ((run .u).endsFault (open1.src + open1.sstep.signExtend 64) (open1.dst + open1.dstep.signExtend 64) open1.len.toNat = none ∧
      (run .u).endsFault (open1.src + (1 : BitVec 32).signExtend 64) (open1.dst + open1.dstep.signExtend 64) open1.len.toNat ≠ none) ∧
    -- the end with and without a flag word, and with an earlier write to the flag word on its way
    ((stream1.ended = true ∧ stream1.flag ≠ 0 ∧ (withStream (run .u) stream1).nearEnd stream1.flag 2 = .ok (.near 0 0x100) ∧
      (withStream (run .u) stream1).unsettled (wordsOf (nodeBase 0 + 0x100) 8) = false ∧
      (((withStream (run .u) stream1).onSh fun h => { h with stream := h.stream.set 2 { stream1 with
        legs := [⟨0, [], [], [], 1, [⟨0, [(7, false)], .near 0 0x100, 0, 0, none⟩]⟩] } }).unsettled (wordsOf (nodeBase 0 + 0x100) 8) = true)) ∧
      open1.ended = false) ∧
    -- a leg that waits for record 7, joined or not, for a migration, or for tick 64
    (∀ st, st ∈ [RecSt.pending, .resolved, .failed] → ((run .u).onSite 0 fun t =>
      { t with faults := [(7, { FaultRec.free with st := st, join := [.stream 0 3] })] }).faultAt 0 7 =
        { FaultRec.free with st := st, join := [.stream 0 3] }) ∧
    ((withStream (run .u) { open1 with wait := .record 0 7 }).stream 3).wait = .record 0 7 ∧
    ((withStream (run .u) { open1 with wait := .migrating 0 }).stream 3).wait = .migrating 0 ∧
    (({ run .u with sites := [] } : State).leadUp = false ∧ (64 : Nat) ≤ (64 : Nat) ∧ (63 : Nat) < 64) := by
  and_intros <;> decide +kernel

/-- A leg of one word: its words read, and how many bursts it has sent, with those in flight. -/
def leg1 (got : List (Nat × Nat × Bool)) (reads : List Nat) (sent : Nat) (fly : List Flight) : Leg := ⟨0, [], got, reads, sent, fly⟩
/-- A transfer of one word between the own scratchpad and core 1, its one leg begun. -/
def putTo1 (c : SClass) (l : Leg) : Stream := { stream1 with src := ownAddr 0x200, dst := 0x8000000080000000, cls := c, legs := [l] }
/-- With one move open, that move is the one made. -/
theorem one_move {l : List Move} {m : Move} (h : l = [m]) (n : Nat) : l[n % l.length]? = some m := by
  subst h; simp [Nat.mod_one]

/-- A transfer into the own scratchpad, and one to core 1, at their one leg. -/
def getting (l : Leg) : State := withStream (run .u) { stream1 with legs := [l] }
def putting (c : SClass) (l : Leg) : State := withStream (run .u) (putTo1 c l)

set_option maxRecDepth 8000 in
theorem witness_Streams_moves :
    ((withStream (run .u) open1).moves 3 = [.begin] ∧ open1.nextPos = some 0 ∧ (run .u).ownEnd open1.dst = true ∧
      isFar open1.src = false ∧ (withStream (run .u) stream1).moves 3 = []) ∧
    ((getting (leg1 [] [0] 0 [])).moves 3 = [.read 0 0] ∧ (getting (leg1 [(0, 7, false)] [] 0 [])).moves 3 = [.put 0 0] ∧
      (stream1.leg 0).got = [] ∧ (leg1 [(0, 7, false)] [] 0 []).got.find? (fun g => g.1 == 0) = some (0, 7, false) ∧
      (putTo1 .stream (leg1 [(0, 7, false)] [] 0 [])).nextBurst (leg1 [(0, 7, false)] [] 0 []) = some [(7, false)]) ∧
    (∀ c, c ∈ [SClass.stream, .random, .ordered] → (putting c (leg1 [(0, 7, false)] [] 0 [])).moves 3 = [.emit 0]) ∧
    ((putting .stream (leg1 [] [] 1 [⟨0, [(7, false)], .near 1 0, 0, 0, none⟩])).moves 3 = [.land 0 0 0] ∧
      (⟨0, [(7, false)], .near 1 0, 0, 0, none⟩ : Flight).words[0]? = some (7, false) ∧ (run .u).tileUp = true ∧
      (run .u).arrives 1 2 0 1 = true ∧ (run .u).homeCheck 5 1 0 8 = none) := by
  and_intros <;> decide +kernel

set_option maxRecDepth 8000 in
theorem witness_Streams_ends :
    (getting (leg1 [] [0] 0 [])).nearEnd stream1.src 0 = .ok (.near 1 0) ∧
    (getting (leg1 [(0, 7, false)] [] 0 [])).nearEnd stream1.dst 2 = .ok (.near 0 0x200) ∧
    (putting .ordered (leg1 [(0, 7, false)] [] 0 [])).nearEnd (putTo1 .ordered (leg1 [] [] 0 [])).dst 0 = .ok (.near 1 0) ∧
    (putting .random (leg1 [(0, 7, false)] [] 0 [])).nearEnd (putTo1 .random (leg1 [] [] 0 [])).dst 2 = .ok (.near 1 0) :=
  ⟨rfl, rfl, rfl, rfl⟩

theorem witness_Atomics :
    -- the own word, the last of the scratchpad
    ((runG .u [(2, ownAddr 0xFFF8)]).gp 2 = false ∧ (runG .u [(2, ownAddr 0xFFF8)]).gp 3 = false ∧
      ((runG .u [(2, ownAddr 0xFFF8)]).gv 2).toNat % AmoW.bytes .b64 = 0 ∧ (run .u).rpcFor .amo = none ∧
      isFar (ownAddr 0xFFF8) = false ∧ (runG .u [(2, ownAddr 0xFFF8)]).resolve (ownAddr 0xFFF8) = some ⟨0xFF, 0, 0xFFF8⟩ ∧
      (run .u).deadTarget 0 ⟨0xFF, 0, 0xFFF8⟩ = false ∧ (run .u).homeCheck (run .u).core.ctl.dom 0 0xFFF8 8 = none ∧
      (run .u).poisoned (nodeBase 0 + 0xFFF8) = false ∧ (run .u).unsettled [(nodeBase 0 + 0xFFF8) / 8] = false) ∧
    -- a word of core 1, asked for and answered
    ((runG .u [(2, core1 + 4)]).resolve (core1 + 4) = some ⟨0xFF, 1, 4⟩ ∧ ((runG .u [(2, core1 + 4)]).gv 2).toNat % AmoW.bytes .b32 = 0 ∧
      (run .u).deadTarget 0 ⟨0xFF, 1, 4⟩ = false ∧ (run .u).core.sh.unrep.length < 8 ∧
      8 ≤ ((run .u).onSh fun h => { h with unrep := List.replicate 8 3 }).core.sh.unrep.length ∧
      (run .u).unsettled [(nodeBase 1 + (core1 + 4).toNat % 262144) / 8] = false) ∧
    (∀ st, st ∈ [0, 0x41] → (asked (run .u) (packetTo .amo 0 1) (some (st, 9))).rpcFor .amo =
      some ⟨packetTo .amo 0 1, 0, some (st, 9), false, none⟩) ∧
    -- a request at its home, new and repeated
    ((flying (run .u) (packetTo .amo 1 0)).arriving 0 = some (packetTo .amo 1 0) ∧ (packetTo .amo 1 0).count = 0 ∧
      (packetTo .amo 1 0).srcPan = 0xFF ∧ (flying (run .u) (packetTo .amo 1 0)).arrives 1 0 1 0 = true ∧
      (packetTo .amo 1 0).flits ≠ 0 ∧ (run .u).anyPoison (nodeBase 0) (8 * 4) = false ∧
      cacheLookup ((run .u).node 0).cache (fun _ => false) { packetTo .amo 1 0 with flits := 0 } = .fresh [⟨0xFF, 1, 0, []⟩] ∧
      cacheLookup ((run .u).node 0).cache (fun _ => false) (packetTo .amo 1 0) = .fresh [⟨0xFF, 1, 0, []⟩] ∧ (run .u).homeCheck 5 0 0 8 = none ∧
      cacheLookup [⟨0xFF, 1, 0, [⟨0, 0, 3⟩]⟩] (fun _ => false) (packetTo .amo 1 0) = .old ⟨0, 0, 3⟩ [⟨0xFF, 1, 0, [⟨0, 0, 3⟩]⟩]) ∧
    -- a request at the proxy core of a served address
    (tget [] ({ liveSite with proxy := [(0, [packetTo .amo 0 0])] } : Site).proxy (0 : BitVec 4).toNat = [packetTo .amo 0 0] ∧
      ({ run .u with sites := [(0, liveSite), (1, liveSite), (2, liveSite)]
                     links := { (run .u).links with cxl := [(0, ⟨false, true, 0, 0, true⟩)] } } : State).served 0 = true ∧
      (run .u).linePoison 0 = false ∧ (run .u).lineError 0 = false ∧ tget none ((run .u).site 0).taken 3 = none ∧
      tget none ({ liveSite with taken := [(3, some 9)] } : Site).taken 3 = some 9 ∧
      cacheLookup ((run .u).site 0).pcache ((run .u).site 0).underWay (packetTo .amo 0 0) = .fresh [⟨0xFF, 0, 0, []⟩]) ∧
    (∀ k, ((run .u).stream k).flying = []) ∧ (run .u).tileUp = true ∧ ({ run .u with sites := [] } : State).tileUp = false ∧
      (run .u).siteLive 0 = true ∧ ({ run .u with sites := [] } : State).siteLive 0 = false ∧
    (let q := putTo1 .ordered (leg1 [] [] 1 [⟨0, [(7, false)], .near 1 0, 4, 0, none⟩])
     ((withStream (run .u) q).stream 3).cls = .ordered ∧
      (⟨0, [(7, false)], .near 1 0, 4, 0, none⟩ : Flight) ∈ ((withStream (run .u) q).stream 3).flying) ∧
    -- resends
    (∀ n : Nat, ({ run .u with clock := ⟨n, 0, 0, [], false⟩ } : State).clock.ticks = n) ∧
    ((run .u).cycleTicks 0 65536 = 65536 * 10 / pointClock 7 ∧ 0 < (run .u).cycleTicks 0 64) ∧
    (((run .u).onSh fun h => { h with acks := [(0xFF, 1, 0), (3, 1, 9)] }).core.sh.acks = [(0xFF, 1, 0), (3, 1, 9)] ∧ 1 < 1048576 ∧
      0 < (run .u).cycleTicks 0 1024) := by
  and_intros <;> first | decide +kernel | exact fun _ => rfl

/-! ## Arrivals and reduction trees -/

/-- Seat 63 of core 0 holds a message of two flits in its four. -/
def seatHalf (fin : Bool) : Seat := { seat4 1 1 fin with head := 3 }

theorem witness_PacketArrivals :
    ((flying (run .u) (packetTo .data 1 0)).arriving 0 = some (packetTo .data 1 0) ∧ (packetTo .data 1 0).srcPan = 0xFF ∧
      (flying (run .u) (packetTo .data 1 0)).arrives 1 2 1 0 = true ∧
      (flying ({ run .u with sites := [] } : State) (packetTo .data 1 0)).arrives 1 2 1 0 = false ∧
      (run .u).seatOf (packetTo .data 1 0) = none ∧ (withSeat (run .u) 63 (seatHalf false)).seatOf (packetTo .data 1 0) = some 63) ∧
    -- room for two more flits, not for three; a packet larger than the ring
    ((seatHalf false).used + (1 + 1) ≤ (seatHalf false).cap ∧ (seatHalf false).cap < (seatHalf false).used + (1 + 2) ∧
      ({ seatHalf false with size := 2 } : Seat).cap < 1 + 2) ∧
    -- this round, the next, the one after, the one before
    ((7 : BitVec 8) = (seatHalf false).round ∧ (8 : BitVec 8) - (seatHalf false).round = 1 ∧ (seatHalf true).fin = true ∧
      (9 : BitVec 8) - (seatHalf false).round ≠ 1 ∧ (6 : BitVec 8) - (seatHalf false).round ≠ 1) ∧
    ((flying (withSeat (run .u) 63 (seatHalf false)) (packetTo .finish 1 0)).arriving 0 = some (packetTo .finish 1 0) ∧
      (flying (run .u) (packetTo .finish 1 0)).arrives 1 3 1 0 = true) ∧
    ((flying (run .u) (packetTo .reply 1 0)).arriving 0 = some (packetTo .reply 1 0) ∧
      (run .u).sinks 0 = true ∧ ({ run .u with sites := [] } : State).sinks 0 = false ∧
      (packetTo .reply 1 0).fin = false ∧ ({ packetTo .reply 1 0 with fin := true, status := 1 } : Packet).fin = true ∧
      ((run .u).core.slot 0).alloc = (packetTo .reply 1 0).alloc ∧ ((run .u).core.slot 0).st ≠ .free) ∧
    (((run .u).onSh fun h => { h with busyFin := [(packetTo .finish 0 1, 0)] }).core.sh.busyFin[0]? = some (packetTo .finish 0 1, 0) ∧
      0 < (run .u).cycleTicks 0 64 ∧ (run .u).tileUp = true) := by
  decide +kernel

theorem witness_ReductionTrees :
    ((flying (run .u) { packetTo .treeBlock 1 0 with dir := 1, flits := 2 }).arriving 0 = some { packetTo .treeBlock 1 0 with dir := 1, flits := 2 } ∧
      (flying (run .u) (packetTo .treeBlock 1 0)).arrives 1 2 1 0 = true ∧ (run .u).entryFor 0 1 16 = none ∧
      (withEntry (run .u) 0 (rootEntry 6)).entryFor 0 1 16 = some (rootEntry 6) ∧
      (rootEntry 6).refuses { packetTo .treeBlock 1 0 with dir := 1, flits := 2 } none = none ∧ ((run .u).node 0).bufs.length < 64 ∧
      -- two children, and one
      (6 : BitVec 5) &&& ~~~((rootEntry 6).absentAt 7) &&& ~~~(dirBit 1) ≠ 0 ∧
      ((rootEntry 2).child = dirBit 1 ∧ (rootEntry 2).absentAt 7 = 0 ∧ (rootEntry 2).parent = 4 ∧
        (rootEntry 2).refuses { packetTo .treeBlock 1 0 with dir := 1, flits := 2 } none = none ∧
        64 * 1 + 64 * 0 + 64 ≤ 4 * 0x200 + 4 * 0)) ∧
    (let h : FinHeld := ⟨1, 16, 7, 2, false, [], false⟩
     let s := (withEntry (run .u) 0 (rootEntry 2)).onNode 0 fun q => { q with fins := [h] }
     s.finHeld 0 1 16 7 = h ∧ s.finishDue 0 (rootEntry 2) h = true ∧ s.entryFor 0 1 16 = some (rootEntry 2) ∧ (rootEntry 2).parent = 4 ∧
      ({ rootEntry 2 with parent := 3 } : CombEntry).parent ≠ 4) ∧
    -- the round stands at the root, all blocks written, and one lacking
    (let full : FinHeld := ⟨1, 16, 7, 2, false, [0, 1, 2, 3], true⟩
     let s := (withEntry (run .u) 0 (rootEntry 2)).onNode 0 fun q => { q with fins := [full] }
     (s.finHeld 0 1 16 7).root = true ∧ s.liveFor 1 0 = true ∧ (∀ i, i ≤ (3 : BitVec 12).toNat → BitVec.ofNat 12 i ∈ full.wrote) ∧
      ¬ BitVec.ofNat 12 3 ∈ ({ full with wrote := [0, 1, 2] } : FinHeld).wrote ∧
      ({ s with sites := [] } : State).liveFor 1 0 = false) ∧
    (rootEntry 2).sink = some ⟨3, 1, 0x200, 0x300⟩ ∧
    ((flying (run .u) (packetTo .renorm 1 0)).arriving 0 = some (packetTo .renorm 1 0) ∧ (packetTo .renorm 1 0).dstPan = 0xFF ∧
      (flying (run .u) (packetTo .renorm 1 0)).arrives 1 3 1 0 = true) := by
  decide +kernel

/-! ## Health, clock and power -/

/-- A SEAT section with one record: seat number n, its word, its source shards. -/
def seatSect (n : Nat) (word : Nat) (src : List (Nat × Nat)) : Sect :=
  let b := leBytes 16 (word + n * 2 ^ 96) ++ leBytes 4 src.length ++ src.flatMap fun e => leBytes 4 (e.1 + 65536 * e.2)
  ⟨tySeat, 255, 0, b.length, b⟩
/-- An image of one variant, a lane of one cluster, entry 0x40, `KVEC` 2, `SSCR` 0x4000; seat 3 is sent on by
shard (0, 1), seat 4 by shard (0, 0). -/
def image1 : Image :=
  ⟨5, 9, [⟨tyPlace, 0, 0, 8, leBytes 8 0x0101⟩, ⟨tyEntry, 0, 0, 8, leBytes 8 (0x10040 + 1000 * 2 ^ 32)⟩,
    ⟨tyVariant, 0, 0, 4, leBytes 4 0x500000⟩, ⟨tySched, 255, 0, 8, leBytes 8 0x40000002⟩,
    ⟨tyText, 255, 0x40, 4, leBytes 4 0xA0000000⟩, seatSect 3 0x0004800007006010 [(0, 1)], seatSect 4 0x0004810007006011 [(0, 0)]]⟩
/-- The same image in group 1. -/
def group1i : Group := { group1 with image := image1 }
/-- The panel with other entries of the group table, and at a tick. -/
def runGroup (p : Priv) (g : Group) (now : Nat) : State :=
  { run p with clock := ⟨now, 0, 0, [], false⟩, lead := { (run p).lead with groups := [(0, g)] } }
/-- Slot 0 of cores 0 and 1 asleep on the seats each other sends on. -/
def crossed (now : Nat) : State :=
  (onSlot (runGroup .u group1i now) 0 fun t => { t with st := .sleep, why := .seat 3 }).onCore 1
    fun c => c.onSlot 0 fun t => { t with st := .sleep, why := .seat 4 }

theorem witness_ProbesAndWatchdogs :
    ((crossed 65536).groupOf (crossed 65536).core.ctl.gid = some 0 ∧
      ((crossed 65536).site (siteOf (crossed 65536).here)).triad.halted = false ∧ 1 ≠ (crossed 65536).here ∧ siteOf 1 = siteOf 0 ∧
      (crossed 65536).core.waiters = [0] ∧ ((crossed 65536).coreAt 1).waiters = [0] ∧
      ((crossed 65536).core.slot 0).slept + 65536 ≤ (crossed 65536).clock.ticks ∧
      (crossed 65536).sourceCores ((crossed 65536).group 0) (0, 0) = [1] ∧
      (crossed 65536).sourceCores ((crossed 65536).group 0) (1, 0) = [0]) ∧
    (crossed 65535).clock.ticks < ((crossed 65535).core.slot 0).slept + 65536 ∧
    ((crossed 1000).core.watchdogVal 0 = some 3 ∧ ((crossed 1000).core.slot 0).slept + ((crossed 1000).group 0).limit ≤ (crossed 1000).clock.ticks ∧
      ((crossed 1000).group 0).limit ≠ 0 ∧ (crossed 999).clock.ticks < ((crossed 999).core.slot 0).slept + ((crossed 999).group 0).limit ∧
      ({ group1i with limit := 0 } : Group).limit = 0) ∧
    ((crossed 0).core.slot 0).st = .sleep := by decide +kernel

/-- The panel of a tick. -/
def tickAt (n : Nat) : State := { run .u with clock := ⟨n, 0, 0, [], false⟩ }

theorem witness_ScrubbingAndUmpires :
    ((tickAt (2 ^ 30)).serving 0 = true ∧ ((tickAt (2 ^ 30)).part 0).scrub = 0 ∧
      ((tickAt (2 ^ 30)).part 0).scrubAt + 2 ^ 30 ≤ (tickAt (2 ^ 30)).clock.ticks ∧
      (((run .u).onPart 0 fun q => { q with scrub := 1023 }).part 0).scrub = 1023 ∧ nodeSize 0 / 64 = 1024 ∧
      (run .u).poisoned (nodeBase 0 + 64 * 1023 + 8 * 7) = false ∧ isCore 0 = true ∧ (run .u).trimOf 0 = 0 ∧
      (((run .u).onPart 0 fun q => { q with bucket := 62 }).part 0).bucket + 1 < 64 ∧ ((run .u).part 0).bucket + 16 < 64) ∧
    1 ≠ ((run .u).part 0).scrub ∧
    (∀ c, c ∈ [62, 63] → (((tickAt (2 ^ 26)).onPart 0 fun q => { q with revisit := [⟨9, c, 0⟩] }).part 0).revisit.find?
      (fun x => x.line == 9) = some ⟨9, c, 0⟩) ∧
    ((tickAt 9999999999).clock.ticks < ((run .u).part 0).leakAt + (run .u).power.leak ∧
      ((run .u).part 0).leakAt + (run .u).power.leak ≤ (tickAt 10000000000).clock.ticks) ∧
    (1599 < 1600 ∧ computeSite (1599 / 64) = true ∧ ((run .u).umpire 1599).col < 32 ∧
      ((run .u).umpire 1599).since + 2 ^ (run .u).power.interval * 10 / pointClock ((run .u).quad (umpireQuad 1599)).point ≤
        (tickAt (2 ^ 30)).clock.ticks) ∧
    (((run .u).umpire 0).isOpen = false ∧
      (let s := (run .u).onUmpire 0 fun w => { w with isOpen := true, col := 1, outs := 2 }
       (s.umpire 0).isOpen = true ∧ 1 < (s.umpire 0).outs ∧ (s.umpire 0).outs ≤ 2 ∧ s.coordOf 0 0 1 = some 256 ∧ s.covered 256 = true ∧
        (s.quad (s.quadOf 256)).trim = 0 ∧ (s.quad (umpireQuad 0)).trim = 0 ∧
        (s.quad (umpireQuad 0)).freeze ≠ s.clock.ticks + 2 ^ 34 ∧ (s.quad (s.quadOf 256)).freeze ≠ s.clock.ticks + 2 ^ 34 ∧
        ((s.onQuad (umpireQuad 0) fun q => { q with trim := 1 }).quad (umpireQuad 0)).trim ≠ 0 ∧
        ((s.onQuad (umpireQuad 0) fun q => { q with freeze := 2 ^ 34 }).quad (umpireQuad 0)).freeze = s.clock.ticks + 2 ^ 34)) := by
  decide +kernel

/-- A quad changed. -/
def withQuad (s : State) (q : Nat) (f : Quad → Quad) : State := s.onQuad q f

theorem witness_QuadsAndAlignment :
    (isQuad 0 = true ∧ isQuad 135 = true ∧ (run .u).wanted 9 = 7 ∧ ((run .u).quad 9).point = 7 ∧ (run .u).wanted 0 < ((run .u).quad 0).point ∧
      (run .u).power.exceeded.contains 0 = false ∧ (run .u).wanted 0 ≠ ((run .u).quad 0).point ∧
      ((tickAt 100000).quad 0).changed + 100000 ≤ (tickAt 100000).clock.ticks ∧
      ({ run .u with power := { (run .u).power with exceeded := [0] } } : State).power.exceeded.contains (135 / 1024) = true ∧
      -- a cap of 3 above the point, before the interval is over
      (let s := withQuad (run .u) 0 fun r => { r with point := 0, capR := 3 }
       (s.quad 0).point < s.wanted 0 ∧ s.wanted 0 = max (s.quad 0).capR (s.quad 0).capT)) ∧
    (((run .u).quad 0).capAt + 1000000 ≤ (tickAt 1000000).clock.ticks ∧ (459 : BitVec 16).toInt < 460 ∧ 460 ≤ (460 : BitVec 16).toInt ∧
      ((run .u).site 0).st = .live) ∧
    ((tickAt (2 ^ 20)).quad 0).trimAt + 2 ^ 20 ≤ (tickAt (2 ^ 20)).clock.ticks ∧
    ((withQuad (tickAt (2 ^ 20)) 0 fun r => { r with point := 0, trim := 7 }).quad 0).trim < trimRoom 0 ∧
    ((0 : Nat) < 25 ∧ computeSite 0 = true ∧ (31 : Nat) < 32 ∧ tget 0 ((run .u).site 0).phases 31 = 0 ∧
      tget 0 (((run .u).onSite 0 fun t => { t with phases := [(31, 1)] }).site 0).phases 31 = 1) ∧
    ((run .u).quad 0).readAt + 1000000 ≤ (tickAt 1000000).clock.ticks ∧ (run .u).boat.ptp = [] ∧
    ((99 : Nat) < 100 ∧ (-8 : Int) ≤ -8 ∧ (7 : Int) < 8 ∧
      (tget Region.reset (tickAt (2 ^ 20)).clock.regions 99).measAt + 2 ^ 20 ≤ (tickAt (2 ^ 20)).clock.ticks) ∧
    (let s : State := { tickAt (2 ^ 20) with links := { (run .u).links with plinks := [(11, { Link.reset with st := .up })] } }
     (11 : Nat) < 12 ∧ (s.link (1920 + 11)).carries = true ∧ (s.link (1920 + 11)).exchAt + 2 ^ 20 ≤ s.clock.ticks ∧
      s.partner = some 11 ∧ s.links.root = false) := by decide +kernel

theorem witness_PowerSamples :
    ((run .u).leadUp = true ∧ BitVec.ofNat 32 ((run .u).leadClock.toNat / 10000) = (run .u).power.sampleNo ∧
      BitVec.ofNat 32 ((tickAt 10000).leadClock.toNat / 10000) ≠ (tickAt 10000).power.sampleNo ∧
      (run .u).boat.telemetry.length < 65536) ∧
    (let s := (runGroup .u group1i 0).onCtl fun k => { k with paddle := true }
     s.core.ctl.paddle = true ∧ s.core.sh.cut = false ∧ s.groupOf s.core.ctl.gid = some 0 ∧ (s.group 0).st = .running ∧
      s.core.slots.toList.any (·.paddle) = false ∧ s.core.lastFree = some 15 ∧
      -- the last parcel of TEXT, and past it
      (s.group 0).image.inText (s.group 0).var 0x40 = true ∧ (s.group 0).image.inText (s.group 0).var 0x44 = false ∧
      -- its own scheduler
      (s.group 0).image.standardSched (s.group 0).var = false ∧
      (s.site (siteOf s.here)).triad.mayVote = true ∧
      ((s.onSite 0 fun t => { t with triad := { t.triad with halted := true } }).site (siteOf s.here)).triad.mayVote = false) ∧
    ((run .u).core.ctl.paddle = false ∧ ((onSlot (run .u) 15 fun t => { t with paddle := true, st := .ready }).core.slot 15).paddle = true) := by
  decide +kernel

/-- The standard scheduler of an image stands at its page. -/
theorem witness_PowerSamples_standard :
    (⟨5, 9, [⟨tySched, 255, 0, 8, leBytes 8 0xA0000009⟩, ⟨tyText, 255, 0x9000, 4, Config.standardText⟩]⟩ : Image).standardSched 0 = true := by
  simp [Image.standardSched, Image.kvec, Image.sscr, Image.field, Image.some?, Image.of, tySched, tyText]
  decide

/-! ## Links, sites and triads -/

/-- All sites LIVE. -/
def allLive (s : State) : State := { s with sites := (List.range 25).map fun n => (n, liveSite) }
/-- A substrate link changed. -/
def withLink (s : State) (i : Nat) (l : Link) : State := s.onLink i fun _ => l
/-- Site 0 changed. -/
def withSite (s : State) (f : Site → Site) : State := s.onSite 0 f

theorem witness_LinksAndRoutes :
    ((withLink (run .u) 1931 { Link.reset with st := .up, slices := 0xFF }).link 1931).carries = true ∧
    (((withLink (run .u) 0 { Link.reset with st := .degraded, slices := 3 }).link 0).st = .degraded ∧
      (tickAt (2 ^ 20 - 1)).clock.ticks < 2 ^ 20 ∧ 2 ^ 20 ≤ (tickAt (2 ^ 20)).clock.ticks) ∧
    ((allLive (run .u)).linkLive 1919 = true ∧
      ((withLink (run .u) 1919 { Link.reset with st := .dead, retrain := 254 }).link 1919).st = .dead) ∧
    -- a packet of lane 3 into site 0, and one of lane 2 from site 0 to site 2, across site 1
    (((withSite (run .u) fun t => { t with switches := [3, 1] }).site 0).switches = [3, 1] ∧ ([1] : List (BitVec 2)) ≠ [] ∧
      (flying (run .u) { packetTo .data 1 0 with lc := 3 }).onOldPath 0 3 = true ∧
      (flying (run .u) (packetTo .data 0 (keyOf 128 0))).onOldPath 1 2 = true ∧ (run .u).onOldPath 0 3 = false ∧
      ((run .u).site 0).st = .live ∧
      ((withSite (run .u) fun t => { t with reroutes := [1] }).site 0).switches = [] ∧
      ((withSite (run .u) fun t => { t with reroutes := [1] }).site 0).reroutes = [1]) ∧
    -- a burst of a STREAM transfer to core 1, and its site
    ((putting .stream (leg1 [] [] 1 [⟨0, [(7, false)], .near 1 0, 0, 0, none⟩])).onOldPath 0 2 = true ∧
      (withSite (run .u) fun t => { t with switches := [2, 0] }).onOldPath 0 2 = false ∧
      ((withSite (run .u) fun t => { t with switches := [2, 0] }).site 0).switches = [2, 0]) ∧
    (let p : Place := ⟨24, 63, 32⟩
     p.site < 25 ∧ p.row < 64 ∧ p.col < 33) ∧
    ((23 : Nat) < 24 ∧ ((run .u).cxl 23).host = false ∧ ((run .u).cxl 23).attached ≠ true) ∧
    ((run .u).windowOpen = true ∧ (run .u).leadUp = true) := by decide +kernel

/-- The offsets of all regions VALID. -/
def aligned (s : State) : State :=
  { s with clock := ⟨0, 0, 0, (List.range 100).map fun r => (r, ⟨0, 0, true, 0⟩), false⟩ }

theorem witness_SiteLifecycle :
    (∀ st, st ∈ [SiteSt.empty, .seated, .training, .fenced, .live, .draining, .safe, .lost] →
      ((withSite (run .u) fun t => { t with st := st }).site 0).st = st) ∧
    ((withSite (tickAt (2 ^ 34 - 1)) fun t => { t with st := .training }).clock.ticks < ((run .u).site 0).since + 2 ^ 34 ∧
      ((run .u).site 0).since + 2 ^ 34 ≤ (tickAt (2 ^ 34)).clock.ticks) ∧
    (((run .u).site 0).contact = true ∧ ((withSite (run .u) fun t => { t with contact := false }).site 0).contact = false ∧
      (run .u).cutOff 0 = false) ∧
    (((run .u).site 0).switches = [] ∧ (run .u).net ++ (run .u).queued = [] ∧ (run .u).bursts = []) ∧
    (({ withSite (run .u) fun t => { t with st := .draining } with lead := { (run .u).lead with groups := [] } } : State).drainOver? 0 = true) ∧
    (((run .u).site 0).since + 2 ^ 30 ≤ (tickAt (2 ^ 30)).clock.ticks ∧ (tickAt (2 ^ 30 - 1)).clock.ticks < ((run .u).site 0).since + 2 ^ 30 ∧
      ((run .u).group 0).st = .running ∧ (run .u).shardOn 0 0 = true) ∧
    -- the first compute site of all, and site 2 beside a lead
    (let first := { withSite (run .u) fun t => { t with st := .fenced } with lead := { (run .u).lead with lead := none } }
     (first.site 0).st = .fenced ∧ first.lead.lead = none ∧ computeSite 0 = true ∧ first.firstFenced 0 = true) ∧
    (let s := aligned ((run .u).onSite 2 fun t => { t with st := .fenced })
     (s.site 2).st = .fenced ∧ s.lead.lead.isSome = true ∧ s.leadUp = true ∧ s.offsetsValid 2 = true ∧
      (∀ m, m < 2 → s.admissible m = false)) ∧ (run .u).offsetsValid 2 = false := by
  decide +kernel

/-- Site 0 with its triad changed. -/
def withTriad (s : State) (f : Triad → Triad) : State := withSite s fun t => { t with triad := f t.triad }

/-- The triad of site 0, its copies in three states. -/
def copies (a b c : CopySt) : State := withTriad (run .u) fun t => { t with copies := #v[a, b, c] }

theorem witness_TriadsAndLead :
    (((run .u).site 0).triad.halted = false ∧ ((run .u).site 0).triad.copies.toList = [.voting, .voting, .voting] ∧
      ((run .u).site 0).triad.shown = [] ∧ ((run .u).site 0).triad.silent = [] ∧ ((run .u).site 0).triad.sent.toList = [0, 0, 0] ∧
      ((run .u).site 0).st = .live ∧ ((run .u).site 1).st = .empty) ∧
    ((withSite (copies .voting .out .voting) fun t => { t with st := .fenced }).site 0).triad.copies.toList = [.voting, .out, .voting] ∧
    (let q : Shown := ⟨2, 4, 9, 0⟩
     ((withTriad (run .u) fun t => { t with silent := [q] }).site 0).triad.silent = [q] ∧ ((run .u).site 0).triad.votes = 3 ∧
      (tickAt 1023).clock.ticks < q.tick + 1024 ∧ q.tick + 1024 ≤ (tickAt 1024).clock.ticks ∧ q.copy ≠ 3) ∧
    -- a REDUCED triad one of whose copies owes transaction 4
    (let s := withTriad (tickAt 1025) fun t => { t with copies := #v[.voting, .out, .voting], sent := #v[4, 0, 5], silent := [⟨0, 4, 9, 0⟩] }
     (s.site 0).triad.halted = false ∧ (s.site 0).triad.copies.toList = [.voting, .out, .voting] ∧ (s.site 0).triad.silent = [⟨0, 4, 9, 0⟩] ∧
      (s.site 0).triad.sentBy 0 = 4 ∧ 0 + 1024 < s.clock.ticks ∧
      ((s.onSite 0 fun t => { t with st := .fenced }).site 0).st ≠ .live) ∧
    (((copies .out .reloading .voting).site 0).triad.copy (0 : BitVec 2).toNat = .out ∧
      ((copies .out .reloading .voting).site 0).triad.copy (1 : BitVec 2).toNat = .reloading) ∧
    ((tickAt (2 ^ 20 - 1)).clock.ticks < ((run .u).site 0).triad.checkAt + 2 ^ 20 ∧
      ((run .u).site 0).triad.checkAt + 2 ^ 20 ≤ (tickAt (2 ^ 20)).clock.ticks ∧
      ((copies .reloading .voting .voting).site 0).triad.copies.toList = [.reloading, .voting, .voting] ∧
      ((copies .reloading .voting .voting).site 0).triad.sentBy 1 = 0 ∧ ((copies .reloading .voting .voting).site 0).triad.sentBy 2 = 0) ∧
    ((run .u).leadUp = true ∧ (tickAt (2 ^ 16 - 1)).clock.ticks < (run .u).lead.beatAt + 2 ^ 16 ∧
      (run .u).lead.beatAt + 2 ^ 16 ≤ (tickAt (2 ^ 16)).clock.ticks) ∧
    ((run .u).lead.lead.isSome = true ∧
      ({ run .u with lead := { (run .u).lead with deputy := some 2, unseen := 4 } } : State).lead.deputy = some 2 ∧ 4 ≤ 4 ∧ 3 < 4 ∧ (run .u).leadWorks = true) ∧
    (State.reset.lead.lead = none ∧ ∀ n, n < 25 → (State.reset.site n).st = .empty) ∧
    ((run .u).boat.keys.countP (·.dom == 5) < 16 ∧ (∀ k, (run .u).enrolled 5 k = false) ∧
      16 ≤ (List.replicate 16 (⟨5, 9, 33, 3⟩ : SignKey)).countP (·.dom == 5)) := by
  and_intros <;> first | decide +kernel | exact fun _ => rfl

/-! ## Kernels, queues and commands -/

/-- A registered image as it stands in host memory from byte 0x1000: header, PLACE, ENTRY, VARIANT and SCHED. -/
def imageBytes : List (BitVec 8) :=
  leBytes 4 0x4B4C4742 ++ leBytes 2 1 ++ leBytes 2 4 ++ leBytes 4 160 ++ leBytes 4 5 ++ leBytes 16 0 ++ leBytes 16 9 ++
  leBytes 16 0 ++ leBytes 4 5 ++ leBytes 8 0 ++ leBytes 4 8 ++ leBytes 8 0x0101 ++ leBytes 4 6 ++ leBytes 8 0 ++
  leBytes 4 8 ++ leBytes 8 0x40 ++ leBytes 4 7 ++ leBytes 8 0 ++ leBytes 4 4 ++ leBytes 8 0 ++
  leBytes 4 8 ++ leBytes 8 0 ++ leBytes 4 8 ++ leBytes 8 2
/-- The PSS encoding of the image, salt 0 to 31, made with Python's hashlib, by its digits in base 2^384 (R261). -/
def encoded : Nat := [
    0x4A2F8F4BB767EF5A6D8061EB0D3760500ECC57DEFC479EA75BED08062ABBEBCB331B2DB9C3D167BD482FF60FDDFDA122,
    0xBEA0FD6F00AF7140460183FB35042D582A0EE4C0C07BB0519F9A0DA08AF547327C492EFC45BEDE1877AAF5CF7AE722B2,
    0x997A87E67C9991B33B7CB4395682E3BED159AC77ABF39AA2E77BEA236F665F9313E6187DC68A679249A042BB7AD52529,
    0x3D2A5337021BF20BC401213AF450C74CB66F1D7C647317FA0E87BA17A75BC8C42E9A8C8DCFE79B1DB2755792185AD805,
    0x108B7CDFBCA789703C9182691471A690606529D758EFE75574C7FDB55BFAC1D0E67D52015B6E3AF8C2635A1A86F9C323,
    0xE4D60746770831352CCFF4E40468E3299B9128AE20D6BBBA85F6923A038DC6B4BA95D5E25710986DAA0B4943746BABA9,
    0x708D3F86A617DC47C4519B925F50B33E778461FB89C9E136BD703BEE4E7DF52D891D05009E079A382FA55E22F42DA915,
    0x3CA46A987015B476D7CFAEE751E0BCCCBD9C00375933D4B3137E2FCE9A83E14CEC9098F8A757E927D91A81DA96B1E8BC].foldl (fun a d => a * 2 ^ 384 + d) 0
/-- A key made for the test: under this modulus and the exponent 3, 2^1024 signs the image. -/
def modulus : Nat := 2 ^ 3072 - encoded
def signature : List (BitVec 8) := beBytes 384 (2 ^ 1024)
/-- The panel with host memory from byte 0x1000, the key of that image enrolled. -/
def hosted (b : List (BitVec 8)) : State :=
  let s := (run .u).poke (hostBase + 0x1000) b false
  { s with boat := { s.boat with keys := [⟨5, 9, modulus, 3⟩] } }
/-- Request slot 15 POSTED. -/
def posting (s : State) (op : BitVec 8) (handle : BitVec 64) : State :=
  s.onReq 15 fun _ => ⟨op, 1, 0, handle, 0x1000, 544, 5⟩
/-- Kernel 1023 of generation 2, with a size. -/
def withKern (s : State) (st : KernSt) (size : BitVec 32) : State :=
  s.onKern 1023 fun _ => ⟨st, 2, image1, 0, 0x1000, size, [1, 5], none, []⟩
/-- Ports 0 and 5 are memory ports of LIVE bank tiles. -/
def twoPorts (s : State) : State :=
  { allLive s with links := { s.links with cxl := [(0, { s.cxl 0 with host := false, trained := true, attached := true }),
             (5, { s.cxl 5 with host := false, trained := true, attached := true })] } }

theorem witness_KernelRequests :
    ((posting (hosted imageBytes) 1 0).leadUp = true ∧ (posting (hosted imageBytes) 1 0).posted = some (15 : BitVec 4).toNat ∧
      (posting (hosted imageBytes) 5 0).posted = some 15) ∧
    (headerOk ((posting (hosted []) 1 0).hostBytes 0x1000 544) 544 = false ∧
      headerOk ((posting (hosted imageBytes) 1 0).hostBytes 0x1000 544) 544 = true ∧
      (run .u).enrolled 5 9 = false ∧ (hosted imageBytes).enrolled 5 9 = true ∧
      (hosted imageBytes).signKey 5 9 = some ⟨5, 9, modulus, 3⟩) ∧
    ((posting (hosted imageBytes) 2 0x203FF).byHandle 0x203FF = none ∧
      (posting (withKern (hosted []) .resident 544) 2 0x203FF).byHandle 0x203FF = some 1023 ∧
      (posting (withKern (hosted []) .registered 544) 2 0x203FF).byHandle 0x203FF = some 1023) ∧
    ((withKern (hosted []) .registered 0x2000000).storeUsed + 2 * 0x2000000 ≤ 0x4000000 ∧
      0x4000000 < (withKern (hosted []) .registered 0x2000001).storeUsed + 2 * 0x2000001 ∧
      (twoPorts (run .u)).memoryPort 0 = true ∧ (twoPorts (run .u)).memoryPort 5 = true ∧ portSite 0 ≠ portSite 5) ∧
    ((withKern (hosted []) .resident 544).loadingOf 1023 = false ∧
      (withKern (runGroup .u { group1 with st := .loading, khandle := 0x203FF } 0) .resident 544).loadingOf 1023 = true ∧
      (run .u).lead.passDue = false ∧ (withKern (hosted []) .resident 544).kernelGroup 1023 (fun x => x != .retired && x != .unused) = false ∧
      (withKern (runGroup .u { group1 with khandle := 0x203FF } 0) .resident 544).kernelGroup 1023
        (fun x => x != .retired && x != .unused) = true) := by
  decide +kernel
/-- A request that passes every check is registered. -/
theorem checkImage_signed {s : State} {q : Req} {b x y : List (BitVec 8)} {m : Image} {n i : Nat}
    (hb : s.hostBytes q.addr.toNat q.size.toNat = b) (h1 : headerOk b q.size.toNat = true)
    (hk : imageNat b 32 16 = m.keyid) (hd : BitVec.ofNat 16 (imageNat b 12 4) = m.dom) (hl : imageNat b 8 4 = n)
    (hx : b.take n = x) (hy : cutBytes b n 384 = y) (h2 : s.enrolled m.dom m.keyid = true) (h3 : q.dom = m.dom)
    (h8 : s.signed m.dom m.keyid x y = true)
    (h4 : parseSects b n (imageNat b 6 2) 64 = some m.sects) (h5 : m.sects.all (·.ok) = true)
    (h6 : m.variants ≠ [] ∧ m.variants.all m.variantOk = true ∧ m.variants.all m.layoutOk = true ∧
      m.variants.all m.seatsOk = true ∧ m.variants.all m.treesOk = true) (h7 : s.freeKern = some i) :
    s.checkImage q = .ok (m, i) := by
  obtain ⟨a, b, c, d, e⟩ := h6
  unfold State.checkImage
  simp [hb, h1, hk, hd, hl, hx, hy, h2, h3, h4, h5, h7, h8, a, b, c, d, e]
/-- The sections of the image. -/
def imageSects : List Sect :=
  [⟨5, 0, 0, 8, leBytes 8 0x0101⟩, ⟨6, 0, 0, 8, leBytes 8 0x40⟩, ⟨7, 0, 0, 4, leBytes 4 0⟩, ⟨8, 0, 0, 8, leBytes 8 2⟩]
/-- R261: the signature verifies, and one of zeros does not. -/
theorem test_signature : rsaVerify modulus 3 imageBytes signature = true ∧
    rsaVerify modulus 3 imageBytes (List.replicate 384 0) = false := by decide +kernel
/-- The panel with the signed image. -/
def signedHost : State := posting (hosted (imageBytes ++ signature)) 1 0
theorem witness_KernelRequests_image : signedHost.checkImage (signedHost.req 15) = .ok (⟨5, 9, imageSects⟩, 0) := by
  have h : imageNat (imageBytes ++ signature) 8 4 = 160 ∧ imageNat (imageBytes ++ signature) 32 16 = 9 ∧
      BitVec.ofNat 16 (imageNat (imageBytes ++ signature) 12 4) = 5 := by decide +kernel
  have k : signedHost.signKey 5 9 = some ⟨5, 9, modulus, 3⟩ := by decide +kernel
  have g : signedHost.signed 5 9 imageBytes signature = true := by simp only [State.signed, k, test_signature.1]
  have p : parseSects (imageBytes ++ signature) 160 (imageNat (imageBytes ++ signature) 6 2) 64 = some imageSects := by decide +kernel
  refine checkImage_signed (b := imageBytes ++ signature) (m := ⟨5, 9, imageSects⟩) ?_ ?_ h.2.1 h.2.2 h.1 ?_ ?_ rfl rfl g p ?_ ?_ ?_ <;>
    decide +kernel

/-- SHA-256 of "abc": FIPS 180-4, example 1. -/
theorem test_sha256 : (sha256 [0x61, 0x62, 0x63]).take 8 = [0xBA, 0x78, 0x16, 0xBF, 0x8F, 0x01, 0xCF, 0xEA] := by decide +kernel
/-- AES-256: FIPS 197, example C.3. -/
theorem test_aes : (aesEncrypt ((List.range 32).map (BitVec.ofNat 8)) ((List.range 16).map fun i => BitVec.ofNat 8 (17 * i))).take 4 =
    [0x8E, 0xA2, 0xB7, 0xCA] := by decide +kernel

/-- Queue 63 of domain 5, with 16 entries at host byte 0x40. -/
def withQueue (s : State) (st : QueueSt) (head tail : BitVec 16) (l : List Cmd) : State :=
  s.onQueue 63 fun _ => ⟨st, 0x40, 5, 4, 0, head, tail, l⟩
/-- A command at ring index 15 that runs. -/
def cmd (op sub : BitVec 8) (a0 a1 a2 : BitVec 64) : Cmd := ⟨9, 15, op, sub, a0, a1, a2, 0, false, false, false, 0, none, .none, none⟩
/-- Queue 63 with one command. -/
def oneCmd (s : State) (c : Cmd) : State := withQueue s .active 0 0 [c]

theorem witness_QueueStates :
    ((run .u).windowOpen = true ∧ (run .u).leadUp = true) ∧
    (((withQueue (run .u) .off 3 3 []).queue 63).st = .off ∧ 4 ≤ ((withQueue (run .u) .off 3 3 []).queue 63).logn.toNat ∧
      ((withQueue (run .u) .off 3 3 []).queue 63).logn.toNat ≤ 12 ∧ ((withQueue (run .u) .off 3 3 []).queue 63).base ≠ 0 ∧
      ((run .u).queue 0).st = .off ∧ ((run .u).queue 0).base = 0) ∧
    ((15 : BitVec 16).toNat < 2 ^ ((withQueue (run .u) .active 0 0 []).queue 63).logn.toNat ∧ 2 ^ 4 ≤ (16 : BitVec 16).toNat) ∧
    (([cmd 5 0 0 0 0] : List Cmd).find? Cmd.abandoned = none ∧ ((oneCmd (run .u) (cmd 4 0 7 1 0)).queue 63).cmds = [cmd 4 0 7 1 0]) ∧
    (((withQueue (run .u) .active 15 0 []).queue 63).head ≠ ((withQueue (run .u) .active 15 0 []).queue 63).tail ∧
      ((withQueue (run .u) .active 15 0 []).ringAt 63 15).ok = false ∧
      ((withQueue ((run .u).poke (hostBase + 0x40 + 64 * 15) [5] false) .active 15 0 []).ringAt 63 15).ok = true ∧
      ∃ c ∈ [cmd 5 0 0 0 0], c.passed = false) := by decide +kernel

/-- A WAITSIG of queue 5 on signal 4095 beside a SIGNAL of queue 63 on it, and two SIGNALs on it. -/
def withQueue5 (s : State) (c : Cmd) : State := s.onQueue 5 fun _ => ⟨.active, 0x8000, 5, 4, 0, 0, 0, [c]⟩

theorem witness_Commands :
    (let s := withQueue5 (oneCmd (run .u) (cmd 3 1 4095 9 0)) (cmd 4 0 4095 9 0)
     (s.queue 63).cmds.head? = some (cmd 3 1 4095 9 0) ∧ (cmd 3 1 4095 9 0).op = 3 ∧ (∀ o, o < 63 → s.oldestSignal o = none) ∧
      (s.queue 5).current = some (cmd 4 0 4095 9 0) ∧
      (∀ o, o < 64 → ((oneCmd (run .u) (cmd 3 1 4095 9 0)).queue o).current.any (·.op == 4) = false)) ∧
    (let s := withQueue5 (oneCmd (run .u) (cmd 3 0 4095 9 0)) (cmd 3 1 4095 2 0)
     s.oldestSignal 63 = some (cmd 3 0 4095 9 0) ∧ s.oldestSignal 5 = some (cmd 3 1 4095 2 0)) ∧
    (((oneCmd (run .u) (cmd 4 0 4095 9 0)).queue 63).cmds.getLast? = some (cmd 4 0 4095 9 0) ∧
      ((run .u).signal 4095).toNat < (9 : BitVec 64).toNat ∧ (0 : BitVec 64).toNat ≤ ((run .u).signal 4095).toNat ∧
      [cmd 4 0 0 9 0, cmd 5 0 0 0 0] ≠ [cmd 5 0 0 0 0]) ∧
    (((oneCmd (run .u) (cmd 6 0 0xFFFFFF 1 0)).queue 63).dom ≠ 0 ∧ ((run .u).queue 0).dom = 0 ∧ (1 : BitVec 64).getLsbD 0 = true ∧
      (0 : BitVec 64).getLsbD 0 = false) ∧
    ((run .u).groupOf ((1 : BitVec 64).extractLsb' 0 16) = some 0 ∧ (run .u).groupOf ((2 : BitVec 64).extractLsb' 0 16) = none ∧
      ((run .u).group 0).dom = ((oneCmd (run .u) (cmd 6 2 1 0 0)).queue 63).dom ∧ ((run .u).group 0).dom ≠ ((run .u).queue 0).dom ∧
      ((run .u).group 0).st = .running ∧ ((run .u).group 0).cut = .none ∧
      ((runGroup .u { group1 with cut := .suspend [5] } 0).group 0).cut = .suspend [5] ∧
      ((runGroup .u { group1 with st := .suspended } 0).group 0).st = .suspended) := by
  decide +kernel

/-- A LAUNCH of kernel 1023. -/
def launch1 : Cmd := cmd 1 0 0x203FF 1 0
/-- Its bid. -/
def bid1 : Bid := ⟨.launch 63 9, 0, 0, 63, 0, none⟩
/-- The panel with kernel 1023, all sites LIVE, and the launch as queue 63's command. -/
def launching (c : Cmd) (m : Image) (bids : List Bid) : State :=
  let s := (allLive (oneCmd (run .u) c)).onKern 1023 fun _ => ⟨.registered, 2, m, 0, 0x1000, 544, [], none, []⟩
  { s with lead := { s.lead with bids := bids, groups := [] } }
/-- Another DRAWGEN in the image. -/
def staleImage : Image := { image1 with sects := image1.sects ++ [⟨tyDrawGen, 0, 0, 8, leBytes 8 9⟩] }
/-- A tree whose root falls on no node: its planes lie past the end. -/
def rootlessImage : Image :=
  { image1 with sects := image1.sects ++ [⟨tyTree, 0, 0, 16, leBytes 16 0⟩] }

theorem witness_LaunchesAndCopies :
    (((launching launch1 image1 []).queue 63).cmds.getLast? = some launch1 ∧ launch1.op = 1 ∧ launch1.bid = false ∧
      (launching launch1 image1 []).panelsOk launch1 = true ∧ (run .u).panelsOk { launch1 with a1 := 0 } = false ∧
      (launching launch1 image1 []).byHandle (launch1.a0.toNat % 2 ^ 32) = some 1023 ∧ (run .u).byHandle 0x203FF = none) ∧
    (((launching launch1 image1 []).kern 1023).image.dom = ((launching launch1 image1 []).queue 63).dom ∧
      (image1.anywhere fun v cx cy => (launching launch1 image1 []).fitsAt image1 v cx cy) = true ∧
      (image1.sects.any fun t => t.ty == 10 && imageNat t.body 0 8 != (0 : BitVec 64).toNat) = false ∧
      (staleImage.sects.any fun t => t.ty == 10 && imageNat t.body 0 8 != (0 : BitVec 64).toNat) = true ∧
      (image1.anywhere fun v cx cy => decide (cx + image1.laneW v ≤ 40) && decide (cy + image1.laneH v ≤ 40) && image1.rootsFit v cx cy) = true ∧
      (rootlessImage.anywhere fun v cx cy => decide (cx + rootlessImage.laneW v ≤ 40) && decide (cy + rootlessImage.laneH v ≤ 40) &&
        rootlessImage.rootsFit v cx cy) = false) ∧
    (let s := launching { launch1 with bid := true } image1 [bid1]
     s.bidCmd 63 9 = some { launch1 with bid := true } ∧ s.freeGroup = some 0 ∧ s.heldBack { launch1 with bid := true } = false ∧
      s.spot bid1 = some (0, 0, 0)) ∧
    (({ run .u with lead := { (run .u).lead with bids := [⟨.relaunch 5, 0, 0, 0, 0, none⟩] } } : State).spot ⟨.relaunch 5, 0, 0, 0, 0, none⟩ = none ∧
      Bid.before ⟨.launch 63 9, 1, 0, 63, 0, none⟩ ⟨.relaunch 5, 0, 0, 0, 0, none⟩ = false ∧ 0 + 1 < (run .u).lead.bound.toNat) ∧
    ((oneCmd (run .u) (cmd 2 3 0x1000 0x2000 65536)).queue 63).cmds.getLast? = some (cmd 2 3 0x1000 0x2000 65536) ∧
    ((∀ i, i < 64 → (run .u).poisoned (hostBase + 0x1000 + i) = false) ∧
      ((run .u).poke (hostBase + 0x1000) (List.replicate 8 0) true).poisoned (hostBase + 0x1000) = true) := by decide +kernel

/-! ## Pages, windows and groups -/

/-- The table of domain 5 with a leaf for VA 0, a page of 64 KiB at FPA 0x100000, RD and WR. -/
def paged (s : State) : State :=
  ((((s.setEntry 0x10000 (pointerEntry 0x30000)).setEntry 0x30000 (pointerEntry 0x31000)).setEntry 0x31000
    (pointerEntry 0x32000)).setEntry 0x32000 (pointerEntry 0x33000)).setEntry 0x33000 (leafEntry 0x100000 3 false)
/-- A PAGE command for that page. -/
def pageCmd (sub : BitVec 8) (fpa : BitVec 64) (begun : Bool) : Cmd := { cmd 7 sub 0 fpa 1 with bid := begun }
/-- An atomic on the frame in flight. -/
def amoOn (fpa : Nat) : Packet := { packetTo .amo 0 0 with count := 1, addr := BitVec.ofNat 64 fpa }
/-- A fault record of site 24 of domain 5. -/
def record24 (s : State) : State := s.onRec 24 31 fun r => { r with st := .pending, dom := 5, since := 0 }

theorem witness_PagesAndDomains :
    (((oneCmd (run .u) (pageCmd 0 0 false)).queue 63).cmds.getLast? = some (pageCmd 0 0 false) ∧
      (run .u).domain 6 = none ∧ (run .u).domain 5 = some ⟨domain5, domain5.pool⟩ ∧ domain5.dom = ((oneCmd (run .u) (pageCmd 0 0 false)).queue 63).dom) ∧
    ((pageCmd 0 0x200000 false).pages = 1 ∧ (pageCmd 0 0x200000 false).vaOk = true ∧
      (pageCmd 0 0x200000 false).fpaOk ⟨domain5, []⟩ = true ∧ (pageCmd 0 0x100000000 false).fpaOk ⟨domain5, []⟩ = false ∧
      ({ pageCmd 1 0 false with a0 := 8 } : Cmd).vaOk = false) ∧
    ((twoPorts (paged (run .u))).pageLeaf ⟨domain5, domain5.pool⟩ 0 0 = some (.entry 0x33000 (leafEntry 0x100000 3 false)) ∧
      (leafEntry 0x100000 3 false).getLsbD 0 = true ∧ entryTarget (leafEntry 0x100000 3 false) = 0x100000 ∧
      (paged (run .u)).accessIn 0x100000 65536 = false ∧ (flying (paged (run .u)) (amoOn 0x10FFF8)).accessIn 0x100000 65536 = true ∧
      migrating (leafEntry 0x100000 3 false) = false ∧ migrating (leafEntry 0x100000 3 true) = true ∧
      (leafEntry 0x100000 3 true).getLsbD 0 = true ∧
      (let s := twoPorts (paged (run .u))
       s.pois = [] ∧ s.met = [] ∧ s.served 0x100000 = true ∧ s.tableLine 0x33000 = true ∧ (paged (run .u)).tableLine 0x33000 = false ∧
        ({ pageCmd 2 0x200000 true with leaf := some (0x33000, leafEntry 0x100000 3 false) } : Cmd).leaf =
          some (0x33000, leafEntry 0x100000 3 false) ∧ farKey 0x33000 + 8 ≤ hostBase)) ∧
    (∀ e ∈ (run .u).pages.domains, e.2.all (fun o => o.spec.key != 9) = true) ∧
    (((record24 (tickAt (2 ^ 26))).faultAt 24 31).st = .pending ∧
      ((record24 (run .u)).faultAt 24 31).since + 2 ^ (run .u).pages.flim.toNat ≤ (tickAt (2 ^ 26)).clock.ticks) := by decide +kernel

/-- Host port 23 of a host of domain 5, the HDM window covering a bank element of site 0 and a node of site 1. -/
def windowed (s : State) : State :=
  { s with links := { s.links with cxl := [(23, ⟨true, true, 5, 7, true⟩)], window := [(0, 1), (64, 0)] } }

theorem witness_HostWindows :
    ((run .u).windowOpen = true ∧ (run .u).leadUp = true ∧ State.reset.windowOpen = false) ∧
    -- a RELAUNCH that B = 0 lets reserve a spot, which no group's lane closes to it
    (let e : Bid := ⟨.resume 0 5, 0, 0, 0, 0, none⟩
     let s : State := { allLive (runGroup .u group1i 0) with lead := { (runGroup .u group1i 0).lead with bids := [e] } }
     ((0 : BitVec 4).toNat ≤ e.bypass ∧ e.resv = none) ∧ s.lead.bids = [e] ∧
      ((s.reservedVariant e).bind fun x => (s.scan e x false).map fun (cx, cy) => (cx, cy, x)) = some (0, 0, 0)) ∧
    (((run .u).req 15).st = 0 ∧ (0x0101 : BitVec 64).extractLsb' 8 8 = 1 ∧ ((posting (run .u) 1 0).req 15).st = 1) ∧
    (((windowed (run .u)).cxl 23).host = true ∧ ((windowed (run .u)).cxl 23).trained = true ∧
      ((windowed (run .u)).hdmPlace 262136 = some (keyOf 0 1, 262136)) ∧ (262136 : Nat) % 8 = 0 ∧
      ((windowed (run .u)).live (keyOf 0 1) && (windowed (run .u)).granted 5 (keyOf 0 1)) = true ∧
      (windowed (run .u)).hdmPlace 262144 = some (keyOf 64 0, 0) ∧ (windowed (run .u)).live (keyOf 64 0) = false ∧
      (windowed (run .u)).granted 6 (keyOf 0 1) = false) := by decide +kernel

/-- Group 0 of the table, of kernel 1023. -/
def ofKernel (g : Group) (st : GroupSt) : Group := { g with st := st, khandle := 0x203FF }
theorem witness_GroupPlacementAndStart :
    (((runGroup .u { group1i with st := .admitted } 0).group 0).st = .admitted ∧
      (runGroup .u { group1i with st := .admitted } 0).holdsLane 0 = true ∧ group1i.npan ≤ 1 ∧
      1 < ({ group1i with npan := 2 } : Group).npan ∧ group1i.peersIn = false) ∧
    (((runGroup .u (ofKernel group1i .seeding) 0).group 0).st = .seeding ∧ group1i.resume = false ∧
      group1i.col0 + 8 * group1i.w ≤ 320 ∧ group1i.row0 + 4 * group1i.h ≤ 160 ∧
      (∀ k ∈ group1i.laneKeys, ((runGroup .u (ofKernel group1i .seeding) 0).part k).suspect = false) ∧
      (∀ e ∈ (runGroup .u (ofKernel group1i .seeding) 0).lead.groups, e.2.mapped = false) ∧
      (allLive (run .u)).fitsAt image1 0 0 0 = true ∧ (run .u).fitsAt image1 0 30 30 = false ∧
      (withKern (runGroup .u (ofKernel group1i .seeding) 0) .resident 544).imageStands (ofKernel group1i .seeding) = true ∧
      (runGroup .u group1i 0).laneVotes group1i = true ∧
      ((runGroup .u group1i 0).onSite 0 fun t => { t with triad := { t.triad with halted := true } }).laneVotes group1i = false) ∧
    (((runGroup .u { group1i with st := .loading } 0).group 0).st = .loading ∧ ((run .u).group 0).st ≠ .loading) ∧
    (let s := (runGroup .u { group1i with st := .loading, resume := true, cores := [0] } 0).onCtl fun c => { c with issue := .idle 5 }
     (s.group 0).st = .loading ∧ (s.group 0).resume = true ∧ (s.group 0).cores = [s.here] ∧ s.core.ctl.issue = .idle 5 ∧
      (s.onCtl fun c => { c with issue := .restored 5 }).core.ctl.issue = .restored 5) := by
  decide +kernel

/-- Slot 0 of the selected core RETIRED, its core at an idle SLEEP. -/
def parked (s : State) : State := (onSlot s 0 fun t => { t with st := .retired }).onCtl fun c => { c with issue := .idle 5 }
/-- Group 1 on core 0 alone, being cut. -/
def cutGroup (c : CutFor) : Group := { group1i with cores := [0], cut := c }

theorem witness_GroupEndsAndRelaunches :
    (((run .u).group 0).st = .running ∧ ((run .u).group 0).cut = .none ∧
      (∀ k ∈ [0], ((parked (run .u)).coreAt k).quiet = true ∧ ∀ j, (((parked (run .u)).coreAt k).slot j).paddle = true ∨
        (((parked (run .u)).coreAt k).slot j).st = .free ∨ (((parked (run .u)).coreAt k).slot j).st = .retired) ∧
      (run .u).treesQuiet 1 = true ∧ ((run .u).core.slot 0).st = .running) ∧
    ((runGroup .u { cutGroup .drain with st := .draining } 0).group 0).st = .draining ∧
    -- a cut that is done before the group has ended: its slot is parked
    (let s := (onSlot (runGroup .u (cutGroup (.suspend [63])) 0) 0 fun t => { t with st := .ready, parked := true }).onCtl
       fun c => { c with issue := .idle 5 }
     s.cutDone 0 = true ∧ (s.core.slot 0).st = .ready ∧ (s.core.slot 0).paddle = false ∧ s.core.sh.port = [] ∧ s.core.sh.late = []) ∧
    ((parked (runGroup .u (cutGroup .drain) 0)).cutDone 0 = true ∧ (runGroup .u (cutGroup .drain) 0).cutDone 0 = false ∧
      (oneCmd (parked (runGroup .u (cutGroup (.suspend [63])) 0)) (cmd 6 2 1 0 0)).cutDone 0 = true ∧
      ((oneCmd (run .u) (cmd 6 2 1 0 0)).queue 63).cmds.getLast? = some (cmd 6 2 1 0 0) ∧
      (cutGroup .drain).cutTick + 2 ^ 26 ≤ (tickAt (2 ^ 26)).clock.ticks) ∧
    (((runGroup .u { group1i with st := .faulted } (2 ^ 20)).group 0).faultAt + 2 ^ 20 ≤ (runGroup .u group1i (2 ^ 20)).clock.ticks ∧
      (¬ ∀ k ∈ [0], (run .u).live k = true → (((run .u).onEng fun e => { e with tq := [opOf (.mma .f32) 0 0] }).coreAt k).quiet = true) ∧
      8 ≤ ({ group1i with rst := 8 } : Group).rst ∧ (7 : Nat) < 8) ∧
    ((run .u).leadUp = true ∧ ((run .u).group 0).begun = true ∧ ((run .u).site (siteOf 0)).triad.halted = false) ∧
    ((run .u).groupOf 1 = some 0 ∧ (run .u).groupOf 2 = none ∧ 1 < ({ group1i with npan := 2 } : Group).npan ∧
      (runGroup .u { group1i with st := .admitted, npan := 2 } 0).holdsLane 0 = true ∧
      (∀ st, st ∈ [GroupSt.admitted, .seeding, .loading, .running, .suspended] →
        (runGroup .u { group1i with st := st } 0).groupOf 1 = some 0 ∧ ((runGroup .u { group1i with st := st } 0).group 0).st = st)) := by
  decide +kernel

/-! ## Accesses of a cluster peer -/

/-- The panel where inputs put reads off. -/
def lateRun (l : List (GR × BitVec 64)) : State := { runG .u l with met := [.readLate] }
/-- A burst of an ORDERED transfer of the core to the word at offset 8 of core 1. -/
def bursting (s : State) : State :=
  s.onSh fun h => { h with stream := h.stream.set 3 { Stream.free with
    st := .active, alloc := 1, cls := .ordered, legs := [⟨0, [], [], [], 1, [⟨0, [(7, false)], .near 1 8, 4, 0, none⟩]⟩] } }
/-- A late read of the core of the word at offset 8 of core 1, into g7. -/
def owing (s : State) : State := s.onSh fun h => { h with late := [⟨.scalar 7 .d64, 1, 8⟩] }

theorem witness_LoadResultsAndChecks_late :
    (PeerQuiet (run .u) 1 ∧ ¬ (32769 ∈ (run .u).core.ordering) ∧ (run .u).core.sh.late = []) ∧
    ((lateRun []).core.ordering = [] ∧ (lateRun []).core.sh.ahead = [] ∧ .readLate ∈ (lateRun []).met ∧
      (lateRun []).core.ctl.riga = false) ∧
    (1 ≠ (owing (run .u)).here ∧ (owing (run .u)).core.sh.late = [⟨.scalar 7 .d64, 1, 8⟩] ∧ ((owing (run .u)).coreAt 1).sh.port = [] ∧
      (owing (run .u)).core.flying = []) := by
  unfold PeerQuiet
  decide

theorem witness_MultipleAccesses_peer :
    -- the whole file at the end of core 1
    ((runG .u [(2, 0x800000008000FF00)]).gp 2 = false ∧
      (runG .u [(2, 0x800000008000FF00)]).path ((runG .u [(2, 0x800000008000FF00)]).gv 2 + 8 * (0 : BitVec 11).signExtend 64) 8 = .peer 1 0xFF00 ∧
      0xFF00 + 8 * ((31 : GR).toNat - (0 : GR).toNat + 1) ≤ 0x10000) ∧
    (PeerQuiet (runG .u [(2, 0x800000008000FF00)]) 1 ∧
      shareWord (wordsOf (nodeBase 1) (8 * 2)) (bursting (run .u)).core.ordering = true ∧
      (let s := lateRun [(2, 0x8000000080000000)]
       s.path (s.gv 2) 8 = .peer 1 0 ∧ s.core.ordering = [] ∧ s.core.sh.ahead = [] ∧ .readLate ∈ s.met ∧ s.core.ctl.riga = false)) ∧
    ((runG .u [(2, 0x800000008000FF00)]).path ((runG .u [(2, 0x800000008000FF00)]).gv 2 + 8 * (1 : BitVec 11).signExtend 64) 8 = .peer 1 0xFF08 ∧
      0x10000 < 0xFF08 + 8 * ((31 : GR).toNat - (0 : GR).toNat + 1)) := by
  unfold PeerQuiet
  decide

theorem witness_VectorAccesses_peer :
    (let s := lateRun [(2, 0x800000008000FF00)]
     s.path (s.gv 2 + BitVec.ofNat 64 (64 * (3 : BitVec 5).toNat)) 64 = .peer 1 0xFFC0 ∧
      s.path (s.gv 2 + BitVec.ofNat 64 (8 * (31 : BitVec 5).toNat)) 8 = .peer 1 0xFFF8 ∧ s.gp 2 = false ∧
      s.core.ordering = [] ∧ s.core.sh.ahead = [] ∧ .readLate ∈ s.met ∧ s.core.ctl.riga = false ∧ s.core.sh.late = []) ∧
    PeerQuiet (run .u) 1 ∧
    -- sixteen lanes of 4 bytes downward in core 1, and one word of it gathered
    (let s := runG .u [(2, 0x800000008000003C), (3, -4)]
     (∀ i, i < Ty.lanes .f32 → s.active none i = true → s.path (s.strideAddr 2 3 i) (Ty.bits .f32 / 8) = .peer 1 (0x3C - 4 * i)) ∧
      s.gp 2 = false ∧ s.gp 3 = false) ∧
    (let s := runG .u [(2, 0x800000008000FFFC)]
     (∀ i, i < Ty.lanes .n32 → s.active none i = true → s.path (s.indexAddr 2 1 .n32 i) (Ty.bits .n32 / 8) = .peer 1 0xFFFC) ∧
      (s.vr 1).p = false) := by
  unfold PeerQuiet
  and_intros <;> decide +kernel

theorem witness_StepRunsDecoded_turns :
    ((run .u).leadUp = true ∧ State.reset.lead.lead = none ∧ (run .u).keepsLead (run .u) = true) ∧
    Instr.isEvent (.add 4 5 6) = false := by decide +kernel

theorem witness_Sends_more :
    -- a late read of core 1, and none
    (¬ (∀ q ∈ (owing (run .u)).core.sh.late, q.key ≠ 1) ∧ ∀ q ∈ (run .u).core.sh.late, q.key ≠ 1) ∧
    -- into the tree of the own router
    (let s := withEntry (runG .u [(2, ownAddr 0)]) 0 (rootEntry 6)
     s.target228 (s.gv 2) = some ⟨0xFF, 0, 0⟩ ∧ s.deadTarget (Lc.bits .c2) ⟨0xFF, 0, 0⟩ = false ∧ s.slot.unans.length < 64 ∧
      s.entersTree ⟨0xFF, 0, 0⟩ .c2 16 = true ∧ s.outstanding .panel = false ∧ s.slot.dataWaits ⟨0xFF, 0, 0⟩ .c2 16 = false) ∧
    -- `RENORM` of another core, with a poisoned gb, with E of 0 and of 0xFF, with a poisoned gc
    ((run .u).core.ctl.priv = .u ∧ (runP .u 2).gp 2 = true ∧
      (runG .u [(2, core1)]).target228 ((runG .u [(2, core1)]).gv 2) = some ⟨0xFF, 1, 0⟩ ∧ 1 ≠ (run .u).here ∧
      (let s := (runG .u [(2, ownAddr 0)]).setG 3 0 true
       s.gp 2 = false ∧ s.target228 (s.gv 2) = some ⟨0xFF, 0, 0⟩ ∧ s.gp 3 = true) ∧
      ((runG .u [(3, 0)]).gv 3).extractLsb' 16 8 = 0 ∧ ((runG .u [(3, 0xFF0000)]).gv 3).extractLsb' 16 8 = 0xFF ∧
      (let s := (runG .u [(2, ownAddr 0), (3, 0x10000)]).setG 4 0 true
       (s.gv 3).extractLsb' 16 8 ≠ 0 ∧ (s.gv 3).extractLsb' 16 8 ≠ 0xFF ∧ s.gp 3 = false ∧ s.gp 4 = true)) := by
  and_intros <;> decide +kernel

/-- A packet from core 0 to the core at x 128 of site 2, which crosses site 1; sites 0 and 2 LIVE, site 1 not, and of the sites its detour
takes neither. -/
def stranded (k : PKind) : State :=
  { flying (run .u) (packetTo k 0 (keyOf 128 0)) with sites := [(0, liveSite), (2, liveSite)] }
theorem witness_gone :
    (∀ k, k ∈ [PKind.watchWake, .barArrive, .barRelease, .reply] →
      (stranded k).arriving 0 = some (packetTo k 0 (keyOf 128 0)) ∧ (stranded k).travels (packetTo k 0 (keyOf 128 0)) = false ∧
      (flying (run .u) (packetTo k 1 0)).travels (packetTo k 1 0) = true) ∧
    (∀ k, k ∈ [PKind.watchWake, .barRelease] → ({ flying (run .u) (packetTo k 1 0) with sites := [] } : State).siteLive 0 = false) := by
  and_intros <;> decide +kernel

theorem witness_WatchesAndWakes_dead :
    (stranded .wake).arrives 1 3 0 (keyOf 128 0) = false ∧ (stranded .wake).arriving 0 = some (packetTo .wake 0 (keyOf 128 0)) ∧
    (packetTo .wake 0 (keyOf 128 0)).srcPan = 0xFF ∧
    -- a bank element, and a core of another group
    (let p := packetTo .wake 0 (keyOf 64 0)
     (flying (allLive (run .u)) p).arrives 1 3 0 (keyOf 64 0) = true ∧ isCore (keyOf 64 0) = false) ∧
    (let p := { packetTo .wake 1 0 with gid := 2 }
     (flying (run .u) p).arrives 2 3 1 0 = true ∧ ((flying (run .u) p).coreAt 0).ctl.gid ≠ p.gid) := by
  and_intros <;> decide +kernel

/-- A transfer whose back-off ends at tick 64. -/
def refusedStream : Stream := { open1 with wait := .refused 2 64 }

set_option maxRecDepth 8000 in
theorem witness_Streams_retry :
    -- due, not yet due, and at a tile that is not up
    (let s := withStream (tickAt 64) refusedStream
     (s.stream 3).st = .active ∧ (s.stream 3).wait = .refused 2 64 ∧ s.tileUp = true ∧ 64 ≤ s.clock.ticks ∧
      (withStream (tickAt 63) refusedStream).clock.ticks < 64 ∧ ({ s with sites := [] } : State).tileUp = false ∧
      -- alone, and with no COPY that backs off
      (∀ j, j ≠ 3 → (s.stream j).st ≠ .active) ∧ (∀ j, j < 64 → (s.running? j 2 fun _ => true) = none)) ∧
    -- a flag word out of bounds
    ((withStream ({ run .u with sites := [(0, liveSite)] } : State) { stream1 with flag := 0x8000080000000000 }).tileUp = true ∧
      (withStream ({ run .u with sites := [(0, liveSite)] } : State) { stream1 with flag := 0x8000100000000000 }).nearEnd 0x8000100000000000 2 =
        .error (.fault 4)) ∧
    -- no late read of the word of the flag, and one of a word that a burst takes
    ((∀ y ∈ (run .u).core.sh.late, shareWord y.words ((End.near 0 0x100).words 1) = false) ∧
      shareWord (⟨.scalar 7 .d64, 1, 8⟩ : Late).words ((End.near 1 8).words 1) = true) := by
  and_intros <;> decide +kernel

/-- Panel 3 of domain 5's map is panel 9; the first panel link carries its traffic and is UP. -/
def linked (s : State) : State :=
  { allLive s with links := { s.links with routing := [(9, 0x8000)], plinks := [(0, { Link.reset with st := .up })] } }

theorem witness_Atomics_more :
    ((linked (run .u)).leaves 1 5 3 0 3 = true ∧ (run .u).leaves 1 5 3 0 3 = false) ∧
    ((asked (run .u) (packetTo .amo 0 1) (some (0, 9))).rpcFor .amo = some ⟨packetTo .amo 0 1, 0, some (0, 9), false, none⟩) ∧
    (({ packetTo .amo 1 0 with pois := true } : Packet).pois = true) := by
  and_intros <;> decide +kernel

theorem witness_ScrubbingAndUmpires_more :
    -- two words to correct, below the bucket's rim
    (((run .u).part 0).bucket + [1, 7].length < 64 ∧ (run .u).trimOf 0 = 0 ∧
      (∀ w ∈ [1, 7], w < 8 ∧ (run .u).poisoned (nodeBase 0 + 64 * 1023 + 8 * w) = false)) ∧
    -- a trimmed quad
    ((withQuad (run .u) 0 fun q => { q with trim := 3 }).trimOf 0 = 2 + 1) ∧
    -- a bank element; margin, because of a trim and because one was lost in this tick
    (isCore (keyOf 64 0) = false ∧ (allLive (run .u)).serving (keyOf 64 0) = true ∧
      (withQuad (run .u) 0 fun q => { q with trim := 3 }).margin 0 = true ∧ (run .u).margin 0 = false ∧
      (withQuad (run .u) 0 fun q => { q with freeze := 2 ^ 34 }).margin 0 = true) ∧
    ((1 : Nat) ≠ 7 ∧ ((run .u).part 0).bucket + 17 < 64) := by
  and_intros <;> decide +kernel

theorem witness_QuadsAndAlignment_lost :
    let s (n : Nat) := (run .u).onSite 0 fun t => { t with phases := [(0, n)] }
    (tget 0 ((s 2).site 0).phases 0 = 2 ∧ tget 0 ((s 3).site 0).phases 0 = 3 ∧ 4 ≤ tget 0 ((s 4).site 0).phases 0) ∧
    ((0 : Nat) ∈ (s 2).groupIds ∧ ((s 2).group 0).st = .running ∧ ((s 2).group 0).cores.any (groupNode 0 0) = true ∧
      ((runGroup .u { group1 with st := .seeding } 0).group 0).laneKeys.any (groupNode 0 0) = true) ∧
    (s 3).powered (s 3).here = false := by
  and_intros <;> decide +kernel

/-- Group 1 of kernel 1023, where RAMPF asks for paddle contexts; its symbol `_paddle` is settled or not. -/
def paddling (p : Option (Option (BitVec 16))) (m : Image) : State :=
  let s := (runGroup .u { group1i with khandle := 0x203FF, image := m } 0).onKern 1023 fun _ =>
    ⟨.registered, 2, m, 0, 0x1000, 544, [], p, []⟩
  s.onCtl fun k => { k with paddle := true }

theorem witness_PowerSamples_more :
    (let s := paddling none image1
     (s.site (siteOf s.here)).triad.mayVote = true ∧ s.core.ctl.paddle = true ∧ s.core.sh.cut = false ∧
      s.groupOf s.core.ctl.gid = some 0 ∧ (s.group 0).st = .running ∧ s.core.slots.toList.any (·.paddle) = false ∧
      s.core.lastFree = some 15 ∧ s.byHandle (s.group 0).khandle.toNat = some 1023 ∧ (s.kern 1023).paddle = none ∧
      image1.inText 0 0x40 = true ∧ image1.inText 0 0x44 = false ∧ image1.standardSched 0 = false) ∧
    ((paddling (some none) image1).kern 1023).paddle = some none ∧
    (runGroup .u group1i 0).byHandle group1i.khandle.toNat = none ∧
    -- the hundredth sample above BUDGET, with estimates above it and not
    (let s : State := { runGroup .u { group1i with est := 9 } 0 with
       power := { (run .u).power with above := 99 }, lead := { (runGroup .u { group1i with est := 9 } 0).lead with budget := 0 } }
     s.power.above + 1 = 100 ∧ s.lead.budget.toNat < s.steady ∧ s.drainNext = some 0 ∧ (run .u).steady ≤ (run .u).lead.budget.toNat ∧
      s.anyDraining = false) ∧
    ((run .u).runningOn 0 = [0, 1] ∧ ((run .u).site 0).triad.mayVote = true) := by
  and_intros <;> decide +kernel

/-! ## Images that fail one check of R264 each -/

/-- The bytes of an image of domain 5 and key 9 with its sections' bytes. -/
def imageOf (n : Nat) (l : List (BitVec 8)) : List (BitVec 8) :=
  leBytes 4 0x4B4C4742 ++ leBytes 2 1 ++ leBytes 2 n ++ leBytes 4 (64 + l.length) ++ leBytes 4 5 ++ leBytes 16 0 ++ leBytes 16 9 ++
    leBytes 16 0 ++ l
/-- A section's bytes; its body fills whole dwords. -/
def sect (ty var load len : Nat) (body : List (BitVec 8)) : List (BitVec 8) :=
  leBytes 4 ty ++ leBytes 4 var ++ leBytes 4 load ++ leBytes 4 len ++ body
/-- PLACE, ENTRY, VARIANT and SCHED of one variant. -/
def basic : List (BitVec 8) := (imageBytes.drop 64)
/-- The salt of its signature. -/
def salt7 : List (BitVec 8) := List.replicate 32 7
/-- The panel where the image is posted, signed by the key under which 2^1024 signs it. -/
def signing (b : List (BitVec 8)) : State :=
  let s := (run .u).poke (hostBase + 0x1000) (b ++ powerSignature) false
  { s with boat := { s.boat with keys := [⟨5, 9, modulusOf b salt7, 3⟩] } }.onReq 15
    fun _ => ⟨1, 1, 0, 0, 0x1000, BitVec.ofNat 32 (b.length + 384), 5⟩
theorem signing_leadUp (b : List (BitVec 8)) : (signing b).leadUp = true := rfl
theorem signing_posted (b : List (BitVec 8)) : (signing b).posted = some 15 := rfl
theorem signing_req (b : List (BitVec 8)) : (signing b).req 15 = ⟨1, 1, 0, 0, 0x1000, BitVec.ofNat 32 (b.length + 384), 5⟩ := rfl
theorem signing_byte (b : List (BitVec 8)) (x : Nat) :
    (signing b).byte x = ((run .u).poke (hostBase + 0x1000) (b ++ powerSignature) false).byte x := by
  simp only [State.byte, signing, onReq_mem]
theorem signing_signed (b : List (BitVec 8)) : (signing b).signed 5 9 b powerSignature = true := modulusOf_verifies b salt7 rfl
/-- A request for an image of key 9 of domain 5 is posted, and checks 1 to 3 of R264 pass. -/
def Verified (s : State) (b : List (BitVec 8)) : Prop :=
  s.leadUp = true ∧ s.posted = some 15 ∧ (s.req 15).op = 1 ∧ (s.req 15).dom = 5 ∧
    s.hostBytes (s.req 15).addr.toNat (s.req 15).size.toNat = b ∧ headerOk b (s.req 15).size.toNat = true ∧
    BitVec.ofNat 16 (imageNat b 12 4) = 5 ∧ imageNat b 32 16 = 9 ∧
    s.signed 5 9 (b.take (imageNat b 8 4)) (cutBytes b (imageNat b 8 4) 384) = true
/-- An image whose header says so is verified. -/
theorem signing_verified (b : List (BitVec 8)) (hl : b.length < 1000) (h : headerOk (b ++ powerSignature) (b.length + 384) = true)
    (hd : BitVec.ofNat 16 (imageNat (b ++ powerSignature) 12 4) = 5) (hk : imageNat (b ++ powerSignature) 32 16 = 9)
    (hn : imageNat (b ++ powerSignature) 8 4 = b.length) : Verified (signing b) (b ++ powerSignature) := by
  have len : (b ++ powerSignature).length = b.length + 384 := by simp [powerSignature]
  have size : (BitVec.ofNat 32 (b.length + 384)).toNat = b.length + 384 := by simp; omega
  rw [Verified, signing_req, size, hn, List.take_left, cutBytes, List.drop_left, List.take_of_length_le (by simp [powerSignature])]
  refine ⟨signing_leadUp b, signing_posted b, rfl, rfl, ?_, h, hd, hk, signing_signed b⟩
  rw [← len]
  refine List.ext_getElem (by simp [State.hostBytes]) fun i h1 h2 => ?_
  have a : (0x1000 : BitVec 64).toNat = 0x1000 := rfl
  simp only [State.hostBytes, List.getElem_map, List.getElem_range, a, signing_byte]
  exact poke_byte_in (run .u) (hostBase + 0x1000) _ false i h2
/-- Its sections. -/
def sectsOf (b : List (BitVec 8)) : Option (List Sect) := parseSects (b ++ powerSignature) b.length (imageNat (b ++ powerSignature) 6 2) 64

def noSect : List (BitVec 8) := imageOf 1 []
def type11 : List (BitVec 8) := imageOf 1 (sect 11 0 0 0 [])
def noVariant : List (BitVec 8) := imageOf 1 (sect tySched 255 0 8 (leBytes 8 2))
def noEntry : List (BitVec 8) := imageOf 1 (sect tyPlace 0 0 8 (leBytes 8 0x0101))
def twoTexts : List (BitVec 8) := imageOf 6 (basic ++ sect tyText 0 0x40 8 (leBytes 8 0) ++ sect tyText 0 0x44 8 (leBytes 8 0))
def badSeat : List (BitVec 8) := imageOf 5 (basic ++ sect tySeat 0 0 20 (leBytes 24 0))
def badTree : List (BitVec 8) := imageOf 5 (basic ++ sect tyTree 0 0 16 (leBytes 16 0))

/-- The header of an image and what it says of domain, key and length. -/
def headed (b : List (BitVec 8)) : Bool :=
  decide (b.length < 1000) && headerOk (b ++ powerSignature) (b.length + 384) && BitVec.ofNat 16 (imageNat (b ++ powerSignature) 12 4) == 5
    && imageNat (b ++ powerSignature) 32 16 == 9 && imageNat (b ++ powerSignature) 8 4 == b.length
theorem witness_KernelRequests_verified :
    ∀ b ∈ [noSect, type11, noVariant, noEntry, twoTexts, badSeat, badTree, imageBytes], Verified (signing b) (b ++ powerSignature) := by
  have h : [noSect, type11, noVariant, noEntry, twoTexts, badSeat, badTree, imageBytes].all headed = true := by decide +kernel
  intro b hb
  have := List.all_eq_true.mp h b hb
  simp only [headed, Bool.and_eq_true, decide_eq_true_eq, beq_iff_eq] at this
  exact signing_verified b this.1.1.1.1 this.1.1.1.2 this.1.1.2 this.1.2 this.2
/-- The panel with the listed entries of the kernel table taken. -/
def takenTable (l : List Nat) : State :=
  { run .u with lead := { (run .u).lead with kernels := l.map fun i => (i, ⟨.registered, 2, image1, 0, 0, 8, [], none, []⟩) } }
theorem tget_map {α : Type} (d v : α) (l : List Nat) : ∀ i ∈ l, tget d (l.map fun i => (i, v)) i = v := by
  induction l with
  | nil => simp
  | cons j l ih => intro i h; simp only [List.map_cons, tget]; grind
theorem takenTable_full (l : List Nat) (h : ∀ i ∈ List.range 1024, i ∈ l) : (takenTable l).freeKern = none := by
  refine List.find?_eq_none.mpr fun i hi => ?_
  have e : tget Kern.reset (takenTable l).lead.kernels i = ⟨.registered, 2, image1, 0, 0, 8, [], none, []⟩ := tget_map _ _ _ i (h i hi)
  simp only [e]
  decide
theorem witness_KernelRequests_full : (takenTable (List.range 1024)).freeKern = none := takenTable_full _ fun _ h => h
/-- Which of checks 4 to 8 its sections pass: format, a variant, variants, overlap, seats, trees. -/
def passes (b : List (BitVec 8)) : Option (List Bool) := (sectsOf b).map fun l =>
  let m : Image := ⟨5, 9, l⟩
  [l.all (·.ok), !m.variants.isEmpty, m.variants.all m.variantOk, m.variants.all m.layoutOk, m.variants.all m.seatsOk, m.variants.all m.treesOk]
theorem witness_KernelRequests_checks :
    [noSect, type11, noVariant, noEntry, twoTexts, badSeat, badTree, imageBytes].map passes =
      [none, some [false, true, false, true, true, true], some [true, false, true, true, true, true],
        some [true, true, false, true, true, true], some [true, true, true, false, true, true], some [true, true, true, true, false, true],
        some [true, true, true, true, true, false], some [true, true, true, true, true, true]] := by
  decide +kernel
/-- No two memory ports stand at different bank tiles. -/
theorem witness_KernelRequests_ports : ∀ x y, x < 24 → y < 24 → (run .u).memoryPort x = true → (run .u).memoryPort y = true →
    portSite x = portSite y := by
  have h : ∀ x, x < 24 → (run .u).memoryPort x = false := by decide +kernel
  intro x y hx _ h1
  rw [h x hx] at h1
  cases h1

/-! ## Routes, sites and triads at their turns -/

/-- A running group, to which bank site 1 has come back, and its last class to switch. -/
def healing (l : List (BitVec 2)) : State :=
  { runGroup .u { group1 with healed := [1], rows := true } 0 with sites := [(0, liveSite), (1, { liveSite with switches := l })] }
/-- Link 0, retrained, whose classes are still to turn. -/
def turning (s : State) : State := withLink s 0 { Link.reset with st := .up, turn := [2, 0] }

theorem witness_LinksAndRoutes_turns :
    (((healing [2]).site 1).switches = [2] ∧ ((healing [2]).site 1).st = .live ∧ computeSite 1 = false ∧
      0 ∈ (healing [2]).groupIds ∧ ((healing [2]).group 0).st = .running ∧ 1 ∈ ((healing [2]).group 0).healed ∧
      0 ∈ ((healing [2]).group 0).cores ∧ (healing [2]).live 0 = true ∧ (((healing [2]).coreAt 0).slot 0).st ≠ .free ∧
      (((healing [2]).coreAt 0).slot 0).paddle = false) ∧
    -- a class of it that is not the last, and the last of a compute site
    ((healing [0, 2]).onOldPath 1 0 = false ∧ (flying (healing [0, 2]) (packetTo .data 0 (keyOf 64 0))).onOldPath 1 2 = true ∧
      ((withSite (run .u) fun t => { t with switches := [0] }).site 0).switches = [0] ∧ computeSite 0 = true) ∧
    -- a reseed, its lane 2 while a group is at work on the tile and after
    ((healing []).atWork 0 = true ∧ (run .u).atWork 0 = false ∧ (run .u).onOldPath 0 2 = false ∧
      ((withSite (run .u) fun t => { t with reroutes := [2] }).site 0).switches = [] ∧
      ((withSite (run .u) fun t => { t with reroutes := [2] }).site 0).reroutes = [2]) ∧
    -- a retrained link
    ((run .u).turningLink 0 2 = none ∧ (turning (run .u)).turningLink 0 2 = some 0 ∧ (turning (run .u)).onOldLink 0 2 = false ∧
      (turning (flying (run .u) (packetTo .data 0 (keyOf 64 0)))).onOldLink 0 2 = true ∧ ((turning (run .u)).site 0).switches = [] ∧
      ((turning (run .u)).site 0).reroutes = []) ∧
    -- ports of a site that is LIVE and of one that is not
    ((allLive (run .u)).siteLive (portSite 23) = true ∧ (allLive (run .u)).leadUp = true ∧ ((allLive (run .u)).cxl 23).trained ≠ true ∧
      (run .u).siteLive (portSite 23) = false) := by
  and_intros <;> decide +kernel

/-- The panel whose controller's firmware does not verify. -/
def unbooted (s : State) : State := { s with boat := { s.boat with firmware := { s.boat.firmware with signed := false } } }

theorem witness_SiteLifecycle_turns :
    (({ run .u with sites := [] } : State).site 3).st = .empty ∧
    (((withSite (run .u) fun t => { t with st := .lost, contact := false }).site 0).st = .lost ∧
      ((withSite (run .u) fun t => { t with st := .lost, contact := false }).site 0).contact = false) ∧
    ((run .u).booted = true ∧ (unbooted (run .u)).booted = false ∧ (run .u).boat.verifies (run .u).boat.triad = true) ∧
    -- attested, with a forged identity, and not booted
    (let s (f : Bool) := withSite (tickAt (2 ^ 34 - 1)) fun t => { t with st := .training, measured := some ⟨1, [], 2⟩, forged := f }
     ((s false).site 0).st = .training ∧ (s false).clock.ticks < ((s false).site 0).since + 2 ^ 34 ∧ ((s false).site 0).attested = true ∧
      ((s true).site 0).attested = false ∧ ((run .u).site 0).attested = false) ∧
    -- the tick of the DRAINING deadline, and the next
    (let s := withSite (tickAt 9) fun t => { t with st := .safe, lapsed := some 9 }
     (s.site 0).st = .safe ∧ (s.site 0).lapsed = some s.clock.ticks ∧
      ((withSite (tickAt 10) fun t => { t with st := .safe, lapsed := some 9 }).site 0).lapsed ≠ some 10) ∧
    (let s := withSite (run .u) fun t => { t with st := .draining }
     (s.site 0).st = .draining ∧ s.drainOver? 0 = false) ∧
    -- a lower site that the lead takes first, and a tile all of whose links are dead
    (let s := aligned (((run .u).onSite 2 fun t => { t with st := .fenced }).onSite 4 fun t => { t with st := .fenced })
     (s.site 4).st = .fenced ∧ s.lead.lead.isSome = true ∧ 2 < 4 ∧ s.admissible 2 = true) ∧
    ({ run .u with links := { (run .u).links with links := (siteLinks 0).map fun i => (i, { Link.reset with st := .dead }) } } : State).cutOff 0 = true := by
  and_intros <;> decide +kernel

theorem witness_TriadsAndLead_places :
    -- what all copies present, all but one, one alone, two unlike ones, and three
    (let k := ((run .u).site 0).triad.sentBy
     ((∀ e, e < 3 → presentedBy ⟨some 7, some 7, some 7⟩ e = some 7) ∧
      (∀ e, e < 3 → presentedBy ⟨some 7, some 8, some 7⟩ e = if e = 1 then some 8 else some 7) ∧
      (∀ e, e < 3 → presentedBy ⟨some 7, some 7, none⟩ e = if e = 2 then none else some 7) ∧
      (∀ e, e < 3 → presentedBy ⟨none, none, some 7⟩ e = if e = 2 then some 7 else none) ∧
      presentedBy ⟨some 7, some 8, some 9⟩ 2 = some 9 ∧ k 0 = 0)) ∧
    -- a REDUCED triad of every two places
    (∀ a ∈ [(copies .voting .voting .out, 0, 1), (copies .voting .out .voting, 2, 0), (copies .out .voting .voting, 1, 2)],
      (a.1.site 0).triad.halted = false ∧ (a.1.site 0).triad.votes = 2 ∧ (a.1.site 0).triad.copy a.2.1 = .voting ∧
        (a.1.site 0).triad.copy a.2.2 = .voting ∧ (a.1.site 0).triad.sentBy a.2.1 = 0 ∧ (a.1.site 0).triad.sentBy a.2.2 = 0) ∧
    -- a copy that owes, in time and late
    (let s (n : Nat) := withTriad (tickAt n) fun t => { t with copies := #v[.voting, .out, .voting], silent := [⟨2, 0, 9, 0⟩] }
     ((s 1024).site 0).triad.votes = 2 ∧ ((s 1024).site 0).triad.copy 2 = .voting ∧ ((s 1024).site 0).triad.silent = [⟨BitVec.ofNat 2 2, 0, 9, 0⟩] ∧
      (s 1024).clock.ticks ≤ 0 + 1024 ∧ 0 + 1024 < (s 1025).clock.ticks ∧
      (∃ q ∈ ((s 1024).site 0).triad.silent ++ ((s 1024).site 0).triad.shown, q.tick + 1024 ≤ (s 1024).clock.ticks) ∧
      (∀ q ∈ ((s 1023).site 0).triad.silent ++ ((s 1023).site 0).triad.shown, (s 1023).clock.ticks < q.tick + 1024)) ∧
    -- a checkpoint where each place reloads
    (∀ a ∈ [(copies .voting .voting .reloading, 0, 1, 2), (copies .voting .reloading .voting, 2, 0, 1), (copies .reloading .voting .voting, 1, 2, 0)],
      (a.1.site 0).triad.copy a.2.1 = .voting ∧ (a.1.site 0).triad.copy a.2.2.1 = .voting ∧ (a.1.site 0).triad.copy a.2.2.2 = .reloading ∧
        (a.1.site 0).triad.checkAt + 2 ^ 20 ≤ (tickAt (2 ^ 20)).clock.ticks) ∧
    ((run .u).booted = true ∧ (unbooted (run .u)).booted = false ∧ (run .u).lead.lead.isSome = true) ∧
    (let s := withTriad (run .u) fun t => { t with halted := true }
     (s.site 0).triad.halted = true ∧ ((withSite s fun t => { t with st := .draining }).site 0).st = .draining) := by
  and_intros <;> decide +kernel

/-- A fault record of site 0 that asks for VA 0 of domain 5, since a tick, with an atomic of the core at a key. -/
def pageFault (s : State) (since : Nat) : State :=
  s.onRec 0 31 fun r => { r with st := .pending, dom := 5, vpage := 0, join := [.atomic 0], since := since }

theorem witness_PagesAndDomains_records :
    (let s := oneCmd (pageFault (run .u) 0) (pageCmd 0 0 false)
     s.faultedNow 5 (pageCmd 0 0 false) = true ∧ (s.site 0).triad.halted = false ∧ (s.faultAt 0 31).st ≠ .free ∧ (s.faultAt 0 31).join ≠ [] ∧
      (s.faultAt 0 31).settles s.clock.ticks 5 0 65536 = true ∧ (s.faultAt 0 31).settles s.clock.ticks 6 0 65536 = false) ∧
    (pageFault (tickAt 1) 0).faultedNow 5 (pageCmd 0 0 false) = false ∧
    -- a MIGRATE that waits for an access, and its limit with a triad that may vote and one that may not
    (let s := oneCmd (flying (paged (run .u)) (amoOn 0x10FFF8)) (pageCmd 2 0x200000 false)
     s.accessIn (entryTarget (leafEntry 0x100000 3 false)) 65536 = true ∧ (pageCmd 2 0x200000 false).moved = 0 ∧
      (pageCmd 2 0x200000 false).leaf = none ∧ (pageCmd 2 0x200000 false).fpaOk ⟨domain5, []⟩ = true) ∧
    (let s := pageFault (tickAt (2 ^ 26)) 0
     (s.faultAt 0 31).since + 2 ^ s.pages.flim.toNat ≤ s.clock.ticks ∧ (s.site 0).triad.mayVote = true ∧
      ((withTriad s fun t => { t with halted := true }).site 0).triad.mayVote = false ∧
      (tickAt (2 ^ 26 - 1)).clock.ticks < 0 + 2 ^ s.pages.flim.toNat ∧ ((record24 s).faultAt 24 31).join = []) := by
  and_intros <;> decide +kernel

theorem witness_LaunchesAndCopies_budget :
    (run .u).budgetNow = (run .u).lead.budget ∧
    (({ tickAt 5 with lead := { (tickAt 5).lead with was := (7, 5) } } : State).budgetNow ≠
      ({ tickAt 5 with lead := { (tickAt 5).lead with was := (7, 5) } } : State).lead.budget) := by
  decide +kernel

/-! ## Values the spec's worked examples give -/

/-- A next state of an instruction satisfies a test. -/
def after (i : Instr) (s : State) (p : State → Bool) : Bool :=
  match exec i s with
  | .next t => p t
  | .fault _ => false
  | .refused _ => false
/-- 08, under Address forming and under Immediates. -/
theorem test_example_scalar : after (.mkaAbs 3 5 6) (runG .u [(5, 0x000000FF00280046), (6, 0x40)]) (fun t => t.gv 3 == 0x00FF231400000040) = true ∧
    after (.bfx 4 5 11 8) (runG .u [(5, 0xABCD12)]) (fun t => t.gv 4 == 0xBCD) = true := by decide
/-- 02, the example under R58: a selector of a SPACE that R26 does not allow. -/
theorem test_example_bounds :
    let s := (runG .u [(2, 0x600)]).onCtl fun c => { c with kvec := 3, pc := 0x840 }
    after (.crrdSeamt 1 2) s (fun t => t.core.ctl.cause == 4 && t.core.ctl.tval == 0x600 && t.core.ctl.tpc == 0x840 && t.pc == 0x3100
      && t.gv 1 == 0) = true := by decide
/-- 06 and 15: the queue of an FPA under R129. -/
theorem test_example_proxy_queue : proxyQueue 0x27840 = 6 ∧ proxyQueue 0x1234501A30 = 14 := by decide
/-- 15: the leaf the MAP writes, and dword 1 of the record. -/
theorem test_example_page : leafEntry 0x1234500000 7 false = 0x000000123450001F ∧
    ({ FaultRec.free with vpage := 0x814024, dom := 5, x := 66, y := 40, slot := 2, st := .pending } : FaultRec).word 1 =
      0x0005211410100000 := by decide
/-- 13: dword 0 while the group runs, both dwords after the restart. -/
theorem test_example_group :
    let g := { group1 with gid := 0x123, col0 := 128, row0 := 64, w := 2, h := 2, ckpt := 2, khandle := 0x20007 }
    g.word 0 = 0x0123402004100004 ∧ ({ g with col0 := 0, row0 := 0, rst := 1 } : Group).word 0 = 0x0123000004100104 ∧
      ({ g with rst := 1 } : Group).word 1 = 0x0000000200020007 := by decide
/-- 09: packing at a floor, and unpacking block 1. -/
theorem test_example_pack :
    let s := ((run .u).setV 1 ⟨0x3DCCCCCD3E4CCCCDBFA0000040400000, 0x83000000, false⟩).setV 2 ⟨0, 0, false⟩
    after (.vpackbk 3 1 2 .bk8) s (fun t => bget t.core.regs.v (3 : VR) == ⟨0x0203EC30 <<< 256, 0x83FFFF0000000000, false⟩ &&
      after (.vunbk 4 3 2 none .bk8) t fun u =>
        bget u.core.regs.v (4 : VR) == ⟨0x3E0000003E400000BFA0000040400000, 0, false⟩) = true := by decide +kernel

end Sys2Proof.Tests
end

section
/-! What the body of an instruction says of the instruction, and `CRRD`: the views of the control registers field by field
(R46-R53) and the entries `CRRD SEAMT` reads (R26, R177). -/

namespace Sys2Proof.Machine

/-! ## Bodies and what they answer -/

theorem consume_clean {s : State} {r : GR} (h : s.gp r = false) (k : Res) : s.consume r k = k := by
  simp [State.consume, h]
theorem consume_poison {s : State} {r : GR} (h : s.gp r = true) (k : Res) : s.consume r k = .trap .poison 0 := by
  simp [State.consume, h]
theorem legal_wellFormed {i : Instr} (h : i.wellFormed = true) (s : State) (r : Res) : s.legal i r = r := by
  simp [State.legal, h]
theorem atS_s {s : State} (h : s.core.ctl.priv = .s) (t : State) : s.atS t = .ok t := by simp [State.atS, h]
theorem atS_u {s : State} (h : s.core.ctl.priv = .u) (t : State) : s.atS t = .ok s := by simp [State.atS, h]
theorem crOpen_open {s : State} {n : Cr} (h : s.core.ctl.priv = .s ∨ crClosed n = false) (r : Res) : s.crOpen n r = r := by
  rcases h with h | h <;> simp [State.crOpen, h]
theorem crOpen_closed {s : State} {n : Cr} (hu : s.core.ctl.priv = .u) (hc : crClosed n = true) (r : Res) :
    s.crOpen n r = .trap .priv s.parcel := by simp [State.crOpen, hu, hc]

/-- A body that ends well: what its commit satisfies. -/
theorem completes_ok {i : Instr} {s t : State} {n : Nat} {P : State → Prop} (h : exec i s = s.finish n (.ok t))
    (hP : P (t.commit n)) : Completes i s P := ⟨_, h, hP⟩
/-- A body that traps at U: its cause is taken at the instruction (R54, R55). -/
theorem completes_trapTaken {i : Instr} {s : State} {n : Nat} {c : Cause} {v : BitVec 64}
    (h : exec i s = s.finish n (.trap c v)) (hu : s.core.ctl.priv = .u) :
    Completes i s fun t => TrapTaken s t c v s.pc := ⟨_, h, takeTrap_u s c v s.pc hu⟩

theorem setG_commit_writesG (s : State) (d : GR) (v : BitVec 64) (p : Bool) :
    WritesG s ((s.setG d v p).commit 4) d v p 0 4 := by
  have others : SameG s ((s.setG d v p).commit 4) [d] := fun r hr => by
    have hr : r ≠ d := by simpa using hr
    exact ⟨setG_gv_ne s d r v p hr, setG_gp_ne s d r v p hr⟩
  exact ⟨setG_gv s d v p, setG_gp s d v p, by simp, ⟨others, ⟨rfl, rfl, rfl⟩, ⟨rfl, rfl, rfl⟩, rfl⟩, rfl⟩

theorem commit_onlyPc (s : State) : OnlyPc s (s.commit 4) (s.pc + 4) := ⟨rfl, rfl, rfl, rfl, rfl, rfl⟩

/-! ## Fields of a dword -/

/-- Two fields side by side are two fields, the left one above the right one. -/
theorem fieldAt_append {n m : Nat} (a : BitVec n) (b : BitVec m) (i : Nat) :
    fieldAt (a ++ b) i = fieldAt a (i + m) ||| fieldAt b i := by
  refine BitVec.eq_of_getLsbD_eq fun j hj => ?_
  simp only [fieldAt, BitVec.getLsbD_or, BitVec.getLsbD_shiftLeft, BitVec.getLsbD_setWidth, BitVec.getLsbD_append]
  grind
@[simp] theorem fieldAt_zero (n i : Nat) : fieldAt 0#n i = 0 := by simp [fieldAt]
theorem fieldAt_self (x : BitVec 64) : fieldAt x 0 = x := by simp [fieldAt]

/-- `FPCR` without its reserved bits: the flags and the modes (R47). -/
theorem fpcr_fields (x : BitVec 14) : x &&& 0x3F1F = x.extractLsb' 8 6 ++ (0 : BitVec 3) ++ x.extractLsb' 0 5 := by
  refine BitVec.eq_of_getLsbD_eq fun i hi => ?_
  rw [BitVec.getLsbD_append, BitVec.getLsbD_append]
  interval_cases i <;> simp
/-- The address of a parcel: its two low bits are 0 (R50). -/
theorem parcel_fields (x : BitVec 16) : x &&& 0xFFFC = x.extractLsb' 2 14 ++ (0 : BitVec 2) := by
  refine BitVec.eq_of_getLsbD_eq fun i hi => ?_
  rw [BitVec.getLsbD_append]
  interval_cases i <;> simp

/-! ## Views of the control registers (R46-R53) -/

theorem crView_fpcr (s : State) :
    s.crView .fpcr = (0 : BitVec 50) ++ s.fpcr.extractLsb' 8 6 ++ (0 : BitVec 3) ++ s.fpcr.extractLsb' 0 5 :=
  Eq.trans (by simp only [State.crView, fpcr_fields, fieldAt_append]; simp) (fieldAt_self _)
theorem crView_tid (s : State) :
    s.crView .tid = (0 : BitVec 24) ++ s.core.ctl.tidY ++ (0 : BitVec 7) ++ s.core.ctl.tidX ++ (0 : BitVec 12) ++
      s.core.ctl.slot :=
  Eq.trans (by simp only [State.crView, fieldAt_append]; simp) (fieldAt_self _)
theorem crView_shard (s : State) :
    s.crView .shard = (0 : BitVec 40) ++ s.core.ctl.gy ++ (0 : BitVec 7) ++ s.core.ctl.gx :=
  Eq.trans (by simp only [State.crView, fieldAt_append]; simp) (fieldAt_self _)
theorem crView_grp (s : State) :
    s.crView .grp = s.core.ctl.hm1 ++ (0 : BitVec 7) ++ s.core.ctl.wm1 ++ s.core.ctl.row0 ++ (0 : BitVec 7) ++
      s.core.ctl.col0 ++ s.core.ctl.gid :=
  Eq.trans (by simp only [State.crView, fieldAt_append]; simp) (fieldAt_self _)
/-- At U the ledger key reads 0 (R48). -/
theorem crView_domid_u {s : State} (h : s.core.ctl.priv = .u) : s.crView .domid = (0 : BitVec 48) ++ s.core.ctl.dom :=
  Eq.trans (by simp only [State.crView, h, fieldAt_append]; simp) (fieldAt_self _)
theorem crView_domid_s {s : State} (h : s.core.ctl.priv = .s) :
    s.crView .domid = (0 : BitVec 35) ++ s.core.ctl.key ++ s.core.ctl.dom :=
  Eq.trans (by simp only [State.crView, h, fieldAt_append]; simp) (fieldAt_self _)
theorem crView_prio (s : State) :
    s.crView .prio = (0 : BitVec 55) ++ BitVec.ofBool s.slot.paddle ++ (0 : BitVec 6) ++ s.slot.level :=
  Eq.trans (by simp only [State.crView, fieldAt_append]; simp) (fieldAt_self _)
theorem crView_tcause (s : State) :
    s.crView .tcause = (0 : BitVec 55) ++ BitVec.ofBool s.core.ctl.async ++ (0 : BitVec 3) ++ s.core.ctl.cause :=
  Eq.trans (by simp only [State.crView, fieldAt_append]; simp) (fieldAt_self _)
theorem crView_tpc (s : State) :
    s.crView .tpc = (0 : BitVec 48) ++ s.core.ctl.tpc.extractLsb' 2 14 ++ (0 : BitVec 2) :=
  Eq.trans (by simp only [State.crView, parcel_fields, fieldAt_append]; simp) (fieldAt_self _)
theorem crView_tstat (s : State) :
    s.crView .tstat = (0 : BitVec 49) ++ BitVec.ofBool s.core.ctl.riga ++ s.slot.pend ++ (0 : BitVec 8) :=
  Eq.trans (by simp only [State.crView, fieldAt_append]; simp) (fieldAt_self _)
theorem crView_rigs (s : State) :
    let r := s.core.regs.rigs
    s.crView .rigs = r.iter ++ (0 : BitVec 8) ++ r.sv ++ (0 : BitVec 4) ++ BitVec.ofBool r.fault ++
      BitVec.ofBool r.active ++ r.last ++ r.slot :=
  Eq.trans (by simp only [State.crView, Rigs.word, fieldAt_append]; simp) (fieldAt_self _)
theorem crView_kvec (s : State) : s.crView .kvec = (0 : BitVec 48) ++ s.core.ctl.kvec ++ (0 : BitVec 12) :=
  Eq.trans (by simp only [State.crView, fieldAt_append]; simp) (fieldAt_self _)
theorem crView_rampf (s : State) :
    s.crView .rampf = (0 : BitVec 47) ++ BitVec.ofBool s.core.ctl.paddle ++ tget 0 s.power.floors (siteOf s.here) :=
  Eq.trans (by simp only [State.crView, fieldAt_append]; simp) (fieldAt_self _)

/-- The number whose bit i, for each i below n, is p i. -/
def bitSum (p : Nat → Prop) [DecidablePred p] (n : Nat) : Nat :=
  (List.range n).foldl (fun v i => v + (if p i then 2 ^ i else 0)) 0
theorem bitSum_succ (p : Nat → Prop) [DecidablePred p] (n : Nat) :
    bitSum p (n + 1) = bitSum p n + (if p n then 2 ^ n else 0) := by simp [bitSum, List.range_succ]
theorem bitSum_lt (p : Nat → Prop) [DecidablePred p] (n : Nat) : bitSum p n < 2 ^ n := by
  induction n with
  | zero => simp [bitSum]
  | succ n ih =>
    rw [bitSum_succ, Nat.pow_succ]
    split <;> omega
theorem testBit_bitSum (p : Nat → Prop) [DecidablePred p] {n i : Nat} (h : i < n) :
    (bitSum p n).testBit i = decide (p i) := by
  induction n with
  | zero => omega
  | succ n ih =>
    have low : bitSum p n < 2 ^ n := bitSum_lt p n
    rw [bitSum_succ]
    rcases Nat.lt_succ_iff_lt_or_eq.mp h with hlt | rfl
    · split
      · rw [Nat.add_comm, Nat.testBit_two_pow_add_gt hlt, ih hlt]
      · exact ih hlt
    · split
      · next hp => rw [Nat.add_comm, Nat.testBit_two_pow_add_eq, Nat.testBit_lt_two_pow low]; simp [hp]
      · next hp => rw [Nat.add_zero, Nat.testBit_lt_two_pow low]; simp [hp]

/-- `SEATB` holds the seats with COUNT > 0 (R46). -/
theorem crView_seatb (s : State) (i : BitVec 6) :
    (s.crView .seatb).getLsbD i.toNat = ((bget s.core.sh.seat i).count != 0) := by
  have bound : i.toNat < 64 := i.isLt
  change (BitVec.ofNat 64 (bitSum (fun j => (s.core.sh.seat[j]?.getD Seat.zero).count ≠ 0) 64)).getLsbD i.toNat = _
  rw [BitVec.getLsbD_ofNat, testBit_bitSum _ bound]
  simp only [bound, decide_true, Bool.true_and, Vector.getElem?_eq_getElem, Option.getD_some, bget, bne, ne_eq,
    decide_not]
  rfl

/-! ## `CRRD` -/

theorem exec_crrd {n : Cr} (s : State) (d : GR) (w : Cr.readRow n = true) :
    exec (.crrd d n) s = s.finish 4 (s.crOpen n (.ok (s.setG d (s.crView n) (s.crPoison n)))) :=
  congrArg (s.finish 4) (legal_wellFormed (i := .crrd d n) w s _)
theorem crrd_completes {s : State} {n : Cr} {p : Bool} (d : GR) (w : Cr.readRow n = true)
    (h : s.core.ctl.priv = .s ∨ crClosed n = false) (hp : s.crPoison n = p) :
    Completes (.crrd d n) s fun t => WritesG s t d (s.crView n) p 0 4 := by
  have e := exec_crrd s d w
  rw [crOpen_open h, hp] at e
  exact completes_ok e (setG_commit_writesG s d _ _)
theorem crrd_closed {s : State} {n : Cr} (d : GR) (w : Cr.readRow n = true) (hu : s.core.ctl.priv = .u)
    (h : crClosed n = true) : Completes (.crrd d n) s fun t => TrapTaken s t .priv s.parcel s.pc := by
  have e := exec_crrd s d w
  rw [crOpen_closed hu h] at e
  exact completes_trapTaken e hu
theorem crClosed_iff (n : Cr) : crClosed n = true ↔ n ∈ [Cr.tcause, .tpc, .tval, .tstat, .kvec, .rampf, .sscr] := by
  cases n <;> simp [crClosed]

/-! ## `CRRD SEAMT` (R26) -/

theorem exec_crrdSeamt (s : State) (d a : GR) : exec (.crrdSeamt d a) s = s.finish 4 (s.consume a
    (match s.seamRead (s.gv a) with
      | some v => .ok (s.setG d v false)
      | none => .trap .bounds (s.gv a))) := rfl
theorem crrdSeamt_some {s : State} {a : GR} {x : BitVec 64} (d : GR) (hp : s.gp a = false) (h : s.seamRead (s.gv a) = some x) :
    Completes (.crrdSeamt d a) s fun t => WritesG s t d x false 0 4 := by
  have e := exec_crrdSeamt s d a
  rw [consume_clean hp, h] at e
  exact completes_ok e (setG_commit_writesG s d x false)
theorem crrdSeamt_none {s : State} {a : GR} (d : GR) (hp : s.gp a = false) (h : s.seamRead (s.gv a) = none)
    (hu : s.core.ctl.priv = .u) : Completes (.crrdSeamt d a) s fun t => TrapTaken s t .bounds (s.gv a) s.pc := by
  have e := exec_crrdSeamt s d a
  rw [consume_clean hp, h] at e
  exact completes_trapTaken e hu

theorem seamRead_vertical (s : State) {v : BitVec 64} (h : v.toNat / 512 = 0) (hi : v.toNat % 512 ≤ 318) :
    s.seamRead v = some (s.seamEntry true (v.toNat % 512)) := by
  simp [State.seamRead, h, show ¬ 2048 ≤ v.toNat by omega, hi]
theorem seamRead_horizontal (s : State) {v : BitVec 64} (h : v.toNat / 512 = 1) (hi : v.toNat % 512 ≤ 158) :
    s.seamRead v = some (s.seamEntry false (v.toNat % 512)) := by
  simp [State.seamRead, h, show ¬ 2048 ≤ v.toNat by omega, hi]
theorem seamRead_region (s : State) {v : BitVec 64} (h : v.toNat / 512 = 2) (hi : v.toNat % 512 ≤ 99) :
    s.seamRead v = some (s.offsetEntry (v.toNat % 512)) := by
  simp [State.seamRead, h, show ¬ 2048 ≤ v.toNat by omega, hi]
/-- A selector that names no entry (R26). -/
theorem seamRead_none (s : State) {v : BitVec 64}
    (h : 3 ≤ v.toNat / 512 ∨ (v.toNat / 512 = 0 ∧ 318 < v.toNat % 512) ∨ (v.toNat / 512 = 1 ∧ 158 < v.toNat % 512) ∨
      (v.toNat / 512 = 2 ∧ 99 < v.toNat % 512)) : s.seamRead v = none := by
  unfold State.seamRead
  grind

/-- A bit above a field of 16 bits. -/
theorem bit16_fields (b : Bool) (x : BitVec 16) :
    BitVec.ofNat 64 ((if b then 65536 else 0) + x.toNat) = fieldAt (BitVec.ofBool b) 16 ||| fieldAt x 0 := by
  have low : x.toNat < 2 ^ 16 := x.isLt
  have join : 65536 + x.toNat = 65536 ||| x.toNat := Nat.two_pow_add_eq_or_of_lt low 1
  have fits : x.toNat % 18446744073709551616 = x.toNat := Nat.mod_eq_of_lt (by omega)
  refine BitVec.eq_of_toNat_eq ?_
  cases b
  · simp [fieldAt]
  · simp [fieldAt, fits, ← join]
    omega
/-- VALID reads 1 only while the site is FENCED or LIVE (R28). -/
theorem offsetEntry_fields (s : State) (r : Nat) :
    s.offsetEntry r = fieldAt (BitVec.ofBool ((tget Region.reset s.clock.regions r).valid &&
      decide ((s.site (r / 4)).st = .fenced ∨ (s.site (r / 4)).st = .live))) 16 |||
      fieldAt (tget Region.reset s.clock.regions r).offset 0 := by
  rw [← bit16_fields]
  unfold State.offsetEntry
  dsimp only
  split <;> simp [*]
theorem offsetEntry_up {s : State} {r : Nat} (h : (s.site (r / 4)).st = .fenced ∨ (s.site (r / 4)).st = .live) :
    s.offsetEntry r = (0 : BitVec 47) ++ BitVec.ofBool (tget Region.reset s.clock.regions r).valid ++
      (tget Region.reset s.clock.regions r).offset :=
  Eq.trans (by simp only [offsetEntry_fields, h, fieldAt_append]; simp) (fieldAt_self _)
theorem offsetEntry_down {s : State} {r : Nat} (h : ¬ ((s.site (r / 4)).st = .fenced ∨ (s.site (r / 4)).st = .live)) :
    s.offsetEntry r = (0 : BitVec 48) ++ (tget Region.reset s.clock.regions r).offset :=
  Eq.trans (by simp only [offsetEntry_fields, h, fieldAt_append]; simp) (fieldAt_self _)

/-- Settles O10: each view is the union of its fields, and `CRRD SEAMT` reads the entry its selector names. -/
theorem controlRegisterReads : Obligations.ControlRegisterReads := by
  refine ⟨fun s d n w h => crrd_completes d w h (by cases n <;> rfl), fun s d n w hu h => crrd_closed d w hu h,
    crClosed_iff, fun s => ?_, fun s d a hp => ?_, fun s d a hp hu => ?_⟩
  · exact ⟨crView_fpcr s, crView_tid s, crView_shard s, crView_grp s, crView_domid_u, crView_domid_s, rfl, rfl,
      crView_prio s, crView_tcause s, crView_tpc s, rfl, crView_tstat s, crView_rigs s, crView_seatb s, crView_kvec s,
      crView_rampf s, rfl, fun _ => rfl⟩
  · refine ⟨fun h hi => crrdSeamt_some d hp (seamRead_vertical s h hi),
      fun h hi => crrdSeamt_some d hp (seamRead_horizontal s h hi), fun h hi => ?_,
      fun hu h => crrdSeamt_none d hp (seamRead_none s h) hu⟩
    have entry := crrdSeamt_some d hp (seamRead_region s h hi)
    exact ⟨fun up => offsetEntry_up up ▸ entry, fun down => offsetEntry_down down ▸ entry⟩
  · have e := exec_crrdSeamt s d a
    rw [consume_poison hp] at e
    exact completes_trapTaken e hu

end Sys2Proof.Machine
end

section
/-! `CRWR` (R177): which body each form runs, what a write makes of `FPCR`, a counter and LEVEL, and what it leaves. -/

namespace Sys2Proof.Machine

/-! ## `CRWR`: which body each form runs (R177) -/

theorem exec_crwr {n : Cr} (s : State) (a : GR) (w : Cr.writeRow n = true) :
    exec (.crwr a n) s = s.finish 4 (s.crOpen n (s.consume a (s.atS (s.crWrite n (s.gv a))))) :=
  congrArg (s.finish 4) (legal_wellFormed (i := .crwr a n) w s _)
theorem exec_crwrFpcr (s : State) (a : GR) : exec (.crwrFpcr a) s = s.finish 4 (s.consume a
    (.ok (s.onRegs fun q => { q with fpcr := fpcrWrite s.core.ctl.priv q.fpcr (s.gv a) }))) := rfl
theorem exec_crwrTid (s : State) (a : GR) : exec (.crwrTid a) s = s.finish 4 (s.consume a
    (s.atS (s.onCtl fun k => { k with slot := (s.gv a).setWidth 4 }))) := rfl
theorem exec_crwrTcmp (s : State) (a : GR) : exec (.crwrTcmp a) s = s.finish 4 (s.consume a
    (s.atS (s.onSlot fun t => { t with tcmp := s.gv a }))) := rfl
theorem exec_crwrPrio (s : State) (a : GR) : exec (.crwrPrio a) s = s.finish 4 (s.consume a
    (s.atS { s with core := s.core.setLevel s.core.ctl.slot ((s.gv a).setWidth 2) })) := rfl
theorem exec_crwrTstat (s : State) (a : GR) : exec (.crwrTstat a) s = s.finish 4 (s.crOpen .tstat (s.consume a
    (s.atS (s.onSlot fun t =>
      { t with pend := t.pend &&& ~~~((s.gv a).extractLsb' 8 6), cutPend := t.cutPend && !(s.gv a).getLsbD 9 })))) := rfl
theorem exec_crwrRigs (s : State) (a : GR) : exec (.crwrRigs a) s = s.finish 4 (s.consume a
    (if s.core.ctl.riga then .trap .illegal s.parcel
      else s.atS (s.onRegs fun q => { q with rigs := Rigs.ofWord (s.gv a) }))) := rfl
theorem exec_crwrSscr (s : State) (a : GR) : exec (.crwrSscr a) s =
    s.finish 4 (s.crOpen .sscr (s.atS (s.onCtl fun k => { k with sscr := ⟨s.gv a, s.gp a⟩ }))) := rfl

/-! A write at U of a register that U only reads, of one without a U view, and of a poisoned source. -/

theorem readOnly_kept {i : Instr} {s t : State} {a : GR} (e : exec i s = s.finish 4 (s.consume a (s.atS t)))
    (hp : s.gp a = false) (hu : s.core.ctl.priv = .u) : Completes i s fun t => OnlyPc s t (s.pc + 4) := by
  rw [consume_clean hp, atS_u hu] at e
  exact completes_ok e (commit_onlyPc s)
theorem closed_denied {i : Instr} {s : State} {n : Cr} {r : Res} (e : exec i s = s.finish 4 (s.crOpen n r))
    (hc : crClosed n = true) (hu : s.core.ctl.priv = .u) : Completes i s fun t => TrapTaken s t .priv s.parcel s.pc := by
  rw [crOpen_closed hu hc] at e
  exact completes_trapTaken e hu
theorem source_spoiled {i : Instr} {s : State} {a : GR} {r : Res} (e : exec i s = s.finish 4 (s.consume a r))
    (hu : s.core.ctl.priv = .u) (hp : s.gp a = true) : Completes i s fun t => TrapTaken s t .poison 0 s.pc := by
  rw [consume_poison hp] at e
  exact completes_trapTaken e hu
/-- A register with a row of `CRWR` that U reads. -/
theorem exec_crwr_open {n : Cr} (s : State) (a : GR) (w : Cr.writeRow n = true)
    (h : s.core.ctl.priv = .s ∨ crClosed n = false) :
    exec (.crwr a n) s = s.finish 4 (s.consume a (s.atS (s.crWrite n (s.gv a)))) := by
  rw [exec_crwr s a w, crOpen_open h]

/-! ## `FPCR` after a write (R47) -/

theorem fpcrWrite_modes (p : Priv) (old : BitVec 14) (v : BitVec 64) :
    (fpcrWrite p old v).extractLsb' 0 5 = v.extractLsb' 0 5 := by
  refine BitVec.eq_of_getLsbD_eq fun i hi => ?_
  cases p <;> interval_cases i <;> simp [fpcrWrite]
theorem fpcrWrite_reserved (p : Priv) (old : BitVec 14) (v : BitVec 64) : (fpcrWrite p old v).extractLsb' 5 3 = 0 := by
  refine BitVec.eq_of_getLsbD_eq fun i hi => ?_
  cases p <;> interval_cases i <;> simp [fpcrWrite]
/-- At S the flags are those of the source. -/
theorem fpcrWrite_flags_s (old : BitVec 14) (v : BitVec 64) :
    (fpcrWrite .s old v).extractLsb' 8 6 = v.extractLsb' 8 6 := by
  refine BitVec.eq_of_getLsbD_eq fun i hi => ?_
  interval_cases i <;> simp [fpcrWrite]
/-- At U a flag written as 1 clears. -/
theorem fpcrWrite_flags_u (old : BitVec 14) (v : BitVec 64) :
    (fpcrWrite .u old v).extractLsb' 8 6 = old.extractLsb' 8 6 &&& ~~~(v.extractLsb' 8 6) := by
  refine BitVec.eq_of_getLsbD_eq fun i hi => ?_
  interval_cases i <;> simp [fpcrWrite]

/-- A dword as the address of a parcel: its low 16 bits, of them the two lowest 0 (R50). -/
theorem parcel_address (v : BitVec 64) : v.setWidth 16 &&& 0xFFFC = v.extractLsb' 2 14 ++ (0 : BitVec 2) := by
  rw [parcel_fields]
  congr 1
  refine BitVec.eq_of_getLsbD_eq fun i hi => ?_
  have inside : 2 + i < 16 := by omega
  simp [inside]

/-! ## What a write leaves -/

/-- General registers, the vector side and everything outside the core are as before. -/
def KeepsRest (s t : State) : Prop := KeepsG s t ∧ SameV s t ∧ SameOutside s t
/-- Only the slot in `TID.SLOT` and the control registers of a commit may differ. -/
def KeepsOtherSlots (s t : State) : Prop :=
  t.core.sh = s.core.sh ∧ t.core.regs = s.core.regs ∧ ∀ j, j ≠ s.core.ctl.slot → t.core.slot j = s.core.slot j

/-- A body that changes control registers alone, and what the commit makes of them. -/
theorem completes_onCtl {i : Instr} {s : State} {f : Ctl → Ctl} {P : State → Prop}
    (e : exec i s = s.finish 4 (.ok (s.onCtl f))) (h : P ((s.onCtl f).commit 4)) :
    Completes i s fun t => P t ∧ KeepsRest s t ∧ (t.core.slots = s.core.slots ∧ t.core.sh = s.core.sh) ∧
      t.core.regs = s.core.regs :=
  completes_ok e ⟨h, ⟨rfl, ⟨rfl, rfl, rfl⟩, rfl⟩, ⟨rfl, rfl⟩, rfl⟩

theorem slot_onSlot (c : Core) (i j : SlotId) (f : Slot → Slot) :
    (c.onSlot i f).slot j = if j = i then f (c.slot i) else c.slot j := bget_bset c.slots i j _ _
/-- A body that changes the slot in `TID.SLOT` alone. -/
theorem completes_onSlot {i : Instr} {s : State} {f : Slot → Slot} {P : Slot → Prop}
    (e : exec i s = s.finish 4 (.ok (s.onSlot f))) (h : P (f s.slot)) :
    Completes i s fun t => P t.slot ∧ KeepsRest s t ∧ KeepsOtherSlots s t ∧ Passes s t (s.pc + 4) := by
  have own : ((s.onSlot f).commit 4).slot = f s.slot := (slot_onSlot s.core _ _ f).trans (if_pos rfl)
  have others : KeepsOtherSlots s ((s.onSlot f).commit 4) :=
    ⟨rfl, rfl, fun j hj => (slot_onSlot s.core _ j f).trans (if_neg hj)⟩
  exact completes_ok e ⟨own ▸ h, ⟨rfl, ⟨rfl, rfl, rfl⟩, rfl⟩, others, rfl⟩

/-- What a commit makes of a body that changes slots and queueing alone. -/
theorem commit_sameBut {s : State} {d : Core} (h : s.core.SameBut d) :
    let t := { s with core := d }.commit 4
    t.slot = d.slot s.core.ctl.slot ∧ KeepsRest s t ∧ (∀ j, t.core.slot j = d.slot j) ∧ t.core.sh = d.sh := by
  obtain ⟨regs, ctl, eng, _⟩ := h
  have slot : d.ctl.slot = s.core.ctl.slot := congrArg Ctl.slot ctl
  exact ⟨congrArg d.slot slot, ⟨congrArg Regs.g regs, ⟨congrArg Regs.v regs, congrArg Regs.m regs, eng⟩, rfl⟩,
    fun _ => rfl, rfl⟩

/-! ## A counter that is set (R53) -/

/-- A counter after n events of code e. -/
def counted (e n : Nat) (w : BitVec 64) : BitVec 64 :=
  if (w >>> 48).toNat = e then (w &&& 0xFFFF000000000000) ||| ((w + BitVec.ofNat 64 n) &&& 0x0000FFFFFFFFFFFF) else w
theorem bget_countN (c : Core) (e n : Nat) (i : BitVec 3) :
    bget (c.countN e n).ctl.pmc i = counted e n (bget c.ctl.pmc i) := by
  simp [bget, Core.countN, counted]
theorem counted_event (e n : Nat) (w : BitVec 64) : (counted e n w).extractLsb' 48 16 = w.extractLsb' 48 16 := by
  unfold counted
  split
  · refine BitVec.eq_of_getLsbD_eq fun i hi => ?_
    interval_cases i <;> simp
  · rfl
/-- An event that counts raises COUNT by 1, modulo 2^48. -/
theorem counted_count (w : BitVec 64) :
    (counted 2 1 w).extractLsb' 0 48 = w.extractLsb' 0 48 + (if w.extractLsb' 48 16 = 2 then 1 else 0) := by
  have event : (w >>> 48).toNat = 2 ↔ w.extractLsb' 48 16 = 2 := by
    rw [← BitVec.toNat_inj]
    have := w.isLt
    simp [Nat.shiftRight_eq_div_pow]
    omega
  unfold counted
  simp only [event]
  split
  · have low : ((w &&& 0xFFFF000000000000) ||| ((w + BitVec.ofNat 64 1) &&& 0x0000FFFFFFFFFFFF)).extractLsb' 0 48 =
        (w + BitVec.ofNat 64 1).extractLsb' 0 48 := by
      refine BitVec.eq_of_getLsbD_eq fun i hi => ?_
      interval_cases i <;> simp
    rw [low, ← BitVec.setWidth_eq_extractLsb' (by decide), ← BitVec.setWidth_eq_extractLsb' (by decide),
      BitVec.setWidth_add _ _ (by decide)]
    rfl
  · simp

/-! ## A slot that takes a new LEVEL (R49, R84) -/

theorem levelFor_eq (p : Bool) (v : BitVec 64) :
    levelFor p (v.setWidth 2) = if v.extractLsb' 0 2 = 3 ∧ p = false then 2 else v.extractLsb' 0 2 := by
  rw [← BitVec.setWidth_eq_extractLsb' (by decide)]
  simp [levelFor]

theorem onSlot_fixed {c : Core} {i : SlotId} {f : Slot → Slot} (h : f (c.slot i) = c.slot i) : c.onSlot i f = c := by
  have same : f (bget c.slots i) = bget c.slots i := h
  have slots : bset c.slots i (f (bget c.slots i)) = c.slots := by rw [same, bset, bget, Vector.set_getElem_self]
  rw [Core.onSlot, slots]
/-- A slot that stands in no FIFO, or has the LEVEL already, takes it in its place. -/
theorem setLevel_unqueued {c : Core} {i : SlotId} {v lv : BitVec 2} (new : levelFor (c.slot i).paddle v = lv)
    (h : (c.slot i).qd = false ∨ (c.slot i).level = lv) : c.setLevel i v = c.onSlot i fun t => { t with level := lv } := by
  unfold Core.setLevel
  dsimp only
  rw [new]
  split
  · next e => exact (onSlot_fixed (by rw [← e])).symm
  · next e => rw [if_neg (by simpa [e] using h)]

/-- A field that a slot keeps when its record is replaced. -/
theorem replaced_slot_field {α : Type} {c : Core} {i : SlotId} {x : Slot} (g : Slot → α) (h : g x = g (c.slot i)) (j : SlotId) :
    g (if j = i then x else c.slot j) = g (c.slot j) := by
  split
  · next e => rw [h, e]
  · rfl
theorem running_congr {c d : Core} (h : ∀ j, (d.slot j).st = (c.slot j).st) : d.running = c.running := by
  simp [Core.running, h]

@[simp] theorem unqueue_slot (c : Core) (i j : SlotId) :
    (c.unqueue i).slot j = if j = i then { c.slot i with qd := false } else c.slot j := 
  slot_onSlot c i j fun t => { t with qd := false }
@[simp] theorem unqueue_fifo (c : Core) (i : SlotId) (l : BitVec 2) :
    bget (c.unqueue i).sh.fifo l = (bget c.sh.fifo l).filter (· != i) := by
  simp [Core.unqueue, Core.onSlot, bget]

/-- A core with a slot marked as queued and at the tail of the FIFO of its LEVEL (R77). -/
def Core.toTail (c : Core) (i : SlotId) : Core :=
  let d := c.onSlot i fun t => { t with qd := true }
  { d with sh := { d.sh with fifo := bset d.sh.fifo (c.slot i).level (bget d.sh.fifo (c.slot i).level ++ [i]) } }
theorem toTail_slot (c : Core) (i j : SlotId) :
    (c.toTail i).slot j = if j = i then { c.slot i with qd := true } else c.slot j :=
  slot_onSlot c i j fun t => { t with qd := true }
theorem toTail_fifo (c : Core) (i : SlotId) (l : BitVec 2) :
    bget (c.toTail i).sh.fifo l = if l = (c.slot i).level then bget c.sh.fifo l ++ [i] else bget c.sh.fifo l := by
  refine (bget_bset c.sh.fifo _ l _ _).trans ?_
  split
  · next h => rw [h]; rfl
  · rfl
theorem toTail_level (c : Core) (i j : SlotId) : ((c.toTail i).slot j).level = (c.slot j).level := by
  rw [toTail_slot]
  exact replaced_slot_field Slot.level (by rfl) j
theorem toTail_running (c : Core) (i : SlotId) : (c.toTail i).running = c.running := running_congr fun j => by
  rw [toTail_slot]
  exact replaced_slot_field Slot.st (by rfl) j
/-- Queueing raises PREEMPT in the running slot of a higher LEVEL, and else only appends (R84). -/
theorem enqueue_cases (c : Core) (i : SlotId) :
    (∃ r, c.running = some r ∧ (c.slot i).level < (c.slot r).level ∧
      c.enqueue i = (c.toTail i).onSlot r fun t => t.pendOn 1 0) ∨
    ((∀ r, c.running = some r → ¬ (c.slot i).level < (c.slot r).level) ∧ c.enqueue i = c.toTail i) := by
  have e : c.enqueue i = match (c.toTail i).running with
      | some r => if decide ((c.slot i).level < ((c.toTail i).slot r).level)
          then (c.toTail i).onSlot r fun t => t.pendOn 1 0 else c.toTail i
      | none => c.toTail i := rfl
  rw [toTail_running] at e
  cases hr : c.running with
  | none => exact .inr ⟨fun _ h => by simp at h, by rw [e, hr]⟩
  | some r =>
    simp only [hr, toTail_level, decide_eq_true_eq] at e
    by_cases hl : (c.slot i).level < (c.slot r).level
    · exact .inl ⟨r, rfl, hl, by rw [e, if_pos hl]⟩
    · refine .inr ⟨fun q hq => ?_, by rw [e, if_neg hl]⟩
      cases hq
      exact hl
theorem enqueue_fifo (c : Core) (i : SlotId) (l : BitVec 2) :
    bget (c.enqueue i).sh.fifo l = if l = (c.slot i).level then bget c.sh.fifo l ++ [i] else bget c.sh.fifo l := by
  rcases enqueue_cases c i with ⟨_, _, _, e⟩ | ⟨_, e⟩ <;> rw [e] <;> exact toTail_fifo c i l
/-- A slot that does not run is as the append leaves it. -/
theorem enqueue_slot {c : Core} {i j : SlotId} (h : c.running = some j → ¬ (c.slot i).level < (c.slot j).level) :
    (c.enqueue i).slot j = (c.toTail i).slot j := by
  rcases enqueue_cases c i with ⟨r, hr, hl, e⟩ | ⟨_, e⟩
  · have : j ≠ r := by rintro rfl; exact h hr hl
    rw [e, slot_onSlot, if_neg this]
  · rw [e]
/-- The running slot of a higher LEVEL has PREEMPT pending. -/
theorem enqueue_preempts {c : Core} {i j : SlotId} (h : c.running = some j) (hl : (c.slot i).level < (c.slot j).level) :
    (c.enqueue i).slot j = ((c.toTail i).slot j).pendOn 1 0 := by
  rcases enqueue_cases c i with ⟨r, hr, _, e⟩ | ⟨hn, _⟩
  · obtain rfl : r = j := by simpa [h] using hr.symm
    rw [e, slot_onSlot, if_pos rfl]
  · exact absurd hl (hn j h)
theorem enqueue_same_but_pend (c : Core) (i j : SlotId) :
    { (c.enqueue i).slot j with pend := ((c.toTail i).slot j).pend, pendVal := ((c.toTail i).slot j).pendVal } =
      (c.toTail i).slot j := by
  rcases enqueue_cases c i with ⟨r, _, _, e⟩ | ⟨_, e⟩
  · rw [e, slot_onSlot]
    split
    · next h => subst h; rfl
    · rfl
  · rw [e]
theorem enqueue_level (c : Core) (i j : SlotId) : ((c.enqueue i).slot j).level = (c.slot j).level :=
  (congrArg Slot.level (enqueue_same_but_pend c i j)).trans (toTail_level c i j)

/-- A slot out of its FIFO, with a new LEVEL: how a move to another FIFO begins. -/
def Core.relevel (c : Core) (i : SlotId) (lv : BitVec 2) : Core := (c.unqueue i).onSlot i fun t => { t with level := lv }
theorem relevel_slot (c : Core) (i j : SlotId) (lv : BitVec 2) :
    (c.relevel i lv).slot j = if j = i then { c.slot i with qd := false, level := lv } else c.slot j := by
  rw [Core.relevel, slot_onSlot, unqueue_slot, unqueue_slot, if_pos rfl]
  split <;> rfl
theorem relevel_running (c : Core) (i : SlotId) (lv : BitVec 2) : (c.relevel i lv).running = c.running :=
  running_congr fun j => by
    rw [relevel_slot]
    exact replaced_slot_field Slot.st (by rfl) j
/-- The slot moves to the tail of the FIFO of its new LEVEL (R49). -/
theorem setLevel_queued {c : Core} {i : SlotId} {v lv : BitVec 2} (new : levelFor (c.slot i).paddle v = lv)
    (hq : (c.slot i).qd = true) (hl : (c.slot i).level ≠ lv) : c.setLevel i v = (c.relevel i lv).enqueue i := by
  simp [Core.setLevel, Core.relevel, new, hq, hl]

section
variable (c : Core) (i : SlotId) (lv : BitVec 2)

theorem moved_fifo (l : BitVec 2) : bget ((c.relevel i lv).enqueue i).sh.fifo l =
    if l = lv then (bget c.sh.fifo l).filter (· != i) ++ [i] else (bget c.sh.fifo l).filter (· != i) := by
  have level : ((c.relevel i lv).slot i).level = lv := by rw [relevel_slot, if_pos rfl]
  have out : bget (c.relevel i lv).sh.fifo l = (bget c.sh.fifo l).filter (· != i) := unqueue_fifo c i l
  rw [enqueue_fifo, level, out]
theorem relevel_toTail_slot (j : SlotId) :
    ((c.relevel i lv).toTail i).slot j = if j = i then { c.slot i with level := lv, qd := true } else c.slot j := by
  rw [toTail_slot, relevel_slot, relevel_slot, if_pos rfl]
  split <;> rfl
theorem moved_own : ((c.relevel i lv).enqueue i).slot i = { c.slot i with level := lv, qd := true } := by
  rw [enqueue_slot fun _ => BitVec.lt_irrefl _, relevel_toTail_slot, if_pos rfl]
theorem moved_other {j : SlotId} (hj : j ≠ i) :
    { ((c.relevel i lv).enqueue i).slot j with pend := (c.slot j).pend, pendVal := (c.slot j).pendVal } = c.slot j := by
  have h := enqueue_same_but_pend (c.relevel i lv) i j
  rwa [relevel_toTail_slot, if_neg hj] at h
theorem moved_idle {j : SlotId} (hj : j ≠ i) (hr : c.running ≠ some j) :
    ((c.relevel i lv).enqueue i).slot j = c.slot j := by
  rw [enqueue_slot (fun h => absurd (relevel_running c i lv ▸ h) hr), relevel_toTail_slot, if_neg hj]
theorem moved_preempts {j : SlotId} (hr : c.running = some j) (hl : lv < (((c.relevel i lv).enqueue i).slot j).level) :
    (((c.relevel i lv).enqueue i).slot j).pend.getLsbD 1 = true := by
  have level : ((c.relevel i lv).slot i).level = lv := by rw [relevel_slot, if_pos rfl]
  rw [enqueue_level] at hl
  rw [enqueue_preempts ((relevel_running c i lv).trans hr) (level.symm ▸ hl)]
  simp [Slot.pendOn]
end

/-! ## What each `CRWR` does at S -/

section
variable {s : State} {a : GR}

theorem crwrFpcr_completes (hp : s.gp a = false) : Completes (.crwrFpcr a) s fun t =>
    t.fpcr = fpcrWrite s.core.ctl.priv s.fpcr (s.gv a) ∧ KeepsRest s t ∧ SameTables s t ∧ Passes s t (s.pc + 4) := by
  have e := exec_crwrFpcr s a
  rw [consume_clean hp] at e
  exact completes_ok e ⟨rfl, ⟨rfl, ⟨rfl, rfl, rfl⟩, rfl⟩, ⟨rfl, rfl, rfl⟩, rfl⟩

variable (hp : s.gp a = false) (hs : s.core.ctl.priv = .s)
include hp hs

theorem crwrTid_completes : Completes (.crwrTid a) s fun t =>
    t.core.ctl = { s.ctlAt (s.pc + 4) with slot := (s.gv a).setWidth 4 } ∧ KeepsRest s t ∧
    (t.core.slots = s.core.slots ∧ t.core.sh = s.core.sh) ∧ t.core.regs = s.core.regs := by
  have e := exec_crwrTid s a
  rw [consume_clean hp, atS_s hs] at e
  exact completes_onCtl (P := fun t => t.core.ctl = _) e rfl
theorem crwrTcmp_completes : Completes (.crwrTcmp a) s fun t =>
    t.slot = { s.slot with tcmp := s.gv a } ∧ KeepsRest s t ∧ KeepsOtherSlots s t ∧ Passes s t (s.pc + 4) := by
  have e := exec_crwrTcmp s a
  rw [consume_clean hp, atS_s hs] at e
  exact completes_onSlot (P := fun x => x = _) e rfl
theorem crwrTstat_completes : Completes (.crwrTstat a) s fun t =>
    { t.slot with cutPend := s.slot.cutPend } = { s.slot with pend := s.slot.pend &&& ~~~((s.gv a).extractLsb' 8 6) } ∧
    KeepsRest s t ∧ KeepsOtherSlots s t ∧ Passes s t (s.pc + 4) := by
  have e := exec_crwrTstat s a
  rw [crOpen_open (.inl hs), consume_clean hp, atS_s hs] at e
  exact completes_onSlot (P := fun x => { x with cutPend := s.slot.cutPend } =
    { s.slot with pend := s.slot.pend &&& ~~~((s.gv a).extractLsb' 8 6) }) e rfl
theorem crwrRigs_completes (hr : s.core.ctl.riga = false) : Completes (.crwrRigs a) s fun t =>
    t.core.regs = { s.core.regs with rigs := Rigs.ofWord (s.gv a) } ∧ KeepsRest s t ∧
    (t.core.slots = s.core.slots ∧ t.core.sh = s.core.sh) ∧ Passes s t (s.pc + 4) := by
  have e := exec_crwrRigs s a
  rw [consume_clean hp, atS_s hs, hr] at e
  exact completes_ok e ⟨rfl, ⟨rfl, ⟨rfl, rfl, rfl⟩, rfl⟩, ⟨rfl, rfl⟩, rfl⟩
theorem crwrPrio_unqueued {lv : BitVec 2} (new : levelFor s.slot.paddle ((s.gv a).setWidth 2) = lv)
    (h : s.slot.qd = false ∨ s.slot.level = lv) : Completes (.crwrPrio a) s fun t =>
      t.slot = { s.slot with level := lv } ∧ KeepsRest s t ∧ KeepsOtherSlots s t ∧ Passes s t (s.pc + 4) := by
  have e := exec_crwrPrio s a
  rw [consume_clean hp, atS_s hs, setLevel_unqueued new h] at e
  exact completes_onSlot (f := fun t => { t with level := lv }) (P := fun x => x = _) e rfl
theorem crwrPrio_queued {lv : BitVec 2} (new : levelFor s.slot.paddle ((s.gv a).setWidth 2) = lv)
    (hq : s.slot.qd = true) (hl : s.slot.level ≠ lv) : Completes (.crwrPrio a) s fun t =>
      let d := (s.core.relevel s.core.ctl.slot lv).enqueue s.core.ctl.slot
      t.slot = { s.slot with level := lv, qd := true } ∧ KeepsRest s t ∧ (∀ j, t.core.slot j = d.slot j) ∧
      t.core.sh = d.sh := by
  have e := exec_crwrPrio s a
  rw [consume_clean hp, atS_s hs, setLevel_queued new hq hl] at e
  have same : s.core.SameBut ((s.core.relevel s.core.ctl.slot lv).enqueue s.core.ctl.slot) :=
    Core.enqueue_same (s.core.relevel _ _) _
  obtain ⟨own, hrest⟩ := commit_sameBut same
  exact completes_ok e ⟨own.trans (moved_own s.core s.core.ctl.slot lv), hrest⟩
/-- A register of the common row: what S writes of it. -/
theorem exec_crwr_s {n : Cr} (w : Cr.writeRow n = true) :
    exec (.crwr a n) s = s.finish 4 (.ok (s.crWrite n (s.gv a))) := by
  rw [exec_crwr s a w, crOpen_open (.inl hs), consume_clean hp, atS_s hs]
theorem crwr_setsCtl {n : Cr} {k : Ctl} (w : Cr.writeRow n = true)
    (h : s.crWrite n (s.gv a) = s.onCtl fun _ => (s.crWrite n (s.gv a)).core.ctl)
    (hk : ((s.crWrite n (s.gv a)).commit 4).core.ctl = k) : Completes (.crwr a n) s fun t => t.core.ctl = k ∧ KeepsRest s t ∧
      (t.core.slots = s.core.slots ∧ t.core.sh = s.core.sh) ∧ t.core.regs = s.core.regs := by
  have e := exec_crwr_s hp hs w
  rw [h] at e
  exact completes_onCtl (P := fun t => t.core.ctl = k) e (by rw [← h]; exact hk)
theorem crwr_counter (i : BitVec 3) : Completes (.crwr a (.pmc i)) s fun t =>
    bget t.core.ctl.pmc i = counted 2 1 (s.gv a) ∧
    (∀ j, j ≠ i → bget t.core.ctl.pmc j = bget (s.ctlAt s.pc).pmc j) ∧
    { t.core.ctl with pmc := s.core.ctl.pmc } = { s.core.ctl with pc := s.pc + 4, issue := .run } ∧
    KeepsRest s t ∧ (t.core.slots = s.core.slots ∧ t.core.sh = s.core.sh) ∧ t.core.regs = s.core.regs := by
  have at' (j : BitVec 3) : bget ((s.crWrite (.pmc i) (s.gv a)).commit 4).core.ctl.pmc j =
      counted 2 1 (if j = i then s.gv a else bget s.core.ctl.pmc j) := by
    rw [← bget_bset _ _ _ _ (by decide)]
    exact bget_countN _ 2 1 j
  have others (j : BitVec 3) (hj : j ≠ i) : bget ((s.crWrite (.pmc i) (s.gv a)).commit 4).core.ctl.pmc j =
      bget (s.ctlAt s.pc).pmc j := by
    rw [at', if_neg hj]
    exact (bget_countN _ 2 1 j).symm
  have own := at' i
  rw [if_pos rfl] at own
  exact completes_ok (exec_crwr_s hp hs rfl) ⟨own, others, rfl, ⟨rfl, ⟨rfl, rfl, rfl⟩, rfl⟩, ⟨rfl, rfl⟩, rfl⟩
end

/-- Settles O11: each form's body at U and at S, the fields of `FPCR` and of a counter, and the move of a queued slot to the
tail of its new FIFO. -/
theorem controlRegisterWrites : Obligations.ControlRegisterWrites := by
  unfold Obligations.ControlRegisterWrites
  intro rest tables slots fields
  refine ⟨fun s a hp => ?_, fun s a hp hu => ?_, fun s a hu => ?_, fun s a hp hs => ?_, fun s a hs => ?_⟩
  · obtain ⟨t, e, hf, hrest⟩ := crwrFpcr_completes hp
    refine ⟨t, e, ?_, ?_, ?_, hrest⟩ <;> rw [hf]
    · exact fpcrWrite_modes _ _ _
    · exact fpcrWrite_reserved _ _ _
    · cases s.core.ctl.priv
      · exact fpcrWrite_flags_u _ _
      · exact fpcrWrite_flags_s _ _
  · have row {n : Cr} (w : Cr.writeRow n = true) (hc : crClosed n = false) :=
      readOnly_kept (exec_crwr_open s a w (.inr hc)) hp hu
    have rigs := exec_crwrRigs s a
    refine ⟨readOnly_kept (exec_crwrTid s a) hp hu, readOnly_kept (exec_crwrTcmp s a) hp hu,
      readOnly_kept (exec_crwrPrio s a) hp hu, fun hr => ?_, fun n hn => ?_, fun i => row rfl rfl, fun hr => ?_⟩
    · exact readOnly_kept (rigs.trans (by rw [hr]; rfl)) hp hu
    · fin_cases hn <;> exact row rfl rfl
    · rw [consume_clean hp, hr] at rigs
      exact completes_trapTaken rigs hu
  · have row {n : Cr} (w : Cr.writeRow n = true) (hc : crClosed n = false) :=
      source_spoiled (exec_crwr_open s a w (.inr hc)) hu
    refine ⟨closed_denied (exec_crwrTstat s a) rfl hu, closed_denied (exec_crwrSscr s a) rfl hu, fun n hn => ?_,
      source_spoiled (exec_crwrFpcr s a) hu, source_spoiled (exec_crwrTid s a) hu, source_spoiled (exec_crwrTcmp s a) hu,
      source_spoiled (exec_crwrPrio s a) hu, source_spoiled (exec_crwrRigs s a) hu, fun n hn => ?_, fun i => row rfl rfl⟩
    · fin_cases hn <;> exact closed_denied (exec_crwr s a rfl) rfl hu
    · fin_cases hn <;> exact row rfl rfl
  · intro v lv me
    have level : levelFor s.slot.paddle (v.setWidth 2) = lv := levelFor_eq _ _
    refine ⟨crwrTid_completes hp hs, crwrTcmp_completes hp hs, crwrPrio_unqueued hp hs level, fun hq hl => ?_,
      crwrTstat_completes hp hs, crwrRigs_completes hp hs, crwr_setsCtl hp hs rfl rfl ?_, crwr_setsCtl hp hs rfl rfl rfl,
      crwr_setsCtl hp hs rfl rfl rfl, crwr_setsCtl hp hs rfl rfl rfl, fun i => ?_, fun n hn => ?_⟩
    · obtain ⟨t, e, hslot, hrest, hslots, hsh⟩ := crwrPrio_queued hp hs level hq hl
      have fifo (l : BitVec 2) := congrArg (fun h : Shared => bget h.fifo l) hsh |>.trans (moved_fifo s.core me lv l)
      refine ⟨t, e, by rw [hslot], by rw [hslot], by rw [hslot], hrest, ?_, fun l hl => ?_, fun j hj => ?_,
        fun j hj hr => ?_, fun j hr h => ?_⟩
      · rw [fifo, if_pos rfl]
      · rw [fifo, if_neg hl]
      · rw [hslots]
        exact moved_other s.core me lv hj
      · rw [hslots]
        exact moved_idle s.core me lv hj hr
      · rw [hslots] at h ⊢
        exact moved_preempts s.core me lv hr h
    · exact congrArg (fun x => { s.ctlAt (s.pc + 4) with tpc := x }) (parcel_address v)
    · obtain ⟨t, e, own, hrest⟩ := crwr_counter hp hs i
      refine ⟨t, e, ?_, ?_, hrest⟩ <;> rw [own]
      · exact counted_event 2 1 v
      · exact counted_count v
    · have e : exec (.crwr a n) s = s.finish 4 (.ok s) := by
        fin_cases hn <;> exact exec_crwr_s hp hs rfl
      exact completes_ok e (commit_onlyPc s)
  · have e := exec_crwrSscr s a
    rw [crOpen_open (.inl hs), atS_s hs] at e
    exact completes_onCtl (P := fun t => t.core.ctl = _) e rfl

end Sys2Proof.Machine
end

section
/-! A step of an empty agenda: what the passing of time changes, the row that runs (log entry 7), and the gate and vote at its end
(R345, R351). -/

namespace Sys2Proof.Machine

/-! ## The passing of time -/

/-- A core grown older: but for its performance counters and what woke in the tick it is as it was (R53, R92). -/
def Core.Aged (c d : Core) : Prop :=
  d = { c with ctl := { c.ctl with pmc := d.ctl.pmc }, sh := { c.sh with woke := d.sh.woke } } ∧
  (d.sh.woke = [] ∨ d.sh.woke = c.sh.woke)
theorem Core.Aged.refl (c : Core) : c.Aged c := ⟨rfl, .inr rfl⟩
theorem elapse_aged (s : State) (k d : Nat) (c : Core) : c.Aged (s.elapse k d c) := by
  refine ⟨rfl, ?_⟩
  by_cases h : d = 0
  · exact .inr (if_pos h)
  · exact .inl (if_neg h)
/-- A table whose entries have all aged, read at one key: an unlisted core is as it was. -/
theorem tget_map_aged (d : Core) (f : Nat → Core → Core) (h : ∀ j c, Core.Aged c (f j c)) (k : Nat) :
    ∀ t : Tbl Core, (tget d t k).Aged (tget d (t.map fun e => (e.1, f e.1 e.2)) k)
  | [] => Core.Aged.refl d
  | (j, c) :: r => by
    simp only [List.map_cons, tget]
    split
    · exact h j c
    · exact tget_map_aged d f h k r
theorem tick_coreAt (s : State) (k : Nat) : (s.coreAt k).Aged (s.tick.coreAt k) := by
  unfold State.coreAt
  rw [tick_here]
  split
  · exact elapse_aged s _ _ s.core
  · exact tget_map_aged _ _ (fun j c => elapse_aged s j _ c) k s.peers
theorem ticks_le_advance (c : Clock) (d : Nat) : c.ticks ≤ (c.advance d).ticks := by
  unfold Clock.advance
  dsimp only
  split <;> exact Nat.le_add_right _ _
theorem tick_leadUp (s : State) : s.tick.leadUp = s.leadUp := rfl

/-! ## A step's beginning with an empty agenda -/

theorem turnOp_nil {s : State} (h : s.agenda = []) : s.turnOp = none := by simp [State.turnOp, h]
/-- No turn names an instruction (R136). -/
theorem isTurn_instruction {i : Instr} (h : Instr.isEvent i = false) : Instr.isTurn i = false := by
  change (Instr.isEvent i && _) = false
  rw [h, Bool.false_and]
/-- A step that no turn begins: time passes, and a pass that is due runs. -/
theorem begin_nil {s : State} (h : s.agenda = []) : s.begin =
    let t := { s with met := [] }.tick
    (if (t.lead.passDue && t.leadUp) = true then t.pass else t).settleReads none := by
  unfold State.begin
  rw [turnOp_nil h]
  split
  · dsimp only
    simp only [tick_met, List.foldl_nil, endsGroup, Bool.not_false, Bool.and_true]
  · next e => simp [h] at e
/-- Time passes, and nothing else, where no admission pass is due and no read is still to be taken. -/
theorem begin_tick {s : State} (ha : s.agenda = []) (hp : (s.lead.passDue && s.leadUp) = false) (hl : s.core.sh.late = []) :
    s.begin = { s with met := [] }.tick := by
  have pass : ¬ ({ s with met := [] }.tick.lead.passDue && { s with met := [] }.tick.leadUp) = true := by
    rw [tick_lead, tick_leadUp]
    exact Bool.eq_false_iff.mp hp
  rw [begin_nil ha]
  dsimp only
  rw [if_neg pass]
  exact settleReads_nil none hl
theorem begin_aged {s : State} (h : s.begin = { s with met := [] }.tick) (k : Nat) : (s.coreAt k).Aged (s.begin.coreAt k) := by
  have before : { s with met := [] }.coreAt k = s.coreAt k := rfl
  rw [h, ← before]
  exact tick_coreAt _ k

/-! ## The row a step runs -/

/-- A core that issues, with no timer due and no cause to take, runs what it fetches. -/
theorem nextRow_fetch {s : State} (ht : s.dueTimer = none) (hi : s.core.ctl.issue = .run)
    (hc : s.core.ctl.priv = .s ∨ s.slot.pend = 0) : s.nextRow = some s.fetch.row := by
  unfold State.nextRow
  rw [ht, hi]
  rcases hc with hc | hc <;> simp [hc]
theorem syncFirst_false {s : State} (hc : s.core.ctl.priv = .s ∨ s.slot.pend = 0) : s.syncFirst = false := by
  rcases hc with hc | hc <;> simp [State.syncFirst, Ctl.takesAsync, hc]
theorem chosen_fetch {s : State} (ht : s.dueTimer = none) (hi : s.core.ctl.issue = .run)
    (hc : s.core.ctl.priv = .s ∨ s.slot.pend = 0) : s.chosen none = some s.fetch.row := by
  unfold State.chosen
  dsimp only
  rw [nextRow_fetch ht hi hc, syncFirst_false hc]
  split <;> rfl
theorem fetch_short {s : State} {i : Instr} (hp : s.poisoned (s.codeKey s.pc) = false)
    (hx : needsExt (s.parcelAt s.pc) = false) (hd : decode (s.parcelAt s.pc) 0 = .ok i) : s.fetch = .instr i := by
  simp [State.fetch, hp, hx, hd]
theorem fetch_long {s : State} {i : Instr} (hp : s.poisoned (s.codeKey s.pc) = false)
    (hp' : s.poisoned (s.codeKey (s.pc + 4)) = false) (hx : needsExt (s.parcelAt s.pc) = true)
    (hd : decode (s.parcelAt s.pc) (s.parcelAt (s.pc + 4)) = .ok i) : s.fetch = .instr i := by
  simp only [State.fetch, hp, hp', hx, hd, Bool.and_false, Bool.false_eq_true, ↓reduceIte]

/-! ## The gate and the vote at a step's end (R345, R351) -/

theorem keepsLead_of_same {t b : State} (hl : t.lead = b.lead) (hs : t.sites = b.sites) (hk : t.links = b.links)
    (hp : t.pages = b.pages) : t.keepsLead b = true := by
  have site (n : Nat) : t.site n = b.site n := by rw [State.site, hs]; rfl
  simp [State.keepsLead, hl, hk, hp, site]
theorem gated_noLead {b : State} (t : State) (h : b.lead.lead = none) : b.gated t = t := by
  simp [State.gated, State.mayChange, h]
/-- A triad's vote leaves every other site. -/
theorem voteTiles_site_ne {s : State} {n m : Nat} (h : m ≠ n) : (s.voteTiles [n]).site m = s.site m := by
  have vote : (s.vote n).site m = s.site m := (site_onTriad s n m _).trans (if_neg h)
  simp only [State.voteTiles, List.foldl_cons, List.foldl_nil]
  split
  · rfl
  · exact vote
/-- The end of a step is a vote of the lead's triad, or nothing. -/
theorem mirrored_cases (t old : State) :
    t.mirrored old = t ∨ ∃ n, t.lead.lead = some n ∧ t.mirrored old = t.voteTiles [n] := by
  unfold State.mirrored
  cases h : t.lead.lead with
  | none => exact .inl rfl
  | some n =>
    by_cases k : t.keepsLead old = true
    · exact .inl (if_pos k)
    · exact .inr ⟨n, rfl, if_neg k⟩

/-- Settles O31: with nothing due before it, the row a step runs is what the core fetches. -/
theorem stepRunsDecoded : Obligations.StepRunsDecoded := by
  refine ⟨fun s i ha ht hi hc hf => ?_, fun s b t => ⟨rfl, ?_, ?_, fun hl hs hk hp => ?_, ?_⟩, fun s ha hp hl => ?_,
    fun s i => fetch_short, fun s i => fetch_long, fun s k l m => ⟨fun i h => ?_, fun p => rfl, rfl⟩⟩
  · unfold step
    rw [turnOp_nil ha, chosen_fetch ht hi hc, hf]
    rfl
  · rcases gated_cases b t with ⟨h, _⟩ | ⟨h, _⟩
    · exact .inl h
    · exact .inr h
  · rintro (h | h | h)
    · exact gated_keeps h
    · exact gated_noLead t h
    · exact gated_leadUp t h
  · exact gated_keeps (keepsLead_of_same hl hs hk hp)
  · rcases mirrored_cases t s with h | ⟨n, hn, h⟩
    · exact .inl h
    · obtain ⟨frame, sites⟩ := voteTiles_same [n] t
      rw [h]
      exact .inr ⟨n, hn, frame, sites n, fun m hm => voteTiles_site_ne hm⟩
  · have h := begin_tick ha hp hl
    refine ⟨?_, begin_aged h, ?_⟩
    · rw [h]
      rfl
    · rw [h]
      exact ticks_le_advance s.clock _
  · exact Option.filter_some_neg (isTurn_instruction h)

end Sys2Proof.Machine
end

section
namespace Sys2Proof.Machine

/-! ## The home of a core's record -/

/-- The records that are not selected: none is that of key n, and each names its coordinate (R18, R48). -/
def OthersHomed (n : Nat) (t : Tbl Core) : Prop := ∀ e ∈ t, e.1 ≠ n ∧ e.2.at? e.1
/-- As homed, with key n selected, which need not be that of a core. -/
def State.HomedAt (s : State) (n : Nat) : Prop := s.here = n ∧ s.core.at? n ∧ OthersHomed n s.peers
/-- A body's state, if it gives one, is homed. -/
def Res.HomedAt (r : Res) (n : Nat) : Prop := ∀ t, r = .ok t → t.HomedAt n
/-- A row's next state is homed. -/
def NextHomed (o : Host.Outcome State Fault Refusal) (n : Nat) : Prop := ∀ t, o = .next t → t.HomedAt n

section
variable {c d : Core} {k : Nat}
theorem reset_at (k : Nat) : (Core.reset k).at? k := ⟨rfl, BitVec.eq_of_toNat_eq (by simp [Core.reset, Ctl.reset, keyY])⟩
theorem Core.SameBut.at_iff (h : c.SameBut d) : d.at? k ↔ c.at? k := by
  obtain ⟨_, hc, _⟩ := h
  unfold Core.at?
  rw [hc]
@[simp] theorem mk_at {r : Regs} {x : Ctl} {l : Vector Slot 16} {e : Engines} {q : Shared} :
    (Core.mk r x l e q).at? k ↔ x.tidX = BitVec.ofNat 9 (keyX k) ∧ x.tidY = BitVec.ofNat 8 (keyY k) := Iff.rfl
@[simp] theorem onSlot_at {i : SlotId} {f : Slot → Slot} : (c.onSlot i f).at? k ↔ c.at? k := Iff.rfl
end
section
variable {c : Core} {k : Nat} {i : SlotId}
theorem foldl_at {α : Type} {f : Core → α → Core} (h : ∀ c x, (f c x).at? k ↔ c.at? k) (l : List α) :
    ∀ c : Core, (l.foldl f c).at? k ↔ c.at? k := by
  induction l with
  | nil => exact fun _ => Iff.rfl
  | cons x l ih => exact fun c => (ih _).trans (h c x)
@[simp] theorem countN_at {e n : Nat} : (c.countN e n).at? k ↔ c.at? k := Iff.rfl
@[simp] theorem unqueue_at : (c.unqueue i).at? k ↔ c.at? k := Iff.rfl
@[simp] theorem enqueue_at : (c.enqueue i).at? k ↔ c.at? k := (Core.enqueue_same c i).at_iff
@[simp] theorem wake_at {w : BitVec 3} : (c.wake i w).at? k ↔ c.at? k := (Core.wake_same c i w).at_iff
@[simp] theorem raise_at {b : BitVec 3} {v : BitVec 64} : (c.raise i b v).at? k ↔ c.at? k := (Core.raise_same c i b v).at_iff
@[simp] theorem bump_at {a : Nat} {w : WC} : (c.bump i a w).at? k ↔ c.at? k := (Core.bump_same c i a w).at_iff
@[simp] theorem flags_at {a : Nat} {f : BitVec 6} : (c.flags i a f).at? k ↔ c.at? k := by
  unfold Core.flags
  (repeat' split) <;> rfl
@[simp] theorem trapSlots_at : c.trapSlots.at? k ↔ c.at? k := Iff.rfl
@[simp] theorem setLevel_at {v : BitVec 2} : (c.setLevel i v).at? k ↔ c.at? k := by
  unfold Core.setLevel
  grind [enqueue_at, onSlot_at, unqueue_at]
@[simp] theorem push_at {p : BitVec 2} : (c.push i p).2.at? k ↔ c.at? k := by
  unfold Core.push
  grind [enqueue_at, onSlot_at]
@[simp] theorem onSeat_at {n : Nat} {f : Seat → Seat} : (c.onSeat n f).at? k ↔ c.at? k := Iff.rfl
@[simp] theorem wakeSeat_at {n : Nat} : (c.wakeSeat n).at? k ↔ c.at? k := by
  unfold Core.wakeSeat
  grind [wake_at]
@[simp] theorem wakeJoins_at : c.wakeJoins.at? k ↔ c.at? k := foldl_at (by grind [wake_at]) _ c
@[simp] theorem clearSeat_at {n : Nat} : (c.clearSeat n).2.at? k ↔ c.at? k := by
  unfold Core.clearSeat
  extract_lets
  split
  · rfl
  · dsimp only
    rw [foldl_at (by grind [wake_at]), onSeat_at]
@[simp] theorem closeRounds_at {l : List Nat} : (c.closeRounds l).at? k ↔ c.at? k := foldl_at (fun _ _ => onSeat_at) l c
@[simp] theorem cutAtJoin_at : (c.cutAtJoin i).at? k ↔ c.at? k := by
  unfold Core.cutAtJoin
  grind [onSlot_at]
@[simp] theorem takeExpiry_at {t : BitVec 64} : (c.takeExpiry t i).at? k ↔ c.at? k := Iff.rfl
@[simp] theorem awaken_at {t : BitVec 64} : (c.awaken t i).2.at? k ↔ c.at? k := by
  unfold Core.awaken
  grind [wake_at, onSlot_at, takeExpiry_at]
@[simp] theorem expire_at : (c.expire i).at? k ↔ c.at? k := by
  unfold Core.expire
  grind [enqueue_at, onSlot_at, wake_at, raise_at]
@[simp] theorem requestDone_at {r : BitVec 16} {t : Nat} : (c.requestDone r t).at? k ↔ c.at? k := by
  unfold Core.requestDone
  dsimp only
  split <;> (try split) <;> rfl
@[simp] theorem rpcReplied_at {p : Packet} {t : Nat} : (c.rpcReplied p t).at? k ↔ c.at? k := by
  unfold Core.rpcReplied
  (repeat' split) <;> rfl
@[simp] theorem wakeBarriers_at {b : BitVec 3} : (c.wakeBarriers b).at? k ↔ c.at? k := by
  unfold Core.wakeBarriers
  exact foldl_at (by grind [wake_at]) _ _
@[simp] theorem watchHit_at {t a : BitVec 64} : (c.watchHit t i a).at? k ↔ c.at? k := by
  unfold Core.watchHit
  grind [wake_at, onSlot_at, takeExpiry_at]
theorem loadCore_at (g : Group) (key : BitVec 13) : (g.loadCore key k c).at? k := ⟨rfl, rfl⟩
@[simp] theorem wokenSleeps_at : c.wokenSleeps.at? k ↔ c.at? k := foldl_at (by grind [wake_at]) _ c
theorem restoreCore_at (g : Group) (key : BitVec 13) (t : BitVec 64) (saved : Core) : (g.restoreCore key t k c saved).at? k :=
  wokenSleeps_at.mpr ⟨rfl, rfl⟩
@[simp] theorem start_at {l : BitVec 2} {e : BitVec 16} : (c.start l e).at? k ↔ c.at? k := by
  unfold Core.start
  extract_lets d
  have same : d.at? k ↔ c.at? k := enqueue_at.trans onSlot_at
  clear_value d
  exact same
@[simp] theorem resumeIdle_at : c.resumeIdle.at? k ↔ c.at? k := by
  unfold Core.resumeIdle
  split <;> rfl
@[simp] theorem raiseSite_at {n : Nat} : (c.raiseSite n).at? k ↔ c.at? k := foldl_at (by grind [raise_at]) _ c
@[simp] theorem spoilG_at {r : GR} : (c.spoilG r).at? k ↔ c.at? k := Iff.rfl
end
section
variable {s : State} {n k : Nat}
theorem coreAt_at (h : s.HomedAt n) (k : Nat) : (s.coreAt k).at? k := by
  have listed : ∀ t : Tbl Core, (∀ e ∈ t, e.2.at? e.1) → (tget (Core.reset k) t k).at? k := fun t ht => by
    induction t with
    | nil => exact reset_at k
    | cons e r ih =>
      obtain ⟨j, c⟩ := e
      simp only [tget]
      split
      · next e => exact e ▸ ht (j, c) List.mem_cons_self
      · exact ih fun e he => ht e (List.mem_cons_of_mem _ he)
  obtain ⟨here, own, rest⟩ := h
  unfold State.coreAt
  split
  · next e => rw [e, here]; exact own
  · exact listed _ fun e he => (rest e he).2
theorem mem_tset {α : Type} [DecidableEq α] {d v : α} {t : Tbl α} {e : Nat × α} (h : e ∈ tset d t k v) : e = (k, v) ∨ e ∈ t := by
  unfold tset tdel at h
  split at h
  · exact .inr (List.mem_of_mem_filter h)
  · exact mem_tins k v t e h
theorem setCore_homed {c : Core} (h : s.HomedAt n) (hc : c.at? k) : (s.setCore k c).HomedAt n := by
  obtain ⟨here, own, rest⟩ := h
  unfold State.setCore
  split
  · next e => exact ⟨here, by rw [← here, ← e]; exact hc, rest⟩
  · next e =>
    refine ⟨here, own, fun x hx => ?_⟩
    rcases mem_tset hx with rfl | hx
    · exact ⟨fun q => e (here ▸ q), hc⟩
    · exact rest x hx
theorem onCore_homed {f : Core → Core} (h : s.HomedAt n) (hf : ∀ c, c.at? k → (f c).at? k) : (s.onCore k f).HomedAt n :=
  setCore_homed h (hf _ (coreAt_at h k))
theorem foldl_homed {α : Type} {f : State → α → State} (hf : ∀ s x, s.HomedAt n → (f s x).HomedAt n) (l : List α) :
    ∀ {s : State}, s.HomedAt n → (l.foldl f s).HomedAt n := by
  induction l with
  | nil => exact id
  | cons x l ih => exact fun h => ih (hf _ x h)
theorem onCores_homed {ks : List Nat} {f : Nat → Core → Core} (h : s.HomedAt n) (hf : ∀ k c, c.at? k → (f k c).at? k) :
    (s.onCores ks f).HomedAt n :=
  foldl_homed (fun _ _ h => onCore_homed h (hf _)) ks h
/-- Another key selected: its record comes from the others, and the former one goes among them. -/
theorem moveTo_homed (h : s.HomedAt n) (k : Nat) : (s.moveTo k).HomedAt k := by
  have hk := coreAt_at h k
  obtain ⟨here, own, rest⟩ := h
  unfold State.moveTo
  split
  · next e =>
    rw [e, here]
    exact ⟨here, own, rest⟩
  · refine ⟨rfl, hk, fun x hx => ?_⟩
    obtain ⟨hx, ne⟩ := List.mem_filter.mp hx
    refine ⟨by simpa using ne, ?_⟩
    rcases mem_tset hx with rfl | hx
    · exact here ▸ own
    · exact (rest x hx).2
theorem atCore_homed {f : State → State} (h : s.HomedAt n) (hf : ∀ {t : State} {j : Nat}, t.HomedAt j → (f t).HomedAt j) : (s.atCore k f).HomedAt n := by
  obtain ⟨here, _⟩ := id h
  exact here ▸ moveTo_homed (hf (moveTo_homed h k)) s.here
theorem elapse_at {c : Core} {j d : Nat} : (s.elapse j d c).at? k ↔ c.at? k := Iff.rfl
theorem tick_homed (h : s.HomedAt n) : s.tick.HomedAt n := by
  obtain ⟨here, own, rest⟩ := h
  refine ⟨here, own, fun x hx => ?_⟩
  obtain ⟨y, hy, rfl⟩ := List.mem_map.mp hx
  exact rest y hy
theorem mapCores_homed {f : Core → Core} (h : s.HomedAt n) (hf : ∀ k c, c.at? k → (f c).at? k) : (s.mapCores f).HomedAt n := by
  obtain ⟨here, own, rest⟩ := h
  refine ⟨here, hf _ _ own, fun x hx => ?_⟩
  obtain ⟨y, hy, rfl⟩ := List.mem_map.mp (List.mem_of_mem_filter hx)
  exact ⟨(rest y hy).1, hf _ _ (rest y hy).2⟩
theorem freshCores_homed {m : Nat} (h : s.HomedAt n) : (s.freshCores m).HomedAt n := by
  obtain ⟨here, own, rest⟩ := h
  refine ⟨here, ?_, fun x hx => rest x (List.mem_of_mem_filter hx)⟩
  unfold State.freshCores
  dsimp only
  split
  · exact here ▸ reset_at _
  · exact own
end
section
variable {s : State} {n m : Nat} {c : Cause} {v : BitVec 64}
theorem ok_homed : (Res.ok s).HomedAt n ↔ s.HomedAt n := ⟨fun h => h s rfl, fun h _ e => by cases e; exact h⟩
theorem trap_homed : (Res.trap c v).HomedAt n := fun _ e => nomatch e
theorem hold_homed : Res.hold.HomedAt n := fun _ e => nomatch e
theorem next_homed : NextHomed (.next s) n ↔ s.HomedAt n := ⟨fun h => h s rfl, fun h _ e => by cases e; exact h⟩
end
theorem State.HomedAt.own {s : State} {n : Nat} (h : s.HomedAt n) : s.core.at? n := h.2.1
/-- What stands outside the cores, and what of the selected record is not `TID`, has no part in homed. -/
theorem mk_homed {s : State} {n : Nat} {c : Core} {mem pois tags nodes net queued out clock sites power lead pages links boat agenda met draws}
    (h : s.HomedAt n) (hc : c.at? n) :
    (State.mk s.here c s.peers mem pois tags nodes net queued out clock sites power lead pages links boat agenda met draws).HomedAt n :=
  ⟨h.1, hc, h.2.2⟩

/-! ## The operations -/

section
variable {s : State} {me : Nat}
theorem poke_homed {a bs p} (h : s.HomedAt me) : (s.poke a bs p).HomedAt me := h
theorem retag_homed {a n f} (h : s.HomedAt me) : (s.retag a n f).HomedAt me := h
theorem select_homed {s : State} {k : Nat} (h : s.homed) : (s.select k).homed := by
  obtain ⟨core, own, rest⟩ := h
  unfold State.select
  split
  · next e =>
    obtain ⟨here, hk⟩ := moveTo_homed ⟨rfl, own, rest⟩ k
    rw [State.homed, here]
    exact ⟨e, hk⟩
  · exact ⟨core, own, rest⟩
theorem onNode_homed {k f} (h : s.HomedAt me) : (s.onNode k f).HomedAt me := h
theorem onSite_homed {n f} (h : s.HomedAt me) : (s.onSite n f).HomedAt me := h
theorem onGroup_homed {i f} (h : s.HomedAt me) : (s.onGroup i f).HomedAt me := h
theorem onCtl_homed {f : Ctl → Ctl} (h : s.HomedAt me)
    (hx : (f s.core.ctl).tidX = s.core.ctl.tidX) (hy : (f s.core.ctl).tidY = s.core.ctl.tidY) : (s.onCtl f).HomedAt me := by
  obtain ⟨here, ⟨x, y⟩, rest⟩ := h
  exact ⟨here, ⟨hx.trans x, hy.trans y⟩, rest⟩
theorem onRegs_homed {f : Regs → Regs} (h : s.HomedAt me) : (s.onRegs f).HomedAt me := h
theorem onEng_homed {f : Engines → Engines} (h : s.HomedAt me) : (s.onEng f).HomedAt me := h
theorem onSh_homed {f : Shared → Shared} (h : s.HomedAt me) : (s.onSh f).HomedAt me := h
theorem note_homed {e} (h : s.HomedAt me) : (s.note e).HomedAt me := h
theorem setG_homed {r v p} (h : s.HomedAt me) : (s.setG r v p).HomedAt me := h
theorem setV_homed {r x} (h : s.HomedAt me) : (s.setV r x).HomedAt me := h
theorem setM_homed {r x} (h : s.HomedAt me) : (s.setM r x).HomedAt me := h
theorem orFlags_homed {f} (h : s.HomedAt me) : (s.orFlags f).HomedAt me := h
theorem count_homed {e} (h : s.HomedAt me) : (s.count e).HomedAt me := h
theorem onPartAt_homed {n row p f} (h : s.HomedAt me) : (s.onPartAt n row p f).HomedAt me := h
theorem onPart_homed {k f} (h : s.HomedAt me) : (s.onPart k f).HomedAt me := h
theorem onQuad_homed {q f} (h : s.HomedAt me) : (s.onQuad q f).HomedAt me := h
theorem releaseTags_homed {k i} (h : s.HomedAt me) : (s.releaseTags k i).HomedAt me := h
theorem unsend_homed {n} (h : s.HomedAt me) : (s.unsend n).HomedAt me := h
theorem send_homed {p} (h : s.HomedAt me) : (s.send p).HomedAt me := by
  unfold State.send
  grind [mk_homed, State.HomedAt.own]
theorem releaseQueued_homed (h : s.HomedAt me) : s.releaseQueued.HomedAt me := h
theorem fire_homed {old k off n p st} (h : s.HomedAt me) : (s.fire old k off n p st).HomedAt me := by
  unfold State.fire
  grind [onNode_homed, send_homed, foldl_homed]
theorem wakeFlags_homed {k off n} (h : s.HomedAt me) : (s.wakeFlags k off n).HomedAt me := by
  unfold State.wakeFlags
  extract_lets
  split
  · exact h
  · exact setCore_homed h ((foldl_at (fun _ _ => wake_at) _ _).mpr (coreAt_at h k))
theorem writeOf_homed {st k off bs p} (h : s.HomedAt me) : (s.writeOf st k off bs p).HomedAt me := by
  unfold State.writeOf
  grind [poke_homed, fire_homed, wakeFlags_homed]
theorem write_homed {k off bs p} (h : s.HomedAt me) : (s.write k off bs p).HomedAt me := by
  unfold State.write
  grind [writeOf_homed]
theorem storeOf_homed {st off bs p} (h : s.HomedAt me) : (s.storeOf st off bs p).HomedAt me := by
  unfold State.storeOf
  grind [retag_homed, writeOf_homed]
theorem store_homed {off bs p} (h : s.HomedAt me) : (s.store off bs p).HomedAt me := by
  unfold State.store
  grind [storeOf_homed]
theorem commit_homed {n} (h : s.HomedAt me) : (s.commit n).HomedAt me := h
theorem commitTo_homed {pc} (h : s.HomedAt me) : (s.commitTo pc).HomedAt me := h
theorem onQueue_homed {q f} (h : s.HomedAt me) : (s.onQueue q f).HomedAt me := h
theorem hostWrite_homed {a bs} (h : s.HomedAt me) : (s.hostWrite a bs).HomedAt me := h
theorem complete_homed {q c st gid} (h : s.HomedAt me) : (s.complete q c st gid).HomedAt me := h
theorem completeCurrent_homed {q st} (h : s.HomedAt me) : (s.completeCurrent q st).HomedAt me := by
  unfold State.completeCurrent
  grind [complete_homed]
theorem endSuspend_homed {i st} (h : s.HomedAt me) : (s.endSuspend i st).HomedAt me := by
  unfold State.endSuspend
  grind [completeCurrent_homed, foldl_homed]
theorem onUmpire_homed {u f} (h : s.HomedAt me) : (s.onUmpire u f).HomedAt me := h
theorem closeWindowAt_homed {k} (h : s.HomedAt me) : (s.closeWindowAt k).HomedAt me := by
  unfold State.closeWindowAt
  grind [onUmpire_homed]
theorem closeWindow_homed (h : s.HomedAt me) : s.closeWindow.HomedAt me := by
  unfold State.closeWindow
  grind [closeWindowAt_homed]
theorem closeWindows_homed {ks} (h : s.HomedAt me) : (s.closeWindows ks).HomedAt me := by
  unfold State.closeWindows
  grind [closeWindowAt_homed, foldl_homed]
theorem output_homed {n} (h : s.HomedAt me) : (s.output n).HomedAt me := by
  unfold State.output
  grind [onUmpire_homed]
theorem onTriad_homed {n f} (h : s.HomedAt me) : (s.onTriad n f).HomedAt me := h
theorem vote_homed {n} (h : s.HomedAt me) : (s.vote n).HomedAt me := h
theorem voteTiles_homed {ns} (h : s.HomedAt me) : (s.voteTiles ns).HomedAt me := by
  unfold State.voteTiles
  grind [vote_homed, foldl_homed]
theorem coxWrites_homed {ks f} (h : s.HomedAt me) (hf : ∀ k c, c.at? k → (f k c).at? k) : (s.coxWrites ks f).HomedAt me := by
  unfold State.coxWrites
  grind [onCores_homed, voteTiles_homed]
theorem faultGroup_homed {i} (h : s.HomedAt me) : (s.faultGroup i).HomedAt me := by
  unfold State.faultGroup
  grind [State.HomedAt, onGroup_homed, note_homed, endSuspend_homed, closeWindows_homed, coxWrites_homed, Core.at?]
theorem coreFault_homed {c v} (h : s.HomedAt me) : (s.coreFault c v).HomedAt me := by
  have stopped (e : LogEntry) : ({ s.closeWindow with core :=
      { s.closeWindow.core.trapSlots with ctl := { s.closeWindow.core.ctl with issue := .stopped } } }.note e).HomedAt me :=
    closeWindow_homed h
  unfold State.coreFault
  grind [faultGroup_homed]
theorem takeTrap_homed {c v resume} (h : s.HomedAt me) : (s.takeTrap c v resume).HomedAt me := by
  unfold State.takeTrap
  grind [onCtl_homed, count_homed, closeWindow_homed, coreFault_homed]
theorem takeAsync_homed {b resume} (h : s.HomedAt me) : (s.takeAsync b resume).HomedAt me := by
  unfold State.takeAsync
  grind [mk_homed, State.HomedAt.own, takeTrap_homed, onSlot_at]
theorem takePending_homed (h : s.HomedAt me) : s.takePending.HomedAt me := by
  unfold State.takePending
  grind [takeAsync_homed]
theorem enterScheduler_homed {code resume} (h : s.HomedAt me) : (s.enterScheduler code resume).HomedAt me := by
  unfold State.enterScheduler
  grind [onCtl_homed, closeWindow_homed]
theorem leaveS_homed (h : s.HomedAt me) : s.leaveS.HomedAt me := h
theorem holdIssue_homed (h : s.HomedAt me) : s.holdIssue.HomedAt me := h
theorem finish_homed {n} {r : Res} (h : s.HomedAt me) (hr : r.HomedAt me) : NextHomed (s.finish n r) me := by
  cases r with
  | ok t => exact next_homed.mpr (commit_homed (hr t rfl))
  | trap c v => exact next_homed.mpr (takeTrap_homed h)
  | hold => exact next_homed.mpr (holdIssue_homed h)
theorem block_homed {w} (h : s.HomedAt me) : (s.block w).HomedAt me := by
  unfold State.block
  grind [mk_homed, State.HomedAt.own, enterScheduler_homed, onSlot_at]
theorem blockOrHold_homed {w} (h : s.HomedAt me) : (s.blockOrHold w).HomedAt me := by
  unfold State.blockOrHold
  grind [holdIssue_homed, block_homed]
theorem status_homed {d v} (h : s.HomedAt me) : (s.status d v).HomedAt me := h
theorem legal_homed {i} {r : Res} (hr : r.HomedAt me) : (s.legal i r).HomedAt me := by
  unfold State.legal
  grind [trap_homed]
theorem consume_homed {r} {k : Res} (hk : k.HomedAt me) : (s.consume r k).HomedAt me := by
  unfold State.consume
  grind [trap_homed]
theorem portStore_homed {k q} (h : s.HomedAt me) : (s.portStore k q).HomedAt me := by
  unfold State.portStore
  grind [retag_homed, writeOf_homed]
theorem putWord_homed {owner e i w} (h : s.HomedAt me) : (s.putWord owner e i w).HomedAt me := by
  unfold State.putWord
  grind [poke_homed, retag_homed, write_homed]
theorem putWords_homed {owner e} (l : List (Nat × Bool)) : ∀ {s : State} {i}, s.HomedAt me → (s.putWords owner e i l).HomedAt me := by
  induction l with
  | nil => exact id
  | cons w r ih => exact fun h => ih (putWord_homed h)
theorem landFlight_homed {owner f} (h : s.HomedAt me) : (s.landFlight owner f).HomedAt me := by
  unfold State.landFlight
  grind [putWords_homed]
theorem landWords_homed {ws} (h : s.HomedAt me) : (s.landWords ws).HomedAt me := by
  unfold State.landWords
  grind [onSh_homed, landFlight_homed, foldl_homed]
theorem portPerform_homed {k j} (h : s.HomedAt me) : (s.portPerform k j).HomedAt me := by
  unfold State.portPerform
  grind [onCore_homed, portStore_homed, Core.at?]
theorem portServe_homed {k i} (h : s.HomedAt me) : (s.portServe k i).HomedAt me := by
  unfold State.portServe
  grind [portPerform_homed]
theorem portUntil_homed {k i} (h : s.HomedAt me) : (s.portUntil k i).HomedAt me := by
  unfold State.portUntil
  grind [portServe_homed, foldl_homed]
theorem portTurns_homed {k ws} (n : Nat) : ∀ {s : State}, s.HomedAt me → (s.portTurns k ws n).HomedAt me := by
  induction n with
  | zero => exact fun h => onCore_homed (portUntil_homed h) fun _ => id
  | succ n ih =>
    intro s h
    unfold State.portTurns
    extract_lets t
    have ht : t.HomedAt me := portUntil_homed h
    split
    · exact ih (portPerform_homed ht)
    · exact onCore_homed ht fun _ => id
theorem portRead_homed {k ws} (h : s.HomedAt me) : (s.portRead k ws).HomedAt me := by
  unfold State.portRead
  grind [landWords_homed, portTurns_homed]
theorem drainStores_homed (h : s.HomedAt me) : s.drainStores.HomedAt me := by
  unfold State.drainStores
  grind [portRead_homed, foldl_homed]
theorem forgetAhead_homed {k ws} (h : s.HomedAt me) : (s.forgetAhead k ws).HomedAt me := h
theorem fenceAhead_homed (h : s.HomedAt me) : s.fenceAhead.HomedAt me := h
theorem countDirect_homed {n} (h : s.HomedAt me) : (s.countDirect n).HomedAt me := h
theorem putLate_homed {r x p} (h : s.HomedAt me) : (s.putLate r x p).HomedAt me := by
  unfold State.putLate
  grind [setG_homed, setV_homed]
theorem takeRead_homed {q} (h : s.HomedAt me) : (s.takeRead q).HomedAt me := by
  unfold State.takeRead
  grind [portRead_homed, putLate_homed]
theorem takeIf_homed {p} (h : s.HomedAt me) : (s.takeIf p).HomedAt me := by
  unfold State.takeIf
  grind [onSh_homed, takeRead_homed, foldl_homed]
theorem takeLate_homed (h : s.HomedAt me) : s.takeLate.HomedAt me := by
  unfold State.takeLate
  grind [takeIf_homed]
theorem takeWords_homed {ws} (h : s.HomedAt me) : (s.takeWords ws).HomedAt me := by
  unfold State.takeWords
  grind [takeIf_homed]
theorem putOff_homed {l} (h : s.HomedAt me) : (s.putOff l).HomedAt me := h
theorem orLate_homed {s t : State} {me l} {r : Res} (h : t.HomedAt me) (hr : r.HomedAt me) : (s.orLate l t r).HomedAt me := by
  unfold State.orLate
  grind [putOff_homed, ok_homed]
theorem loadWord_homed {k off n} (h : s.HomedAt me) : (s.loadWord k off n).1.HomedAt me := by
  unfold State.loadWord
  extract_lets ws t u
  have ht : t.HomedAt me := takeWords_homed h
  split
  · exact forgetAhead_homed ht
  · exact forgetAhead_homed (portRead_homed ht)
theorem loadWords_homed {k} (n : Nat) : ∀ {s : State} {off}, s.HomedAt me → (s.loadWords k off n).1.HomedAt me := by
  induction n with
  | zero => exact id
  | succ n ih => exact fun h => ih (loadWord_homed h)
theorem loadAt_homed {p n} (h : s.HomedAt me) : (s.loadAt p n).1.HomedAt me := by
  unfold State.loadAt
  split
  · exact h
  · have hc := countDirect_homed (n := (n + 7) / 8) h
    extract_lets
    split
    · exact loadWord_homed hc
    · exact loadWords_homed _ hc
  · exact h
theorem queueOf_homed {st k off bs p} (h : s.HomedAt me) : (s.queueOf st k off bs p).HomedAt me := by
  unfold State.queueOf
  grind [onCore_homed, output_homed, forgetAhead_homed, countDirect_homed, takeWords_homed, Core.at?]
theorem storeTo_homed {st p bs q} (h : s.HomedAt me) : (s.storeTo st p bs q).HomedAt me := by
  unfold State.storeTo
  grind [storeOf_homed, queueOf_homed]
theorem storeAt_homed {p bs q} (h : s.HomedAt me) : (s.storeAt p bs q).HomedAt me := by
  unfold State.storeAt
  grind [storeTo_homed]
theorem checked_homed {a n} {f : Path → Res} (hf : ∀ p, (f p).HomedAt me) : (s.checked a n f).HomedAt me := by
  unfold State.checked
  grind [trap_homed]
theorem checkedLoad_homed {a n f} (hf : ∀ x, (f x).HomedAt me) : (s.checkedLoad a n f).HomedAt me := by
  unfold State.checkedLoad
  grind [checked_homed, hold_homed]
theorem checkedOwn_homed {a n} {f : Nat → Res} (hf : ∀ p, (f p).HomedAt me) : (s.checkedOwn a n f).HomedAt me := by
  unfold State.checkedOwn
  grind [trap_homed]
theorem put_homed {d v p f} (h : s.HomedAt me) : (s.put d v p f).HomedAt me := by
  unfold State.put
  grind [setG_homed, orFlags_homed, ok_homed]
theorem alu2_homed {d a b f} (h : s.HomedAt me) : (s.alu2 d a b f).HomedAt me := by
  unfold State.alu2
  grind [setG_homed, ok_homed]
theorem alu1_homed {d a f} (h : s.HomedAt me) : (s.alu1 d a f).HomedAt me := by
  unfold State.alu1
  grind [setG_homed, ok_homed]
theorem vlanes_homed {d m w p reads f} (h : s.HomedAt me) : (s.vlanes d m w p reads f).HomedAt me := by
  unfold State.vlanes
  grind [setV_homed, orFlags_homed, ok_homed]
theorem onLink_homed {i f} (h : s.HomedAt me) : (s.onLink i f).HomedAt me := by
  unfold State.onLink
  grind [mk_homed, State.HomedAt.own]
theorem redraw_homed (h : s.HomedAt me) : s.redraw.HomedAt me := h
theorem redrawn_homed {old ds} (h : s.HomedAt me) : (s.redrawn old ds).HomedAt me := by
  unfold State.redrawn
  grind [redraw_homed]
theorem crOpen_homed {n r} (hr : r.HomedAt me) : (s.crOpen n r).HomedAt me := by
  unfold State.crOpen
  grind [trap_homed]
theorem crrdBody_homed {d n} (h : s.HomedAt me) : (crrdBody d n s).HomedAt me := by
  unfold crrdBody
  grind [setG_homed, legal_homed, crOpen_homed, ok_homed]
theorem crrdSeamtBody_homed {d a} (h : s.HomedAt me) : (crrdSeamtBody d a s).HomedAt me := by
  unfold crrdSeamtBody
  grind [setG_homed, consume_homed, ok_homed, trap_homed]
theorem atS_homed {s t : State} {me} (h : s.HomedAt me) (ht : t.HomedAt me) : (s.atS t).HomedAt me := by
  unfold State.atS
  grind [ok_homed]
theorem crWrite_homed {n v} (h : s.HomedAt me) : (s.crWrite n v).HomedAt me := by
  unfold State.crWrite
  grind [onCtl_homed]
theorem execCrwr_homed {a n} (h : s.HomedAt me) : NextHomed (execCrwr a n s) me :=
  finish_homed h (legal_homed (crOpen_homed (consume_homed (atS_homed h (crWrite_homed h)))))
theorem execCrwrFpcr_homed {a} (h : s.HomedAt me) : NextHomed (execCrwrFpcr a s) me := by
  unfold execCrwrFpcr
  grind [onRegs_homed, finish_homed, consume_homed, ok_homed]
theorem execCrwrTid_homed {a} (h : s.HomedAt me) : NextHomed (execCrwrTid a s) me := by
  unfold execCrwrTid
  grind [onCtl_homed, finish_homed, consume_homed, atS_homed]
theorem onSlot_homed {f} (h : s.HomedAt me) : (s.onSlot f).HomedAt me := h
theorem execCrwrTcmp_homed {a} (h : s.HomedAt me) : NextHomed (execCrwrTcmp a s) me := by
  unfold execCrwrTcmp
  grind [finish_homed, consume_homed, atS_homed, onSlot_homed]
theorem execCrwrPrio_homed {a} (h : s.HomedAt me) : NextHomed (execCrwrPrio a s) me := by
  unfold execCrwrPrio
  grind [State.HomedAt, finish_homed, consume_homed, atS_homed, setLevel_at]
theorem execCrwrTstat_homed {a} (h : s.HomedAt me) : NextHomed (execCrwrTstat a s) me := by
  unfold execCrwrTstat
  grind [finish_homed, consume_homed, crOpen_homed, atS_homed, onSlot_homed]
theorem execCrwrRigs_homed {a} (h : s.HomedAt me) : NextHomed (execCrwrRigs a s) me := by
  refine finish_homed h (consume_homed ?_)
  split
  · exact trap_homed
  · exact atS_homed h (onRegs_homed h)
theorem execCrwrSscr_homed {a} (h : s.HomedAt me) : NextHomed (execCrwrSscr a s) me := by
  unfold execCrwrSscr
  grind [onCtl_homed, finish_homed, crOpen_homed, atS_homed]
theorem onlyS_homed {r} (hr : r.HomedAt me) : (s.onlyS r).HomedAt me := by
  unfold State.onlyS
  grind [trap_homed]
theorem slotOperand_homed {a k} (hk : ∀ x, (k x).HomedAt me) : (s.slotOperand a k).HomedAt me := by
  unfold State.slotOperand
  grind [consume_homed, trap_homed]
theorem settlePaddle_homed {i} (h : s.HomedAt me) : (s.settlePaddle i).HomedAt me := by
  unfold State.settlePaddle
  grind [mk_homed, State.HomedAt.own, releaseTags_homed, unqueue_at, onSlot_at]
theorem execTqpush_homed {d a p} (h : s.HomedAt me) : NextHomed (execTqpush d a p s) me := by
  unfold execTqpush
  grind [State.HomedAt, finish_homed, status_homed, onlyS_homed, slotOperand_homed, settlePaddle_homed, ok_homed, push_at]
theorem execTqpop_homed {d} (h : s.HomedAt me) : NextHomed (execTqpop d s) me := by
  unfold execTqpop
  grind [State.HomedAt, finish_homed, status_homed, onlyS_homed, ok_homed, unqueue_at]
theorem haltAt_homed {i} (h : s.HomedAt me) : (s.haltAt i).2.HomedAt me := by
  unfold State.haltAt
  cases (s.core.slot i).st <;> exact h
theorem execHalt_homed (h : s.HomedAt me) : NextHomed (execHalt s) me := by
  unfold execHalt
  grind [State.HomedAt, count_homed, commit_homed, enterScheduler_homed, haltAt_homed, next_homed, onSlot_at]
theorem execHaltSlot_homed {a} (h : s.HomedAt me) : NextHomed (execHaltSlot a s) me := by
  unfold execHaltSlot
  grind [finish_homed, status_homed, onlyS_homed, slotOperand_homed, haltAt_homed, ok_homed]
theorem openWindow_homed (h : s.HomedAt me) : s.openWindow.HomedAt me := by
  unfold State.openWindow
  grind [onUmpire_homed]
theorem setAside_homed {i} (h : s.HomedAt me) : (s.setAside i).HomedAt me := by
  unfold State.setAside
  grind [mk_homed, State.HomedAt.own, settlePaddle_homed, onSlot_at]
theorem deliverWake_homed {i} (h : s.HomedAt me) : (s.deliverWake i).HomedAt me := by
  unfold State.deliverWake
  grind [mk_homed, State.HomedAt.own, setG_homed, fenceAhead_homed, onSlot_at]
theorem deliverFlags_homed {i} (h : s.HomedAt me) : (s.deliverFlags i).HomedAt me := h
theorem sret_homed (h : s.HomedAt me) : s.sret.HomedAt me := by
  have passes {t : State} (ht : t.HomedAt me) (i) : (((t.deliverFlags i).leaveS.openWindow).count 2).takePending.HomedAt me :=
    takePending_homed (count_homed (openWindow_homed (leaveS_homed (deliverFlags_homed ht))))
  unfold State.sret
  extract_lets i
  split
  · exact passes (deliverWake_homed (mk_homed (setAside_homed h) (onSlot_at.mpr (unqueue_at.mpr (setAside_homed h).own)))) i
  · exact passes (mk_homed h (onSlot_at.mpr h.own)) i
  all_goals exact takeTrap_homed h
theorem execSret_homed (h : s.HomedAt me) : NextHomed (execSret s) me := by
  unfold execSret
  grind [takeTrap_homed, sret_homed, next_homed]
theorem execYield_homed (h : s.HomedAt me) : NextHomed (execYield s) me := by
  unfold execYield
  grind [State.HomedAt, count_homed, commit_homed, enterScheduler_homed, settlePaddle_homed, next_homed, enqueue_at, onSlot_at]
theorem execSleep_homed {d} (h : s.HomedAt me) : NextHomed (execSleep d s) me := by
  unfold execSleep
  grind [State.HomedAt, onCtl_homed, count_homed, commit_homed, enterScheduler_homed, status_homed, next_homed, onSlot_at]
theorem execIdleIssueResume_homed {cox} (h : s.HomedAt me) : NextHomed (execIdleIssueResume cox s) me := by
  unfold execIdleIssueResume
  grind [commit_homed, status_homed, next_homed]
theorem execTimerExpiry_homed {i} (h : s.HomedAt me) : NextHomed (execTimerExpiry i s) me := by
  unfold execTimerExpiry
  grind [mk_homed, State.HomedAt.own, next_homed, expire_at]
theorem execAsyncTrapEntry_homed (h : s.HomedAt me) : NextHomed (execAsyncTrapEntry s) me := by
  unfold execAsyncTrapEntry
  grind [takePending_homed, next_homed]
theorem execTrap_homed {i} (h : s.HomedAt me) : NextHomed (execTrap i s) me := by
  unfold execTrap
  grind [takeTrap_homed, next_homed]
theorem execIllegalInstruction_homed {p0} (h : s.HomedAt me) : NextHomed (execIllegalInstruction p0 s) me := by
  unfold execIllegalInstruction
  grind [takeTrap_homed, next_homed]
theorem execPoisonedFetch_homed (h : s.HomedAt me) : NextHomed (execPoisonedFetch s) me := by
  unfold execPoisonedFetch
  grind [takeTrap_homed, next_homed]
theorem writeFlits_homed {k t} (l : List (List (BitVec 8))) : ∀ {s : State} {i}, s.HomedAt me → (s.writeFlits k t i l).HomedAt me := by
  induction l with
  | nil => exact id
  | cons f r ih => exact fun h => ih (retag_homed (write_homed h))
theorem enqueueMsg_homed {k i info aux payload inRound} (h : s.HomedAt me) : (s.enqueueMsg k i info aux payload inRound).HomedAt me := by
  unfold State.enqueueMsg
  grind [onCore_homed, writeFlits_homed, wakeSeat_at, countN_at, onSeat_at]
theorem late_homed {k i p} (h : s.HomedAt me) : (s.late k i p).HomedAt me := by
  unfold State.late
  grind [onCore_homed, note_homed, raise_at]
theorem launchPacket_homed {p} (h : s.HomedAt me) : (s.launchPacket p).HomedAt me := by
  unfold State.launchPacket
  grind [mk_homed, State.HomedAt.own, send_homed, output_homed]
theorem answered_homed {n p kind status} (h : s.HomedAt me) : (s.answered n p kind status).HomedAt me := by
  unfold State.answered
  grind [unsend_homed, send_homed]
theorem onEntry_homed {k gid chan f} (h : s.HomedAt me) : (s.onEntry k gid chan f).HomedAt me := h
theorem deliverNotice_homed {k p} (h : s.HomedAt me) : (s.deliverNotice k p).HomedAt me := by
  unfold State.deliverNotice
  grind [enqueueMsg_homed]
theorem notify_homed {k present p} (h : s.HomedAt me) : (s.notify k present p).HomedAt me := by
  unfold State.notify
  grind [send_homed, deliverNotice_homed, foldl_homed]
theorem onFin_homed {k gid chan round f} (h : s.HomedAt me) : (s.onFin k gid chan round f).HomedAt me := h
theorem dropFin_homed {k gid chan round} (h : s.HomedAt me) : (s.dropFin k gid chan round).HomedAt me := h
theorem writeBlock_homed {k w idx b} (h : s.HomedAt me) : (s.writeBlock k w idx b).HomedAt me := by
  unfold State.writeBlock
  grind [write_homed]
theorem foldBuffer_homed {k e b} (h : s.HomedAt me) : (s.foldBuffer k e b).HomedAt me := by
  unfold State.foldBuffer
  grind [onNode_homed, send_homed, notify_homed, onFin_homed, writeBlock_homed]
theorem execTreeBlockDelivery_homed {n} (h : s.HomedAt me) : NextHomed (execTreeBlockDelivery n s) me := by
  have reply {t : State} (ht : t.HomedAt me) (p k st) : (t.answered n p k st).HomedAt me := answered_homed ht
  unfold execTreeBlockDelivery
  split
  · exact next_homed.mpr h
  · extract_lets k idx reply'
    split
    · exact next_homed.mpr h
    · grind [next_homed, onNode_homed, onEntry_homed, foldBuffer_homed]
theorem treeReplied_homed {p} (h : s.HomedAt me) : (s.treeReplied p).HomedAt me := by
  unfold State.treeReplied
  grind [onNode_homed, onFin_homed]
theorem treeFinishArrives_homed {n p} (h : s.HomedAt me) : (s.treeFinishArrives n p).HomedAt me := by
  unfold State.treeFinishArrives
  grind [answered_homed, onFin_homed]
theorem execTreeFinishForward_homed {k gid chan round} (h : s.HomedAt me) : NextHomed (execTreeFinishForward k gid chan round s) me := by
  unfold execTreeFinishForward
  grind [onNode_homed, send_homed, onEntry_homed, onFin_homed, dropFin_homed, next_homed]
theorem execRootFlagWrite_homed {k gid chan round} (h : s.HomedAt me) : NextHomed (execRootFlagWrite k gid chan round s) me := by
  have counted (f) : ((s.dropFin k gid chan round).onEntry k gid chan f).HomedAt me := onEntry_homed (dropFin_homed h)
  unfold execRootFlagWrite
  grind [write_homed, onGroup_homed, next_homed]
theorem execRenormFromParent_homed {n} (h : s.HomedAt me) : NextHomed (execRenormFromParent n s) me := by
  unfold execRenormFromParent
  grind [unsend_homed, notify_homed, next_homed]
theorem trapped_homed {c v} (h : s.HomedAt me) : NextHomed (s.trapped c v) me := by
  unfold State.trapped
  grind [takeTrap_homed, next_homed]
theorem held_homed (h : s.HomedAt me) : NextHomed s.held me := next_homed.mpr h
theorem done_homed {d st n} (h : s.HomedAt me) : NextHomed (s.done d st n) me := next_homed.mpr h
theorem onRun_homed {f} (h : s.HomedAt me) : (s.onRun f).HomedAt me := h
theorem sendChecks_homed {d a c l f} (h : s.HomedAt me) (hf : ∀ x, NextHomed (f x) me) : NextHomed (s.sendChecks d a c l f) me := by
  unfold State.sendChecks
  grind [trapped_homed, done_homed]
theorem emit_homed {p} (h : s.HomedAt me) : (s.emit p).HomedAt me := by
  unfold State.emit
  grind [count_homed, launchPacket_homed, onRun_homed]
theorem takeAt_homed {t} (h : s.HomedAt me) : (s.takeAt t).HomedAt me := by
  unfold State.takeAt
  grind [takeIf_homed]
theorem sendData_homed {d c l hh t flits body aux pois} (h : s.HomedAt me) : NextHomed (s.sendData d c l hh t flits body aux pois) me := by
  unfold State.sendData
  grind [done_homed, onRun_homed, emit_homed, takeAt_homed]
theorem execSend_homed {d a b c l hh} (h : s.HomedAt me) : NextHomed (execSend d a b c l hh s) me := by
  unfold execSend
  grind [held_homed, sendChecks_homed, sendData_homed]
theorem execSendv_homed {d a b c l hh} (h : s.HomedAt me) : NextHomed (execSendv d a b c l hh s) me := by
  unfold execSendv
  grind [held_homed, sendChecks_homed, sendData_homed]
theorem execSendr_homed {d a b c p l hh} (h : s.HomedAt me) : NextHomed (execSendr d a b c p l hh s) me := by
  unfold execSendr
  grind [held_homed, sendChecks_homed, sendData_homed]
theorem execFinish_homed {d a c l hh} (h : s.HomedAt me) : NextHomed (execFinish d a c l hh s) me := by
  unfold execFinish
  grind [held_homed, done_homed, onRun_homed, sendChecks_homed, emit_homed]
theorem execRenorm_homed {d a b c hh} (h : s.HomedAt me) : NextHomed (execRenorm d a b c hh s) me := by
  unfold execRenorm
  grind [output_homed, notify_homed, trapped_homed, done_homed]
theorem blocked_homed {w} (h : s.HomedAt me) : NextHomed (s.blocked w) me := by
  unfold State.blocked
  grind [blockOrHold_homed, next_homed]
theorem receive_homed {a i f} (h : s.HomedAt me) (hf : ∀ u m, u.HomedAt me → (f u m).HomedAt me) : NextHomed (s.receive a i f) me := by
  unfold State.receive
  grind [mk_homed, State.HomedAt.own, setG_homed, commit_homed, fenceAhead_homed, trapped_homed, blocked_homed, next_homed, onSeat_at]
theorem execRecv_homed {d a i} (h : s.HomedAt me) : NextHomed (execRecv d a i s) me := by
  unfold execRecv
  grind [setG_homed, receive_homed]
theorem execRecvv_homed {v a i} (h : s.HomedAt me) : NextHomed (execRecvv v a i s) me := by
  unfold execRecvv
  grind [setV_homed, receive_homed]
theorem execPeek_homed {d i} (h : s.HomedAt me) : NextHomed (execPeek d i s) me := by
  unfold execPeek
  grind [setG_homed, commit_homed, trapped_homed, next_homed]
theorem execSeatclr_homed {d i} (h : s.HomedAt me) : NextHomed (execSeatclr d i s) me := by
  unfold execSeatclr
  grind [mk_homed, State.HomedAt.own, done_homed, clearSeat_at]
theorem execSeatset_homed {d a b i} (h : s.HomedAt me) : NextHomed (execSeatset d a b i s) me := by
  unfold execSeatset
  grind [mk_homed, State.HomedAt.own, trapped_homed, done_homed, clearSeat_at, onSeat_at]
theorem execJoin_homed {d a} (h : s.HomedAt me) : NextHomed (execJoin d a s) me := by
  unfold execJoin
  grind [mk_homed, State.HomedAt.own, fenceAhead_homed, trapped_homed, done_homed, blocked_homed, cutAtJoin_at, closeRounds_at]
theorem execBarr_homed {d b} (h : s.HomedAt me) : NextHomed (execBarr d b s) me := by
  unfold execBarr
  grind [onSh_homed, send_homed, output_homed, held_homed, done_homed]
theorem execBwait_homed {a b} (h : s.HomedAt me) : NextHomed (execBwait a b s) me := by
  unfold execBwait
  grind [commit_homed, fenceAhead_homed, trapped_homed, blocked_homed, next_homed]
theorem execFwait_homed {a b} (h : s.HomedAt me) : NextHomed (execFwait a b s) me := by
  unfold execFwait
  grind [commit_homed, fenceAhead_homed, trapped_homed, blocked_homed, next_homed]
theorem execFence_homed {p} (h : s.HomedAt me) : NextHomed (execFence p s) me := by
  unfold execFence
  grind [commit_homed, fenceAhead_homed, held_homed, next_homed]
theorem request_homed {p} (h : s.HomedAt me) : NextHomed (s.request p) me := by
  unfold State.request
  grind [onSh_homed, holdIssue_homed, launchPacket_homed, next_homed]
theorem endRpc_homed (h : s.HomedAt me) : s.endRpc.HomedAt me := h
theorem keepWatch_homed {a st} (h : s.HomedAt me) : (s.keepWatch a st).HomedAt me := h
theorem execWatch_homed {d a} (h : s.HomedAt me) : NextHomed (execWatch d a s) me := by
  unfold execWatch
  extract_lets addr
  repeat' split
  all_goals grind [trapped_homed, held_homed, done_homed, request_homed, endRpc_homed, keepWatch_homed]
theorem execWake_homed {d a} (h : s.HomedAt me) : NextHomed (execWake d a s) me := by
  unfold execWake
  grind [mk_homed, State.HomedAt.own, output_homed, trapped_homed, held_homed, done_homed, request_homed, endRpc_homed, awaken_at]
theorem execSiteq_homed {d a} (h : s.HomedAt me) : NextHomed (execSiteq d a s) me := by
  unfold execSiteq
  grind [setG_homed, commit_homed, trapped_homed, next_homed]
theorem coxcall_homed {a b sOnly r} (h : s.HomedAt me) (hr : NextHomed r me) : NextHomed (s.coxcall a b sOnly r) me := by
  unfold State.coxcall
  grind [trapped_homed, held_homed]
theorem answerCall_homed {d st} (h : s.HomedAt me) : NextHomed (s.answerCall d st) me := next_homed.mpr h
theorem execCoxcallPoisoned_homed {d a b} (h : s.HomedAt me) : NextHomed (execCoxcallPoisoned d a b s) me := by
  unfold execCoxcallPoisoned
  grind [note_homed, coxcall_homed, answerCall_homed]
theorem execCoxcallLog_homed {d a b n} (h : s.HomedAt me) : NextHomed (execCoxcallLog d a b n s) me := by
  unfold execCoxcallLog
  grind [mk_homed, State.HomedAt.own, trapped_homed, coxcall_homed, answerCall_homed]
theorem checkpoint_homed {n} (h : s.HomedAt me) : (s.checkpoint n).HomedAt me := by
  unfold State.checkpoint
  grind [onGroup_homed]
theorem execCoxcallCheckpoint_homed {d a b} (h : s.HomedAt me) : NextHomed (execCoxcallCheckpoint d a b s) me := by
  unfold execCoxcallCheckpoint
  grind [coxcall_homed, answerCall_homed, checkpoint_homed]
theorem fillTile_homed {n e} (h : s.HomedAt me) : (s.fillTile n e).HomedAt me := h
theorem fillCluster_homed {k e} (h : s.HomedAt me) : (s.fillCluster k e).HomedAt me := h
theorem fillMicro_homed {k e} (h : s.HomedAt me) : (s.fillMicro k e).HomedAt me := by
  unfold State.fillMicro
  grind [onCore_homed, Core.at?]
theorem translateTile_homed {n dom va need} (h : s.HomedAt me) : (s.translateTile n dom va need).2.HomedAt me := by
  unfold State.translateTile
  grind [fillTile_homed, vote_homed]
theorem translate_homed {k dom va need} (h : s.HomedAt me) : (s.translate k dom va need).2.HomedAt me := by
  have fills {t : State} (ht : t.HomedAt me) (n e) : (((t.fillTile n e).fillCluster k e).fillMicro k e).HomedAt me :=
    fillMicro_homed (fillCluster_homed (fillTile_homed ht))
  unfold State.translate
  grind [fillMicro_homed, fillCluster_homed, vote_homed]
theorem dropTlbs_homed {dom lo hi} (h : s.HomedAt me) : (s.dropTlbs dom lo hi).HomedAt me := by
  unfold State.dropTlbs
  grind [mk_homed, State.HomedAt.own, mapCores_homed, Core.at?]
theorem onRec_homed {n i f} (h : s.HomedAt me) : (s.onRec n i f).HomedAt me := h
theorem faultRecord_homed {s u : State} {me q perm i} (h : s.HomedAt me) (e : s.faultRecord q perm = some (i, u)) : u.HomedAt me := by
  unfold State.faultRecord at e
  grind [onRec_homed, vote_homed, onSite_homed, mk_homed, State.HomedAt.own]
theorem deliverRec_homed {n i j} (h : s.HomedAt me) : (s.deliverRec n i j).HomedAt me := h
theorem leaveRecords_homed {k streams} (h : s.HomedAt me) : (s.leaveRecords k streams).HomedAt me := by
  unfold State.leaveRecords
  grind [deliverRec_homed, foldl_homed]
theorem performAt_homed {k} (l : List (List (BitVec 8) × Bool)) : ∀ {s : State} {off}, s.HomedAt me → (s.performAt k off l).2.HomedAt me := by
  induction l with
  | nil => exact id
  | cons b r ih =>
    intro s off h
    unfold State.performAt
    grind [write_homed]
theorem atomicAt_homed {k p} (h : s.HomedAt me) : (s.atomicAt k p).2.2.HomedAt me := by
  unfold State.atomicAt
  grind [performAt_homed]
theorem putFar_homed {p x} (h : s.HomedAt me) : (s.putFar p x).2.HomedAt me := by
  have put (l : List (List (BitVec 8) × Bool)) : ∀ w : Nat × State, w.2.HomedAt me →
      (l.foldl (fun (w : Nat × State) b => (w.1 + b.1.length, w.2.poke (farKey w.1) b.1 b.2)) w).2.HomedAt me := by
    induction l with
    | nil => exact fun _ => id
    | cons b l ih => exact fun w hw => ih _ (poke_homed hw)
  unfold State.putFar
  grind
theorem execHomeAtomic_homed {n} (h : s.HomedAt me) : NextHomed (execHomeAtomic n s) me := by
  have hu : (s.unsend n).HomedAt me := unsend_homed h
  unfold execHomeAtomic
  split
  · exact next_homed.mpr h
  · extract_lets u
    have hu : u.HomedAt me := hu
    grind [next_homed, send_homed, onSite_homed, onNode_homed, atomicAt_homed]
theorem proxyEnds_homed {site q p st old} (h : s.HomedAt me) : (s.proxyEnds site q p st old).HomedAt me := by
  unfold State.proxyEnds
  grind [onSite_homed, send_homed]
theorem execProxyAtomic_homed {site q} (h : s.HomedAt me) : NextHomed (execProxyAtomic site q s) me := by
  have keep {t : State} (ht : t.HomedAt me) (f p st old) : ((t.onSite site f).proxyEnds site q p st old).HomedAt me :=
    proxyEnds_homed (onSite_homed ht)
  unfold execProxyAtomic
  repeat' split
  all_goals grind [next_homed, onSite_homed, putFar_homed, proxyEnds_homed]
theorem numbered_homed {p} (h : s.HomedAt me) : (s.numbered p).2.HomedAt me := h
theorem newRequest_homed {p} (h : s.HomedAt me) : NextHomed (s.newRequest p) me := by
  unfold State.newRequest
  grind [forgetAhead_homed, takeWords_homed, held_homed, request_homed, numbered_homed]
theorem atomicDone_homed {d addr st old q} (h : s.HomedAt me) : NextHomed (s.atomicDone d addr st old q) me := by
  unfold State.atomicDone
  grind [setG_homed, commit_homed, trapped_homed, next_homed]
theorem refuseAtomic_homed {addr} (h : s.HomedAt me) : NextHomed (s.refuseAtomic addr) me := by
  unfold State.refuseAtomic
  grind [onSh_homed, trapped_homed, held_homed]
theorem faultAtomic_homed {q perm addr} (h : s.HomedAt me) : NextHomed (s.faultAtomic q perm addr) me := by
  unfold State.faultAtomic
  grind [held_homed, faultRecord_homed, refuseAtomic_homed]
theorem farAtomic_homed {x} (h : s.HomedAt me) : NextHomed (s.farAtomic x) me := by
  unfold State.farAtomic
  grind [onSh_homed, trapped_homed, held_homed, translate_homed, newRequest_homed, faultAtomic_homed]
theorem farStep_homed {x} (h : s.HomedAt me) : NextHomed (s.farStep x) me := by
  unfold State.farStep
  grind [onSh_homed, trapped_homed, held_homed, deliverRec_homed, farAtomic_homed]
theorem atomic_homed {d x} (h : s.HomedAt me) : NextHomed (s.atomic d x) me := by
  unfold State.atomic
  grind [output_homed, trapped_homed, held_homed, endRpc_homed, atomicAt_homed, newRequest_homed, atomicDone_homed, farStep_homed]
theorem execAmo_homed {d a b w o} (h : s.HomedAt me) : NextHomed (execAmo d a b w o s) me := by
  unfold execAmo
  grind [trapped_homed, atomic_homed]
theorem execCas_homed {d a b c w} (h : s.HomedAt me) : NextHomed (execCas d a b c w s) me := by
  unfold execCas
  grind [trapped_homed, atomic_homed]
theorem resend_homed {r} (h : s.HomedAt me) : (s.resend r).HomedAt me := by
  unfold State.resend
  grind [onSh_homed, launchPacket_homed]
theorem dropRequests_homed {f} (h : s.HomedAt me) : (s.dropRequests f).HomedAt me := h
theorem voidRequests_homed {k serial rids} (h : s.HomedAt me) : (s.voidRequests k serial rids).HomedAt me := by
  unfold State.voidRequests
  grind [onSh_homed, dropRequests_homed]
theorem resendBursts_homed {due} (h : s.HomedAt me) : (s.resendBursts due).HomedAt me := by
  unfold State.resendBursts
  grind [onSh_homed, launchPacket_homed, foldl_homed]
theorem execAtomicResend_homed (h : s.HomedAt me) : NextHomed (execAtomicResend s) me := by
  unfold execAtomicResend
  grind [resend_homed, resendBursts_homed, next_homed]
theorem execAtomicBusyResend_homed (h : s.HomedAt me) : NextHomed (execAtomicBusyResend s) me := by
  unfold execAtomicBusyResend
  grind [resend_homed, resendBursts_homed, next_homed]
theorem takeAck_homed {pan src home low} (h : s.HomedAt me) : (s.takeAck pan src home low).HomedAt me := by
  unfold State.takeAck
  grind [onNode_homed, onSite_homed]
theorem execLowAcknowledgement_homed {n} (h : s.HomedAt me) : NextHomed (execLowAcknowledgement n s) me := by
  unfold execLowAcknowledgement
  grind [onSh_homed, send_homed, output_homed, takeAck_homed, next_homed]
theorem setStream_homed {k t} (h : s.HomedAt me) : (s.setStream k t).HomedAt me := h
theorem execSopen_homed {d a w c} (h : s.HomedAt me) : NextHomed (execSopen d a w c s) me := by
  refine finish_homed h (consume_homed (checkedOwn_homed fun off => ?_))
  have opened (k t f v) : (((s.setStream k t).onSh f).status d v).HomedAt me := status_homed (onSh_homed (setStream_homed h))
  grind [trap_homed, ok_homed, status_homed]
theorem leaveRecord_homed {k} (h : s.HomedAt me) : (s.leaveRecord k).HomedAt me := by
  unfold State.leaveRecord
  grind [deliverRec_homed]
theorem voidAll_homed {k} (h : s.HomedAt me) : (s.voidAll k).HomedAt me := by
  unfold State.voidAll
  grind [voidRequests_homed, setStream_homed]
theorem faultStream_homed {k cause} (h : s.HomedAt me) : (s.faultStream k cause).HomedAt me := by
  unfold State.faultStream
  grind [mk_homed, State.HomedAt.own, setStream_homed, leaveRecord_homed, voidAll_homed, bump_at]
theorem farPlace_homed {t l va} (h : s.HomedAt me) : (s.farPlace t l va).2.HomedAt me := by
  unfold State.farPlace
  grind [translate_homed]
theorem legEnd_homed {t l a lc} (h : s.HomedAt me) : (s.legEnd t l a lc).2.HomedAt me := by
  unfold State.legEnd
  grind [farPlace_homed]
theorem voidLeg_homed {k pos} (h : s.HomedAt me) : (s.voidLeg k pos).HomedAt me := by
  unfold State.voidLeg
  grind [voidRequests_homed, setStream_homed]
theorem stopLeg_homed {k pos x} (h : s.HomedAt me) : (s.stopLeg k pos x).HomedAt me := by
  have hv : (s.voidLeg k pos).HomedAt me := voidLeg_homed h
  cases x with
  | fault c => exact faultStream_homed h
  | later => exact h
  | migrating va => exact setStream_homed hv
  | wait perm va =>
    simp only [State.stopLeg]
    split
    · exact hv
    · split
      · next e => exact setStream_homed (faultRecord_homed hv e)
      · exact setStream_homed hv
theorem setLeg_homed {k i l} (h : s.HomedAt me) : (s.setLeg k i l).HomedAt me := h
theorem settleTries_homed {k old new} (h : s.HomedAt me) : (s.settleTries k old new).HomedAt me := by
  unfold State.settleTries
  grind [setStream_homed]
theorem beginLeg_homed {k} (h : s.HomedAt me) : (s.beginLeg k).HomedAt me := by
  unfold State.beginLeg
  grind [setStream_homed, farPlace_homed, stopLeg_homed, settleTries_homed]
theorem readWord_homed {k i w} (h : s.HomedAt me) : (s.readWord k i w).HomedAt me := by
  unfold State.readWord
  grind [output_homed, setStream_homed, faultStream_homed, legEnd_homed, stopLeg_homed, setLeg_homed, settleTries_homed]
theorem putOwn_homed {k i w} (h : s.HomedAt me) : (s.putOwn k i w).HomedAt me := by
  unfold State.putOwn
  grind [putWord_homed, stopLeg_homed, setLeg_homed]
theorem forgetEnd_homed {e n} (h : s.HomedAt me) : (s.forgetEnd e n).HomedAt me := by
  unfold State.forgetEnd
  grind [forgetAhead_homed, takeWords_homed]
theorem emitBurst_homed {k i} (h : s.HomedAt me) : (s.emitBurst k i).HomedAt me := by
  have keep {u : State} (hu : u.HomedAt me) (g a b) : ((u.setLeg k i g).settleTries k a b).HomedAt me :=
    settleTries_homed (setLeg_homed hu)
  have ends {t l a lc x u} (e : s.legEnd t l a lc = (x, u)) : u.HomedAt me := by
    have := legEnd_homed (t := t) (l := l) (a := a) (lc := lc) h
    rwa [e] at this
  unfold State.emitBurst
  extract_lets t l lc
  split
  · exact h
  · split
    split
    · next e => exact stopLeg_homed (ends e)
    · next e =>
      have hu := ends e
      extract_lets keep' u' g fly f
      have hf : u'.HomedAt me := forgetEnd_homed hu
      split
      · exact keep hu _ _ _
      · split
        · exact launchPacket_homed (keep (numbered_homed hf) _ _ _)
        · have ho := output_homed (n := 1) hf
          grind [faultStream_homed]
theorem landBurst_homed {k i j w} (h : s.HomedAt me) : (s.landBurst k i j w).HomedAt me := by
  unfold State.landBurst
  grind [putWord_homed, faultStream_homed, setLeg_homed]
theorem makeMove_homed {k m} (h : s.HomedAt me) : (s.makeMove k m).HomedAt me := by
  unfold State.makeMove
  grind [beginLeg_homed, readWord_homed, putOwn_homed, emitBurst_homed, landBurst_homed]
theorem execStreamLegStart_homed {k} (h : s.HomedAt me) : NextHomed (execStreamLegStart k s) me := by
  unfold execStreamLegStart
  grind [makeMove_homed, next_homed]
theorem burstReplied_homed {k p} (h : s.HomedAt me) : (s.burstReplied k p).HomedAt me := by
  unfold State.burstReplied
  grind [setStream_homed, faultStream_homed]
theorem rewindRecord_homed {k n i} (h : s.HomedAt me) : (s.rewindRecord k n i).HomedAt me := by
  unfold State.rewindRecord
  grind [deliverRec_homed, setStream_homed, faultStream_homed]
theorem execLegRewind_homed {k} (h : s.HomedAt me) : NextHomed (execLegRewind k s) me := by
  unfold execLegRewind
  grind [setStream_homed, rewindRecord_homed, next_homed]
theorem doneStream_homed {k} (h : s.HomedAt me) : (s.doneStream k).HomedAt me := by
  unfold State.doneStream
  grind [mk_homed, State.HomedAt.own, setStream_homed, bump_at]
theorem execStreamCompletion_homed {k} (h : s.HomedAt me) : NextHomed (execStreamCompletion k s) me := by
  unfold execStreamCompletion
  grind [output_homed, putWord_homed, faultStream_homed, forgetEnd_homed, doneStream_homed, next_homed]
theorem retryStreams_homed (h : s.HomedAt me) : s.retryStreams.HomedAt me := by
  unfold State.retryStreams
  grind [setStream_homed, beginLeg_homed, foldl_homed]
theorem holeStreams_homed {p} (h : s.HomedAt me) : (s.holeStreams p).HomedAt me := by
  unfold State.holeStreams
  grind [faultStream_homed, foldl_homed]
theorem holeAll_homed {p} (h : s.HomedAt me) : (s.holeAll p).HomedAt me := by
  unfold State.holeAll
  grind [atCore_homed, holeStreams_homed, foldl_homed]
theorem execSctlClose_homed {d k} (h : s.HomedAt me) : NextHomed (execSctlClose d k s) me := by
  unfold execSctlClose
  grind [done_homed, setStream_homed]
theorem execSctlAbort_homed {d k} (h : s.HomedAt me) : NextHomed (execSctlAbort d k s) me := by
  unfold execSctlAbort
  grind [done_homed, faultStream_homed]
theorem execSctlAdvance_homed {d k} (h : s.HomedAt me) : NextHomed (execSctlAdvance d k s) me := by
  unfold execSctlAdvance
  grind [onSh_homed, done_homed, setStream_homed]
theorem execSwait_homed {d k} (h : s.HomedAt me) : NextHomed (execSwait d k s) me := next_homed.mpr h
theorem execDataArrival_homed {n} (h : s.HomedAt me) : NextHomed (execDataArrival n s) me := by
  unfold execDataArrival
  repeat' split
  all_goals grind [next_homed, answered_homed, late_homed, enqueueMsg_homed]
theorem finishAt_homed {p i} (h : s.HomedAt me) : (s.finishAt p i).2.HomedAt me := by
  unfold State.finishAt
  grind [late_homed, onCore_homed, wakeJoins_at, onSeat_at]
theorem execFinishArrival_homed {n} (h : s.HomedAt me) : NextHomed (execFinishArrival n s) me := by
  have finished (p i) := finishAt_homed (p := p) (i := i) h
  unfold execFinishArrival
  repeat' split
  all_goals grind [next_homed, answered_homed, treeFinishArrives_homed]
theorem sendReplied_homed {p} (h : s.HomedAt me) : (s.sendReplied p).HomedAt me := by
  unfold State.sendReplied
  grind [onCore_homed, onSlot_at, Core.at?]
theorem requestReplied_homed {p} (h : s.HomedAt me) : (s.requestReplied p).HomedAt me := by
  unfold State.requestReplied
  grind [onCore_homed, atCore_homed, burstReplied_homed, requestDone_at, rpcReplied_at]
theorem execReplyArrival_homed {n} (h : s.HomedAt me) : NextHomed (execReplyArrival n s) me := by
  unfold execReplyArrival
  grind [unsend_homed, treeReplied_homed, sendReplied_homed, requestReplied_homed, next_homed]
theorem execFinishResend_homed {n} (h : s.HomedAt me) : NextHomed (execFinishResend n s) me := by
  unfold execFinishResend
  grind [onSh_homed, launchPacket_homed, next_homed]
theorem execBarrierArrival_homed {n} (h : s.HomedAt me) : NextHomed (execBarrierArrival n s) me := by
  unfold execBarrierArrival
  grind [onNode_homed, unsend_homed, send_homed, foldl_homed, next_homed]
theorem execBarrierRelease_homed {n} (h : s.HomedAt me) : NextHomed (execBarrierRelease n s) me := by
  unfold execBarrierRelease
  grind [onCore_homed, unsend_homed, next_homed, wakeBarriers_at, Core.at?]
theorem execWatchRequest_homed {n} (h : s.HomedAt me) : NextHomed (execWatchRequest n s) me := by
  unfold execWatchRequest
  grind [onNode_homed, answered_homed, next_homed]
theorem execWatchWakeArrival_homed {n} (h : s.HomedAt me) : NextHomed (execWatchWakeArrival n s) me := by
  unfold execWatchWakeArrival
  grind [onCore_homed, unsend_homed, next_homed, watchHit_at]
theorem execWakeArrival_homed {n} (h : s.HomedAt me) : NextHomed (execWakeArrival n s) me := by
  have woken (k t i) : (s.setCore k ((s.coreAt k).awaken t i).2).HomedAt me := setCore_homed h (awaken_at.mpr (coreAt_at h k))
  unfold execWakeArrival
  repeat' split
  all_goals grind [next_homed, answered_homed]
theorem branch_homed {a b o taken} (h : s.HomedAt me) : NextHomed (s.branch a b o taken) me := by
  unfold State.branch
  grind [commitTo_homed, takeTrap_homed, next_homed]
theorem execJmp_homed {o} (h : s.HomedAt me) : NextHomed (execJmp o s) me := next_homed.mpr h
theorem execJal_homed {l o} (h : s.HomedAt me) : NextHomed (execJal l o s) me := next_homed.mpr h
theorem execJalr_homed {d a i} (h : s.HomedAt me) : NextHomed (execJalr d a i s) me := by
  unfold execJalr
  grind [setG_homed, commitTo_homed, takeTrap_homed, next_homed]
theorem completeOp_homed {o f counter} (h : s.HomedAt me) : (s.completeOp o f counter).HomedAt me := by
  unfold State.completeOp
  grind [mk_homed, State.HomedAt.own, bump_at, flags_at]
theorem setTile_homed {t x} (h : s.HomedAt me) : (s.setTile t x).HomedAt me := h
theorem runMma_homed {o y} (h : s.HomedAt me) : (s.runMma o y).HomedAt me := by
  unfold State.runMma
  grind [completeOp_homed, setTile_homed]
theorem runMmas_homed {o} (h : s.HomedAt me) : (s.runMmas o).HomedAt me := by
  unfold State.runMmas
  grind [completeOp_homed, setTile_homed]
theorem runAccz_homed {o} (h : s.HomedAt me) : (s.runAccz o).HomedAt me := by
  unfold State.runAccz
  grind [completeOp_homed, setTile_homed]
theorem runAccrn_homed {o} (h : s.HomedAt me) : (s.runAccrn o).HomedAt me := by
  unfold State.runAccrn
  grind [completeOp_homed, setTile_homed]
theorem runAccld_homed {o y} (h : s.HomedAt me) : (s.runAccld o y).HomedAt me := by
  unfold State.runAccld
  grind [completeOp_homed, setTile_homed]
theorem storeWords_homed {me} (l : List (Nat × Bool)) : ∀ {s : State} {off}, s.HomedAt me → (s.storeWords off l).HomedAt me := by
  induction l with
  | nil => exact id
  | cons w r ih => exact fun h => ih (write_homed h)
theorem runAccst_homed {o y} (h : s.HomedAt me) : (s.runAccst o y).HomedAt me :=
  completeOp_homed (retag_homed (storeWords_homed _ h))
theorem runOp_homed {o} (h : s.HomedAt me) : (s.runOp o).HomedAt me := by
  unfold State.runOp
  grind [runMma_homed, runMmas_homed, runAccz_homed, runAccrn_homed, runAccld_homed, runAccst_homed]
theorem stepTensor_homed {p} (h : s.HomedAt me) : (s.stepTensor p).HomedAt me := by
  unfold State.stepTensor
  grind [onEng_homed, runOp_homed]
theorem stepMover_homed {p} (h : s.HomedAt me) : (s.stepMover p).HomedAt me := by
  unfold State.stepMover
  grind [onEng_homed, runOp_homed]
theorem execMmaExecute_homed (h : s.HomedAt me) : NextHomed (execMmaExecute s) me := by
  unfold execMmaExecute
  grind [stepTensor_homed, next_homed]
theorem execMmasExecute_homed (h : s.HomedAt me) : NextHomed (execMmasExecute s) me := by
  unfold execMmasExecute
  grind [stepTensor_homed, next_homed]
theorem execAcczPerform_homed (h : s.HomedAt me) : NextHomed (execAcczPerform s) me := by
  unfold execAcczPerform
  grind [stepTensor_homed, next_homed]
theorem execAccrnPerform_homed (h : s.HomedAt me) : NextHomed (execAccrnPerform s) me := by
  unfold execAccrnPerform
  grind [stepTensor_homed, next_homed]
theorem execAccldPerform_homed (h : s.HomedAt me) : NextHomed (execAccldPerform s) me := by
  unfold execAccldPerform
  grind [stepMover_homed, next_homed]
theorem execAccstPerform_homed (h : s.HomedAt me) : NextHomed (execAccstPerform s) me := by
  unfold execAccstPerform
  grind [stepMover_homed, next_homed]
theorem engineTurn_homed (h : s.HomedAt me) : s.engineTurn.HomedAt me := by
  unfold State.engineTurn
  grind [stepTensor_homed, stepMover_homed]
theorem byLead_homed {s t : State} {me} (h : s.HomedAt me) (ht : t.HomedAt me) : NextHomed (s.byLead t) me := by
  unfold State.byLead
  grind [next_homed]
theorem onKern_homed {i f} (h : s.HomedAt me) : (s.onKern i f).HomedAt me := h
theorem onReq_homed {i f} (h : s.HomedAt me) : (s.onReq i f).HomedAt me := h
theorem answerReq_homed {i r} (h : s.HomedAt me) : (s.answerReq i r).HomedAt me := h
theorem execRegister_homed {i} (h : s.HomedAt me) : NextHomed (execRegister i s) me := by
  unfold execRegister
  grind [onKern_homed, onReq_homed, answerReq_homed, next_homed]
theorem kernelRequest_homed {i op} {f : Nat → Reason × State} (h : s.HomedAt me) (hf : ∀ k, (f k).2.HomedAt me) :
    NextHomed (s.kernelRequest i op f) me := by
  unfold State.kernelRequest
  grind [next_homed, answerReq_homed]
theorem execReside_homed {i} (h : s.HomedAt me) : NextHomed (execReside i s) me := by
  unfold execReside
  grind [onKern_homed, kernelRequest_homed]
theorem execEvict_homed {i} (h : s.HomedAt me) : NextHomed (execEvict i s) me := by
  unfold execEvict
  grind [onKern_homed, kernelRequest_homed]
theorem execRetire_homed {i} (h : s.HomedAt me) : NextHomed (execRetire i s) me := by
  unfold execRetire
  grind [onKern_homed, kernelRequest_homed]
theorem loseCopies_homed {n} (h : s.HomedAt me) : (s.loseCopies n).HomedAt me := by
  unfold State.loseCopies
  grind [onKern_homed, foldl_homed]
theorem recopy_homed (h : s.HomedAt me) : s.recopy.HomedAt me := by
  unfold State.recopy
  grind [onKern_homed, foldl_homed]
theorem ldBody_homed {t a w d} (h : s.HomedAt me) : (ldBody t a w d s).HomedAt me := by
  unfold ldBody
  grind [setG_homed, consume_homed, orLate_homed, loadAt_homed, checkedLoad_homed, ok_homed]
theorem stBody_homed {t a w d} (h : s.HomedAt me) : (stBody t a w d s).HomedAt me := by
  unfold stBody
  grind [consume_homed, storeTo_homed, checked_homed, ok_homed]
theorem multiple_homed {a d k f} (hf : ∀ x, (f x).HomedAt me) : (s.multiple a d k f).HomedAt me := by
  unfold State.multiple
  grind [consume_homed, checked_homed, trap_homed]
theorem multipleLoad_homed {a d k f} (hf : ∀ x, (f x).HomedAt me) : (s.multipleLoad a d k f).HomedAt me := by
  unfold State.multipleLoad
  grind [multiple_homed, hold_homed]
theorem loadRegs_homed {p} (l : List Nat) : ∀ {s : State} {i}, s.HomedAt me → (s.loadRegs p i l).HomedAt me := by
  induction l with
  | nil => exact id
  | cons r rs ih => exact fun h => ih (setG_homed (loadAt_homed h))
theorem storeRegs_homed {p} (l : List Nat) : ∀ {s : State} {i}, s.HomedAt me → (s.storeRegs p i l).HomedAt me := by
  induction l with
  | nil => exact id
  | cons r rs ih => exact fun h => ih (storeAt_homed h)
theorem execLdm_homed {t a l d} (h : s.HomedAt me) : NextHomed (execLdm t a l d s) me :=
  finish_homed h (legal_homed (multipleLoad_homed fun _ => orLate_homed h (ok_homed.mpr (loadRegs_homed _ h))))
theorem execStm_homed {t a l d} (h : s.HomedAt me) : NextHomed (execStm t a l d s) me :=
  finish_homed h (legal_homed (multiple_homed fun _ => ok_homed.mpr (storeRegs_homed _ h)))
theorem execClusterPortAccess_homed (h : s.HomedAt me) : NextHomed (execClusterPortAccess s) me := by
  unfold execClusterPortAccess
  grind [portServe_homed, next_homed]
theorem retireNode_homed {k} (h : s.HomedAt me) : (s.retireNode k).HomedAt me := by
  unfold State.retireNode
  grind [onSite_homed, releaseQueued_homed, onUmpire_homed, voteTiles_homed]
theorem retireAll_homed {ks} (h : s.HomedAt me) : (s.retireAll ks).HomedAt me := by
  unfold State.retireAll
  grind [redraw_homed, retireNode_homed, foldl_homed]
theorem recommend_homed {n} (h : s.HomedAt me) : (s.recommend n).HomedAt me := by
  unfold State.recommend
  grind [onSite_homed, note_homed]
theorem markSuspect_homed {k} (h : s.HomedAt me) : (s.markSuspect k).HomedAt me := by
  unfold State.markSuspect
  grind [onPart_homed, redraw_homed, retireNode_homed, recommend_homed]
theorem retireSuspects_homed {g} (h : s.HomedAt me) : (s.retireSuspects g).HomedAt me := by
  unfold State.retireSuspects
  grind [retireAll_homed]
theorem retireLoose_homed {g} (h : s.HomedAt me) : (s.retireLoose g).HomedAt me := by
  unfold State.retireLoose
  grind [retireAll_homed]
theorem loadTrees_homed {g p} (h : s.HomedAt me) : (s.loadTrees g p).HomedAt me := by
  unfold State.loadTrees
  grind [onNode_homed, voteTiles_homed, foldl_homed]
theorem dropGid_homed {gid} (h : s.HomedAt me) : (s.dropGid gid).HomedAt me := h
theorem wipe_homed {p} (h : s.HomedAt me) : (s.wipe p).HomedAt me := h
theorem placeCells_homed {k l} (h : s.HomedAt me) : (s.placeCells k l).HomedAt me := h
theorem loadGroup_homed {i} (h : s.HomedAt me) : (s.loadGroup i).HomedAt me := by
  have cleared (ks p g) : (((s.closeWindows ks).wipe p).dropGid g).HomedAt me := dropGid_homed (wipe_homed (closeWindows_homed h))
  have placed (ks : List Nat) (p g j f cells) :
      (ks.foldl (fun s k => s.placeCells k cells) ((((s.closeWindows ks).wipe p).dropGid g).onGroup j f)).HomedAt me :=
    foldl_homed (fun _ _ => placeCells_homed) _ (onGroup_homed (cleared ks p g))
  exact onGroup_homed (loadTrees_homed (voteTiles_homed
    (onCores_homed (foldl_homed (fun _ _ => leaveRecords_homed) _ (placed _ _ _ _ _ _)) fun _ _ _ => loadCore_at _ _)))
theorem restoreTable_homed {α : Type} {g n} {l : List (Nat × α)} {f : State → Nat → α → State} (h : s.HomedAt me)
    (hf : ∀ t a b, t.HomedAt me → (f t a b).HomedAt me) : (s.restoreTable g n l f).HomedAt me := by
  unfold State.restoreTable
  exact foldl_homed (by grind) _ h
theorem restoreGroup_homed {i} (h : s.HomedAt me) : (s.restoreGroup i).HomedAt me := by
  unfold State.restoreGroup
  extract_lets g s₁
  split
  · exact loadGroup_homed h
  · extract_lets s₂ s₃ s₄ s₅ here s₆ s₇ s₈ s₉
    have h₁ : s₁.HomedAt me := dropGid_homed (wipe_homed (closeWindows_homed h))
    have h₂ : s₂.HomedAt me := foldl_homed (fun _ _ => onNode_homed) _ h₁
    have h₃ : s₃.HomedAt me := restoreTable_homed h₂ fun _ _ _ => id
    have h₄ : s₄.HomedAt me := restoreTable_homed h₃ fun _ _ _ => id
    have h₅ : s₅.HomedAt me := restoreTable_homed h₄ fun _ _ _ => id
    have h₆ : s₆.HomedAt me := by
      refine foldl_homed (fun _ _ h => onCore_homed h fun _ _ => ?_) _ h₅
      exact restoreCore_at _ _ _ _
    have h₇ : s₇.HomedAt me := foldl_homed (fun _ _ => onNode_homed) _ h₆
    have h₈ : s₈.HomedAt me := h₇
    have h₉ : s₉.HomedAt me := voteTiles_homed (foldl_homed (fun _ _ => leaveRecords_homed) _ h₈)
    exact onGroup_homed (loadTrees_homed h₉)
theorem rerouteBars_homed {i} (h : s.HomedAt me) : (s.rerouteBars i).HomedAt me := by
  unfold State.rerouteBars
  grind [onNode_homed, send_homed, foldl_homed]
theorem freeCore_homed {k} (h : s.HomedAt me) : (s.freeCore k).HomedAt me := by
  unfold State.freeCore
  grind [mk_homed, State.HomedAt.own, onCore_homed, closeWindowAt_homed, leaveRecords_homed, Core.at?]
theorem freeCores_homed {ks} (h : s.HomedAt me) : (s.freeCores ks).HomedAt me := by
  unfold State.freeCores
  grind [voteTiles_homed, freeCore_homed, foldl_homed]
theorem unmapped_homed {old g} (h : s.HomedAt me) : (s.unmapped old g).HomedAt me := by
  unfold State.unmapped
  grind [redrawn_homed]
theorem endLaunch_homed {i st} (h : s.HomedAt me) : (s.endLaunch i st).HomedAt me := by
  unfold State.endLaunch
  grind [complete_homed]
theorem retireGroup_homed {i st} (h : s.HomedAt me) : (s.retireGroup i st).HomedAt me := by
  have ended (g : Group) (j f) : (((((s.endSuspend i 8).freeCores g.cores).dropGid g.gid).endLaunch i st).onGroup j f).HomedAt me :=
    onGroup_homed (endLaunch_homed (dropGid_homed (freeCores_homed (endSuspend_homed h))))
  exact retireLoose_homed (unmapped_homed (ended _ _ _))
theorem rebid_homed {i} (h : s.HomedAt me) : (s.rebid i).HomedAt me := by
  unfold State.rebid
  grind [mk_homed, State.HomedAt.own, onGroup_homed, onQueue_homed, retireLoose_homed, dropGid_homed, Core.at?]
theorem relaunchGroup_homed {i} (h : s.HomedAt me) : (s.relaunchGroup i).HomedAt me := by
  have freed (g : Group) (j f) : (((s.freeCores g.cores).dropGid g.gid).onGroup j f).HomedAt me :=
    onGroup_homed (dropGid_homed (freeCores_homed h))
  exact retireLoose_homed (unmapped_homed (freed _ _ _))
theorem freePaddlesAt_homed {k p} (h : s.HomedAt me) : (s.freePaddlesAt k p).HomedAt me := by
  unfold State.freePaddlesAt
  grind [onCore_homed, releaseTags_homed, voteTiles_homed, foldl_homed, unqueue_at, onSlot_at]
theorem dropPaddlesAt_homed {k} (h : s.HomedAt me) : (s.dropPaddlesAt k).HomedAt me :=
  coxWrites_homed (freePaddlesAt_homed h) fun _ c hc => (foldl_at (by grind [onSlot_at]) _ c).mpr hc
theorem beginCut_homed {i f} (h : s.HomedAt me) : (s.beginCut i f).HomedAt me := by
  unfold State.beginCut
  grind [onGroup_homed, coxWrites_homed, dropPaddlesAt_homed, foldl_homed, Core.at?]
theorem drainGroup_homed {i after} (h : s.HomedAt me) : (s.drainGroup i after).HomedAt me := by
  unfold State.drainGroup
  grind [onGroup_homed, endSuspend_homed, beginCut_homed]
theorem endCut_homed {i} (h : s.HomedAt me) : (s.endCut i).HomedAt me := by
  unfold State.endCut
  grind [onGroup_homed, coxWrites_homed, Core.at?]
theorem drainPortOf_homed {k} (h : s.HomedAt me) : (s.drainPortOf k).HomedAt me := by
  unfold State.drainPortOf
  grind [portPerform_homed, foldl_homed]
theorem execCutComplete_homed {i} (h : s.HomedAt me) : NextHomed (execCutComplete i s) me := by
  have saved (g : Group) : (g.cores.foldl (fun s k => (s.drainPortOf k).freePaddlesAt k fun _ => true)
      (g.cores.foldl (fun s k => s.atCore k State.takeLate) s)).HomedAt me :=
    foldl_homed (fun _ _ h => freePaddlesAt_homed (drainPortOf_homed h)) _ (foldl_homed (fun _ _ h => atCore_homed h takeLate_homed) _ h)
  have passed (g : Group) (qs : List Nat) {u : State} (hu : u.HomedAt me) :
      (qs.foldl (fun s q => s.completeCurrent q 0) ((u.freeCores g.cores).dropGid g.gid)).HomedAt me :=
    foldl_homed (fun _ _ => completeCurrent_homed) _ (dropGid_homed (freeCores_homed hu))
  refine byLead_homed h ?_
  split
  · exact h
  split
  · exact retireGroup_homed h
  split
  · exact retireLoose_homed (unmapped_homed (onGroup_homed (passed _ _ (saved _))))
  · exact relaunchGroup_homed h
  · exact h
theorem execCutDeadline_homed {i} (h : s.HomedAt me) : NextHomed (execCutDeadline i s) me := by
  unfold execCutDeadline
  grind [endSuspend_homed, byLead_homed, retireGroup_homed, relaunchGroup_homed, endCut_homed]
theorem execRelaunch_homed {i} (h : s.HomedAt me) : NextHomed (execRelaunch i s) me := by
  unfold execRelaunch
  grind [byLead_homed, retireGroup_homed, relaunchGroup_homed]
theorem execGroupRetirement_homed {i} (h : s.HomedAt me) : NextHomed (execGroupRetirement i s) me := by
  unfold execGroupRetirement
  grind [byLead_homed, retireGroup_homed]
theorem execPlacement_homed {i} (h : s.HomedAt me) : NextHomed (execPlacement i s) me := by
  unfold execPlacement
  grind [onGroup_homed, byLead_homed, retireSuspects_homed, loadGroup_homed, restoreGroup_homed, retireGroup_homed, rebid_homed]
theorem execGroupStart_homed {i} (h : s.HomedAt me) : NextHomed (execGroupStart i s) me := by
  unfold execGroupStart
  grind [onGroup_homed, closeWindows_homed, coxWrites_homed, byLead_homed, rerouteBars_homed, resumeIdle_at, start_at]
theorem execPeerPanelAdmission_homed {gid} (h : s.HomedAt me) : NextHomed (execPeerPanelAdmission gid s) me := by
  unfold execPeerPanelAdmission
  grind [onGroup_homed, byLead_homed]
theorem follow_homed {i draining} (h : s.HomedAt me) : (s.follow i draining).HomedAt me := by
  unfold State.follow
  grind [mk_homed, State.HomedAt.own, onGroup_homed, completeCurrent_homed, faultGroup_homed, beginCut_homed, drainGroup_homed, foldl_homed]
theorem execPeerPanelGroupFault_homed {gid draining} (h : s.HomedAt me) : NextHomed (execPeerPanelGroupFault gid draining s) me := by
  unfold execPeerPanelGroupFault
  grind [byLead_homed, follow_homed]
theorem execPaddleCreation_homed {own} (h : s.HomedAt me) : NextHomed (execPaddleCreation own s) me := by
  have created {t : State} (ht : t.HomedAt me) (j f n) : ({ t with core := (t.core.onSlot j f).enqueue j }.vote n).HomedAt me :=
    vote_homed (mk_homed ht (enqueue_at.mpr (onSlot_at.mpr ht.own)))
  have entered (k f off bs j g n) : ({ (s.onKern k f).write s.here off bs false with
      core := (((s.onKern k f).write s.here off bs false).core.onSlot j g).enqueue j }.vote n).HomedAt me :=
    created (write_homed (onKern_homed h)) j g n
  unfold execPaddleCreation
  extract_lets c paddles
  split
  · exact next_homed.mpr h
  split
  · exact next_homed.mpr (freePaddlesAt_homed h)
  split
  · extract_lets g
    split
    · exact next_homed.mpr h
    extract_lets own' t
    split
    · exact next_homed.mpr h
    split
    · exact next_homed.mpr (onKern_homed h)
    · exact next_homed.mpr (entered _ _ _ _ _ _ _)
  · exact next_homed.mpr h
theorem openWindowOnce_homed (h : s.HomedAt me) : s.openWindowOnce.HomedAt me := h
theorem byHost_homed {t} (h : s.HomedAt me) (ht : ∀ u : State, u.HomedAt me → (t u).HomedAt me) : NextHomed (s.byHost t) me := by
  unfold State.byHost
  grind [openWindowOnce_homed, next_homed]
theorem activate_homed {q} (h : s.HomedAt me) : (s.activate q).HomedAt me := by
  unfold State.activate
  grind [onQueue_homed]
theorem stopQueue_homed {q} (h : s.HomedAt me) : (s.stopQueue q).HomedAt me := by
  unfold State.stopQueue
  grind [mk_homed, State.HomedAt.own, onQueue_homed, complete_homed]
theorem execQueueActivate_homed {q _dom} (h : s.HomedAt me) : NextHomed (execQueueActivate q _dom s) me := by
  unfold execQueueActivate
  grind [byHost_homed, activate_homed]
theorem execQueueStop_homed {q _dom} (h : s.HomedAt me) : NextHomed (execQueueStop q _dom s) me := by
  unfold execQueueStop
  grind [byHost_homed, stopQueue_homed]
theorem ring_homed {q tail} (h : s.HomedAt me) : (s.ring q tail).HomedAt me := by
  unfold State.ring
  grind [onQueue_homed]
theorem execDoorbell_homed {q _dom tail} (h : s.HomedAt me) : NextHomed (execDoorbell q _dom tail s) me := by
  unfold execDoorbell
  grind [byHost_homed, ring_homed]
theorem execCommandFetch_homed {q} (h : s.HomedAt me) : NextHomed (execCommandFetch q s) me := by
  unfold execCommandFetch
  grind [mk_homed, State.HomedAt.own, onQueue_homed, hostWrite_homed, byLead_homed]
theorem onCurrent_homed {q f} (h : s.HomedAt me) : (s.onCurrent q f).HomedAt me := by
  unfold State.onCurrent
  grind [onQueue_homed]
theorem newBid_homed {b} (h : s.HomedAt me) : (s.newBid b).HomedAt me := h
theorem execLaunch_homed {q} (h : s.HomedAt me) : NextHomed (execLaunch q s) me := by
  unfold execLaunch
  grind [complete_homed, byLead_homed, onCurrent_homed, newBid_homed]
theorem dropBid_homed {w} (h : s.HomedAt me) : (s.dropBid w).HomedAt me := h
theorem admitBid_homed {s t : State} {me b cx cy v} (h : s.HomedAt me) (e : s.admitBid b cx cy v = some t) : t.HomedAt me := by
  unfold State.admitBid at e
  extract_lets m at e
  split at e
  · grind [onGroup_homed, dropBid_homed]
  · next g q _ =>
    have passed (f) : ((s.onGroup g f).completeCurrent q 0).HomedAt me := completeCurrent_homed (onGroup_homed h)
    split at e
    · cases e
    · cases e
      exact foldl_homed (fun _ _ => completeCurrent_homed) _ (passed _)
  · split at e
    · split at e
      · cases e
      · cases e
        exact dropBid_homed h
    · cases e
theorem tryBid_homed {s t : State} {me b} (h : s.HomedAt me) (e : s.tryBid b = some t) : t.HomedAt me := by
  obtain ⟨_, _, e⟩ := Option.bind_eq_some_iff.mp e
  exact admitBid_homed h e
theorem onBid_homed {w f} (h : s.HomedAt me) : (s.onBid w f).HomedAt me := h
theorem reserve_homed {w} (h : s.HomedAt me) : (s.reserve w).HomedAt me := by
  unfold State.reserve
  grind [onBid_homed]
theorem setBound_homed {b} (h : s.HomedAt me) : (s.setBound b).HomedAt me := by
  unfold State.setBound
  grind [mk_homed, State.HomedAt.own, reserve_homed, foldl_homed]
theorem bypassed_homed {l} (h : s.HomedAt me) : (s.bypassed l).HomedAt me := by
  unfold State.bypassed
  grind [onBid_homed, foldl_homed]
theorem keepReservation_homed {w cx cy v} (h : s.HomedAt me) : (s.keepReservation w cx cy v).HomedAt me := by
  unfold State.keepReservation
  grind [onBid_homed]
theorem reserveBefore_homed {w lower} (h : s.HomedAt me) : (s.reserveBefore w lower).HomedAt me := by
  unfold State.reserveBefore
  grind [onBid_homed, reserve_homed, keepReservation_homed, foldl_homed]
theorem reserveReached_homed {failed taken} (h : s.HomedAt me) : (s.reserveReached failed taken).1.HomedAt me :=
  foldl_homed (fun _ _ => reserveBefore_homed) _ h
theorem passOver_homed {me} (l : List BidFor) : ∀ {s : State} {taken failed}, s.HomedAt me → (s.passOver taken failed l).HomedAt me := by
  induction l with
  | nil => exact id
  | cons w r ih =>
    intro s taken failed h
    unfold State.passOver
    split
    · exact ih h
    · split
      · next e => exact ih (reserveReached_homed (bypassed_homed (tryBid_homed h e)))
      · exact ih (reserve_homed h)
theorem pass_homed (h : s.HomedAt me) : s.pass.HomedAt me := passOver_homed _ (mk_homed h h.own)
theorem execAdmissionPass_homed (h : s.HomedAt me) : NextHomed (execAdmissionPass s) me := by
  unfold execAdmissionPass
  grind [byLead_homed, pass_homed]
theorem copyEnd_homed {q isHost a need} (h : s.HomedAt me) : (s.copyEnd q isHost a need).2.HomedAt me := by
  unfold State.copyEnd
  grind [translateTile_homed]
theorem copyWaits_homed {q step a need perm} (h : s.HomedAt me) : (s.copyWaits q step a need perm).HomedAt me := by
  unfold State.copyWaits
  grind [faultRecord_homed, onCurrent_homed]
theorem copyPiece_homed {q step c err} (h : s.HomedAt me) : (s.copyPiece q step c err).HomedAt me := by
  have ends {t u : State} {x i a n} (ht : t.HomedAt me) (e : t.copyEnd q i a n = (x, u)) : u.HomedAt me := by
    have := copyEnd_homed (q := q) (isHost := i) (a := a) (need := n) ht
    rwa [e] at this
  unfold State.copyPiece
  extract_lets len hs hd src dst n
  split
  · next e => exact complete_homed (ends h e)
  · next e => exact copyWaits_homed (ends h e)
  · next e => exact onCurrent_homed (ends h e)
  · next e => exact ends h e
  · next e =>
    have ht := ends h e
    split
    · next e => exact complete_homed (ends ht e)
    · next e => exact copyWaits_homed (ends ht e)
    · next e => exact onCurrent_homed (ends ht e)
    · next e => exact ends ht e
    · next u e =>
      extract_lets m w
      have hw : w.HomedAt me := poke_homed (ends ht e)
      grind [complete_homed, onCurrent_homed]
theorem execCopy_homed {q err} (h : s.HomedAt me) : NextHomed (execCopy q err s) me := by
  unfold execCopy
  grind [complete_homed, deliverRec_homed, byLead_homed, copyPiece_homed]
theorem execRefusalRetry_homed (h : s.HomedAt me) : NextHomed (execRefusalRetry s) me := by
  unfold execRefusalRetry
  grind [retryStreams_homed, copyPiece_homed, foldl_homed, next_homed]
theorem testWait_homed {q} (h : s.HomedAt me) : (s.testWait q).HomedAt me := by
  unfold State.testWait
  grind [complete_homed]
theorem setSignal_homed {i v} (h : s.HomedAt me) : (s.setSignal i v).HomedAt me := by
  unfold State.setSignal
  grind [mk_homed, State.HomedAt.own, testWait_homed, foldl_homed]
theorem execSignalSet_homed {q} (h : s.HomedAt me) : NextHomed (execSignalSet q s) me := by
  unfold execSignalSet
  grind [complete_homed, byLead_homed, setSignal_homed]
theorem execSignalAdd_homed {q} (h : s.HomedAt me) : NextHomed (execSignalAdd q s) me := by
  unfold execSignalAdd
  grind [complete_homed, byLead_homed, setSignal_homed]
theorem execWaitsig_homed {q} (h : s.HomedAt me) : NextHomed (execWaitsig q s) me := by
  unfold execWaitsig
  grind [byLead_homed, testWait_homed]
theorem execQueueFence_homed {q} (h : s.HomedAt me) : NextHomed (execQueueFence q s) me := by
  unfold execQueueFence
  grind [complete_homed, byLead_homed]
theorem drainOver_homed {me} (n : Nat) : ∀ {s : State}, s.HomedAt me → (s.drainOver n).HomedAt me := by
  induction n with
  | zero => exact id
  | succ n ih =>
    intro s h
    unfold State.drainOver
    grind [drainGroup_homed]
theorem emergency_homed (h : s.HomedAt me) : s.emergency.HomedAt me := drainOver_homed _ (mk_homed h h.own)
theorem execPowerBudget_homed {q} (h : s.HomedAt me) : NextHomed (execPowerBudget q s) me := by
  unfold execPowerBudget
  grind [mk_homed, State.HomedAt.own, complete_homed, byLead_homed, emergency_homed]
theorem execPowerRamp_homed {q} (h : s.HomedAt me) : NextHomed (execPowerRamp q s) me := by
  unfold execPowerRamp
  grind [mk_homed, State.HomedAt.own, complete_homed, byLead_homed]
theorem execPowerSuspend_homed {q} (h : s.HomedAt me) : NextHomed (execPowerSuspend q s) me := by
  unfold execPowerSuspend
  grind [onGroup_homed, complete_homed, byLead_homed, beginCut_homed, onCurrent_homed]
theorem execPowerResume_homed {q} (h : s.HomedAt me) : NextHomed (execPowerResume q s) me := by
  unfold execPowerResume
  grind [complete_homed, byLead_homed, onCurrent_homed, newBid_homed]
theorem setEntry_homed {a e} (h : s.HomedAt me) : (s.setEntry a e).HomedAt me := h
theorem clearFar_homed {fpa n} (h : s.HomedAt me) : (s.clearFar fpa n).HomedAt me := h
theorem makeTables_homed {dom va} (n : Nat) : ∀ {s : State} {a l r}, s.HomedAt me → s.makeTables dom va a l n = some r → r.2.HomedAt me := by
  induction n with
  | zero => exact fun h e => by cases e; exact h
  | succ n ih =>
    intro s a l r h e
    unfold State.makeTables at e
    repeat' split at e
    · cases e
    · cases e
    · cases e
    · refine ih (setEntry_homed (clearFar_homed ?_)) e
      exact h
theorem settleRecords_homed {dom lo hi f} (h : s.HomedAt me) : (s.settleRecords dom lo hi f).HomedAt me := by
  unfold State.settleRecords
  grind [onSite_homed, vote_homed, foldl_homed]
theorem execFaultLimit_homed {site i} (h : s.HomedAt me) : NextHomed (execFaultLimit site i s) me := by
  unfold execFaultLimit
  grind [vote_homed, onRec_homed, next_homed]
theorem pageDone_homed {dom va n f} (h : s.HomedAt me) : (s.pageDone dom va n f).HomedAt me := by
  unfold State.pageDone
  grind [dropTlbs_homed, settleRecords_homed]
theorem mapPage_homed {s t : State} {me dom c i} (h : s.HomedAt me) (e : s.mapPage dom c i = some t) : t.HomedAt me := by
  have write {u : State} (hu : u.HomedAt me) (a x va n f) : ((u.setEntry a x).pageDone dom va n f).HomedAt me :=
    pageDone_homed (setEntry_homed hu)
  unfold State.mapPage at e
  split at e
  · cases e
  · extract_lets va perms write' at e
    split at e
    · cases e
    · cases e
    · grind
    · obtain ⟨r, hr, rfl⟩ := Option.map_eq_some_iff.mp e
      exact write (makeTables_homed _ h hr) _ _ _ _ _
theorem mapPages_homed {dom c} (l : List Nat) : ∀ {s t : State}, s.HomedAt me → s.mapPages dom c l = some t → t.HomedAt me := by
  induction l with
  | nil => exact fun h e => by cases e; exact h
  | cons i r ih =>
    intro s t h e
    obtain ⟨u, hu, e⟩ := Option.bind_eq_some_iff.mp e
    exact ih (mapPage_homed h hu) e
theorem pageCommand_homed {q sub} {f : Cmd → Domain → State} (h : s.HomedAt me) (hf : ∀ c d, (f c d).HomedAt me) :
    NextHomed (s.pageCommand q sub f) me := by
  refine byLead_homed h ?_
  grind [complete_homed]
theorem execPageMap_homed {q} (h : s.HomedAt me) : NextHomed (execPageMap q s) me := by
  unfold execPageMap
  grind [complete_homed, mapPages_homed, pageCommand_homed]
theorem unmapPage_homed {d c i} (h : s.HomedAt me) : (s.unmapPage d c i).HomedAt me := by
  unfold State.unmapPage
  grind [setEntry_homed, pageDone_homed]
theorem execPageUnmap_homed {q} (h : s.HomedAt me) : NextHomed (execPageUnmap q s) me := by
  refine pageCommand_homed h fun c d => ?_
  extract_lets l
  split
  · exact complete_homed h
  split
  · exact h
  · exact complete_homed (foldl_homed (fun _ _ => unmapPage_homed) _ h)
theorem moveFar_homed {src dst n} (h : s.HomedAt me) : (s.moveFar src dst n).HomedAt me := h
theorem nextPage_homed {q c} (h : s.HomedAt me) : (s.nextPage q c).HomedAt me := by
  unfold State.nextPage
  grind [complete_homed, onCurrent_homed]
theorem beginMove_homed {q c d} (h : s.HomedAt me) : (s.beginMove q c d).HomedAt me := by
  unfold State.beginMove
  grind [complete_homed, dropTlbs_homed, onCurrent_homed, setEntry_homed, nextPage_homed]
theorem endMove_homed {q c d err a e} (h : s.HomedAt me) : (s.endMove q c d err a e).HomedAt me := by
  unfold State.endMove
  grind [complete_homed, setEntry_homed, settleRecords_homed, moveFar_homed, nextPage_homed]
theorem execPageMigrate_homed {q err} (h : s.HomedAt me) : NextHomed (execPageMigrate q err s) me := by
  unfold execPageMigrate
  grind [complete_homed, pageCommand_homed, beginMove_homed, endMove_homed]
theorem rekey_homed {lo hi keys} (h : s.HomedAt me) : (s.rekey lo hi keys).HomedAt me := by
  unfold State.rekey
  grind [mk_homed, State.HomedAt.own, foldl_homed]
theorem execDomainCreation_homed {d} (h : s.HomedAt me) : NextHomed (execDomainCreation d s) me := by
  unfold execDomainCreation
  grind [mk_homed, State.HomedAt.own, clearFar_homed, rekey_homed, foldl_homed, next_homed]
theorem darkCores_homed {n} (h : s.HomedAt me) : (s.darkCores n).HomedAt me := by
  unfold State.darkCores
  grind [onCores_homed, Core.at?]
theorem setSite_homed {n st} (h : s.HomedAt me) : (s.setSite n st).HomedAt me := by
  unfold State.setSite
  grind [onSite_homed, note_homed, darkCores_homed]
theorem linksDown_homed {n} (h : s.HomedAt me) : (s.linksDown n).HomedAt me := by
  unfold State.linksDown
  grind [onLink_homed, foldl_homed]
theorem linksUp_homed {n} (h : s.HomedAt me) : (s.linksUp n).HomedAt me := by
  unfold State.linksUp
  grind [onLink_homed, foldl_homed]
theorem clearOffsets_homed {n} (h : s.HomedAt me) : (s.clearOffsets n).HomedAt me := h
theorem setAbsent_homed {n} (h : s.HomedAt me) : (s.setAbsent n).HomedAt me := by
  unfold State.setAbsent
  grind [mk_homed, State.HomedAt.own, voteTiles_homed]
theorem raiseSite_homed {i n} (h : s.HomedAt me) : (s.raiseSite i n).HomedAt me := by
  unfold State.raiseSite
  grind [coxWrites_homed, raiseSite_at]
theorem groupLeaves_homed {i n loss shard} (h : s.HomedAt me) : (s.groupLeaves i n loss shard).HomedAt me := by
  unfold State.groupLeaves
  grind [faultGroup_homed, drainGroup_homed, raiseSite_homed]
theorem faultShards_homed {n} (h : s.HomedAt me) : (s.faultShards n).HomedAt me := by
  unfold State.faultShards
  grind [faultGroup_homed, foldl_homed]
theorem emptyProxy_homed {n} (h : s.HomedAt me) : (s.emptyProxy n).HomedAt me := by
  unfold State.emptyProxy
  grind [onSite_homed, send_homed, foldl_homed]
theorem portsUp_homed {n up} (h : s.HomedAt me) : (s.portsUp n up).HomedAt me := by
  unfold State.portsUp
  grind [mk_homed, State.HomedAt.own]
theorem leavePath_homed {i n} (h : s.HomedAt me) : (s.leavePath i n).HomedAt me := by
  unfold State.leavePath
  grind [onGroup_homed, rerouteBars_homed]
theorem nameDeputy_homed (h : s.HomedAt me) : s.nameDeputy.HomedAt me := by
  unfold State.nameDeputy
  grind [mk_homed, State.HomedAt.own]
theorem rootClock_homed {n} (h : s.HomedAt me) : (s.rootClock n).HomedAt me := h
theorem makeLead_homed {n} (h : s.HomedAt me) : (s.makeLead n).HomedAt me := h
theorem takeOver_homed (h : s.HomedAt me) : s.takeOver.HomedAt me := by
  unfold State.takeOver
  grind [mk_homed, State.HomedAt.own, makeLead_homed]
theorem answerHole_homed {into} (h : s.HomedAt me) : (s.answerHole into).HomedAt me := by
  unfold State.answerHole
  grind [mk_homed, State.HomedAt.own, send_homed, foldl_homed]
theorem holeInto_homed {n} (h : s.HomedAt me) : (s.holeInto n).HomedAt me := by
  unfold State.holeInto
  grind [mk_homed, State.HomedAt.own, holeAll_homed, answerHole_homed]
theorem leaveLive_homed {n next loss} (h : s.HomedAt me) : (s.leaveLive n next loss).HomedAt me := by
  unfold State.leaveLive
  extract_lets shards s₁ s₂ s₃ s₄ s₅ s₆
  have h₁ : s₁.HomedAt me := redraw_homed (portsUp_homed (linksDown_homed (setSite_homed h)))
  have h₂ : s₂.HomedAt me := holeInto_homed (setAbsent_homed (clearOffsets_homed h₁))
  have h₃ : s₃.HomedAt me := foldl_homed (fun _ _ => groupLeaves_homed) _ h₂
  have h₄ : s₄.HomedAt me := foldl_homed (fun _ _ => leavePath_homed) _ h₃
  have h₅ : s₅.HomedAt me := by grind [takeOver_homed, nameDeputy_homed]
  have h₆ : s₆.HomedAt me := releaseQueued_homed (onSite_homed h₅)
  grind [emptyProxy_homed, loseCopies_homed]
theorem freshNodes_homed {n} (h : s.HomedAt me) : (s.freshNodes n).HomedAt me := by
  unfold State.freshNodes
  grind [mk_homed, State.HomedAt.own, onNode_homed, wipe_homed, foldl_homed]
theorem freshUmpires_homed {n} (h : s.HomedAt me) : (s.freshUmpires n).HomedAt me := by
  unfold State.freshUmpires
  grind [onUmpire_homed, foldl_homed]
theorem takeRows_homed {n} (h : s.HomedAt me) : (s.takeRows n).HomedAt me := by
  unfold State.takeRows
  grind [onGroup_homed, voteTiles_homed, foldl_homed]
theorem enterLive_homed {n} (h : s.HomedAt me) : (s.enterLive n).HomedAt me := by
  unfold State.enterLive
  extract_lets s₁ s₂ s₃ s₄ s₅ s₆
  have h₂ : s₂.HomedAt me := freshNodes_homed (onSite_homed h)
  have h₃ : s₃.HomedAt me := by grind [freshUmpires_homed, freshCores_homed]
  have h₄ : s₄.HomedAt me := redraw_homed (takeRows_homed (portsUp_homed (linksUp_homed (setSite_homed h₃))))
  have h₅ : s₅.HomedAt me := by grind [recopy_homed]
  have h₆ : s₆.HomedAt me := by grind [makeLead_homed, nameDeputy_homed]
  exact openWindowOnce_homed (releaseQueued_homed h₆)
theorem execSiteAdmission_homed {n} (h : s.HomedAt me) : NextHomed (execSiteAdmission n s) me := by
  unfold execSiteAdmission
  grind [enterLive_homed, next_homed]
theorem readmitTree_homed {g n t} (h : s.HomedAt me) : (s.readmitTree g n t).HomedAt me := by
  unfold State.readmitTree
  grind [onEntry_homed, foldl_homed]
theorem readmitGroup_homed {i n} (h : s.HomedAt me) : (s.readmitGroup i n).HomedAt me := by
  unfold State.readmitGroup
  grind [loadTrees_homed, raiseSite_homed, readmitTree_homed, foldl_homed]
theorem holeLane2_homed {n} (h : s.HomedAt me) : (s.holeLane2 n).HomedAt me := by
  unfold State.holeLane2
  grind [holeAll_homed, answerHole_homed]
theorem execRouteSwitch_homed {cls n} (h : s.HomedAt me) : NextHomed (execRouteSwitch cls n s) me := by
  unfold execRouteSwitch
  grind [onSite_homed, releaseQueued_homed, onLink_homed, readmitGroup_homed, holeLane2_homed, foldl_homed, next_homed]
theorem siteEvent_homed {s t : State} {me n from_} (h : s.HomedAt me) (ht : t.HomedAt me) : NextHomed (s.siteEvent n from_ t) me := by
  unfold State.siteEvent
  grind [next_homed]
theorem swapTile_homed {n list} (h : s.HomedAt me) : (s.swapTile n list).HomedAt me := by
  unfold State.swapTile
  grind [mk_homed, State.HomedAt.own, onSite_homed, redrawn_homed]
theorem execContactMade_homed {n tile} (h : s.HomedAt me) : NextHomed (execContactMade n tile s) me := by
  unfold execContactMade
  grind [onSite_homed, recommend_homed, setSite_homed, swapTile_homed, next_homed]
theorem regionsAt_homed {n leads} (h : s.HomedAt me) : (s.regionsAt n leads).HomedAt me := h
theorem coldTile_homed {n} (h : s.HomedAt me) : (s.coldTile n).HomedAt me := by
  unfold State.coldTile
  grind [mk_homed, State.HomedAt.own, onSite_homed, redrawn_homed, freshCores_homed]
theorem bootTile_homed {n} (h : s.HomedAt me) : (s.bootTile n).HomedAt me := by
  unfold State.bootTile
  grind [onSite_homed, coldTile_homed]
theorem execBringUpStart_homed {n leads} (h : s.HomedAt me) : NextHomed (execBringUpStart n leads s) me := by
  unfold execBringUpStart
  grind [setSite_homed, siteEvent_homed, regionsAt_homed, bootTile_homed]
theorem failTraining_homed {n} (h : s.HomedAt me) : (s.failTraining n).HomedAt me := by
  unfold State.failTraining
  grind [recommend_homed, openWindowOnce_homed, setSite_homed]
theorem execTrainingPass_homed {n} (h : s.HomedAt me) : NextHomed (execTrainingPass n s) me := by
  refine siteEvent_homed h ?_
  split
  · exact h
  split
  · exact setSite_homed (onSite_homed h)
  · exact failTraining_homed h
theorem execTrainingFailure_homed {n} (h : s.HomedAt me) : NextHomed (execTrainingFailure n s) me := by
  unfold execTrainingFailure
  grind [siteEvent_homed, failTraining_homed]
theorem drainSite_homed {n} (h : s.HomedAt me) : (s.drainSite n).HomedAt me := by
  unfold State.drainSite
  grind [leaveLive_homed]
theorem execDrain_homed {n} (h : s.HomedAt me) : NextHomed (execDrain n s) me := by
  unfold execDrain
  grind [drainSite_homed, next_homed]
theorem execReadmit_homed {n} (h : s.HomedAt me) : NextHomed (execReadmit n s) me := by
  unfold execReadmit
  grind [setSite_homed, siteEvent_homed, regionsAt_homed, bootTile_homed]
theorem loseDraining_homed {n} (h : s.HomedAt me) : (s.loseDraining n).HomedAt me := by
  unfold State.loseDraining
  grind [onSite_homed, setSite_homed, faultShards_homed]
theorem execContactLost_homed {n} (h : s.HomedAt me) : NextHomed (execContactLost n s) me := by
  unfold execContactLost
  grind [onSite_homed, openWindowOnce_homed, setSite_homed, siteEvent_homed, loseDraining_homed]
theorem execSurpriseRemoval_homed {n} (h : s.HomedAt me) : NextHomed (execSurpriseRemoval n s) me := by
  unfold execSurpriseRemoval
  grind [onSite_homed, leaveLive_homed, siteEvent_homed, loseDraining_homed]
theorem execLostCleanupComplete_homed {n} (h : s.HomedAt me) : NextHomed (execLostCleanupComplete n s) me := by
  unfold execLostCleanupComplete
  grind [onSite_homed, openWindowOnce_homed, setSite_homed, siteEvent_homed]
theorem execDrainComplete_homed {n} (h : s.HomedAt me) : NextHomed (execDrainComplete n s) me := by
  unfold execDrainComplete
  grind [openWindowOnce_homed, setSite_homed, siteEvent_homed]
theorem execDrainDeadline_homed {n} (h : s.HomedAt me) : NextHomed (execDrainDeadline n s) me := by
  refine siteEvent_homed h ?_
  split
  · exact openWindowOnce_homed (onSite_homed (setSite_homed (faultShards_homed h)))
  · exact h
theorem dissent_homed {n c} (h : s.HomedAt me) : (s.dissent n c).HomedAt me := by
  unfold State.dissent
  grind [note_homed, onTriad_homed, nameDeputy_homed]
theorem haltTriad_homed {n} (h : s.HomedAt me) : (s.haltTriad n).HomedAt me := by
  unfold State.haltTriad
  grind [note_homed, onTriad_homed, faultShards_homed, nameDeputy_homed, leaveLive_homed]
theorem settleTriad_homed {n} (h : s.HomedAt me) : (s.settleTriad n).HomedAt me := by
  unfold State.settleTriad
  grind [haltTriad_homed]
theorem outvoted_homed {n c} (h : s.HomedAt me) : (s.outvoted n c).HomedAt me := by
  unfold State.outvoted
  grind [dissent_homed, settleTriad_homed]
theorem issueTx_homed {n no x c d} (h : s.HomedAt me) : (s.issueTx n no x c d).HomedAt me := by
  unfold State.issueTx
  grind [onTriad_homed, outvoted_homed, foldl_homed]
theorem present_homed {n c x} (h : s.HomedAt me) : (s.present n c x).HomedAt me := by
  unfold State.present
  grind [onTriad_homed, haltTriad_homed, outvoted_homed, issueTx_homed]
theorem presentAll_homed {n p} (h : s.HomedAt me) : (s.presentAll n p).HomedAt me := by
  unfold State.presentAll
  grind [present_homed, foldl_homed]
theorem catchUp_homed {n} (h : s.HomedAt me) : (s.catchUp n).HomedAt me := h
theorem execVotedTransaction_homed {n p} (h : s.HomedAt me) : NextHomed (execVotedTransaction n p s) me := by
  unfold execVotedTransaction
  grind [presentAll_homed, catchUp_homed, next_homed]
theorem execSilentCopyTimeout_homed {n} (h : s.HomedAt me) : NextHomed (execSilentCopyTimeout n s) me := by
  unfold execSilentCopyTimeout
  grind [haltTriad_homed, outvoted_homed, catchUp_homed, next_homed]
theorem execCopyReset_homed {n c} (h : s.HomedAt me) : NextHomed (execCopyReset n c s) me := by
  unfold execCopyReset
  grind [onTriad_homed, next_homed]
theorem commitCheck_homed {n digest reloaded} (h : s.HomedAt me) : (s.commitCheck n digest reloaded).HomedAt me := by
  unfold State.commitCheck
  grind [onTriad_homed, recommend_homed, nameDeputy_homed]
theorem execTriadCheckpoint_homed {n p reloaded} (h : s.HomedAt me) : NextHomed (execTriadCheckpoint n p reloaded s) me := by
  unfold execTriadCheckpoint
  grind [onTriad_homed, dissent_homed, presentAll_homed, catchUp_homed, commitCheck_homed, next_homed]
theorem execHeartbeat_homed {seen} (h : s.HomedAt me) : NextHomed (execHeartbeat seen s) me := by
  unfold execHeartbeat
  grind [mk_homed, State.HomedAt.own, byLead_homed]
theorem execDeputyTakeover_homed (h : s.HomedAt me) : NextHomed (execDeputyTakeover s) me := by
  unfold execDeputyTakeover
  grind [takeOver_homed, next_homed]
theorem execPanelBringUp_homed {b} (h : s.HomedAt me) : NextHomed (execPanelBringUp b s) me := by
  unfold execPanelBringUp
  grind [mk_homed, State.HomedAt.own, onSite_homed, onQueue_homed, setSite_homed, bootTile_homed, foldl_homed, next_homed]
theorem execCxlLinkTrainingChange_homed {p trained} (h : s.HomedAt me) : NextHomed (execCxlLinkTrainingChange p trained s) me := by
  unfold execCxlLinkTrainingChange
  grind [mk_homed, State.HomedAt.own, redrawn_homed, recopy_homed, next_homed]
theorem execRouterFailure_homed {p} (h : s.HomedAt me) : NextHomed (execRouterFailure p s) me := by
  unfold execRouterFailure
  grind [onPartAt_homed, voteTiles_homed, next_homed]
theorem execKeyEnrolment_homed {dom key signed} (h : s.HomedAt me) : NextHomed (execKeyEnrolment dom key signed s) me := by
  unfold execKeyEnrolment
  grind [mk_homed, State.HomedAt.own, next_homed]
theorem execKeyRevocation_homed {dom key signed} (h : s.HomedAt me) : NextHomed (execKeyRevocation dom key signed s) me := by
  unfold execKeyRevocation
  grind [mk_homed, State.HomedAt.own, next_homed]
theorem execQuoteRequest_homed {nonce} (h : s.HomedAt me) : NextHomed (execQuoteRequest nonce s) me := by
  unfold execQuoteRequest
  grind [note_homed, next_homed]
theorem execDeadlockProbe_homed {i id} (h : s.HomedAt me) : NextHomed (execDeadlockProbe i id s) me := by
  unfold execDeadlockProbe
  grind [onCore_homed, voteTiles_homed, foldl_homed, next_homed, raise_at]
theorem execWatchdogExpiry_homed {i} (h : s.HomedAt me) : NextHomed (execWatchdogExpiry i s) me := by
  unfold execWatchdogExpiry
  grind [mk_homed, State.HomedAt.own, next_homed, raise_at]
theorem trimBack_homed {k steps freeze} (h : s.HomedAt me) : (s.trimBack k steps freeze).HomedAt me := by
  unfold State.trimBack
  grind [onQuad_homed]
theorem quadErred_homed {k} (h : s.HomedAt me) : (s.quadErred k).HomedAt me := by
  unfold State.quadErred
  grind [onQuad_homed]
theorem fillBucket_homed {k n} (h : s.HomedAt me) : (s.fillBucket k n).HomedAt me := by
  unfold State.fillBucket
  grind [onPart_homed, markSuspect_homed]
theorem correctedIn_homed {k} (h : s.HomedAt me) : (s.correctedIn k).HomedAt me := by
  unfold State.correctedIn
  grind [trimBack_homed, quadErred_homed, fillBucket_homed]
theorem corrected_homed {k} (h : s.HomedAt me) : (s.corrected k).HomedAt me := by
  unfold State.corrected
  grind [onCore_homed, correctedIn_homed, countN_at]
theorem uncorrectableIn_homed {k line w owner} (h : s.HomedAt me) : (s.uncorrectableIn k line w owner).HomedAt me := by
  unfold State.uncorrectableIn
  grind [note_homed, trimBack_homed, fillBucket_homed]
theorem uncorrectable_homed {k line w} (h : s.HomedAt me) : (s.uncorrectable k line w).HomedAt me := by
  unfold State.uncorrectable
  grind [mk_homed, State.HomedAt.own, uncorrectableIn_homed]
theorem visit_homed {k line found} (h : s.HomedAt me) : (s.visit k line found).HomedAt me := by
  unfold State.visit
  grind [corrected_homed, uncorrectable_homed, foldl_homed]
theorem execScrubVisit_homed {k line found} (h : s.HomedAt me) : NextHomed (execScrubVisit k line found s) me := by
  unfold execScrubVisit
  grind [onPart_homed, visit_homed, next_homed]
theorem execRevisit_homed {k line found} (h : s.HomedAt me) : NextHomed (execRevisit k line found s) me := by
  unfold execRevisit
  grind [onPart_homed, visit_homed, next_homed]
theorem execBucketLeak_homed {k} (h : s.HomedAt me) : NextHomed (execBucketLeak k s) me := by
  unfold execBucketLeak
  grind [onPart_homed, next_homed]
theorem nominalRail_homed {q} (h : s.HomedAt me) : (s.nominalRail q).HomedAt me := h
theorem umpireDiffers_homed {u out} (h : s.HomedAt me) : (s.umpireDiffers u out).HomedAt me := by
  unfold State.umpireDiffers
  grind [note_homed, onUmpire_homed, markSuspect_homed, nominalRail_homed]
theorem execUmpireInterval_homed {u differs} (h : s.HomedAt me) : NextHomed (execUmpireInterval u differs s) me := by
  unfold execUmpireInterval
  grind [onUmpire_homed, umpireDiffers_homed, next_homed]
theorem execOperatingPointChange_homed {q} (h : s.HomedAt me) : NextHomed (execOperatingPointChange q s) me := by
  unfold execOperatingPointChange
  grind [onQuad_homed, next_homed]
theorem execThermalCapStep_homed {q temp} (h : s.HomedAt me) : NextHomed (execThermalCapStep q temp s) me := by
  unfold execThermalCapStep
  grind [note_homed, onQuad_homed, drainSite_homed, next_homed]
theorem execPhaseLoss_homed {n g} (h : s.HomedAt me) : NextHomed (execPhaseLoss n g s) me := by
  unfold execPhaseLoss
  grind [onSite_homed, onQuad_homed, faultGroup_homed, redrawn_homed, recommend_homed, foldl_homed, next_homed]
theorem execGovernorTrimRaise_homed {q} (h : s.HomedAt me) : NextHomed (execGovernorTrimRaise q s) me := by
  unfold execGovernorTrimRaise
  grind [onQuad_homed, next_homed]
theorem setPaddles_homed {n sample floor} (h : s.HomedAt me) : (s.setPaddles n sample floor).HomedAt me := by
  unfold State.setPaddles
  grind [onCore_homed, onCores_homed, dropPaddlesAt_homed, foldl_homed, Core.at?]
theorem execRampSample_homed {tiles rest} (h : s.HomedAt me) : NextHomed (execRampSample tiles rest s) me := by
  have written (w : Power) (l : List Nat) (f g : Nat → Nat) :
      (l.foldl (fun (s : State) i => (s.vote i).setPaddles i (f i) (g i)) { s with power := w }).HomedAt me :=
    foldl_homed (fun _ _ h => setPaddles_homed (vote_homed h)) _ (mk_homed h h.own)
  refine byLead_homed h ?_
  split
  · exact h
  · extract_lets
    rename_i s₂ s₃ calm power s₄ s₅ tick word rec_ old boat
    have h₂ : s₂.HomedAt me := written _ _ _ _
    have h₃ : s₃.HomedAt me := by grind [emergency_homed]
    have h₄ : s₄.HomedAt me := by grind [mk_homed, State.HomedAt.own]
    have h₅ : s₅.HomedAt me := by grind [note_homed]
    exact h₅
theorem execPtpTimestamp_homed {ns locked} (h : s.HomedAt me) : NextHomed (execPtpTimestamp ns locked s) me := by
  unfold execPtpTimestamp
  grind [mk_homed, State.HomedAt.own, next_homed]
theorem execMonitorRead_homed {q temp vmv roc} (h : s.HomedAt me) : NextHomed (execMonitorRead q temp vmv roc s) me := by
  unfold execMonitorRead
  grind [mk_homed, State.HomedAt.own, onQuad_homed, next_homed]
theorem execAlignmentRemeasure_homed {r phase} (h : s.HomedAt me) : NextHomed (execAlignmentRemeasure r phase s) me := by
  unfold execAlignmentRemeasure
  grind [mk_homed, State.HomedAt.own, note_homed, next_homed]
theorem execCounterExchange_homed {b t1 t2 t3 t4 shed} (h : s.HomedAt me) : NextHomed (execCounterExchange b t1 t2 t3 t4 shed s) me := by
  unfold execCounterExchange
  grind [mk_homed, State.HomedAt.own, onLink_homed, next_homed]
theorem bfxBody_homed {d a l p} (h : s.HomedAt me) : (bfxBody d a l p s).HomedAt me := by
  unfold bfxBody
  grind [legal_homed, alu1_homed]
theorem bfiBody_homed {d a l p} (h : s.HomedAt me) : (bfiBody d a l p s).HomedAt me := by
  unfold bfiBody
  grind [setG_homed, legal_homed, ok_homed]
theorem setTag_homed {i e} (h : s.HomedAt me) : (s.setTag i e).HomedAt me := h
theorem tagIndex_homed {a k} (hk : ∀ x, (k x).HomedAt me) : (s.tagIndex a k).HomedAt me := by
  unfold State.tagIndex
  grind [consume_homed, trap_homed]
theorem tlookBody_homed {d a} (h : s.HomedAt me) : (tlookBody d a s).HomedAt me := by
  unfold tlookBody
  grind [setG_homed, ok_homed]
theorem tsetBody_homed {d a b} (h : s.HomedAt me) : (tsetBody d a b s).HomedAt me := by
  unfold tsetBody
  grind [setG_homed, setTag_homed, tagIndex_homed, ok_homed]
theorem tclrBody_homed {a} (h : s.HomedAt me) : (tclrBody a s).HomedAt me := by
  unfold tclrBody
  grind [setTag_homed, tagIndex_homed, ok_homed]
theorem execLiLong_homed {d v} (h : s.HomedAt me) : NextHomed (execLiLong d v s) me := next_homed.mpr h
theorem execLiHi_homed {d v} (h : s.HomedAt me) : NextHomed (execLiHi d v s) me := next_homed.mpr h
theorem putF_homed {d p r} (h : s.HomedAt me) : (s.putF d p r).HomedAt me := by
  unfold State.putF
  grind [put_homed]
theorem putB_homed {d p r} (h : s.HomedAt me) : (s.putB d p r).HomedAt me := by
  unfold State.putB
  grind [put_homed]
theorem fcvtBody_homed {d a r t f} (h : s.HomedAt me) : (fcvtBody d a r t f s).HomedAt me := by
  unfold fcvtBody
  grind [legal_homed, put_homed]
theorem vec1_homed {d a m y f} (h : s.HomedAt me) : (s.vec1 d a m y f).HomedAt me := by
  unfold State.vec1
  grind [vlanes_homed]
theorem vec2_homed {d a b m y f} (h : s.HomedAt me) : (s.vec2 d a b m y f).HomedAt me := by
  unfold State.vec2
  grind [vlanes_homed]
theorem vmovBody_homed {d a m y} (h : s.HomedAt me) : (vmovBody d a m y s).HomedAt me := by
  unfold vmovBody
  grind [setV_homed, legal_homed, vec1_homed, ok_homed]
theorem vfmaBody_homed {d a b m y} (h : s.HomedAt me) : (vfmaBody d a b m y s).HomedAt me := by
  unfold vfmaBody
  grind [legal_homed, vlanes_homed]
theorem vselBody_homed {d a b m y} (h : s.HomedAt me) : (vselBody d a b m y s).HomedAt me := by
  unfold vselBody
  grind [setV_homed, legal_homed, ok_homed]
theorem vcmp_homed {d a b m y cond} (h : s.HomedAt me) : (s.vcmp d a b m y cond).HomedAt me := by
  unfold State.vcmp
  grind [setM_homed, orFlags_homed, ok_homed, trap_homed]
theorem vred_homed {d a m y unit op} (h : s.HomedAt me) : (s.vred d a m y unit op).HomedAt me := by
  unfold State.vred
  grind [setV_homed, orFlags_homed, ok_homed]
theorem vpermBody_homed {d a b m y} (h : s.HomedAt me) : (vpermBody d a b m y s).HomedAt me := by
  unfold vpermBody
  grind [legal_homed, vec2_homed]
theorem vcvtBody_homed {d a f m y} (h : s.HomedAt me) : (vcvtBody d a f m y s).HomedAt me := by
  unfold vcvtBody
  grind [setV_homed, orFlags_homed, legal_homed, ok_homed]
theorem draw_homed {n} (h : s.HomedAt me) : (s.draw n).2.HomedAt me := by
  unfold State.draw
  grind [onSh_homed]
theorem vpackbkBody_homed {d a b y} (h : s.HomedAt me) : (vpackbkBody d a b y s).HomedAt me :=
  legal_homed (ok_homed.mpr (orFlags_homed (setV_homed (s := (s.draw 32).2) (draw_homed h))))
theorem vunbkBody_homed {d a k m y} (h : s.HomedAt me) : (vunbkBody d a k m y s).HomedAt me := by
  unfold vunbkBody
  grind [legal_homed, vlanes_homed]
theorem vscaleBody_homed {d a b y} (h : s.HomedAt me) : (vscaleBody d a b y s).HomedAt me := by
  have put (x f) : (Res.ok ((s.setV d x).orFlags f)).HomedAt me := ok_homed.mpr (orFlags_homed (setV_homed h))
  refine legal_homed ?_
  grind
theorem special_homed {d a m f} (h : s.HomedAt me) : (s.special d a m f).HomedAt me := by
  unfold State.special
  grind [vec1_homed]
theorem descLoad_homed {a n ok k} (hk : ∀ x, (k x).HomedAt me) : (s.descLoad a n ok k).HomedAt me := by
  unfold State.descLoad
  grind [consume_homed, checkedOwn_homed, trap_homed]
theorem mafdBody_homed {a} (h : s.HomedAt me) : (mafdBody a s).HomedAt me := by
  unfold mafdBody
  grind [onEng_homed, descLoad_homed, ok_homed]
theorem execMafd_homed {a} (h : s.HomedAt me) : NextHomed (execMafd a s) me := by
  unfold execMafd
  grind [finish_homed, mafdBody_homed]
theorem mbfdBody_homed {a} (h : s.HomedAt me) : (mbfdBody a s).HomedAt me := by
  unfold mbfdBody
  grind [onEng_homed, descLoad_homed, ok_homed]
theorem execMbfd_homed {a} (h : s.HomedAt me) : NextHomed (execMbfd a s) me := by
  unfold execMbfd
  grind [finish_homed, mbfdBody_homed]
theorem enterOp_homed {o} (h : s.HomedAt me) : (s.enterOp o).HomedAt me := by
  have entered {t : State} (ht : t.HomedAt me) (p : Prop) [Decidable p] (f) : ((if p then t.count 3 else t).onEng f).HomedAt me := by
    split
    · exact onEng_homed (count_homed ht)
    · exact onEng_homed ht
  unfold State.enterOp
  split
  next t e =>
    have ht : t.HomedAt me := by
      split at e
      · have := draw_homed (n := 256) h
        rwa [e] at this
      · cases e
        exact h
    exact entered ht _ _
theorem issue_homed {r} (h : s.HomedAt me) : NextHomed (s.issue r) me := by
  unfold State.issue
  grind [onCtl_homed, commit_homed, takeTrap_homed, enterOp_homed, next_homed]
theorem freeze_homed {me} {p : State → Bool} (n : Nat) : ∀ {s : State}, s.HomedAt me → (s.freeze p n).HomedAt me := by
  induction n with
  | zero => exact id
  | succ n ih =>
    intro s h
    unfold State.freeze
    grind [engineTurn_homed]
theorem issueRig_homed {r} (h : s.HomedAt me) : (s.issueRig r).HomedAt me := by
  cases r with
  | trap c v => exact trap_homed
  | op o => exact ok_homed.mpr (enterOp_homed (freeze_homed 20 h))
theorem accsc_homed {t d r} (h : s.HomedAt me) : (s.accsc t d r).HomedAt me := h
theorem accscRow_homed {b k} (hk : ∀ x, (k x).HomedAt me) : (s.accscRow b k).HomedAt me := by
  unfold State.accscRow
  grind [consume_homed, trap_homed]
theorem accscFreeze_homed {t b} (h : s.HomedAt me) : (accscFreeze t b s).HomedAt me := by
  unfold accscFreeze
  split
  · exact h
  · exact freeze_homed 20 h
theorem accscBody_homed {t d b} (h : s.HomedAt me) : (accscBody t d b s).HomedAt me := by
  unfold accscBody
  grind [accsc_homed, accscRow_homed, ok_homed]
theorem execAccsc_homed {t d b} (h : s.HomedAt me) : NextHomed (execAccsc t d b s) me := by
  have body := accscBody_homed (t := t) (d := d) (b := b) h
  unfold execAccsc
  split
  · exact next_homed.mpr (takeTrap_homed h)
  · exact next_homed.mpr (holdIssue_homed h)
  · next e =>
    split
    · exact next_homed.mpr (commit_homed (body _ e))
    · exact next_homed.mpr (onCtl_homed h rfl rfl)
theorem takeCount_homed {w n} (h : s.HomedAt me) : (s.takeCount w n).HomedAt me := h
theorem execWait_homed {c w} (h : s.HomedAt me) : NextHomed (execWait c w s) me := by
  unfold execWait
  grind [commit_homed, takeTrap_homed, blockOrHold_homed, fenceAhead_homed, takeCount_homed, next_homed]
theorem vldBodyBody_homed {v a d} (h : s.HomedAt me) : (vldBodyBody v a d s).HomedAt me := by
  unfold vldBodyBody
  grind [setV_homed, consume_homed, orLate_homed, loadAt_homed, checkedLoad_homed, ok_homed]
theorem vldSideBody_homed {v a d} (h : s.HomedAt me) : (vldSideBody v a d s).HomedAt me := by
  unfold vldSideBody
  grind [setV_homed, consume_homed, orLate_homed, loadAt_homed, checkedLoad_homed, ok_homed]
theorem vldMaskBody_homed {v a d} (h : s.HomedAt me) : (vldMaskBody v a d s).HomedAt me := by
  unfold vldMaskBody
  grind [setM_homed, consume_homed, loadAt_homed, checkedLoad_homed, ok_homed, trap_homed]
theorem vstBodyBody_homed {v a d} (h : s.HomedAt me) : (vstBodyBody v a d s).HomedAt me := by
  unfold vstBodyBody
  grind [consume_homed, storeAt_homed, checked_homed, ok_homed]
theorem vstSideBody_homed {v a d} (h : s.HomedAt me) : (vstSideBody v a d s).HomedAt me := by
  unfold vstSideBody
  grind [consume_homed, storeAt_homed, checked_homed, ok_homed]
theorem vstMaskBody_homed {v a d} (h : s.HomedAt me) : (vstMaskBody v a d s).HomedAt me := by
  unfold vstMaskBody
  grind [consume_homed, storeAt_homed, checked_homed, ok_homed]
theorem pathsLoad_homed {n l f} (hf : ∀ x, (f x).HomedAt me) : (s.pathsLoad n l f).HomedAt me := by
  unfold State.pathsLoad
  grind [trap_homed, hold_homed]
theorem gather_homed {n} (l : List (Nat × Path)) : ∀ {s : State}, s.HomedAt me → (s.gather n l).1.HomedAt me := by
  induction l with
  | nil => exact id
  | cons p r ih => exact fun h => ih (loadAt_homed h)
theorem scatter_homed {n q val} (l : List (Nat × Path)) : ∀ {s : State}, s.HomedAt me → (s.scatter n q val l).HomedAt me := by
  induction l with
  | nil => exact id
  | cons p r ih => exact fun h => ih (storeAt_homed h)
theorem loadLanes_homed {v m y f} (h : s.HomedAt me) : (s.loadLanes v m y f).HomedAt me := by
  have put (l : List (Nat × Path)) (x) : ((s.gather (y.bits / 8) l).1.setV v x).HomedAt me := setV_homed (gather_homed l h)
  exact pathsLoad_homed fun l => orLate_homed (put _ _) (ok_homed.mpr (put l _))
theorem storeLanes_homed {v m y f} (h : s.HomedAt me) : (s.storeLanes v m y f).HomedAt me := by
  unfold State.storeLanes
  split
  · exact trap_homed
  · exact ok_homed.mpr (scatter_homed _ h)
theorem loadBlocks_homed {v y a b} (h : s.HomedAt me) : (s.loadBlocks v y a b).HomedAt me := by
  have put (l : List (Nat × Path)) (x) : ((s.gather y.planeBytes l).1.setV v x).HomedAt me := setV_homed (gather_homed l h)
  exact pathsLoad_homed fun l => orLate_homed (put _ _) (ok_homed.mpr (put l _))
theorem storeBlocks_homed {v y a b} (h : s.HomedAt me) : (s.storeBlocks v y a b).HomedAt me := by
  unfold State.storeBlocks
  split
  · exact trap_homed
  · exact ok_homed.mpr (scatter_homed _ h)
theorem vldsBody_homed {v a b m y} (h : s.HomedAt me) : (vldsBody v a b m y s).HomedAt me := by
  unfold vldsBody
  grind [legal_homed, consume_homed, loadLanes_homed, loadBlocks_homed]
theorem vstsBody_homed {v a b m y} (h : s.HomedAt me) : (vstsBody v a b m y s).HomedAt me := by
  unfold vstsBody
  grind [legal_homed, consume_homed, storeLanes_homed, storeBlocks_homed]
theorem indexed_homed {a i r} (hr : r.HomedAt me) : (s.indexed a i r).HomedAt me := by
  unfold State.indexed
  grind [consume_homed, trap_homed]
theorem vgathBody_homed {v a i m y} (h : s.HomedAt me) : (vgathBody v a i m y s).HomedAt me := by
  unfold vgathBody
  grind [legal_homed, loadLanes_homed, indexed_homed]
theorem vscatBody_homed {v a i m y} (h : s.HomedAt me) : (vscatBody v a i m y s).HomedAt me := by
  unfold vscatBody
  grind [legal_homed, storeLanes_homed, indexed_homed]
theorem vbcastBody_homed {v a m y} (h : s.HomedAt me) : (vbcastBody v a m y s).HomedAt me := by
  unfold vbcastBody
  grind [legal_homed, vlanes_homed]
theorem laneIndex_homed {b y k} (hk : ∀ x, (k x).HomedAt me) : (s.laneIndex b y k).HomedAt me := by
  unfold State.laneIndex
  grind [consume_homed, trap_homed]
theorem vinsBody_homed {v a b y} (h : s.HomedAt me) : (vinsBody v a b y s).HomedAt me := by
  unfold vinsBody
  grind [legal_homed, vlanes_homed, laneIndex_homed]
theorem vextBody_homed {v a b y} (h : s.HomedAt me) : (vextBody v a b y s).HomedAt me := by
  unfold vextBody
  grind [setG_homed, legal_homed, laneIndex_homed, ok_homed]
theorem land_homed {q} (h : s.HomedAt me) : (s.land q).HomedAt me := by
  unfold State.land
  grind [onEng_homed, setG_homed, setV_homed, setM_homed, orFlags_homed]
theorem landAt_homed {q t} (h : s.HomedAt me) : (s.landAt q t).HomedAt me := by
  unfold State.landAt
  grind [land_homed, foldl_homed]
theorem RigDest_holdBack_homed {s t : State} {me} {d : RigDest} (h : t.HomedAt me) : (d.holdBack s t).HomedAt me := by
  cases d <;> exact h
theorem onRigs_homed {f} (h : s.HomedAt me) : (s.onRigs f).HomedAt me := h
theorem strokeTime_homed {t} (h : s.HomedAt me) : (s.strokeTime t).HomedAt me := by
  unfold State.strokeTime
  grind [mk_homed, State.HomedAt.own, tick_homed, foldl_homed, expire_at, raise_at]
/-- An entry of a rig keeps records homed. -/
def RigOp.Homed (o : RigOp) : Prop :=
  ∀ {s : State} {n : Nat}, s.HomedAt n → (o.run s).HomedAt n ∧ (o.first s).HomedAt n
theorem onG_homed {r k} {f : State → Res} (hf : ∀ {s : State} {n : Nat}, s.HomedAt n → (f s).HomedAt n) : (RigOp.onG r k f).Homed :=
  fun h => ⟨hf h, h⟩
theorem onV_homed {r k} {f : State → Res} (hf : ∀ {s : State} {n : Nat}, s.HomedAt n → (f s).HomedAt n) : (RigOp.onV r k f).Homed :=
  fun h => ⟨hf h, h⟩
theorem onM_homed {r k} {f : State → Res} (hf : ∀ {s : State} {n : Nat}, s.HomedAt n → (f s).HomedAt n) : (RigOp.onM r k f).Homed :=
  fun h => ⟨hf h, h⟩
theorem noResult_homed {f : State → Res} (hf : ∀ {s : State} {n : Nat}, s.HomedAt n → (f s).HomedAt n) : (RigOp.noResult f).Homed :=
  fun h => ⟨hf h, h⟩
theorem rigScalar_homed {i : Instr} {o : RigOp} (e : Instr.rigScalar i = some o) : o.Homed := by
  cases i <;> cases e
  all_goals
    refine fun h => ⟨?_, h⟩
    dsimp only [RigOp.onG, RigOp.noResult]
  case add | sub | mul | mulh | mulhn | div | divn | rem | remn | and | or | xor | shl | shr | sra | rol
      | min | minn | max | maxn | cmpeq | cmplt | cmpltn | cmple | cmplen | mkaAbs | mkaGrp | mkaCore => exact alu2_homed h
  case clz | ctz | popc | sext | zext | addi | andi | ori | xori | shli | shri | srai => exact alu1_homed h
  case fadd | fsub | fmul | ffma | fdiv | fsqrt | fmin | fmax => exact putF_homed h
  case fcmpeq | fcmplt | fcmple => exact putB_homed h
  case madd | sel | liShort | addpc | fclass => exact ok_homed.mpr (setG_homed h)
  case nop => exact ok_homed.mpr h
  case bfx => exact bfxBody_homed h
  case bfi => exact bfiBody_homed h
  case tlook => exact tlookBody_homed h
  case tset => exact tsetBody_homed h
  case tclr => exact tclrBody_homed h
  case ld => exact ldBody_homed h
  case st => exact stBody_homed h
  case crrd => exact crrdBody_homed h
  case crrdSeamt => exact crrdSeamtBody_homed h
  case fcvt => exact fcvtBody_homed h
theorem rigVector_homed {i : Instr} {o : RigOp} (e : Instr.rigVector i = some o) : o.Homed := by
  cases i <;> cases e
  all_goals
    refine fun h => ⟨?_, h⟩
    dsimp only [RigOp.onG, RigOp.onV, RigOp.onM, RigOp.noResult]
  case vadd | vsub | vmul | vmin | vmax | vand | vor | vxor | vshl | vshr | vsra => exact legal_homed (vec2_homed h)
  case vabs | vneg => exact legal_homed (vec1_homed h)
  case vcmpEq | vcmpNe | vcmpLt | vcmpLe | vcmpGt | vcmpGe => exact legal_homed (vcmp_homed h)
  case vredAdd | vredMin | vredMax | vredOr => exact legal_homed (vred_homed h)
  case vexp2 | vlog2 | vrcpa | vrsqa => exact special_homed h
  case mand | mor | mxor | mnot => exact ok_homed.mpr (setM_homed h)
  case mpop | mfirst => exact ok_homed.mpr (setG_homed h)
  case vmov => exact vmovBody_homed h
  case vfma => exact vfmaBody_homed h
  case vsel => exact vselBody_homed h
  case vperm => exact vpermBody_homed h
  case vcvt => exact vcvtBody_homed h
  case vpackbk => exact vpackbkBody_homed h
  case vunbk => exact vunbkBody_homed h
  case vscale => exact vscaleBody_homed h
  case vldBody => exact vldBodyBody_homed h
  case vldSide => exact vldSideBody_homed h
  case vldMask => exact vldMaskBody_homed h
  case vstBody => exact vstBodyBody_homed h
  case vstSide => exact vstSideBody_homed h
  case vstMask => exact vstMaskBody_homed h
  case vlds => exact vldsBody_homed h
  case vsts => exact vstsBody_homed h
  case vgath => exact vgathBody_homed h
  case vscat => exact vscatBody_homed h
  case vbcast => exact vbcastBody_homed h
  case vins => exact vinsBody_homed h
  case vext => exact vextBody_homed h
theorem rigTensor_homed {i : Instr} {o : RigOp} (e : Instr.rigTensor i = some o) : o.Homed := by
  cases i <;> cases e
  case mafd => exact fun h => ⟨mafdBody_homed h, h⟩
  case mbfd => exact fun h => ⟨mbfdBody_homed h, h⟩
  case accsc => exact fun h => ⟨accscBody_homed h, accscFreeze_homed h⟩
  all_goals exact noResult_homed fun h => issueRig_homed h
theorem rigOp_homed {i : Instr} {o : RigOp} (e : Instr.rigOp i = some o) : o.Homed := by
  unfold Instr.rigOp at e
  split at e
  · next hs => cases e; exact rigScalar_homed hs
  split at e
  · next hv => cases e; exact rigVector_homed hv
  · exact rigTensor_homed e
/-- What a rig's opening accepts keeps records homed, entry by entry. -/
theorem rigEntries_homed {s : State} (n : Nat) : ∀ {i es}, s.rigEntries i n = .ok es → ∀ e ∈ es, e.2.Homed := by
  induction n with
  | zero => exact fun h => by cases h; exact fun _ he => nomatch he
  | succ n ih =>
    intro i es h
    unfold State.rigEntries at h
    extract_lets o w at h
    repeat' split at h
    all_goals try cases h
    next p hp =>
      obtain ⟨r, hr, rfl⟩ : ∃ r, s.rigEntries (i + 1) n = .ok r ∧ es = (s.stageOf i, p) :: r := by
        cases e : s.rigEntries (i + 1) n with
        | error x => rw [e] at h; cases h
        | ok r => rw [e] at h; cases h; exact ⟨r, rfl, rfl⟩
      exact List.forall_mem_cons.mpr ⟨rigOp_homed hp, ih hr⟩
section
variable {r : RigRun} {p : BitVec 16}
theorem rigEntry_homed {i stage} {o : RigOp} (ho : o.Homed) (h : r.s.HomedAt me) : (r.entry p i stage o).s.HomedAt me := by
  unfold RigRun.entry
  extract_lets s₁ s₂ s₃
  have h₁ : s₁.HomedAt me := onRigs_homed h
  have h₃ : s₃.HomedAt me := (ho (onCtl_homed h₁ rfl rfl)).2
  split
  · split
    · exact h₃
    · next t e => exact count_homed (RigDest_holdBack_homed ((ho h₃).1 t e))
    · split
      · exact h₃
      · exact onRigs_homed h₃
  · exact h₁
theorem rigStroke_homed (l : List (Nat × RigOp)) : ∀ {r : RigRun} {i}, (∀ e ∈ l, e.2.Homed) → r.s.HomedAt me →
    (r.entries p i l).s.HomedAt me := by
  induction l with
  | nil => exact fun _ => id
  | cons e l ih =>
    intro r i hl h
    obtain ⟨he, hl⟩ := List.forall_mem_cons.mp hl
    exact ih hl (rigEntry_homed he h)
theorem rigLoop_homed {deep} {l : List (Nat × RigOp)} (hl : ∀ e ∈ l, e.2.Homed) (n : Nat) :
    ∀ {r : RigRun}, r.s.HomedAt me → (r.loop p deep l n).s.HomedAt me := by
  induction n with
  | zero => exact id
  | succ n ih =>
    intro r h
    unfold RigRun.loop
    extract_lets s₁ q start sv s₂ due r₁
    have h₂ : s₂.HomedAt me := onRigs_homed (landAt_homed (strokeTime_homed h))
    split
    · exact h₂
    · exact ih (rigStroke_homed l hl h₂)
theorem rigClose_homed {exit : BitVec 16} (h : r.s.HomedAt me) : (r.close p exit).HomedAt me := by
  have landed : r.landAll.HomedAt me := by
    unfold RigRun.landAll
    exact foldl_homed (fun _ _ => landAt_homed) _ h
  unfold RigRun.close
  extract_lets s₁ q active s₂ s₃
  have h₂ : s₂.HomedAt me := onRigs_homed (drainStores_homed landed)
  clear_value s₂ active q
  have h₃ : s₃.HomedAt me := onSh_homed (onCtl_homed h₂ rfl rfl)
  split
  · exact takeTrap_homed h₃
  split
  · split
    · exact takeAsync_homed h₃
    · exact onCtl_homed h₃ rfl rfl
  · exact takePending_homed (commitTo_homed h₃)
end
theorem rigRun_homed {n l} {es : List (Nat × RigOp)} (hes : ∀ e ∈ es, e.2.Homed) (h : s.HomedAt me) :
    (s.rigRun n l es).HomedAt me := by
  unfold State.rigRun
  extract_lets deep t
  have ht : t.HomedAt me := onCtl_homed (onRigs_homed h) rfl rfl
  generalize n.toNat + 9 = k
  exact rigClose_homed (rigLoop_homed hes k ht)
theorem execRig_homed {a l} (h : s.HomedAt me) : NextHomed (execRig a l s) me := by
  unfold execRig
  split
  · exact next_homed.mpr (takeTrap_homed h)
  · next es e =>
    have hes : ∀ e ∈ es, e.2.Homed := by
      unfold State.rigBody at e
      split at e
      · cases e
      · exact rigEntries_homed _ e
    split
    · exact next_homed.mpr (takeTrap_homed h)
    split
    · exact next_homed.mpr (commitTo_homed (onRigs_homed h))
    split
    · exact next_homed.mpr (holdIssue_homed h)
    · exact next_homed.mpr (rigRun_homed hes h)
theorem execRigsv_homed {a i} (h : s.HomedAt me) : NextHomed (execRigsv a i s) me := by
  unfold execRigsv
  grind [store_homed, finish_homed, consume_homed, checkedOwn_homed, ok_homed]
theorem execRigld_homed {a i} (h : s.HomedAt me) : NextHomed (execRigld a i s) me := by
  unfold execRigld
  grind [finish_homed, consume_homed, checkedOwn_homed, onlyS_homed, onRigs_homed, ok_homed, trap_homed]
theorem linkSeen_homed {i} (h : s.HomedAt me) : (s.linkSeen i).HomedAt me := by
  unfold State.linkSeen
  grind [voteTiles_homed]
theorem execLinkReplay_homed {i fails good} (h : s.HomedAt me) : NextHomed (execLinkReplay i fails good s) me := by
  unfold execLinkReplay
  grind [onLink_homed, linkSeen_homed, next_homed]
theorem execSliceRetest_homed {i good} (h : s.HomedAt me) : NextHomed (execSliceRetest i good s) me := by
  unfold execSliceRetest
  grind [onLink_homed, linkSeen_homed, next_homed]
theorem execLinkRetrain_homed {i good peer pport hops} (h : s.HomedAt me) : NextHomed (execLinkRetrain i good peer pport hops s) me := by
  unfold execLinkRetrain
  grind [releaseQueued_homed, onLink_homed, linkSeen_homed, next_homed]
theorem writeRouting_homed {sys v} (h : s.HomedAt me) : (s.writeRouting sys v).HomedAt me := by
  unfold State.writeRouting
  grind [mk_homed, State.HomedAt.own]
theorem execPanelRoutingWrite_homed {dom sys v} (h : s.HomedAt me) : NextHomed (execPanelRoutingWrite dom sys v s) me := by
  unfold execPanelRoutingWrite
  grind [byHost_homed, writeRouting_homed]
theorem writeQueueState_homed {q v} (h : s.HomedAt me) : (s.writeQueueState q v).HomedAt me := by
  unfold State.writeQueueState
  grind [activate_homed, stopQueue_homed]
theorem writeQueue_homed {q j w} (h : s.HomedAt me) : (s.writeQueue q j w).HomedAt me := by
  unfold State.writeQueue
  grind [onQueue_homed, ring_homed, writeQueueState_homed]
theorem writeFlim_homed {v} (h : s.HomedAt me) : (s.writeFlim v).HomedAt me := by
  unfold State.writeFlim
  grind [mk_homed, State.HomedAt.own]
theorem writeRoutings_homed {i w} (h : s.HomedAt me) : (s.writeRoutings i w).HomedAt me := by
  unfold State.writeRoutings
  grind [writeRouting_homed]
theorem windowWrite_homed {dom o w} (h : s.HomedAt me) : (s.windowWrite dom o w).HomedAt me := by
  unfold State.windowWrite
  grind [onReq_homed, setBound_homed, writeQueue_homed, writeFlim_homed, writeRoutings_homed]
theorem execControlWindowWrite_homed {dom o size v} (h : s.HomedAt me) : NextHomed (execControlWindowWrite dom o size v s) me := by
  unfold execControlWindowWrite
  grind [byHost_homed, windowWrite_homed]
theorem dropWrite_homed {p w} (h : s.HomedAt me) : (s.dropWrite p w).HomedAt me := h
theorem execHdmWindowAccess_homed {p w size v} (h : s.HomedAt me) : NextHomed (execHdmWindowAccess p w size v s) me := by
  unfold execHdmWindowAccess
  grind [mk_homed, State.HomedAt.own, write_homed, dropWrite_homed, next_homed]
/-- A row of the scalar or vector table that rigs take runs its rig entry (R219). -/
theorem exec_of_rigScalar {i : Instr} {o : RigOp} {s : State} (e : Instr.rigScalar i = some o) : exec i s = s.finish 4 (o.run s) := by
  cases i <;> cases e <;> rfl
theorem exec_of_rigVector {i : Instr} {o : RigOp} {s : State} (e : Instr.rigVector i = some o) : exec i s = s.finish 4 (o.run s) := by
  cases i <;> cases e <;> rfl
theorem exec_homed (i : Instr) (h : s.HomedAt me) : NextHomed (exec i s) me := by
  cases hs : Instr.rigScalar i with
  | some o => rw [exec_of_rigScalar hs]; exact finish_homed h (rigScalar_homed hs h).1
  | none =>
  cases hv : Instr.rigVector i with
  | some o => rw [exec_of_rigVector hv]; exact finish_homed h (rigVector_homed hv h).1
  | none =>
  cases i
  all_goals try (cases hs; done)
  all_goals try (cases hv; done)
  all_goals simp only [exec, execBeq, execBne, execBlt, execBge, execBltn, execBgen, branch_homed,
    execMma, execMmas, execAccz, execAccrn, execAccld, execAccst, issue_homed,
    execCrwr_homed, execCrwrFpcr_homed, execCrwrTid_homed, execCrwrTcmp_homed, execCrwrPrio_homed,
    execCrwrTstat_homed, execCrwrRigs_homed, execCrwrSscr_homed, execTqpush_homed, execTqpop_homed, execHalt_homed,
    execHaltSlot_homed, execSret_homed, execYield_homed, execSleep_homed, execIdleIssueResume_homed,
    execTimerExpiry_homed, execAsyncTrapEntry_homed, execTrap_homed, execIllegalInstruction_homed,
    execPoisonedFetch_homed, execTreeBlockDelivery_homed, execTreeFinishForward_homed, execRootFlagWrite_homed,
    execRenormFromParent_homed, execSend_homed, execSendv_homed, execSendr_homed, execFinish_homed, execRenorm_homed,
    execRecv_homed, execRecvv_homed, execPeek_homed, execSeatclr_homed, execSeatset_homed, execJoin_homed,
    execBarr_homed, execBwait_homed, execFwait_homed, execFence_homed, execWatch_homed, execWake_homed,
    execSiteq_homed, execCoxcallPoisoned_homed, execCoxcallLog_homed, execCoxcallCheckpoint_homed,
    execHomeAtomic_homed, execProxyAtomic_homed, execAmo_homed, execCas_homed, execAtomicResend_homed,
    execAtomicBusyResend_homed, execLowAcknowledgement_homed, execSopen_homed, execStreamLegStart_homed,
    execLegRewind_homed, execStreamCompletion_homed, execSctlClose_homed, execSctlAbort_homed, execSctlAdvance_homed,
    execSwait_homed, execDataArrival_homed, execFinishArrival_homed, execReplyArrival_homed, execFinishResend_homed,
    execBarrierArrival_homed, execBarrierRelease_homed, execWatchRequest_homed, execWatchWakeArrival_homed,
    execWakeArrival_homed, execJmp_homed, execJal_homed, execJalr_homed, execMmaExecute_homed, execMmasExecute_homed,
    execAcczPerform_homed, execAccrnPerform_homed, execAccldPerform_homed, execAccstPerform_homed,
    execRegister_homed, execReside_homed, execEvict_homed, execRetire_homed, execLdm_homed, execStm_homed,
    execClusterPortAccess_homed, execCutComplete_homed, execCutDeadline_homed, execRelaunch_homed,
    execGroupRetirement_homed, execPlacement_homed, execGroupStart_homed, execPeerPanelAdmission_homed,
    execPeerPanelGroupFault_homed, execPaddleCreation_homed, execQueueActivate_homed, execQueueStop_homed,
    execDoorbell_homed, execCommandFetch_homed, execLaunch_homed, execAdmissionPass_homed, execCopy_homed,
    execRefusalRetry_homed, execSignalSet_homed, execSignalAdd_homed, execWaitsig_homed, execQueueFence_homed,
    execPowerBudget_homed, execPowerRamp_homed, execPowerSuspend_homed, execPowerResume_homed, execFaultLimit_homed,
    execPageMap_homed, execPageUnmap_homed, execPageMigrate_homed, execDomainCreation_homed, execSiteAdmission_homed,
    execRouteSwitch_homed, execContactMade_homed, execBringUpStart_homed, execTrainingPass_homed,
    execTrainingFailure_homed, execDrain_homed, execReadmit_homed, execContactLost_homed, execSurpriseRemoval_homed,
    execLostCleanupComplete_homed, execDrainComplete_homed, execDrainDeadline_homed, execVotedTransaction_homed,
    execSilentCopyTimeout_homed, execCopyReset_homed, execTriadCheckpoint_homed, execHeartbeat_homed,
    execDeputyTakeover_homed, execPanelBringUp_homed, execCxlLinkTrainingChange_homed, execRouterFailure_homed,
    execKeyEnrolment_homed, execKeyRevocation_homed, execQuoteRequest_homed, execDeadlockProbe_homed,
    execWatchdogExpiry_homed, execScrubVisit_homed, execRevisit_homed, execBucketLeak_homed,
    execUmpireInterval_homed, execOperatingPointChange_homed, execThermalCapStep_homed, execPhaseLoss_homed,
    execGovernorTrimRaise_homed, execRampSample_homed, execPtpTimestamp_homed, execMonitorRead_homed,
    execAlignmentRemeasure_homed, execCounterExchange_homed, execLiLong_homed, execLiHi_homed, execMafd_homed,
    execMbfd_homed, execAccsc_homed, execWait_homed, execRig_homed, execRigsv_homed, execRigld_homed,
    execLinkReplay_homed, execSliceRetest_homed, execLinkRetrain_homed, execPanelRoutingWrite_homed,
    execControlWindowWrite_homed, execHdmWindowAccess_homed, h]
theorem meetWord_homed {k line w e} (h : s.HomedAt me) : (s.meetWord k line w e).HomedAt me := by
  unfold State.meetWord
  grind [onPart_homed, visit_homed]
theorem meetCore_homed {k e line w f} (h : s.HomedAt me) (hf : ∀ c, c.at? k → (f c).at? k) :
    (s.meetCore k e line w f).HomedAt me := by
  unfold State.meetCore
  split
  · exact h
  split
  · exact correctedIn_homed h
  · exact uncorrectableIn_homed (onCore_homed h hf)
theorem meetWalker_homed {n c} (h : s.HomedAt me) : (s.meetWalker n c).HomedAt me := by
  unfold State.meetWalker
  grind [haltTriad_homed, outvoted_homed, catchUp_homed]
theorem readAhead_homed {k w} (h : s.HomedAt me) : (s.readAhead k w).HomedAt me := by
  unfold State.readAhead
  grind [onSh_homed, portRead_homed, forgetAhead_homed]
theorem takeNth_homed {n} (h : s.HomedAt me) : (s.takeNth n).HomedAt me := by
  unfold State.takeNth
  grind [takeIf_homed]
theorem meetPacket_homed {k n e} (h : s.HomedAt me) : (s.meetPacket k n e).HomedAt me := by
  unfold State.meetPacket
  grind [mk_homed, State.HomedAt.own, correctedIn_homed, uncorrectableIn_homed]
theorem meetStream_homed {k core i e w f} (h : s.HomedAt me) : (s.meetStream k core i e w f).HomedAt me := by
  unfold State.meetStream
  grind [onCore_homed, correctedIn_homed, uncorrectableIn_homed, Core.at?]
theorem stopTile_homed {n} (h : s.HomedAt me) : (s.stopTile n).HomedAt me := by
  unfold State.stopTile
  grind [onCores_homed, Core.at?]
theorem spoilRow_at {c : Core} {k : Nat} {t : AT} {i : BitVec 4} : (c.spoilRow t i).at? k ↔ c.at? k := Iff.rfl
theorem heed_homed {i} (h : s.HomedAt me) : (s.heed i).HomedAt me := by
  cases i <;> simp only [State.heed]
  case word => exact meetWord_homed h
  case general => exact meetCore_homed h fun _ => id
  case vector => exact meetCore_homed h fun _ => id
  case accumulator => exact meetCore_homed h fun _ => spoilRow_at.mpr
  case packet => exact meetPacket_homed h
  case burst => exact meetStream_homed h
  case stopTile => exact stopTile_homed h
  case behind => exact onUmpire_homed h
  case walker => exact meetWalker_homed h
  case readAhead => exact readAhead_homed h
  case takeRead => exact takeNth_homed h
  case triad | cxlError | together | readLate => exact h
  all_goals grind [meetStream_homed, unsend_homed, onLink_homed, onSite_homed, mk_homed, State.HomedAt.own]
theorem gated_homed {s t : State} {me} (h : s.HomedAt me) (ht : t.HomedAt me) : (s.gated t).HomedAt me := by
  unfold State.gated
  split
  · exact ht
  · exact h
theorem meet_homed {i} (h : s.HomedAt me) : (s.meet i).HomedAt me := gated_homed h (heed_homed h)

/-! ## Every step -/

theorem arrive_homed {l} (h : s.HomedAt me) : (s.arrive l).HomedAt me := by
  unfold State.arrive
  grind [mk_homed, State.HomedAt.own, takeAck_homed, foldl_homed]
theorem settleReads_homed {named} (h : s.HomedAt me) : (s.settleReads named).HomedAt me := by
  unfold State.settleReads
  grind [takeIf_homed]
theorem mirrored_homed {t : State} {me : Nat} {old} (h : t.HomedAt me) : (t.mirrored old).HomedAt me := by
  unfold State.mirrored
  grind [voteTiles_homed]
theorem mirrorNext_homed {old mid : State} {me o} (h : mid.HomedAt me) (ho : NextHomed o me) : NextHomed (mirrorNext old mid o) me := by
  cases o with
  | next t => exact next_homed.mpr (mirrored_homed (gated_homed h (ho t rfl)))
  | fault f => exact fun _ e => nomatch e
  | refused r => exact fun _ e => nomatch e
end

/-! ## Every step -/

theorem State.HomedAt.homed {s : State} {n : Nat} (h : s.HomedAt n) (hc : isCore n = true) : s.homed := by
  obtain ⟨rfl, own, rest⟩ := h
  exact ⟨hc, own, rest⟩
theorem State.homed.homedAt {s : State} (h : s.homed) : s.HomedAt s.here := ⟨rfl, h.2⟩
/-- A step's beginning, its turn's core selected: time passes, inputs take effect, and a pass that is due runs. -/
theorem passes_homed {t : State} {me} (old : State) (h : t.HomedAt me) :
    ((if t.lead.passDue && t.leadUp && !(endsGroup old.turnOp) then t.pass else t).settleReads old.turnOp).HomedAt me := by
  refine settleReads_homed ?_
  split
  · exact pass_homed h
  · exact h
theorem begin_homed {s : State} (h : s.homed) : s.begin.homed := by
  have passed {t : State} (ht : t.homed) := passes_homed s (foldl_homed (fun _ i => meet_homed (i := i)) t.tick.met (tick_homed ht.homedAt))
  unfold State.begin
  split
  · have ht : { s with met := [] }.homed := h
    exact (passed ht).homed ht.1
  · next t r _ =>
    have ht : (({ s with agenda := r, met := t.inputs }.arrive t.arrive).select t.core).homed :=
      select_homed ((arrive_homed (mk_homed h.homedAt h.homedAt.own)).homed h.1)
    exact (passed ht).homed ht.1
/-- Settles O35: every row, every input and what a step does beside them keep the records homed at the selected key. -/
theorem coreStaysHome : Obligations.CoreStaysHome := by
  intro s t h e
  have begun := begin_homed h
  have home := begun.homedAt
  unfold step at e
  split at e
  · exact (mirrorNext_homed home (exec_homed _ home) t e).homed begun.1
  · cases e
    exact (mirrored_homed home).homed begun.1

end Sys2Proof.Machine
end

section

/-! Loads: what a path that passes its checks says of its offset, a read of the core's own scratchpad, a read at a
peer's port, and the addresses of the core's own scratchpad. -/

namespace Sys2Proof.Machine

/-! ## Paths (R31, R174) -/

section
variable {s : State} {a : BitVec 64} {n k off : Nat}
theorem path_own_iff : s.path a n = .own off ↔
    isFar a = false ∧ s.resolve a = some ⟨0xFF, s.here, off⟩ ∧ off < 0x10000 ∧ off % n = 0 := by
  unfold State.path
  cases hr : s.resolve a with
  | none => simp
  | some d =>
    obtain ⟨p, k, o⟩ := d
    grind
theorem homeCheck_aligned {dom : BitVec 16} (h : s.homeCheck dom k off n = none) : off % n = 0 := by
  unfold State.homeCheck at h
  grind
theorem path_peer (h : s.path a n = .peer k off) : k ≠ s.here ∧ off % n = 0 := by
  unfold State.path at h
  grind [homeCheck_aligned]
end

/-! ## Bytes and poison of one word -/

section
variable {s t : State} {a k off n : Nat}
theorem readNat_congr (h : ∀ b, t.readByte b = s.readByte b) : t.readNat a n = s.readNat a n := by
  unfold State.readNat
  congr 1
  induction n generalizing a with
  | zero => rfl
  | succ n ih => exact congrArg₂ _ (h a) ih
theorem anyPoison_congr (h : ∀ b, t.poisoned b = s.poisoned b) : t.anyPoison a n = s.anyPoison a n := by
  induction n generalizing a with
  | zero => rfl
  | succ n ih => exact congrArg₂ _ (h a) ih
theorem anyPoison_iff : s.anyPoison a n = true ↔ ∃ i < n, s.poisoned (a + i) = true := by
  induction n generalizing a with
  | zero => simp [State.anyPoison]
  | succ n ih =>
    rw [State.anyPoison, Bool.or_eq_true, ih]
    constructor
    · rintro (h | ⟨i, hi, h⟩)
      · exact ⟨0, n.succ_pos, h⟩
      · exact ⟨i + 1, by omega, by rwa [Nat.add_assoc, Nat.add_comm 1] at h⟩
    · rintro ⟨_ | i, hi, h⟩
      · exact .inl h
      · exact .inr ⟨i, by omega, by rwa [Nat.add_assoc, Nat.add_comm 1]⟩
theorem poisoned_word {b : Nat} (h : a / 8 = b / 8) : s.poisoned a = s.poisoned b := by
  rw [State.poisoned, State.poisoned, h]
theorem loadBytes_pos (w : LdW) : 0 < LdW.bytes w := by cases w <;> decide
/-- An aligned load stays in the word of its first byte. -/
theorem load_word (w : LdW) (h : off % LdW.bytes w = 0) {i : Nat} (hi : i < LdW.bytes w) :
    (nodeBase k + off + i) / 8 = (nodeBase k + off) / 8 := by
  unfold nodeBase
  cases w <;> simp only [LdW.bytes] at h hi <;> omega
theorem load_poison (w : LdW) (h : off % LdW.bytes w = 0) :
    s.anyPoison (nodeBase k + off) (LdW.bytes w) = s.poisoned (nodeBase k + off) := by
  rw [Bool.eq_iff_iff, anyPoison_iff]
  constructor
  · rintro ⟨i, hi, e⟩
    rwa [poisoned_word (load_word w h hi)] at e
  · exact fun e => ⟨0, loadBytes_pos w, by rwa [Nat.add_zero]⟩
end

/-! ## `LD` along its path -/

section
variable {s : State} {r a : GR} {w : LdW} {d : BitVec 13} {k off : Nat}
theorem exec_ld : exec (.ld r a w d) s = s.finish 4 (ldBody r a w d s) := rfl
theorem ldBody_own (hg : s.gp a = false) (hp : s.path (s.gv a + d.signExtend 64) w.bytes = .own off) :
    ldBody r a w d s = .ok (s.setG r (loadedValue w (s.readNat (nodeBase s.here + off) w.bytes)) (s.poisoned (nodeBase s.here + off))) := by
  have late : s.goLate (Path.lates (.own off) [(.scalar r w, 0)]) = false := by simp [State.goLate, Path.lates]
  rw [ldBody, consume_clean hg, State.checkedLoad, State.checked, State.based, hp]
  simp [State.awaits, State.orLate, late, State.loadAt, load_poison w (path_own_iff.mp hp).2.2.2]
theorem ldBody_trap {c : Cause} (hg : s.gp a = false) (hp : s.path (s.gv a + d.signExtend 64) w.bytes = .trap c) :
    ldBody r a w d s = .trap c (s.gv a + d.signExtend 64) := by
  rw [ldBody, consume_clean hg, State.checkedLoad, State.checked, State.based, hp]
theorem ldBody_peer (hg : s.gp a = false) (hp : s.path (s.gv a + d.signExtend 64) w.bytes = .peer k off)
    (ha : shareWord (wordsOf (nodeBase k + off) w.bytes) s.core.ordering = false) :
    ldBody r a w d s = s.orLate [⟨.scalar r w, k, off⟩] s
      (let u := (s.countDirect 1).loadWord k off w.bytes
       .ok (u.1.setG r (loadedValue w u.2.1) u.2.2)) := by
  have short : w.bytes ≤ 8 ∧ (w.bytes + 7) / 8 = 1 := by cases w <;> decide
  rw [ldBody, consume_clean hg, State.checkedLoad, State.checked, State.based, hp]
  simp [State.awaits, ha, State.loadAt, short, Path.lates]
theorem ldBody_held (hg : s.gp a = false) (hp : s.path (s.gv a + d.signExtend 64) w.bytes = .peer k off)
    (ha : shareWord (wordsOf (nodeBase k + off) w.bytes) s.core.ordering = true) : ldBody r a w d s = .hold := by
  rw [ldBody, consume_clean hg, State.checkedLoad, State.checked, State.based, hp]
  simp [State.awaits, ha]
end

/-! ## A peer's port (R40, R114) -/

section
variable {s : State} {k : Nat} {ws : List Nat}
theorem landWords_idle (h : s.core.flying = []) : s.landWords ws = s := by
  have none_hit {t : Stream} (ht : t ∈ s.core.sh.stream.toList) :
      (t.legs.flatMap fun g => g.fly.filter fun f => shareWord f.places ws) = [] := by
    simp only [Core.flying, List.flatMap_eq_nil_iff] at h
    simp only [List.flatMap_eq_nil_iff, List.filter_eq_nil_iff]
    intro g hg f hf
    simp [h t ht g hg f hf, shareWord]
  unfold State.landWords
  refine List.foldl_fixed' (fun j => ?_) _
  dsimp only
  split
  · rfl
  · next t e =>
    have ht : t ∈ s.core.sh.stream.toList := Vector.mem_toList_iff.mpr (Vector.mem_of_getElem? e)
    split
    · rfl
    · rw [none_hit ht]
      rfl
theorem portServe_idle (h : (s.coreAt k).sh.port = []) (i : Nat) : s.portServe k i = s := by
  simp [State.portServe, State.portReady, h]
theorem portUntil_idle (h : (s.coreAt k).sh.port = []) (i : Nat) : s.portUntil k i = s :=
  List.foldl_fixed' (fun _ => portServe_idle h _) _
/-- A read at a peer's port where nothing waits changes the port's turn alone. -/
theorem portRead_idle (hk : k ≠ s.here) (hf : s.core.flying = []) (hp : (s.coreAt k).sh.port = []) :
    ∃ p, s.portRead k ws = { s with peers := p } := by
  rw [State.portRead, landWords_idle hf, hp, List.countP_nil, State.portTurns, portUntil_idle hp, State.onCore, State.setCore,
    if_neg hk]
  exact ⟨_, rfl⟩
theorem takeWords_none (h : s.core.sh.late = []) : s.takeWords ws = s := by simp [State.takeWords, State.takeIf, h]
theorem forgetAhead_none (h : s.core.sh.ahead = []) : s.forgetAhead k ws = s := by
  have same : s.core.sh.ahead.filter (fun a => !(a.key == k && ws.contains a.word)) = s.core.sh.ahead := by simp [h]
  rw [State.forgetAhead, State.onSh, same]
/-- A read of a peer with nothing of the core on its way: the bytes and the poison of its word. -/
theorem loadWord_quiet {off n : Nat} (hk : k ≠ s.here) (hp : (s.coreAt k).sh.port = []) (ha : s.core.sh.ahead = [])
    (hl : s.core.sh.late = []) (hf : s.core.flying = []) :
    ∃ p, s.loadWord k off n = ({ s with peers := p }, s.readNat (nodeBase k + off) n, s.anyPoison (nodeBase k + off) n) := by
  obtain ⟨p, read⟩ := portRead_idle (ws := wordsOf (nodeBase k + off) n) hk hf hp
  have kept : ({ s with peers := p } : State).forgetAhead k (wordsOf (nodeBase k + off) n) = { s with peers := p } := forgetAhead_none ha
  refine ⟨p, ?_⟩
  rw [State.loadWord, takeWords_none hl]
  simp only [ha, List.find?_nil, read, kept]
  exact congrArg (Prod.mk _) (congrArg₂ Prod.mk (readNat_congr fun _ => rfl) (anyPoison_congr fun _ => rfl))
theorem loadWord_ahead {q : Ahead} {off n : Nat} (hl : s.core.sh.late = []) (ha : s.core.sh.ahead = [q]) (hk : q.key = k)
    (hw : wordsOf (nodeBase k + off) n = [q.word]) :
    s.loadWord k off n = (s.onSh fun h => { h with ahead := [] }, q.val.toNat / 256 ^ (off % 8) % 256 ^ n, q.p) := by
  rw [State.loadWord, takeWords_none hl]
  simp [ha, hk, hw, State.forgetAhead, State.onSh]
end

/-! ## The clauses -/

section
variable {s : State} {r a : GR} {w : LdW} {d : BitVec 13} {k off : Nat}
theorem ld_own (hg : s.gp a = false) (hp : s.path (s.gv a + d.signExtend 64) w.bytes = .own off) :
    Completes (.ld r a w d) s fun t =>
      WritesG s t r (loadedValue w (s.readNat (nodeBase s.here + off) w.bytes)) (s.poisoned (nodeBase s.here + off)) 0 4 :=
  completes_ok (congrArg (s.finish 4) (ldBody_own hg hp)) (setG_commit_writesG ..)
theorem goLate_unmet {l : List Late} (h : ¬ Input.readLate ∈ s.met) : s.goLate l = false := by simp [State.goLate, h]
theorem ld_peer (hg : s.gp a = false) (hp : s.path (s.gv a + d.signExtend 64) w.bytes = .peer k off) (q : PeerQuiet s k) :
    Completes (.ld r a w d) s fun t =>
      t.gv r = loadedValue w (s.readNat (nodeBase k + off) w.bytes) ∧ t.gp r = s.poisoned (nodeBase k + off) ∧
      SameG s t [r] ∧ SameV s t ∧ PeerRead s t := by
  obtain ⟨port, ahead, late, fly, ord, unmet⟩ := q
  obtain ⟨hk, aligned⟩ := path_peer hp
  have port' : ((s.countDirect 1).coreAt k).sh.port = [] := by
    simpa [State.coreAt, hk, State.countDirect] using port
  obtain ⟨p, read⟩ := loadWord_quiet (s := s.countDirect 1) (off := off) (n := w.bytes) hk port' ahead late fly
  have value : (s.countDirect 1).readNat (nodeBase k + off) w.bytes = s.readNat (nodeBase k + off) w.bytes := readNat_congr fun _ => rfl
  have poison : (s.countDirect 1).anyPoison (nodeBase k + off) w.bytes = s.poisoned (nodeBase k + off) :=
    (anyPoison_congr fun _ => rfl).trans (load_poison w aligned)
  have body := ldBody_peer (r := r) hg hp (by simp [ord, shareWord])
  rw [State.orLate, goLate_unmet unmet, read, value, poison] at body
  refine completes_ok (congrArg (s.finish 4) body) ⟨setG_gv .., setG_gp .., fun x hx => ?_, ⟨rfl, rfl, rfl⟩, ⟨rfl, rfl, ⟨rfl, rfl, rfl⟩, rfl, ⟨rfl, rfl⟩, rfl⟩⟩
  have hx : x ≠ r := by simpa using hx
  exact ⟨setG_gv_ne _ r x _ _ hx, setG_gp_ne _ r x _ _ hx⟩
theorem ld_ahead {q : Ahead} (hg : s.gp a = false) (hp : s.path (s.gv a + d.signExtend 64) w.bytes = .peer k off)
    (ha : s.core.sh.ahead = [q]) (hk : q.key = k) (hw : wordsOf (nodeBase k + off) w.bytes = [q.word])
    (ho : ¬ q.word ∈ s.core.ordering) (hl : s.core.sh.late = []) :
    Completes (.ld r a w d) s fun t =>
      t.gv r = loadedValue w (q.val.toNat / 256 ^ (off % 8) % 256 ^ w.bytes) ∧ t.gp r = q.p ∧
      t.core.sh.ahead = [] ∧ SameG s t [r] ∧ SameV s t ∧ SameOutside s t ∧ t.pc = s.pc + 4 := by
  have now : s.goLate [⟨.scalar r w, k, off⟩] = false := by
    simp [State.goLate, ha, hk, Late.words, LateReg.bytes, hw]
  have body := ldBody_peer (r := r) hg hp (by simp [hw, ho, shareWord])
  rw [State.orLate, now, loadWord_ahead (s := s.countDirect 1) hl ha hk hw] at body
  refine completes_ok (congrArg (s.finish 4) body) ⟨setG_gv .., setG_gp .., rfl, fun x hx => ?_, ⟨rfl, rfl, rfl⟩, rfl, rfl⟩
  have hx : x ≠ r := by simpa using hx
  exact ⟨setG_gv_ne _ r x _ _ hx, setG_gp_ne _ r x _ _ hx⟩
theorem ld_held (hg : s.gp a = false) (hp : s.path (s.gv a + d.signExtend 64) w.bytes = .peer k off)
    (ha : shareWord (wordsOf (nodeBase k + off) w.bytes) s.core.ordering = true) : Completes (.ld r a w d) s (HeldAt s) :=
  ⟨_, congrArg (s.finish 4) (ldBody_held hg hp ha), rfl⟩
theorem ld_putOff (hg : s.gp a = false) (hp : s.path (s.gv a + d.signExtend 64) w.bytes = .peer k off)
    (ho : s.core.ordering = []) (ha : s.core.sh.ahead = []) (hm : .readLate ∈ s.met) (hr : s.core.ctl.riga = false) :
    Completes (.ld r a w d) s fun t =>
      t.core.sh = { s.core.sh with late := s.core.sh.late ++ [⟨.scalar r w, k, off⟩] } ∧ t.core.regs = s.core.regs ∧
      t.core.slots = s.core.slots ∧ t.core.eng = s.core.eng ∧ SameOutside s t ∧ t.pc = s.pc + 4 := by
  have late : s.goLate [⟨.scalar r w, k, off⟩] = true := by simp [State.goLate, ha, hm, hr]
  have body := ldBody_peer (r := r) hg hp (by simp [ho, shareWord])
  rw [State.orLate, late] at body
  exact completes_ok (congrArg (s.finish 4) body) ⟨rfl, rfl, rfl, rfl, rfl, rfl⟩
theorem wordsOf_ne_nil {n : Nat} (m : Nat) (h : 0 < n) : ∃ x l, wordsOf m n = x :: l := by
  have pos : ∃ j, (m + n + 7) / 8 - m / 8 = j + 1 := ⟨(m + n + 7) / 8 - m / 8 - 1, by omega⟩
  obtain ⟨j, e⟩ := pos
  exact ⟨_, _, by rw [wordsOf, e, List.range_succ_eq_map, List.map_cons]⟩
theorem shareWord_self {l : List Nat} (h : ∃ x r, l = x :: r) : shareWord l l = true := by
  obtain ⟨x, r, rfl⟩ := h
  simp [shareWord]
/-- The one late read of the core, of a peer with nothing of the core on its way, is taken. -/
theorem takeNth_only (hk : k ≠ s.here) (hl : s.core.sh.late = [⟨.scalar r w, k, off⟩]) (hp : (s.coreAt k).sh.port = [])
    (hf : s.core.flying = []) :
    ∃ p, s.takeNth 0 = (({ s with peers := p } : State).onSh fun h => { h with late := [] }).setG r
      (loadedValue w (s.readNat (nodeBase k + off) w.bytes)) (s.anyPoison (nodeBase k + off) w.bytes) := by
  have own : shareWord (Late.words ⟨.scalar r w, k, off⟩) (Late.words ⟨.scalar r w, k, off⟩) = true :=
    shareWord_self (wordsOf_ne_nil _ (loadBytes_pos w))
  have all : s.takeNth 0 = ((s.onSh fun h => { h with late := [] }).takeRead ⟨.scalar r w, k, off⟩) := by
    simp [State.takeNth, hl, own, State.takeIf, State.onSh]
  have port' : ((s.onSh fun h => { h with late := [] }).coreAt k).sh.port = [] := by
    simpa [State.coreAt, hk] using hp
  obtain ⟨p, read⟩ := portRead_idle (s := s.onSh fun h => { h with late := [] }) (ws := wordsOf (nodeBase k + off) w.bytes) hk hf port'
  refine ⟨p, ?_⟩
  rw [all, State.takeRead]
  simp only [LateReg.bytes, read, State.putLate]
  exact congrArg₂ (State.setG _ r) (congrArg _ (readNat_congr fun _ => rfl)) (anyPoison_congr fun _ => rfl)
theorem exec_st_own {q : GR} (hg : s.gp a = false) (hp : s.path (s.gv a + d.signExtend 64) 8 = .own off) :
    exec (.st q a .w64 d) s = .next ((s.storeOf true off (leBytes 8 (s.gv q).toNat) (s.gp q)).commit 4) := by
  have body : stBody q a .w64 d s = .ok (s.storeOf true off (leBytes 8 (s.gv q).toNat) (s.gp q)) := by
    simp only [stBody, consume_clean hg, State.checked, State.based, StW.bytes, hp, State.storeTo]
  exact congrArg (s.finish 4) body
/-- What checks 1 to 3 of R31 read: the core's coordinate and group, the domains, the panels. -/
theorem resolve_congr {t : State} (hc : t.core.ctl = { s.core.ctl with pc := t.core.ctl.pc, issue := t.core.ctl.issue, pmc := t.core.ctl.pmc })
    (hh : t.here = s.here) (hp : t.pages = s.pages) (hl : t.links = s.links) (x : BitVec 64) : t.resolve x = s.resolve x := by
  unfold State.resolve State.panelOf State.domain
  rw [hc, hh, hp, hl]
theorem readNat_of_bytes {t : State} {b : Nat} {l : List (BitVec 8)} (h : ∀ i (hi : i < l.length), t.readByte (b + i) = l[i]) :
    t.readNat b l.length = leNat l := by
  unfold State.readNat
  congr 1
  induction l generalizing b with
  | nil => rfl
  | cons x l ih =>
    refine congrArg₂ List.cons (h 0 (by simp)) (ih fun i hi => ?_)
    rw [Nat.add_assoc, Nat.add_comm 1]
    exact h (i + 1) (by simpa using hi)
theorem storeOf_kept (st : Bool) (l : List (BitVec 8)) (p : Bool) : (s.storeOf st off l p).here = s.here ∧
    (s.storeOf st off l p).pages = s.pages ∧ (s.storeOf st off l p).links = s.links := by
  have h := (writeOf_same s st s.here off l p).1
  have kept {α : Type} (f : State → α) := congrArg f h
  exact ⟨kept State.here, kept State.pages, kept State.links⟩
theorem commit_poisoned (n b : Nat) : (s.commit n).poisoned b = s.poisoned b := rfl
/-- A clean dword stored leaves no poison in its word (R175). -/
theorem storeOf_clean {l : List (BitVec 8)} (st : Bool) (hl : l.length = 8) (ho : off % 8 = 0) {i : Nat} (hi : i < 8) :
    (s.storeOf st off l false).poisoned (nodeBase s.here + off + i) = false := by
  change (s.writeOf st s.here off l false).poisoned _ = false
  rw [writeOf_poisoned, hl]
  unfold nodeBase
  grind
theorem storeOf_readNat {l : List (BitVec 8)} (st : Bool) (hl : l.length = 8) (ho : off % 8 = 0) :
    (s.storeOf st off l false).readNat (nodeBase s.here + off) 8 = leNat l := by
  rw [← hl]
  refine readNat_of_bytes fun i hi => ?_
  rw [State.readByte, storeOf_clean st hl ho (hl ▸ hi), if_neg Bool.false_ne_true]
  exact writeOf_byte_in s st s.here off l false i hi
/-- A dword stored with no poison is read back (R3, R175). -/
theorem ld_stored {t : State} {q : GR} (hg : s.gp a = false) (hq : s.gp r = false) (hp : s.path (s.gv a + d.signExtend 64) 8 = .own off)
    (e : exec (.st r a .w64 d) s = .next t) :
    Completes (.ld q a .d64 d) t fun u => u.gv q = s.gv r ∧ u.gp q = false := by
  rw [exec_st_own hg hp, hq] at e
  cases e
  have len : (leBytes 8 (s.gv r).toNat).length = 8 := leBytes_length 8 _
  have aligned : off % 8 = 0 := (path_own_iff.mp hp).2.2.2
  have clean := storeOf_clean (s := s) true len aligned (Nat.zero_lt_succ 7)
  rw [Nat.add_zero] at clean
  have stored := storeOf_readNat (s := s) true len aligned
  obtain ⟨regs, ctl, _⟩ := storeOf_core s true off (leBytes 8 (s.gv r).toNat) false
  obtain ⟨here, pages, links⟩ := storeOf_kept (s := s) (off := off) true (leBytes 8 (s.gv r).toNat) false
  set u := s.storeOf true off (leBytes 8 (s.gv r).toNat) false
  have value : u.gv a = s.gv a := by rw [State.gv, regs, ← State.gv]
  have poison : u.gp a = false := by rw [State.gp, regs, ← State.gp, hg]
  have path : (u.commit 4).path ((u.commit 4).gv a + d.signExtend 64) (LdW.bytes .d64) = .own off := by
    rw [path_own_iff, commit_gv, value, resolve_congr (t := u.commit 4) (s := s) (by rw [commit_ctl, State.ctlAt, Core.countN, ctl]) here
      pages links, commit_here, here]
    exact path_own_iff.mp hp
  refine completes_ok (congrArg ((u.commit 4).finish 4) (ldBody_own poison path)) ⟨?_, ?_⟩
  · rw [commit_gv, setG_gv, commit_here, here]
    change BitVec.ofNat 64 ((u.commit 4).readNat (nodeBase s.here + off) 8) = _
    rw [readNat_congr (s := u) (t := u.commit 4) fun _ => rfl, stored, leNat_leBytes]
    exact BitVec.eq_of_toNat_eq (by simpa using (s.gv r).isLt)
  · rw [commit_gp, setG_gp, commit_here, here, commit_poisoned, clean]
/-! ## The core's own scratchpad -/

theorem ownAddr_toNat {o : Nat} (h : o < 0x40000) : (ownAddr o).toNat = 0xC000000000000000 + o := by
  simp [ownAddr, BitVec.toNat_add]
  omega
theorem ownAddr_near {o : Nat} (h : o < 0x40000) : isFar (ownAddr o) = false := by
  rw [isFar, ownAddr_toNat h]
  simp
  omega
theorem ownAddr_resolve {o : Nat} (hx : keyX s.here ≤ 319) (hy : keyY s.here ≤ 159) (h : o < 0x40000) :
    s.resolve (ownAddr o) = some ⟨0xFF, s.here, o⟩ := by
  have key : keyOf (keyX s.here) (keyY s.here) = s.here := Nat.div_add_mod' s.here 256
  unfold State.resolve
  rw [ownAddr_toNat h]
  have top : (0xC000000000000000 + o) / 4611686018427387904 = 3 := by omega
  have q : (0xC000000000000000 + o) / 72057594037927936 % 64 = 0 := by omega
  have p : (0xC000000000000000 + o) / 281474976710656 % 256 = 0 := by omega
  have x : (0xC000000000000000 + o) / 549755813888 % 512 = 0 := by omega
  have y : (0xC000000000000000 + o) / 2147483648 % 256 = 0 := by omega
  have z : (0xC000000000000000 + o) / 262144 % 8192 = 0 := by omega
  have f : (0xC000000000000000 + o) % 262144 = o := by omega
  simp [top, q, p, x, y, z, f, hx, hy, key]
theorem path_ownAddr {o : Nat} (n : Nat) (hx : keyX s.here ≤ 319) (hy : keyY s.here ≤ 159) (h : o < 0x40000) :
    s.path (ownAddr o) n = if 0x10000 ≤ o then .trap .bounds else if o % n ≠ 0 then .trap .align else .own o := by
  rw [State.path, ownAddr_near h, ownAddr_resolve hx hy h]
  simp
theorem path_far {x : BitVec 64} (n : Nat) (h : x.extractLsb' 62 2 = 1) : s.path x n = .trap .bounds := by
  have far : isFar x = true := by
    have e := congrArg BitVec.toNat h
    have l := x.isLt
    simp [BitVec.extractLsb'_toNat, Nat.shiftRight_eq_div_pow] at e
    simp [isFar]
    omega
  rw [State.path, far, if_pos rfl]
theorem ld_trap {c : Cause} (hu : s.core.ctl.priv = .u) (hg : s.gp a = false) (hp : s.path (s.gv a) w.bytes = .trap c) :
    Completes (.ld r a w 0) s fun t => TrapTaken s t c (s.gv a) s.pc := by
  have addr : s.gv a + (0 : BitVec 13).signExtend 64 = s.gv a := by simp
  have body := ldBody_trap (r := r) (d := 0) hg (by rwa [addr])
  rw [addr] at body
  exact completes_trapTaken (congrArg (s.finish 4) body) hu
end

/-- Settles O7: each path of a load, and what checks 1 to 3 make of the core's own addresses. -/
theorem loadResultsAndChecks : Obligations.LoadResultsAndChecks := by
  refine ⟨⟨fun s r a w d off => ld_own, fun s r a w d k off => ld_peer, fun s r a w d k off q => ld_ahead,
    fun s r a w d k off hg hp => ⟨ld_held hg hp, ld_putOff hg hp⟩, fun s r w k off hk hl hp hf => ?_,
    fun s t r q a d off => ld_stored⟩, fun s _ hx hy => ⟨fun w off h al => ?_, fun r a w off hu hg ha h al => ?_,
    fun r a w off hu hg ha h hh => ?_, fun r a w hu hg hf => ld_trap hu hg (path_far _ hf)⟩⟩
  · obtain ⟨p, e⟩ := takeNth_only hk hl hp hf
    rw [e]
    refine ⟨setG_gv .., setG_gp .., rfl, fun x hx => ?_, ⟨rfl, rfl, rfl⟩, rfl, rfl, rfl, rfl⟩
    have hx : x ≠ r := by simpa using hx
    exact ⟨setG_gv_ne _ r x _ _ hx, setG_gp_ne _ r x _ _ hx⟩
  · rw [path_ownAddr _ hx hy (by omega), if_neg (by omega), if_neg (by simpa using al)]
  · exact ld_trap hu hg (by rw [ha, path_ownAddr _ hx hy (by omega), if_neg (by omega), if_pos al])
  · exact ld_trap hu hg (by rw [ha, path_ownAddr _ hx hy hh, if_pos h])

end Sys2Proof.Machine
end

section

/-! Records read after writes that the events of the panel make: sites, parts, quads, umpires and cores. -/

namespace Sys2Proof.Machine

section
variable (s : State)
theorem site_onSite (n m : Nat) (f : Site → Site) : (s.onSite n f).site m = if m = n then f (s.site n) else s.site m :=
  tget_tset ..
theorem quad_onQuad (q r : Nat) (f : Quad → Quad) : (s.onQuad q f).quad r = if r = q then f (s.quad q) else s.quad r :=
  tget_tset ..
theorem umpire_onUmpire (u v : Nat) (f : Umpire → Umpire) :
    (s.onUmpire u f).umpire v = if v = u then f (s.umpire u) else s.umpire v := tget_tset ..
/-- A record not written reads as before, whatever it reads as where none is listed. -/
theorem tget_tset_other {α : Type} [DecidableEq α] (d e v : α) (t : Tbl α) {k j : Nat} (h : j ≠ k) :
    tget d (tset e t k v) j = tget d t j := by
  unfold tset
  split
  · rw [tget_tdel, if_neg h]
  · rw [tget_tins, if_neg h]
theorem coreAt_onCore (k j : Nat) (f : Core → Core) :
    (s.onCore k f).coreAt j = if j = k then f (s.coreAt k) else s.coreAt j := by
  unfold State.onCore State.setCore
  by_cases hj : j = k
  · subst hj
    by_cases hk : j = s.here <;> simp [hk, State.coreAt]
  · by_cases hk : k = s.here <;> simp_all [State.coreAt, tget_tset_other]
theorem partAt_onPartAt {n r p m q u : Nat} (f : Part → Part) (hp : p < 33) (hu : u < 33) :
    (s.onPartAt n r p f).partAt m q u = if m = n ∧ q = r ∧ u = p then f (s.partAt n r p) else s.partAt m q u := by
  unfold State.onPartAt State.partAt
  rw [site_onSite]
  split
  · rw [tget_tset]
    have key : 33 * q + u = 33 * r + p ↔ q = r ∧ u = p := by omega
    simp_all
  · simp_all
end

section
variable {s : State} {k : Nat}
theorem physCol_lt (s : State) (k : Nat) : s.physCol k < 33 := by
  unfold State.physCol
  grind
/-- Where parts stand is read of the groups and of the sites' skip columns (R18). -/
theorem physCol_congr {t : State} (hl : t.lead.groups = s.lead.groups) (hs : ∀ n, (t.site n).skips = (s.site n).skips) (j : Nat) :
    t.physCol j = s.physCol j := by
  unfold State.physCol State.skipOf
  rw [hl, hs]
theorem physCol_onPart (f : Part → Part) (j : Nat) : (s.onPart k f).physCol j = s.physCol j := by
  refine physCol_congr (s := s) (t := s.onPart k f) rfl (fun n => ?_) j
  rw [State.onPart, State.onPartAt, site_onSite]
  split
  · next e => rw [e]
  · rfl
theorem part_onPart (f : Part → Part) : (s.onPart k f).part k = f (s.part k) := by
  rw [State.part, physCol_onPart, State.onPart, partAt_onPartAt s f (physCol_lt s k) (physCol_lt s k), if_pos ⟨rfl, rfl, rfl⟩]
  rfl
theorem onPart_sameParts (f : Part → Part) : SamePartsBut s (s.onPart k f) k := by
  intro n r p hp h
  rw [State.onPart, partAt_onPartAt s f (physCol_lt s k) hp, if_neg]
  grind
theorem SamePartsBut.trans {t u : State} (h : SamePartsBut s t k) (g : SamePartsBut t u k) (e : t.physCol k = s.physCol k) :
    SamePartsBut s u k := by
  intro n r p hp hn
  rw [g n r p hp (e ▸ hn), h n r p hp hn]
end
end Sys2Proof.Machine
end

section

/-! Scrubbing, suspects and umpires: what a repair in a node's store changes, and what a suspect leaves. -/

namespace Sys2Proof.Machine

/-! ## What an event of the panel leaves -/

section
variable {s t u : State} {k : Nat}
theorem Still.trans (h : Still s t) (g : Still t u) : Still s u := by
  obtain ⟨here, core, peers, mem, pois, tags⟩ := h
  obtain ⟨here', core', peers', mem', pois', tags'⟩ := g
  exact ⟨here'.trans here, core'.trans core, peers'.trans peers, mem'.trans mem, pois'.trans pois, tags'.trans tags⟩
theorem Still.sameRegs (h : Still s t) : SameRegs s t := by
  obtain ⟨here, core, peers, _⟩ := h
  refine ⟨here, fun j => ?_⟩
  rw [State.coreAt, State.coreAt, here, core, peers]
  exact ⟨rfl, rfl⟩
theorem SameRegs.trans (h : SameRegs s t) (g : SameRegs t u) : SameRegs s u :=
  ⟨g.1.trans h.1, fun j => ⟨(g.2 j).1.trans (h.2 j).1, (g.2 j).2.trans (h.2 j).2⟩⟩
theorem SameStore.trans (h : SameStore s t) (g : SameStore t u) : SameStore s u :=
  ⟨g.1.trans h.1, g.2.1.trans h.2.1, g.2.2.trans h.2.2⟩
theorem poisoned_congr (hp : t.pois = s.pois) (hn : t.nodes = s.nodes) (a : Nat) : t.poisoned a = s.poisoned a := by
  rw [State.poisoned, State.poisoned, State.poisonBase, State.poisonBase, State.node, State.node, hp, hn]

/-- The report of a suspect node and its retirement touch no core, byte or node, and the log keeps what it holds. -/
def Reported (s t : State) : Prop := Still s t ∧ t.nodes = s.nodes ∧ ∀ e ∈ s.boat.log, e ∈ t.boat.log
theorem Reported.refl (s : State) : Reported s s := ⟨⟨rfl, rfl, rfl, rfl, rfl, rfl⟩, rfl, fun _ => id⟩
theorem Reported.trans (h : Reported s t) (g : Reported t u) : Reported s u :=
  ⟨h.1.trans g.1, g.2.1.trans h.2.1, fun e he => g.2.2 e (h.2.2 e he)⟩
theorem voteTiles_reported (l : List Nat) : Reported s (s.voteTiles l) := by
  have e := (voteTiles_same l s).1
  rw [e]
  exact Reported.refl s
theorem recommend_reported (n : Nat) : Reported s (s.recommend n) := by
  unfold State.recommend
  split
  · exact Reported.refl s
  · exact ⟨⟨rfl, rfl, rfl, rfl, rfl, rfl⟩, rfl, fun e he => List.mem_append_left _ he⟩
theorem retireNode_reported (k : Nat) : Reported s (s.retireNode k) := by
  unfold State.retireNode
  extract_lets n row p t
  have ht : Reported s t := Reported.trans ⟨⟨rfl, rfl, rfl, rfl, rfl, rfl⟩, rfl, fun _ => id⟩ (voteTiles_reported [n])
  split
  · exact Reported.refl s
  split
  · exact ht.trans ⟨⟨rfl, rfl, rfl, rfl, rfl, rfl⟩, rfl, fun _ => id⟩
  · exact ht
theorem markSuspect_reported (k : Nat) : Reported s (s.markSuspect k) := by
  have suspect : Reported s (s.onPart k fun q => { q with suspect := true }) := ⟨⟨rfl, rfl, rfl, rfl, rfl, rfl⟩, rfl, fun _ => id⟩
  have redrawn (v : State) : Reported v v.redraw := ⟨⟨rfl, rfl, rfl, rfl, rfl, rfl⟩, rfl, fun _ => id⟩
  unfold State.markSuspect
  extract_lets v
  have hv : Reported s v := suspect.trans (recommend_reported _)
  split
  · exact hv.trans (redrawn v)
  · exact hv.trans ((retireNode_reported k).trans (redrawn _))
theorem fillBucket_reported (k n : Nat) : Reported s (s.fillBucket k n) := by
  have filled : Reported s (s.onPart k fun q => { q with bucket := min 64 ((s.part k).bucket + n) }) :=
    ⟨⟨rfl, rfl, rfl, rfl, rfl, rfl⟩, rfl, fun _ => id⟩
  unfold State.fillBucket
  extract_lets b v
  split
  · exact filled.trans (markSuspect_reported k)
  · exact filled
theorem fillBucket_below {n : Nat} (h : (s.part k).bucket + n < 64) :
    s.fillBucket k n = s.onPart k fun q => { q with bucket := (s.part k).bucket + n } := by
  unfold State.fillBucket
  extract_lets b v
  rw [if_neg (by omega)]
  simp only [v, b, Nat.min_eq_right (Nat.le_of_lt h)]
end

/-! ## Repairs (R355-R357, R367) -/

/-- What a change to a node's part f, its quad and its counters leaves. -/
structure Mends (s t : State) (k : Nat) (f : Part → Part) : Prop where
  regs : SameRegs s t
  store : SameStore s t
  nodes : t.nodes = s.nodes
  boat : t.boat = s.boat
  clock : t.clock = s.clock
  cols : t.physCol k = s.physCol k
  parts : SamePartsBut s t k
  part : t.part k = f (s.part k)
/-- The trims of the quads and the ticks to which their raises are frozen are as before. -/
def SameRails (s t : State) : Prop := ∀ q, (t.quad q).trim = (s.quad q).trim ∧ (t.quad q).freeze = (s.quad q).freeze

section
variable {s t u : State} {k : Nat} {f g : Part → Part}
theorem Mends.refl (s : State) (k : Nat) : Mends s s k id where
  regs := ⟨rfl, fun _ => ⟨rfl, rfl⟩⟩
  store := ⟨rfl, rfl, rfl⟩
  nodes := rfl
  boat := rfl
  clock := rfl
  cols := rfl
  parts := fun _ _ _ _ _ => rfl
  part := rfl
theorem Mends.trans (h : Mends s t k f) (e : Mends t u k g) : Mends s u k (g ∘ f) where
  regs := h.regs.trans e.regs
  store := h.store.trans e.store
  nodes := e.nodes.trans h.nodes
  boat := e.boat.trans h.boat
  clock := e.clock.trans h.clock
  cols := e.cols.trans h.cols
  parts := h.parts.trans e.parts h.cols
  part := e.part.trans (congrArg g h.part)
theorem onPart_mends (f : Part → Part) : Mends s (s.onPart k f) k f where
  regs := Still.sameRegs ⟨rfl, rfl, rfl, rfl, rfl, rfl⟩
  store := ⟨rfl, rfl, rfl⟩
  nodes := rfl
  boat := rfl
  clock := rfl
  cols := physCol_onPart f k
  parts := onPart_sameParts f
  part := part_onPart f
theorem onQuad_mends (q : Nat) (f : Quad → Quad) : Mends s (s.onQuad q f) k id := { Mends.refl s k with }
theorem quadOf_congr (h : t.physCol k = s.physCol k) : t.quadOf k = s.quadOf k := by
  unfold State.quadOf
  rw [h]
theorem trimOf_core (s : State) (h : isCore k = true) : s.trimOf k = (s.quad (s.quadOf k)).trim := by
  simp [State.trimOf, State.quadOf?, h]
theorem trimOf_bank (s : State) (h : isCore k = false) : s.trimOf k = 0 := by simp [State.trimOf, State.quadOf?, h]
theorem margin_core (s : State) (h : isCore k = true) :
    s.margin k = (decide (0 < (s.quad (s.quadOf k)).trim) || (s.quad (s.quadOf k)).justLost s.clock.ticks) := by
  simp [State.margin, trimOf_core s h, State.quadOf?, h]
theorem margin_bank (s : State) (h : isCore k = false) : s.margin k = false := by
  simp [State.margin, trimOf_bank s h, State.quadOf?, h]
theorem trimOf_congr (hc : t.physCol k = s.physCol k) (hq : SameRails s t) : t.trimOf k = s.trimOf k := by
  cases h : isCore k with
  | false => rw [trimOf_bank t h, trimOf_bank s h]
  | true => rw [trimOf_core t h, trimOf_core s h, quadOf_congr hc, (hq _).1]
theorem margin_congr (hc : t.physCol k = s.physCol k) (hq : SameRails s t) (hk : t.clock = s.clock) : t.margin k = s.margin k := by
  cases h : isCore k with
  | false => rw [margin_bank t h, margin_bank s h]
  | true =>
    rw [margin_core t h, margin_core s h, quadOf_congr hc, (hq _).1, Quad.justLost, Quad.justLost, (hq _).2, hk]
theorem SameRails.trans (h : SameRails s t) (g : SameRails t u) : SameRails s u :=
  fun q => ⟨(g q).1.trans (h q).1, (g q).2.trans (h q).2⟩

/-- The counter of corrected errors of a core's own stores (R53). -/
theorem countCorrected_mends (k : Nat) :
    Mends s (if isCore k then s.onCore k fun c => c.countN 8 1 else s) k id ∧
      (if isCore k then s.onCore k fun c => c.countN 8 1 else s).power = s.power := by
  split
  · have regs : SameRegs s (s.onCore k fun c => c.countN 8 1) := by
      refine ⟨by unfold State.onCore State.setCore; split <;> rfl, fun j => ?_⟩
      rw [coreAt_onCore]
      split
      · next e => rw [e]; exact ⟨rfl, rfl⟩
      · exact ⟨rfl, rfl⟩
    have outside : s.onCore k (fun c => c.countN 8 1) =
        { s with core := (s.onCore k fun c => c.countN 8 1).core, peers := (s.onCore k fun c => c.countN 8 1).peers } := by
      unfold State.onCore State.setCore
      split <;> rfl
    rw [outside] at regs ⊢
    exact ⟨⟨regs, ⟨rfl, rfl, rfl⟩, rfl, rfl, rfl, rfl, fun _ _ _ _ _ => rfl, rfl⟩, rfl⟩
  · exact ⟨Mends.refl s k, rfl⟩
theorem quadOf_onQuad (q : Nat) (f : Quad → Quad) : (s.onQuad q f).quadOf k = s.quadOf k := rfl
theorem quadErred_core (h : isCore k = true) : s.quadErred k = s.onQuad (s.quadOf k) fun r => { r with errAt := s.clock.ticks } := by
  simp [State.quadErred, State.quadOf?, h]
theorem trimBack_core (h : isCore k = true) (n f : Nat) :
    s.trimBack k n f = s.onQuad (s.quadOf k) fun r => { r with trim := n, freeze := s.clock.ticks + f } := by
  simp [State.trimBack, State.quadOf?, h]
theorem quadErred_mends (k : Nat) : Mends s (s.quadErred k) k id := by
  unfold State.quadErred
  split
  · exact onQuad_mends ..
  · exact Mends.refl s k
theorem quadErred_rails (k : Nat) : SameRails s (s.quadErred k) := by
  intro q
  unfold State.quadErred
  split
  · rw [quad_onQuad]
    split
    · next e => rw [e]; exact ⟨rfl, rfl⟩
    · exact ⟨rfl, rfl⟩
  · exact ⟨rfl, rfl⟩
/-- A bucket that has taken n. -/
def Part.fill (n : Nat) (q : Part) : Part := { q with bucket := q.bucket + n }
theorem fillBucket_mends {n : Nat} (h : (s.part k).bucket + n < 64) : Mends s (s.fillBucket k n) k (Part.fill n) ∧ SameRails s (s.fillBucket k n) := by
  rw [fillBucket_below h]
  refine ⟨?_, fun q => ⟨rfl, rfl⟩⟩
  have m := onPart_mends (s := s) (k := k) fun q => { q with bucket := (s.part k).bucket + n }
  exact { m with part := m.part }
/-- A correction where no trim is in force (R357). -/
theorem corrected_mends (ht : s.trimOf k = 0) (hb : (s.part k).bucket + 1 < 64) :
    Mends s (s.corrected k) k (Part.fill 1) ∧ SameRails s (s.corrected k) := by
  obtain ⟨counted, power⟩ := countCorrected_mends (s := s) k
  unfold State.corrected
  set c := if isCore k then s.onCore k fun c => c.countN 8 1 else s
  have rails : SameRails s c := fun q => by rw [State.quad, State.quad, power]; exact ⟨rfl, rfl⟩
  have erred := counted.trans (quadErred_mends k)
  have filled := fillBucket_mends (s := c.quadErred k) (k := k) (n := 1) (by rwa [erred.part])
  rw [State.correctedIn, trimOf_congr counted.cols rails, ht]
  exact ⟨erred.trans filled.1, (rails.trans (quadErred_rails k)).trans filled.2⟩
/-- A correction where a trim is in force takes one step of it (R367). -/
theorem corrected_trimmed {n : Nat} (ht : s.trimOf k = n + 1) : Mends s (s.corrected k) k id ∧
    (s.corrected k).quad (s.quadOf k) = { s.quad (s.quadOf k) with
      trim := n, freeze := s.clock.ticks + 2 ^ 30, errAt := s.clock.ticks } := by
  have core : isCore k = true := by
    by_contra h
    simp [trimOf_bank s (Bool.eq_false_iff.mpr h)] at ht
  obtain ⟨counted, power⟩ := countCorrected_mends (s := s) k
  unfold State.corrected
  set c := if isCore k then s.onCore k fun c => c.countN 8 1 else s
  have rails : SameRails s c := fun q => by rw [State.quad, State.quad, power]; exact ⟨rfl, rfl⟩
  have place : c.quadOf k = s.quadOf k := quadOf_congr counted.cols
  have steps : c.correctedIn k = (c.onQuad (s.quadOf k) fun r => { r with trim := n, freeze := s.clock.ticks + 2 ^ 30 }).onQuad
      (s.quadOf k) fun r => { r with errAt := s.clock.ticks } := by
    rw [State.correctedIn, trimOf_congr counted.cols rails, ht]
    simp only [Nat.succ_pos, if_true, Nat.add_sub_cancel, trimBack_core core, quadErred_core core, quadOf_onQuad, onQuad_clock, place,
      counted.clock]
  rw [steps, quad_onQuad, if_pos rfl, quad_onQuad, if_pos rfl, State.quad, power]
  exact ⟨(counted.trans (onQuad_mends ..)).trans (onQuad_mends ..), rfl⟩
theorem visit_cons (line : Nat) (x : Nat × Ecc) (l : List (Nat × Ecc)) : s.visit k line (x :: l) = (s.visit k line [x]).visit k line l := rfl
theorem visit_corrected {line w : Nat} (hw : w < 8) (hp : s.poisoned (nodeBase k + 64 * line + 8 * w) = false) :
    s.visit k line [(w, .corrected)] = s.corrected k := by
  simp [State.visit, Nat.not_le.mpr hw, hp]
theorem visit_uncorrectable {line w : Nat} (hw : w < 8) (hp : s.poisoned (nodeBase k + 64 * line + 8 * w) = false) :
    s.visit k line [(w, .uncorrectable)] = s.uncorrectable k line w := by
  simp [State.visit, Nat.not_le.mpr hw, hp]
/-- A visit that corrects errors of a line where no trim is in force fills the bucket by 1 for each (R357). -/
theorem visit_mends {line : Nat} (ws : List Nat) : ∀ {s : State}, (∀ w ∈ ws, w < 8 ∧ s.poisoned (nodeBase k + 64 * line + 8 * w) = false) →
    s.trimOf k = 0 → (s.part k).bucket + ws.length < 64 →
    Mends s (s.visit k line (ws.map fun w => (w, .corrected))) k (Part.fill ws.length) := by
  induction ws with
  | nil => exact fun {s} _ _ _ => Mends.refl s k
  | cons w ws ih =>
    intro s hw ht hb
    obtain ⟨⟨lt, clean⟩, hw⟩ := List.forall_mem_cons.mp hw
    rw [List.length_cons] at hb
    obtain ⟨m, rails⟩ := corrected_mends ht (by omega)
    rw [List.map_cons, visit_cons, visit_corrected lt clean]
    have rest := ih (s := s.corrected k) (fun v hv => ?_) ((trimOf_congr m.cols rails).trans ht) (by rw [m.part]; simp only [Part.fill]; omega)
    · have both := m.trans rest
      have sum : Part.fill ws.length ∘ Part.fill 1 = Part.fill (ws.length + 1) := by
        funext q
        simp only [Function.comp, Part.fill]
        rw [Nat.add_assoc, Nat.add_comm 1]
      rwa [sum] at both
    · rw [poisoned_congr m.store.2.1 m.nodes]
      exact hw v hv

/-! ## Errors that cannot be corrected (R355, R357, R367) -/

/-- The poison code in a 64-bit word, by its number. -/
def State.coded (s : State) (w : Nat) : State := { s with pois := tset (s.poisonBase w) s.pois w true }
theorem coded_poisoned (w b : Nat) : (s.coded w).poisoned b = (decide (b / 8 = w) || s.poisoned b) := by
  have base : (s.coded w).poisonBase = s.poisonBase := rfl
  rw [State.poisoned, State.poisoned, base]
  by_cases h : b / 8 = w
  · subst h
    simp [State.coded]
  · simp [State.coded, h, tget_tset_other]
theorem line_word (k line : Nat) : (nodeBase k + 64 * line) / 8 = nodeBase k / 8 + 8 * line := by omega
theorem uncorrectable_core (h : isCore k = true) (line w : Nat) : s.uncorrectable k line w =
    (s.coded (nodeBase k / 8 + 8 * line + w)).uncorrectableIn k line w (s.tag (nodeBase k + 64 * line)) := by
  rw [State.uncorrectable, if_pos h, line_word]
  rfl
theorem uncorrectable_bank (h : isCore k = false) (line w : Nat) : s.uncorrectable k line w =
    ((s.coded (nodeBase k / 8 + 8 * line + w / 2 * 2)).coded (nodeBase k / 8 + 8 * line + (w / 2 * 2 + 1))).uncorrectableIn k line w
      (s.tag (nodeBase k + 64 * line)) := by
  rw [State.uncorrectable, h, line_word]
  rfl
/-- The codes that an error in a word leaves: in the word of a core, in both words of its pair of a bank element (R355). -/
theorem uncorrectable_codes (s : State) (k line w : Nat) : ∃ p,
    s.uncorrectable k line w = { s with pois := p }.uncorrectableIn k line w (s.tag (nodeBase k + 64 * line)) ∧
    (isCore k = true → ∀ b, { s with pois := p }.poisoned b = (decide (b / 8 = nodeBase k / 8 + 8 * line + w) || s.poisoned b)) ∧
    (isCore k = false → ∀ b, { s with pois := p }.poisoned b = (decide (b / 8 = nodeBase k / 8 + 8 * line + w / 2 * 2 ∨
      b / 8 = nodeBase k / 8 + 8 * line + w / 2 * 2 + 1) || s.poisoned b)) := by
  cases h : isCore k with
  | true =>
    exact ⟨_, uncorrectable_core h line w, fun _ b => coded_poisoned _ b, nofun⟩
  | false =>
    refine ⟨_, uncorrectable_bank h line w, nofun, fun _ b => ?_⟩
    refine (coded_poisoned (s := s.coded _) _ b).trans ?_
    rw [coded_poisoned]
    grind
theorem uncorrectableIn_reported (line w : Nat) (o : BitVec 5) : Reported s (s.uncorrectableIn k line w o) ∧
    LogEntry.uncorrectable k line w o ∈ (s.uncorrectableIn k line w o).boat.log := by
  have noted : Reported s (s.note (.uncorrectable k line w o)) :=
    ⟨⟨rfl, rfl, rfl, rfl, rfl, rfl⟩, rfl, fun _ => List.mem_append_left _⟩
  have last : LogEntry.uncorrectable k line w o ∈ (s.note (.uncorrectable k line w o)).boat.log := List.mem_concat_self
  unfold State.uncorrectableIn
  extract_lets t
  split
  · unfold State.trimBack
    split
    · exact ⟨noted.trans ⟨⟨rfl, rfl, rfl, rfl, rfl, rfl⟩, rfl, fun _ => id⟩, last⟩
    · exact ⟨noted, last⟩
  · have filled := fillBucket_reported (s := t) k 16
    exact ⟨noted.trans filled, filled.2.2 _ last⟩
theorem uncorrectableIn_fills (line w : Nat) (o : BitVec 5) (hm : s.margin k = false) (hb : (s.part k).bucket + 16 < 64) :
    ((s.uncorrectableIn k line w o).part k) = Part.fill 16 (s.part k) := by
  rw [State.uncorrectableIn, hm]
  exact (fillBucket_mends (s := s.note _) hb).1.part
theorem uncorrectableIn_margin (line w : Nat) (o : BitVec 5) (hm : s.margin k = true) :
    (s.uncorrectableIn k line w o).part k = s.part k ∧
    (s.uncorrectableIn k line w o).quad (s.quadOf k) = { s.quad (s.quadOf k) with trim := 0, freeze := s.clock.ticks + 2 ^ 34 } := by
  have core : isCore k = true := by
    by_contra h
    simp [margin_bank s (Bool.eq_false_iff.mpr h)] at hm
  simp only [State.uncorrectableIn, hm, trimBack_core core, if_true]
  exact ⟨rfl, (quad_onQuad ..).trans (if_pos rfl)⟩

/-! ## `SCRUB_VISIT` (R356) -/

/-- What a visit that is in order does to its part, before its line is read. -/
def State.scrubbed (s : State) (k line : Nat) (found : List (Nat × Ecc)) (q : Part) : Part :=
  let q := { q with
    scrub := if line + 1 < nodeSize k / 64 then line + 1 else 0, scrubAt := if line = 0 then s.clock.ticks else q.scrubAt }
  if s.corrects k line found then q.listLine line s.clock.ticks else q
theorem scrubVisit_due {line : Nat} {found : List (Nat × Ecc)} (hs : s.serving k = true) (hl : line = (s.part k).scrub)
    (hd : line = 0 → (s.part k).scrubAt + 2 ^ 30 ≤ s.clock.ticks) :
    exec (.scrubVisit k line found) s = .next ((s.onPart k (s.scrubbed k line found)).visit k line found) := by
  have due : ¬ (!s.serving k ∨ line ≠ (s.part k).scrub ∨ line = 0 ∧ s.clock.ticks < (s.part k).scrubAt + 2 ^ 30) := by
    rintro (h | h | ⟨h, h'⟩)
    · simp [hs] at h
    · exact h hl
    · exact Nat.not_le.mpr h' (hd h)
  exact congrArg Host.Outcome.next (if_neg due)
theorem listLine_bucket (q : Part) (line now : Nat) : (q.listLine line now).bucket = q.bucket := by
  unfold Part.listLine
  split <;> rfl
theorem mapFirst_any {α : Type} (p : α → Bool) (f : α → α) (h : ∀ x, p x = true → p (f x) = true) (l : List α) :
    (mapFirst p f l).any p = l.any p := by
  induction l with
  | nil => rfl
  | cons x l ih =>
    rw [mapFirst]
    split
    · next e => simp [h x e, e]
    · next e => simp [ih]
theorem listLine_listed (q : Part) (line now : Nat) : (q.listLine line now).revisit.any (fun r => r.line == line) = true := by
  unfold Part.listLine
  split
  · next h => exact (mapFirst_any _ (fun r : Revisit => { r with clean := 0 }) (fun _ => id) _).trans h
  · simp
theorem scrubbed_bucket (line : Nat) (found : List (Nat × Ecc)) (q : Part) : (s.scrubbed k line found q).bucket = q.bucket := by
  unfold State.scrubbed
  extract_lets r
  split
  · exact listLine_bucket ..
  · rfl
theorem scrubbed_listed {line : Nat} {found : List (Nat × Ecc)} (h : s.corrects k line found = true) (q : Part) :
    (s.scrubbed k line found q).revisit.any (fun r => r.line == line) = true := by
  rw [State.scrubbed, h, if_pos rfl]
  exact listLine_listed ..
theorem scrub_clean {line : Nat} (hs : s.serving k = true) (hl : line = (s.part k).scrub)
    (hd : line = 0 → (s.part k).scrubAt + 2 ^ 30 ≤ s.clock.ticks) :
    Completes (.scrubVisit k line []) s fun t => Still s t ∧ SamePartsBut s t k ∧ t.nodes = s.nodes ∧
      (t.part k).scrub = (if line + 1 < nodeSize k / 64 then line + 1 else 0) ∧
      (t.part k).bucket = (s.part k).bucket ∧ t.boat = s.boat := by
  refine ⟨_, scrubVisit_due hs hl hd, ⟨rfl, rfl, rfl, rfl, rfl, rfl⟩, onPart_sameParts _, rfl, ?_, ?_, rfl⟩
  · exact congrArg Part.scrub (part_onPart _)
  · exact (congrArg Part.bucket (part_onPart _)).trans (scrubbed_bucket ..)
theorem scrub_corrected {line : Nat} {ws : List Nat} (hs : s.serving k = true) (hl : line = (s.part k).scrub)
    (hd : line = 0 → (s.part k).scrubAt + 2 ^ 30 ≤ s.clock.ticks) (hn : ws ≠ [])
    (hw : ∀ w ∈ ws, w < 8 ∧ s.poisoned (nodeBase k + 64 * line + 8 * w) = false) (ht : s.trimOf k = 0)
    (hb : (s.part k).bucket + ws.length < 64) :
    Completes (.scrubVisit k line (ws.map fun w => (w, .corrected))) s fun t =>
      SameRegs s t ∧ SameStore s t ∧ SamePartsBut s t k ∧ (t.part k).bucket = (s.part k).bucket + ws.length ∧
      (t.part k).revisit.any (·.line == line) = true ∧ t.boat = s.boat := by
  have corrects : s.corrects k line (ws.map fun w => (w, .corrected)) = true := by
    obtain ⟨w, l, rfl⟩ := List.exists_cons_of_ne_nil hn
    obtain ⟨lt, clean⟩ := hw w List.mem_cons_self
    simp [State.corrects, lt, clean]
  have first := onPart_mends (s := s) (k := k) (s.scrubbed k line (ws.map fun w => (w, .corrected)))
  have rest := visit_mends (k := k) ws (s := s.onPart k (s.scrubbed k line (ws.map fun w => (w, .corrected)))) hw
    ((trimOf_congr first.cols fun _ => ⟨rfl, rfl⟩).trans ht) (by rwa [first.part, scrubbed_bucket])
  have both := first.trans rest
  refine ⟨_, scrubVisit_due hs hl hd, both.regs, both.store, both.parts, ?_, ?_, both.boat⟩
  · rw [both.part]
    exact congrArg (· + ws.length) (scrubbed_bucket ..)
  · rw [both.part]
    exact scrubbed_listed corrects _
theorem scrub_trimmed {line w n : Nat} (hs : s.serving k = true) (hl : line = (s.part k).scrub)
    (hd : line = 0 → (s.part k).scrubAt + 2 ^ 30 ≤ s.clock.ticks) (hw : w < 8)
    (hp : s.poisoned (nodeBase k + 64 * line + 8 * w) = false) (ht : s.trimOf k = n + 1) :
    Completes (.scrubVisit k line [(w, .corrected)]) s fun t =>
      SameRegs s t ∧ SameStore s t ∧ SamePartsBut s t k ∧ (t.part k).bucket = (s.part k).bucket ∧ t.boat = s.boat ∧
      t.quad (s.quadOf k) = { s.quad (s.quadOf k) with
        trim := n, freeze := s.clock.ticks + 2 ^ 30, errAt := s.clock.ticks } := by
  have first := onPart_mends (s := s) (k := k) (s.scrubbed k line [(w, .corrected)])
  obtain ⟨rest, quad⟩ := corrected_trimmed ((trimOf_congr first.cols fun _ => ⟨rfl, rfl⟩).trans ht)
  have both := first.trans rest
  rw [quadOf_congr first.cols] at quad
  refine ⟨_, (scrubVisit_due hs hl hd).trans (congrArg _ (visit_corrected hw hp)), both.regs, both.store, both.parts, ?_, both.boat, quad⟩
  rw [both.part]
  exact scrubbed_bucket ..
theorem scrub_uncorrectable {line w : Nat} (hs : s.serving k = true) (hl : line = (s.part k).scrub)
    (hd : line = 0 → (s.part k).scrubAt + 2 ^ 30 ≤ s.clock.ticks) (hw : w < 8)
    (hp : s.poisoned (nodeBase k + 64 * line + 8 * w) = false) :
    Completes (.scrubVisit k line [(w, .uncorrectable)]) s fun t =>
      t.poisoned (nodeBase k + 64 * line + 8 * w) = true ∧
      (isCore k = true → ∀ b, b / 8 ≠ nodeBase k / 8 + 8 * line + w → t.poisoned b = s.poisoned b) ∧
      (isCore k = false → ∀ b, t.poisoned b = (decide (b / 8 = nodeBase k / 8 + 8 * line + w / 2 * 2 ∨
        b / 8 = nodeBase k / 8 + 8 * line + w / 2 * 2 + 1) || s.poisoned b)) ∧
      t.mem = s.mem ∧ t.tags = s.tags ∧ SameRegs s t ∧
      (s.margin k = false → (s.part k).bucket + 16 < 64 → (t.part k).bucket = (s.part k).bucket + 16) ∧
      (s.margin k = true → (t.part k).bucket = (s.part k).bucket ∧ (t.quad (s.quadOf k)).trim = 0 ∧
        (t.quad (s.quadOf k)).freeze = s.clock.ticks + 2 ^ 34) ∧
      LogEntry.uncorrectable k line w (s.tag (nodeBase k + 64 * line)) ∈ t.boat.log := by
  have first := onPart_mends (s := s) (k := k) (s.scrubbed k line [(w, .uncorrectable)])
  have row := (scrubVisit_due (found := [(w, .uncorrectable)]) hs hl hd).trans (congrArg _ (visit_uncorrectable hw hp))
  have bucket := scrubbed_bucket (s := s) (k := k) line [(w, .uncorrectable)] (s.part k)
  set u := s.onPart k (s.scrubbed k line [(w, .uncorrectable)])
  obtain ⟨p, steps, core, bank⟩ := uncorrectable_codes u k line w
  set v : State := { u with pois := p }
  obtain ⟨⟨still, nodes, _⟩, log⟩ := uncorrectableIn_reported (s := v) (k := k) line w (u.tag (nodeBase k + 64 * line))
  have margin : v.margin k = s.margin k := margin_congr first.cols (fun _ => ⟨rfl, rfl⟩) rfl
  have regs : SameRegs s v := first.regs
  have part : v.part k = s.scrubbed k line [(w, .uncorrectable)] (s.part k) := first.part
  have place : v.quadOf k = s.quadOf k := quadOf_congr first.cols
  have poison := poisoned_congr still.2.2.2.2.1 nodes
  have word : (nodeBase k + 64 * line + 8 * w) / 8 = nodeBase k / 8 + 8 * line + w := by omega
  refine ⟨_, row.trans (congrArg _ steps), ?_, fun h b hb => ?_, fun h b => ?_, still.2.2.2.1, still.2.2.2.2.2,
    regs.trans (Still.sameRegs still), fun hm hb => ?_, fun hm => ?_, log⟩
  · rw [poison]
    cases h : isCore k with
    | true => rw [core h, word, decide_eq_true rfl, Bool.true_or]
    | false =>
      rw [bank h, word, decide_eq_true (by omega), Bool.true_or]
  · rw [poison, core h, decide_eq_false hb, Bool.false_or]
    rfl
  · rw [poison, bank h]
    rfl
  · rw [uncorrectableIn_fills line w _ (margin.trans hm) (by rw [part, bucket]; exact hb), part]
    exact congrArg (· + 16) bucket
  · obtain ⟨same, quad⟩ := uncorrectableIn_margin line w (u.tag (nodeBase k + 64 * line)) (margin.trans hm)
    rw [place] at quad
    rw [same, part, bucket, quad]
    exact ⟨rfl, rfl, rfl⟩
theorem trimOf_margin (h : s.margin k = false) : s.trimOf k = 0 := by
  unfold State.margin at h
  have lt := (Bool.or_eq_false_iff.mp h).1
  exact Nat.eq_zero_of_not_pos (of_decide_eq_false lt)
theorem scrub_both {line v w : Nat} (hs : s.serving k = true) (hl : line = (s.part k).scrub)
    (hd : line = 0 → (s.part k).scrubAt + 2 ^ 30 ≤ s.clock.ticks) (hv : v < 8) (hw : w < 8) (hne : v ≠ w) (hc : isCore k = true)
    (hm : s.margin k = false) (hpv : s.poisoned (nodeBase k + 64 * line + 8 * v) = false)
    (hpw : s.poisoned (nodeBase k + 64 * line + 8 * w) = false) (hb : (s.part k).bucket + 17 < 64) :
    Completes (.scrubVisit k line [(v, .corrected), (w, .uncorrectable)]) s fun t =>
      t.poisoned (nodeBase k + 64 * line + 8 * w) = true ∧ t.poisoned (nodeBase k + 64 * line + 8 * v) = false ∧
      (t.part k).bucket = (s.part k).bucket + 17 := by
  have first := onPart_mends (s := s) (k := k) (s.scrubbed k line [(v, .corrected), (w, .uncorrectable)])
  have row := scrubVisit_due (found := [(v, .corrected), (w, .uncorrectable)]) hs hl hd
  have bucket := scrubbed_bucket (s := s) (k := k) line [(v, .corrected), (w, .uncorrectable)] (s.part k)
  set u := s.onPart k (s.scrubbed k line [(v, .corrected), (w, .uncorrectable)])
  have railed : SameRails s u := fun _ => ⟨rfl, rfl⟩
  obtain ⟨second, rails⟩ := corrected_mends ((trimOf_congr first.cols railed).trans (trimOf_margin hm))
    (by rw [first.part, bucket]; omega)
  have both := first.trans second
  have kept := poisoned_congr both.store.2.1 both.nodes
  rw [visit_cons, visit_corrected (s := u) hv hpv, visit_uncorrectable hw ((kept _).trans hpw)] at row
  have margin := margin_congr both.cols (railed.trans rails) both.clock
  set c := u.corrected k
  obtain ⟨p, steps, core, _⟩ := uncorrectable_codes c k line w
  set d : State := { c with pois := p }
  have part : d.part k = (Part.fill 1 ∘ s.scrubbed k line [(v, .corrected), (w, .uncorrectable)]) (s.part k) := both.part
  obtain ⟨⟨still, nodes, _⟩, log⟩ := uncorrectableIn_reported (s := d) (k := k) line w (c.tag (nodeBase k + 64 * line))
  have poison := poisoned_congr still.2.2.2.2.1 nodes
  have word (i : Nat) : (nodeBase k + 64 * line + 8 * i) / 8 = nodeBase k / 8 + 8 * line + i := by omega
  refine ⟨_, row.trans (congrArg _ steps), ?_, ?_, ?_⟩
  · rw [poison, core hc, word, decide_eq_true rfl, Bool.true_or]
  · rw [poison, core hc, word, decide_eq_false (by omega), Bool.false_or, kept, hpv]
  · have filled : (d.part k).bucket = (s.part k).bucket + 1 := by
      rw [part]
      exact congrArg (· + 1) bucket
    rw [uncorrectableIn_fills (s := d) line w _ (margin.trans hm) (by omega), Part.fill, filled]
end

/-! ## `REVISIT` and `BUCKET_LEAK` (R356, R357) -/

theorem mapFirst_find {α : Type} (p : α → Bool) (f : α → α) (h : ∀ x, p x = true → p (f x) = true) (l : List α) {x : α}
    (e : l.find? p = some x) : (mapFirst p f l).find? p = some (f x) := by
  induction l with
  | nil => cases e
  | cons y l ih =>
    rw [mapFirst]
    rw [List.find?_cons] at e
    split
    · next hy =>
      rw [hy] at e
      cases e
      rw [List.find?_cons, h _ hy]
    · next hy =>
      rw [Bool.eq_false_iff.mpr hy] at e
      rw [List.find?_cons, Bool.eq_false_iff.mpr hy]
      exact ih e
section
variable {s : State} {k : Nat}
theorem revisit_clean {line : Nat} {r : Revisit} (hr : (s.part k).revisit.find? (fun x => x.line == line) = some r)
    (hs : s.serving k = true) (hd : r.last + 2 ^ 26 ≤ s.clock.ticks) :
    Completes (.revisit k line []) s fun t => Still s t ∧ SamePartsBut s t k ∧
      (r.clean < 63 → (t.part k).revisit.find? (fun x => x.line == line) = some ⟨line, r.clean + 1, s.clock.ticks⟩) ∧
      (63 ≤ r.clean → (t.part k).revisit.find? (fun x => x.line == line) = none) := by
  have own : r.line = line := by simpa using List.find?_some hr
  have due : ¬ (!s.serving k ∨ s.clock.ticks < r.last + 2 ^ 26) := by
    rintro (h | h)
    · simp [hs] at h
    · omega
  have row : exec (.revisit k line []) s = .next (s.onPart k fun q =>
      { q with revisit := if 64 ≤ r.clean + 1 then q.revisit.filter fun x => x.line != line
                          else mapFirst (fun x => x.line == line) (fun x => { x with clean := r.clean + 1, last := s.clock.ticks }) q.revisit }) := by
    change execRevisit k line [] s = _
    unfold execRevisit
    rw [hr]
    exact congrArg Host.Outcome.next (if_neg due)
  refine ⟨_, row, ⟨rfl, rfl, rfl, rfl, rfl, rfl⟩, onPart_sameParts _, fun h => ?_, fun h => ?_⟩
  · rw [part_onPart, if_neg (by omega)]
    rw [← own]
    exact mapFirst_find _ (fun x : Revisit => { x with clean := r.clean + 1, last := s.clock.ticks }) (fun _ => id) _ (own ▸ hr)
  · rw [part_onPart, if_pos (by omega)]
    simp [List.find?_eq_none]
theorem bucketLeak_early (h : s.clock.ticks < (s.part k).leakAt + s.power.leak) : Completes (.bucketLeak k) s fun t => t = s :=
  ⟨_, congrArg Host.Outcome.next (if_pos h), rfl⟩
theorem bucketLeak_due (h : (s.part k).leakAt + s.power.leak ≤ s.clock.ticks) :
    Completes (.bucketLeak k) s fun t => Still s t ∧
      (t.part k).bucket = (if (s.part k).bucket = 64 then 64 else (s.part k).bucket - 1) ∧
      SamePartsBut s t k ∧ t.nodes = s.nodes :=
  ⟨_, congrArg Host.Outcome.next (if_neg (Nat.not_lt.mpr h)), ⟨rfl, rfl, rfl, rfl, rfl, rfl⟩, congrArg Part.bucket (part_onPart _),
    onPart_sameParts _, rfl⟩
end

/-! ## `UMPIRE_INTERVAL` (R16, R360, R361) -/

section
variable {s : State} {u : Nat}
theorem umpireInterval_row (hu : u < 1600) (hc : computeSite (u / 64) = true) (hw : (s.umpire u).col < 32) (d : Option Nat) :
    exec (.umpireInterval u d) s = .next (match d with
      | some i => if (s.umpire u).isOpen && decide (i < (s.umpire u).outs) then s.umpireDiffers u i else s
      | none =>
        if s.clock.ticks < (s.umpire u).since + 2 ^ s.power.interval * 10 / pointClock (s.quad (umpireQuad u)).point then s
        else s.onUmpire u fun w => { col := (w.col + 31) % 32, filled := true, isOpen := false, since := s.clock.ticks, outs := 0 }) := by
  have works : ¬ (1600 ≤ u ∨ (!computeSite (u / 64)) = true ∨ 32 ≤ (s.umpire u).col) := by simp [hc]; omega
  exact congrArg Host.Outcome.next (if_neg works)
theorem umpireInterval_moves (hu : u < 1600) (hc : computeSite (u / 64) = true) (hw : (s.umpire u).col < 32)
    (hd : (s.umpire u).since + 2 ^ s.power.interval * 10 / pointClock (s.quad (umpireQuad u)).point ≤ s.clock.ticks) :
    Completes (.umpireInterval u none) s fun t => Still s t ∧
      t.umpire u = ⟨if (s.umpire u).col = 0 then 31 else (s.umpire u).col - 1, true, false, s.clock.ticks, 0⟩ ∧
      (∀ v, v ≠ u → t.umpire v = s.umpire v) := by
  have west : ((s.umpire u).col + 31) % 32 = if (s.umpire u).col = 0 then 31 else (s.umpire u).col - 1 := by grind
  refine ⟨_, (umpireInterval_row hu hc hw none).trans (congrArg _ (if_neg (Nat.not_lt.mpr hd))), ⟨rfl, rfl, rfl, rfl, rfl, rfl⟩, ?_, fun v hv => ?_⟩
  · rw [umpire_onUmpire, if_pos rfl, west]
  · rw [umpire_onUmpire, if_neg hv]
theorem umpireInterval_closed {i : Nat} (h : (s.umpire u).isOpen = false ∨ (s.umpire u).outs ≤ i) :
    Completes (.umpireInterval u (some i)) s fun t => t = s := by
  have shut : ¬ ((s.umpire u).isOpen && decide (i < (s.umpire u).outs)) = true := by
    rcases h with h | h <;> simp [h]
  refine ⟨s, congrArg Host.Outcome.next ?_, rfl⟩
  dsimp only
  rw [if_neg shut, ite_self]
/-- The window a difference closes (R361). -/
def State.shut (s : State) (u : Nat) : State := s.onUmpire u fun w => { w with isOpen := false, filled := false }
theorem umpireDiffers_at {i k : Nat} (h : s.coordOf (u / 16) (u % 16) (s.umpire u).col = some k) : s.umpireDiffers u i =
    if (decide (0 < (s.quad (s.quadOf k)).trim) || (s.quad (s.quadOf k)).justLost s.clock.ticks) ||
        (decide (0 < (s.quad (umpireQuad u)).trim) || (s.quad (umpireQuad u)).justLost s.clock.ticks) then
      (((s.shut u).note (.mismatch k (s.umpire u).since i)).nominalRail (s.quadOf k)).nominalRail (umpireQuad u)
    else ((s.shut u).note (.mismatch k (s.umpire u).since i)).markSuspect k := by
  unfold State.umpireDiffers
  dsimp only
  rw [h]
  rfl
theorem railLost_iff (q : Quad) (n : Nat) : (decide (0 < q.trim) || q.justLost n) = true ↔ q.trim ≠ 0 ∨ q.freeze = n + 2 ^ 34 := by
  simp [Quad.justLost, Nat.pos_iff_ne_zero]
theorem recommend_keeps (s : State) (n : Nat) : (∀ m r p, (s.recommend n).partAt m r p = s.partAt m r p) ∧
    (∀ j, (s.recommend n).physCol j = s.physCol j) ∧ (s.recommend n).lead = s.lead ∧ (s.recommend n).power = s.power := by
  unfold State.recommend
  split
  · exact ⟨fun _ _ _ => rfl, fun _ => rfl, rfl, rfl⟩
  · have kept {α : Type} (g : Site → α) (h : ∀ t : Site, g { t with replace := true } = g t) (m : Nat) :
        g ((s.onSite n fun t => { t with replace := true }).site m) = g (s.site m) := by
      rw [site_onSite]
      split
      · next e => rw [e, h]
      · rfl
    exact ⟨fun m r p => congrArg (fun t => tget Part.reset t (33 * r + p)) (kept Site.parts (fun _ => rfl) m),
      physCol_congr (s := s) (t := (s.onSite n _).note _) rfl (kept Site.skips fun _ => rfl), rfl, rfl⟩
/-- A covered suspect keeps its place: its part alone is marked (R358). -/
theorem markSuspect_covered {k : Nat} (h : s.covered k = true) : SamePartsBut s (s.markSuspect k) k ∧
    ((s.markSuspect k).part k).suspect = true ∧ (s.markSuspect k).power = s.power := by
  obtain ⟨parts, cols, lead, power⟩ := recommend_keeps (s.onPart k fun q => { q with suspect := true }) (siteOf k)
  have covered : ((s.onPart k fun q => { q with suspect := true }).recommend (siteOf k)).covered k = true := by
    unfold State.covered State.groupIds State.holdsLane State.group State.relaunchWaits at h ⊢
    rw [lead]
    exact h
  have first := onPart_mends (s := s) (k := k) fun q => { q with suspect := true }
  rw [State.markSuspect, if_pos covered]
  refine ⟨fun n r p hp hn => (parts n r p).trans (first.parts n r p hp hn), ?_, power⟩
  have part : ((s.onPart k fun q => { q with suspect := true }).recommend (siteOf k)).part k =
      (s.onPart k fun q => { q with suspect := true }).part k := by rw [State.part, State.part, cols, parts]
  exact congrArg Part.suspect (part.trans first.part)
/-- What a difference leaves beside the marks of R361: the window is closed and the log has the interval and the output. -/
def Shut (s t : State) (u k i : Nat) : Prop := SameRegs s t ∧ SameStore s t ∧ (t.umpire u).isOpen = false ∧
  (t.umpire u).col = (s.umpire u).col ∧ LogEntry.mismatch k (s.umpire u).since i ∈ t.boat.log
theorem shut_of_reported {t : State} {k i : Nat} (h : Reported ((s.shut u).note (.mismatch k (s.umpire u).since i)) t)
    (hp : t.power.umpires = (s.shut u).power.umpires) : Shut s t u k i := by
  have shut : (s.shut u).umpire u = { s.umpire u with isOpen := false, filled := false } := (umpire_onUmpire ..).trans (if_pos rfl)
  have same : t.umpire u = { s.umpire u with isOpen := false, filled := false } := by rw [← shut, State.umpire, State.umpire, hp]
  refine ⟨Still.sameRegs h.1, ⟨h.1.2.2.2.1, h.1.2.2.2.2.1, h.1.2.2.2.2.2⟩, ?_, ?_, h.2.2 _ List.mem_concat_self⟩
  · rw [same]
  · rw [same]
theorem umpire_marks {i k : Nat} (hu : u < 1600) (hc : computeSite (u / 64) = true) (hw : (s.umpire u).col < 32)
    (ho : (s.umpire u).isOpen = true) (hi : i < (s.umpire u).outs) (hk : s.coordOf (u / 16) (u % 16) (s.umpire u).col = some k)
    (h1 : ¬ ((s.quad (s.quadOf k)).trim ≠ 0 ∨ (s.quad (s.quadOf k)).freeze = s.clock.ticks + 2 ^ 34))
    (h2 : ¬ ((s.quad (umpireQuad u)).trim ≠ 0 ∨ (s.quad (umpireQuad u)).freeze = s.clock.ticks + 2 ^ 34)) (hcov : s.covered k = true) :
    Completes (.umpireInterval u (some i)) s fun t => Shut s t u k i ∧ (t.part k).suspect = true ∧
      SamePartsBut s t k ∧ t.nodes = s.nodes ∧ t.power.quads = s.power.quads := by
  rw [← railLost_iff] at h1 h2
  have row := umpireInterval_row hu hc hw (some i)
  simp only [ho, hi, decide_true, Bool.and_self, if_true, umpireDiffers_at hk, h1, h2, Bool.or_self, Bool.false_eq_true, if_false] at row
  obtain ⟨parts, suspect, power⟩ := markSuspect_covered (s := (s.shut u).note (.mismatch k (s.umpire u).since i)) (k := k) hcov
  have reported := markSuspect_reported (s := (s.shut u).note (.mismatch k (s.umpire u).since i)) k
  exact ⟨_, row, shut_of_reported reported (congrArg Power.umpires power), suspect, parts, reported.2.1, (congrArg Power.quads power).trans rfl⟩
theorem nominalRail_quad (s : State) (q r : Nat) : (s.nominalRail q).quad r =
    if r = q then { s.quad q with trim := 0, freeze := s.clock.ticks + 2 ^ 34 } else s.quad r := quad_onQuad ..
theorem nominalRail_reported (s : State) (q : Nat) :
    Reported s (s.nominalRail q) ∧ (s.nominalRail q).power.umpires = s.power.umpires ∧ (s.nominalRail q).sites = s.sites :=
  ⟨⟨⟨rfl, rfl, rfl, rfl, rfl, rfl⟩, rfl, fun _ => id⟩, rfl, rfl⟩
theorem umpire_nominal {i k : Nat} (hu : u < 1600) (hc : computeSite (u / 64) = true) (hw : (s.umpire u).col < 32)
    (ho : (s.umpire u).isOpen = true) (hi : i < (s.umpire u).outs) (hk : s.coordOf (u / 16) (u % 16) (s.umpire u).col = some k)
    (h : ((s.quad (s.quadOf k)).trim ≠ 0 ∨ (s.quad (s.quadOf k)).freeze = s.clock.ticks + 2 ^ 34) ∨
      ((s.quad (umpireQuad u)).trim ≠ 0 ∨ (s.quad (umpireQuad u)).freeze = s.clock.ticks + 2 ^ 34)) :
    Completes (.umpireInterval u (some i)) s fun t => Shut s t u k i ∧ t.nodes = s.nodes ∧ t.sites = s.sites ∧
      (∀ q, q = s.quadOf k ∨ q = umpireQuad u → (t.quad q).trim = 0 ∧ (t.quad q).freeze = s.clock.ticks + 2 ^ 34) ∧
      (∀ q, q ≠ s.quadOf k → q ≠ umpireQuad u → t.quad q = s.quad q) := by
  rw [← railLost_iff, ← railLost_iff, ← Bool.or_eq_true] at h
  have row := umpireInterval_row hu hc hw (some i)
  simp only [ho, hi, decide_true, Bool.and_self, if_true, umpireDiffers_at hk, h] at row
  obtain ⟨first, umpires, sites⟩ := nominalRail_reported ((s.shut u).note (.mismatch k (s.umpire u).since i)) (s.quadOf k)
  obtain ⟨second, umpires', sites'⟩ := nominalRail_reported (((s.shut u).note (.mismatch k (s.umpire u).since i)).nominalRail (s.quadOf k)) (umpireQuad u)
  have both := first.trans second
  refine ⟨_, row, shut_of_reported both (umpires'.trans umpires), both.2.1, sites'.trans sites, fun q hq => ?_, fun q h1 h2 => ?_⟩
  · rw [nominalRail_quad, nominalRail_quad, nominalRail_quad]
    rcases eq_or_ne q (umpireQuad u) with e | e
    · rw [if_pos e]
      exact ⟨rfl, rfl⟩
    · rw [if_neg e, if_pos (hq.resolve_right e)]
      exact ⟨rfl, rfl⟩
  · rw [nominalRail_quad, if_neg h2, nominalRail_quad, if_neg h1]
    rfl
end

/-- Settles O47: visits, revisits, the leak, and the umpires' intervals and differences. -/
theorem scrubbingAndUmpires : Obligations.ScrubbingAndUmpires := by
  refine ⟨fun s k line found hs hl hd => ⟨?_, ?_, ?_, ?_, ?_⟩, fun s k line found h => ?_, fun s k line r hr hs hd => revisit_clean hr hs hd,
    fun s k => ⟨bucketLeak_early, bucketLeak_due⟩, fun s u hu hc hw hd => umpireInterval_moves hu hc hw hd,
    fun s u i h => umpireInterval_closed h, fun s u i k hu hc hw ho hi hk => ⟨umpire_marks hu hc hw ho hi hk, umpire_nominal hu hc hw ho hi hk⟩⟩
  · rintro rfl
    exact scrub_clean hs hl hd
  · rintro ws rfl hn hw ht hb
    exact scrub_corrected hs hl hd hn hw ht hb
  · rintro w n rfl hw hp ht
    exact scrub_trimmed hs hl hd hw hp ht
  · rintro w rfl hw hp
    exact scrub_uncorrectable hs hl hd hw hp
  · rintro v w rfl hv hw hne hc hm hpv hpw hb
    exact scrub_both hs hl hd hv hw hne hc hm hpv hpw hb
  · exact ⟨s, congrArg Host.Outcome.next (if_pos (.inr (.inl h))), rfl⟩
end Sys2Proof.Machine
end

section

/-! A site that drains: nothing that follows from its leaving LIVE changes its state again (R336, R337, R364). -/

namespace Sys2Proof.Machine

/-- The site is DRAINING. -/
def State.drainsAt (s : State) (n : Nat) : Prop := (s.site n).st = .draining

/-- A value that a map does not take to the default is found after it. -/
theorem tget_tmap_listed {α : Type} [DecidableEq α] {d : α} {f : α → α} {k : Nat} (t : Tbl α) (h : f (tget d t k) ≠ d)
    (hd : tget d t k ≠ d) : tget d (tmap d f t) k = f (tget d t k) := by
  induction t with
  | nil => exact absurd rfl hd
  | cons e r ih =>
    obtain ⟨j, v⟩ := e
    rw [tget] at h hd ⊢
    split at h
    · next e =>
      subst e
      simp [tmap, tget, h]
    · next e =>
      rw [if_neg e] at hd ⊢
      rw [← ih h hd]
      simp only [tmap, List.map_cons, List.filter_cons]
      split
      · rw [tget, if_neg e]
      · rfl

section
variable {s : State} {n : Nat}
theorem onSite_drainsAt {m f} (h : s.drainsAt n) (hf : ∀ t : Site, (f t).st = t.st) : (s.onSite m f).drainsAt n := by
  rw [State.drainsAt, site_onSite]
  split
  · next e => rw [hf, ← e, h]
  · exact h
theorem foldl_drainsAt {α : Type} {f : State → α → State} (hf : ∀ {s x}, State.drainsAt s n → (f s x).drainsAt n) (l : List α) :
    ∀ {s : State}, s.drainsAt n → (l.foldl f s).drainsAt n := by
  induction l with
  | nil => exact id
  | cons x l ih => exact fun h => ih (hf h)
theorem setCore_drainsAt {k c} (h : s.drainsAt n) : (s.setCore k c).drainsAt n := by
  unfold State.setCore
  split <;> exact h
theorem onCores_drainsAt {ks f} (h : s.drainsAt n) : (s.onCores ks f).drainsAt n := foldl_drainsAt setCore_drainsAt ks h
theorem moveTo_drainsAt {k} (h : s.drainsAt n) : (s.moveTo k).drainsAt n := by
  unfold State.moveTo
  split <;> exact h
theorem send_drainsAt {p} (h : s.drainsAt n) : (s.send p).drainsAt n := by
  unfold State.send
  split <;> split <;> exact h
theorem completeCurrent_drainsAt {q st} (h : s.drainsAt n) : (s.completeCurrent q st).drainsAt n := by
  unfold State.completeCurrent
  split <;> exact h
theorem endSuspend_drainsAt {i st} (h : s.drainsAt n) : (s.endSuspend i st).drainsAt n := by
  unfold State.endSuspend
  split
  · exact foldl_drainsAt completeCurrent_drainsAt _ h
  all_goals exact h
theorem closeWindows_drainsAt {ks} (h : s.drainsAt n) : (s.closeWindows ks).drainsAt n := by
  refine foldl_drainsAt (fun {s k} h => ?_) ks h
  unfold State.closeWindowAt
  split <;> exact h
theorem voteTiles_drainsAt {ns} (h : s.drainsAt n) : (s.voteTiles ns).drainsAt n := by
  rw [State.drainsAt, (voteTiles_same ns s).2 n]
  exact h
theorem coxWrites_drainsAt {ks f} (h : s.drainsAt n) : (s.coxWrites ks f).drainsAt n := voteTiles_drainsAt (onCores_drainsAt h)
theorem faultGroup_drainsAt {i} (h : s.drainsAt n) : (s.faultGroup i).drainsAt n := by
  have stops {ks f} := coxWrites_drainsAt (ks := ks) (f := f) (closeWindows_drainsAt (ks := ks) (endSuspend_drainsAt (i := i) (st := 8) h))
  unfold State.faultGroup
  extract_lets g ks u
  split
  iterate 4 exact stops
  all_goals exact h
theorem linksDown_drainsAt {m} (h : s.drainsAt n) : (s.linksDown m).drainsAt n := by
  refine foldl_drainsAt (fun {s k} h => ?_) _ h
  unfold State.onLink
  split <;> exact h
theorem portsUp_drainsAt {m up} (h : s.drainsAt n) : (s.portsUp m up).drainsAt n := by
  unfold State.portsUp
  split <;> exact h
theorem setAbsent_drainsAt {m} (h : s.drainsAt n) : (s.setAbsent m).drainsAt n := voteTiles_drainsAt h
theorem dropRequests_drainsAt {f} (h : s.drainsAt n) : (s.dropRequests f).drainsAt n := by
  have listed {t : Site} (ht : t.st = .draining) : t ≠ Site.reset := by
    rintro rfl
    cases ht
  have kept := tget_tmap_listed (d := Site.reset) (f := fun t : Site => { t with
    proxy := tmap [] (fun l => l.filter fun p => !(f p)) t.proxy, taken := t.taken.filter fun e => !((tget [] t.proxy e.1).head?.any f) })
    s.sites (listed h) (listed h)
  exact (congrArg Site.st kept).trans h
theorem leaveRecord_drainsAt {k} (h : s.drainsAt n) : (s.leaveRecord k).drainsAt n := by
  unfold State.leaveRecord
  split
  · exact onSite_drainsAt h fun _ => rfl
  all_goals exact h
theorem voidAll_drainsAt {k} (h : s.drainsAt n) : (s.voidAll k).drainsAt n := by
  unfold State.voidAll
  extract_lets t rids
  unfold State.voidRequests
  split
  · exact h
  · exact dropRequests_drainsAt h
theorem faultStream_drainsAt {k c} (h : s.drainsAt n) : (s.faultStream k c).drainsAt n := by
  have voided := voidAll_drainsAt (k := k) (leaveRecord_drainsAt (k := k) h)
  exact voided
theorem holeAll_drainsAt {p} (h : s.drainsAt n) : (s.holeAll p).drainsAt n := by
  refine foldl_drainsAt (fun {s k} h => ?_) _ h
  split
  · refine moveTo_drainsAt (foldl_drainsAt (fun {s i} h => ?_) _ (moveTo_drainsAt h))
    dsimp only
    split
    · exact faultStream_drainsAt h
    · exact h
  · exact h
theorem holeInto_drainsAt {m} (h : s.drainsAt n) : (s.holeInto m).drainsAt n := holeAll_drainsAt (foldl_drainsAt send_drainsAt _ h)
theorem freePaddlesAt_drainsAt {k p} (h : s.drainsAt n) : (s.freePaddlesAt k p).drainsAt n := by
  refine foldl_drainsAt (fun {s i} h => ?_) _ h
  dsimp only
  split
  · exact voteTiles_drainsAt (setCore_drainsAt h)
  · exact h
theorem onGroup_drainsAt {i f} (h : s.drainsAt n) : (s.onGroup i f).drainsAt n := h
theorem dropPaddlesAt_drainsAt {k} (h : s.drainsAt n) : (s.dropPaddlesAt k).drainsAt n := coxWrites_drainsAt (freePaddlesAt_drainsAt h)
theorem beginCut_drainsAt {i f} (h : s.drainsAt n) : (s.beginCut i f).drainsAt n :=
  onGroup_drainsAt (coxWrites_drainsAt (foldl_drainsAt dropPaddlesAt_drainsAt _ h))
theorem drainGroup_drainsAt {i after} (h : s.drainsAt n) : (s.drainGroup i after).drainsAt n := by
  unfold State.drainGroup
  split
  · exact beginCut_drainsAt (onGroup_drainsAt (endSuspend_drainsAt h))
  · exact h
theorem groupLeaves_drainsAt {i m loss shard} (h : s.drainsAt n) : (s.groupLeaves i m loss shard).drainsAt n := by
  unfold State.groupLeaves State.raiseSite
  grind [faultGroup_drainsAt, drainGroup_drainsAt, coxWrites_drainsAt]
theorem leavePath_drainsAt {i m} (h : s.drainsAt n) : (s.leavePath i m).drainsAt n := by
  unfold State.leavePath
  extract_lets g t
  split
  · refine foldl_drainsAt (fun {s k} h => ?_) _ h
    dsimp only
    split
    · exact h
    split
    · exact h
    · exact foldl_drainsAt send_drainsAt _ h
  · exact h
theorem nameDeputy_drainsAt (h : s.drainsAt n) : s.nameDeputy.drainsAt n := by
  unfold State.nameDeputy
  split <;> exact h
theorem takeOver_drainsAt (h : s.drainsAt n) : s.takeOver.drainsAt n := by
  unfold State.takeOver
  split
  · exact nameDeputy_drainsAt h
  · exact h
theorem redraw_drainsAt (h : s.drainsAt n) : s.redraw.drainsAt n := h
theorem clearOffsets_drainsAt {m} (h : s.drainsAt n) : (s.clearOffsets m).drainsAt n := h
theorem releaseQueued_drainsAt (h : s.drainsAt n) : s.releaseQueued.drainsAt n := h
theorem setSite_drainsAt (s : State) (n : Nat) : (s.setSite n .draining).drainsAt n := by
  let f : Site → Site := fun t => { t with st := .draining, since := s.clock.ticks }
  have same : (s.setSite n .draining).site n = (s.onSite n f).site n := rfl
  rw [State.drainsAt, same, site_onSite, if_pos rfl]
theorem groupsLeave_drainsAt {m loss} {shards : List Nat} (h : s.drainsAt n) :
    (s.groupIds.foldl (fun (s : State) i => s.groupLeaves i m loss (shards.contains i)) s).drainsAt n :=
  foldl_drainsAt groupLeaves_drainsAt _ h
theorem leavePaths_drainsAt {m} (h : s.drainsAt n) : (s.groupIds.foldl (fun (s : State) i => s.leavePath i m) s).drainsAt n :=
  foldl_drainsAt leavePath_drainsAt _ h
/-- A compute site that leaves LIVE to drain is DRAINING (R336). -/
theorem leaveLive_drainsAt {loss} (hc : computeSite n = true) : (s.leaveLive n .draining loss).drainsAt n := by
  unfold State.leaveLive
  extract_lets shards s₁ s₂ s₃ s₄ s₅ s₆
  rw [if_pos hc]
  have h₁ : s₁.drainsAt n := redraw_drainsAt (portsUp_drainsAt (linksDown_drainsAt (setSite_drainsAt s n)))
  have h₂ : s₂.drainsAt n := holeInto_drainsAt (setAbsent_drainsAt (clearOffsets_drainsAt h₁))
  have h₄ : s₄.drainsAt n := leavePaths_drainsAt (groupsLeave_drainsAt h₂)
  have h₅ : s₅.drainsAt n := by
    unfold s₅
    split
    · exact takeOver_drainsAt h₄
    · exact nameDeputy_drainsAt h₄
  exact releaseQueued_drainsAt (onSite_drainsAt h₅ fun _ => rfl)
end
end Sys2Proof.Machine
end

section

/-! Operating points, caps, trims and phases of the quads; the alignment of the regions and of the panel (O48). -/

namespace Sys2Proof.Machine

/-! ## Quads -/

section
variable {s : State} {q : Nat}
theorem onQuad_still (f : Quad → Quad) : Still s (s.onQuad q f) := ⟨rfl, rfl, rfl, rfl, rfl, rfl⟩
theorem onQuad_same (f : Quad → Quad) : (s.onQuad q f).quad q = f (s.quad q) := by rw [quad_onQuad, if_pos rfl]
theorem onQuad_other (f : Quad → Quad) {r : Nat} (h : r ≠ q) : (s.onQuad q f).quad r = s.quad r := by rw [quad_onQuad, if_neg h]

theorem operatingPoint_waits (h : s.wanted q = (s.quad q).point ∨
    s.wanted q < (s.quad q).point ∧ s.power.exceeded.contains (q / 1024) = true) :
    Completes (.operatingPointChange q) s fun t => t = s := ⟨s, congrArg Host.Outcome.next (if_pos (.inr (by tauto))), rfl⟩
theorem operatingPoint_changes (hq : isQuad q = true) (hw : s.wanted q ≠ (s.quad q).point)
    (hx : (s.quad q).point < s.wanted q ∨ s.power.exceeded.contains (q / 1024) = false)
    (hc : (s.quad q).changed + 100000 ≤ s.clock.ticks ∨
      (s.quad q).point < s.wanted q ∧ s.wanted q = max (s.quad q).capR (s.quad q).capT) :
    Completes (.operatingPointChange q) s fun t => Still s t ∧ (t.quad q).point = s.wanted q ∧
      (t.quad q).trim ≤ trimRoom (s.wanted q) ∧ (∀ r, r ≠ q → t.quad r = s.quad r) := by
  refine ⟨_, congrArg Host.Outcome.next (if_neg ?_), onQuad_still _, ?_, ?_, fun r => onQuad_other _⟩
  · simp only [hq, Bool.not_true, Bool.false_eq_true, false_or]
    rintro (e | ⟨h, e⟩ | ⟨h, e⟩)
    · exact hw e
    · rcases hx with hx | hx
      · omega
      · rw [hx] at e
        cases e
    · rcases hc with hc | ⟨h1, h2⟩
      · omega
      · simp [h1, ← h2] at h
  · rw [onQuad_same]
  · rw [onQuad_same]
    exact Nat.min_le_right ..

theorem capped_caps (r : Quad) (now : Nat) : (r.capped now).capR = r.capR ∧ (r.capped now).capT = r.capT ∧
    (r.capped now).temp = r.temp ∧ max r.capR r.capT ≤ (r.capped now).point := by
  unfold Quad.capped
  dsimp only
  split
  · next h => exact ⟨rfl, rfl, rfl, h⟩
  · exact ⟨rfl, rfl, rfl, le_refl _⟩
/-- The thermal cap at a temperature (R364). -/
def Quad.capAfter (r : Quad) (temp : BitVec 16) : Nat :=
  if 400 ≤ temp.toInt then min 7 (r.capT + 1) else if temp.toInt < 380 then r.capT - 1 else r.capT
/-- A quad after a reading of its temperature: a cap that rises is in force at once (R364, R365). -/
def Quad.heated (r : Quad) (temp : BitVec 16) (now : Nat) : Quad :=
  let new := { r with temp := temp, capT := r.capAfter temp, capAt := now }
  if r.capT < r.capAfter temp then new.capped now else new
theorem heated_caps (r : Quad) (temp : BitVec 16) (now : Nat) : (r.heated temp now).capT = r.capAfter temp ∧
    (r.heated temp now).temp = temp ∧ (r.capT < r.capAfter temp → r.capAfter temp ≤ (r.heated temp now).point) := by
  unfold Quad.heated
  dsimp only
  split
  · obtain ⟨_, capT, heat, point⟩ := capped_caps { r with temp := temp, capT := r.capAfter temp, capAt := now } now
    exact ⟨capT, heat, fun _ => le_trans (le_max_right ..) point⟩
  · next h => exact ⟨rfl, rfl, fun e => absurd e h⟩
theorem thermalCap_exec (temp : BitVec 16) (hq : isQuad q = true) (hd : (s.quad q).capAt + 1000000 ≤ s.clock.ticks) :
    exec (.thermalCapStep q temp) s = .next (
      let t := s.onQuad q fun r => if r.capT < (s.quad q).capAfter temp
        then Quad.capped { r with temp := temp, capT := (s.quad q).capAfter temp, capAt := s.clock.ticks } s.clock.ticks
        else { r with temp := temp, capT := (s.quad q).capAfter temp, capAt := s.clock.ticks }
      if 460 ≤ temp.toInt then (t.drainSite (q / 1024)).note (.trip q) else t) := by
  refine congrArg Host.Outcome.next (if_neg ?_)
  rintro (h | h)
  · simp [hq] at h
  · omega
theorem thermalCap_below {temp : BitVec 16} (hq : isQuad q = true) (hd : (s.quad q).capAt + 1000000 ≤ s.clock.ticks)
    {n : Nat} (ht : temp.toInt < 460) (hn : n = (s.quad q).capAfter temp) :
    Completes (.thermalCapStep q temp) s fun t => Still s t ∧ (t.quad q).capT = n ∧ (t.quad q).temp = temp ∧
      ((s.quad q).capT < n → n ≤ (t.quad q).point) ∧ (∀ r, r ≠ q → t.quad r = s.quad r) := by
  subst hn
  refine ⟨_, (thermalCap_exec temp hq hd).trans (congrArg Host.Outcome.next (if_neg (Int.not_le.mpr ht))), ?_⟩
  obtain ⟨capT, heat, point⟩ := heated_caps (s.quad q) temp s.clock.ticks
  refine ⟨onQuad_still _, ?_, ?_, ?_, fun r => onQuad_other _⟩
  all_goals rw [onQuad_same]
  · exact capT
  · exact heat
  · exact point
theorem isQuad_site (h : isQuad q = true) : q / 1024 < 25 ∧ computeSite (q / 1024) = true := by
  simp only [isQuad, Bool.and_eq_true, decide_eq_true_eq] at h
  exact h.1
theorem drainSite_drainsAt {n : Nat} (hn : n < 25) (hl : (s.site n).st = .live) (hc : computeSite n = true) :
    (s.drainSite n).drainsAt n := by
  unfold State.drainSite
  rw [if_pos ⟨hn, hl⟩]
  exact leaveLive_drainsAt hc
theorem thermalCap_trips {temp : BitVec 16} (hq : isQuad q = true) (hd : (s.quad q).capAt + 1000000 ≤ s.clock.ticks)
    (ht : 460 ≤ temp.toInt) (hl : (s.site (q / 1024)).st = .live) : Completes (.thermalCapStep q temp) s fun t =>
      (t.site (q / 1024)).st = .draining ∧ LogEntry.trip q ∈ t.boat.log := by
  obtain ⟨hn, hc⟩ := isQuad_site hq
  refine ⟨_, (thermalCap_exec temp hq hd).trans (congrArg Host.Outcome.next (if_pos ht)), ?_, List.mem_concat_self⟩
  exact drainSite_drainsAt hn hl hc

theorem trimRaise_due (hq : isQuad q = true) (hd : (s.quad q).trimAt + 2 ^ 20 ≤ s.clock.ticks) :
    let r := s.quad q
    let may : Prop := r.errAt + 2 ^ 20 ≤ s.clock.ticks ∧ r.freeze ≤ s.clock.ticks ∧ r.slow = false ∧ r.trim < trimRoom r.point
    (may → Completes (.governorTrimRaise q) s fun t => Still s t ∧ (t.quad q).trim = r.trim + 1) ∧
    (¬ may → Completes (.governorTrimRaise q) s fun t => Still s t ∧ (t.quad q).trim = r.trim) := by
  intro r may
  have due : ¬ ((!isQuad q) = true ∨ s.clock.ticks < (s.quad q).trimAt + 2 ^ 20) := by
    simp only [hq, Bool.not_true, Bool.false_eq_true, false_or]
    omega
  have free : (decide (r.errAt + 2 ^ 20 ≤ s.clock.ticks) && decide (r.freeze ≤ s.clock.ticks) && !r.slow &&
      decide (r.trim < trimRoom r.point)) = true ↔ may := by
    simp [may, and_assoc]
  refine ⟨fun h => ⟨_, congrArg Host.Outcome.next (if_neg due), onQuad_still _, ?_⟩,
    fun h => ⟨_, congrArg Host.Outcome.next (if_neg due), onQuad_still _, ?_⟩⟩
  all_goals rw [onQuad_same]
  · exact if_pos (free.mpr h)
  · exact if_neg (mt free.mp h)
theorem quad_atBoat (t : State) (b : Boat) (r : Nat) : State.quad { t with boat := b } r = t.quad r := rfl
theorem still_atBoat (t : State) (b : Boat) : Still t { t with boat := b } := ⟨rfl, rfl, rfl, rfl, rfl, rfl⟩
/-- The monitor word of a quad is on file with the boathouse controller (R375). -/
def State.filed (t : State) (q : Nat) : State :=
  { t with boat := { t.boat with monitors := tset 0 t.boat.monitors q (t.quad q).monitor } }
theorem filed_quad (t : State) (q r : Nat) : (t.filed q).quad r = t.quad r := quad_atBoat ..
theorem filed_still (t : State) (q : Nat) : Still t (t.filed q) := still_atBoat ..
theorem filed_monitor (t : State) (q : Nat) : tget 0 (t.filed q).boat.monitors q = (t.quad q).monitor :=
  (tget_tset ..).trans (if_pos rfl)
/-- A quad after its monitors are read: a slow one takes no trim (R366, R375). -/
def Quad.seen (temp : BitVec 16) (vmv : BitVec 12) (roc : BitVec 20) (now : Nat) (r : Quad) : Quad :=
  { r with
    temp := temp, vmv := vmv, roc := roc, slow := decide (roc < Config.slowRoc)
    trim := if decide (roc < Config.slowRoc) then 0 else r.trim, readAt := now }
theorem monitorRead_due (temp : BitVec 16) (vmv : BitVec 12) (roc : BitVec 20) (hq : isQuad q = true)
    (hd : (s.quad q).readAt + 1000000 ≤ s.clock.ticks) :
    Completes (.monitorRead q temp vmv roc) s fun t => Still s t ∧ (t.quad q).temp = temp ∧ (t.quad q).vmv = vmv ∧
      (t.quad q).roc = roc ∧ (t.quad q).slow = decide (roc < Config.slowRoc) ∧
      (roc < Config.slowRoc → (t.quad q).trim = 0) ∧ tget 0 t.boat.monitors q = (t.quad q).monitor := by
  have due : ¬ ((!isQuad q) = true ∨ s.clock.ticks < (s.quad q).readAt + 1000000) := by
    simp only [hq, Bool.not_true, Bool.false_eq_true, false_or]
    omega
  refine ⟨(s.onQuad q (Quad.seen temp vmv roc s.clock.ticks)).filed q, congrArg Host.Outcome.next (if_neg due),
    Still.trans (onQuad_still _) (filed_still ..), ?_⟩
  rw [filed_monitor, filed_quad, onQuad_same]
  exact ⟨rfl, rfl, rfl, rfl, fun h => if_pos (decide_eq_true h), rfl⟩
end

/-! ## Phases of the regulator groups (R368) -/

section
variable {s : State} {n g : Nat}
theorem site_note (s : State) (e : LogEntry) (n : Nat) : (s.note e).site n = s.site n := rfl
theorem recommend_site (s : State) (n m : Nat) :
    (s.recommend n).site m = if m = n then { s.site n with replace := true } else s.site m := by
  unfold State.recommend
  by_cases h : (s.site n).replace = true
  · rw [if_pos h]
    split
    · next e => rw [e, ← h]
    · rfl
  · rw [if_neg h, site_note, site_onSite]
/-- One phase more of a regulator group is lost, and the tile's replacement recommended (R359, R368). -/
def State.phaseOut (s : State) (n g : Nat) : State :=
  (s.onSite n fun x => { x with phases := tset 0 x.phases g (tget 0 (s.site n).phases g + 1) }).recommend n
theorem phaseOut_site (m : Nat) : (s.phaseOut n g).site m = if m = n then
    { s.site n with phases := tset 0 (s.site n).phases g (tget 0 (s.site n).phases g + 1), replace := true } else s.site m := by
  rw [State.phaseOut, recommend_site, site_onSite, site_onSite, if_pos rfl]
  split <;> rfl
theorem phaseOut_count : tget 0 ((s.phaseOut n g).site n).phases g = tget 0 (s.site n).phases g + 1 := by
  rw [phaseOut_site, if_pos rfl, tget_tset_self]
theorem phaseOut_still : Still s (s.phaseOut n g) :=
  Still.trans (t := s.onSite n _) ⟨rfl, rfl, rfl, rfl, rfl, rfl⟩ (recommend_reported n).1
theorem phaseOut_lead : (s.phaseOut n g).lead = s.lead := (recommend_keeps _ n).2.2.1
theorem unpowered {t : State} {k : Nat} (h : 3 ≤ tget 0 (t.site n).phases g) (hk : groupNode n g k = true) :
    t.powered k = false ∧ t.bound k = false := by
  simp only [groupNode, Bool.and_eq_true, beq_iff_eq] at hk
  obtain ⟨⟨site, _⟩, group⟩ := hk
  have off : t.powered k = false := by
    rw [State.powered, site, group]
    exact decide_eq_false (Nat.not_lt.mpr h)
  refine ⟨off, ?_⟩
  rw [State.bound, off]
  exact Bool.and_false _

/-- Which groups a third lost phase faults (R368). -/
def State.phaseHits (s : State) (n g i : Nat) : Bool :=
  if (s.group i).st = .seeding then (s.group i).laneKeys.any (groupNode n g) else (s.group i).cores.any (groupNode n g)
/-- The quads of a regulator group and the umpire quad of its rows at point P3 at best (R368). -/
def State.phaseCap (s : State) (n g now : Nat) : State :=
  ((List.range 16).foldl (fun s x => s.onQuad (256 * (4 * n + g / 8) + 16 * (g % 8) + x) fun r => { r with capR := 3 }.capped now)
    s).onQuad (256 * (4 * n + g / 8) + 128 + g % 8) fun r => { r with capR := 3 }.capped now
theorem phaseLoss_exec (hn : n < 25) (hc : computeSite n = true) (hg : g < 32) (hl : tget 0 (s.site n).phases g < 4) :
    exec (.phaseLoss n g) s = .next (
      if tget 0 (s.site n).phases g = 1 then (s.phaseOut n g).phaseCap n g s.clock.ticks
      else if tget 0 (s.site n).phases g = 2 then
        (s.groupIds.foldl (fun u i => if s.phaseHits n g i then u.faultGroup i else u) (s.phaseOut n g)).redrawn s (siteRegions n)
      else s.phaseOut n g) := by
  refine if_neg ?_
  rw [hc]
  simp only [Bool.not_true, Bool.false_eq_true, false_or]
  omega
theorem phaseLoss_first (hn : n < 25) (hc : computeSite n = true) (hg : g < 32) (hl : tget 0 (s.site n).phases g = 0) :
    Completes (.phaseLoss n g) s fun t => Still s t ∧ tget 0 (t.site n).phases g = 1 ∧
       (t.site n).replace = true ∧ (t.site n).st = (s.site n).st ∧ (∀ m, m ≠ n → t.site m = s.site m) := by
  have exe := phaseLoss_exec hn hc hg (s := s) (by omega)
  rw [if_neg (by omega), if_neg (by omega)] at exe
  refine ⟨_, exe, phaseOut_still, phaseOut_count.trans (by omega), ?_, ?_, fun m h => (phaseOut_site m).trans (if_neg h)⟩
  all_goals rw [phaseOut_site, if_pos rfl]
theorem phaseLoss_fourth (hn : n < 25) (hc : computeSite n = true) (hg : g < 32) (hl : tget 0 (s.site n).phases g = 3) :
    Completes (.phaseLoss n g) s fun t => Still s t ∧ tget 0 (t.site n).phases g = 4 ∧
       ∀ k, groupNode n g k = true → t.powered k = false := by
  have exe := phaseLoss_exec hn hc hg (s := s) (by omega)
  rw [if_neg (by omega), if_neg (by omega)] at exe
  have count : tget 0 ((s.phaseOut n g).site n).phases g = 4 := phaseOut_count.trans (by omega)
  exact ⟨_, exe, phaseOut_still, count, fun k hk => (unpowered (by omega) hk).1⟩
theorem phaseLoss_more (hl : 4 ≤ tget 0 (s.site n).phases g) : Completes (.phaseLoss n g) s fun t => t = s :=
  ⟨s, if_pos (.inr (.inr (.inr hl))), rfl⟩

/-- A quad at P3 at best (R368). -/
def Quad.lowered (r : Quad) : Prop := r.capR = 3 ∧ 3 ≤ r.point
theorem capped_lowered (r : Quad) (now : Nat) : ({ r with capR := 3 }.capped now).lowered := by
  obtain ⟨capR, _, _, point⟩ := capped_caps { r with capR := 3 } now
  exact ⟨capR, le_trans (le_max_left ..) point⟩
theorem onQuads_still (at_ : Nat → Nat) (f : Quad → Quad) (l : List Nat) :
    ∀ s : State, Still s (l.foldl (fun s x => s.onQuad (at_ x) f) s) ∧ (l.foldl (fun s x => s.onQuad (at_ x) f) s).sites = s.sites := by
  induction l with
  | nil => exact fun s => ⟨onQuad_still (q := 0) id, rfl⟩
  | cons x l ih => exact fun s => ⟨Still.trans (onQuad_still f) (ih _).1, (ih _).2⟩
theorem onQuad_lowered {f : Quad → Quad} (hf : ∀ r, (f r).lowered) {q r : Nat} (h : r = q ∨ (s.quad r).lowered) :
    ((s.onQuad q f).quad r).lowered := by
  rw [quad_onQuad]
  split
  · exact hf _
  · next e => exact h.resolve_left e
theorem onQuads_lowered {f : Quad → Quad} (hf : ∀ r, (f r).lowered) (at_ : Nat → Nat) {x : Nat} (l : List Nat) :
    ∀ s : State, x ∈ l ∨ (s.quad (at_ x)).lowered → ((l.foldl (fun s x => s.onQuad (at_ x) f) s).quad (at_ x)).lowered := by
  induction l with
  | nil => exact fun s h => h.resolve_left List.not_mem_nil
  | cons y l ih =>
    rintro s (h | h)
    · rcases List.mem_cons.mp h with rfl | h
      · exact ih _ (.inr (onQuad_lowered hf (.inl rfl)))
      · exact ih _ (.inl h)
    · exact ih _ (.inr (onQuad_lowered hf (.inr h)))
theorem phaseCap_lowers (s : State) (n g now : Nat) : Still s (s.phaseCap n g now) ∧ (s.phaseCap n g now).sites = s.sites ∧
    (∀ x, x < 16 → ((s.phaseCap n g now).quad (256 * (4 * n + g / 8) + 16 * (g % 8) + x)).lowered) ∧
    ((s.phaseCap n g now).quad (256 * (4 * n + g / 8) + 128 + g % 8)).lowered := by
  obtain ⟨still, sites⟩ := onQuads_still (fun x => 256 * (4 * n + g / 8) + 16 * (g % 8) + x)
    (fun r => { r with capR := 3 }.capped now) (List.range 16) s
  have quads (x : Nat) (hx : x < 16) := onQuads_lowered (fun r => capped_lowered r now)
    (fun x => 256 * (4 * n + g / 8) + 16 * (g % 8) + x) (List.range 16) s (.inl (List.mem_range.mpr hx))
  unfold State.phaseCap
  generalize List.foldl _ s _ = u at still sites quads ⊢
  exact ⟨Still.trans still (onQuad_still _), sites, fun x hx => onQuad_lowered (fun r => capped_lowered r now) (.inr (quads x hx)),
    onQuad_lowered (fun r => capped_lowered r now) (.inl rfl)⟩
theorem phaseLoss_second (hn : n < 25) (hc : computeSite n = true) (hg : g < 32) (hl : tget 0 (s.site n).phases g = 1) :
    Completes (.phaseLoss n g) s fun t => Still s t ∧ tget 0 (t.site n).phases g = 2 ∧
       (∀ x, x < 16 → let q := 256 * (4 * n + g / 8) + 16 * (g % 8) + x
         (t.quad q).capR = 3 ∧ 3 ≤ (t.quad q).point) ∧
       (t.quad (256 * (4 * n + g / 8) + 128 + g % 8)).capR = 3 := by
  have exe := phaseLoss_exec hn hc hg (s := s) (by omega)
  rw [if_pos hl] at exe
  obtain ⟨still, sites, quads, umpires⟩ := phaseCap_lowers (s.phaseOut n g) n g s.clock.ticks
  refine ⟨_, exe, phaseOut_still.trans still, ?_, quads, umpires.1⟩
  rw [State.site, sites]
  exact phaseOut_count.trans (by omega)
end

/-! ## Groups that fault -/

/-- Groups may have faulted, and nothing else that a lost phase speaks of is changed. -/
structure GroupsFault (s t : State) : Prop where
  regs : SameRegs s t
  phases : ∀ n, (t.site n).phases = (s.site n).phases
  groups : ∀ i, (t.group i).st = (s.group i).st ∨ (t.group i).st = .faulted

section
variable {s t u : State}
theorem GroupsFault.refl (s : State) : GroupsFault s s := ⟨⟨rfl, fun _ => ⟨rfl, rfl⟩⟩, fun _ => rfl, fun _ => .inl rfl⟩
theorem GroupsFault.trans (h : GroupsFault s t) (e : GroupsFault t u) : GroupsFault s u where
  regs := h.regs.trans e.regs
  phases n := (e.phases n).trans (h.phases n)
  groups i := (e.groups i).elim (fun x => x ▸ h.groups i) .inr
theorem GroupsFault.of_same (hs : Still s t) (hp : t.sites = s.sites) (hg : t.lead.groups = s.lead.groups) : GroupsFault s t where
  regs := hs.sameRegs
  phases n := by rw [State.site, hp, State.site]
  groups i := .inl (by rw [State.group, hg, State.group])
theorem foldl_groupsFault {α : Type} {f : State → α → State} (hf : ∀ s x, GroupsFault s (f s x)) (l : List α) :
    ∀ s, GroupsFault s (l.foldl f s) := by
  induction l with
  | nil => exact GroupsFault.refl
  | cons x l ih => exact fun s => (hf s x).trans (ih _)
theorem complete_groupsFault (s : State) (q : Nat) (c : Cmd) (st : Nat) (gid : BitVec 16) : GroupsFault s (s.complete q c st gid) where
  regs := ⟨rfl, fun _ => ⟨rfl, rfl⟩⟩
  phases _ := rfl
  groups _ := .inl rfl
theorem completeCurrent_groupsFault (st : Nat) (s : State) (q : Nat) : GroupsFault s (s.completeCurrent q st) := by
  unfold State.completeCurrent
  split
  · exact complete_groupsFault ..
  · exact GroupsFault.refl s
theorem endSuspend_groupsFault (i st : Nat) : GroupsFault s (s.endSuspend i st) := by
  unfold State.endSuspend
  split
  · exact foldl_groupsFault (completeCurrent_groupsFault st) _ s
  · exact GroupsFault.refl s
  · exact GroupsFault.refl s
theorem closeWindows_groupsFault (ks : List Nat) : GroupsFault s (s.closeWindows ks) := by
  refine foldl_groupsFault (fun s k => ?_) ks s
  unfold State.closeWindowAt
  split
  · exact GroupsFault.of_same ⟨rfl, rfl, rfl, rfl, rfl, rfl⟩ rfl rfl
  · exact GroupsFault.refl s
theorem onCore_groupsFault (k : Nat) {f : Core → Core} (hf : ∀ c, (f c).regs = c.regs ∧ (f c).eng = c.eng) : GroupsFault s (s.onCore k f) := by
  have same : (s.onCore k f).here = s.here ∧ (s.onCore k f).sites = s.sites ∧ (s.onCore k f).lead = s.lead := by
    unfold State.onCore State.setCore
    split <;> exact ⟨rfl, rfl, rfl⟩
  obtain ⟨here, sites, lead⟩ := same
  refine ⟨⟨here, fun j => ?_⟩, fun n => by rw [State.site, sites, State.site], fun i => .inl (by rw [State.group, lead, State.group])⟩
  rw [coreAt_onCore]
  split
  · next e =>
    subst e
    exact hf _
  · exact ⟨rfl, rfl⟩
theorem voteTiles_groupsFault (l : List Nat) : GroupsFault s (s.voteTiles l) := by
  obtain ⟨frame, sites⟩ := voteTiles_same l s
  refine ⟨(voteTiles_reported l).1.sameRegs, fun n => by rw [sites n], fun i => .inl ?_⟩
  rw [frame]
  rfl
theorem coxWrites_groupsFault (ks : List Nat) {f : Nat → Core → Core} (hf : ∀ k c, (f k c).regs = c.regs ∧ (f k c).eng = c.eng) :
    GroupsFault s (s.coxWrites ks f) :=
  (foldl_groupsFault (fun _ k => onCore_groupsFault k (hf k)) ks s).trans (voteTiles_groupsFault _)
theorem group_onGroup (s : State) (i j : Nat) (f : Group → Group) :
    (s.onGroup i f).group j = if j = i then f (s.group i) else s.group j := tget_tset ..
theorem group_note (s : State) (e : LogEntry) (i : Nat) : (s.note e).group i = s.group i := rfl
theorem markFaulted_groupsFault (i : Nat) (e : LogEntry) {f : Group → Group} (hf : ∀ g, (f g).st = .faulted) :
    GroupsFault s ((s.onGroup i f).note e) ∧ (((s.onGroup i f).note e).group i).st = .faulted := by
  refine ⟨⟨⟨rfl, fun _ => ⟨rfl, rfl⟩⟩, fun _ => rfl, fun j => ?_⟩, ?_⟩
  all_goals rw [group_note, group_onGroup]
  · split
    · exact .inr (hf _)
    · exact .inl rfl
  · rw [if_pos rfl]
    exact hf _
/-- The group has cores that a fault stops (R271). -/
def State.alive (s : State) (i : Nat) : Prop :=
  (s.group i).st = .running ∨ (s.group i).st = .draining ∨ (s.group i).st = .seeding ∨ (s.group i).st = .loading
theorem faultGroup_stops {i : Nat} (h : s.alive i) : GroupsFault s (s.faultGroup i) ∧ ((s.faultGroup i).group i).st = .faulted := by
  have stopped (ks : List Nat) := ((endSuspend_groupsFault (s := s) i 8).trans (closeWindows_groupsFault ks)).trans
    (coxWrites_groupsFault ks (f := fun _ c => { c.trapSlots with
      ctl := { c.ctl with issue := .stopped }, sh := { c.trapSlots.sh with cut := false } }) fun _ _ => ⟨rfl, rfl⟩)
  have faulted (t : State) (g : Group → Group) (e : LogEntry) (hg : ∀ x, (g x).st = .faulted) (ht : GroupsFault s t) :
      GroupsFault s ((t.onGroup i g).note e) ∧ (((t.onGroup i g).note e).group i).st = .faulted :=
    (markFaulted_groupsFault i e hg).imp_left ht.trans
  unfold State.faultGroup
  rcases h with h | h | h | h
  all_goals
    simp only [h]
    exact faulted _ _ _ (fun _ => rfl) (stopped _)
theorem faultGroup_groupsFault (i : Nat) : GroupsFault s (s.faultGroup i) := by
  by_cases h : s.alive i
  · exact (faultGroup_stops h).1
  · unfold State.alive at h
    unfold State.faultGroup
    cases e : (s.group i).st
    case running | draining | seeding | loading => simp [e] at h
    all_goals
      simp only [e]
      exact GroupsFault.refl s
theorem redrawn_groupsFault (old : State) (ds : List Nat) : GroupsFault s (s.redrawn old ds) := by
  unfold State.redrawn
  split
  · exact GroupsFault.of_same ⟨rfl, rfl, rfl, rfl, rfl, rfl⟩ rfl rfl
  · exact GroupsFault.refl s
/-- Groups marked one by one: each that was alive, or had faulted already, is FAULTED. -/
theorem faultGroups_faults (hit : Nat → Bool) {i : Nat} (hi : hit i = true) (l : List Nat) : ∀ s : State,
    (i ∈ l ∧ s.alive i) ∨ (s.group i).st = .faulted →
    ((l.foldl (fun u j => if hit j then u.faultGroup j else u) s).group i).st = .faulted := by
  have step (s : State) (j : Nat) : GroupsFault s (if hit j then s.faultGroup j else s) := by
    split
    · exact faultGroup_groupsFault j
    · exact GroupsFault.refl s
  induction l with
  | nil => exact fun s h => h.resolve_left fun e => List.not_mem_nil e.1
  | cons j l ih =>
    intro s h
    refine ih _ ?_
    beta_reduce
    rcases h with ⟨hm, ha⟩ | h
    · rcases (step s j).groups i with e | e
      · rcases List.mem_cons.mp hm with rfl | hm
        · rw [if_pos hi]
          exact .inr (faultGroup_stops ha).2
        · refine .inl ⟨hm, ?_⟩
          rw [State.alive, e]
          exact ha
      · exact .inr e
    · exact .inr (((step s j).groups i).elim (·.trans h) id)
end

section
variable {s : State} {n g : Nat}
theorem phaseOut_group (i : Nat) : (s.phaseOut n g).group i = s.group i := by rw [State.group, phaseOut_lead, State.group]
theorem phaseLoss_third (hn : n < 25) (hc : computeSite n = true) (hg : g < 32) (hl : tget 0 (s.site n).phases g = 2) :
    Completes (.phaseLoss n g) s fun t => SameRegs s t ∧ tget 0 (t.site n).phases g = 3 ∧
       (∀ k, groupNode n g k = true → t.powered k = false ∧ t.bound k = false) ∧
       (∀ i, i ∈ s.groupIds →
         ((s.group i).st = .seeding ∧ (s.group i).laneKeys.any (groupNode n g) = true) ∨
         (((s.group i).st = .loading ∨ (s.group i).st = .running ∨ (s.group i).st = .draining) ∧
           (s.group i).cores.any (groupNode n g) = true) → (t.group i).st = .faulted) := by
  have exe := phaseLoss_exec hn hc hg (s := s) (by omega)
  rw [if_neg (by omega), if_pos hl] at exe
  have faults : GroupsFault (s.phaseOut n g)
      (s.groupIds.foldl (fun u i => if s.phaseHits n g i then u.faultGroup i else u) (s.phaseOut n g)) := by
    refine foldl_groupsFault (fun u i => ?_) _ _
    split
    · exact faultGroup_groupsFault i
    · exact GroupsFault.refl u
  have redrawn := redrawn_groupsFault (s := s.groupIds.foldl (fun u i => if s.phaseHits n g i then u.faultGroup i else u) (s.phaseOut n g))
    s (siteRegions n)
  have whole := faults.trans redrawn
  have count := (congrArg (tget 0 · g) (whole.phases n)).trans (phaseOut_count.trans (show _ = 3 by omega))
  refine ⟨_, exe, phaseOut_still.sameRegs.trans whole.regs, count, fun k hk => unpowered (le_of_eq count.symm) hk, fun i hi h => ?_⟩
  have hit : s.phaseHits n g i = true := by
    unfold State.phaseHits
    rcases h with ⟨st, any⟩ | ⟨st, any⟩
    · rw [if_pos st, any]
    · rw [if_neg (by rcases st with e | e | e <;> simp [e]), any]
  have alive : (s.phaseOut n g).alive i := by
    unfold State.alive
    rw [phaseOut_group]
    tauto
  have marked := faultGroups_faults (s.phaseHits n g) hit s.groupIds (s.phaseOut n g) (.inl ⟨hi, alive⟩)
  exact (redrawn.groups i).elim (·.trans marked) id
end

/-! ## The panel's reference and its alignment (R28, R325, R373) -/

section
variable {s : State}
theorem ptpTimestamp_first (ns : BitVec 64) (locked : Bool) (h : s.boat.ptp = []) :
    Completes (.ptpTimestamp ns locked) s fun t => Still s t ∧ t.boat.ptp = [(s.panelCount, ns)] ∧ t.boat.locked = locked := by
  refine ⟨{ s with boat := { s.boat with ptp := (s.panelCount, ns) :: s.boat.ptp.take 1, locked := locked } },
    congrArg Host.Outcome.next (if_neg ?_), still_atBoat .., ?_, rfl⟩
  · rw [h]
    exact Bool.false_ne_true
  · exact congrArg (fun l => (s.panelCount, ns) :: l.take 1) h
/-- The table of the regions alone is written. -/
def State.setRegion (s : State) (r : Nat) (x : Region) : State :=
  { s with clock := { s.clock with regions := tset Region.reset s.clock.regions r x } }
theorem setRegion_region (r : Nat) (x : Region) : tget Region.reset (s.setRegion r x).clock.regions r = x := tget_tset_self ..
theorem setRegion_still (r : Nat) (x : Region) : Still s (s.setRegion r x) := ⟨rfl, rfl, rfl, rfl, rfl, rfl⟩
theorem remeasure_due {r : Nat} {phase : Int} (hr : r < 100) (h8 : -8 ≤ phase) (hp : phase < 8)
    (hd : (tget Region.reset s.clock.regions r).measAt + 2 ^ 20 ≤ s.clock.ticks) :
    let g := tget Region.reset s.clock.regions r
    let off : Int := 16 * g.lead + phase
    Completes (.alignmentRemeasure r phase) s fun t => Still s t ∧
       (tget Region.reset t.clock.regions r).offset = BitVec.ofInt 16 off ∧
       ((tget Region.reset t.clock.regions r).valid = true ↔ -48 ≤ off ∧ off ≤ 48) ∧
       (tget Region.reset t.clock.regions r).lead = g.lead ∧ t.clock.ticks = s.clock.ticks ∧
       ((off < -48 ∨ 48 < off) → LogEntry.region r ∈ t.boat.log) := by
  intro g off
  have exe : exec (.alignmentRemeasure r phase) s = .next (
      let t := s.setRegion r { g with
        offset := BitVec.ofInt 16 off, valid := decide (-48 ≤ off) && decide (off ≤ 48), measAt := s.clock.ticks }
      if (decide (-48 ≤ off) && decide (off ≤ 48)) = true then t else t.note (.region r)) :=
    congrArg Host.Outcome.next (if_neg (by omega))
  have near : (decide (-48 ≤ off) && decide (off ≤ 48)) = true ↔ -48 ≤ off ∧ off ≤ 48 := by simp
  by_cases h : (decide (-48 ≤ off) && decide (off ≤ 48)) = true
  · refine ⟨_, exe.trans (congrArg Host.Outcome.next (if_pos h)), setRegion_still .., ?_⟩
    rw [setRegion_region]
    exact ⟨rfl, near, rfl, rfl, fun e => by have := near.mp h; omega⟩
  · refine ⟨_, exe.trans (congrArg Host.Outcome.next (if_neg h)), (setRegion_still ..).trans (still_atBoat ..), ?_⟩
    rw [show ∀ (t : State) e, (t.note e).clock = t.clock from fun _ _ => rfl, setRegion_region]
    exact ⟨rfl, near, rfl, rfl, fun _ => List.mem_concat_self⟩
theorem link_onLink (s : State) (i j : Nat) (f : Link → Link) :
    (s.onLink i f).link j = if j = i then f (s.link i) else s.link j := by
  unfold State.onLink State.link
  by_cases hi : i < 1920 <;> by_cases hj : j < 1920 <;> simp only [hi, hj, if_true, if_false, tget_tset]
  · rw [if_neg (by omega)]
  · rw [if_neg (by omega)]
  · have : j - 1920 = i - 1920 ↔ j = i := by omega
    simp only [this]
theorem onLink_still (i : Nat) (f : Link → Link) : Still s (s.onLink i f) := by
  unfold State.onLink
  split <;> exact ⟨rfl, rfl, rfl, rfl, rfl, rfl⟩
theorem onLink_root (i : Nat) (f : Link → Link) : (s.onLink i f).links.root = s.links.root := by
  unfold State.onLink
  split <;> rfl
/-- The link partner is read of the states and the hops of the panel links (R325). -/
theorem partner_onLink (i : Nat) {f : Link → Link} (hf : ∀ l, (f l).hops = l.hops ∧ (f l).carries = l.carries) :
    (s.onLink i f).partner = s.partner := by
  have same (j : Nat) : ((s.onLink i f).link j).hops = (s.link j).hops ∧ ((s.onLink i f).link j).carries = (s.link j).carries := by
    rw [link_onLink]
    split
    · next e => exact e ▸ hf _
    · exact ⟨rfl, rfl⟩
  simp only [State.partner, same]
/-- A panel link after an exchange that gave an offset (R325). -/
def State.exchanged (s : State) (i : Nat) (d : Int) : State :=
  (s.onLink i fun l => { l with exchAt := s.clock.ticks }).onLink i fun l => { l with offset := BitVec.ofInt 16 d }
theorem exchanged_keeps (i : Nat) (d : Int) : Still s (s.exchanged i d) ∧ (s.exchanged i d).clock = s.clock ∧
    (s.exchanged i d).links.root = s.links.root ∧ (s.exchanged i d).partner = s.partner ∧
    ((s.exchanged i d).link i).offset = BitVec.ofInt 16 d := by
  unfold State.exchanged
  refine ⟨Still.trans (onLink_still ..) (onLink_still ..), ?_, ?_, ?_, ?_⟩
  · rw [onLink_clock, onLink_clock]
  · rw [onLink_root, onLink_root]
  · refine (partner_onLink i ?_).trans (partner_onLink i ?_)
    · exact fun _ => ⟨rfl, rfl⟩
    · exact fun _ => ⟨rfl, rfl⟩
  · rw [link_onLink, if_pos rfl]
/-- The panel's reference is to reach the partner's (R325). -/
def State.aimed (t : State) (d : Int) : State :=
  { t with clock := { t.clock with
    aim := if t.links.root then t.clock.aim else t.clock.slewed + d
    aligned := t.links.root || (decide (-40 ≤ d) && decide (d ≤ 40)) } }
theorem still_atClock (t : State) (c : Clock) : Still t { t with clock := c } := ⟨rfl, rfl, rfl, rfl, rfl, rfl⟩

section
variable {b : Nat} (t1 t2 t3 t4 : Nat)
theorem exchange_exec (shed : Bool) (hb : b < 12) (hc : (s.link (1920 + b)).carries = true)
    (hd : (s.link (1920 + b)).exchAt + 2 ^ 20 ≤ s.clock.ticks) : exec (.counterExchange b t1 t2 t3 t4 shed) s = .next (
      if shed then s.onLink (1920 + b) fun l => { l with exchAt := s.clock.ticks }
      else if (s.exchanged (1920 + b) (exchangeOffset t1 t2 t3 t4)).partner ≠ some b then s.exchanged (1920 + b) (exchangeOffset t1 t2 t3 t4)
      else (s.exchanged (1920 + b) (exchangeOffset t1 t2 t3 t4)).aimed (exchangeOffset t1 t2 t3 t4)) := by
  refine congrArg Host.Outcome.next (if_neg ?_)
  simp only [hc, Bool.not_true, Bool.false_eq_true, false_or]
  omega
theorem exchange_shed (hb : b < 12) (hc : (s.link (1920 + b)).carries = true)
    (hd : (s.link (1920 + b)).exchAt + 2 ^ 20 ≤ s.clock.ticks) :
    Completes (.counterExchange b t1 t2 t3 t4 true) s fun t => Still s t ∧ t.clock = s.clock ∧
       (t.link (1920 + b)).offset = (s.link (1920 + b)).offset := by
  refine ⟨_, (exchange_exec t1 t2 t3 t4 true hb hc hd).trans (congrArg Host.Outcome.next (if_pos rfl)), onLink_still .., onLink_clock .., ?_⟩
  rw [link_onLink, if_pos rfl]
theorem exchange_kept (hb : b < 12) (hc : (s.link (1920 + b)).carries = true)
    (hd : (s.link (1920 + b)).exchAt + 2 ^ 20 ≤ s.clock.ticks) :
    let d := exchangeOffset t1 t2 t3 t4
    Completes (.counterExchange b t1 t2 t3 t4 false) s fun t => Still s t ∧
       (t.link (1920 + b)).offset = BitVec.ofInt 16 d ∧ t.clock.ticks = s.clock.ticks ∧
       (s.partner = some b → s.links.root = false →
         t.clock.aim = s.clock.slewed + d ∧ (t.clock.aligned = true ↔ -40 ≤ d ∧ d ≤ 40)) ∧
       (s.partner ≠ some b → t.clock = s.clock) := by
  intro d
  have exe := exchange_exec t1 t2 t3 t4 false hb hc hd
  rw [if_neg Bool.false_ne_true] at exe
  obtain ⟨still, clock, root, partner, offset⟩ := exchanged_keeps (s := s) (1920 + b) d
  change _ = Host.Outcome.next (if (s.exchanged (1920 + b) d).partner ≠ some b then s.exchanged (1920 + b) d
    else (s.exchanged (1920 + b) d).aimed d) at exe
  generalize s.exchanged (1920 + b) d = t at exe still clock root partner offset
  by_cases h : s.partner = some b
  · rw [if_neg (by rw [partner, h]; exact fun e => e rfl)] at exe
    refine ⟨_, exe, still.trans (still_atClock ..), offset, ?_, fun _ hr => ?_, fun e => absurd h e⟩
    · exact (congrArg Clock.ticks clock : t.clock.ticks = s.clock.ticks)
    · rw [State.aimed, root, hr, clock]
      exact ⟨rfl, by simp⟩
  · rw [if_pos (by rw [partner]; exact h)] at exe
    exact ⟨_, exe, still, offset, congrArg Clock.ticks clock, fun e => absurd e h, fun _ => clock⟩
end
end

/-- Settles O48: the points, caps and trims of the quads, lost phases, and the alignment of the regions and of the panel. -/
theorem quadsAndAlignment : Obligations.QuadsAndAlignment := by
  refine ⟨⟨fun s q hq => ⟨fun h => operatingPoint_waits (.inl h), fun h hx => operatingPoint_waits (.inr ⟨h, hx⟩), operatingPoint_changes hq⟩,
    fun s q temp hq hd => ⟨fun n => thermalCap_below hq hd, thermalCap_trips hq hd⟩, fun s q => trimRaise_due,
    fun s n g hn hc hg => ⟨phaseLoss_first hn hc hg, phaseLoss_second hn hc hg, phaseLoss_third hn hc hg, phaseLoss_fourth hn hc hg,
      phaseLoss_more⟩, fun s h => ?_, fun s q => monitorRead_due, fun s => ptpTimestamp_first⟩,
    ⟨fun s r phase => remeasure_due, fun s b t1 t2 t3 t4 hb hc hd => ⟨exchange_shed t1 t2 t3 t4 hb hc hd, exchange_kept t1 t2 t3 t4 hb hc hd⟩⟩⟩
  rw [State.tileUp, h]
  rfl
end Sys2Proof.Machine
end

section

/-! What the repair of a site leaves of the cores that listen to it: live cores stay live, and their slots keep their contexts and their
pending causes, while the site's streams are ended and its groups take it back (R343). -/

namespace Sys2Proof.Machine

/-! ## Slots and cores -/

/-- A slot keeps its context, the bit that says whether it is a paddle's, and a pending SITE. -/
def Slot.keeps (a b : Slot) : Prop :=
  (a.st ≠ .free → b.st ≠ .free) ∧ b.paddle = a.paddle ∧ (a.pend.getLsbD 5 = true → b.pend.getLsbD 5 = true)
/-- A core keeps its registers, its engines, and in every slot what `Slot.keeps` says. -/
def Core.keeps (c d : Core) : Prop := d.regs = c.regs ∧ d.eng = c.eng ∧ ∀ j, (c.slot j).keeps (d.slot j)

theorem Slot.keeps.refl (a : Slot) : a.keeps a := ⟨id, rfl, id⟩
theorem Slot.keeps.trans {a b c : Slot} (h : a.keeps b) (g : b.keeps c) : a.keeps c := ⟨g.1 ∘ h.1, g.2.1.trans h.2.1, g.2.2 ∘ h.2.2⟩
theorem pendOn_keeps (a : Slot) (b : BitVec 3) (v : BitVec 64) : a.keeps (a.pendOn b v) := by
  refine ⟨id, rfl, fun h => ?_⟩
  simp only [Slot.pendOn, BitVec.getLsbD_or, h, Bool.true_or]
theorem pendOn_site (a : Slot) (v : BitVec 64) : (a.pendOn 5 v).pend.getLsbD 5 = true := by
  have bit : ((1#6 <<< (5#3).toNat) : BitVec 6).getLsbD 5 = true := by decide
  exact (BitVec.getLsbD_or ..).trans ((congrArg (a.pend.getLsbD 5 || ·) bit).trans (Bool.or_true _))

section
variable {c d e : Core} {i : SlotId}
theorem Core.keeps.refl (c : Core) : c.keeps c := ⟨rfl, rfl, fun _ => Slot.keeps.refl _⟩
theorem Core.keeps.trans (h : c.keeps d) (g : d.keeps e) : c.keeps e :=
  ⟨g.1.trans h.1, g.2.1.trans h.2.1, fun j => (h.2.2 j).trans (g.2.2 j)⟩
theorem onSlot_keeps {f : Slot → Slot} (hf : (c.slot i).keeps (f (c.slot i))) : c.keeps (c.onSlot i f) := by
  refine ⟨rfl, rfl, fun j => ?_⟩
  rw [slot_onSlot]
  split
  · next e => exact e ▸ hf
  · exact Slot.keeps.refl _
theorem enqueue_keeps : c.keeps (c.enqueue i) := by
  have queued : c.keeps (c.onSlot i fun t => { t with qd := true }) := onSlot_keeps ⟨id, rfl, id⟩
  unfold Core.enqueue
  dsimp only
  split
  · split
    · exact queued.trans (onSlot_keeps (pendOn_keeps ..))
    · exact queued
  · exact queued
theorem wake_keeps (w : BitVec 3) : c.keeps (c.wake i w) := by
  have ready : c.keeps (c.onSlot i fun t => { t with st := .ready, wstat := if t.why = .sleep then w else t.wstat, why := .none }) :=
    onSlot_keeps ⟨fun _ => SlotSt.noConfusion, rfl, id⟩
  exact ready.trans (enqueue_keeps (i := i))
theorem bump_keeps (a : Nat) (k : WC) : c.keeps (c.bump i a k) := by
  unfold Core.bump
  split
  · have counted : c.keeps (c.onSlot i fun t => { t with w := bset t.w k (if bget t.w k = 0xFFFF then 0xFFFF else bget t.w k + 1) }) :=
      onSlot_keeps ⟨id, rfl, id⟩
    dsimp only
    split
    · split
      · exact counted.trans (wake_keeps 0)
      · exact counted
    · exact counted
  · exact Core.keeps.refl c
/-- SITE raised on a slot: what the core keeps, and where it is then pending. -/
theorem raise_site (c : Core) (i : SlotId) (v : BitVec 64) : c.keeps (c.raise i 5 v) ∧
    ((c.slot i).st ≠ .free → ((c.raise i 5 v).slot i).pend.getLsbD 5 = true) := by
  have pended : c.keeps (c.onSlot i fun t => t.pendOn 5 v) := onSlot_keeps (pendOn_keeps ..)
  have site : ((c.onSlot i fun t => t.pendOn 5 v).slot i).pend.getLsbD 5 = true := by
    rw [slot_onSlot, if_pos rfl]
    exact pendOn_site ..
  unfold Core.raise
  cases h : (c.slot i).st
  case sleep => exact ⟨pended.trans (wake_keeps 5), fun _ => ((wake_keeps 5).2.2 i).2.2 site⟩
  case free => exact ⟨Core.keeps.refl c, fun e => absurd rfl e⟩
  all_goals exact ⟨pended, fun _ => site⟩
theorem raiseSlots_site (n : Nat) (l : List SlotId) : ∀ c : Core,
    let d := l.foldl (fun c i => if (c.slot i).paddle then c else c.raise i 5 (BitVec.ofNat 64 n)) c
    c.keeps d ∧ ∀ j ∈ l, (c.slot j).st ≠ .free → (c.slot j).paddle = false → (d.slot j).pend.getLsbD 5 = true := by
  induction l with
  | nil => exact fun c => ⟨Core.keeps.refl c, fun j h => absurd h List.not_mem_nil⟩
  | cons i l ih =>
    intro c
    have step : c.keeps (if (c.slot i).paddle then c else c.raise i 5 (BitVec.ofNat 64 n)) := by
      split
      · exact Core.keeps.refl c
      · exact (raise_site c i _).1
    obtain ⟨rest, all⟩ := ih (if (c.slot i).paddle then c else c.raise i 5 (BitVec.ofNat 64 n))
    refine ⟨step.trans rest, fun j hj hs hp => ?_⟩
    rcases List.mem_cons.mp hj with rfl | hj
    · refine (rest.2.2 j).2.2 ?_
      rw [if_neg (by rw [hp]; exact Bool.false_ne_true)]
      exact (raise_site c j _).2 hs
    · exact all j hj ((step.2.2 j).1 hs) ((step.2.2 j).2.1.trans hp)
theorem mem_allSlots (j : SlotId) : j ∈ allSlots :=
  List.mem_map.mpr ⟨j.toNat, List.mem_range.mpr j.isLt, (BitVec.ofNat_toNat 4 j).trans (BitVec.setWidth_eq j)⟩
/-- SITE raised on a core pends in every slot with a context but a paddle's (R277). -/
theorem raiseSite_pends (c : Core) (n : Nat) : c.keeps (c.raiseSite n) ∧
    ∀ j, (c.slot j).st ≠ .free → (c.slot j).paddle = false → ((c.raiseSite n).slot j).pend.getLsbD 5 = true := by
  obtain ⟨keeps, all⟩ := raiseSlots_site n allSlots c
  exact ⟨keeps, fun j => all j (mem_allSlots j)⟩
end

/-! ## States -/

/-- A site keeps what says which of its cores are live and where they stand. -/
def Site.keeps (a b : Site) : Prop := b.st = a.st ∧ b.retired = a.retired ∧ b.skips = a.skips ∧ b.phases = a.phases
/-- No byte changes, and the groups, the LIVE sites and the cores keep what `Site.keeps` and `Core.keeps` say. -/
structure State.Keeps (s t : State) : Prop where
  store : SameStore s t
  groups : t.lead.groups = s.lead.groups
  sites : ∀ m, (s.site m).st = .live → (s.site m).keeps (t.site m)
  cores : ∀ k, (s.coreAt k).keeps (t.coreAt k)

theorem foldl_related {α : Type} {R : State → State → Prop} (hr : ∀ s, R s s) (ht : ∀ {s t u}, R s t → R t u → R s u)
    {f : State → α → State} (hf : ∀ s x, R s (f s x)) (l : List α) : ∀ s, R s (l.foldl f s) := by
  induction l with
  | nil => exact hr
  | cons x l ih => exact fun s => ht (hf s x) (ih _)

section
variable {s t u : State}
theorem State.Keeps.refl (s : State) : s.Keeps s := ⟨⟨rfl, rfl, rfl⟩, rfl, fun _ _ => ⟨rfl, rfl, rfl, rfl⟩, fun _ => Core.keeps.refl _⟩
theorem State.Keeps.trans (h : s.Keeps t) (g : t.Keeps u) : s.Keeps u := by
  refine ⟨h.store.trans g.store, g.groups.trans h.groups, fun m hm => ?_, fun k => (h.cores k).trans (g.cores k)⟩
  obtain ⟨st, retired, skips, phases⟩ := h.sites m hm
  obtain ⟨st', retired', skips', phases'⟩ := g.sites m (st.trans hm)
  exact ⟨st'.trans st, retired'.trans retired, skips'.trans skips, phases'.trans phases⟩
theorem keeps_foldl {α : Type} {f : State → α → State} (hf : ∀ s x, State.Keeps s (f s x)) (l : List α) (s : State) : s.Keeps (l.foldl f s) :=
  foldl_related State.Keeps.refl State.Keeps.trans hf l s
/-- A live core stays live. -/
theorem State.Keeps.live (h : s.Keeps t) {k : Nat} (hk : s.live k = true) : t.live k = true := by
  unfold State.live at hk ⊢
  rw [Bool.and_eq_true, decide_eq_true_eq] at hk
  obtain ⟨site, bound⟩ := hk
  obtain ⟨st, retired, skips, phases⟩ := h.sites _ site
  have col : t.physCol k = s.physCol k := by rw [State.physCol, State.physCol, State.skipOf, State.skipOf, h.groups, skips]
  have same : t.bound k = s.bound k := by rw [State.bound, State.bound, State.powered, State.powered, retired, phases, col]
  rw [same, bound, st, site]
  rfl
theorem State.Keeps.group (h : s.Keeps t) (i : Nat) : t.group i = s.group i := by rw [State.group, h.groups, State.group]
theorem keeps_core {c : Core} (h : s.core.keeps c) : s.Keeps { s with core := c } := by
  refine ⟨⟨rfl, rfl, rfl⟩, rfl, fun _ _ => ⟨rfl, rfl, rfl, rfl⟩, fun k => ?_⟩
  unfold State.coreAt
  dsimp only
  split
  · exact h
  · exact Core.keeps.refl _
theorem onSh_keeps (f : Shared → Shared) : s.Keeps (s.onSh f) := keeps_core (Core.keeps.refl s.core)
theorem onSite_keeps {n : Nat} {f : Site → Site} (hf : (s.site n).keeps (f (s.site n))) : s.Keeps (s.onSite n f) := by
  refine ⟨⟨rfl, rfl, rfl⟩, rfl, fun m _ => ?_, fun k => Core.keeps.refl _⟩
  rw [site_onSite]
  split
  · next e => exact e ▸ hf
  · exact ⟨rfl, rfl, rfl, rfl⟩
theorem onNode_keeps (k : Nat) (f : Node → Node) : s.Keeps (s.onNode k f) :=
  ⟨⟨rfl, rfl, rfl⟩, rfl, fun _ _ => ⟨rfl, rfl, rfl, rfl⟩, fun _ => Core.keeps.refl _⟩
theorem onCore_keeps (k : Nat) {f : Core → Core} (hf : ∀ c : Core, c.keeps (f c)) : s.Keeps (s.onCore k f) := by
  have same : SameStore s (s.onCore k f) ∧ (s.onCore k f).sites = s.sites ∧ (s.onCore k f).lead = s.lead := by
    unfold State.onCore State.setCore
    split <;> exact ⟨⟨rfl, rfl, rfl⟩, rfl, rfl⟩
  obtain ⟨store, sites, lead⟩ := same
  refine ⟨store, congrArg Lead.groups lead, fun m _ => ?_, fun j => ?_⟩
  · rw [State.site, State.site, sites]
    exact ⟨rfl, rfl, rfl, rfl⟩
  · rw [coreAt_onCore]
    split
    · next e => exact e ▸ hf _
    · exact Core.keeps.refl _
theorem voteTiles_keeps (l : List Nat) : s.Keeps (s.voteTiles l) := by
  obtain ⟨frame, sites⟩ := voteTiles_same l s
  have still := (voteTiles_reported (s := s) l).1
  refine ⟨still.2.2.2, ?_, fun m _ => ?_, fun k => ?_⟩
  · rw [frame]
  · rw [sites m]
    exact ⟨rfl, rfl, rfl, rfl⟩
  · rw [frame]
    exact Core.keeps.refl _
theorem moveTo_coreAt (s : State) (k j : Nat) : (s.moveTo k).coreAt j = s.coreAt j := by
  unfold State.moveTo
  split
  · rfl
  · next h =>
    unfold State.coreAt
    dsimp only
    by_cases hj : j = k
    · rw [if_pos hj, hj]
    · rw [if_neg hj, tget_tdel, if_neg hj]
      by_cases hs : j = s.here
      · rw [if_pos hs, hs, tget_tset_self]
      · rw [if_neg hs, tget_tset_other _ _ _ _ hs]
theorem moveTo_keeps (k : Nat) : s.Keeps (s.moveTo k) := by
  refine ⟨?_, ?_, fun m _ => ?_, fun j => by rw [moveTo_coreAt]; exact Core.keeps.refl _⟩
  all_goals
    unfold State.moveTo
    split
  · exact ⟨rfl, rfl, rfl⟩
  · exact ⟨rfl, rfl, rfl⟩
  · rfl
  · rfl
  · exact ⟨rfl, rfl, rfl, rfl⟩
  · exact ⟨rfl, rfl, rfl, rfl⟩
theorem moveTo_here (s : State) (k : Nat) : (s.moveTo k).here = k := by
  unfold State.moveTo
  split
  · next h => exact h.symm
  · rfl
theorem atCore_keeps (k : Nat) {f : State → State} (hf : ∀ s : State, s.Keeps (f s)) : s.Keeps (s.atCore k f) :=
  ((moveTo_keeps k).trans (hf _)).trans (moveTo_keeps _)
theorem atCore_here (k : Nat) (f : State → State) : (s.atCore k f).here = s.here := moveTo_here ..
end
end Sys2Proof.Machine
end

section

/-! Switches of lane classes: the old path, lane 2 of a healed site, and the re-admission of a bank site into its groups (R320, R343). -/

namespace Sys2Proof.Machine

/-! ## The streams of a healed site end (R343 step 2) -/

section
variable {s : State}
theorem send_keeps (s : State) (p : Packet) : s.Keeps (s.send p) := by
  unfold State.send
  split
  · split <;> exact { State.Keeps.refl s with }
  · split
    · exact { State.Keeps.refl s with }
    · exact State.Keeps.refl s
theorem send_here (s : State) (p : Packet) : (s.send p).here = s.here := by
  unfold State.send
  split <;> split <;> rfl
theorem dropRequests_keeps (f : Packet → Bool) : s.Keeps (s.dropRequests f) := by
  refine ⟨⟨rfl, rfl, rfl⟩, rfl, fun m hm => ?_, fun _ => Core.keeps.refl _⟩
  have listed {t : Site} (ht : t.st = .live) : t ≠ Site.reset := by
    rintro rfl
    cases ht
  have kept := tget_tmap_listed (d := Site.reset) (k := m) (f := fun t : Site => { t with
    proxy := tmap [] (fun l => l.filter fun p => !(f p)) t.proxy, taken := t.taken.filter fun e => !((tget [] t.proxy e.1).head?.any f) })
    s.sites (listed hm) (listed hm)
  exact ⟨(congrArg Site.st kept :), (congrArg Site.retired kept :), (congrArg Site.skips kept :), (congrArg Site.phases kept :)⟩
theorem onRec_keeps (n i : Nat) (f : FaultRec → FaultRec) : s.Keeps (s.onRec n i f) := by
  unfold State.onRec
  exact onSite_keeps ⟨rfl, rfl, rfl, rfl⟩
theorem leaveRecord_keeps (k : BitVec 2) : s.Keeps (s.leaveRecord k) := by
  unfold State.leaveRecord
  split
  · exact onRec_keeps ..
  all_goals exact State.Keeps.refl s
theorem setStream_keeps (k : BitVec 2) (x : Stream) : s.Keeps (s.setStream k x) := onSh_keeps _
theorem voidRequests_keeps (k : BitVec 2) (serial : Nat) (rids : List (BitVec 16)) : s.Keeps (s.voidRequests k serial rids) := by
  unfold State.voidRequests
  split
  · exact State.Keeps.refl s
  · exact State.Keeps.trans (onSh_keeps _) (dropRequests_keeps _)
theorem voidAll_keeps (k : BitVec 2) : s.Keeps (s.voidAll k) := State.Keeps.trans (setStream_keeps ..) (voidRequests_keeps ..)
theorem faultStream_keeps (k : BitVec 2) (cause : BitVec 5) : s.Keeps (s.faultStream k cause) := by
  have ended (u : State) (f : Shared → Shared) (o : SlotId) (a : Nat) (w : WC) :
      u.Keeps { u.onSh f with core := (u.onSh f).core.bump o a w } := (onSh_keeps f).trans (keeps_core (bump_keeps a w))
  exact ((leaveRecord_keeps k).trans (voidAll_keeps k)).trans (ended ..)
theorem holeStreams_keeps (p : State → Stream → Bool) (s : State) : s.Keeps (s.holeStreams p) := by
  refine keeps_foldl (fun s i => ?_) _ s
  dsimp only
  split
  · exact faultStream_keeps ..
  · exact State.Keeps.refl s
theorem holeAll_keeps (p : State → Stream → Bool) : s.Keeps (s.holeAll p) ∧ (s.holeAll p).here = s.here := by
  refine foldl_related (R := fun s t => s.Keeps t ∧ t.here = s.here) (fun s => ⟨State.Keeps.refl s, rfl⟩)
    (fun h g => ⟨h.1.trans g.1, g.2.trans h.2⟩) (fun s k => ?_) _ s
  split
  · exact ⟨atCore_keeps k (holeStreams_keeps p), atCore_here ..⟩
  · exact ⟨State.Keeps.refl s, rfl⟩
theorem answerHole_keeps (f : Packet → Bool) : s.Keeps (s.answerHole f) ∧ (s.answerHole f).here = s.here := by
  have drop (net : List Packet) : s.Keeps { s with net := net } := { State.Keeps.refl s with }
  obtain ⟨sent, here⟩ := foldl_related (R := fun s t => s.Keeps t ∧ t.here = s.here) (fun s => ⟨State.Keeps.refl s, rfl⟩)
    (fun h g => ⟨h.1.trans g.1, g.2.trans h.2⟩) (fun s (p : Packet) => ⟨send_keeps s p.holed, send_here s p.holed⟩)
    (s.net.filter fun p => f p && p.srcPan != 0xFF)
    { s with net := (s.net.filter fun p => !(f p && p.srcPan != 0xFF)).map fun p => if f p then p.holed else p }
  exact ⟨(drop _).trans sent, here⟩
theorem holeLane2_keeps (n : Nat) : s.Keeps (s.holeLane2 n) ∧ (s.holeLane2 n).here = s.here := by
  obtain ⟨answered, here⟩ := answerHole_keeps (s := s) fun p =>
    p.lane == 2 && p.asks && p.dstPan == 0xFF && siteOf p.dst == n && s.takesBack p.gid n
  obtain ⟨ended, here'⟩ := holeAll_keeps (s := s.answerHole fun p =>
    p.lane == 2 && p.asks && p.dstPan == 0xFF && siteOf p.dst == n && s.takesBack p.gid n)
    fun s t => t.cls != .ordered && t.sendsTo n && s.takesBack s.core.ctl.gid n
  exact ⟨answered.trans ended, here'.trans here⟩
end

/-! ## Re-admission into a group (R343 steps 3 and 4) -/

/-- As `State.Keeps`, and no core is selected anew nor a switch made. -/
structure State.Readmits (s t : State) : Prop extends s.Keeps t where
  here : t.here = s.here
  switches : ∀ m, (t.site m).switches = (s.site m).switches

section
variable {s t u : State}
theorem State.Readmits.refl (s : State) : s.Readmits s := { State.Keeps.refl s with here := rfl, switches := fun _ => rfl }
theorem State.Readmits.trans (h : s.Readmits t) (g : t.Readmits u) : s.Readmits u :=
  { h.toKeeps.trans g.toKeeps with
    here := g.here.trans h.here, switches := fun m => (g.switches m).trans (h.switches m) }
theorem readmits_foldl {α : Type} {f : State → α → State} (hf : ∀ s x, State.Readmits s (f s x)) (l : List α) (s : State) :
    s.Readmits (l.foldl f s) := foldl_related State.Readmits.refl State.Readmits.trans hf l s
theorem onNode_readmits (k : Nat) (f : Node → Node) : s.Readmits (s.onNode k f) :=
  { onNode_keeps k f with here := rfl, switches := fun _ => rfl }
theorem voteTiles_readmits (l : List Nat) : s.Readmits (s.voteTiles l) :=
  { voteTiles_keeps l with
    here := (voteTiles_reported l).1.1, switches := fun m => by rw [(voteTiles_same l s).2 m] }
theorem onCore_readmits (k : Nat) {f : Core → Core} (hf : ∀ c : Core, c.keeps (f c)) : s.Readmits (s.onCore k f) := by
  have same : (s.onCore k f).here = s.here ∧ (s.onCore k f).sites = s.sites := by
    unfold State.onCore State.setCore
    split <;> exact ⟨rfl, rfl⟩
  exact { onCore_keeps k hf with here := same.1, switches := fun m => by rw [State.site, same.2, State.site] }
theorem loadTrees_readmits (g : Group) (p : Nat → Bool) : s.Readmits (s.loadTrees g p) := by
  refine State.Readmits.trans (readmits_foldl (fun s t => readmits_foldl (fun s n => ?_) _ s) _ s) (voteTiles_readmits _)
  dsimp only
  split
  · exact onNode_readmits ..
  · exact State.Readmits.refl s
theorem readmitTree_readmits (g : Group) (n : Nat) (s : State) (t : TreeDef) : s.Readmits (s.readmitTree g n t) := by
  refine readmits_foldl (fun s x => ?_) _ s
  dsimp only
  split
  · exact State.Readmits.refl s
  · split
    · exact onNode_readmits ..
    · split
      · exact onNode_readmits ..
      · exact State.Readmits.trans (onNode_readmits ..) (onNode_readmits ..)
/-- SITE raised on cores by their triads reaches every core listed. -/
theorem raiseCores_site (n : Nat) (l : List Nat) : ∀ s : State, s.Readmits (s.onCores l fun _ c => c.raiseSite n) ∧
    ∀ k ∈ l, ∀ j, ((s.coreAt k).slot j).st ≠ .free → ((s.coreAt k).slot j).paddle = false →
      (((s.onCores l fun _ c => c.raiseSite n).coreAt k).slot j).pend.getLsbD 5 = true := by
  induction l with
  | nil => exact fun s => ⟨State.Readmits.refl s, fun k h => absurd h List.not_mem_nil⟩
  | cons i l ih =>
    intro s
    have first : s.Readmits (s.onCore i fun c => c.raiseSite n) := onCore_readmits i fun c => (raiseSite_pends c n).1
    obtain ⟨rest, all⟩ := ih (s.onCore i fun c => c.raiseSite n)
    refine ⟨first.trans rest, fun k hk j hs hp => ?_⟩
    rcases List.mem_cons.mp hk with rfl | hk
    · refine ((rest.cores k).2.2 j).2.2 ?_
      rw [coreAt_onCore, if_pos rfl]
      exact (raiseSite_pends _ n).2 j hs hp
    · obtain ⟨held, paddle, _⟩ := (first.cores k).2.2 j
      exact all k hk j (held hs) (paddle.trans hp)
theorem raiseSite_site (i n : Nat) : s.Readmits (s.raiseSite i n) ∧ ∀ k ∈ (s.group i).cores, s.live k = true →
    ∀ j, ((s.coreAt k).slot j).st ≠ .free → ((s.coreAt k).slot j).paddle = false →
      (((s.raiseSite i n).coreAt k).slot j).pend.getLsbD 5 = true := by
  obtain ⟨raised, all⟩ := raiseCores_site n ((s.group i).cores.filter s.live) s
  have voted := voteTiles_readmits (s := s.onCores ((s.group i).cores.filter s.live) fun _ c => c.raiseSite n)
    (sitesOf ((s.group i).cores.filter s.live))
  exact ⟨raised.trans voted, fun k hk hl j hs hp =>
    ((voted.cores k).2.2 j).2.2 (all k (List.mem_filter.mpr ⟨hk, hl⟩) j hs hp)⟩
theorem readmitGroup_site (i n : Nat) : s.Readmits (s.readmitGroup i n) ∧
    ((s.group i).st = .running → n ∈ (s.group i).healed → ∀ k ∈ (s.group i).cores, s.live k = true →
      ∀ j, ((s.coreAt k).slot j).st ≠ .free → ((s.coreAt k).slot j).paddle = false →
        (((s.readmitGroup i n).coreAt k).slot j).pend.getLsbD 5 = true) := by
  unfold State.readmitGroup
  dsimp only
  split
  · next h =>
    refine ⟨State.Readmits.refl s, fun hr hn => ?_⟩
    rw [List.contains_iff_mem.mpr hn] at h
    exact absurd (h.resolve_left fun e => e hr) (by decide)
  · have trees := State.Readmits.trans (loadTrees_readmits (s := s) (s.group i) fun k => siteOf k == n)
      (readmits_foldl (readmitTree_readmits (s.group i) n) ((s.group i).image.trees (s.group i).var) _)
    generalize List.foldl _ (s.loadTrees _ _) _ = u at trees ⊢
    obtain ⟨raised, all⟩ := raiseSite_site (s := u) i n
    refine ⟨trees.trans raised, fun _ _ k hk hl j hs hp => ?_⟩
    obtain ⟨held, paddle, _⟩ := (trees.cores k).2.2 j
    exact all k ((trees.group i).symm ▸ hk) (trees.live hl) j (held hs) (paddle.trans hp)
/-- Every group of a list takes the site back, and its live cores take SITE. -/
theorem readmitGroups_site (n : Nat) (l : List Nat) : ∀ s : State, s.Readmits (l.foldl (fun s i => s.readmitGroup i n) s) ∧
    ∀ i ∈ l, (s.group i).st = .running → n ∈ (s.group i).healed → ∀ k ∈ (s.group i).cores, s.live k = true →
      ∀ j, ((s.coreAt k).slot j).st ≠ .free → ((s.coreAt k).slot j).paddle = false →
        (((l.foldl (fun s i => s.readmitGroup i n) s).coreAt k).slot j).pend.getLsbD 5 = true := by
  induction l with
  | nil => exact fun s => ⟨State.Readmits.refl s, fun i h => absurd h List.not_mem_nil⟩
  | cons x l ih =>
    intro s
    obtain ⟨first, here⟩ := readmitGroup_site (s := s) x n
    obtain ⟨rest, all⟩ := ih (s.readmitGroup x n)
    refine ⟨first.trans rest, fun i hi hr hn k hk hl j hs hp => ?_⟩
    rcases List.mem_cons.mp hi with rfl | hi
    · exact ((rest.cores k).2.2 j).2.2 (here hr hn k hk hl j hs hp)
    · obtain ⟨held, paddle, _⟩ := (first.cores k).2.2 j
      have same := first.group i
      exact all i hi (same ▸ hr) (same ▸ hn) k (same ▸ hk) (first.live hl) j (held hs) (paddle.trans hp)
end
end Sys2Proof.Machine
end

section

/-! Slices and links, switches of lane classes, routers, ports and routes (O50). -/

namespace Sys2Proof.Machine

/-! ## Links (R312-R315) -/

section
variable {s : State} {i : Nat}
theorem onLink_same (s : State) (i : Nat) (f : Link → Link) : (s.onLink i f).link i = f (s.link i) := by rw [link_onLink, if_pos rfl]
theorem releaseQueued_still (s : State) : Still s s.releaseQueued := ⟨rfl, rfl, rfl, rfl, rfl, rfl⟩
/-- The voted transactions that follow a change of a link leave links and packets as they are. -/
theorem linkSeen_still (s : State) (i : Nat) :
    Still s (s.linkSeen i) ∧ (s.linkSeen i).net = s.net ∧ ∀ j, (s.linkSeen i).link j = s.link j := by
  obtain ⟨frame, _⟩ := voteTiles_same ((linkSites i).filter s.siteLive) s
  refine ⟨(voteTiles_reported _).1, ?_, fun j => ?_⟩
  all_goals
    unfold State.linkSeen
    rw [frame]
  rfl
/-- A link is changed, and its change seen. -/
theorem onLink_seen (s : State) (i : Nat) (f : Link → Link) : Still s ((s.onLink i f).linkSeen i) ∧
    ((s.onLink i f).linkSeen i).net = s.net ∧ ((s.onLink i f).linkSeen i).link i = f (s.link i) := by
  obtain ⟨still, net, link⟩ := linkSeen_still (s.onLink i f) i
  exact ⟨(onLink_still ..).trans still, net.trans (onLink_net ..), (link i).trans (onLink_same ..)⟩

theorem linkReplay_due (fails : Nat) (good : BitVec 8) (hi : i < 1932) (hc : (s.link i).carries = true) (hf : 8 ≤ fails) :
    exec (.linkReplay i fails good) s = .next ((s.onLink i fun l => l.sliceTest i fails (good &&& allSlices i) s.clock.ticks).linkSeen i) := by
  refine congrArg Host.Outcome.next (if_neg ?_)
  simp only [isLink, hi, decide_true, hc, Bool.not_true, Bool.false_eq_true, false_or]
  omega
theorem sliceTest_dies (l : Link) {fails now : Nat} {good : BitVec 8} (h : l.slices &&& good = 0 ∨ 8 < fails) :
    (l.sliceTest i fails good now).st = .dead ∧ (l.sliceTest i fails good now).slices = l.slices &&& good := by
  unfold Link.sliceTest
  dsimp only
  rw [if_pos h]
  exact ⟨rfl, rfl⟩
theorem sliceTest_sheds (l : Link) {fails now : Nat} {good : BitVec 8} (h0 : l.slices &&& good ≠ 0) (hf : fails ≤ 8)
    (hs : l.slices &&& good ≠ l.slices) : (l.sliceTest i fails good now).slices = l.slices &&& good ∧
      (l.sliceTest i fails good now).st = (if l.slices &&& good = allSlices i then .up else .degraded) := by
  unfold Link.sliceTest
  dsimp only
  rw [if_neg (not_or.mpr ⟨h0, Nat.not_lt.mpr hf⟩), if_neg hs]
  exact ⟨rfl, rfl⟩
theorem linkReplay_spec (fails : Nat) (good : BitVec 8) (hi : i < 1932) (hc : (s.link i).carries = true) :
    let left := (s.link i).slices &&& good &&& allSlices i
    (fails < 8 → Completes (.linkReplay i fails good) s fun t => t = s) ∧
    (fails = 8 → left = 0 → Completes (.linkReplay i fails good) s fun t => Still s t ∧ (t.link i).st = .dead ∧
      (t.link i).slices = 0 ∧ t.net = s.net) ∧
    (fails = 8 → left ≠ 0 → left ≠ (s.link i).slices → Completes (.linkReplay i fails good) s fun t => Still s t ∧
      (t.link i).slices = left ∧ (t.link i).st = (if left = allSlices i then .up else .degraded) ∧ t.net = s.net) ∧
    (8 < fails → Completes (.linkReplay i fails good) s fun t => Still s t ∧ (t.link i).st = .dead) := by
  intro left
  obtain ⟨still, net, link⟩ := onLink_seen s i fun l => l.sliceTest i fails (good &&& allSlices i) s.clock.ticks
  have test : (s.link i).slices &&& (good &&& allSlices i) = left := (BitVec.and_assoc ..).symm
  refine ⟨fun h => ⟨s, congrArg Host.Outcome.next (if_pos (.inr (.inr h))), rfl⟩, fun h h0 => ?_, fun h h0 hs => ?_, fun h => ?_⟩
  · obtain ⟨st, slices⟩ := sliceTest_dies (i := i) (s.link i) (fails := fails) (now := s.clock.ticks) (.inl (test.trans h0))
    exact ⟨_, linkReplay_due fails good hi hc (by omega), still, (congrArg Link.st link).trans st,
      (congrArg Link.slices link).trans (slices.trans (test.trans h0)), net⟩
  · obtain ⟨slices, st⟩ := sliceTest_sheds (i := i) (s.link i) (now := s.clock.ticks) (test ▸ h0) (le_of_eq h) (test ▸ hs)
    exact ⟨_, linkReplay_due fails good hi hc (by omega), still, (congrArg Link.slices link).trans (slices.trans test),
      (congrArg Link.st link).trans (st.trans (by rw [test])), net⟩
  · obtain ⟨st, _⟩ := sliceTest_dies (i := i) (s.link i) (now := s.clock.ticks) (good := good &&& allSlices i) (.inr h)
    exact ⟨_, linkReplay_due fails good hi hc (by omega), still, (congrArg Link.st link).trans st⟩
theorem sliceRetest_spec (good : BitVec 8) (hi : i < 1932) (hs : (s.link i).st = .degraded) :
    (s.clock.ticks < (s.link i).since + 2 ^ 20 → Completes (.sliceRetest i good) s fun t => t = s) ∧
    ((s.link i).since + 2 ^ 20 ≤ s.clock.ticks → Completes (.sliceRetest i good) s fun t => Still s t ∧
      (t.link i).slices = ((s.link i).slices ||| good) &&& allSlices i ∧
      ((t.link i).st = .up ↔ ((s.link i).slices ||| good) &&& allSlices i = allSlices i)) := by
  refine ⟨fun h => ⟨s, congrArg Host.Outcome.next (if_pos (.inr (.inr h))), rfl⟩, fun h => ?_⟩
  obtain ⟨still, _, link⟩ := onLink_seen s i fun l =>
    l.onSlices i ((l.slices ||| good) &&& allSlices i) s.clock.ticks
  refine ⟨_, congrArg Host.Outcome.next (if_neg ?_), still, ?_, ?_⟩
  · simp only [isLink, hi, decide_true, hs, Bool.not_true, Bool.false_eq_true, false_or, ne_eq, not_true_eq_false]
    omega
  · exact congrArg Link.slices link
  · rw [congrArg Link.st link]
    unfold Link.onSlices
    split
    · next e => simp [e]
    · next e => simp [e]
/-- A dead link after a retrain in which some slices passed, or none (R315). -/
def Link.retrained (l : Link) (i : Nat) (ok : BitVec 8) (peer : BitVec 10) (pport : BitVec 4) (hops now : Nat) : Link :=
  let l := if l.st = .dead then { l with retrain := min 255 (l.retrain + 1), since := now } else l
  if ok = 0 then l
  else (if i < 1920 then { l with turn := [3, 1, 0, 2] } else { l with peer := peer, pport := pport, hops := hops }).onSlices i ok now
theorem retrained_dead {l : Link} (ok : BitVec 8) (peer : BitVec 10) (pport : BitVec 4) (hops now : Nat) (h : l.st = .dead) :
    (l.retrained i ok peer pport hops now).retrain = min 255 (l.retrain + 1) ∧
    ((l.retrained i ok peer pport hops now).st = .dead ↔ ok = 0) ∧
    (ok ≠ 0 → (l.retrained i ok peer pport hops now).slices = ok) := by
  unfold Link.retrained
  rw [if_pos h]
  dsimp only
  by_cases e : ok = 0
  · rw [if_pos e]
    exact ⟨rfl, ⟨fun _ => e, fun _ => h⟩, fun c => absurd e c⟩
  · rw [if_neg e]
    unfold Link.onSlices
    refine ⟨?_, ?_, fun _ => rfl⟩
    · dsimp only
      split <;> rfl
    · simp only [e, iff_false]
      split <;> exact LinkSt.noConfusion
/-- A dead link between LIVE sites after a retrain: packets held for its boundary go on when some slice passed. -/
def State.relinked (s : State) (i : Nat) (ok : BitVec 8) (peer : BitVec 10) (pport : BitVec 4) (hops : Nat) : State :=
  let t := s.onLink i fun l => l.retrained i ok peer pport hops s.clock.ticks
  (if (decide (i < 1920) && ok != 0) = true then t.releaseQueued else t).linkSeen i
theorem relinked_link (ok : BitVec 8) (peer : BitVec 10) (pport : BitVec 4) (hops : Nat) : Still s (s.relinked i ok peer pport hops) ∧
    (s.relinked i ok peer pport hops).link i = (s.link i).retrained i ok peer pport hops s.clock.ticks := by
  have link := onLink_same s i fun l => l.retrained i ok peer pport hops s.clock.ticks
  have still := onLink_still (s := s) i fun l => l.retrained i ok peer pport hops s.clock.ticks
  unfold State.relinked
  dsimp only
  split
  · obtain ⟨seen, _, links⟩ := linkSeen_still (s.onLink i fun l => l.retrained i ok peer pport hops s.clock.ticks).releaseQueued i
    exact ⟨(still.trans (releaseQueued_still _)).trans seen, (links i).trans link⟩
  · obtain ⟨seen, _, links⟩ := linkSeen_still (s.onLink i fun l => l.retrained i ok peer pport hops s.clock.ticks) i
    exact ⟨still.trans seen, (links i).trans link⟩
theorem linkRetrain_exec (good : BitVec 8) (peer : BitVec 10) (pport : BitVec 4) (hops : Nat) (hi : i < 1932)
    (hl : s.linkLive i = true) (hs : (s.link i).st = .dead) : exec (.linkRetrain i good peer pport hops) s = .next (
      if (s.link i).since + 2 ^ 24 ≤ s.clock.ticks then s.relinked i (good &&& allSlices i) peer pport hops else s) := by
  by_cases h : (s.link i).since + 2 ^ 24 ≤ s.clock.ticks
  · refine congrArg Host.Outcome.next ((if_neg ?_).trans (if_pos h).symm)
    simp only [isLink, hi, hl, hs, decide_true, Bool.not_true, Bool.false_eq_true, false_or, not_false_eq_true, decide_eq_true h]
  · refine congrArg Host.Outcome.next ((if_pos (.inr (.inr ?_))).trans (if_neg h).symm)
    simp only [hs, decide_eq_false h, Bool.not_false]
theorem linkRetrain_spec (good : BitVec 8) (peer : BitVec 10) (pport : BitVec 4) (hops : Nat) (hi : i < 1932)
    (hl : s.linkLive i = true) (hs : (s.link i).st = .dead) :
    (s.clock.ticks < (s.link i).since + 2 ^ 24 → Completes (.linkRetrain i good peer pport hops) s fun t => t = s) ∧
    ((s.link i).since + 2 ^ 24 ≤ s.clock.ticks → Completes (.linkRetrain i good peer pport hops) s fun t => Still s t ∧
      (t.link i).retrain = min 255 ((s.link i).retrain + 1) ∧
      ((t.link i).st = .dead ↔ good &&& allSlices i = 0) ∧
      (good &&& allSlices i ≠ 0 → (t.link i).slices = good &&& allSlices i)) := by
  have exe := linkRetrain_exec good peer pport hops hi hl hs
  refine ⟨fun h => ⟨s, ?_, rfl⟩, fun h => ?_⟩
  · rw [exe, if_neg (by omega)]
  · obtain ⟨still, link⟩ := relinked_link (s := s) (i := i) (good &&& allSlices i) peer pport hops
    rw [if_pos h] at exe
    refine ⟨_, exe, still, ?_⟩
    rw [link]
    exact retrained_dead _ peer pport hops _ hs
end

/-! ## Switches of lane classes (R320, R343) -/

theorem releaseQueued_site (s : State) (n : Nat) : s.releaseQueued.site n = s.site n := rfl
/-- A site has one lane class fewer to switch, and the packets held for it go on. -/
def State.switched (s : State) (n : Nat) (r : List (BitVec 2)) : State :=
  (s.onSite n fun t => { t with switches := r }).releaseQueued
section
variable {s : State} {n : Nat} {c : BitVec 2} {r : List (BitVec 2)}
theorem switched_switches (s : State) (n : Nat) (r : List (BitVec 2)) : ((s.switched n r).site n).switches = r := by
  rw [State.switched, releaseQueued_site, site_onSite, if_pos rfl]
theorem switched_other {m : Nat} (h : m ≠ n) : (s.switched n r).site m = s.site m := by
  rw [State.switched, releaseQueued_site, site_onSite, if_neg h]
theorem switched_st : ((s.switched n r).site n).st = (s.site n).st := by
  rw [State.switched, releaseQueued_site, site_onSite, if_pos rfl]
theorem switched_still : Still s (s.switched n r) := ⟨rfl, rfl, rfl, rfl, rfl, rfl⟩
theorem switched_keeps : s.Keeps (s.switched n r) :=
  (onSite_keeps ⟨rfl, rfl, rfl, rfl⟩).trans { State.Keeps.refl (s.onSite n fun t => { t with switches := r }) with }
/-- The state once the site's lane class is switched: a LIVE one's lane 2 at once (R343 step 2). -/
def State.afterSwitch (s : State) (n : Nat) (c : BitVec 2) (r : List (BitVec 2)) : State :=
  (if (s.site n).st = .live ∧ c = 2 then s.holeLane2 n else s).switched n r
theorem routeSwitch_own (h : (s.site n).switches = c :: r) (d : BitVec 2) : exec (.routeSwitch d n) s =
    if c ≠ d ∨ (s.onOldPath n d = true ∧ (!decide ((s.site n).st = .live ∧ d = 2)) = true) then .next s
    else .next (if r = [] ∧ ((s.afterSwitch n d r).site n).st = .live ∧ (!computeSite n) = true then
      (s.afterSwitch n d r).groupIds.foldl (fun s i => s.readmitGroup i n) (s.afterSwitch n d r) else s.afterSwitch n d r) := by
  change execRouteSwitch d n s = _
  unfold execRouteSwitch
  rw [h]
  rfl
theorem routeSwitch_waits (h : (s.site n).switches = c :: r) (ho : s.onOldPath n c = true) (hh : ¬ ((s.site n).st = .live ∧ c = 2)) :
    Completes (.routeSwitch c n) s fun t => t = s :=
  ⟨s, (routeSwitch_own h c).trans (if_pos (.inr ⟨ho, by rw [decide_eq_false hh]; rfl⟩)), rfl⟩
theorem routeSwitch_otherClass (h : (s.site n).switches = c :: r) {d : BitVec 2} (hd : d ≠ c) :
    Completes (.routeSwitch d n) s fun t => t = s := ⟨s, (routeSwitch_own h d).trans (if_pos (.inl hd.symm)), rfl⟩
theorem routeSwitch_next (h : (s.site n).switches = c :: r) (ho : s.onOldPath n c = false) (hh : ¬ ((s.site n).st = .live ∧ c = 2))
    (hb : ¬ (r = [] ∧ (s.site n).st = .live ∧ computeSite n = false)) : Completes (.routeSwitch c n) s fun t => Still s t ∧
      (t.site n).switches = r ∧ (∀ m, m ≠ n → t.site m = s.site m) := by
  have exe := routeSwitch_own h c
  have after : s.afterSwitch n c r = s.switched n r := by rw [State.afterSwitch, if_neg hh]
  rw [if_neg (by simp [ho]), after, switched_st, if_neg (by simpa using hb)] at exe
  exact ⟨_, exe, switched_still, switched_switches .., fun m hm => switched_other hm⟩
theorem afterSwitch_keeps : s.Keeps (s.afterSwitch n c r) ∧ (s.afterSwitch n c r).here = s.here := by
  unfold State.afterSwitch
  split
  · obtain ⟨holed, here⟩ := holeLane2_keeps (s := s) n
    exact ⟨holed.trans switched_keeps, here⟩
  · exact ⟨switched_keeps, rfl⟩
theorem routeSwitch_own_spec (h : (s.site n).switches = c :: r)
    (ho : ((s.site n).st = .live ∧ c = 2) ∨ s.onOldPath n c = false) : Completes (.routeSwitch c n) s fun t => SameRegs s t ∧ SameStore s t ∧
      (t.site n).switches = r ∧
      ((r = [] ∧ (s.site n).st = .live ∧ computeSite n = false) → ∀ i ∈ s.groupIds, (s.group i).st = .running → n ∈ (s.group i).healed →
        ∀ k ∈ (s.group i).cores, s.live k = true → ∀ j, ((s.coreAt k).slot j).st ≠ .free → ((s.coreAt k).slot j).paddle = false →
          ((t.coreAt k).slot j).pend.getLsbD 5 = true) := by
  have exe := routeSwitch_own h c
  rw [if_neg (by rcases ho with ho | ho <;> simp [ho])] at exe
  obtain ⟨keeps, here⟩ := afterSwitch_keeps (s := s) (n := n) (c := c) (r := r)
  have switches : ((s.afterSwitch n c r).site n).switches = r := switched_switches ..
  generalize s.afterSwitch n c r = u at exe keeps here switches
  obtain ⟨readmits, all⟩ := readmitGroups_site n u.groupIds u
  split at exe
  · refine ⟨_, exe, ⟨readmits.here.trans here, fun k => ?_⟩, keeps.store.trans readmits.store, (readmits.switches n).trans switches,
      fun _ i hi hr hn k hk hl j hs hp => ?_⟩
    · obtain ⟨regs, eng, _⟩ := (keeps.cores k).trans (readmits.cores k)
      exact ⟨regs, eng⟩
    · obtain ⟨held, paddle, _⟩ := (keeps.cores k).2.2 j
      have same := keeps.group i
      have ids : u.groupIds = s.groupIds := by rw [State.groupIds, keeps.groups, State.groupIds]
      exact all i (ids ▸ hi) (same ▸ hr) (same ▸ hn) k (same ▸ hk) (keeps.live hl) j (held hs) (paddle.trans hp)
  · next hb =>
    refine ⟨_, exe, ⟨here, fun k => ?_⟩, keeps.store, switches, fun back => ?_⟩
    · obtain ⟨regs, eng, _⟩ := keeps.cores k
      exact ⟨regs, eng⟩
    · obtain ⟨rest, live, bank⟩ := back
      exact absurd ⟨rest, (keeps.sites n live).1.trans live, by rw [bank]; rfl⟩ hb
theorem onOldPath_iff (s : State) (c : BitVec 2) (n : Nat) : s.onOldPath n c = true ↔
    (∃ p ∈ s.net, p.lane = c.toNat ∧ (siteOf p.dst = n ∨ crosses n p.entry p.dst = true)) ∨
    (c = 2 ∧ ∃ e ∈ s.bursts, ∃ j, e.2.dest.node = some j ∧ (siteOf j = n ∨ crosses n e.1 j = true)) := by
  simp only [State.onOldPath, Bool.or_eq_true, Bool.and_eq_true, List.any_eq_true, beq_iff_eq, Option.any_eq_true]
theorem routeSwitch_reseed (h : (s.site n).switches = []) (hr : (s.site n).reroutes = c :: r) (d : BitVec 2) :
    exec (.routeSwitch d n) s = if c ≠ d ∨ s.onOldPath n d = true ∨ (d = 2 ∧ s.atWork n = true) then .next s
      else .next (s.onSite n fun t => { t with reroutes := r }).releaseQueued := by
  change execRouteSwitch d n s = _
  unfold execRouteSwitch
  rw [h, hr]
theorem routeSwitch_reseed_spec (h : (s.site n).switches = []) (hr : (s.site n).reroutes = c :: r) :
    (s.onOldPath n c = true ∨ (c = 2 ∧ s.atWork n = true) → Completes (.routeSwitch c n) s fun t => t = s) ∧
    (s.onOldPath n c = false → (c = 2 → s.atWork n = false) → Completes (.routeSwitch c n) s fun t => Still s t ∧
      (t.site n).reroutes = r ∧ (∀ m, m ≠ n → t.site m = s.site m)) ∧
    (∀ d, d ≠ c → Completes (.routeSwitch d n) s fun t => t = s) := by
  have exe := routeSwitch_reseed h hr
  refine ⟨fun w => ⟨s, (exe c).trans (if_pos (.inr w)), rfl⟩, fun ho hw => ⟨_, (exe c).trans (if_neg ?_), ⟨rfl, rfl, rfl, rfl, rfl, rfl⟩,
    ?_, fun m hm => by rw [releaseQueued_site, site_onSite, if_neg hm]⟩, fun d hd => ⟨s, (exe d).trans (if_pos (.inl hd.symm)), rfl⟩⟩
  · rintro (e | e | ⟨two, work⟩)
    · exact e rfl
    · simp [ho] at e
    · simp [hw two] at work
  · rw [releaseQueued_site, site_onSite, if_pos rfl]
theorem routeSwitch_noLink (h : (s.site n).switches = []) (hr : (s.site n).reroutes = []) (hi : s.turningLink n c = none) :
    exec (.routeSwitch c n) s = .next s := by
  change execRouteSwitch c n s = _
  unfold execRouteSwitch
  rw [h, hr, hi]
theorem routeSwitch_link {i : Nat} (h : (s.site n).switches = []) (hr : (s.site n).reroutes = []) (hi : s.turningLink n c = some i) :
    exec (.routeSwitch c n) s = if s.onOldLink i c = true then .next s
      else .next (s.onLink i fun l => { l with turn := l.turn.drop 1 }).releaseQueued := by
  change execRouteSwitch c n s = _
  unfold execRouteSwitch
  rw [h, hr, hi]
theorem routeSwitch_link_spec (h : (s.site n).switches = []) (hr : (s.site n).reroutes = []) (c : BitVec 2) :
    (s.turningLink n c = none → Completes (.routeSwitch c n) s fun t => t = s) ∧
    (∀ i, s.turningLink n c = some i →
      (s.onOldLink i c = true → Completes (.routeSwitch c n) s fun t => t = s) ∧
      (s.onOldLink i c = false → Completes (.routeSwitch c n) s fun t => Still s t ∧
        (t.link i).turn = (s.link i).turn.drop 1 ∧ (∀ j, j ≠ i → t.link j = s.link j) ∧ ∀ m, t.site m = s.site m)) := by
  refine ⟨fun none => ⟨s, routeSwitch_noLink h hr none, rfl⟩, fun i hi =>
    ⟨fun ho => ⟨s, (routeSwitch_link h hr hi).trans (if_pos ho), rfl⟩, fun ho => ?_⟩⟩
  refine ⟨_, (routeSwitch_link h hr hi).trans (if_neg (by simp [ho])), (onLink_still ..).trans (releaseQueued_still _), ?_, fun j hj => ?_, fun m => ?_⟩
  · exact congrArg Link.turn (onLink_same s i _)
  · exact (link_onLink ..).trans (if_neg hj)
  · exact congrArg (tget Site.reset · m) (onLink_sites ..)
end

/-! ## Routers, ports and routes (R22, R23, R329, R331) -/

section
variable {s : State}
theorem routerFailure_spec {p : Place} (hs : p.site < 25) (hr : p.row < 64) (hc : p.col < 33) : Completes (.routerFailure p) s fun t =>
    Still s t ∧ (t.partAt p.site p.row p.col).failed = true ∧ t.nodes = s.nodes ∧
    ∀ n r c, c < 33 → ¬ (n = p.site ∧ r = p.row ∧ c = p.col) → t.partAt n r c = s.partAt n r c := by
  obtain ⟨still, nodes, _⟩ := voteTiles_reported (s := s.onPartAt p.site p.row p.col fun q => { q with failed := true }) [p.site]
  obtain ⟨_, sites⟩ := voteTiles_same [p.site] (s.onPartAt p.site p.row p.col fun q => { q with failed := true })
  have parts (n r c : Nat) : ((s.onPartAt p.site p.row p.col fun q => { q with failed := true }).voteTiles [p.site]).partAt n r c =
      (s.onPartAt p.site p.row p.col fun q => { q with failed := true }).partAt n r c := by
    rw [State.partAt, sites n]
    rfl
  have placed : Still s (s.onPartAt p.site p.row p.col fun q => { q with failed := true }) := ⟨rfl, rfl, rfl, rfl, rfl, rfl⟩
  refine ⟨_, congrArg Host.Outcome.next (if_pos ⟨hs, hr, hc⟩), placed.trans still, ?_, nodes, fun n r c hp hn => ?_⟩
  · rw [parts, partAt_onPartAt s _ hc hc, if_pos ⟨rfl, rfl, rfl⟩]
  · rw [parts, partAt_onPartAt s _ hc hp, if_neg hn]

/-- The draw entry of a region whose site has a memory port of the number (R22). -/
theorem drawPort_region : ∀ p < 24, ∃ d ∈ siteRegions (portSite p), drawPort d = some p ∧
    siteOf (keyOf (8 * (d % 40)) (4 * (d / 40))) = portSite p := by decide
theorem portSite_lt {p : Nat} (h : p < 24) : portSite p < 25 := by
  unfold portSite
  omega
theorem siteLive_iff {n : Nat} (h : n < 25) : s.siteLive n = true ↔ (s.site n).st = .live := by simp [State.siteLive, h]
/-- The table of the ports alone is written. -/
def State.setPort (s : State) (p : Nat) (c : CxlPort) : State :=
  { s with links := { s.links with cxl := tset CxlPort.reset s.links.cxl p c } }
theorem setPort_cxl (p q : Nat) (c : CxlPort) : (s.setPort p c).cxl q = if q = p then c else s.cxl q := tget_tset ..
theorem setPort_still (p : Nat) (c : CxlPort) : Still s (s.setPort p c) := ⟨rfl, rfl, rfl, rfl, rfl, rfl⟩
/-- The draw entry of a region of a LIVE site, with the bit that says whether its port serves (R22). -/
def State.drawnWith (s : State) (d ports : Nat) : BitVec 16 :=
  BitVec.ofNat 16 ((if ((drawKeys d).any fun k => s.bound k && (s.part k).suspect) = true then 16384 else 0) + ports +
    (if computeSite (siteOf (keyOf (8 * (d % 40)) (4 * (d / 40)))) then (drawKeys d).countP fun k => s.bound k
      else 64 * (drawKeys d).countP fun k => s.bound k))
theorem drawEntry_live {d p : Nat} (hd : drawPort d = some p) (hl : (s.site (siteOf (keyOf (8 * (d % 40)) (4 * (d / 40))))).st = .live) :
    s.drawEntry d = s.drawnWith d (if s.memoryPort p = true then 4096 else 0) := by
  unfold State.drawEntry State.drawnWith
  simp only [hl, hd, ne_eq, not_true_eq_false, if_false]
theorem drawnWith_ne (s : State) (d : Nat) : s.drawnWith d 4096 ≠ s.drawnWith d 0 := by
  intro e
  have e := congrArg BitVec.toNat e
  simp only [State.drawnWith, BitVec.toNat_ofNat] at e
  omega
theorem drawEntry_port {d p : Nat} {c : CxlPort} (hd : drawPort d = some p)
    (hl : (s.site (siteOf (keyOf (8 * (d % 40)) (4 * (d / 40))))).st = .live) (hc : (s.setPort p c).memoryPort p ≠ s.memoryPort p) :
    (s.setPort p c).drawEntry d ≠ s.drawEntry d := by
  have turned := drawEntry_live (s := s.setPort p c) hd hl
  have same (x : Nat) : (s.setPort p c).drawnWith d x = s.drawnWith d x := rfl
  rw [turned, same, drawEntry_live hd hl]
  cases h : s.memoryPort p <;> cases h' : (s.setPort p c).memoryPort p <;> simp only [h, h', ne_eq, not_true_eq_false] at hc
  · exact drawnWith_ne s d
  · exact (drawnWith_ne s d).symm
theorem drawEntry_congr {p : Nat} {c : CxlPort} (h : ∀ q, (s.setPort p c).memoryPort q = s.memoryPort q) (d : Nat) :
    (s.setPort p c).drawEntry d = s.drawEntry d := by
  unfold State.drawEntry
  simp only [h]
  rfl
theorem memoryPort_setPort {p q : Nat} {c : CxlPort} : (s.setPort p c).memoryPort q =
    (!((if q = p then c else s.cxl q).host) && (if q = p then c else s.cxl q).trained && decide ((s.site (portSite q)).st = .live)) := by
  rw [State.memoryPort, setPort_cxl]
  rfl
/-- The draw map is written anew at most once, and nothing else (R22). -/
theorem redrawn_map (s old : State) (ds : List Nat) : Still s (s.redrawn old ds) ∧ (s.redrawn old ds).links = s.links ∧
    ((∃ d ∈ ds, s.drawEntry d ≠ old.drawEntry d) → (s.redrawn old ds).lead.drawGen = s.lead.drawGen + 2) ∧
    ((∀ d ∈ ds, s.drawEntry d = old.drawEntry d) → (s.redrawn old ds).lead.drawGen = s.lead.drawGen) := by
  unfold State.redrawn
  have differs : (ds.any fun d => s.drawEntry d != old.drawEntry d) = true ↔ ∃ d ∈ ds, s.drawEntry d ≠ old.drawEntry d := by simp
  split
  · next h =>
    refine ⟨⟨rfl, rfl, rfl, rfl, rfl, rfl⟩, rfl, fun _ => rfl, fun e => ?_⟩
    obtain ⟨d, hd, hne⟩ := differs.mp h
    exact absurd (e d hd) hne
  · next h => exact ⟨⟨rfl, rfl, rfl, rfl, rfl, rfl⟩, rfl, fun e => absurd (differs.mpr e) h, fun _ => rfl⟩
/-- What says where the draw map stands is as before, and the links. -/
def State.sameMap (s t : State) : Prop := Still s t ∧ t.links = s.links ∧ t.lead.drawGen = s.lead.drawGen
theorem sameMap_refl (s : State) : s.sameMap s := ⟨⟨rfl, rfl, rfl, rfl, rfl, rfl⟩, rfl, rfl⟩
theorem onKern_sameMap (i : Nat) (f : Kern → Kern) : s.sameMap (s.onKern i f) := ⟨⟨rfl, rfl, rfl, rfl, rfl, rfl⟩, rfl, rfl⟩
/-- Kernels kept once are copied anew: their entries alone change (R261). -/
theorem recopy_sameMap (s : State) : s.sameMap s.recopy := by
  refine foldl_related (R := State.sameMap) sameMap_refl (fun h g => ⟨h.1.trans g.1, g.2.1.trans h.2.1, g.2.2.trans h.2.2⟩)
    (fun s i => ?_) _ s
  dsimp only
  split
  · split
    · exact onKern_sameMap ..
    · exact sameMap_refl s
  · exact sameMap_refl s
/-- A port at which a device is attached or gone; it is trained where its site is LIVE (R331). -/
def State.turnPort (s : State) (p : Nat) (b : Bool) : State :=
  s.setPort p { s.cxl p with attached := b, trained := b && s.siteLive (portSite p) }
section
variable {p : Nat} {b : Bool}
theorem turnPort_same : ((s.turnPort p b).cxl p).attached = b ∧ ((s.turnPort p b).cxl p).trained = (b && s.siteLive (portSite p)) := by
  rw [State.turnPort, setPort_cxl, if_pos rfl]
  exact ⟨rfl, rfl⟩
theorem turnPort_other {q : Nat} (h : q ≠ p) : (s.turnPort p b).cxl q = s.cxl q := by rw [State.turnPort, setPort_cxl, if_neg h]
theorem turnPort_draws (hp : p < 24) (hh : (s.cxl p).host = false) (hl : s.siteLive (portSite p) = true) (ht : (s.cxl p).trained ≠ b) :
    ∃ d ∈ siteRegions (portSite p), (s.turnPort p b).drawEntry d ≠ s.drawEntry d := by
  obtain ⟨d, hd, port, site⟩ := drawPort_region p hp
  have live := (siteLive_iff (portSite_lt hp)).mp hl
  refine ⟨d, hd, drawEntry_port port (site ▸ live) ?_⟩
  rw [memoryPort_setPort, if_pos rfl, State.memoryPort, hl, live, hh]
  simpa using ht.symm
theorem turnPort_dark (hp : p < 24) (hl : s.siteLive (portSite p) = false) (d : Nat) : (s.turnPort p b).drawEntry d = s.drawEntry d := by
  refine drawEntry_congr (fun q => ?_) d
  rw [memoryPort_setPort]
  by_cases hq : q = p
  · have dark : (s.site (portSite p)).st ≠ .live := fun e => by simp [(siteLive_iff (portSite_lt hp)).mpr e] at hl
    rw [hq, State.memoryPort, decide_eq_false dark, Bool.and_false, Bool.and_false]
  · rw [if_neg hq, State.memoryPort]
theorem cxlTraining_spec (hp : p < 24) (hh : (s.cxl p).host = false) :
    ((s.cxl p).attached ≠ b → Completes (.cxlLinkTrainingChange p b) s fun t => Still s t ∧ (t.cxl p).attached = b ∧
      (t.cxl p).trained = (b && s.siteLive (portSite p)) ∧ (∀ q, q ≠ p → t.cxl q = s.cxl q) ∧
      (s.siteLive (portSite p) = true → s.leadUp = true → (s.cxl p).trained ≠ b → t.lead.drawGen = s.lead.drawGen + 2) ∧
      (s.siteLive (portSite p) = false → t.lead.drawGen = s.lead.drawGen)) ∧
    ((s.cxl p).attached = b → Completes (.cxlLinkTrainingChange p b) s fun t => t = s) := by
  refine ⟨fun hb => ?_, fun hb => ⟨s, if_pos (.inr (.inr hb)), rfl⟩⟩
  have exe : exec (.cxlLinkTrainingChange p b) s = .next ((s.turnPort p b).redrawn s (siteRegions (portSite p))).recopy := by
    refine if_neg ?_
    simp only [hh, Bool.false_eq_true, false_or, not_or]
    exact ⟨by omega, hb⟩
  have turned : Still s (s.turnPort p b) := setPort_still ..
  have gen : (s.turnPort p b).lead.drawGen = s.lead.drawGen := rfl
  obtain ⟨drawn, links, twice, once⟩ := redrawn_map (s.turnPort p b) s (siteRegions (portSite p))
  obtain ⟨copied, links', gen'⟩ := recopy_sameMap ((s.turnPort p b).redrawn s (siteRegions (portSite p)))
  have cxl (q : Nat) : ((s.turnPort p b).redrawn s (siteRegions (portSite p))).recopy.cxl q = (s.turnPort p b).cxl q := by
    rw [State.cxl, links', links, State.cxl]
  refine ⟨_, exe, (turned.trans drawn).trans copied, ?_, ?_, fun q hq => (cxl q).trans (turnPort_other hq), fun hl _ ht => ?_, fun hl => ?_⟩
  · rw [cxl, turnPort_same.1]
  · rw [cxl, turnPort_same.2]
  · rw [gen', twice (turnPort_draws hp hh hl ht), gen]
  · rw [gen', once fun d _ => turnPort_dark hp hl d, gen]
end
theorem routingWrite_spec (d : BitVec 16) (sys : BitVec 10) (v : BitVec 16) (hw : s.windowOpen = true) (hl : s.leadUp = true) :
    (d ≠ 0 → Completes (.panelRoutingWrite d sys v) s fun t => t.links = s.links ∧ Still s t) ∧
    (d = 0 → Completes (.panelRoutingWrite d sys v) s fun t => Still s t ∧
      tget 0 t.links.routing sys.toNat = (if 12 ≤ v.toNat % 16 then v &&& 0x000F else v &&& 0x800F) ∧
      (∀ j, j ≠ sys.toNat → tget 0 t.links.routing j = tget 0 s.links.routing j)) := by
  have exe : exec (.panelRoutingWrite d sys v) s = .next (if d = 0 then s.openWindowOnce.writeRouting sys.toNat v else s.openWindowOnce) :=
    congrArg Host.Outcome.next (if_pos (by rw [hw, hl]; rfl))
  have opened : Still s s.openWindowOnce ∧ s.openWindowOnce.links = s.links := ⟨⟨rfl, rfl, rfl, rfl, rfl, rfl⟩, rfl⟩
  refine ⟨fun hd => ⟨_, exe.trans (congrArg Host.Outcome.next (if_neg hd)), opened.2, opened.1⟩, fun hd => ?_⟩
  have written : s.openWindowOnce.writeRouting sys.toNat v = { s.openWindowOnce with links := { s.openWindowOnce.links with
      routing := tset 0 s.openWindowOnce.links.routing sys.toNat (routingEntry v) } } := if_pos sys.isLt
  rw [if_pos hd, written] at exe
  exact ⟨_, exe, ⟨rfl, rfl, rfl, rfl, rfl, rfl⟩, tget_tset_self .., fun j hj => (tget_tset ..).trans (if_neg hj)⟩
end

/-- Settles O50: the links' slices and retrains, the switches of lane classes, routers, ports and routes. -/
theorem linksAndRoutes : Obligations.LinksAndRoutes := by
  refine ⟨fun s i fails good => linkReplay_spec fails good, fun s i good => sliceRetest_spec good,
    fun s i good peer pport hops => linkRetrain_spec good peer pport hops,
    fun s c n r h => ⟨routeSwitch_waits h, routeSwitch_next h, routeSwitch_own_spec h, fun d => routeSwitch_otherClass h⟩,
    onOldPath_iff, fun s c n r => routeSwitch_reseed_spec, fun s c n h hr => routeSwitch_link_spec h hr c,
    fun s p => routerFailure_spec, fun s p b => cxlTraining_spec, fun s d sys v => routingWrite_spec d sys v⟩
end Sys2Proof.Machine
end

section

/-! The canonical form of memory (log entry 3): tables that are shifted or spliced, then every operation, row, input and step. -/

namespace Sys2Proof.Machine

/-! ## Tables in canonical form -/

section
variable {α : Type} [DecidableEq α] {d : α} {t m : Tbl α}
omit [DecidableEq α] in
theorem tsorted_iff {lo : Nat} {t : Tbl α} : tsorted lo t = true ↔ (∀ e ∈ t, lo ≤ e.1) ∧ t.Pairwise fun a b => a.1 < b.1 := by
  induction t generalizing lo with
  | nil => simp [tsorted]
  | cons e r ih =>
    simp only [tsorted, Bool.and_eq_true, decide_eq_true_eq, ih, List.forall_mem_cons, List.pairwise_cons]
    grind
theorem twf_iff : twf d t = true ↔ (t.Pairwise fun a b => a.1 < b.1) ∧ ∀ e ∈ t, e.2 ≠ d := by
  simp [twf, tsorted_iff]
/-- A table whose keys are moved in their order stays canonical. -/
theorem twf_shift {f : Nat → Nat} (h : twf d t = true) (hf : ∀ a ∈ t, ∀ b ∈ t, a.1 < b.1 → f a.1 < f b.1) :
    twf d (t.map fun e => (f e.1, e.2)) = true := by
  obtain ⟨rising, values⟩ := twf_iff.mp h
  refine twf_iff.mpr ⟨?_, List.forall_mem_map.mpr values⟩
  exact List.pairwise_map.mpr (rising.imp_of_mem fun {a b} ha hb => hf a ha b hb)
/-- A range of keys of a canonical table in whose place another canonical table stands. -/
theorem twf_splice {lo hi : Nat} (ht : twf d t = true) (hm : twf d m = true) (within : ∀ e ∈ m, lo ≤ e.1 ∧ e.1 < hi)
    (le : lo ≤ hi) :
    twf d (t.filter (fun e => decide (e.1 < lo)) ++ m ++ t.filter fun e => decide (hi ≤ e.1)) = true := by
  obtain ⟨rising, values⟩ := twf_iff.mp ht
  obtain ⟨rising', values'⟩ := twf_iff.mp hm
  refine twf_iff.mpr ⟨?_, by grind⟩
  refine List.pairwise_append.mpr ⟨List.pairwise_append.mpr ⟨rising.filter _, rising', by grind⟩, rising.filter _, by grind⟩
theorem twf_cells (m : Image) (v : Nat) : twf unlistedByte (m.cells v) = true := by
  have loaded (l : List Sect) : ∀ c, twf unlistedByte c = true →
      twf unlistedByte (l.foldl (fun c t => putBytes c t.load t.body) c) = true := by
    induction l with
    | nil => exact fun _ => id
    | cons t l ih => exact fun c h => ih _ (twf_putBytes _ _ _ h)
  exact loaded _ [] rfl
end

/-! ## Memory that stays in canonical form -/

/-- A body's state, if it gives one, has its memory in canonical form. -/
def Res.memOk (r : Res) : Prop := ∀ t, r = .ok t → t.memOk
/-- A row's next state has its memory in canonical form. -/
def NextMemOk (o : Host.Outcome State Fault Refusal) : Prop := ∀ t, o = .next t → t.memOk

section
variable {s : State} {k n : Nat} {c : Cause} {v : BitVec 64}
/-- What stands beside the bytes and the owner tags has no part in the canonical form. -/
theorem mk_memOk {here core peers pois nodes net queued out clock sites power lead pages links boat agenda met draws} (h : s.memOk) :
    (State.mk here core peers s.mem pois s.tags nodes net queued out clock sites power lead pages links boat agenda met draws).memOk := h
theorem ok_memOk : (Res.ok s).memOk ↔ s.memOk := ⟨fun h => h s rfl, fun h _ e => by cases e; exact h⟩
theorem trap_memOk : (Res.trap c v).memOk := fun _ e => nomatch e
theorem hold_memOk : Res.hold.memOk := fun _ e => nomatch e
theorem next_memOk : NextMemOk (.next s) ↔ s.memOk := ⟨fun h => h s rfl, fun h _ e => by cases e; exact h⟩
theorem foldl_memOk {α : Type} {f : State → α → State} (hf : ∀ s x, s.memOk → (f s x).memOk) (l : List α) :
    ∀ {s : State}, s.memOk → (l.foldl f s).memOk := by
  induction l with
  | nil => exact id
  | cons x l ih => exact fun h => ih (hf _ x h)

/-! ### Cores and the operations -/

theorem setCore_memOk {c : Core} (h : s.memOk) : (s.setCore k c).memOk := by
  unfold State.setCore
  split <;> exact h
theorem onCore_memOk {f : Core → Core} (h : s.memOk) : (s.onCore k f).memOk := setCore_memOk h
theorem onCores_memOk {ks : List Nat} {f : Nat → Core → Core} (h : s.memOk) : (s.onCores ks f).memOk :=
  foldl_memOk (fun _ _ => onCore_memOk) ks h
theorem moveTo_memOk (h : s.memOk) (k : Nat) : (s.moveTo k).memOk := by
  unfold State.moveTo
  split <;> exact h
theorem select_memOk (h : s.memOk) : (s.select k).memOk := by
  unfold State.select
  grind [moveTo_memOk]
theorem atCore_memOk {f : State → State} (h : s.memOk) (hf : ∀ {t : State}, t.memOk → (f t).memOk) : (s.atCore k f).memOk :=
  moveTo_memOk (hf (moveTo_memOk h k)) s.here
theorem tick_memOk (h : s.memOk) : s.tick.memOk := h
theorem mapCores_memOk {f : Core → Core} (h : s.memOk) : (s.mapCores f).memOk := h
theorem freshCores_memOk (h : s.memOk) : (s.freshCores n).memOk := h
theorem onNode_memOk {k f} (h : s.memOk) : (s.onNode k f).memOk := h
theorem onSite_memOk {n f} (h : s.memOk) : (s.onSite n f).memOk := h
theorem onGroup_memOk {i f} (h : s.memOk) : (s.onGroup i f).memOk := h
theorem onCtl_memOk {f : Ctl → Ctl} (h : s.memOk) : (s.onCtl f).memOk := h
theorem onRegs_memOk {f : Regs → Regs} (h : s.memOk) : (s.onRegs f).memOk := h
theorem onEng_memOk {f : Engines → Engines} (h : s.memOk) : (s.onEng f).memOk := h
theorem onSh_memOk {f : Shared → Shared} (h : s.memOk) : (s.onSh f).memOk := h
theorem note_memOk {e} (h : s.memOk) : (s.note e).memOk := h
theorem setG_memOk {r v p} (h : s.memOk) : (s.setG r v p).memOk := h
theorem setV_memOk {r x} (h : s.memOk) : (s.setV r x).memOk := h
theorem setM_memOk {r x} (h : s.memOk) : (s.setM r x).memOk := h
theorem orFlags_memOk {f} (h : s.memOk) : (s.orFlags f).memOk := h
theorem count_memOk {e} (h : s.memOk) : (s.count e).memOk := h
theorem onPartAt_memOk {n row p f} (h : s.memOk) : (s.onPartAt n row p f).memOk := h
theorem onPart_memOk {k f} (h : s.memOk) : (s.onPart k f).memOk := h
theorem onQuad_memOk {q f} (h : s.memOk) : (s.onQuad q f).memOk := h
theorem unsend_memOk {n} (h : s.memOk) : (s.unsend n).memOk := h
theorem send_memOk {p} (h : s.memOk) : (s.send p).memOk := by
  unfold State.send
  grind [mk_memOk]
theorem releaseQueued_memOk (h : s.memOk) : s.releaseQueued.memOk := h
theorem fire_memOk {old k off n p st} (h : s.memOk) : (s.fire old k off n p st).memOk := by
  unfold State.fire
  grind [onNode_memOk, send_memOk, foldl_memOk]
theorem wakeFlags_memOk {k off n} (h : s.memOk) : (s.wakeFlags k off n).memOk := by
  unfold State.wakeFlags
  extract_lets
  split
  · exact h
  · exact setCore_memOk h
theorem write_memOk {k off bs p} (h : s.memOk) : (s.write k off bs p).memOk := by
  unfold State.write
  grind [writeOf_memOk]
theorem store_memOk {off bs p} (h : s.memOk) : (s.store off bs p).memOk := by
  unfold State.store
  grind [storeOf_memOk]
theorem commit_memOk {n} (h : s.memOk) : (s.commit n).memOk := h
theorem commitTo_memOk {pc} (h : s.memOk) : (s.commitTo pc).memOk := h
theorem onQueue_memOk {q f} (h : s.memOk) : (s.onQueue q f).memOk := h
theorem hostWrite_memOk {a bs} (h : s.memOk) : (s.hostWrite a bs).memOk := poke_memOk _ _ _ _ h
theorem complete_memOk {q c st gid} (h : s.memOk) : (s.complete q c st gid).memOk := onQueue_memOk (hostWrite_memOk h)
theorem completeCurrent_memOk {q st} (h : s.memOk) : (s.completeCurrent q st).memOk := by
  unfold State.completeCurrent
  grind [complete_memOk]
theorem endSuspend_memOk {i st} (h : s.memOk) : (s.endSuspend i st).memOk := by
  unfold State.endSuspend
  grind [completeCurrent_memOk, foldl_memOk]
theorem onUmpire_memOk {u f} (h : s.memOk) : (s.onUmpire u f).memOk := h
theorem closeWindowAt_memOk {k} (h : s.memOk) : (s.closeWindowAt k).memOk := by
  unfold State.closeWindowAt
  grind [onUmpire_memOk]
theorem closeWindow_memOk (h : s.memOk) : s.closeWindow.memOk := by
  unfold State.closeWindow
  grind [closeWindowAt_memOk]
theorem closeWindows_memOk {ks} (h : s.memOk) : (s.closeWindows ks).memOk := by
  unfold State.closeWindows
  grind [closeWindowAt_memOk, foldl_memOk]
theorem output_memOk {n} (h : s.memOk) : (s.output n).memOk := by
  unfold State.output
  grind [onUmpire_memOk]
theorem onTriad_memOk {n f} (h : s.memOk) : (s.onTriad n f).memOk := h
theorem vote_memOk {n} (h : s.memOk) : (s.vote n).memOk := h
theorem voteTiles_memOk {ns} (h : s.memOk) : (s.voteTiles ns).memOk := by
  unfold State.voteTiles
  grind [vote_memOk, foldl_memOk]
theorem coxWrites_memOk {ks f} (h : s.memOk) : (s.coxWrites ks f).memOk := by
  unfold State.coxWrites
  grind [onCores_memOk, voteTiles_memOk]
theorem faultGroup_memOk {i} (h : s.memOk) : (s.faultGroup i).memOk := by
  unfold State.faultGroup
  grind [onGroup_memOk, note_memOk, endSuspend_memOk, closeWindows_memOk, coxWrites_memOk]
theorem coreFault_memOk {c v} (h : s.memOk) : (s.coreFault c v).memOk := by
  have stopped (e : LogEntry) : ({ s.closeWindow with core :=
      { s.closeWindow.core.trapSlots with ctl := { s.closeWindow.core.ctl with issue := .stopped } } }.note e).memOk :=
    closeWindow_memOk h
  unfold State.coreFault
  grind [faultGroup_memOk]
theorem takeTrap_memOk {c v resume} (h : s.memOk) : (s.takeTrap c v resume).memOk := by
  unfold State.takeTrap
  grind [onCtl_memOk, count_memOk, closeWindow_memOk, coreFault_memOk]
theorem takeAsync_memOk {b resume} (h : s.memOk) : (s.takeAsync b resume).memOk := by
  unfold State.takeAsync
  grind [mk_memOk, takeTrap_memOk]
theorem takePending_memOk (h : s.memOk) : s.takePending.memOk := by
  unfold State.takePending
  grind [takeAsync_memOk]
theorem enterScheduler_memOk {code resume} (h : s.memOk) : (s.enterScheduler code resume).memOk := by
  unfold State.enterScheduler
  grind [onCtl_memOk, closeWindow_memOk]
theorem leaveS_memOk (h : s.memOk) : s.leaveS.memOk := h
theorem holdIssue_memOk (h : s.memOk) : s.holdIssue.memOk := h
theorem finish_memOk {n} {r : Res} (h : s.memOk) (hr : r.memOk) : NextMemOk (s.finish n r) := by
  cases r with
  | ok t => exact next_memOk.mpr (commit_memOk (hr t rfl))
  | trap c v => exact next_memOk.mpr (takeTrap_memOk h)
  | hold => exact next_memOk.mpr (holdIssue_memOk h)
theorem block_memOk {w} (h : s.memOk) : (s.block w).memOk := by
  unfold State.block
  grind [mk_memOk, enterScheduler_memOk]
theorem blockOrHold_memOk {w} (h : s.memOk) : (s.blockOrHold w).memOk := by
  unfold State.blockOrHold
  grind [holdIssue_memOk, block_memOk]
theorem status_memOk {d v} (h : s.memOk) : (s.status d v).memOk := h
theorem legal_memOk {i} {r : Res} (hr : r.memOk) : (s.legal i r).memOk := by
  unfold State.legal
  grind [trap_memOk]
theorem consume_memOk {r} {k : Res} (hk : k.memOk) : (s.consume r k).memOk := by
  unfold State.consume
  grind [trap_memOk]
theorem portStore_memOk {k q} (h : s.memOk) : (s.portStore k q).memOk := by
  unfold State.portStore
  grind [retag_memOk, writeOf_memOk]
theorem putWord_memOk {owner e i w} (h : s.memOk) : (s.putWord owner e i w).memOk := by
  unfold State.putWord
  grind [poke_memOk, retag_memOk, write_memOk]
theorem putWords_memOk {owner e} (l : List (Nat × Bool)) : ∀ {s : State} {i}, s.memOk → (s.putWords owner e i l).memOk := by
  induction l with
  | nil => exact id
  | cons w r ih => exact fun h => ih (putWord_memOk h)
theorem landFlight_memOk {owner f} (h : s.memOk) : (s.landFlight owner f).memOk := by
  unfold State.landFlight
  grind [putWords_memOk]
theorem landWords_memOk {ws} (h : s.memOk) : (s.landWords ws).memOk := by
  unfold State.landWords
  grind [onSh_memOk, landFlight_memOk, foldl_memOk]
theorem portPerform_memOk {k j} (h : s.memOk) : (s.portPerform k j).memOk := by
  unfold State.portPerform
  grind [onCore_memOk, portStore_memOk]
theorem portServe_memOk {k i} (h : s.memOk) : (s.portServe k i).memOk := by
  unfold State.portServe
  grind [portPerform_memOk]
theorem portUntil_memOk {k i} (h : s.memOk) : (s.portUntil k i).memOk := by
  unfold State.portUntil
  grind [portServe_memOk, foldl_memOk]
theorem portTurns_memOk {k ws} (n : Nat) : ∀ {s : State}, s.memOk → (s.portTurns k ws n).memOk := by
  induction n with
  | zero => exact fun h => onCore_memOk (portUntil_memOk h)
  | succ n ih =>
    intro s h
    unfold State.portTurns
    extract_lets t
    have ht : t.memOk := portUntil_memOk h
    split
    · exact ih (portPerform_memOk ht)
    · exact onCore_memOk ht
theorem portRead_memOk {k ws} (h : s.memOk) : (s.portRead k ws).memOk := by
  unfold State.portRead
  grind [landWords_memOk, portTurns_memOk]
theorem drainStores_memOk (h : s.memOk) : s.drainStores.memOk := by
  unfold State.drainStores
  grind [portRead_memOk, foldl_memOk]
theorem forgetAhead_memOk {k ws} (h : s.memOk) : (s.forgetAhead k ws).memOk := h
theorem fenceAhead_memOk (h : s.memOk) : s.fenceAhead.memOk := h
theorem countDirect_memOk {n} (h : s.memOk) : (s.countDirect n).memOk := h
theorem putLate_memOk {r x p} (h : s.memOk) : (s.putLate r x p).memOk := by
  unfold State.putLate
  grind [setG_memOk, setV_memOk]
theorem takeRead_memOk {q} (h : s.memOk) : (s.takeRead q).memOk := by
  unfold State.takeRead
  grind [portRead_memOk, putLate_memOk]
theorem takeIf_memOk {p} (h : s.memOk) : (s.takeIf p).memOk := by
  unfold State.takeIf
  grind [onSh_memOk, takeRead_memOk, foldl_memOk]
theorem takeLate_memOk (h : s.memOk) : s.takeLate.memOk := by
  unfold State.takeLate
  grind [takeIf_memOk]
theorem takeWords_memOk {ws} (h : s.memOk) : (s.takeWords ws).memOk := by
  unfold State.takeWords
  grind [takeIf_memOk]
theorem putOff_memOk {l} (h : s.memOk) : (s.putOff l).memOk := h
theorem orLate_memOk {s t : State} {l} {r : Res} (h : t.memOk) (hr : r.memOk) : (s.orLate l t r).memOk := by
  unfold State.orLate
  grind [putOff_memOk, ok_memOk]
theorem loadWord_memOk {k off n} (h : s.memOk) : (s.loadWord k off n).1.memOk := by
  unfold State.loadWord
  extract_lets ws t u
  have ht : t.memOk := takeWords_memOk h
  split
  · exact forgetAhead_memOk ht
  · exact forgetAhead_memOk (portRead_memOk ht)
theorem loadWords_memOk {k} (n : Nat) : ∀ {s : State} {off}, s.memOk → (s.loadWords k off n).1.memOk := by
  induction n with
  | zero => exact id
  | succ n ih => exact fun h => ih (loadWord_memOk h)
theorem loadAt_memOk {p n} (h : s.memOk) : (s.loadAt p n).1.memOk := by
  unfold State.loadAt
  split
  · exact h
  · have hc := countDirect_memOk (n := (n + 7) / 8) h
    extract_lets
    split
    · exact loadWord_memOk hc
    · exact loadWords_memOk _ hc
  · exact h
theorem queueOf_memOk {st k off bs p} (h : s.memOk) : (s.queueOf st k off bs p).memOk := by
  unfold State.queueOf
  grind [onCore_memOk, output_memOk, forgetAhead_memOk, countDirect_memOk, takeWords_memOk]
theorem storeTo_memOk {st p bs q} (h : s.memOk) : (s.storeTo st p bs q).memOk := by
  unfold State.storeTo
  grind [storeOf_memOk, queueOf_memOk]
theorem storeAt_memOk {p bs q} (h : s.memOk) : (s.storeAt p bs q).memOk := by
  unfold State.storeAt
  grind [storeTo_memOk]
theorem checked_memOk {a n} {f : Path → Res} (hf : ∀ p, (f p).memOk) : (s.checked a n f).memOk := by
  unfold State.checked
  grind [trap_memOk]
theorem checkedLoad_memOk {a n f} (hf : ∀ x, (f x).memOk) : (s.checkedLoad a n f).memOk := by
  unfold State.checkedLoad
  grind [checked_memOk, hold_memOk]
theorem checkedOwn_memOk {a n} {f : Nat → Res} (hf : ∀ p, (f p).memOk) : (s.checkedOwn a n f).memOk := by
  unfold State.checkedOwn
  grind [trap_memOk]
theorem put_memOk {d v p f} (h : s.memOk) : (s.put d v p f).memOk := by
  unfold State.put
  grind [setG_memOk, orFlags_memOk, ok_memOk]
theorem alu2_memOk {d a b f} (h : s.memOk) : (s.alu2 d a b f).memOk := by
  unfold State.alu2
  grind [setG_memOk, ok_memOk]
theorem alu1_memOk {d a f} (h : s.memOk) : (s.alu1 d a f).memOk := by
  unfold State.alu1
  grind [setG_memOk, ok_memOk]
theorem vlanes_memOk {d m w p reads f} (h : s.memOk) : (s.vlanes d m w p reads f).memOk := by
  unfold State.vlanes
  grind [setV_memOk, orFlags_memOk, ok_memOk]
theorem onLink_memOk {i f} (h : s.memOk) : (s.onLink i f).memOk := by
  unfold State.onLink
  grind [mk_memOk]
theorem redraw_memOk (h : s.memOk) : s.redraw.memOk := h
theorem redrawn_memOk {old ds} (h : s.memOk) : (s.redrawn old ds).memOk := by
  unfold State.redrawn
  grind [redraw_memOk]
theorem crOpen_memOk {n r} (hr : r.memOk) : (s.crOpen n r).memOk := by
  unfold State.crOpen
  grind [trap_memOk]
theorem crrdBody_memOk {d n} (h : s.memOk) : (crrdBody d n s).memOk := by
  unfold crrdBody
  grind [setG_memOk, legal_memOk, crOpen_memOk, ok_memOk]
theorem crrdSeamtBody_memOk {d a} (h : s.memOk) : (crrdSeamtBody d a s).memOk := by
  unfold crrdSeamtBody
  grind [setG_memOk, consume_memOk, ok_memOk, trap_memOk]
theorem atS_memOk {s t : State} (h : s.memOk) (ht : t.memOk) : (s.atS t).memOk := by
  unfold State.atS
  grind [ok_memOk]
theorem crWrite_memOk {n v} (h : s.memOk) : (s.crWrite n v).memOk := by
  unfold State.crWrite
  grind [onCtl_memOk]
theorem execCrwr_memOk {a n} (h : s.memOk) : NextMemOk (execCrwr a n s) :=
  finish_memOk h (legal_memOk (crOpen_memOk (consume_memOk (atS_memOk h (crWrite_memOk h)))))
theorem execCrwrFpcr_memOk {a} (h : s.memOk) : NextMemOk (execCrwrFpcr a s) := by
  unfold execCrwrFpcr
  grind [onRegs_memOk, finish_memOk, consume_memOk, ok_memOk]
theorem execCrwrTid_memOk {a} (h : s.memOk) : NextMemOk (execCrwrTid a s) := by
  unfold execCrwrTid
  grind [onCtl_memOk, finish_memOk, consume_memOk, atS_memOk]
theorem onSlot_memOk {f} (h : s.memOk) : (s.onSlot f).memOk := h
theorem execCrwrTcmp_memOk {a} (h : s.memOk) : NextMemOk (execCrwrTcmp a s) := by
  unfold execCrwrTcmp
  grind [finish_memOk, consume_memOk, atS_memOk, onSlot_memOk]
theorem execCrwrPrio_memOk {a} (h : s.memOk) : NextMemOk (execCrwrPrio a s) := by
  unfold execCrwrPrio
  grind [mk_memOk, finish_memOk, consume_memOk, atS_memOk]
theorem execCrwrTstat_memOk {a} (h : s.memOk) : NextMemOk (execCrwrTstat a s) := by
  unfold execCrwrTstat
  grind [finish_memOk, consume_memOk, crOpen_memOk, atS_memOk, onSlot_memOk]
theorem execCrwrRigs_memOk {a} (h : s.memOk) : NextMemOk (execCrwrRigs a s) := by
  refine finish_memOk h (consume_memOk ?_)
  split
  · exact trap_memOk
  · exact atS_memOk h (onRegs_memOk h)
theorem execCrwrSscr_memOk {a} (h : s.memOk) : NextMemOk (execCrwrSscr a s) := by
  unfold execCrwrSscr
  grind [onCtl_memOk, finish_memOk, crOpen_memOk, atS_memOk]
theorem onlyS_memOk {r} (hr : r.memOk) : (s.onlyS r).memOk := by
  unfold State.onlyS
  grind [trap_memOk]
theorem slotOperand_memOk {a k} (hk : ∀ x, (k x).memOk) : (s.slotOperand a k).memOk := by
  unfold State.slotOperand
  grind [consume_memOk, trap_memOk]
theorem settlePaddle_memOk {i} (h : s.memOk) : (s.settlePaddle i).memOk := by
  unfold State.settlePaddle
  grind [mk_memOk, releaseTags_memOk]
theorem execTqpush_memOk {d a p} (h : s.memOk) : NextMemOk (execTqpush d a p s) := by
  unfold execTqpush
  grind [mk_memOk, finish_memOk, status_memOk, onlyS_memOk, slotOperand_memOk, settlePaddle_memOk, ok_memOk]
theorem execTqpop_memOk {d} (h : s.memOk) : NextMemOk (execTqpop d s) := by
  unfold execTqpop
  grind [mk_memOk, finish_memOk, status_memOk, onlyS_memOk, ok_memOk]
theorem haltAt_memOk {i} (h : s.memOk) : (s.haltAt i).2.memOk := by
  unfold State.haltAt
  cases (s.core.slot i).st
  case retired => exact releaseTags_memOk _ _ _ h
  all_goals exact h
theorem execHalt_memOk (h : s.memOk) : NextMemOk (execHalt s) := by
  unfold execHalt
  grind [mk_memOk, count_memOk, commit_memOk, enterScheduler_memOk, haltAt_memOk, next_memOk]
theorem execHaltSlot_memOk {a} (h : s.memOk) : NextMemOk (execHaltSlot a s) := by
  unfold execHaltSlot
  grind [finish_memOk, status_memOk, onlyS_memOk, slotOperand_memOk, haltAt_memOk, ok_memOk]
theorem openWindow_memOk (h : s.memOk) : s.openWindow.memOk := by
  unfold State.openWindow
  grind [onUmpire_memOk]
theorem setAside_memOk {i} (h : s.memOk) : (s.setAside i).memOk := by
  unfold State.setAside
  grind [mk_memOk, settlePaddle_memOk]
theorem deliverWake_memOk {i} (h : s.memOk) : (s.deliverWake i).memOk := by
  unfold State.deliverWake
  grind [mk_memOk, setG_memOk, fenceAhead_memOk]
theorem deliverFlags_memOk {i} (h : s.memOk) : (s.deliverFlags i).memOk := h
theorem sret_memOk (h : s.memOk) : s.sret.memOk := by
  have passes {t : State} (ht : t.memOk) (i) : (((t.deliverFlags i).leaveS.openWindow).count 2).takePending.memOk :=
    takePending_memOk (count_memOk (openWindow_memOk (leaveS_memOk (deliverFlags_memOk ht))))
  unfold State.sret
  extract_lets i
  split
  · exact passes (deliverWake_memOk (mk_memOk (setAside_memOk h))) i
  · exact passes (mk_memOk h) i
  all_goals exact takeTrap_memOk h
theorem execSret_memOk (h : s.memOk) : NextMemOk (execSret s) := by
  unfold execSret
  grind [takeTrap_memOk, sret_memOk, next_memOk]
theorem execYield_memOk (h : s.memOk) : NextMemOk (execYield s) := by
  unfold execYield
  grind [mk_memOk, count_memOk, commit_memOk, enterScheduler_memOk, settlePaddle_memOk, next_memOk]
theorem execSleep_memOk {d} (h : s.memOk) : NextMemOk (execSleep d s) := by
  unfold execSleep
  grind [mk_memOk, onCtl_memOk, count_memOk, commit_memOk, enterScheduler_memOk, status_memOk, next_memOk]
theorem execIdleIssueResume_memOk {cox} (h : s.memOk) : NextMemOk (execIdleIssueResume cox s) := by
  unfold execIdleIssueResume
  grind [commit_memOk, status_memOk, next_memOk]
theorem execTimerExpiry_memOk {i} (h : s.memOk) : NextMemOk (execTimerExpiry i s) := by
  unfold execTimerExpiry
  grind [mk_memOk, next_memOk]
theorem execAsyncTrapEntry_memOk (h : s.memOk) : NextMemOk (execAsyncTrapEntry s) := by
  unfold execAsyncTrapEntry
  grind [takePending_memOk, next_memOk]
theorem execTrap_memOk {i} (h : s.memOk) : NextMemOk (execTrap i s) := by
  unfold execTrap
  grind [takeTrap_memOk, next_memOk]
theorem execIllegalInstruction_memOk {p0} (h : s.memOk) : NextMemOk (execIllegalInstruction p0 s) := by
  unfold execIllegalInstruction
  grind [takeTrap_memOk, next_memOk]
theorem execPoisonedFetch_memOk (h : s.memOk) : NextMemOk (execPoisonedFetch s) := by
  unfold execPoisonedFetch
  grind [takeTrap_memOk, next_memOk]
theorem writeFlits_memOk {k t} (l : List (List (BitVec 8))) : ∀ {s : State} {i}, s.memOk → (s.writeFlits k t i l).memOk := by
  induction l with
  | nil => exact id
  | cons f r ih => exact fun h => ih (retag_memOk _ _ _ _ (write_memOk h))
theorem enqueueMsg_memOk {k i info aux payload inRound} (h : s.memOk) : (s.enqueueMsg k i info aux payload inRound).memOk := by
  unfold State.enqueueMsg
  grind [onCore_memOk, writeFlits_memOk]
theorem late_memOk {k i p} (h : s.memOk) : (s.late k i p).memOk := by
  unfold State.late
  grind [onCore_memOk, note_memOk]
theorem launchPacket_memOk {p} (h : s.memOk) : (s.launchPacket p).memOk := by
  unfold State.launchPacket
  grind [mk_memOk, send_memOk, output_memOk]
theorem answered_memOk {n p kind status} (h : s.memOk) : (s.answered n p kind status).memOk := by
  unfold State.answered
  grind [unsend_memOk, send_memOk]
theorem onEntry_memOk {k gid chan f} (h : s.memOk) : (s.onEntry k gid chan f).memOk := h
theorem deliverNotice_memOk {k p} (h : s.memOk) : (s.deliverNotice k p).memOk := by
  unfold State.deliverNotice
  grind [enqueueMsg_memOk]
theorem notify_memOk {k present p} (h : s.memOk) : (s.notify k present p).memOk := by
  unfold State.notify
  grind [send_memOk, deliverNotice_memOk, foldl_memOk]
theorem onFin_memOk {k gid chan round f} (h : s.memOk) : (s.onFin k gid chan round f).memOk := h
theorem dropFin_memOk {k gid chan round} (h : s.memOk) : (s.dropFin k gid chan round).memOk := h
theorem writeBlock_memOk {k w idx b} (h : s.memOk) : (s.writeBlock k w idx b).memOk := by
  unfold State.writeBlock
  grind [write_memOk]
theorem foldBuffer_memOk {k e b} (h : s.memOk) : (s.foldBuffer k e b).memOk := by
  unfold State.foldBuffer
  grind [onNode_memOk, send_memOk, notify_memOk, onFin_memOk, writeBlock_memOk]
theorem execTreeBlockDelivery_memOk {n} (h : s.memOk) : NextMemOk (execTreeBlockDelivery n s) := by
  have reply {t : State} (ht : t.memOk) (p k st) : (t.answered n p k st).memOk := answered_memOk ht
  unfold execTreeBlockDelivery
  split
  · exact next_memOk.mpr h
  · extract_lets k idx reply'
    split
    · exact next_memOk.mpr h
    · grind [next_memOk, onNode_memOk, onEntry_memOk, foldBuffer_memOk]
theorem treeReplied_memOk {p} (h : s.memOk) : (s.treeReplied p).memOk := by
  unfold State.treeReplied
  grind [onNode_memOk, onFin_memOk]
theorem treeFinishArrives_memOk {n p} (h : s.memOk) : (s.treeFinishArrives n p).memOk := by
  unfold State.treeFinishArrives
  grind [answered_memOk, onFin_memOk]
theorem execTreeFinishForward_memOk {k gid chan round} (h : s.memOk) : NextMemOk (execTreeFinishForward k gid chan round s) := by
  unfold execTreeFinishForward
  grind [onNode_memOk, send_memOk, onEntry_memOk, onFin_memOk, dropFin_memOk, next_memOk]
theorem execRootFlagWrite_memOk {k gid chan round} (h : s.memOk) : NextMemOk (execRootFlagWrite k gid chan round s) := by
  have counted (f) : ((s.dropFin k gid chan round).onEntry k gid chan f).memOk := onEntry_memOk (dropFin_memOk h)
  unfold execRootFlagWrite
  grind [write_memOk, onGroup_memOk, next_memOk]
theorem execRenormFromParent_memOk {n} (h : s.memOk) : NextMemOk (execRenormFromParent n s) := by
  unfold execRenormFromParent
  grind [unsend_memOk, notify_memOk, next_memOk]
theorem trapped_memOk {c v} (h : s.memOk) : NextMemOk (s.trapped c v) := by
  unfold State.trapped
  grind [takeTrap_memOk, next_memOk]
theorem held_memOk (h : s.memOk) : NextMemOk s.held := next_memOk.mpr h
theorem done_memOk {d st n} (h : s.memOk) : NextMemOk (s.done d st n) := next_memOk.mpr h
theorem onRun_memOk {f} (h : s.memOk) : (s.onRun f).memOk := h
theorem sendChecks_memOk {d a c l f} (h : s.memOk) (hf : ∀ x, NextMemOk (f x)) : NextMemOk (s.sendChecks d a c l f) := by
  unfold State.sendChecks
  grind [trapped_memOk, done_memOk]
theorem emit_memOk {p} (h : s.memOk) : (s.emit p).memOk := by
  unfold State.emit
  grind [count_memOk, launchPacket_memOk, onRun_memOk]
theorem takeAt_memOk {t} (h : s.memOk) : (s.takeAt t).memOk := by
  unfold State.takeAt
  grind [takeIf_memOk]
theorem sendData_memOk {d c l hh t flits body aux pois} (h : s.memOk) : NextMemOk (s.sendData d c l hh t flits body aux pois) := by
  unfold State.sendData
  grind [done_memOk, onRun_memOk, emit_memOk, takeAt_memOk]
theorem execSend_memOk {d a b c l hh} (h : s.memOk) : NextMemOk (execSend d a b c l hh s) := by
  unfold execSend
  grind [held_memOk, sendChecks_memOk, sendData_memOk]
theorem execSendv_memOk {d a b c l hh} (h : s.memOk) : NextMemOk (execSendv d a b c l hh s) := by
  unfold execSendv
  grind [held_memOk, sendChecks_memOk, sendData_memOk]
theorem execSendr_memOk {d a b c p l hh} (h : s.memOk) : NextMemOk (execSendr d a b c p l hh s) := by
  unfold execSendr
  grind [held_memOk, sendChecks_memOk, sendData_memOk]
theorem execFinish_memOk {d a c l hh} (h : s.memOk) : NextMemOk (execFinish d a c l hh s) := by
  unfold execFinish
  grind [held_memOk, done_memOk, onRun_memOk, sendChecks_memOk, emit_memOk]
theorem execRenorm_memOk {d a b c hh} (h : s.memOk) : NextMemOk (execRenorm d a b c hh s) := by
  unfold execRenorm
  grind [output_memOk, notify_memOk, trapped_memOk, done_memOk]
theorem blocked_memOk {w} (h : s.memOk) : NextMemOk (s.blocked w) := by
  unfold State.blocked
  grind [blockOrHold_memOk, next_memOk]
theorem receive_memOk {a i f} (h : s.memOk) (hf : ∀ u m, u.memOk → (f u m).memOk) : NextMemOk (s.receive a i f) := by
  unfold State.receive
  grind [mk_memOk, setG_memOk, commit_memOk, fenceAhead_memOk, trapped_memOk, blocked_memOk, next_memOk]
theorem execRecv_memOk {d a i} (h : s.memOk) : NextMemOk (execRecv d a i s) := by
  unfold execRecv
  grind [setG_memOk, receive_memOk]
theorem execRecvv_memOk {v a i} (h : s.memOk) : NextMemOk (execRecvv v a i s) := by
  unfold execRecvv
  grind [setV_memOk, receive_memOk]
theorem execPeek_memOk {d i} (h : s.memOk) : NextMemOk (execPeek d i s) := by
  unfold execPeek
  grind [setG_memOk, commit_memOk, trapped_memOk, next_memOk]
theorem execSeatclr_memOk {d i} (h : s.memOk) : NextMemOk (execSeatclr d i s) := by
  unfold execSeatclr
  grind [mk_memOk, done_memOk]
theorem execSeatset_memOk {d a b i} (h : s.memOk) : NextMemOk (execSeatset d a b i s) := by
  unfold execSeatset
  grind [mk_memOk, trapped_memOk, done_memOk]
theorem execJoin_memOk {d a} (h : s.memOk) : NextMemOk (execJoin d a s) := by
  unfold execJoin
  grind [mk_memOk, fenceAhead_memOk, trapped_memOk, done_memOk, blocked_memOk]
theorem execBarr_memOk {d b} (h : s.memOk) : NextMemOk (execBarr d b s) := by
  unfold execBarr
  grind [onSh_memOk, send_memOk, output_memOk, held_memOk, done_memOk]
theorem execBwait_memOk {a b} (h : s.memOk) : NextMemOk (execBwait a b s) := by
  unfold execBwait
  grind [commit_memOk, fenceAhead_memOk, trapped_memOk, blocked_memOk, next_memOk]
theorem execFwait_memOk {a b} (h : s.memOk) : NextMemOk (execFwait a b s) := by
  unfold execFwait
  grind [commit_memOk, fenceAhead_memOk, trapped_memOk, blocked_memOk, next_memOk]
theorem execFence_memOk {p} (h : s.memOk) : NextMemOk (execFence p s) := by
  unfold execFence
  grind [commit_memOk, fenceAhead_memOk, held_memOk, next_memOk]
theorem request_memOk {p} (h : s.memOk) : NextMemOk (s.request p) := by
  unfold State.request
  grind [onSh_memOk, holdIssue_memOk, launchPacket_memOk, next_memOk]
theorem endRpc_memOk (h : s.memOk) : s.endRpc.memOk := h
theorem keepWatch_memOk {a st} (h : s.memOk) : (s.keepWatch a st).memOk := h
theorem execWatch_memOk {d a} (h : s.memOk) : NextMemOk (execWatch d a s) := by
  unfold execWatch
  extract_lets addr
  repeat' split
  all_goals grind [trapped_memOk, held_memOk, done_memOk, request_memOk, endRpc_memOk, keepWatch_memOk]
theorem execWake_memOk {d a} (h : s.memOk) : NextMemOk (execWake d a s) := by
  unfold execWake
  grind [mk_memOk, output_memOk, trapped_memOk, held_memOk, done_memOk, request_memOk, endRpc_memOk]
theorem execSiteq_memOk {d a} (h : s.memOk) : NextMemOk (execSiteq d a s) := by
  unfold execSiteq
  grind [setG_memOk, commit_memOk, trapped_memOk, next_memOk]
theorem coxcall_memOk {a b sOnly r} (h : s.memOk) (hr : NextMemOk r) : NextMemOk (s.coxcall a b sOnly r) := by
  unfold State.coxcall
  grind [trapped_memOk, held_memOk]
theorem answerCall_memOk {d st} (h : s.memOk) : NextMemOk (s.answerCall d st) := next_memOk.mpr h
theorem execCoxcallPoisoned_memOk {d a b} (h : s.memOk) : NextMemOk (execCoxcallPoisoned d a b s) := by
  unfold execCoxcallPoisoned
  grind [note_memOk, coxcall_memOk, answerCall_memOk]
theorem execCoxcallLog_memOk {d a b n} (h : s.memOk) : NextMemOk (execCoxcallLog d a b n s) := by
  unfold execCoxcallLog
  grind [mk_memOk, trapped_memOk, coxcall_memOk, answerCall_memOk]
theorem checkpoint_memOk {n} (h : s.memOk) : (s.checkpoint n).memOk := by
  unfold State.checkpoint
  grind [onGroup_memOk]
theorem execCoxcallCheckpoint_memOk {d a b} (h : s.memOk) : NextMemOk (execCoxcallCheckpoint d a b s) := by
  unfold execCoxcallCheckpoint
  grind [coxcall_memOk, answerCall_memOk, checkpoint_memOk]
theorem fillTile_memOk {n e} (h : s.memOk) : (s.fillTile n e).memOk := h
theorem fillCluster_memOk {k e} (h : s.memOk) : (s.fillCluster k e).memOk := h
theorem fillMicro_memOk {k e} (h : s.memOk) : (s.fillMicro k e).memOk := by
  unfold State.fillMicro
  grind [onCore_memOk]
theorem translateTile_memOk {n dom va need} (h : s.memOk) : (s.translateTile n dom va need).2.memOk := by
  unfold State.translateTile
  grind [fillTile_memOk, vote_memOk]
theorem translate_memOk {k dom va need} (h : s.memOk) : (s.translate k dom va need).2.memOk := by
  have fills {t : State} (ht : t.memOk) (n e) : (((t.fillTile n e).fillCluster k e).fillMicro k e).memOk :=
    fillMicro_memOk (fillCluster_memOk (fillTile_memOk ht))
  unfold State.translate
  grind [fillMicro_memOk, fillCluster_memOk, vote_memOk]
theorem dropTlbs_memOk {dom lo hi} (h : s.memOk) : (s.dropTlbs dom lo hi).memOk := by
  unfold State.dropTlbs
  grind [mk_memOk, mapCores_memOk]
theorem onRec_memOk {n i f} (h : s.memOk) : (s.onRec n i f).memOk := h
theorem faultRecord_memOk {s u : State} {q perm i} (h : s.memOk) (e : s.faultRecord q perm = some (i, u)) : u.memOk := by
  unfold State.faultRecord at e
  grind [onRec_memOk, vote_memOk, onSite_memOk, mk_memOk]
theorem deliverRec_memOk {n i j} (h : s.memOk) : (s.deliverRec n i j).memOk := h
theorem leaveRecords_memOk {k streams} (h : s.memOk) : (s.leaveRecords k streams).memOk := by
  unfold State.leaveRecords
  grind [deliverRec_memOk, foldl_memOk]
theorem performAt_memOk {k} (l : List (List (BitVec 8) × Bool)) : ∀ {s : State} {off}, s.memOk → (s.performAt k off l).2.memOk := by
  induction l with
  | nil => exact id
  | cons b r ih =>
    intro s off h
    unfold State.performAt
    grind [write_memOk]
theorem atomicAt_memOk {k p} (h : s.memOk) : (s.atomicAt k p).2.2.memOk := by
  unfold State.atomicAt
  grind [performAt_memOk]
theorem putFar_memOk {p x} (h : s.memOk) : (s.putFar p x).2.memOk := by
  have put (l : List (List (BitVec 8) × Bool)) : ∀ w : Nat × State, w.2.memOk →
      (l.foldl (fun (w : Nat × State) b => (w.1 + b.1.length, w.2.poke (farKey w.1) b.1 b.2)) w).2.memOk := by
    induction l with
    | nil => exact fun _ => id
    | cons b l ih => exact fun w hw => ih _ (poke_memOk _ _ _ _ hw)
  unfold State.putFar
  grind
theorem execHomeAtomic_memOk {n} (h : s.memOk) : NextMemOk (execHomeAtomic n s) := by
  have hu : (s.unsend n).memOk := unsend_memOk h
  unfold execHomeAtomic
  split
  · exact next_memOk.mpr h
  · extract_lets u
    have hu : u.memOk := hu
    grind [next_memOk, send_memOk, onSite_memOk, onNode_memOk, atomicAt_memOk]
theorem proxyEnds_memOk {site q p st old} (h : s.memOk) : (s.proxyEnds site q p st old).memOk := by
  unfold State.proxyEnds
  grind [onSite_memOk, send_memOk]
theorem execProxyAtomic_memOk {site q} (h : s.memOk) : NextMemOk (execProxyAtomic site q s) := by
  have keep {t : State} (ht : t.memOk) (f p st old) : ((t.onSite site f).proxyEnds site q p st old).memOk :=
    proxyEnds_memOk (onSite_memOk ht)
  unfold execProxyAtomic
  repeat' split
  all_goals grind [next_memOk, onSite_memOk, putFar_memOk, proxyEnds_memOk]
theorem numbered_memOk {p} (h : s.memOk) : (s.numbered p).2.memOk := h
theorem newRequest_memOk {p} (h : s.memOk) : NextMemOk (s.newRequest p) := by
  unfold State.newRequest
  grind [forgetAhead_memOk, takeWords_memOk, held_memOk, request_memOk, numbered_memOk]
theorem atomicDone_memOk {d addr st old q} (h : s.memOk) : NextMemOk (s.atomicDone d addr st old q) := by
  unfold State.atomicDone
  grind [setG_memOk, commit_memOk, trapped_memOk, next_memOk]
theorem refuseAtomic_memOk {addr} (h : s.memOk) : NextMemOk (s.refuseAtomic addr) := by
  unfold State.refuseAtomic
  grind [onSh_memOk, trapped_memOk, held_memOk]
theorem faultAtomic_memOk {q perm addr} (h : s.memOk) : NextMemOk (s.faultAtomic q perm addr) := by
  unfold State.faultAtomic
  grind [held_memOk, faultRecord_memOk, refuseAtomic_memOk]
theorem farAtomic_memOk {x} (h : s.memOk) : NextMemOk (s.farAtomic x) := by
  unfold State.farAtomic
  grind [onSh_memOk, trapped_memOk, held_memOk, translate_memOk, newRequest_memOk, faultAtomic_memOk]
theorem farStep_memOk {x} (h : s.memOk) : NextMemOk (s.farStep x) := by
  unfold State.farStep
  grind [onSh_memOk, trapped_memOk, held_memOk, deliverRec_memOk, farAtomic_memOk]
theorem atomic_memOk {d x} (h : s.memOk) : NextMemOk (s.atomic d x) := by
  unfold State.atomic
  grind [output_memOk, trapped_memOk, held_memOk, endRpc_memOk, atomicAt_memOk, newRequest_memOk, atomicDone_memOk, farStep_memOk]
theorem execAmo_memOk {d a b w o} (h : s.memOk) : NextMemOk (execAmo d a b w o s) := by
  unfold execAmo
  grind [trapped_memOk, atomic_memOk]
theorem execCas_memOk {d a b c w} (h : s.memOk) : NextMemOk (execCas d a b c w s) := by
  unfold execCas
  grind [trapped_memOk, atomic_memOk]
theorem resend_memOk {r} (h : s.memOk) : (s.resend r).memOk := by
  unfold State.resend
  grind [onSh_memOk, launchPacket_memOk]
theorem dropRequests_memOk {f} (h : s.memOk) : (s.dropRequests f).memOk := h
theorem voidRequests_memOk {k serial rids} (h : s.memOk) : (s.voidRequests k serial rids).memOk := by
  unfold State.voidRequests
  grind [onSh_memOk, dropRequests_memOk]
theorem resendBursts_memOk {due} (h : s.memOk) : (s.resendBursts due).memOk := by
  unfold State.resendBursts
  grind [onSh_memOk, launchPacket_memOk, foldl_memOk]
theorem execAtomicResend_memOk (h : s.memOk) : NextMemOk (execAtomicResend s) := by
  unfold execAtomicResend
  grind [resend_memOk, resendBursts_memOk, next_memOk]
theorem execAtomicBusyResend_memOk (h : s.memOk) : NextMemOk (execAtomicBusyResend s) := by
  unfold execAtomicBusyResend
  grind [resend_memOk, resendBursts_memOk, next_memOk]
theorem takeAck_memOk {pan src home low} (h : s.memOk) : (s.takeAck pan src home low).memOk := by
  unfold State.takeAck
  grind [onNode_memOk, onSite_memOk]
theorem execLowAcknowledgement_memOk {n} (h : s.memOk) : NextMemOk (execLowAcknowledgement n s) := by
  unfold execLowAcknowledgement
  grind [onSh_memOk, send_memOk, output_memOk, takeAck_memOk, next_memOk]
theorem setStream_memOk {k t} (h : s.memOk) : (s.setStream k t).memOk := h
theorem execSopen_memOk {d a w c} (h : s.memOk) : NextMemOk (execSopen d a w c s) := by
  refine finish_memOk h (consume_memOk (checkedOwn_memOk fun off => ?_))
  have opened (k t f v) : (((s.setStream k t).onSh f).status d v).memOk := status_memOk (onSh_memOk (setStream_memOk h))
  grind [trap_memOk, ok_memOk, status_memOk]
theorem leaveRecord_memOk {k} (h : s.memOk) : (s.leaveRecord k).memOk := by
  unfold State.leaveRecord
  grind [deliverRec_memOk]
theorem voidAll_memOk {k} (h : s.memOk) : (s.voidAll k).memOk := by
  unfold State.voidAll
  grind [voidRequests_memOk, setStream_memOk]
theorem faultStream_memOk {k cause} (h : s.memOk) : (s.faultStream k cause).memOk := by
  unfold State.faultStream
  grind [mk_memOk, setStream_memOk, leaveRecord_memOk, voidAll_memOk]
theorem farPlace_memOk {t l va} (h : s.memOk) : (s.farPlace t l va).2.memOk := by
  unfold State.farPlace
  grind [translate_memOk]
theorem legEnd_memOk {t l a lc} (h : s.memOk) : (s.legEnd t l a lc).2.memOk := by
  unfold State.legEnd
  grind [farPlace_memOk]
theorem voidLeg_memOk {k pos} (h : s.memOk) : (s.voidLeg k pos).memOk := by
  unfold State.voidLeg
  grind [voidRequests_memOk, setStream_memOk]
theorem stopLeg_memOk {k pos x} (h : s.memOk) : (s.stopLeg k pos x).memOk := by
  have hv : (s.voidLeg k pos).memOk := voidLeg_memOk h
  cases x with
  | fault c => exact faultStream_memOk h
  | later => exact h
  | migrating va => exact setStream_memOk hv
  | wait perm va =>
    simp only [State.stopLeg]
    split
    · exact hv
    · split
      · next e => exact setStream_memOk (faultRecord_memOk hv e)
      · exact setStream_memOk hv
theorem setLeg_memOk {k i l} (h : s.memOk) : (s.setLeg k i l).memOk := h
theorem settleTries_memOk {k old new} (h : s.memOk) : (s.settleTries k old new).memOk := by
  unfold State.settleTries
  grind [setStream_memOk]
theorem beginLeg_memOk {k} (h : s.memOk) : (s.beginLeg k).memOk := by
  unfold State.beginLeg
  grind [setStream_memOk, farPlace_memOk, stopLeg_memOk, settleTries_memOk]
theorem readWord_memOk {k i w} (h : s.memOk) : (s.readWord k i w).memOk := by
  unfold State.readWord
  grind [output_memOk, setStream_memOk, faultStream_memOk, legEnd_memOk, stopLeg_memOk, setLeg_memOk, settleTries_memOk]
theorem putOwn_memOk {k i w} (h : s.memOk) : (s.putOwn k i w).memOk := by
  unfold State.putOwn
  grind [putWord_memOk, stopLeg_memOk, setLeg_memOk]
theorem forgetEnd_memOk {e n} (h : s.memOk) : (s.forgetEnd e n).memOk := by
  unfold State.forgetEnd
  grind [forgetAhead_memOk, takeWords_memOk]
theorem emitBurst_memOk {k i} (h : s.memOk) : (s.emitBurst k i).memOk := by
  have keep {u : State} (hu : u.memOk) (g a b) : ((u.setLeg k i g).settleTries k a b).memOk :=
    settleTries_memOk (setLeg_memOk hu)
  have ends {t l a lc x u} (e : s.legEnd t l a lc = (x, u)) : u.memOk := by
    have := legEnd_memOk (t := t) (l := l) (a := a) (lc := lc) h
    rwa [e] at this
  unfold State.emitBurst
  extract_lets t l lc
  split
  · exact h
  · split
    split
    · next e => exact stopLeg_memOk (ends e)
    · next e =>
      have hu := ends e
      extract_lets keep' u' g fly f
      have hf : u'.memOk := forgetEnd_memOk hu
      split
      · exact keep hu _ _ _
      · split
        · exact launchPacket_memOk (keep (numbered_memOk hf) _ _ _)
        · have ho := output_memOk (n := 1) hf
          grind [faultStream_memOk]
theorem landBurst_memOk {k i j w} (h : s.memOk) : (s.landBurst k i j w).memOk := by
  unfold State.landBurst
  grind [putWord_memOk, faultStream_memOk, setLeg_memOk]
theorem makeMove_memOk {k m} (h : s.memOk) : (s.makeMove k m).memOk := by
  unfold State.makeMove
  grind [beginLeg_memOk, readWord_memOk, putOwn_memOk, emitBurst_memOk, landBurst_memOk]
theorem execStreamLegStart_memOk {k} (h : s.memOk) : NextMemOk (execStreamLegStart k s) := by
  unfold execStreamLegStart
  grind [makeMove_memOk, next_memOk]
theorem burstReplied_memOk {k p} (h : s.memOk) : (s.burstReplied k p).memOk := by
  unfold State.burstReplied
  grind [setStream_memOk, faultStream_memOk]
theorem rewindRecord_memOk {k n i} (h : s.memOk) : (s.rewindRecord k n i).memOk := by
  unfold State.rewindRecord
  grind [deliverRec_memOk, setStream_memOk, faultStream_memOk]
theorem execLegRewind_memOk {k} (h : s.memOk) : NextMemOk (execLegRewind k s) := by
  unfold execLegRewind
  grind [setStream_memOk, rewindRecord_memOk, next_memOk]
theorem doneStream_memOk {k} (h : s.memOk) : (s.doneStream k).memOk := by
  unfold State.doneStream
  grind [mk_memOk, setStream_memOk]
theorem execStreamCompletion_memOk {k} (h : s.memOk) : NextMemOk (execStreamCompletion k s) := by
  unfold execStreamCompletion
  grind [output_memOk, putWord_memOk, faultStream_memOk, forgetEnd_memOk, doneStream_memOk, next_memOk]
theorem retryStreams_memOk (h : s.memOk) : s.retryStreams.memOk := by
  unfold State.retryStreams
  grind [setStream_memOk, beginLeg_memOk, foldl_memOk]
theorem holeStreams_memOk {p} (h : s.memOk) : (s.holeStreams p).memOk := by
  unfold State.holeStreams
  grind [faultStream_memOk, foldl_memOk]
theorem holeAll_memOk {p} (h : s.memOk) : (s.holeAll p).memOk := by
  unfold State.holeAll
  grind [atCore_memOk, holeStreams_memOk, foldl_memOk]
theorem execSctlClose_memOk {d k} (h : s.memOk) : NextMemOk (execSctlClose d k s) := by
  unfold execSctlClose
  grind [done_memOk, setStream_memOk]
theorem execSctlAbort_memOk {d k} (h : s.memOk) : NextMemOk (execSctlAbort d k s) := by
  unfold execSctlAbort
  grind [done_memOk, faultStream_memOk]
theorem execSctlAdvance_memOk {d k} (h : s.memOk) : NextMemOk (execSctlAdvance d k s) := by
  unfold execSctlAdvance
  grind [onSh_memOk, done_memOk, setStream_memOk]
theorem execSwait_memOk {d k} (h : s.memOk) : NextMemOk (execSwait d k s) := next_memOk.mpr h
theorem execDataArrival_memOk {n} (h : s.memOk) : NextMemOk (execDataArrival n s) := by
  unfold execDataArrival
  repeat' split
  all_goals grind [next_memOk, answered_memOk, late_memOk, enqueueMsg_memOk]
theorem finishAt_memOk {p i} (h : s.memOk) : (s.finishAt p i).2.memOk := by
  unfold State.finishAt
  grind [late_memOk, onCore_memOk]
theorem execFinishArrival_memOk {n} (h : s.memOk) : NextMemOk (execFinishArrival n s) := by
  have finished (p i) := finishAt_memOk (p := p) (i := i) h
  unfold execFinishArrival
  repeat' split
  all_goals grind [next_memOk, answered_memOk, treeFinishArrives_memOk]
theorem sendReplied_memOk {p} (h : s.memOk) : (s.sendReplied p).memOk := by
  unfold State.sendReplied
  grind [onCore_memOk]
theorem requestReplied_memOk {p} (h : s.memOk) : (s.requestReplied p).memOk := by
  unfold State.requestReplied
  grind [onCore_memOk, atCore_memOk, burstReplied_memOk]
theorem execReplyArrival_memOk {n} (h : s.memOk) : NextMemOk (execReplyArrival n s) := by
  unfold execReplyArrival
  grind [unsend_memOk, treeReplied_memOk, sendReplied_memOk, requestReplied_memOk, next_memOk]
theorem execFinishResend_memOk {n} (h : s.memOk) : NextMemOk (execFinishResend n s) := by
  unfold execFinishResend
  grind [onSh_memOk, launchPacket_memOk, next_memOk]
theorem execBarrierArrival_memOk {n} (h : s.memOk) : NextMemOk (execBarrierArrival n s) := by
  unfold execBarrierArrival
  grind [onNode_memOk, unsend_memOk, send_memOk, foldl_memOk, next_memOk]
theorem execBarrierRelease_memOk {n} (h : s.memOk) : NextMemOk (execBarrierRelease n s) := by
  unfold execBarrierRelease
  grind [onCore_memOk, unsend_memOk, next_memOk]
theorem execWatchRequest_memOk {n} (h : s.memOk) : NextMemOk (execWatchRequest n s) := by
  unfold execWatchRequest
  grind [onNode_memOk, answered_memOk, next_memOk]
theorem execWatchWakeArrival_memOk {n} (h : s.memOk) : NextMemOk (execWatchWakeArrival n s) := by
  unfold execWatchWakeArrival
  grind [onCore_memOk, unsend_memOk, next_memOk]
theorem execWakeArrival_memOk {n} (h : s.memOk) : NextMemOk (execWakeArrival n s) := by
  have woken (k t i) : (s.setCore k ((s.coreAt k).awaken t i).2).memOk := setCore_memOk h
  unfold execWakeArrival
  repeat' split
  all_goals grind [next_memOk, answered_memOk]
theorem branch_memOk {a b o taken} (h : s.memOk) : NextMemOk (s.branch a b o taken) := by
  unfold State.branch
  grind [commitTo_memOk, takeTrap_memOk, next_memOk]
theorem execJmp_memOk {o} (h : s.memOk) : NextMemOk (execJmp o s) := next_memOk.mpr h
theorem execJal_memOk {l o} (h : s.memOk) : NextMemOk (execJal l o s) := next_memOk.mpr h
theorem execJalr_memOk {d a i} (h : s.memOk) : NextMemOk (execJalr d a i s) := by
  unfold execJalr
  grind [setG_memOk, commitTo_memOk, takeTrap_memOk, next_memOk]
theorem completeOp_memOk {o f counter} (h : s.memOk) : (s.completeOp o f counter).memOk := by
  unfold State.completeOp
  grind [mk_memOk]
theorem setTile_memOk {t x} (h : s.memOk) : (s.setTile t x).memOk := h
theorem runMma_memOk {o y} (h : s.memOk) : (s.runMma o y).memOk := by
  unfold State.runMma
  grind [completeOp_memOk, setTile_memOk]
theorem runMmas_memOk {o} (h : s.memOk) : (s.runMmas o).memOk := by
  unfold State.runMmas
  grind [completeOp_memOk, setTile_memOk]
theorem runAccz_memOk {o} (h : s.memOk) : (s.runAccz o).memOk := by
  unfold State.runAccz
  grind [completeOp_memOk, setTile_memOk]
theorem runAccrn_memOk {o} (h : s.memOk) : (s.runAccrn o).memOk := by
  unfold State.runAccrn
  grind [completeOp_memOk, setTile_memOk]
theorem runAccld_memOk {o y} (h : s.memOk) : (s.runAccld o y).memOk := by
  unfold State.runAccld
  grind [completeOp_memOk, setTile_memOk]
theorem storeWords_memOk (l : List (Nat × Bool)) : ∀ {s : State} {off}, s.memOk → (s.storeWords off l).memOk := by
  induction l with
  | nil => exact id
  | cons w r ih => exact fun h => ih (write_memOk h)
theorem runAccst_memOk {o y} (h : s.memOk) : (s.runAccst o y).memOk :=
  completeOp_memOk (retag_memOk _ _ _ _ (storeWords_memOk _ h))
theorem runOp_memOk {o} (h : s.memOk) : (s.runOp o).memOk := by
  unfold State.runOp
  grind [runMma_memOk, runMmas_memOk, runAccz_memOk, runAccrn_memOk, runAccld_memOk, runAccst_memOk]
theorem stepTensor_memOk {p} (h : s.memOk) : (s.stepTensor p).memOk := by
  unfold State.stepTensor
  grind [onEng_memOk, runOp_memOk]
theorem stepMover_memOk {p} (h : s.memOk) : (s.stepMover p).memOk := by
  unfold State.stepMover
  grind [onEng_memOk, runOp_memOk]
theorem execMmaExecute_memOk (h : s.memOk) : NextMemOk (execMmaExecute s) := by
  unfold execMmaExecute
  grind [stepTensor_memOk, next_memOk]
theorem execMmasExecute_memOk (h : s.memOk) : NextMemOk (execMmasExecute s) := by
  unfold execMmasExecute
  grind [stepTensor_memOk, next_memOk]
theorem execAcczPerform_memOk (h : s.memOk) : NextMemOk (execAcczPerform s) := by
  unfold execAcczPerform
  grind [stepTensor_memOk, next_memOk]
theorem execAccrnPerform_memOk (h : s.memOk) : NextMemOk (execAccrnPerform s) := by
  unfold execAccrnPerform
  grind [stepTensor_memOk, next_memOk]
theorem execAccldPerform_memOk (h : s.memOk) : NextMemOk (execAccldPerform s) := by
  unfold execAccldPerform
  grind [stepMover_memOk, next_memOk]
theorem execAccstPerform_memOk (h : s.memOk) : NextMemOk (execAccstPerform s) := by
  unfold execAccstPerform
  grind [stepMover_memOk, next_memOk]
theorem engineTurn_memOk (h : s.memOk) : s.engineTurn.memOk := by
  unfold State.engineTurn
  grind [stepTensor_memOk, stepMover_memOk]
theorem byLead_memOk {s t : State} (h : s.memOk) (ht : t.memOk) : NextMemOk (s.byLead t) := by
  unfold State.byLead
  grind [next_memOk]
theorem onKern_memOk {i f} (h : s.memOk) : (s.onKern i f).memOk := h
theorem onReq_memOk {i f} (h : s.memOk) : (s.onReq i f).memOk := h
theorem answerReq_memOk {i r} (h : s.memOk) : (s.answerReq i r).memOk := h
theorem execRegister_memOk {i} (h : s.memOk) : NextMemOk (execRegister i s) := by
  unfold execRegister
  grind [onKern_memOk, onReq_memOk, answerReq_memOk, next_memOk]
theorem kernelRequest_memOk {i op} {f : Nat → Reason × State} (h : s.memOk) (hf : ∀ k, (f k).2.memOk) :
    NextMemOk (s.kernelRequest i op f) := by
  unfold State.kernelRequest
  grind [next_memOk, answerReq_memOk]
theorem execReside_memOk {i} (h : s.memOk) : NextMemOk (execReside i s) := by
  unfold execReside
  grind [onKern_memOk, kernelRequest_memOk]
theorem execEvict_memOk {i} (h : s.memOk) : NextMemOk (execEvict i s) := by
  unfold execEvict
  grind [onKern_memOk, kernelRequest_memOk]
theorem execRetire_memOk {i} (h : s.memOk) : NextMemOk (execRetire i s) := by
  unfold execRetire
  grind [onKern_memOk, kernelRequest_memOk]
theorem loseCopies_memOk {n} (h : s.memOk) : (s.loseCopies n).memOk := by
  unfold State.loseCopies
  grind [onKern_memOk, foldl_memOk]
theorem recopy_memOk (h : s.memOk) : s.recopy.memOk := by
  unfold State.recopy
  grind [onKern_memOk, foldl_memOk]
theorem ldBody_memOk {t a w d} (h : s.memOk) : (ldBody t a w d s).memOk := by
  unfold ldBody
  grind [setG_memOk, consume_memOk, orLate_memOk, loadAt_memOk, checkedLoad_memOk, ok_memOk]
theorem stBody_memOk {t a w d} (h : s.memOk) : (stBody t a w d s).memOk := by
  unfold stBody
  grind [consume_memOk, storeTo_memOk, checked_memOk, ok_memOk]
theorem multiple_memOk {a d k f} (hf : ∀ x, (f x).memOk) : (s.multiple a d k f).memOk := by
  unfold State.multiple
  grind [consume_memOk, checked_memOk, trap_memOk]
theorem multipleLoad_memOk {a d k f} (hf : ∀ x, (f x).memOk) : (s.multipleLoad a d k f).memOk := by
  unfold State.multipleLoad
  grind [multiple_memOk, hold_memOk]
theorem loadRegs_memOk {p} (l : List Nat) : ∀ {s : State} {i}, s.memOk → (s.loadRegs p i l).memOk := by
  induction l with
  | nil => exact id
  | cons r rs ih => exact fun h => ih (setG_memOk (loadAt_memOk h))
theorem storeRegs_memOk {p} (l : List Nat) : ∀ {s : State} {i}, s.memOk → (s.storeRegs p i l).memOk := by
  induction l with
  | nil => exact id
  | cons r rs ih => exact fun h => ih (storeAt_memOk h)
theorem execLdm_memOk {t a l d} (h : s.memOk) : NextMemOk (execLdm t a l d s) :=
  finish_memOk h (legal_memOk (multipleLoad_memOk fun _ => orLate_memOk h (ok_memOk.mpr (loadRegs_memOk _ h))))
theorem execStm_memOk {t a l d} (h : s.memOk) : NextMemOk (execStm t a l d s) :=
  finish_memOk h (legal_memOk (multiple_memOk fun _ => ok_memOk.mpr (storeRegs_memOk _ h)))
theorem execClusterPortAccess_memOk (h : s.memOk) : NextMemOk (execClusterPortAccess s) := by
  unfold execClusterPortAccess
  grind [portServe_memOk, next_memOk]
theorem retireNode_memOk {k} (h : s.memOk) : (s.retireNode k).memOk := by
  unfold State.retireNode
  grind [onSite_memOk, releaseQueued_memOk, onUmpire_memOk, voteTiles_memOk]
theorem retireAll_memOk {ks} (h : s.memOk) : (s.retireAll ks).memOk := by
  unfold State.retireAll
  grind [redraw_memOk, retireNode_memOk, foldl_memOk]
theorem recommend_memOk {n} (h : s.memOk) : (s.recommend n).memOk := by
  unfold State.recommend
  grind [onSite_memOk, note_memOk]
theorem markSuspect_memOk {k} (h : s.memOk) : (s.markSuspect k).memOk := by
  unfold State.markSuspect
  grind [onPart_memOk, redraw_memOk, retireNode_memOk, recommend_memOk]
theorem retireSuspects_memOk {g} (h : s.memOk) : (s.retireSuspects g).memOk := by
  unfold State.retireSuspects
  grind [retireAll_memOk]
theorem retireLoose_memOk {g} (h : s.memOk) : (s.retireLoose g).memOk := by
  unfold State.retireLoose
  grind [retireAll_memOk]
theorem loadTrees_memOk {g p} (h : s.memOk) : (s.loadTrees g p).memOk := by
  unfold State.loadTrees
  grind [onNode_memOk, voteTiles_memOk, foldl_memOk]
theorem dropGid_memOk {gid} (h : s.memOk) : (s.dropGid gid).memOk := h
theorem wipe_memOk {p} (h : s.memOk) : (s.wipe p).memOk := ⟨twf_filter _ _ _ h.1, twf_filter _ _ _ h.2⟩
theorem placeCells_memOk {k l} (h : s.memOk) (hl : twf unlistedByte l = true) : (s.placeCells k l).memOk := by
  have moved := twf_shift (f := (nodeBase k + ·)) (twf_filter _ (fun e => decide (e.1 < 262144)) _ hl) fun a _ b _ => (by omega)
  exact ⟨twf_splice h.1 moved (by grind [trange]) (by omega), h.2⟩
theorem loadGroup_memOk {i} (h : s.memOk) : (s.loadGroup i).memOk := by
  have cleared (ks p g) : (((s.closeWindows ks).wipe p).dropGid g).memOk := dropGid_memOk (wipe_memOk (closeWindows_memOk h))
  have placed (ks : List Nat) (p g j f) (m : Image) (v) :
      (ks.foldl (fun s k => s.placeCells k (m.cells v)) ((((s.closeWindows ks).wipe p).dropGid g).onGroup j f)).memOk :=
    foldl_memOk (fun _ _ h => placeCells_memOk h (twf_cells m v)) _ (onGroup_memOk (cleared ks p g))
  exact onGroup_memOk (loadTrees_memOk (voteTiles_memOk
    (onCores_memOk (foldl_memOk (fun _ _ => leaveRecords_memOk) _ (placed _ _ _ _ _ _ _)))))
theorem restoreTable_memOk {α : Type} {g n} {l : List (Nat × α)} {f : State → Nat → α → State} (h : s.memOk)
    (hf : ∀ t a b, t.memOk → (f t a b).memOk) : (s.restoreTable g n l f).memOk := by
  unfold State.restoreTable
  exact foldl_memOk (by grind) _ h
theorem restoreGroup_memOk {i} (h : s.memOk) : (s.restoreGroup i).memOk := by
  unfold State.restoreGroup
  extract_lets g s₁
  split
  · exact loadGroup_memOk h
  · extract_lets s₂ s₃ s₄ s₅ here s₆ s₇ s₈ s₉
    have h₁ : s₁.memOk := dropGid_memOk (wipe_memOk (closeWindows_memOk h))
    have h₂ : s₂.memOk := foldl_memOk (fun _ _ => onNode_memOk) _ h₁
    have h₃ : s₃.memOk := restoreTable_memOk h₂ fun _ _ _ ⟨bytes, tags⟩ => ⟨twf_tset _ _ _ _ bytes, tags⟩
    have h₄ : s₄.memOk := restoreTable_memOk h₃ fun _ _ _ => id
    have h₅ : s₅.memOk := restoreTable_memOk h₄ fun _ _ _ ⟨bytes, tags⟩ => ⟨bytes, twf_tset _ _ _ _ tags⟩
    have h₆ : s₆.memOk := foldl_memOk (fun _ _ => onCore_memOk) _ h₅
    have h₇ : s₇.memOk := foldl_memOk (fun _ _ => onNode_memOk) _ h₆
    have h₈ : s₈.memOk := h₇
    have h₉ : s₉.memOk := voteTiles_memOk (foldl_memOk (fun _ _ => leaveRecords_memOk) _ h₈)
    exact onGroup_memOk (loadTrees_memOk h₉)
theorem rerouteBars_memOk {i} (h : s.memOk) : (s.rerouteBars i).memOk := by
  unfold State.rerouteBars
  grind [onNode_memOk, send_memOk, foldl_memOk]
theorem freeCore_memOk {k} (h : s.memOk) : (s.freeCore k).memOk := by
  have left (t : State) (ht : t.memOk) : (t.leaveRecords k false).memOk := leaveRecords_memOk ht
  have freed (f) : ((s.closeWindowAt k).onCore k f).memOk := onCore_memOk (closeWindowAt_memOk h)
  exact ⟨(left _ (freed _)).1, twf_filter _ _ _ (freed _).2⟩
theorem freeCores_memOk {ks} (h : s.memOk) : (s.freeCores ks).memOk := by
  unfold State.freeCores
  grind [voteTiles_memOk, freeCore_memOk, foldl_memOk]
theorem unmapped_memOk {old g} (h : s.memOk) : (s.unmapped old g).memOk := by
  unfold State.unmapped
  grind [redrawn_memOk]
theorem endLaunch_memOk {i st} (h : s.memOk) : (s.endLaunch i st).memOk := by
  unfold State.endLaunch
  grind [complete_memOk]
theorem retireGroup_memOk {i st} (h : s.memOk) : (s.retireGroup i st).memOk := by
  have ended (g : Group) (j f) : (((((s.endSuspend i 8).freeCores g.cores).dropGid g.gid).endLaunch i st).onGroup j f).memOk :=
    onGroup_memOk (endLaunch_memOk (dropGid_memOk (freeCores_memOk (endSuspend_memOk h))))
  exact retireLoose_memOk (unmapped_memOk (ended _ _ _))
theorem rebid_memOk {i} (h : s.memOk) : (s.rebid i).memOk := by
  unfold State.rebid
  grind [mk_memOk, onGroup_memOk, onQueue_memOk, retireLoose_memOk, dropGid_memOk]
theorem relaunchGroup_memOk {i} (h : s.memOk) : (s.relaunchGroup i).memOk := by
  have freed (g : Group) (j f) : (((s.freeCores g.cores).dropGid g.gid).onGroup j f).memOk :=
    onGroup_memOk (dropGid_memOk (freeCores_memOk h))
  exact retireLoose_memOk (unmapped_memOk (freed _ _ _))
theorem freePaddlesAt_memOk {k p} (h : s.memOk) : (s.freePaddlesAt k p).memOk := by
  unfold State.freePaddlesAt
  grind [onCore_memOk, releaseTags_memOk, voteTiles_memOk, foldl_memOk]
theorem dropPaddlesAt_memOk {k} (h : s.memOk) : (s.dropPaddlesAt k).memOk :=
  coxWrites_memOk (freePaddlesAt_memOk h)
theorem beginCut_memOk {i f} (h : s.memOk) : (s.beginCut i f).memOk := by
  unfold State.beginCut
  grind [onGroup_memOk, coxWrites_memOk, dropPaddlesAt_memOk, foldl_memOk]
theorem drainGroup_memOk {i after} (h : s.memOk) : (s.drainGroup i after).memOk := by
  unfold State.drainGroup
  grind [onGroup_memOk, endSuspend_memOk, beginCut_memOk]
theorem endCut_memOk {i} (h : s.memOk) : (s.endCut i).memOk := by
  unfold State.endCut
  grind [onGroup_memOk, coxWrites_memOk]
theorem drainPortOf_memOk {k} (h : s.memOk) : (s.drainPortOf k).memOk := by
  unfold State.drainPortOf
  grind [portPerform_memOk, foldl_memOk]
theorem execCutComplete_memOk {i} (h : s.memOk) : NextMemOk (execCutComplete i s) := by
  have saved (g : Group) : (g.cores.foldl (fun s k => (s.drainPortOf k).freePaddlesAt k fun _ => true)
      (g.cores.foldl (fun s k => s.atCore k State.takeLate) s)).memOk :=
    foldl_memOk (fun _ _ h => freePaddlesAt_memOk (drainPortOf_memOk h)) _ (foldl_memOk (fun _ _ h => atCore_memOk h takeLate_memOk) _ h)
  have passed (g : Group) (qs : List Nat) {u : State} (hu : u.memOk) :
      (qs.foldl (fun s q => s.completeCurrent q 0) ((u.freeCores g.cores).dropGid g.gid)).memOk :=
    foldl_memOk (fun _ _ => completeCurrent_memOk) _ (dropGid_memOk (freeCores_memOk hu))
  refine byLead_memOk h ?_
  split
  · exact h
  split
  · exact retireGroup_memOk h
  split
  · exact retireLoose_memOk (unmapped_memOk (onGroup_memOk (passed _ _ (saved _))))
  · exact relaunchGroup_memOk h
  · exact h
theorem execCutDeadline_memOk {i} (h : s.memOk) : NextMemOk (execCutDeadline i s) := by
  unfold execCutDeadline
  grind [endSuspend_memOk, byLead_memOk, retireGroup_memOk, relaunchGroup_memOk, endCut_memOk]
theorem execRelaunch_memOk {i} (h : s.memOk) : NextMemOk (execRelaunch i s) := by
  unfold execRelaunch
  grind [byLead_memOk, retireGroup_memOk, relaunchGroup_memOk]
theorem execGroupRetirement_memOk {i} (h : s.memOk) : NextMemOk (execGroupRetirement i s) := by
  unfold execGroupRetirement
  grind [byLead_memOk, retireGroup_memOk]
theorem execPlacement_memOk {i} (h : s.memOk) : NextMemOk (execPlacement i s) := by
  unfold execPlacement
  grind [onGroup_memOk, byLead_memOk, retireSuspects_memOk, loadGroup_memOk, restoreGroup_memOk, retireGroup_memOk, rebid_memOk]
theorem execGroupStart_memOk {i} (h : s.memOk) : NextMemOk (execGroupStart i s) := by
  unfold execGroupStart
  grind [onGroup_memOk, closeWindows_memOk, coxWrites_memOk, byLead_memOk, rerouteBars_memOk]
theorem execPeerPanelAdmission_memOk {gid} (h : s.memOk) : NextMemOk (execPeerPanelAdmission gid s) := by
  unfold execPeerPanelAdmission
  grind [onGroup_memOk, byLead_memOk]
theorem follow_memOk {i draining} (h : s.memOk) : (s.follow i draining).memOk := by
  unfold State.follow
  grind [mk_memOk, onGroup_memOk, completeCurrent_memOk, faultGroup_memOk, beginCut_memOk, drainGroup_memOk, foldl_memOk]
theorem execPeerPanelGroupFault_memOk {gid draining} (h : s.memOk) : NextMemOk (execPeerPanelGroupFault gid draining s) := by
  unfold execPeerPanelGroupFault
  grind [byLead_memOk, follow_memOk]
theorem execPaddleCreation_memOk {own} (h : s.memOk) : NextMemOk (execPaddleCreation own s) := by
  have created {t : State} (ht : t.memOk) (j f n) : ({ t with core := (t.core.onSlot j f).enqueue j }.vote n).memOk :=
    vote_memOk (mk_memOk ht)
  have entered (k f off bs j g n) : ({ (s.onKern k f).write s.here off bs false with
      core := (((s.onKern k f).write s.here off bs false).core.onSlot j g).enqueue j }.vote n).memOk :=
    created (write_memOk (onKern_memOk h)) j g n
  unfold execPaddleCreation
  extract_lets c paddles
  split
  · exact next_memOk.mpr h
  split
  · exact next_memOk.mpr (freePaddlesAt_memOk h)
  split
  · extract_lets g
    split
    · exact next_memOk.mpr h
    extract_lets own' t
    split
    · exact next_memOk.mpr h
    split
    · exact next_memOk.mpr (onKern_memOk h)
    · exact next_memOk.mpr (entered _ _ _ _ _ _ _)
  · exact next_memOk.mpr h
theorem openWindowOnce_memOk (h : s.memOk) : s.openWindowOnce.memOk := h
theorem byHost_memOk {t} (h : s.memOk) (ht : ∀ u : State, u.memOk → (t u).memOk) : NextMemOk (s.byHost t) := by
  unfold State.byHost
  grind [openWindowOnce_memOk, next_memOk]
theorem activate_memOk {q} (h : s.memOk) : (s.activate q).memOk := by
  unfold State.activate
  grind [onQueue_memOk]
theorem stopQueue_memOk {q} (h : s.memOk) : (s.stopQueue q).memOk := by
  unfold State.stopQueue
  grind [mk_memOk, onQueue_memOk, complete_memOk]
theorem execQueueActivate_memOk {q _dom} (h : s.memOk) : NextMemOk (execQueueActivate q _dom s) := by
  unfold execQueueActivate
  grind [byHost_memOk, activate_memOk]
theorem execQueueStop_memOk {q _dom} (h : s.memOk) : NextMemOk (execQueueStop q _dom s) := by
  unfold execQueueStop
  grind [byHost_memOk, stopQueue_memOk]
theorem ring_memOk {q tail} (h : s.memOk) : (s.ring q tail).memOk := by
  unfold State.ring
  grind [onQueue_memOk]
theorem execDoorbell_memOk {q _dom tail} (h : s.memOk) : NextMemOk (execDoorbell q _dom tail s) := by
  unfold execDoorbell
  grind [byHost_memOk, ring_memOk]
theorem execCommandFetch_memOk {q} (h : s.memOk) : NextMemOk (execCommandFetch q s) := by
  unfold execCommandFetch
  grind [mk_memOk, onQueue_memOk, hostWrite_memOk, byLead_memOk]
theorem onCurrent_memOk {q f} (h : s.memOk) : (s.onCurrent q f).memOk := by
  unfold State.onCurrent
  grind [onQueue_memOk]
theorem newBid_memOk {b} (h : s.memOk) : (s.newBid b).memOk := h
theorem execLaunch_memOk {q} (h : s.memOk) : NextMemOk (execLaunch q s) := by
  unfold execLaunch
  grind [complete_memOk, byLead_memOk, onCurrent_memOk, newBid_memOk]
theorem dropBid_memOk {w} (h : s.memOk) : (s.dropBid w).memOk := h
theorem admitBid_memOk {s t : State} {b cx cy v} (h : s.memOk) (e : s.admitBid b cx cy v = some t) : t.memOk := by
  unfold State.admitBid at e
  extract_lets m at e
  split at e
  · grind [onGroup_memOk, dropBid_memOk]
  · next g q _ =>
    have passed (f) : ((s.onGroup g f).completeCurrent q 0).memOk := completeCurrent_memOk (onGroup_memOk h)
    split at e
    · cases e
    · cases e
      exact foldl_memOk (fun _ _ => completeCurrent_memOk) _ (passed _)
  · split at e
    · split at e
      · cases e
      · cases e
        exact dropBid_memOk h
    · cases e
theorem tryBid_memOk {s t : State} {b} (h : s.memOk) (e : s.tryBid b = some t) : t.memOk := by
  obtain ⟨_, _, e⟩ := Option.bind_eq_some_iff.mp e
  exact admitBid_memOk h e
theorem onBid_memOk {w f} (h : s.memOk) : (s.onBid w f).memOk := h
theorem reserve_memOk {w} (h : s.memOk) : (s.reserve w).memOk := by
  unfold State.reserve
  grind [onBid_memOk]
theorem setBound_memOk {b} (h : s.memOk) : (s.setBound b).memOk := by
  unfold State.setBound
  grind [mk_memOk, reserve_memOk, foldl_memOk]
theorem bypassed_memOk {l} (h : s.memOk) : (s.bypassed l).memOk := by
  unfold State.bypassed
  grind [onBid_memOk, foldl_memOk]
theorem keepReservation_memOk {w cx cy v} (h : s.memOk) : (s.keepReservation w cx cy v).memOk := by
  unfold State.keepReservation
  grind [onBid_memOk]
theorem reserveBefore_memOk {w lower} (h : s.memOk) : (s.reserveBefore w lower).memOk := by
  unfold State.reserveBefore
  grind [onBid_memOk, reserve_memOk, keepReservation_memOk, foldl_memOk]
theorem reserveReached_memOk {failed taken} (h : s.memOk) : (s.reserveReached failed taken).1.memOk :=
  foldl_memOk (fun _ _ => reserveBefore_memOk) _ h
theorem passOver_memOk (l : List BidFor) : ∀ {s : State} {taken failed}, s.memOk → (s.passOver taken failed l).memOk := by
  induction l with
  | nil => exact id
  | cons w r ih =>
    intro s taken failed h
    unfold State.passOver
    split
    · exact ih h
    · split
      · next e => exact ih (reserveReached_memOk (bypassed_memOk (tryBid_memOk h e)))
      · exact ih (reserve_memOk h)
theorem pass_memOk (h : s.memOk) : s.pass.memOk := passOver_memOk _ (mk_memOk h)
theorem execAdmissionPass_memOk (h : s.memOk) : NextMemOk (execAdmissionPass s) := by
  unfold execAdmissionPass
  grind [byLead_memOk, pass_memOk]
theorem copyEnd_memOk {q isHost a need} (h : s.memOk) : (s.copyEnd q isHost a need).2.memOk := by
  unfold State.copyEnd
  grind [translateTile_memOk]
theorem copyWaits_memOk {q step a need perm} (h : s.memOk) : (s.copyWaits q step a need perm).memOk := by
  unfold State.copyWaits
  grind [faultRecord_memOk, onCurrent_memOk]
theorem copyPiece_memOk {q step c err} (h : s.memOk) : (s.copyPiece q step c err).memOk := by
  have ends {t u : State} {x i a n} (ht : t.memOk) (e : t.copyEnd q i a n = (x, u)) : u.memOk := by
    have := copyEnd_memOk (q := q) (isHost := i) (a := a) (need := n) ht
    rwa [e] at this
  unfold State.copyPiece
  extract_lets len hs hd src dst n
  split
  · next e => exact complete_memOk (ends h e)
  · next e => exact copyWaits_memOk (ends h e)
  · next e => exact onCurrent_memOk (ends h e)
  · next e => exact ends h e
  · next e =>
    have ht := ends h e
    split
    · next e => exact complete_memOk (ends ht e)
    · next e => exact copyWaits_memOk (ends ht e)
    · next e => exact onCurrent_memOk (ends ht e)
    · next e => exact ends ht e
    · next u e =>
      extract_lets m w
      have hw : w.memOk := poke_memOk _ _ _ _ (ends ht e)
      grind [complete_memOk, onCurrent_memOk]
theorem execCopy_memOk {q err} (h : s.memOk) : NextMemOk (execCopy q err s) := by
  unfold execCopy
  grind [complete_memOk, deliverRec_memOk, byLead_memOk, copyPiece_memOk]
theorem execRefusalRetry_memOk (h : s.memOk) : NextMemOk (execRefusalRetry s) := by
  unfold execRefusalRetry
  grind [retryStreams_memOk, copyPiece_memOk, foldl_memOk, next_memOk]
theorem testWait_memOk {q} (h : s.memOk) : (s.testWait q).memOk := by
  unfold State.testWait
  grind [complete_memOk]
theorem setSignal_memOk {i v} (h : s.memOk) : (s.setSignal i v).memOk := by
  unfold State.setSignal
  grind [mk_memOk, testWait_memOk, foldl_memOk]
theorem execSignalSet_memOk {q} (h : s.memOk) : NextMemOk (execSignalSet q s) := by
  unfold execSignalSet
  grind [complete_memOk, byLead_memOk, setSignal_memOk]
theorem execSignalAdd_memOk {q} (h : s.memOk) : NextMemOk (execSignalAdd q s) := by
  unfold execSignalAdd
  grind [complete_memOk, byLead_memOk, setSignal_memOk]
theorem execWaitsig_memOk {q} (h : s.memOk) : NextMemOk (execWaitsig q s) := by
  unfold execWaitsig
  grind [byLead_memOk, testWait_memOk]
theorem execQueueFence_memOk {q} (h : s.memOk) : NextMemOk (execQueueFence q s) := by
  unfold execQueueFence
  grind [complete_memOk, byLead_memOk]
theorem drainOver_memOk (n : Nat) : ∀ {s : State}, s.memOk → (s.drainOver n).memOk := by
  induction n with
  | zero => exact id
  | succ n ih =>
    intro s h
    unfold State.drainOver
    grind [drainGroup_memOk]
theorem emergency_memOk (h : s.memOk) : s.emergency.memOk := drainOver_memOk _ (mk_memOk h)
theorem execPowerBudget_memOk {q} (h : s.memOk) : NextMemOk (execPowerBudget q s) := by
  unfold execPowerBudget
  grind [mk_memOk, complete_memOk, byLead_memOk, emergency_memOk]
theorem execPowerRamp_memOk {q} (h : s.memOk) : NextMemOk (execPowerRamp q s) := by
  unfold execPowerRamp
  grind [mk_memOk, complete_memOk, byLead_memOk]
theorem execPowerSuspend_memOk {q} (h : s.memOk) : NextMemOk (execPowerSuspend q s) := by
  unfold execPowerSuspend
  grind [onGroup_memOk, complete_memOk, byLead_memOk, beginCut_memOk, onCurrent_memOk]
theorem execPowerResume_memOk {q} (h : s.memOk) : NextMemOk (execPowerResume q s) := by
  unfold execPowerResume
  grind [complete_memOk, byLead_memOk, onCurrent_memOk, newBid_memOk]
theorem setEntry_memOk {a e} (h : s.memOk) : (s.setEntry a e).memOk := poke_memOk _ _ _ _ h
theorem clearFar_memOk {fpa n} (h : s.memOk) : (s.clearFar fpa n).memOk := ⟨twf_tclear _ _ _ _ h.1, h.2⟩
theorem makeTables_memOk {dom va} (n : Nat) : ∀ {s : State} {a l r}, s.memOk → s.makeTables dom va a l n = some r → r.2.memOk := by
  induction n with
  | zero => exact fun h e => by cases e; exact h
  | succ n ih =>
    intro s a l r h e
    unfold State.makeTables at e
    repeat' split at e
    · cases e
    · cases e
    · cases e
    · refine ih (setEntry_memOk (clearFar_memOk ?_)) e
      exact h
theorem settleRecords_memOk {dom lo hi f} (h : s.memOk) : (s.settleRecords dom lo hi f).memOk := by
  unfold State.settleRecords
  grind [onSite_memOk, vote_memOk, foldl_memOk]
theorem execFaultLimit_memOk {site i} (h : s.memOk) : NextMemOk (execFaultLimit site i s) := by
  unfold execFaultLimit
  grind [vote_memOk, onRec_memOk, next_memOk]
theorem pageDone_memOk {dom va n f} (h : s.memOk) : (s.pageDone dom va n f).memOk := by
  unfold State.pageDone
  grind [dropTlbs_memOk, settleRecords_memOk]
theorem mapPage_memOk {s t : State} {dom c i} (h : s.memOk) (e : s.mapPage dom c i = some t) : t.memOk := by
  have write {u : State} (hu : u.memOk) (a x va n f) : ((u.setEntry a x).pageDone dom va n f).memOk :=
    pageDone_memOk (setEntry_memOk hu)
  unfold State.mapPage at e
  split at e
  · cases e
  · extract_lets va perms write' at e
    split at e
    · cases e
    · cases e
    · grind
    · obtain ⟨r, hr, rfl⟩ := Option.map_eq_some_iff.mp e
      exact write (makeTables_memOk _ h hr) _ _ _ _ _
theorem mapPages_memOk {dom c} (l : List Nat) : ∀ {s t : State}, s.memOk → s.mapPages dom c l = some t → t.memOk := by
  induction l with
  | nil => exact fun h e => by cases e; exact h
  | cons i r ih =>
    intro s t h e
    obtain ⟨u, hu, e⟩ := Option.bind_eq_some_iff.mp e
    exact ih (mapPage_memOk h hu) e
theorem pageCommand_memOk {q sub} {f : Cmd → Domain → State} (h : s.memOk) (hf : ∀ c d, (f c d).memOk) :
    NextMemOk (s.pageCommand q sub f) := by
  refine byLead_memOk h ?_
  grind [complete_memOk]
theorem execPageMap_memOk {q} (h : s.memOk) : NextMemOk (execPageMap q s) := by
  unfold execPageMap
  grind [complete_memOk, mapPages_memOk, pageCommand_memOk]
theorem unmapPage_memOk {d c i} (h : s.memOk) : (s.unmapPage d c i).memOk := by
  unfold State.unmapPage
  grind [setEntry_memOk, pageDone_memOk]
theorem execPageUnmap_memOk {q} (h : s.memOk) : NextMemOk (execPageUnmap q s) := by
  refine pageCommand_memOk h fun c d => ?_
  extract_lets l
  split
  · exact complete_memOk h
  split
  · exact h
  · exact complete_memOk (foldl_memOk (fun _ _ => unmapPage_memOk) _ h)
theorem moveFar_memOk {src dst n} (h : s.memOk) : (s.moveFar src dst n).memOk := by
  have moved := twf_shift (f := fun a => a - farKey src / 1 + farKey dst / 1)
    (twf_filter _ (fun e => decide (farKey src / 1 ≤ e.1) && decide (e.1 < farKey src / 1 + n / 1)) _ h.1) (by grind)
  exact ⟨twf_splice h.1 moved (by grind [trange]) (by omega), h.2⟩
theorem nextPage_memOk {q c} (h : s.memOk) : (s.nextPage q c).memOk := by
  unfold State.nextPage
  grind [complete_memOk, onCurrent_memOk]
theorem beginMove_memOk {q c d} (h : s.memOk) : (s.beginMove q c d).memOk := by
  unfold State.beginMove
  grind [complete_memOk, dropTlbs_memOk, onCurrent_memOk, setEntry_memOk, nextPage_memOk]
theorem endMove_memOk {q c d err a e} (h : s.memOk) : (s.endMove q c d err a e).memOk := by
  unfold State.endMove
  grind [complete_memOk, setEntry_memOk, settleRecords_memOk, moveFar_memOk, nextPage_memOk]
theorem execPageMigrate_memOk {q err} (h : s.memOk) : NextMemOk (execPageMigrate q err s) := by
  unfold execPageMigrate
  grind [complete_memOk, pageCommand_memOk, beginMove_memOk, endMove_memOk]
theorem rekey_memOk {lo hi keys} (h : s.memOk) : (s.rekey lo hi keys).memOk := by
  have put (t : State) (a : Nat) (bs) (ht : t.memOk) : ({ t with mem := putBytes t.mem a bs } : State).memOk :=
    ⟨twf_putBytes bs _ _ ht.1, ht.2⟩
  unfold State.rekey
  extract_lets lines
  clear_value lines
  exact foldl_memOk (fun t l ht => by grind) lines h
theorem execDomainCreation_memOk {d} (h : s.memOk) : NextMemOk (execDomainCreation d s) := by
  unfold execDomainCreation
  grind [mk_memOk, clearFar_memOk, rekey_memOk, foldl_memOk, next_memOk]
theorem darkCores_memOk {n} (h : s.memOk) : (s.darkCores n).memOk := by
  unfold State.darkCores
  grind [onCores_memOk]
theorem setSite_memOk {n st} (h : s.memOk) : (s.setSite n st).memOk := by
  unfold State.setSite
  grind [onSite_memOk, note_memOk, darkCores_memOk]
theorem linksDown_memOk {n} (h : s.memOk) : (s.linksDown n).memOk := by
  unfold State.linksDown
  grind [onLink_memOk, foldl_memOk]
theorem linksUp_memOk {n} (h : s.memOk) : (s.linksUp n).memOk := by
  unfold State.linksUp
  grind [onLink_memOk, foldl_memOk]
theorem clearOffsets_memOk {n} (h : s.memOk) : (s.clearOffsets n).memOk := h
theorem setAbsent_memOk {n} (h : s.memOk) : (s.setAbsent n).memOk := by
  unfold State.setAbsent
  grind [mk_memOk, voteTiles_memOk]
theorem raiseSite_memOk {i n} (h : s.memOk) : (s.raiseSite i n).memOk := by
  unfold State.raiseSite
  grind [coxWrites_memOk]
theorem groupLeaves_memOk {i n loss shard} (h : s.memOk) : (s.groupLeaves i n loss shard).memOk := by
  unfold State.groupLeaves
  grind [faultGroup_memOk, drainGroup_memOk, raiseSite_memOk]
theorem faultShards_memOk {n} (h : s.memOk) : (s.faultShards n).memOk := by
  unfold State.faultShards
  grind [faultGroup_memOk, foldl_memOk]
theorem emptyProxy_memOk {n} (h : s.memOk) : (s.emptyProxy n).memOk := by
  unfold State.emptyProxy
  grind [onSite_memOk, send_memOk, foldl_memOk]
theorem portsUp_memOk {n up} (h : s.memOk) : (s.portsUp n up).memOk := by
  unfold State.portsUp
  grind [mk_memOk]
theorem leavePath_memOk {i n} (h : s.memOk) : (s.leavePath i n).memOk := by
  unfold State.leavePath
  grind [onGroup_memOk, rerouteBars_memOk]
theorem nameDeputy_memOk (h : s.memOk) : s.nameDeputy.memOk := by
  unfold State.nameDeputy
  grind [mk_memOk]
theorem rootClock_memOk {n} (h : s.memOk) : (s.rootClock n).memOk := h
theorem makeLead_memOk {n} (h : s.memOk) : (s.makeLead n).memOk := h
theorem takeOver_memOk (h : s.memOk) : s.takeOver.memOk := by
  unfold State.takeOver
  grind [mk_memOk, makeLead_memOk]
theorem answerHole_memOk {into} (h : s.memOk) : (s.answerHole into).memOk := by
  unfold State.answerHole
  grind [mk_memOk, send_memOk, foldl_memOk]
theorem holeInto_memOk {n} (h : s.memOk) : (s.holeInto n).memOk := by
  unfold State.holeInto
  grind [mk_memOk, holeAll_memOk, answerHole_memOk]
theorem leaveLive_memOk {n next loss} (h : s.memOk) : (s.leaveLive n next loss).memOk := by
  unfold State.leaveLive
  extract_lets shards s₁ s₂ s₃ s₄ s₅ s₆
  have h₁ : s₁.memOk := redraw_memOk (portsUp_memOk (linksDown_memOk (setSite_memOk h)))
  have h₂ : s₂.memOk := holeInto_memOk (setAbsent_memOk (clearOffsets_memOk h₁))
  have h₃ : s₃.memOk := foldl_memOk (fun _ _ => groupLeaves_memOk) _ h₂
  have h₄ : s₄.memOk := foldl_memOk (fun _ _ => leavePath_memOk) _ h₃
  have h₅ : s₅.memOk := by grind [takeOver_memOk, nameDeputy_memOk]
  have h₆ : s₆.memOk := releaseQueued_memOk (onSite_memOk h₅)
  grind [emptyProxy_memOk, loseCopies_memOk]
theorem freshNodes_memOk {n} (h : s.memOk) : (s.freshNodes n).memOk := by
  unfold State.freshNodes
  grind [mk_memOk, onNode_memOk, wipe_memOk, foldl_memOk]
theorem freshUmpires_memOk {n} (h : s.memOk) : (s.freshUmpires n).memOk := by
  unfold State.freshUmpires
  grind [onUmpire_memOk, foldl_memOk]
theorem takeRows_memOk {n} (h : s.memOk) : (s.takeRows n).memOk := by
  unfold State.takeRows
  grind [onGroup_memOk, voteTiles_memOk, foldl_memOk]
theorem enterLive_memOk {n} (h : s.memOk) : (s.enterLive n).memOk := by
  unfold State.enterLive
  extract_lets s₁ s₂ s₃ s₄ s₅ s₆
  have h₂ : s₂.memOk := freshNodes_memOk (onSite_memOk h)
  have h₃ : s₃.memOk := by grind [freshUmpires_memOk, freshCores_memOk]
  have h₄ : s₄.memOk := redraw_memOk (takeRows_memOk (portsUp_memOk (linksUp_memOk (setSite_memOk h₃))))
  have h₅ : s₅.memOk := by grind [recopy_memOk]
  have h₆ : s₆.memOk := by grind [makeLead_memOk, nameDeputy_memOk]
  exact openWindowOnce_memOk (releaseQueued_memOk h₆)
theorem execSiteAdmission_memOk {n} (h : s.memOk) : NextMemOk (execSiteAdmission n s) := by
  unfold execSiteAdmission
  grind [enterLive_memOk, next_memOk]
theorem readmitTree_memOk {g n t} (h : s.memOk) : (s.readmitTree g n t).memOk := by
  unfold State.readmitTree
  grind [onEntry_memOk, foldl_memOk]
theorem readmitGroup_memOk {i n} (h : s.memOk) : (s.readmitGroup i n).memOk := by
  unfold State.readmitGroup
  grind [loadTrees_memOk, raiseSite_memOk, readmitTree_memOk, foldl_memOk]
theorem holeLane2_memOk {n} (h : s.memOk) : (s.holeLane2 n).memOk := by
  unfold State.holeLane2
  grind [holeAll_memOk, answerHole_memOk]
theorem execRouteSwitch_memOk {cls n} (h : s.memOk) : NextMemOk (execRouteSwitch cls n s) := by
  unfold execRouteSwitch
  grind [onSite_memOk, releaseQueued_memOk, onLink_memOk, readmitGroup_memOk, holeLane2_memOk, foldl_memOk, next_memOk]
theorem siteEvent_memOk {s t : State} {n from_} (h : s.memOk) (ht : t.memOk) : NextMemOk (s.siteEvent n from_ t) := by
  unfold State.siteEvent
  grind [next_memOk]
theorem swapTile_memOk {n list} (h : s.memOk) : (s.swapTile n list).memOk := by
  unfold State.swapTile
  grind [mk_memOk, onSite_memOk, redrawn_memOk]
theorem execContactMade_memOk {n tile} (h : s.memOk) : NextMemOk (execContactMade n tile s) := by
  unfold execContactMade
  grind [onSite_memOk, recommend_memOk, setSite_memOk, swapTile_memOk, next_memOk]
theorem regionsAt_memOk {n leads} (h : s.memOk) : (s.regionsAt n leads).memOk := h
theorem coldTile_memOk {n} (h : s.memOk) : (s.coldTile n).memOk := by
  unfold State.coldTile
  grind [mk_memOk, onSite_memOk, redrawn_memOk, freshCores_memOk]
theorem bootTile_memOk {n} (h : s.memOk) : (s.bootTile n).memOk := by
  unfold State.bootTile
  grind [onSite_memOk, coldTile_memOk]
theorem execBringUpStart_memOk {n leads} (h : s.memOk) : NextMemOk (execBringUpStart n leads s) := by
  unfold execBringUpStart
  grind [setSite_memOk, siteEvent_memOk, regionsAt_memOk, bootTile_memOk]
theorem failTraining_memOk {n} (h : s.memOk) : (s.failTraining n).memOk := by
  unfold State.failTraining
  grind [recommend_memOk, openWindowOnce_memOk, setSite_memOk]
theorem execTrainingPass_memOk {n} (h : s.memOk) : NextMemOk (execTrainingPass n s) := by
  refine siteEvent_memOk h ?_
  split
  · exact h
  split
  · exact setSite_memOk (onSite_memOk h)
  · exact failTraining_memOk h
theorem execTrainingFailure_memOk {n} (h : s.memOk) : NextMemOk (execTrainingFailure n s) := by
  unfold execTrainingFailure
  grind [siteEvent_memOk, failTraining_memOk]
theorem drainSite_memOk {n} (h : s.memOk) : (s.drainSite n).memOk := by
  unfold State.drainSite
  grind [leaveLive_memOk]
theorem execDrain_memOk {n} (h : s.memOk) : NextMemOk (execDrain n s) := by
  unfold execDrain
  grind [drainSite_memOk, next_memOk]
theorem execReadmit_memOk {n} (h : s.memOk) : NextMemOk (execReadmit n s) := by
  unfold execReadmit
  grind [setSite_memOk, siteEvent_memOk, regionsAt_memOk, bootTile_memOk]
theorem loseDraining_memOk {n} (h : s.memOk) : (s.loseDraining n).memOk := by
  unfold State.loseDraining
  grind [onSite_memOk, setSite_memOk, faultShards_memOk]
theorem execContactLost_memOk {n} (h : s.memOk) : NextMemOk (execContactLost n s) := by
  unfold execContactLost
  grind [onSite_memOk, openWindowOnce_memOk, setSite_memOk, siteEvent_memOk, loseDraining_memOk]
theorem execSurpriseRemoval_memOk {n} (h : s.memOk) : NextMemOk (execSurpriseRemoval n s) := by
  unfold execSurpriseRemoval
  grind [onSite_memOk, leaveLive_memOk, siteEvent_memOk, loseDraining_memOk]
theorem execLostCleanupComplete_memOk {n} (h : s.memOk) : NextMemOk (execLostCleanupComplete n s) := by
  unfold execLostCleanupComplete
  grind [onSite_memOk, openWindowOnce_memOk, setSite_memOk, siteEvent_memOk]
theorem execDrainComplete_memOk {n} (h : s.memOk) : NextMemOk (execDrainComplete n s) := by
  unfold execDrainComplete
  grind [openWindowOnce_memOk, setSite_memOk, siteEvent_memOk]
theorem execDrainDeadline_memOk {n} (h : s.memOk) : NextMemOk (execDrainDeadline n s) := by
  refine siteEvent_memOk h ?_
  split
  · exact openWindowOnce_memOk (onSite_memOk (setSite_memOk (faultShards_memOk h)))
  · exact h
theorem dissent_memOk {n c} (h : s.memOk) : (s.dissent n c).memOk := by
  unfold State.dissent
  grind [note_memOk, onTriad_memOk, nameDeputy_memOk]
theorem haltTriad_memOk {n} (h : s.memOk) : (s.haltTriad n).memOk := by
  unfold State.haltTriad
  grind [note_memOk, onTriad_memOk, faultShards_memOk, nameDeputy_memOk, leaveLive_memOk]
theorem settleTriad_memOk {n} (h : s.memOk) : (s.settleTriad n).memOk := by
  unfold State.settleTriad
  grind [haltTriad_memOk]
theorem outvoted_memOk {n c} (h : s.memOk) : (s.outvoted n c).memOk := by
  unfold State.outvoted
  grind [dissent_memOk, settleTriad_memOk]
theorem issueTx_memOk {n no x c d} (h : s.memOk) : (s.issueTx n no x c d).memOk := by
  unfold State.issueTx
  grind [onTriad_memOk, outvoted_memOk, foldl_memOk]
theorem present_memOk {n c x} (h : s.memOk) : (s.present n c x).memOk := by
  unfold State.present
  grind [onTriad_memOk, haltTriad_memOk, outvoted_memOk, issueTx_memOk]
theorem presentAll_memOk {n p} (h : s.memOk) : (s.presentAll n p).memOk := by
  unfold State.presentAll
  grind [present_memOk, foldl_memOk]
theorem catchUp_memOk {n} (h : s.memOk) : (s.catchUp n).memOk := h
theorem execVotedTransaction_memOk {n p} (h : s.memOk) : NextMemOk (execVotedTransaction n p s) := by
  unfold execVotedTransaction
  grind [presentAll_memOk, catchUp_memOk, next_memOk]
theorem execSilentCopyTimeout_memOk {n} (h : s.memOk) : NextMemOk (execSilentCopyTimeout n s) := by
  unfold execSilentCopyTimeout
  grind [haltTriad_memOk, outvoted_memOk, catchUp_memOk, next_memOk]
theorem execCopyReset_memOk {n c} (h : s.memOk) : NextMemOk (execCopyReset n c s) := by
  unfold execCopyReset
  grind [onTriad_memOk, next_memOk]
theorem commitCheck_memOk {n digest reloaded} (h : s.memOk) : (s.commitCheck n digest reloaded).memOk := by
  unfold State.commitCheck
  grind [onTriad_memOk, recommend_memOk, nameDeputy_memOk]
theorem execTriadCheckpoint_memOk {n p reloaded} (h : s.memOk) : NextMemOk (execTriadCheckpoint n p reloaded s) := by
  unfold execTriadCheckpoint
  grind [onTriad_memOk, dissent_memOk, presentAll_memOk, catchUp_memOk, commitCheck_memOk, next_memOk]
theorem execHeartbeat_memOk {seen} (h : s.memOk) : NextMemOk (execHeartbeat seen s) := by
  unfold execHeartbeat
  grind [mk_memOk, byLead_memOk]
theorem execDeputyTakeover_memOk (h : s.memOk) : NextMemOk (execDeputyTakeover s) := by
  unfold execDeputyTakeover
  grind [takeOver_memOk, next_memOk]
theorem execPanelBringUp_memOk {b} (h : s.memOk) : NextMemOk (execPanelBringUp b s) := by
  unfold execPanelBringUp
  grind [mk_memOk, onSite_memOk, onQueue_memOk, setSite_memOk, bootTile_memOk, foldl_memOk, next_memOk]
theorem execCxlLinkTrainingChange_memOk {p trained} (h : s.memOk) : NextMemOk (execCxlLinkTrainingChange p trained s) := by
  unfold execCxlLinkTrainingChange
  grind [mk_memOk, redrawn_memOk, recopy_memOk, next_memOk]
theorem execRouterFailure_memOk {p} (h : s.memOk) : NextMemOk (execRouterFailure p s) := by
  unfold execRouterFailure
  grind [onPartAt_memOk, voteTiles_memOk, next_memOk]
theorem execKeyEnrolment_memOk {dom key signed} (h : s.memOk) : NextMemOk (execKeyEnrolment dom key signed s) := by
  unfold execKeyEnrolment
  grind [mk_memOk, next_memOk]
theorem execKeyRevocation_memOk {dom key signed} (h : s.memOk) : NextMemOk (execKeyRevocation dom key signed s) := by
  unfold execKeyRevocation
  grind [mk_memOk, next_memOk]
theorem execQuoteRequest_memOk {nonce} (h : s.memOk) : NextMemOk (execQuoteRequest nonce s) := by
  unfold execQuoteRequest
  grind [note_memOk, next_memOk]
theorem execDeadlockProbe_memOk {i id} (h : s.memOk) : NextMemOk (execDeadlockProbe i id s) := by
  unfold execDeadlockProbe
  grind [onCore_memOk, voteTiles_memOk, foldl_memOk, next_memOk]
theorem execWatchdogExpiry_memOk {i} (h : s.memOk) : NextMemOk (execWatchdogExpiry i s) := by
  unfold execWatchdogExpiry
  grind [mk_memOk, next_memOk]
theorem trimBack_memOk {k steps freeze} (h : s.memOk) : (s.trimBack k steps freeze).memOk := by
  unfold State.trimBack
  grind [onQuad_memOk]
theorem quadErred_memOk {k} (h : s.memOk) : (s.quadErred k).memOk := by
  unfold State.quadErred
  grind [onQuad_memOk]
theorem fillBucket_memOk {k n} (h : s.memOk) : (s.fillBucket k n).memOk := by
  unfold State.fillBucket
  grind [onPart_memOk, markSuspect_memOk]
theorem correctedIn_memOk {k} (h : s.memOk) : (s.correctedIn k).memOk := by
  unfold State.correctedIn
  grind [trimBack_memOk, quadErred_memOk, fillBucket_memOk]
theorem corrected_memOk {k} (h : s.memOk) : (s.corrected k).memOk := by
  unfold State.corrected
  grind [onCore_memOk, correctedIn_memOk]
theorem uncorrectableIn_memOk {k line w owner} (h : s.memOk) : (s.uncorrectableIn k line w owner).memOk := by
  unfold State.uncorrectableIn
  grind [note_memOk, trimBack_memOk, fillBucket_memOk]
theorem uncorrectable_memOk {k line w} (h : s.memOk) : (s.uncorrectable k line w).memOk := by
  unfold State.uncorrectable
  grind [mk_memOk, uncorrectableIn_memOk]
theorem visit_memOk {k line found} (h : s.memOk) : (s.visit k line found).memOk := by
  unfold State.visit
  grind [corrected_memOk, uncorrectable_memOk, foldl_memOk]
theorem execScrubVisit_memOk {k line found} (h : s.memOk) : NextMemOk (execScrubVisit k line found s) := by
  unfold execScrubVisit
  grind [onPart_memOk, visit_memOk, next_memOk]
theorem execRevisit_memOk {k line found} (h : s.memOk) : NextMemOk (execRevisit k line found s) := by
  unfold execRevisit
  grind [onPart_memOk, visit_memOk, next_memOk]
theorem execBucketLeak_memOk {k} (h : s.memOk) : NextMemOk (execBucketLeak k s) := by
  unfold execBucketLeak
  grind [onPart_memOk, next_memOk]
theorem nominalRail_memOk {q} (h : s.memOk) : (s.nominalRail q).memOk := h
theorem umpireDiffers_memOk {u out} (h : s.memOk) : (s.umpireDiffers u out).memOk := by
  unfold State.umpireDiffers
  grind [note_memOk, onUmpire_memOk, markSuspect_memOk, nominalRail_memOk]
theorem execUmpireInterval_memOk {u differs} (h : s.memOk) : NextMemOk (execUmpireInterval u differs s) := by
  unfold execUmpireInterval
  grind [onUmpire_memOk, umpireDiffers_memOk, next_memOk]
theorem execOperatingPointChange_memOk {q} (h : s.memOk) : NextMemOk (execOperatingPointChange q s) := by
  unfold execOperatingPointChange
  grind [onQuad_memOk, next_memOk]
theorem execThermalCapStep_memOk {q temp} (h : s.memOk) : NextMemOk (execThermalCapStep q temp s) := by
  unfold execThermalCapStep
  grind [note_memOk, onQuad_memOk, drainSite_memOk, next_memOk]
theorem execPhaseLoss_memOk {n g} (h : s.memOk) : NextMemOk (execPhaseLoss n g s) := by
  unfold execPhaseLoss
  grind [onSite_memOk, onQuad_memOk, faultGroup_memOk, redrawn_memOk, recommend_memOk, foldl_memOk, next_memOk]
theorem execGovernorTrimRaise_memOk {q} (h : s.memOk) : NextMemOk (execGovernorTrimRaise q s) := by
  unfold execGovernorTrimRaise
  grind [onQuad_memOk, next_memOk]
theorem setPaddles_memOk {n sample floor} (h : s.memOk) : (s.setPaddles n sample floor).memOk := by
  unfold State.setPaddles
  grind [onCore_memOk, onCores_memOk, dropPaddlesAt_memOk, foldl_memOk]
theorem execRampSample_memOk {tiles rest} (h : s.memOk) : NextMemOk (execRampSample tiles rest s) := by
  have written (w : Power) (l : List Nat) (f g : Nat → Nat) :
      (l.foldl (fun (s : State) i => (s.vote i).setPaddles i (f i) (g i)) { s with power := w }).memOk :=
    foldl_memOk (fun _ _ h => setPaddles_memOk (vote_memOk h)) _ (mk_memOk h)
  refine byLead_memOk h ?_
  split
  · exact h
  · extract_lets
    rename_i s₂ s₃ calm power s₄ s₅ tick word rec_ old boat
    have h₂ : s₂.memOk := written _ _ _ _
    have h₃ : s₃.memOk := by grind [emergency_memOk]
    have h₄ : s₄.memOk := by grind [mk_memOk]
    have h₅ : s₅.memOk := by grind [note_memOk]
    exact h₅
theorem execPtpTimestamp_memOk {ns locked} (h : s.memOk) : NextMemOk (execPtpTimestamp ns locked s) := by
  unfold execPtpTimestamp
  grind [mk_memOk, next_memOk]
theorem execMonitorRead_memOk {q temp vmv roc} (h : s.memOk) : NextMemOk (execMonitorRead q temp vmv roc s) := by
  unfold execMonitorRead
  grind [mk_memOk, onQuad_memOk, next_memOk]
theorem execAlignmentRemeasure_memOk {r phase} (h : s.memOk) : NextMemOk (execAlignmentRemeasure r phase s) := by
  unfold execAlignmentRemeasure
  grind [mk_memOk, note_memOk, next_memOk]
theorem execCounterExchange_memOk {b t1 t2 t3 t4 shed} (h : s.memOk) : NextMemOk (execCounterExchange b t1 t2 t3 t4 shed s) := by
  unfold execCounterExchange
  grind [mk_memOk, onLink_memOk, next_memOk]
theorem bfxBody_memOk {d a l p} (h : s.memOk) : (bfxBody d a l p s).memOk := by
  unfold bfxBody
  grind [legal_memOk, alu1_memOk]
theorem bfiBody_memOk {d a l p} (h : s.memOk) : (bfiBody d a l p s).memOk := by
  unfold bfiBody
  grind [setG_memOk, legal_memOk, ok_memOk]
theorem setTag_memOk {i e} (h : s.memOk) : (s.setTag i e).memOk := h
theorem tagIndex_memOk {a k} (hk : ∀ x, (k x).memOk) : (s.tagIndex a k).memOk := by
  unfold State.tagIndex
  grind [consume_memOk, trap_memOk]
theorem tlookBody_memOk {d a} (h : s.memOk) : (tlookBody d a s).memOk := by
  unfold tlookBody
  grind [setG_memOk, ok_memOk]
theorem tsetBody_memOk {d a b} (h : s.memOk) : (tsetBody d a b s).memOk := by
  unfold tsetBody
  grind [setG_memOk, setTag_memOk, tagIndex_memOk, ok_memOk]
theorem tclrBody_memOk {a} (h : s.memOk) : (tclrBody a s).memOk := by
  unfold tclrBody
  grind [setTag_memOk, tagIndex_memOk, ok_memOk]
theorem execLiLong_memOk {d v} (h : s.memOk) : NextMemOk (execLiLong d v s) := next_memOk.mpr h
theorem execLiHi_memOk {d v} (h : s.memOk) : NextMemOk (execLiHi d v s) := next_memOk.mpr h
theorem putF_memOk {d p r} (h : s.memOk) : (s.putF d p r).memOk := by
  unfold State.putF
  grind [put_memOk]
theorem putB_memOk {d p r} (h : s.memOk) : (s.putB d p r).memOk := by
  unfold State.putB
  grind [put_memOk]
theorem fcvtBody_memOk {d a r t f} (h : s.memOk) : (fcvtBody d a r t f s).memOk := by
  unfold fcvtBody
  grind [legal_memOk, put_memOk]
theorem vec1_memOk {d a m y f} (h : s.memOk) : (s.vec1 d a m y f).memOk := by
  unfold State.vec1
  grind [vlanes_memOk]
theorem vec2_memOk {d a b m y f} (h : s.memOk) : (s.vec2 d a b m y f).memOk := by
  unfold State.vec2
  grind [vlanes_memOk]
theorem vmovBody_memOk {d a m y} (h : s.memOk) : (vmovBody d a m y s).memOk := by
  unfold vmovBody
  grind [setV_memOk, legal_memOk, vec1_memOk, ok_memOk]
theorem vfmaBody_memOk {d a b m y} (h : s.memOk) : (vfmaBody d a b m y s).memOk := by
  unfold vfmaBody
  grind [legal_memOk, vlanes_memOk]
theorem vselBody_memOk {d a b m y} (h : s.memOk) : (vselBody d a b m y s).memOk := by
  unfold vselBody
  grind [setV_memOk, legal_memOk, ok_memOk]
theorem vcmp_memOk {d a b m y cond} (h : s.memOk) : (s.vcmp d a b m y cond).memOk := by
  unfold State.vcmp
  grind [setM_memOk, orFlags_memOk, ok_memOk, trap_memOk]
theorem vred_memOk {d a m y unit op} (h : s.memOk) : (s.vred d a m y unit op).memOk := by
  unfold State.vred
  grind [setV_memOk, orFlags_memOk, ok_memOk]
theorem vpermBody_memOk {d a b m y} (h : s.memOk) : (vpermBody d a b m y s).memOk := by
  unfold vpermBody
  grind [legal_memOk, vec2_memOk]
theorem vcvtBody_memOk {d a f m y} (h : s.memOk) : (vcvtBody d a f m y s).memOk := by
  unfold vcvtBody
  grind [setV_memOk, orFlags_memOk, legal_memOk, ok_memOk]
theorem draw_memOk {n} (h : s.memOk) : (s.draw n).2.memOk := by
  unfold State.draw
  grind [onSh_memOk]
theorem vpackbkBody_memOk {d a b y} (h : s.memOk) : (vpackbkBody d a b y s).memOk :=
  legal_memOk (ok_memOk.mpr (orFlags_memOk (setV_memOk (s := (s.draw 32).2) (draw_memOk h))))
theorem vunbkBody_memOk {d a k m y} (h : s.memOk) : (vunbkBody d a k m y s).memOk := by
  unfold vunbkBody
  grind [legal_memOk, vlanes_memOk]
theorem vscaleBody_memOk {d a b y} (h : s.memOk) : (vscaleBody d a b y s).memOk := by
  have put (x f) : (Res.ok ((s.setV d x).orFlags f)).memOk := ok_memOk.mpr (orFlags_memOk (setV_memOk h))
  refine legal_memOk ?_
  grind
theorem special_memOk {d a m f} (h : s.memOk) : (s.special d a m f).memOk := by
  unfold State.special
  grind [vec1_memOk]
theorem descLoad_memOk {a n ok k} (hk : ∀ x, (k x).memOk) : (s.descLoad a n ok k).memOk := by
  unfold State.descLoad
  grind [consume_memOk, checkedOwn_memOk, trap_memOk]
theorem mafdBody_memOk {a} (h : s.memOk) : (mafdBody a s).memOk := by
  unfold mafdBody
  grind [onEng_memOk, descLoad_memOk, ok_memOk]
theorem execMafd_memOk {a} (h : s.memOk) : NextMemOk (execMafd a s) := by
  unfold execMafd
  grind [finish_memOk, mafdBody_memOk]
theorem mbfdBody_memOk {a} (h : s.memOk) : (mbfdBody a s).memOk := by
  unfold mbfdBody
  grind [onEng_memOk, descLoad_memOk, ok_memOk]
theorem execMbfd_memOk {a} (h : s.memOk) : NextMemOk (execMbfd a s) := by
  unfold execMbfd
  grind [finish_memOk, mbfdBody_memOk]
theorem enterOp_memOk {o} (h : s.memOk) : (s.enterOp o).memOk := by
  have entered {t : State} (ht : t.memOk) (p : Prop) [Decidable p] (f) : ((if p then t.count 3 else t).onEng f).memOk := by
    split
    · exact onEng_memOk (count_memOk ht)
    · exact onEng_memOk ht
  unfold State.enterOp
  split
  next t e =>
    have ht : t.memOk := by
      split at e
      · have := draw_memOk (n := 256) h
        rwa [e] at this
      · cases e
        exact h
    exact entered ht _ _
theorem issue_memOk {r} (h : s.memOk) : NextMemOk (s.issue r) := by
  unfold State.issue
  grind [onCtl_memOk, commit_memOk, takeTrap_memOk, enterOp_memOk, next_memOk]
theorem freeze_memOk {p : State → Bool} (n : Nat) : ∀ {s : State}, s.memOk → (s.freeze p n).memOk := by
  induction n with
  | zero => exact id
  | succ n ih =>
    intro s h
    unfold State.freeze
    grind [engineTurn_memOk]
theorem issueRig_memOk {r} (h : s.memOk) : (s.issueRig r).memOk := by
  cases r with
  | trap c v => exact trap_memOk
  | op o => exact ok_memOk.mpr (enterOp_memOk (freeze_memOk 20 h))
theorem accsc_memOk {t d r} (h : s.memOk) : (s.accsc t d r).memOk := h
theorem accscRow_memOk {b k} (hk : ∀ x, (k x).memOk) : (s.accscRow b k).memOk := by
  unfold State.accscRow
  grind [consume_memOk, trap_memOk]
theorem accscFreeze_memOk {t b} (h : s.memOk) : (accscFreeze t b s).memOk := by
  unfold accscFreeze
  split
  · exact h
  · exact freeze_memOk 20 h
theorem accscBody_memOk {t d b} (h : s.memOk) : (accscBody t d b s).memOk := by
  unfold accscBody
  grind [accsc_memOk, accscRow_memOk, ok_memOk]
theorem execAccsc_memOk {t d b} (h : s.memOk) : NextMemOk (execAccsc t d b s) := by
  have body := accscBody_memOk (t := t) (d := d) (b := b) h
  unfold execAccsc
  split
  · exact next_memOk.mpr (takeTrap_memOk h)
  · exact next_memOk.mpr (holdIssue_memOk h)
  · next e =>
    split
    · exact next_memOk.mpr (commit_memOk (body _ e))
    · exact next_memOk.mpr (onCtl_memOk h)
theorem takeCount_memOk {w n} (h : s.memOk) : (s.takeCount w n).memOk := h
theorem execWait_memOk {c w} (h : s.memOk) : NextMemOk (execWait c w s) := by
  unfold execWait
  grind [commit_memOk, takeTrap_memOk, blockOrHold_memOk, fenceAhead_memOk, takeCount_memOk, next_memOk]
theorem vldBodyBody_memOk {v a d} (h : s.memOk) : (vldBodyBody v a d s).memOk := by
  unfold vldBodyBody
  grind [setV_memOk, consume_memOk, orLate_memOk, loadAt_memOk, checkedLoad_memOk, ok_memOk]
theorem vldSideBody_memOk {v a d} (h : s.memOk) : (vldSideBody v a d s).memOk := by
  unfold vldSideBody
  grind [setV_memOk, consume_memOk, orLate_memOk, loadAt_memOk, checkedLoad_memOk, ok_memOk]
theorem vldMaskBody_memOk {v a d} (h : s.memOk) : (vldMaskBody v a d s).memOk := by
  unfold vldMaskBody
  grind [setM_memOk, consume_memOk, loadAt_memOk, checkedLoad_memOk, ok_memOk, trap_memOk]
theorem vstBodyBody_memOk {v a d} (h : s.memOk) : (vstBodyBody v a d s).memOk := by
  unfold vstBodyBody
  grind [consume_memOk, storeAt_memOk, checked_memOk, ok_memOk]
theorem vstSideBody_memOk {v a d} (h : s.memOk) : (vstSideBody v a d s).memOk := by
  unfold vstSideBody
  grind [consume_memOk, storeAt_memOk, checked_memOk, ok_memOk]
theorem vstMaskBody_memOk {v a d} (h : s.memOk) : (vstMaskBody v a d s).memOk := by
  unfold vstMaskBody
  grind [consume_memOk, storeAt_memOk, checked_memOk, ok_memOk]
theorem pathsLoad_memOk {n l f} (hf : ∀ x, (f x).memOk) : (s.pathsLoad n l f).memOk := by
  unfold State.pathsLoad
  grind [trap_memOk, hold_memOk]
theorem gather_memOk {n} (l : List (Nat × Path)) : ∀ {s : State}, s.memOk → (s.gather n l).1.memOk := by
  induction l with
  | nil => exact id
  | cons p r ih => exact fun h => ih (loadAt_memOk h)
theorem scatter_memOk {n q val} (l : List (Nat × Path)) : ∀ {s : State}, s.memOk → (s.scatter n q val l).memOk := by
  induction l with
  | nil => exact id
  | cons p r ih => exact fun h => ih (storeAt_memOk h)
theorem loadLanes_memOk {v m y f} (h : s.memOk) : (s.loadLanes v m y f).memOk := by
  have put (l : List (Nat × Path)) (x) : ((s.gather (y.bits / 8) l).1.setV v x).memOk := setV_memOk (gather_memOk l h)
  exact pathsLoad_memOk fun l => orLate_memOk (put _ _) (ok_memOk.mpr (put l _))
theorem storeLanes_memOk {v m y f} (h : s.memOk) : (s.storeLanes v m y f).memOk := by
  unfold State.storeLanes
  split
  · exact trap_memOk
  · exact ok_memOk.mpr (scatter_memOk _ h)
theorem loadBlocks_memOk {v y a b} (h : s.memOk) : (s.loadBlocks v y a b).memOk := by
  have put (l : List (Nat × Path)) (x) : ((s.gather y.planeBytes l).1.setV v x).memOk := setV_memOk (gather_memOk l h)
  exact pathsLoad_memOk fun l => orLate_memOk (put _ _) (ok_memOk.mpr (put l _))
theorem storeBlocks_memOk {v y a b} (h : s.memOk) : (s.storeBlocks v y a b).memOk := by
  unfold State.storeBlocks
  split
  · exact trap_memOk
  · exact ok_memOk.mpr (scatter_memOk _ h)
theorem vldsBody_memOk {v a b m y} (h : s.memOk) : (vldsBody v a b m y s).memOk := by
  unfold vldsBody
  grind [legal_memOk, consume_memOk, loadLanes_memOk, loadBlocks_memOk]
theorem vstsBody_memOk {v a b m y} (h : s.memOk) : (vstsBody v a b m y s).memOk := by
  unfold vstsBody
  grind [legal_memOk, consume_memOk, storeLanes_memOk, storeBlocks_memOk]
theorem indexed_memOk {a i r} (hr : r.memOk) : (s.indexed a i r).memOk := by
  unfold State.indexed
  grind [consume_memOk, trap_memOk]
theorem vgathBody_memOk {v a i m y} (h : s.memOk) : (vgathBody v a i m y s).memOk := by
  unfold vgathBody
  grind [legal_memOk, loadLanes_memOk, indexed_memOk]
theorem vscatBody_memOk {v a i m y} (h : s.memOk) : (vscatBody v a i m y s).memOk := by
  unfold vscatBody
  grind [legal_memOk, storeLanes_memOk, indexed_memOk]
theorem vbcastBody_memOk {v a m y} (h : s.memOk) : (vbcastBody v a m y s).memOk := by
  unfold vbcastBody
  grind [legal_memOk, vlanes_memOk]
theorem laneIndex_memOk {b y k} (hk : ∀ x, (k x).memOk) : (s.laneIndex b y k).memOk := by
  unfold State.laneIndex
  grind [consume_memOk, trap_memOk]
theorem vinsBody_memOk {v a b y} (h : s.memOk) : (vinsBody v a b y s).memOk := by
  unfold vinsBody
  grind [legal_memOk, vlanes_memOk, laneIndex_memOk]
theorem vextBody_memOk {v a b y} (h : s.memOk) : (vextBody v a b y s).memOk := by
  unfold vextBody
  grind [setG_memOk, legal_memOk, laneIndex_memOk, ok_memOk]
theorem land_memOk {q} (h : s.memOk) : (s.land q).memOk := by
  unfold State.land
  grind [onEng_memOk, setG_memOk, setV_memOk, setM_memOk, orFlags_memOk]
theorem landAt_memOk {q t} (h : s.memOk) : (s.landAt q t).memOk := by
  unfold State.landAt
  grind [land_memOk, foldl_memOk]
theorem RigDest_holdBack_memOk {s t : State} {d : RigDest} (h : t.memOk) : (d.holdBack s t).memOk := by
  cases d <;> exact h
theorem onRigs_memOk {f} (h : s.memOk) : (s.onRigs f).memOk := h
theorem strokeTime_memOk {t} (h : s.memOk) : (s.strokeTime t).memOk := by
  unfold State.strokeTime
  grind [mk_memOk, tick_memOk, foldl_memOk]
/-- An entry of a rig keeps memory in canonical form. -/
def RigOp.KeepsMemOk (o : RigOp) : Prop :=
  ∀ {s : State}, s.memOk → (o.run s).memOk ∧ (o.first s).memOk
theorem onG_memOk {r k} {f : State → Res} (hf : ∀ {s : State}, s.memOk → (f s).memOk) : (RigOp.onG r k f).KeepsMemOk :=
  fun h => ⟨hf h, h⟩
theorem onV_memOk {r k} {f : State → Res} (hf : ∀ {s : State}, s.memOk → (f s).memOk) : (RigOp.onV r k f).KeepsMemOk :=
  fun h => ⟨hf h, h⟩
theorem onM_memOk {r k} {f : State → Res} (hf : ∀ {s : State}, s.memOk → (f s).memOk) : (RigOp.onM r k f).KeepsMemOk :=
  fun h => ⟨hf h, h⟩
theorem noResult_memOk {f : State → Res} (hf : ∀ {s : State}, s.memOk → (f s).memOk) : (RigOp.noResult f).KeepsMemOk :=
  fun h => ⟨hf h, h⟩
theorem rigScalar_memOk {i : Instr} {o : RigOp} (e : Instr.rigScalar i = some o) : o.KeepsMemOk := by
  cases i <;> cases e
  all_goals
    refine fun h => ⟨?_, h⟩
    dsimp only [RigOp.onG, RigOp.noResult]
  case add | sub | mul | mulh | mulhn | div | divn | rem | remn | and | or | xor | shl | shr | sra | rol
      | min | minn | max | maxn | cmpeq | cmplt | cmpltn | cmple | cmplen | mkaAbs | mkaGrp | mkaCore => exact alu2_memOk h
  case clz | ctz | popc | sext | zext | addi | andi | ori | xori | shli | shri | srai => exact alu1_memOk h
  case fadd | fsub | fmul | ffma | fdiv | fsqrt | fmin | fmax => exact putF_memOk h
  case fcmpeq | fcmplt | fcmple => exact putB_memOk h
  case madd | sel | liShort | addpc | fclass => exact ok_memOk.mpr (setG_memOk h)
  case nop => exact ok_memOk.mpr h
  case bfx => exact bfxBody_memOk h
  case bfi => exact bfiBody_memOk h
  case tlook => exact tlookBody_memOk h
  case tset => exact tsetBody_memOk h
  case tclr => exact tclrBody_memOk h
  case ld => exact ldBody_memOk h
  case st => exact stBody_memOk h
  case crrd => exact crrdBody_memOk h
  case crrdSeamt => exact crrdSeamtBody_memOk h
  case fcvt => exact fcvtBody_memOk h
theorem rigVector_memOk {i : Instr} {o : RigOp} (e : Instr.rigVector i = some o) : o.KeepsMemOk := by
  cases i <;> cases e
  all_goals
    refine fun h => ⟨?_, h⟩
    dsimp only [RigOp.onG, RigOp.onV, RigOp.onM, RigOp.noResult]
  case vadd | vsub | vmul | vmin | vmax | vand | vor | vxor | vshl | vshr | vsra => exact legal_memOk (vec2_memOk h)
  case vabs | vneg => exact legal_memOk (vec1_memOk h)
  case vcmpEq | vcmpNe | vcmpLt | vcmpLe | vcmpGt | vcmpGe => exact legal_memOk (vcmp_memOk h)
  case vredAdd | vredMin | vredMax | vredOr => exact legal_memOk (vred_memOk h)
  case vexp2 | vlog2 | vrcpa | vrsqa => exact special_memOk h
  case mand | mor | mxor | mnot => exact ok_memOk.mpr (setM_memOk h)
  case mpop | mfirst => exact ok_memOk.mpr (setG_memOk h)
  case vmov => exact vmovBody_memOk h
  case vfma => exact vfmaBody_memOk h
  case vsel => exact vselBody_memOk h
  case vperm => exact vpermBody_memOk h
  case vcvt => exact vcvtBody_memOk h
  case vpackbk => exact vpackbkBody_memOk h
  case vunbk => exact vunbkBody_memOk h
  case vscale => exact vscaleBody_memOk h
  case vldBody => exact vldBodyBody_memOk h
  case vldSide => exact vldSideBody_memOk h
  case vldMask => exact vldMaskBody_memOk h
  case vstBody => exact vstBodyBody_memOk h
  case vstSide => exact vstSideBody_memOk h
  case vstMask => exact vstMaskBody_memOk h
  case vlds => exact vldsBody_memOk h
  case vsts => exact vstsBody_memOk h
  case vgath => exact vgathBody_memOk h
  case vscat => exact vscatBody_memOk h
  case vbcast => exact vbcastBody_memOk h
  case vins => exact vinsBody_memOk h
  case vext => exact vextBody_memOk h
theorem rigTensor_memOk {i : Instr} {o : RigOp} (e : Instr.rigTensor i = some o) : o.KeepsMemOk := by
  cases i <;> cases e
  case mafd => exact fun h => ⟨mafdBody_memOk h, h⟩
  case mbfd => exact fun h => ⟨mbfdBody_memOk h, h⟩
  case accsc => exact fun h => ⟨accscBody_memOk h, accscFreeze_memOk h⟩
  all_goals exact noResult_memOk fun h => issueRig_memOk h
theorem rigOp_memOk {i : Instr} {o : RigOp} (e : Instr.rigOp i = some o) : o.KeepsMemOk := by
  unfold Instr.rigOp at e
  split at e
  · next hs => cases e; exact rigScalar_memOk hs
  split at e
  · next hv => cases e; exact rigVector_memOk hv
  · exact rigTensor_memOk e
/-- What a rig's opening accepts keeps memory in canonical form, entry by entry. -/
theorem rigEntries_memOk {s : State} (n : Nat) : ∀ {i es}, s.rigEntries i n = .ok es → ∀ e ∈ es, e.2.KeepsMemOk := by
  induction n with
  | zero => exact fun h => by cases h; exact fun _ he => nomatch he
  | succ n ih =>
    intro i es h
    unfold State.rigEntries at h
    extract_lets o w at h
    repeat' split at h
    all_goals try cases h
    next p hp =>
      obtain ⟨r, hr, rfl⟩ : ∃ r, s.rigEntries (i + 1) n = .ok r ∧ es = (s.stageOf i, p) :: r := by
        cases e : s.rigEntries (i + 1) n with
        | error x => rw [e] at h; cases h
        | ok r => rw [e] at h; cases h; exact ⟨r, rfl, rfl⟩
      exact List.forall_mem_cons.mpr ⟨rigOp_memOk hp, ih hr⟩
section
variable {r : RigRun} {p : BitVec 16}
theorem rigEntry_memOk {i stage} {o : RigOp} (ho : o.KeepsMemOk) (h : r.s.memOk) : (r.entry p i stage o).s.memOk := by
  unfold RigRun.entry
  extract_lets s₁ s₂ s₃
  have h₁ : s₁.memOk := onRigs_memOk h
  have h₃ : s₃.memOk := (ho (onCtl_memOk h₁)).2
  split
  · split
    · exact h₃
    · next t e => exact count_memOk (RigDest_holdBack_memOk ((ho h₃).1 t e))
    · split
      · exact h₃
      · exact onRigs_memOk h₃
  · exact h₁
theorem rigStroke_memOk (l : List (Nat × RigOp)) : ∀ {r : RigRun} {i}, (∀ e ∈ l, e.2.KeepsMemOk) → r.s.memOk →
    (r.entries p i l).s.memOk := by
  induction l with
  | nil => exact fun _ => id
  | cons e l ih =>
    intro r i hl h
    obtain ⟨he, hl⟩ := List.forall_mem_cons.mp hl
    exact ih hl (rigEntry_memOk he h)
theorem rigLoop_memOk {deep} {l : List (Nat × RigOp)} (hl : ∀ e ∈ l, e.2.KeepsMemOk) (n : Nat) :
    ∀ {r : RigRun}, r.s.memOk → (r.loop p deep l n).s.memOk := by
  induction n with
  | zero => exact id
  | succ n ih =>
    intro r h
    unfold RigRun.loop
    extract_lets s₁ q start sv s₂ due r₁
    have h₂ : s₂.memOk := onRigs_memOk (landAt_memOk (strokeTime_memOk h))
    split
    · exact h₂
    · exact ih (rigStroke_memOk l hl h₂)
theorem rigClose_memOk {exit : BitVec 16} (h : r.s.memOk) : (r.close p exit).memOk := by
  have landed : r.landAll.memOk := by
    unfold RigRun.landAll
    exact foldl_memOk (fun _ _ => landAt_memOk) _ h
  unfold RigRun.close
  extract_lets s₁ q active s₂ s₃
  have h₂ : s₂.memOk := onRigs_memOk (drainStores_memOk landed)
  clear_value s₂ active q
  have h₃ : s₃.memOk := onSh_memOk (onCtl_memOk h₂)
  split
  · exact takeTrap_memOk h₃
  split
  · split
    · exact takeAsync_memOk h₃
    · exact onCtl_memOk h₃
  · exact takePending_memOk (commitTo_memOk h₃)
end
theorem rigRun_memOk {n l} {es : List (Nat × RigOp)} (hes : ∀ e ∈ es, e.2.KeepsMemOk) (h : s.memOk) :
    (s.rigRun n l es).memOk := by
  unfold State.rigRun
  extract_lets deep t
  have ht : t.memOk := onCtl_memOk (onRigs_memOk h)
  generalize n.toNat + 9 = k
  exact rigClose_memOk (rigLoop_memOk hes k ht)
theorem execRig_memOk {a l} (h : s.memOk) : NextMemOk (execRig a l s) := by
  unfold execRig
  split
  · exact next_memOk.mpr (takeTrap_memOk h)
  · next es e =>
    have hes : ∀ e ∈ es, e.2.KeepsMemOk := by
      unfold State.rigBody at e
      split at e
      · cases e
      · exact rigEntries_memOk _ e
    split
    · exact next_memOk.mpr (takeTrap_memOk h)
    split
    · exact next_memOk.mpr (commitTo_memOk (onRigs_memOk h))
    split
    · exact next_memOk.mpr (holdIssue_memOk h)
    · exact next_memOk.mpr (rigRun_memOk hes h)
theorem execRigsv_memOk {a i} (h : s.memOk) : NextMemOk (execRigsv a i s) := by
  unfold execRigsv
  grind [store_memOk, finish_memOk, consume_memOk, checkedOwn_memOk, ok_memOk]
theorem execRigld_memOk {a i} (h : s.memOk) : NextMemOk (execRigld a i s) := by
  unfold execRigld
  grind [finish_memOk, consume_memOk, checkedOwn_memOk, onlyS_memOk, onRigs_memOk, ok_memOk, trap_memOk]
theorem linkSeen_memOk {i} (h : s.memOk) : (s.linkSeen i).memOk := by
  unfold State.linkSeen
  grind [voteTiles_memOk]
theorem execLinkReplay_memOk {i fails good} (h : s.memOk) : NextMemOk (execLinkReplay i fails good s) := by
  unfold execLinkReplay
  grind [onLink_memOk, linkSeen_memOk, next_memOk]
theorem execSliceRetest_memOk {i good} (h : s.memOk) : NextMemOk (execSliceRetest i good s) := by
  unfold execSliceRetest
  grind [onLink_memOk, linkSeen_memOk, next_memOk]
theorem execLinkRetrain_memOk {i good peer pport hops} (h : s.memOk) : NextMemOk (execLinkRetrain i good peer pport hops s) := by
  unfold execLinkRetrain
  grind [releaseQueued_memOk, onLink_memOk, linkSeen_memOk, next_memOk]
theorem writeRouting_memOk {sys v} (h : s.memOk) : (s.writeRouting sys v).memOk := by
  unfold State.writeRouting
  grind [mk_memOk]
theorem execPanelRoutingWrite_memOk {dom sys v} (h : s.memOk) : NextMemOk (execPanelRoutingWrite dom sys v s) := by
  unfold execPanelRoutingWrite
  grind [byHost_memOk, writeRouting_memOk]
theorem writeQueueState_memOk {q v} (h : s.memOk) : (s.writeQueueState q v).memOk := by
  unfold State.writeQueueState
  grind [activate_memOk, stopQueue_memOk]
theorem writeQueue_memOk {q j w} (h : s.memOk) : (s.writeQueue q j w).memOk := by
  unfold State.writeQueue
  grind [onQueue_memOk, ring_memOk, writeQueueState_memOk]
theorem writeFlim_memOk {v} (h : s.memOk) : (s.writeFlim v).memOk := by
  unfold State.writeFlim
  grind [mk_memOk]
theorem writeRoutings_memOk {i w} (h : s.memOk) : (s.writeRoutings i w).memOk := by
  unfold State.writeRoutings
  grind [writeRouting_memOk]
theorem windowWrite_memOk {dom o w} (h : s.memOk) : (s.windowWrite dom o w).memOk := by
  unfold State.windowWrite
  grind [onReq_memOk, setBound_memOk, writeQueue_memOk, writeFlim_memOk, writeRoutings_memOk]
theorem execControlWindowWrite_memOk {dom o size v} (h : s.memOk) : NextMemOk (execControlWindowWrite dom o size v s) := by
  unfold execControlWindowWrite
  grind [byHost_memOk, windowWrite_memOk]
theorem dropWrite_memOk {p w} (h : s.memOk) : (s.dropWrite p w).memOk := h
theorem execHdmWindowAccess_memOk {p w size v} (h : s.memOk) : NextMemOk (execHdmWindowAccess p w size v s) := by
  unfold execHdmWindowAccess
  grind [mk_memOk, write_memOk, dropWrite_memOk, next_memOk]
theorem exec_memOk (i : Instr) (h : s.memOk) : NextMemOk (exec i s) := by
  cases hs : Instr.rigScalar i with
  | some o => rw [exec_of_rigScalar hs]; exact finish_memOk h (rigScalar_memOk hs h).1
  | none =>
  cases hv : Instr.rigVector i with
  | some o => rw [exec_of_rigVector hv]; exact finish_memOk h (rigVector_memOk hv h).1
  | none =>
  cases i
  all_goals try (cases hs; done)
  all_goals try (cases hv; done)
  all_goals simp only [exec, execBeq, execBne, execBlt, execBge, execBltn, execBgen, branch_memOk,
    execMma, execMmas, execAccz, execAccrn, execAccld, execAccst, issue_memOk,
    execCrwr_memOk, execCrwrFpcr_memOk, execCrwrTid_memOk, execCrwrTcmp_memOk, execCrwrPrio_memOk,
    execCrwrTstat_memOk, execCrwrRigs_memOk, execCrwrSscr_memOk, execTqpush_memOk, execTqpop_memOk, execHalt_memOk,
    execHaltSlot_memOk, execSret_memOk, execYield_memOk, execSleep_memOk, execIdleIssueResume_memOk,
    execTimerExpiry_memOk, execAsyncTrapEntry_memOk, execTrap_memOk, execIllegalInstruction_memOk,
    execPoisonedFetch_memOk, execTreeBlockDelivery_memOk, execTreeFinishForward_memOk, execRootFlagWrite_memOk,
    execRenormFromParent_memOk, execSend_memOk, execSendv_memOk, execSendr_memOk, execFinish_memOk, execRenorm_memOk,
    execRecv_memOk, execRecvv_memOk, execPeek_memOk, execSeatclr_memOk, execSeatset_memOk, execJoin_memOk,
    execBarr_memOk, execBwait_memOk, execFwait_memOk, execFence_memOk, execWatch_memOk, execWake_memOk,
    execSiteq_memOk, execCoxcallPoisoned_memOk, execCoxcallLog_memOk, execCoxcallCheckpoint_memOk,
    execHomeAtomic_memOk, execProxyAtomic_memOk, execAmo_memOk, execCas_memOk, execAtomicResend_memOk,
    execAtomicBusyResend_memOk, execLowAcknowledgement_memOk, execSopen_memOk, execStreamLegStart_memOk,
    execLegRewind_memOk, execStreamCompletion_memOk, execSctlClose_memOk, execSctlAbort_memOk, execSctlAdvance_memOk,
    execSwait_memOk, execDataArrival_memOk, execFinishArrival_memOk, execReplyArrival_memOk, execFinishResend_memOk,
    execBarrierArrival_memOk, execBarrierRelease_memOk, execWatchRequest_memOk, execWatchWakeArrival_memOk,
    execWakeArrival_memOk, execJmp_memOk, execJal_memOk, execJalr_memOk, execMmaExecute_memOk, execMmasExecute_memOk,
    execAcczPerform_memOk, execAccrnPerform_memOk, execAccldPerform_memOk, execAccstPerform_memOk,
    execRegister_memOk, execReside_memOk, execEvict_memOk, execRetire_memOk, execLdm_memOk, execStm_memOk,
    execClusterPortAccess_memOk, execCutComplete_memOk, execCutDeadline_memOk, execRelaunch_memOk,
    execGroupRetirement_memOk, execPlacement_memOk, execGroupStart_memOk, execPeerPanelAdmission_memOk,
    execPeerPanelGroupFault_memOk, execPaddleCreation_memOk, execQueueActivate_memOk, execQueueStop_memOk,
    execDoorbell_memOk, execCommandFetch_memOk, execLaunch_memOk, execAdmissionPass_memOk, execCopy_memOk,
    execRefusalRetry_memOk, execSignalSet_memOk, execSignalAdd_memOk, execWaitsig_memOk, execQueueFence_memOk,
    execPowerBudget_memOk, execPowerRamp_memOk, execPowerSuspend_memOk, execPowerResume_memOk, execFaultLimit_memOk,
    execPageMap_memOk, execPageUnmap_memOk, execPageMigrate_memOk, execDomainCreation_memOk, execSiteAdmission_memOk,
    execRouteSwitch_memOk, execContactMade_memOk, execBringUpStart_memOk, execTrainingPass_memOk,
    execTrainingFailure_memOk, execDrain_memOk, execReadmit_memOk, execContactLost_memOk, execSurpriseRemoval_memOk,
    execLostCleanupComplete_memOk, execDrainComplete_memOk, execDrainDeadline_memOk, execVotedTransaction_memOk,
    execSilentCopyTimeout_memOk, execCopyReset_memOk, execTriadCheckpoint_memOk, execHeartbeat_memOk,
    execDeputyTakeover_memOk, execPanelBringUp_memOk, execCxlLinkTrainingChange_memOk, execRouterFailure_memOk,
    execKeyEnrolment_memOk, execKeyRevocation_memOk, execQuoteRequest_memOk, execDeadlockProbe_memOk,
    execWatchdogExpiry_memOk, execScrubVisit_memOk, execRevisit_memOk, execBucketLeak_memOk,
    execUmpireInterval_memOk, execOperatingPointChange_memOk, execThermalCapStep_memOk, execPhaseLoss_memOk,
    execGovernorTrimRaise_memOk, execRampSample_memOk, execPtpTimestamp_memOk, execMonitorRead_memOk,
    execAlignmentRemeasure_memOk, execCounterExchange_memOk, execLiLong_memOk, execLiHi_memOk, execMafd_memOk,
    execMbfd_memOk, execAccsc_memOk, execWait_memOk, execRig_memOk, execRigsv_memOk, execRigld_memOk,
    execLinkReplay_memOk, execSliceRetest_memOk, execLinkRetrain_memOk, execPanelRoutingWrite_memOk,
    execControlWindowWrite_memOk, execHdmWindowAccess_memOk, h]
theorem meetWord_memOk {k line w e} (h : s.memOk) : (s.meetWord k line w e).memOk := by
  unfold State.meetWord
  grind [onPart_memOk, visit_memOk]
theorem meetCore_memOk {k e line w f} (h : s.memOk) :
    (s.meetCore k e line w f).memOk := by
  unfold State.meetCore
  split
  · exact h
  split
  · exact correctedIn_memOk h
  · exact uncorrectableIn_memOk (onCore_memOk h)
theorem meetWalker_memOk {n c} (h : s.memOk) : (s.meetWalker n c).memOk := by
  unfold State.meetWalker
  grind [haltTriad_memOk, outvoted_memOk, catchUp_memOk]
theorem readAhead_memOk {k w} (h : s.memOk) : (s.readAhead k w).memOk := by
  unfold State.readAhead
  grind [onSh_memOk, portRead_memOk, forgetAhead_memOk]
theorem takeNth_memOk {n} (h : s.memOk) : (s.takeNth n).memOk := by
  unfold State.takeNth
  grind [takeIf_memOk]
theorem meetPacket_memOk {k n e} (h : s.memOk) : (s.meetPacket k n e).memOk := by
  unfold State.meetPacket
  grind [mk_memOk, correctedIn_memOk, uncorrectableIn_memOk]
theorem meetStream_memOk {k core i e w f} (h : s.memOk) : (s.meetStream k core i e w f).memOk := by
  unfold State.meetStream
  grind [onCore_memOk, correctedIn_memOk, uncorrectableIn_memOk]
theorem stopTile_memOk {n} (h : s.memOk) : (s.stopTile n).memOk := by
  unfold State.stopTile
  grind [onCores_memOk]
theorem heed_memOk {i} (h : s.memOk) : (s.heed i).memOk := by
  cases i <;> simp only [State.heed]
  case word => exact meetWord_memOk h
  case general => exact meetCore_memOk h
  case vector => exact meetCore_memOk h
  case accumulator => exact meetCore_memOk h
  case packet => exact meetPacket_memOk h
  case burst => exact meetStream_memOk h
  case stopTile => exact stopTile_memOk h
  case behind => exact onUmpire_memOk h
  case walker => exact meetWalker_memOk h
  case readAhead => exact readAhead_memOk h
  case takeRead => exact takeNth_memOk h
  case triad | cxlError | together | readLate => exact h
  all_goals grind [meetStream_memOk, unsend_memOk, onLink_memOk, onSite_memOk, mk_memOk]
theorem gated_memOk {s t : State} (h : s.memOk) (ht : t.memOk) : (s.gated t).memOk := by
  unfold State.gated
  split
  · exact ht
  · exact h
theorem meet_memOk {i} (h : s.memOk) : (s.meet i).memOk := gated_memOk h (heed_memOk h)

/-! ## Every step -/

theorem arrive_memOk {l} (h : s.memOk) : (s.arrive l).memOk := by
  unfold State.arrive
  grind [mk_memOk, takeAck_memOk, foldl_memOk]
theorem settleReads_memOk {named} (h : s.memOk) : (s.settleReads named).memOk := by
  unfold State.settleReads
  grind [takeIf_memOk]
theorem mirrored_memOk {t : State} {old} (h : t.memOk) : (t.mirrored old).memOk := by
  unfold State.mirrored
  grind [voteTiles_memOk]
theorem mirrorNext_memOk {old mid : State} {o} (h : mid.memOk) (ho : NextMemOk o) : NextMemOk (mirrorNext old mid o) := by
  cases o with
  | next t => exact next_memOk.mpr (mirrored_memOk (gated_memOk h (ho t rfl)))
  | fault f => exact fun _ e => nomatch e
  | refused r => exact fun _ e => nomatch e
/-- A step's beginning, its turn's core selected: time passes, inputs take effect, and a pass that is due runs. -/
theorem passes_memOk (old : State) (h : s.memOk) :
    ((if s.lead.passDue && s.leadUp && !(endsGroup old.turnOp) then s.pass else s).settleReads old.turnOp).memOk := by
  refine settleReads_memOk ?_
  split
  · exact pass_memOk h
  · exact h
theorem begin_memOk (h : s.memOk) : s.begin.memOk := by
  have passed {t : State} (ht : t.memOk) := passes_memOk s (foldl_memOk (fun _ i => meet_memOk (i := i)) t.tick.met (tick_memOk ht))
  unfold State.begin
  split
  · exact passed h
  · exact passed (select_memOk (arrive_memOk h))
end
/-- Settles O34: every row, every input and what a step does beside them keep bytes and owner tags in canonical form. -/
theorem memoryStaysCanonical : Obligations.MemoryStaysCanonical := by
  intro s t h e
  have begun := begin_memOk h
  unfold step at e
  split at e
  · exact mirrorNext_memOk begun (exec_memOk _ begun) t e
  · cases e
    exact mirrored_memOk begun

end Sys2Proof.Machine
end

section

/-! The panel after cold reset, and address forming with the tag table (R41, R171, R178). -/

namespace Sys2Proof.Machine

/-! ## Cold reset -/

/-- After reset no table lists anything: the record of every core is that of its key. -/
theorem reset_coreAt (k : Nat) : State.reset.coreAt k = Core.reset k := by
  unfold State.coreAt
  split
  · next h => rw [h]; rfl
  · rfl
theorem reset_homed : State.reset.homed := ⟨by decide, reset_at 0, fun _ h => nomatch h⟩
theorem reset_link (i : Nat) : State.reset.link i = Link.reset := by
  unfold State.link
  split <;> rfl
/-- Settles O33: every table is empty, so that each entry reads as the reset value of its kind. -/
theorem resetState : Obligations.ResetState := by
  refine ⟨reset_memOk, reset_homed, rfl, rfl, fun k => ?_, fun _ => rfl, fun _ => rfl, fun _ => rfl, fun _ => rfl, fun _ => rfl,
    fun _ => rfl, fun i => ?_, rfl, rfl, rfl, rfl, rfl⟩
  · rw [reset_coreAt]
    exact ⟨rfl, rfl, rfl, rfl, rfl⟩
  · rw [reset_link]
    rfl

/-! ## Address forming (R171) -/

theorem alu2_completes {i : Instr} {s : State} {d a b : GR} {f : BitVec 64 → BitVec 64 → BitVec 64}
    (h : exec i s = s.finish 4 (s.alu2 d a b f)) :
    Completes i s fun t => WritesG s t d (f (s.gv a) (s.gv b)) (s.gp a || s.gp b) 0 4 := completes_ok h (setG_commit_writesG ..)
/-- An address form is its space above the coordinate word's fields; the panel index stands between where it is asked for. -/
theorem nearAddress_eq (space : BitVec 64) (panel : Bool) (b c : BitVec 64) :
    nearAddress space panel b c = (space <<< 62 ||| if panel then (b.extractLsb' 32 8).setWidth 64 <<< 48 else 0) |||
      (((b.extractLsb' 0 9).setWidth 64 <<< 39) ||| ((b.extractLsb' 16 8).setWidth 64 <<< 31) |||
        (c.extractLsb' 0 18).setWidth 64) := by
  simp only [nearAddress, BitVec.or_assoc]

/-! ## The tag table (R41, R178) -/

theorem findAt_eq_findIdx? {α : Type} (p : α → Bool) (l : List α) : findAt p l = l.findIdx? p := by
  induction l with
  | nil => rfl
  | cons x l ih => rw [findAt, List.findIdx?_cons, ih]
/-- What the table's look-up answers: the first valid entry of the key. -/
theorem tagFind_eq_some {s : State} {key : BitVec 64} {i : Nat} : s.tagFind key = some i ↔
    ∃ h : i < 64, (s.core.sh.tag[i].valid && s.core.sh.tag[i].key == key) = true ∧
      ∀ j (hj : j < i), ¬ (s.core.sh.tag[j].valid && s.core.sh.tag[j].key == key) = true := by
  rw [State.tagFind, findAt_eq_findIdx?, List.findIdx?_eq_some_iff_getElem]
  simp
theorem tagFind_eq_none {s : State} {key : BitVec 64} :
    s.tagFind key = none ↔ ∀ i (h : i < 64), ¬ (s.core.sh.tag[i].valid && s.core.sh.tag[i].key == key) = true := by
  rw [State.tagFind, findAt_eq_findIdx?, List.findIdx?_eq_none_iff]
  simp only [Vector.mem_toList_iff, Bool.not_eq_true]
  constructor
  · exact fun h i hi => h _ (Vector.getElem_mem hi)
  · intro h x hx
    obtain ⟨i, hi, rfl⟩ := Vector.mem_iff_getElem.mp hx
    exact h i hi
theorem setTag_tag {s : State} {i j : Nat} {e : TagEntry} (hj : j < 64) :
    (s.setTag i e).core.sh.tag[j] = if i = j then e else s.core.sh.tag[j] := Vector.getElem_setIfInBounds hj
/-- A key that no entry has is found where it is installed. -/
theorem tagFind_setTag {s : State} {key : BitVec 64} {i : Nat} (hi : i < 64) (h : s.tagFind key = none) :
    (s.setTag i ⟨key, true⟩).tagFind key = some i := by
  rw [tagFind_eq_none] at h
  refine tagFind_eq_some.mpr ⟨hi, ?_, fun j hj => ?_⟩
  · rw [setTag_tag hi, if_pos rfl]
    simp
  · rw [setTag_tag (by omega), if_neg (by omega)]
    exact h j (by omega)
/-- No key is found at an entry that is not valid. -/
theorem tagFind_cleared (s : State) (i : Nat) (k key : BitVec 64) : (s.setTag i ⟨k, false⟩).tagFind key ≠ some i := by
  intro h
  obtain ⟨hi, valid, _⟩ := tagFind_eq_some.mp h
  rw [setTag_tag hi, if_pos rfl] at valid
  simp at valid

section
variable {s : State} {d a b : GR}
theorem tagIndex_clean (h : s.gp a = false) (hi : (s.gv a).toNat < 64) (k : Nat → Res) : s.tagIndex a k = k (s.gv a).toNat := by
  rw [State.tagIndex, consume_clean h, if_neg (by omega)]
theorem exec_tlook : exec (.tlook d a) s = s.finish 4 (tlookBody d a s) := rfl
theorem exec_tset : exec (.tset d a b) s = s.finish 4 (tsetBody d a b s) := rfl
theorem exec_tclr : exec (.tclr a) s = s.finish 4 (tclrBody a s) := rfl
end

/-- Settles O4: the address forms field by field, and the look-up after an entry is installed or cleared. -/
theorem addressFormsAndTags : Obligations.AddressFormsAndTags := by
  refine ⟨⟨fun s d a b => ?_, fun s d a b => ?_, fun s d a b => ?_⟩, fun s d a hp => ?_, fun s d a hp => ?_,
    fun s d a b ha hb hi free => ?_, fun s d a b i ha hb hi found => ?_, fun s a ha hi => ?_⟩
  · simpa [nearAddress_eq] using alu2_completes (i := .mkaAbs d a b) (s := s) rfl
  · simpa [nearAddress_eq] using alu2_completes (i := .mkaGrp d a b) (s := s) rfl
  · simpa [nearAddress_eq] using alu2_completes (i := .mkaCore d a b) (s := s) rfl
  · refine completes_ok ?_ (setG_commit_writesG ..)
    rw [exec_tlook, tlookBody, hp]
    rfl
  · refine completes_ok ?_ (setG_commit_writesG ..)
    rw [exec_tlook, tlookBody, hp]
    rfl
  · have e : exec (.tset d a b) s =
        s.finish 4 (.ok ((s.setTag (s.gv a).toNat ⟨s.gv b, true⟩).setG d (BitVec.ofNat 64 (s.gv a).toNat) false)) := by
      rw [exec_tset, tsetBody, tagIndex_clean ha hi, hb, free]
      rfl
    have index : BitVec.ofNat 64 (s.gv a).toNat = s.gv a := BitVec.ofNat_toNat _ _ |>.trans (BitVec.setWidth_eq _)
    obtain ⟨hv, hp, _, ⟨others, _⟩, pc⟩ := setG_commit_writesG (s.setTag (s.gv a).toNat ⟨s.gv b, true⟩) d
      (BitVec.ofNat 64 (s.gv a).toNat) false
    exact completes_ok e ⟨hv.trans index, hp, tagFind_setTag hi free, others, ⟨rfl, rfl, rfl⟩, rfl, pc⟩
  · refine completes_ok ?_ (setG_commit_writesG ..)
    rw [exec_tset, tsetBody, tagIndex_clean ha hi, hb, found]
    rfl
  · have e : exec (.tclr a) s = s.finish 4 (.ok (s.setTag (s.gv a).toNat
        ⟨(s.core.sh.tag[(s.gv a).toNat]?.map (·.key)).getD 0, false⟩)) := by
      rw [exec_tclr, tclrBody, tagIndex_clean ha hi]
    exact completes_ok e ⟨fun key => tagFind_cleared s _ _ key, rfl, ⟨rfl, rfl, rfl⟩, rfl, rfl⟩

end Sys2Proof.Machine
end

section

/-! What a store of the selected core leaves: its bytes, poison codes and owner tags in its own scratchpad, and its place at a
peer's port (R39, R40, R175). -/

namespace Sys2Proof.Machine

/-! ## Memory as it is read -/

theorem SameMemory.trans {s t u : State} (h : SameMemory s t) (g : SameMemory t u) : SameMemory s u := fun a =>
  ⟨(g a).1.trans (h a).1, (g a).2.1.trans (h a).2.1, (g a).2.2.trans (h a).2.2⟩
theorem SameMemory.of_eq {s t : State} (hm : t.mem = s.mem) (hp : t.pois = s.pois) (hn : t.nodes = s.nodes) (ht : t.tags = s.tags) :
    SameMemory s t := fun a => by
  refine ⟨?_, ?_, ?_⟩
  · rw [State.byte, State.byte, hm]
  · unfold State.poisoned State.poisonBase State.node
    rw [hp, hn]
  · rw [State.tag, State.tag, ht]
theorem commit_sameMemory (s : State) (n : Nat) : SameMemory s (s.commit n) := SameMemory.of_eq rfl rfl rfl rfl

/-! ## A store into the core's own scratchpad -/

section
variable (s : State) (st : Bool) (off : Nat) (l : List (BitVec 8)) (p : Bool)
theorem storeTag_tagSlot (b : BitVec 5) : storeTag s.tagSlot b = s.ownedBy b := by
  unfold State.tagSlot State.ownedBy
  split <;> rfl
theorem retag_byte (a n : Nat) (f : BitVec 5 → BitVec 5) (b : Nat) : (s.retag a n f).byte b = s.byte b := by
  rw [State.byte, State.byte, retag_mem]
theorem retag_poisoned (a n : Nat) (f : BitVec 5 → BitVec 5) (b : Nat) : (s.retag a n f).poisoned b = s.poisoned b := by
  unfold State.poisoned State.poisonBase State.node
  rw [retag_pois, retag_nodes]
theorem storeOf_byte_in {i : Nat} (h : i < l.length) : (s.storeOf st off l p).byte (nodeBase s.here + off + i) = l[i] := by
  rw [State.storeOf, retag_byte, writeOf_byte_in s st s.here off l p i h]
theorem storeOf_byte_out : SameBytesBut s (s.storeOf st off l p) (nodeBase s.here + off) l.length := fun b h => by
  rw [State.storeOf, retag_byte, writeOf_byte_out s st s.here off l p b h]
/-- Poison codes after a store: of the words it touches those of poisoned data, and none of a word it covers with clean data. -/
theorem storeOf_poisoned (b : Nat) : (s.storeOf st off l p).poisoned b =
    if (nodeBase s.here + off) / 8 ≤ b / 8 ∧ b / 8 < (nodeBase s.here + off + l.length + 7) / 8 then
      (if p then true
        else if nodeBase s.here + off ≤ 8 * (b / 8) ∧ 8 * (b / 8) + 8 ≤ nodeBase s.here + off + l.length then false
        else s.poisoned b)
    else s.poisoned b := by
  rw [State.storeOf, retag_poisoned, writeOf_poisoned]
theorem storeOf_owns : Owns s (s.storeOf st off l p) (nodeBase s.here + off) l.length := by
  intro b
  have tag : (s.writeOf st s.here off l p).tag b = s.tag b := by
    rw [State.tag, (writeOf_same s st s.here off l p).tags]
    rfl
  unfold State.storeOf
  rw [retag_tag, tag, storeTag_tagSlot]
theorem storeOf_here : (s.storeOf st off l p).here = s.here := (storeOf_kept st l p).1
end

/-- The bytes of a number, as its bits stand. -/
theorem leBytes_extract {w : Nat} (n : Nat) (v : BitVec w) {i : Nat} (h : i < (leBytes n v.toNat).length) :
    (leBytes n v.toNat)[i] = v.extractLsb' (8 * i) 8 := by
  rw [leBytes_get]
  apply BitVec.eq_of_toNat_eq
  rw [BitVec.toNat_ofNat, BitVec.extractLsb'_toNat, Nat.shiftRight_eq_div_pow, pow_mul]
  rfl

section
variable {s : State} {a : GR} {w : StW} {d : BitVec 13}
theorem exec_st (r : GR) : exec (.st r a w d) s = s.finish 4 (stBody r a w d s) := rfl
theorem stBody_own {off : Nat} (r : GR) (hg : s.gp a = false) (hp : s.path (s.gv a + d.signExtend 64) w.bytes = .own off) :
    stBody r a w d s = .ok (s.storeOf true off (leBytes w.bytes (s.gv r).toNat) (s.gp r)) := by
  simp only [stBody, consume_clean hg, State.checked, State.based, hp, State.storeTo]
theorem stBody_peer {k off : Nat} (r : GR) (hg : s.gp a = false) (hp : s.path (s.gv a + d.signExtend 64) w.bytes = .peer k off) :
    stBody r a w d s = .ok (s.queueOf true k off (leBytes w.bytes (s.gv r).toNat) (s.gp r)) := by
  simp only [stBody, consume_clean hg, State.checked, State.based, hp, State.storeTo]
end

theorem commit_passes {s t : State} (h : t.core.ctl = s.core.ctl) (n : Nat) : Passes s (t.commit n) (s.pc + BitVec.ofNat 16 n) := by
  rw [Passes, commit_ctl, State.ctlAt, State.ctlAt, State.pc, State.pc, Core.countN, Core.countN, h]

/-! ## What the port's operations keep of the selected core -/

/-- The selected core is the same one, with the same control registers. -/
def SameCtl (s t : State) : Prop := t.here = s.here ∧ t.core.ctl = s.core.ctl

theorem SameCtl.refl (s : State) : SameCtl s s := ⟨rfl, rfl⟩
theorem SameCtl.trans {s t u : State} (h : SameCtl s t) (g : SameCtl t u) : SameCtl s u := ⟨g.1.trans h.1, g.2.trans h.2⟩
theorem foldl_sameCtl {α : Type} {f : State → α → State} (hf : ∀ s x, SameCtl s (f s x)) (l : List α) :
    ∀ s : State, SameCtl s (l.foldl f s) := by
  induction l with
  | nil => exact SameCtl.refl
  | cons x r ih => exact fun s => (hf s x).trans (ih _)
/-- The selected core with its registers and engines is as it was. -/
def SameCore (s t : State) : Prop := SameCtl s t ∧ t.core.regs = s.core.regs ∧ t.core.eng = s.core.eng

theorem SameCore.refl (s : State) : SameCore s s := ⟨SameCtl.refl s, rfl, rfl⟩
theorem SameCore.trans {s t u : State} (h : SameCore s t) (g : SameCore t u) : SameCore s u :=
  ⟨h.1.trans g.1, g.2.1.trans h.2.1, g.2.2.trans h.2.2⟩
theorem SameButWakes.sameCore {s t : State} (h : SameButWakes s t) : SameCore s t := by
  obtain ⟨state, ⟨regs, ctl, eng, _⟩, _⟩ := h
  exact ⟨⟨by rw [state], ctl⟩, regs, eng⟩
theorem foldl_sameCore {α : Type} {f : State → α → State} (hf : ∀ s x, SameCore s (f s x)) (l : List α) :
    ∀ s : State, SameCore s (l.foldl f s) := by
  induction l with
  | nil => exact SameCore.refl
  | cons x r ih => exact fun s => (hf s x).trans (ih _)

section
variable (s : State)
theorem onCore_sameCore (k : Nat) {f : Core → Core} (hf : ∀ c, (f c).ctl = c.ctl ∧ (f c).regs = c.regs ∧ (f c).eng = c.eng) : SameCore s (s.onCore k f) := by
  unfold State.onCore State.setCore State.coreAt
  split
  · exact ⟨⟨rfl, (hf _).1⟩, (hf _).2⟩
  · exact SameCore.refl s
theorem writeOf_sameCore (st : Bool) (k off : Nat) (l : List (BitVec 8)) (p : Bool) : SameCore s (s.writeOf st k off l p) :=
  (writeOf_same s st k off l p).sameCore
theorem retag_sameCore (a n : Nat) (f : BitVec 5 → BitVec 5) : SameCore s (s.retag a n f) := by
  have core := retag_core s a n f
  exact ⟨⟨retag_here s a n f, congrArg Core.ctl core⟩, congrArg Core.regs core, congrArg Core.eng core⟩
theorem portStore_sameCore (k : Nat) (q : PortStore) : SameCore s (s.portStore k q) :=
  (writeOf_sameCore s q.st k q.off q.bytes q.p).trans (retag_sameCore _ _ _ _)
theorem putWord_sameCore (owner : SlotId) (e : End) (i : Nat) (w : Nat × Bool) : SameCore s (s.putWord owner e i w) := by
  cases e with
  | near k off =>
    have h := writeOf_sameCore s false k (off + 8 * i) (leBytes 8 w.1) w.2
    unfold State.putWord
    dsimp only
    split
    · exact h.trans (retag_sameCore _ _ _ _)
    · exact h
  | far f => exact SameCore.refl s
  | peer a => exact SameCore.refl s
theorem putWords_sameCore (owner : SlotId) (e : End) (l : List (Nat × Bool)) :
    ∀ (s : State) (i : Nat), SameCore s (s.putWords owner e i l) := by
  induction l with
  | nil => exact fun s _ => SameCore.refl s
  | cons w r ih => exact fun s i => (putWord_sameCore s owner e i w).trans (ih _ _)
theorem onSh_sameCore (f : Shared → Shared) : SameCore s (s.onSh f) := ⟨⟨rfl, rfl⟩, rfl, rfl⟩
theorem landWords_sameCore (ws : List Nat) : SameCore s (s.landWords ws) := by
  refine foldl_sameCore (fun s k => ?_) _ s
  dsimp only
  split
  · exact SameCore.refl s
  · split
    · exact SameCore.refl s
    · split
      · exact SameCore.refl s
      · exact (foldl_sameCore (fun s f => putWords_sameCore _ _ _ s 0) _ s).trans (onSh_sameCore _ _)
theorem portPerform_sameCore (k j : Nat) : SameCore s (s.portPerform k j) := by
  unfold State.portPerform
  split
  · exact SameCore.refl s
  · refine SameCore.trans ?_ (portStore_sameCore _ k _)
    exact onCore_sameCore s k fun _ => ⟨rfl, rfl, rfl⟩
theorem portServe_sameCore (k i : Nat) : SameCore s (s.portServe k i) := by
  unfold State.portServe
  dsimp only
  split
  · exact portPerform_sameCore s k _
  · exact SameCore.refl s
theorem portUntil_sameCore (k i : Nat) : SameCore s (s.portUntil k i) := foldl_sameCore (fun s _ => portServe_sameCore s k _) _ s
theorem portTurns_sameCore (k : Nat) (ws : List Nat) (n : Nat) : ∀ s : State, SameCore s (s.portTurns k ws n) := by
  induction n with
  | zero => exact fun s => (portUntil_sameCore s k _).trans (onCore_sameCore _ k fun _ => ⟨rfl, rfl, rfl⟩)
  | succ n ih =>
    intro s
    unfold State.portTurns
    dsimp only
    split
    · exact ((portUntil_sameCore s k _).trans (portPerform_sameCore _ k _)).trans (ih _)
    · exact (portUntil_sameCore s k _).trans (onCore_sameCore _ k fun _ => ⟨rfl, rfl, rfl⟩)
theorem portRead_sameCore (k : Nat) (ws : List Nat) : SameCore s (s.portRead k ws) :=
  (landWords_sameCore s ws).trans (portTurns_sameCore k ws _ _)
theorem drainStores_sameCore : SameCore s s.drainStores := by
  refine foldl_sameCore (fun s k => ?_) _ s
  dsimp only
  split
  · exact SameCore.refl s
  · exact portRead_sameCore s k _
theorem putLate_sameCtl (r : LateReg) (x : Nat) (p : Bool) : SameCtl s (s.putLate r x p) := by
  cases r <;> exact ⟨rfl, rfl⟩
theorem takeRead_sameCtl (q : Late) : SameCtl s (s.takeRead q) := (portRead_sameCore s _ _).1.trans (putLate_sameCtl _ _ _ _)
theorem takeIf_sameCtl (p : Late → Bool) : SameCtl s (s.takeIf p) := by
  unfold State.takeIf
  dsimp only
  split
  · exact SameCtl.refl s
  · exact (onSh_sameCore s _).1.trans (foldl_sameCtl takeRead_sameCtl _ _)
theorem takeWords_sameCtl (ws : List Nat) : SameCtl s (s.takeWords ws) := takeIf_sameCtl s _
end

/-! ## A store to a peer of the cluster -/

section
variable (s : State)
theorem output_core (n : Nat) : (s.output n).core = s.core := by unfold State.output; split <;> rfl
theorem output_here (n : Nat) : (s.output n).here = s.here := by unfold State.output; split <;> rfl
theorem output_coreAt (n k : Nat) : (s.output n).coreAt k = s.coreAt k := by unfold State.output; split <;> rfl
theorem output_memory (n : Nat) : SameMemory s (s.output n) := by
  unfold State.output
  split <;> exact fun a => ⟨rfl, rfl, rfl⟩
end

/-- A peer's record changes and nothing else. -/
theorem onCore_peer (s : State) {k : Nat} (hk : k ≠ s.here) (f : Core → Core) : ∃ p, s.onCore k f = { s with peers := p } := by
  unfold State.onCore State.setCore
  rw [if_neg hk]
  exact ⟨_, rfl⟩

/-- What the stores of an access wait as: one for each aligned dword. -/
def State.waitingStores (s : State) (st : Bool) (off : Nat) (l : List (BitVec 8)) (p : Bool) : List PortStore :=
  (chunks8 l.length l).mapIdx fun i b => s.waitingStore st (off + 8 * i) b p

/-- A commit changes the selected core alone. -/
theorem commit_coreAt (s : State) (n : Nat) {k : Nat} (hk : k ≠ s.here) : (s.commit n).coreAt k = s.coreAt k := by
  rw [State.coreAt, State.coreAt, commit_here, if_neg hk, if_neg hk]
  rfl
theorem commit_pc (s : State) (n : Nat) : (s.commit n).pc = s.pc + BitVec.ofNat 16 n := rfl

/-- Stores join those that wait at a core's port. -/
def Core.receives (new : List PortStore) (c : Core) : Core := { c with sh := { c.sh with port := c.sh.port ++ new } }
/-- Stores wait at the ports of peers in addition: no byte, no register and no late read of the core changes, and of its control
registers only the counters. -/
def Queues (s t : State) (new : Nat → List PortStore) : Prop :=
  (∀ j, j ≠ s.here → (t.coreAt j).sh.port = (s.coreAt j).sh.port ++ new j) ∧
  SameMemory s t ∧ t.core.regs = s.core.regs ∧ t.here = s.here ∧ t.core.sh.late = s.core.sh.late ∧
  t.core.ctl = { s.core.ctl with pmc := t.core.ctl.pmc }

section
variable (s : State) {k : Nat} (st : Bool) (off : Nat) (l : List (BitVec 8)) (p : Bool)
theorem queueOf_eq : s.queueOf st k off l p =
    ((((s.takeWords (wordsOf (nodeBase k + off) l.length)).onCore k (Core.receives (s.waitingStores st off l p))).forgetAhead k
      (wordsOf (nodeBase k + off) l.length)).countDirect (chunks8 l.length l).length).output (chunks8 l.length l).length := rfl
theorem queueOf_queues (hk : k ≠ s.here) :
    Queues (s.takeWords (wordsOf (nodeBase k + off) l.length)) (s.queueOf st k off l p)
      fun j => if j = k then s.waitingStores st off l p else [] := by
  obtain ⟨here, ctl⟩ := takeWords_sameCtl s (wordsOf (nodeBase k + off) l.length)
  have hk' : k ≠ (s.takeWords (wordsOf (nodeBase k + off) l.length)).here := fun e => hk (e.trans here)
  rw [queueOf_eq]
  generalize s.takeWords (wordsOf (nodeBase k + off) l.length) = u at *
  generalize s.waitingStores st off l p = new
  have port := fun j => coreAt_onCore u k j (Core.receives new)
  obtain ⟨q, e⟩ := onCore_peer u hk' (Core.receives new)
  rw [e] at port ⊢
  refine ⟨fun j hj => ?_, SameMemory.trans (SameMemory.of_eq rfl rfl rfl rfl) (output_memory _ _), ?_, ?_, ?_, ?_⟩
  · have same (w : State) (hw : w.here = u.here) (hp : w.peers = q) : w.coreAt j = ({ u with peers := q } : State).coreAt j := by
      unfold State.coreAt
      rw [hw, hp, if_neg hj, if_neg hj]
    rw [output_coreAt, same (State.countDirect (State.forgetAhead { u with peers := q } _ _) _) rfl rfl, port]
    dsimp only
    split
    · next e => rw [e]; rfl
    · simp
  · rw [output_core]; rfl
  · rw [output_here]; rfl
  · rw [output_core]; rfl
  · rw [output_core]; rfl
/-- An access of at most a dword waits as one store. -/
theorem waitingStores_dword (h : 0 < l.length) (h' : l.length ≤ 8) : s.waitingStores st off l p = [s.waitingStore st off l p] := by
  unfold State.waitingStores
  obtain ⟨n, e⟩ : ∃ n, l.length = n + 1 := ⟨l.length - 1, by omega⟩
  rw [e, chunks8, if_pos h']
  rfl
end

/-! ## The port performs a store (R40) -/

section
variable {s : State} {q : PortStore}
theorem clusterPos_lt (k : Nat) : clusterPos k < 32 := by unfold clusterPos; omega
theorem coreAt_here (s : State) : s.coreAt s.here = s.core := if_pos rfl
/-- The one store that waits may be performed where the peer writes none of its words on another path. -/
theorem portReady_only (hp : s.core.sh.port = [q]) (hw : shareWord (q.words s.here) (s.coreAt q.src).writing = false) (i : Nat) :
    s.portReady s.here i = if clusterPos q.src = i then [0] else [] := by
  unfold State.portReady
  rw [coreAt_here, hp]
  by_cases e : clusterPos q.src = i <;> simp [e, hw]
theorem portTurn_only (hp : s.core.sh.port = [q]) (hw : shareWord (q.words s.here) (s.coreAt q.src).writing = false) :
    s.portTurn s.here = some (clusterPos q.src) := by
  have lt := clusterPos_lt q.src
  have only (i : Nat) : (s.portReady s.here i).isEmpty = false ↔ i = clusterPos q.src := by
    rw [portReady_only hp hw]
    by_cases e : clusterPos q.src = i
    · simp [e]
    · simp [e, Ne.symm e]
  cases found : s.portTurn s.here with
  | some i =>
    have ready := List.find?_some found
    rw [Bool.not_eq_true', only] at ready
    rw [ready]
  | none =>
    rw [State.portTurn, List.find?_eq_none] at found
    have turn := found (clusterPos q.src) (List.mem_map.mpr
      ⟨(clusterPos q.src + 32 - (s.coreAt s.here).sh.turn % 32) % 32, List.mem_range.mpr (Nat.mod_lt _ (by decide)), by omega⟩)
    rw [(only _).mpr rfl] at turn
    exact absurd rfl turn
theorem portServe_only (hp : s.core.sh.port = [q]) (hw : shareWord (q.words s.here) (s.coreAt q.src).writing = false) :
    s.portServe s.here (clusterPos q.src) =
      (s.onSh fun h => { h with port := [], turn := (clusterPos q.src + 1) % 32 }).portStore s.here q := by
  unfold State.portServe
  rw [portReady_only hp hw, if_pos rfl]
  simp only [List.length_singleton, Nat.mod_one, List.getElem?_cons_zero]
  unfold State.portPerform
  simp only [coreAt_here, hp, List.getElem?_cons_zero, State.onCore, State.setCore, if_pos, dropAt]
  rfl
end

/-! ## The clauses -/

section
variable {s : State} {a : GR} {w : StW} {d : BitVec 13} {k off : Nat}
theorem stW_bytes (w : StW) : 0 < w.bytes ∧ w.bytes ≤ 8 ∧ 8 % w.bytes = 0 ∧ (w.bytes = 8 ↔ w = .w64) := by cases w <;> decide
end

section
variable {s : State} {r a : GR} {w : StW} {d : BitVec 13} {k off : Nat}
theorem st_own {m : Nat} (hg : s.gp a = false) (hp : s.path (s.gv a + d.signExtend 64) w.bytes = .own off)
    (hm : nodeBase s.here + off = m) :
    Completes (.st r a w d) s fun t =>
      (∀ i, i < w.bytes → t.byte (m + i) = (s.gv r).extractLsb' (8 * i) 8) ∧ SameBytesBut s t m w.bytes ∧
      (s.gp r = true → t.poisoned m = true) ∧ (s.gp r = false → w = .w64 → t.poisoned m = false) ∧
      (s.gp r = false → w ≠ .w64 → t.poisoned m = s.poisoned m) ∧
      (∀ b, b / 8 ≠ m / 8 → t.poisoned b = s.poisoned b) ∧
      t.tag m = s.ownedBy (s.tag m) ∧ (∀ b, b / 64 ≠ m / 64 → t.tag b = s.tag b) ∧
      t.core.regs = s.core.regs ∧ t.core.eng = s.core.eng ∧ Passes s t (s.pc + 4) := by
  obtain ⟨regs, ctl, eng⟩ := storeOf_core s true off (leBytes w.bytes (s.gv r).toNat) (s.gp r)
  obtain ⟨pos, short, divides, dword⟩ := stW_bytes w
  have aligned : m % w.bytes = 0 := by
    have := (path_own_iff.mp hp).2.2.2
    rw [← hm, nodeBase]
    cases w <;> simp only [StW.bytes] at this ⊢ <;> omega
  have inside : m % 8 + w.bytes ≤ 8 := by cases w <;> simp only [StW.bytes] at aligned ⊢ <;> omega
  have poison := storeOf_poisoned s true off (leBytes w.bytes (s.gv r).toNat) (s.gp r)
  have tag := storeOf_owns s true off (leBytes w.bytes (s.gv r).toNat) (s.gp r)
  have out := storeOf_byte_out s true off (leBytes w.bytes (s.gv r).toNat) (s.gp r)
  have bytes (i : Nat) (hi : i < w.bytes) : (s.storeOf true off (leBytes w.bytes (s.gv r).toNat) (s.gp r)).byte
      (nodeBase s.here + off + i) = (s.gv r).extractLsb' (8 * i) 8 :=
    (storeOf_byte_in s true off _ _ (by rwa [leBytes_length])).trans (leBytes_extract _ _ _)
  rw [leBytes_length] at poison tag out
  simp only [hm] at bytes poison tag out
  have word : m / 8 < (m + w.bytes + 7) / 8 := by omega
  have step : exec (.st r a w d) s = s.finish 4 (.ok (s.storeOf true off (leBytes w.bytes (s.gv r).toNat) (s.gp r))) :=
    congrArg (s.finish 4) (stBody_own r hg hp)
  generalize s.storeOf true off (leBytes w.bytes (s.gv r).toNat) (s.gp r) = u at *
  have mem := commit_sameMemory u 4
  refine completes_ok step ⟨fun i hi => (mem _).1.trans (bytes i hi), fun b hb => (mem b).1.trans (out b hb), fun h => ?_, fun h e => ?_, fun h e => ?_,
    fun b hb => ?_, ?_, fun b hb => ?_, ?_, ?_, ?_⟩
  · exact ((mem m).2.1.trans (poison m)).trans (by rw [if_pos ⟨le_refl _, word⟩, if_pos h])
  · exact ((mem m).2.1.trans (poison m)).trans (by
      rw [if_pos ⟨le_refl _, word⟩, if_neg (by simp [h]), if_pos]
      have := dword.mpr e
      omega)
  · exact ((mem m).2.1.trans (poison m)).trans (by
      rw [if_pos ⟨le_refl _, word⟩, if_neg (by simp [h]), if_neg]
      have := mt dword.mp e
      omega)
  · exact ((mem b).2.1.trans (poison b)).trans (if_neg (by omega))
  · exact ((mem m).2.2.trans (tag m)).trans (if_pos (by omega))
  · exact ((mem b).2.2.trans (tag b)).trans (if_neg (by omega))
  · exact (commit_core_regs u 4).trans regs
  · exact (commit_core_eng u 4).trans eng
  · exact commit_passes ctl 4
theorem st_peer (hg : s.gp a = false) (hp : s.path (s.gv a + d.signExtend 64) w.bytes = .peer k off) (hk : k ≠ s.here) :
    let u := s.takeWords (wordsOf (nodeBase k + off) w.bytes)
    Completes (.st r a w d) s fun t =>
      (t.coreAt k).sh.port = (u.coreAt k).sh.port ++ [s.waitingStore true off (leBytes w.bytes (s.gv r).toNat) (s.gp r)] ∧
      SameMemory u t ∧ t.core.regs = u.core.regs ∧ t.pc = s.pc + 4 := by
  intro u
  obtain ⟨pos, short, _, _⟩ := stW_bytes w
  have queued := queueOf_queues s true off (leBytes w.bytes (s.gv r).toNat) (s.gp r) hk
  rw [waitingStores_dword _ _ _ _ _ (by simpa using pos) (by simpa using short), leBytes_length] at queued
  obtain ⟨here, ctl⟩ := takeWords_sameCtl s (wordsOf (nodeBase k + off) w.bytes)
  obtain ⟨port, mem, regs, same, late, ctl'⟩ := queued
  have step : exec (.st r a w d) s = s.finish 4 (.ok (s.queueOf true k off (leBytes w.bytes (s.gv r).toNat) (s.gp r))) :=
    congrArg (s.finish 4) (stBody_peer r hg hp)
  generalize s.queueOf true k off (leBytes w.bytes (s.gv r).toNat) (s.gp r) = v at *
  refine completes_ok step ⟨?_, mem.trans (commit_sameMemory v 4), (commit_core_regs v 4).trans regs, ?_⟩
  · rw [commit_coreAt _ _ (by rw [same, here]; exact hk), port k (by rw [here]; exact hk)]
    simp [u]
  · rw [commit_pc, State.pc, ctl', ctl]
    rfl
theorem portAccess {q : PortStore} (up : s.tileUp = true) (hp : s.core.sh.port = [q])
    (hw : shareWord (q.words s.here) (s.coreAt q.src).writing = false) :
    Completes .clusterPortAccess s fun t => t.core.sh.port = [] ∧
      (∀ i, i < q.bytes.length → t.byte (nodeBase s.here + q.off + i) = q.bytes[i]!) ∧
      SameBytesBut s t (nodeBase s.here + q.off) q.bytes.length ∧ t.core.regs = s.core.regs ∧ t.core.ctl = s.core.ctl := by
  refine ⟨(s.onSh fun h => { h with port := [], turn := (clusterPos q.src + 1) % 32 }).portStore s.here q, ?_, ?_⟩
  · change execClusterPortAccess s = _
    rw [execClusterPortAccess, portTurn_only hp hw]
    simp only [if_pos up, portServe_only hp hw]
  · obtain ⟨_, wakes, _⟩ := writeOf_same (s.onSh fun h => { h with port := [], turn := (clusterPos q.src + 1) % 32 }) q.st s.here q.off
      q.bytes q.p
    obtain ⟨regs, ctl, _, sh⟩ := wakes
    refine ⟨?_, fun i hi => ?_, fun b hb => ?_, ?_, ?_⟩
    · rw [State.portStore, retag_core, sh]
      rfl
    · rw [State.portStore, retag_byte, writeOf_byte_in _ _ _ _ _ _ _ hi, getElem!_pos q.bytes i hi]
    · rw [State.portStore, retag_byte, writeOf_byte_out _ _ _ _ _ _ _ hb]
      rfl
    · rw [State.portStore, retag_core, regs]
      rfl
    · rw [State.portStore, retag_core, ctl]
      rfl
end

/-- Settles O8: the store's own rule, its place at a peer's port, and the port's turn. -/
theorem storeEffects : Obligations.StoreEffects :=
  ⟨fun _ _ _ _ _ _ hg hp => st_own hg hp rfl, fun _ _ _ _ _ _ _ hg hp hk => ⟨fun hl => takeWords_nil _ hl, st_peer hg hp hk⟩,
    fun _ _ up hp hw => portAccess up hp hw⟩

end Sys2Proof.Machine
end

section

/-! Accesses of several elements, one after another: stores into the core's own scratchpad, stores that wait at peers' ports, and
reads of peers with nothing of the core on its way (R176, R187). -/

namespace Sys2Proof.Machine

/-! ## Stores into the own scratchpad, one after another -/

/-- Some of the steps apply f to a reading, the others leave it: with f idempotent it is applied or not. -/
theorem foldl_idempotent {σ α β : Type} {step : σ → α → σ} {r : σ → β} {touch : α → Bool} {f : β → β} (hf : ∀ x, f (f x) = f x)
    {kept : σ → Prop} (l : List α) (hk : ∀ s, ∀ w ∈ l, kept s → kept (step s w))
    (hs : ∀ s, ∀ w ∈ l, kept s → r (step s w) = if touch w then f (r s) else r s) :
    ∀ s, kept s → r (l.foldl step s) = if l.any touch then f (r s) else r s := by
  induction l with
  | nil => exact fun s _ => rfl
  | cons w l ih =>
    intro s h
    rw [List.foldl_cons, ih (fun s w hw => hk s w (List.mem_cons_of_mem _ hw)) (fun s w hw => hs s w (List.mem_cons_of_mem _ hw)) _
      (hk s w List.mem_cons_self h), hs s w List.mem_cons_self h, List.any_cons]
    by_cases a : touch w = true <;> by_cases b : l.any touch = true <;> simp [a, b, hf]

/-- A store of the core into its own scratchpad: offset, bytes, poison. -/
structure OwnStore where
  off : Nat
  bytes : List (BitVec 8)
  p : Bool

/-- Stores performed one after another. -/
def State.storeOwn (s : State) (l : List OwnStore) : State := l.foldl (fun s w => s.storeOf false w.off w.bytes w.p) s

/-- The place of a store among the memory keys. -/
def OwnStore.at (w : OwnStore) (k : Nat) : Nat := nodeBase k + w.off
/-- A byte is one of the store's. -/
def OwnStore.covers (w : OwnStore) (k b : Nat) : Bool := decide (w.at k ≤ b ∧ b < w.at k + w.bytes.length)
/-- A word holds one of the store's bytes. -/
def OwnStore.touches (w : OwnStore) (k b : Nat) : Bool :=
  decide (w.at k / 8 ≤ b / 8 ∧ b / 8 < (w.at k + w.bytes.length + 7) / 8)
/-- A word holds the store's bytes alone. -/
def OwnStore.fills (w : OwnStore) (k b : Nat) : Bool :=
  decide (w.at k ≤ 8 * (b / 8) ∧ 8 * (b / 8) + 8 ≤ w.at k + w.bytes.length)
/-- A line holds one of the store's bytes. -/
def OwnStore.marks (w : OwnStore) (k b : Nat) : Bool :=
  decide (w.at k / 64 ≤ b / 64 ∧ b / 64 < (w.at k + w.bytes.length + 63) / 64)

section
variable {w : OwnStore} {k b : Nat}
theorem OwnStore.covers_iff : w.covers k b = true ↔ w.at k ≤ b ∧ b < w.at k + w.bytes.length := decide_eq_true_iff
theorem OwnStore.touches_iff : w.touches k b = true ↔ w.at k / 8 ≤ b / 8 ∧ b / 8 < (w.at k + w.bytes.length + 7) / 8 :=
  decide_eq_true_iff
theorem OwnStore.fills_iff : w.fills k b = true ↔ w.at k ≤ 8 * (b / 8) ∧ 8 * (b / 8) + 8 ≤ w.at k + w.bytes.length :=
  decide_eq_true_iff
theorem OwnStore.marks_iff : w.marks k b = true ↔ w.at k / 64 ≤ b / 64 ∧ b / 64 < (w.at k + w.bytes.length + 63) / 64 :=
  decide_eq_true_iff
end

theorem SameCore.ownedBy {s t : State} (h : SameCore s t) (b : BitVec 5) : t.ownedBy b = s.ownedBy b := by
  rw [State.ownedBy, State.ownedBy, h.1.2]
theorem ownedBy_ownedBy (s : State) (b : BitVec 5) : s.ownedBy (s.ownedBy b) = s.ownedBy b := by
  unfold State.ownedBy
  grind

section
variable (s : State) (l : List OwnStore)
theorem storeOf_sameCore (st : Bool) (off : Nat) (l : List (BitVec 8)) (p : Bool) : SameCore s (s.storeOf st off l p) := by
  obtain ⟨regs, ctl, eng⟩ := storeOf_core s st off l p
  exact ⟨⟨storeOf_here s st off l p, ctl⟩, regs, eng⟩
theorem storeOwn_cons (w : OwnStore) : s.storeOwn (w :: l) = (s.storeOf false w.off w.bytes w.p).storeOwn l := rfl
theorem storeOwn_sameCore : ∀ s : State, SameCore s (s.storeOwn l) := by
  induction l with
  | nil => exact SameCore.refl
  | cons w l ih => exact fun s => (storeOf_sameCore s _ _ _ _).trans (ih _)
/-- Every store of the list that has a byte gives it one value: it has that value, or it is as before. -/
theorem storeOwn_byte {b : Nat} {x : BitVec 8}
    (h : ∀ w ∈ l, ∀ i (hi : i < w.bytes.length), b = w.at s.here + i → w.bytes[i] = x) :
    (s.storeOwn l).byte b = if l.any (·.covers s.here b) then x else s.byte b := by
  refine foldl_idempotent (r := fun t => t.byte b) (f := fun _ => x) (fun _ => rfl) (kept := fun t => t.here = s.here) l
    (fun t w _ e => (storeOf_here t _ _ _ _).trans e) (fun t w hw e => ?_) s rfl
  by_cases c : w.covers s.here b = true
  · obtain ⟨lo, hi⟩ := of_decide_eq_true c
    have byte := storeOf_byte_in t false w.off w.bytes w.p (i := b - w.at s.here) (by omega)
    rw [e, show nodeBase s.here + w.off + (b - w.at s.here) = b by unfold OwnStore.at at *; omega] at byte
    rw [if_pos c, byte]
    exact h w hw _ _ (by omega)
  · rw [if_neg c]
    refine storeOf_byte_out t false w.off w.bytes w.p b ?_
    rw [e]
    rw [OwnStore.covers, decide_eq_true_eq, OwnStore.at] at c
    omega
/-- Every store of the list that decides a word's poison decides it alike. -/
theorem storeOwn_poisoned {b : Nat} {q : Bool}
    (h : ∀ w ∈ l, w.touches s.here b = true → (w.p = true ∨ w.fills s.here b = true) → w.p = q) :
    (s.storeOwn l).poisoned b = if l.any fun w => w.touches s.here b && (w.p || w.fills s.here b) then q else s.poisoned b := by
  refine foldl_idempotent (r := fun t => t.poisoned b) (f := fun _ => q) (fun _ => rfl) (kept := fun t => t.here = s.here) l
    (fun t w _ e => (storeOf_here t _ _ _ _).trans e) (fun t w hw e => ?_) s rfl
  rw [storeOf_poisoned, e]
  have g := h w hw
  unfold OwnStore.touches OwnStore.fills OwnStore.at at *
  generalize t.poisoned b = old
  generalize nodeBase s.here + w.off = m at *
  cases hp : w.p <;> simp only [hp] at g ⊢ <;> grind
theorem storeOwn_tag (b : Nat) :
    (s.storeOwn l).tag b = if l.any (·.marks s.here b) then s.ownedBy (s.tag b) else s.tag b := by
  refine foldl_idempotent (r := fun t => t.tag b) (ownedBy_ownedBy s) (kept := SameCore s) l
    (fun t w _ e => e.trans (storeOf_sameCore t _ _ _ _)) (fun t w hw e => ?_) s (SameCore.refl s)
  rw [storeOf_owns t false w.off w.bytes w.p b, e.ownedBy, e.1.1]
  exact ite_congr (decide_eq_true_eq ..).symm (fun _ => rfl) (fun _ => rfl)
end

/-! ## Stores at peers' ports, one after another -/

/-- A store of at most a dword to a peer: its core, offset, bytes, poison. -/
structure PeerStore where
  key : Nat
  off : Nat
  bytes : List (BitVec 8)
  p : Bool

/-- Stores queued one after another. -/
def State.storePeer (s : State) (l : List PeerStore) : State := l.foldl (fun s w => s.queueOf false w.key w.off w.bytes w.p) s

/-- A store as it waits. -/
def State.waitsAs (s : State) (w : PeerStore) : PortStore := s.waitingStore false w.off w.bytes w.p

theorem Queues.refl (s : State) : Queues s s fun _ => [] := ⟨by simp, fun _ => ⟨rfl, rfl, rfl⟩, rfl, rfl, rfl, rfl⟩
theorem Queues.trans {s t u : State} {f g : Nat → List PortStore} (h : Queues s t f) (k : Queues t u g) :
    Queues s u fun j => f j ++ g j := by
  obtain ⟨port, mem, regs, here, late, ctl⟩ := h
  obtain ⟨port', mem', regs', here', late', ctl'⟩ := k
  refine ⟨fun j hj => ?_, mem.trans mem', regs'.trans regs, here'.trans here, late'.trans late, ?_⟩
  · rw [port' j (by rwa [here]), port j hj, List.append_assoc]
  · rw [ctl', ctl]
theorem Queues.waitingStore {s t : State} {f : Nat → List PortStore} (h : Queues s t f) (st : Bool) (off : Nat) (l : List (BitVec 8))
    (p : Bool) : t.waitingStore st off l p = s.waitingStore st off l p := by
  obtain ⟨_, _, _, here, _, ctl⟩ := h
  rw [State.waitingStore, State.waitingStore, here, ctl]
theorem Queues.pc {s t : State} {f : Nat → List PortStore} (h : Queues s t f) : t.pc = s.pc := by
  obtain ⟨_, _, _, _, _, ctl⟩ := h
  rw [State.pc, ctl, State.pc]

theorem queueOf_waits {s : State} (w : PeerStore) (hl : s.core.sh.late = []) (hk : w.key ≠ s.here) (h : 0 < w.bytes.length)
    (h' : w.bytes.length ≤ 8) :
    Queues s (s.queueOf false w.key w.off w.bytes w.p) fun j => if j = w.key then [s.waitsAs w] else [] := by
  have queued := queueOf_queues s false w.off w.bytes w.p hk
  rwa [takeWords_nil _ hl, waitingStores_dword _ _ _ _ _ h h'] at queued
theorem storePeer_queues (l : List PeerStore) : ∀ s : State, s.core.sh.late = [] →
    (∀ w ∈ l, w.key ≠ s.here ∧ 0 < w.bytes.length ∧ w.bytes.length ≤ 8) →
    Queues s (s.storePeer l) fun j => (l.filter (·.key == j)).map s.waitsAs := by
  induction l with
  | nil => exact fun s _ _ => Queues.refl s
  | cons w l ih =>
    intro s hl h
    obtain ⟨hk, pos, short⟩ := h w List.mem_cons_self
    have first := queueOf_waits w hl hk pos short
    have rest := ih (s.queueOf false w.key w.off w.bytes w.p) (by rw [first.2.2.2.2.1, hl]) fun x hx => by
      rw [first.2.2.2.1]
      exact h x (List.mem_cons_of_mem _ hx)
    have both := first.trans rest
    have waits : (s.queueOf false w.key w.off w.bytes w.p).waitsAs = s.waitsAs := funext fun x => first.waitingStore ..
    rw [waits] at both
    refine (congrArg (Queues s _) (funext fun j => ?_)).mp both
    by_cases e : w.key = j
    · simp [e]
    · simp [e, Ne.symm e]

/-! ## Reads of peers with nothing of the core on its way -/

/-- Turns of peers' ports, direct accesses counted and registers written: all that reads of such peers change. -/
def PortTurns (s t : State) : Prop :=
  t = { s with peers := t.peers, core := { s.core with regs := t.core.regs, ctl := { s.core.ctl with pmc := t.core.ctl.pmc } } } ∧
  ∀ j, j ≠ s.here → (t.coreAt j).sh.port = (s.coreAt j).sh.port

theorem PortTurns.refl (s : State) : PortTurns s s := ⟨rfl, fun _ _ => rfl⟩
theorem PortTurns.trans {s t u : State} (h : PortTurns s t) (g : PortTurns t u) : PortTurns s u := by
  obtain ⟨h, hp⟩ := h
  obtain ⟨g, gp⟩ := g
  have here : t.here = s.here := by rw [h]
  refine ⟨?_, fun j hj => (gp j (by rwa [here])).trans (hp j hj)⟩
  rw [g, h]
theorem PortTurns.here {s t : State} (h : PortTurns s t) : t.here = s.here := by rw [h.1]
theorem PortTurns.quiet {s t : State} (h : PortTurns s t) {k : Nat} (hk : k ≠ s.here) (q : PeerQuiet s k) : PeerQuiet t k := by
  obtain ⟨port, ahead, late, fly, ord, unmet⟩ := q
  refine ⟨(h.2 k hk).trans port, ?_, ?_, ?_, ?_, ?_⟩ <;> rw [h.1] <;> assumption
theorem PortTurns.sameStore {s t : State} (h : PortTurns s t) : SameStore s t := by rw [h.1]; exact ⟨rfl, rfl, rfl⟩
theorem PortTurns.peerRead {s t : State} (h : PortTurns s t) : PeerRead s (t.commit 4) := by
  rw [h.1]
  exact ⟨rfl, rfl, ⟨rfl, rfl, rfl⟩, rfl, ⟨rfl, rfl⟩, rfl⟩
theorem PortTurns.poisoned {s t : State} (h : PortTurns s t) (b : Nat) : t.poisoned b = s.poisoned b := by
  unfold State.poisoned State.poisonBase State.node
  rw [h.1]
theorem PortTurns.readByte {s t : State} (h : PortTurns s t) (b : Nat) : t.readByte b = s.readByte b := by
  have draws : t.draws = s.draws := by rw [h.1]
  rw [State.readByte, State.readByte, State.byte, State.byte, h.poisoned, h.sameStore.1, draws]
theorem PortTurns.readNat {s t : State} (h : PortTurns s t) (a n : Nat) : t.readNat a n = s.readNat a n := readNat_congr h.readByte
theorem PortTurns.anyPoison {s t : State} (h : PortTurns s t) (a n : Nat) : t.anyPoison a n = s.anyPoison a n :=
  anyPoison_congr h.poisoned
theorem setG_portTurns (s : State) (r : GR) (v : BitVec 64) (p : Bool) : PortTurns s (s.setG r v p) := by
  refine ⟨rfl, fun j hj => ?_⟩
  rw [State.coreAt, State.coreAt, setG_here, if_neg hj, if_neg hj]
  rfl

section
variable {s : State} {k : Nat}
/-- A turn at a port where nothing waits. -/
theorem portRead_turns (hk : k ≠ s.here) (q : PeerQuiet s k) (ws : List Nat) :
    PortTurns s (s.portRead k ws) ∧ (s.portRead k ws).core = s.core := by
  obtain ⟨port, _, _, fly, _, _⟩ := q
  have read : s.portRead k ws = s.onCore k fun c => { c with sh := { c.sh with turn := (clusterPos s.here + 1) % 32 } } := by
    rw [State.portRead, landWords_idle fly, port, List.countP_nil, State.portTurns, portUntil_idle port]
  have at_ := coreAt_onCore s k
  obtain ⟨p, e⟩ := onCore_peer s hk fun c => { c with sh := { c.sh with turn := (clusterPos s.here + 1) % 32 } }
  refine ⟨⟨?_, fun j hj => ?_⟩, ?_⟩
  · rw [read, e]
  · rw [read, at_]
    split
    · next h => rw [h]
    · rfl
  · rw [read, e]
theorem countDirect_turns (n : Nat) : PortTurns s (s.countDirect n) := by
  refine ⟨rfl, fun j hj => ?_⟩
  rw [State.coreAt, State.coreAt, if_neg hj]
  exact congrArg _ (congrArg _ (if_neg hj))
theorem loadWord_turns (hk : k ≠ s.here) (q : PeerQuiet s k) (off n : Nat) :
    ∃ t, s.loadWord k off n = (t, s.readNat (nodeBase k + off) n, s.anyPoison (nodeBase k + off) n) ∧ PortTurns s t ∧
      t.core.regs = s.core.regs := by
  obtain ⟨turns, core⟩ := portRead_turns hk q (wordsOf (nodeBase k + off) n)
  obtain ⟨_, ahead, late, _⟩ := q
  have kept : (s.portRead k (wordsOf (nodeBase k + off) n)).forgetAhead k (wordsOf (nodeBase k + off) n) =
      s.portRead k (wordsOf (nodeBase k + off) n) := forgetAhead_none (by rw [core, ahead])
  refine ⟨_, ?_, turns, congrArg _ core⟩
  rw [State.loadWord, takeWords_none late]
  simp only [ahead, List.find?_nil, kept]
  rw [turns.readNat, turns.anyPoison]
/-- A read of at most a dword. -/
theorem loadAt_turns (hk : k ≠ s.here) (q : PeerQuiet s k) (off : Nat) {n : Nat} (h : n ≤ 8) :
    ∃ t, s.loadAt (.peer k off) n = (t, s.readNat (nodeBase k + off) n, s.anyPoison (nodeBase k + off) n) ∧ PortTurns s t ∧
      t.core.regs = s.core.regs := by
  have counted := countDirect_turns (s := s) ((n + 7) / 8)
  obtain ⟨t, read, turns, regs⟩ := loadWord_turns (by rwa [counted.here]) (counted.quiet hk q) off n
  rw [counted.readNat, counted.anyPoison] at read
  refine ⟨t, ?_, counted.trans turns, regs⟩
  simp only [State.loadAt, if_pos h, read]
end

end Sys2Proof.Machine
end

section

/-! `LDM` and `STM` (R176): the registers of a range against consecutive dwords. -/

namespace Sys2Proof.Machine

/-! ## Registers of a range -/

/-- Register number n. -/
def regAt (n : Nat) : GR := BitVec.ofNat 5 n

theorem regAt_toNat {n : Nat} (h : n < 32) : (regAt n).toNat = n := by
  rw [regAt, BitVec.toNat_ofNat]
  exact Nat.mod_eq_of_lt h
theorem regAt_of_toNat (g : GR) : regAt g.toNat = g := by simp [regAt]
theorem regRange_zero (t : Nat) : regRange t 0 = [] := rfl
theorem regRange_succ (t n : Nat) : regRange t (n + 1) = t :: regRange (t + 1) n := by
  rw [regRange, regRange, List.range_succ_eq_map, List.map_cons, List.map_map]
  exact congrArg (List.cons t) (List.map_congr_left fun i _ => by simp only [Function.comp]; omega)

theorem gv_of_regs {s t : State} (h : t.core.regs = s.core.regs) (r : GR) : t.gv r = s.gv r := by rw [State.gv, h, State.gv]
theorem gp_of_regs {s t : State} (h : t.core.regs = s.core.regs) (r : GR) : t.gp r = s.gp r := by rw [State.gp, h, State.gp]

/-- Registers written from dwords that are read with no change of the core but what inv keeps. -/
theorem loadRegs_reads {inv : State → Prop} {p : Path} {val : Nat → Nat} {poi : Nat → Bool}
    (read : ∀ s i, inv s → ∃ t, s.loadAt (p.shift i) 8 = (t, val i, poi i) ∧ inv t ∧ t.core.regs = s.core.regs)
    (kept : ∀ s r v q, inv s → inv (s.setG r v q)) (n : Nat) : ∀ (t j : Nat) (s : State), t + n ≤ 32 → inv s →
    let u := s.loadRegs p j (regRange t n)
    inv u ∧ (∀ i, i < n → u.gv (regAt (t + i)) = BitVec.ofNat 64 (val (j + i)) ∧ u.gp (regAt (t + i)) = poi (j + i)) ∧
    (∀ g : GR, (g.toNat < t ∨ t + n ≤ g.toNat) → u.gv g = s.gv g ∧ u.gp g = s.gp g) ∧
    u.core.regs = { s.core.regs with g := u.core.regs.g } := by
  induction n with
  | zero => exact fun t j s _ h => ⟨h, fun i hi => absurd hi (by omega), fun g _ => ⟨rfl, rfl⟩, rfl⟩
  | succ n ih =>
    intro t j s ht h
    obtain ⟨w, e, hw, regs⟩ := read s j h
    have rest := ih (t + 1) (j + 1) (w.setG (regAt t) (BitVec.ofNat 64 (val j)) (poi j)) (by omega) (kept _ _ _ _ hw)
    have step : s.loadRegs p j (regRange t (n + 1)) =
        (w.setG (regAt t) (BitVec.ofNat 64 (val j)) (poi j)).loadRegs p (j + 1) (regRange (t + 1) n) := by
      rw [regRange_succ, State.loadRegs, e]
      rfl
    rw [step]
    generalize (w.setG (regAt t) (BitVec.ofNat 64 (val j)) (poi j)).loadRegs p (j + 1) (regRange (t + 1) n) = u at rest
    obtain ⟨hu, vals, others, same⟩ := rest
    have at_t := regAt_toNat (n := t) (by omega)
    refine ⟨hu, fun i hi => ?_, fun g hg => ?_, ?_⟩
    · cases i with
      | zero =>
        obtain ⟨v, q⟩ := others (regAt t) (.inl (by omega))
        rw [setG_gv] at v
        rw [setG_gp] at q
        exact ⟨v, q⟩
      | succ i =>
        have := vals i (by omega)
        rwa [Nat.add_assoc t, Nat.add_assoc j, Nat.add_comm 1 i] at this
    · have ne : g ≠ regAt t := fun e => by rw [e, at_t] at hg; omega
      obtain ⟨v, q⟩ := others g (by omega)
      rw [setG_gv_ne _ _ _ _ _ ne, gv_of_regs regs] at v
      rw [setG_gp_ne _ _ _ _ _ ne, gp_of_regs regs] at q
      exact ⟨v, q⟩
    · rw [same, State.setG, State.onRegs, regs]

/-- Registers stored by stores that leave the registers and keep what inv says. -/
theorem storeRegs_each {inv : State → Prop} {p : Path}
    (kept : ∀ (s : State) (i w : Nat) (q : Bool), inv s →
      inv (s.storeAt (p.shift i) (leBytes 8 w) q) ∧ (s.storeAt (p.shift i) (leBytes 8 w) q).core.regs = s.core.regs) (n : Nat) :
    ∀ (t j : Nat) (s : State), inv s → s.storeRegs p j (regRange t n) =
      (List.range n).foldl (fun u i => u.storeAt (p.shift (j + i)) (leBytes 8 (s.gv (regAt (t + i))).toNat) (s.gp (regAt (t + i)))) s := by
  induction n with
  | zero => exact fun t j s _ => rfl
  | succ n ih =>
    intro t j s h
    obtain ⟨hu, regs⟩ := kept s j (s.gv (regAt t)).toNat (s.gp (regAt t)) h
    have step : s.storeRegs p j (regRange t (n + 1)) =
        (s.storeAt (p.shift j) (leBytes 8 (s.gv (regAt t)).toNat) (s.gp (regAt t))).storeRegs p (j + 1) (regRange (t + 1) n) := by
      rw [regRange_succ]
      rfl
    rw [step, List.range_succ_eq_map, List.foldl_cons, List.foldl_map]
    refine (ih (t + 1) (j + 1) _ hu).trans (congrFun (congrFun (congrArg List.foldl (funext fun u => funext fun i => ?_)) _) _)
    rw [gv_of_regs regs, gp_of_regs regs, Nat.succ_eq_add_one, Nat.add_assoc t, Nat.add_assoc j, Nat.add_comm 1 i]

/-- The stores of an `STM` into the core's own scratchpad. -/
def State.ownDwords (s : State) (off t n : Nat) : List OwnStore :=
  (List.range n).map fun i => ⟨off + 8 * i, leBytes 8 (s.gv (regAt (t + i))).toNat, s.gp (regAt (t + i))⟩
/-- The stores of an `STM` to a peer. -/
def State.peerDwords (s : State) (k off t n : Nat) : List PeerStore :=
  (List.range n).map fun i => ⟨k, off + 8 * i, leBytes 8 (s.gv (regAt (t + i))).toNat, s.gp (regAt (t + i))⟩

section
variable {s : State} {off t n k i b : Nat} {w : Nat} {q : Bool}
theorem ownDwords_any {f : OwnStore → Bool} : (s.ownDwords off t n).any f = true ↔
    ∃ i, i < n ∧ f ⟨off + 8 * i, leBytes 8 (s.gv (regAt (t + i))).toNat, s.gp (regAt (t + i))⟩ = true := by
  simp [State.ownDwords]
theorem ownDwords_forall {P : OwnStore → Prop} : (∀ w ∈ s.ownDwords off t n, P w) ↔
    ∀ i, i < n → P ⟨off + 8 * i, leBytes 8 (s.gv (regAt (t + i))).toNat, s.gp (regAt (t + i))⟩ := by
  simp [State.ownDwords]
end

theorem storeRegs_own (s : State) (off t n : Nat) :
    s.storeRegs (.own off) 0 (regRange t n) = s.storeOwn (s.ownDwords off t n) := by
  have kept (s : State) (i w : Nat) (q : Bool) (h : True) : True ∧
      (s.storeAt (Path.shift (.own off) i) (leBytes 8 w) q).core.regs = s.core.regs := ⟨h, (storeOf_core ..).1⟩
  rw [storeRegs_each (inv := fun _ => True) kept n t 0 s trivial, State.storeOwn, State.ownDwords, List.foldl_map]
  simp only [Path.shift, Nat.zero_add]
  rfl
theorem storeRegs_peer (s : State) {k : Nat} (off t n : Nat) (hl : s.core.sh.late = []) (hk : k ≠ s.here) :
    s.storeRegs (.peer k off) 0 (regRange t n) = s.storePeer (s.peerDwords k off t n) := by
  have kept (u : State) (i w : Nat) (q : Bool) (h : u.core.sh.late = [] ∧ k ≠ u.here) :
      ((u.storeAt (Path.shift (.peer k off) i) (leBytes 8 w) q).core.sh.late = [] ∧
        k ≠ (u.storeAt (Path.shift (.peer k off) i) (leBytes 8 w) q).here) ∧
      (u.storeAt (Path.shift (.peer k off) i) (leBytes 8 w) q).core.regs = u.core.regs := by
    obtain ⟨_, _, regs, here, late, _⟩ := queueOf_waits ⟨k, off + 8 * i, leBytes 8 w, q⟩ h.1 h.2 (by simp) (by simp)
    exact ⟨⟨late.trans h.1, fun e => h.2 (e.trans here)⟩, regs⟩
  rw [storeRegs_each kept n t 0 s ⟨hl, hk⟩, State.storePeer, State.peerDwords, List.foldl_map]
  simp only [Path.shift, Nat.zero_add]
  rfl

/-! ## The check before any dword moves -/

section
variable {s : State} {r a l : GR} {d : BitVec 11}
/-- Address of a multiple access. -/
def State.multipleAddr (s : State) (a : GR) (d : BitVec 11) : BitVec 64 := s.gv a + 8 * d.signExtend 64
theorem multiple_passes {p : Path} (hg : s.gp a = false) (hp : s.path (s.multipleAddr a d) 8 = p) (ht : ∀ c, p ≠ .trap c) {k : Nat}
    (h : p.offset + 8 * k ≤ 0x10000) (f : Path → Res) : s.multiple a d k f = f p := by
  rw [State.multipleAddr] at hp
  unfold State.multiple State.checked
  rw [consume_clean hg, hp]
  cases p with
  | trap c => exact absurd rfl (ht c)
  | own off => exact if_neg (by omega)
  | peer j off => exact if_neg (by omega)
theorem multiple_bounds {p : Path} (hg : s.gp a = false) (hp : s.path (s.multipleAddr a d) 8 = p) (ht : ∀ c, p ≠ .trap c) {k : Nat}
    (h : 0x10000 < p.offset + 8 * k) (f : Path → Res) : s.multiple a d k f = .trap .bounds (s.multipleAddr a d) := by
  rw [State.multipleAddr] at hp
  unfold State.multiple State.checked
  rw [consume_clean hg, hp]
  cases p with
  | trap c => exact absurd rfl (ht c)
  | own off => exact if_pos h
  | peer j off => exact if_pos h
theorem exec_ldm (h : r.toNat ≤ l.toNat) : exec (.ldm r a l d) s =
    s.finish 4 (s.multipleLoad a d (l.toNat - r.toNat + 1) fun p => s.orLate (p.lateRegs (regRange r.toNat (l.toNat - r.toNat + 1))) s
      (.ok (s.loadRegs p 0 (regRange r.toNat (l.toNat - r.toNat + 1))))) := by
  have k : l.toNat + 1 - r.toNat = l.toNat - r.toNat + 1 := by omega
  change execLdm r a l d s = _
  rw [execLdm, legal_wellFormed (i := .ldm r a l d) (decide_eq_true h), k]
theorem exec_stm (h : r.toNat ≤ l.toNat) : exec (.stm r a l d) s =
    s.finish 4 (s.multiple a d (l.toNat - r.toNat + 1) fun p => .ok (s.storeRegs p 0 (regRange r.toNat (l.toNat - r.toNat + 1)))) := by
  have k : l.toNat + 1 - r.toNat = l.toNat - r.toNat + 1 := by omega
  change execStm r a l d s = _
  rw [execStm, legal_wellFormed (i := .stm r a l d) (decide_eq_true h), k]
end

/-! ## The clauses -/

/-- Nothing but registers of the selected core has changed. -/
def OnlyRegs (s t : State) : Prop := t = { s with core := { s.core with regs := t.core.regs } }

section
variable {s t : State}
theorem OnlyRegs.poisoned (h : OnlyRegs s t) (b : Nat) : t.poisoned b = s.poisoned b := by
  unfold State.poisoned State.poisonBase State.node
  rw [h]
theorem OnlyRegs.readByte (h : OnlyRegs s t) (b : Nat) : t.readByte b = s.readByte b := by
  have draws : t.draws = s.draws := by rw [h]
  have mem : t.mem = s.mem := by rw [h]
  rw [State.readByte, State.readByte, State.byte, State.byte, h.poisoned, mem, draws]
theorem OnlyRegs.setG (h : OnlyRegs s t) (r : GR) (v : BitVec 64) (q : Bool) : OnlyRegs s (t.setG r v q) := by
  rw [OnlyRegs, h]
  rfl
/-- Only general registers have changed, and the instruction commits. -/
theorem OnlyRegs.commit (h : OnlyRegs s t) (hr : t.core.regs = { s.core.regs with g := t.core.regs.g }) :
    SameV s (t.commit 4) ∧ SameTables s (t.commit 4) ∧ SameOutside s (t.commit 4) ∧ Passes s (t.commit 4) (s.pc + 4) := by
  rw [h, hr]
  exact ⟨⟨rfl, rfl, rfl⟩, ⟨rfl, rfl, rfl⟩, rfl, rfl⟩
end

/-- A dword along a path, read as a load that keeps what it is read under. -/
theorem loadAt_own {s t : State} (h : OnlyRegs s t) {off : Nat} (ha : off % 8 = 0) :
    t.loadAt (.own off) 8 = (t, s.readNat (nodeBase s.here + off) 8, s.poisoned (nodeBase s.here + off)) := by
  have here : t.here = s.here := by rw [h]
  rw [State.loadAt, here, readNat_congr h.readByte, anyPoison_congr h.poisoned]
  exact congrArg _ (congrArg _ (load_poison .d64 ha))
theorem loadAt_peer {s t : State} {k : Nat} (hk : k ≠ s.here) (q : PeerQuiet s k) (h : PortTurns s t) {off : Nat} (ha : off % 8 = 0) :
    ∃ u, t.loadAt (.peer k off) 8 = (u, s.readNat (nodeBase k + off) 8, s.poisoned (nodeBase k + off)) ∧ PortTurns s u ∧
      u.core.regs = t.core.regs := by
  obtain ⟨u, read, turns, regs⟩ := loadAt_turns (by rwa [h.here]) (h.quiet hk q) off (n := 8) (le_refl 8)
  rw [h.readNat, h.anyPoison, show s.anyPoison (nodeBase k + off) 8 = _ from load_poison .d64 ha] at read
  exact ⟨u, read, h.trans turns, regs⟩

section
variable {s : State} {r a l : GR} {d : BitVec 11} {k off : Nat} (h : r.toNat ≤ l.toNat) (hg : s.gp a = false)
include h hg
theorem ldm_own (hp : s.path (s.multipleAddr a d) 8 = .own off) (hb : off + 8 * (l.toNat - r.toNat + 1) ≤ 0x10000) :
    Completes (.ldm r a l d) s fun t =>
      (∀ g : GR, r.toNat ≤ g.toNat → g.toNat ≤ l.toNat →
        t.gv g = BitVec.ofNat 64 (s.readNat (nodeBase s.here + off + 8 * (g.toNat - r.toNat)) 8) ∧
        t.gp g = s.poisoned (nodeBase s.here + off + 8 * (g.toNat - r.toNat))) ∧
      (∀ g : GR, (g.toNat < r.toNat ∨ l.toNat < g.toNat) → t.gv g = s.gv g ∧ t.gp g = s.gp g) ∧
      SameV s t ∧ SameTables s t ∧ SameOutside s t ∧ Passes s t (s.pc + 4) := by
  have aligned := (path_own_iff.mp hp).2.2.2
  have fits := l.isLt
  have now (l : List Nat) : s.goLate (Path.lateRegs (.own off) l) = false := by simp [State.goLate, Path.lateRegs, Path.lates]
  have step : exec (.ldm r a l d) s = s.finish 4 (.ok (s.loadRegs (.own off) 0 (regRange r.toNat (l.toNat - r.toNat + 1)))) := by
    rw [exec_ldm h, State.multipleLoad, multiple_passes hg hp (by simp) hb]
    simp [State.awaits, State.orLate, now]
  obtain ⟨only, vals, others, regs⟩ := loadRegs_reads (inv := OnlyRegs s) (p := .own off)
    (val := fun i => s.readNat (nodeBase s.here + (off + 8 * i)) 8) (poi := fun i => s.poisoned (nodeBase s.here + (off + 8 * i)))
    (fun u i hu => ⟨u, loadAt_own hu (by omega), hu, rfl⟩) (fun _ r v q hu => hu.setG r v q) (l.toNat - r.toNat + 1) r.toNat 0 s
    (by omega) rfl
  generalize s.loadRegs (.own off) 0 (regRange r.toNat (l.toNat - r.toNat + 1)) = u at *
  refine completes_ok step ⟨fun g lo hi => ?_, fun g hg => others g (by omega), only.commit regs⟩
  have val := vals (g.toNat - r.toNat) (by omega)
  rw [show r.toNat + (g.toNat - r.toNat) = g.toNat by omega, regAt_of_toNat, Nat.zero_add, ← Nat.add_assoc] at val
  exact val
theorem stm_own (hp : s.path (s.multipleAddr a d) 8 = .own off) (hb : off + 8 * (l.toNat - r.toNat + 1) ≤ 0x10000) {m : Nat}
    (hm : nodeBase s.here + off = m) :
    Completes (.stm r a l d) s fun t =>
      (∀ g : GR, r.toNat ≤ g.toNat → g.toNat ≤ l.toNat →
        (∀ i, i < 8 → t.byte (m + 8 * (g.toNat - r.toNat) + i) = (s.gv g).extractLsb' (8 * i) 8) ∧
        t.poisoned (m + 8 * (g.toNat - r.toNat)) = s.gp g) ∧
      SameBytesBut s t m (8 * (l.toNat - r.toNat + 1)) ∧
      (∀ b, (b < m ∨ m + 8 * (l.toNat - r.toNat + 1) ≤ b) → t.poisoned b = s.poisoned b) ∧
      Owns s t m (8 * (l.toNat - r.toNat + 1)) ∧
      t.core.regs = s.core.regs ∧ t.core.eng = s.core.eng ∧ Passes s t (s.pc + 4) := by
  have aligned := (path_own_iff.mp hp).2.2.2
  have base : m % 8 = 0 := by rw [← hm, nodeBase]; omega
  have step : exec (.stm r a l d) s = s.finish 4 (.ok (s.storeOwn (s.ownDwords off r.toNat (l.toNat - r.toNat + 1)))) := by
    rw [exec_stm h, multiple_passes hg hp (by simp) hb, storeRegs_own]
  have kept := storeOwn_sameCore (s.ownDwords off r.toNat (l.toNat - r.toNat + 1)) s
  have byte := fun b x => storeOwn_byte s (s.ownDwords off r.toNat (l.toNat - r.toNat + 1)) (b := b) (x := x)
  have poison := fun b q => storeOwn_poisoned s (s.ownDwords off r.toNat (l.toNat - r.toNat + 1)) (b := b) (q := q)
  have tag := fun b => storeOwn_tag s (s.ownDwords off r.toNat (l.toNat - r.toNat + 1)) b
  generalize s.storeOwn (s.ownDwords off r.toNat (l.toNat - r.toNat + 1)) = u at *
  have mem := commit_sameMemory u 4
  simp only [ownDwords_any, ownDwords_forall, OwnStore.covers_iff, OwnStore.touches_iff, OwnStore.fills_iff, OwnStore.marks_iff,
    OwnStore.at, leBytes_length, Bool.and_eq_true, Bool.or_eq_true, ← Nat.add_assoc, hm] at byte poison tag
  refine completes_ok step ⟨fun g lo hi => ⟨fun i hi => (mem _).1.trans ?_, (mem _).2.1.trans ?_⟩, fun b hb => (mem b).1.trans ?_,
    fun b hb => (mem b).2.1.trans ?_, fun b => (mem b).2.2.trans ?_, (commit_core_regs u 4).trans kept.2.1,
    (commit_core_eng u 4).trans kept.2.2, commit_passes kept.1.2 4⟩
  · have number : r.toNat + (g.toNat - r.toNat) = g.toNat := by omega
    rw [byte _ ((s.gv g).extractLsb' (8 * i) 8) fun x hx y hy e => ?_, if_pos ⟨g.toNat - r.toNat, by omega, by omega, by omega⟩]
    obtain ⟨rfl, rfl⟩ : x = g.toNat - r.toNat ∧ y = i := by omega
    simp only [number, regAt_of_toNat]
    exact leBytes_extract 8 _ _
  · have number : r.toNat + (g.toNat - r.toNat) = g.toNat := by omega
    rw [poison _ (s.gp g) fun x hx touch _ => ?_, if_pos ⟨g.toNat - r.toNat, by omega, by omega, .inr (by omega)⟩]
    obtain rfl : x = g.toNat - r.toNat := by omega
    rw [number, regAt_of_toNat]
  · rw [byte b 0 fun x hx y hy e => by omega, if_neg fun ⟨x, hx, c⟩ => by omega]
  · rw [poison b false fun x hx touch _ => by omega, if_neg fun ⟨x, hx, touch, _⟩ => by omega]
  · rw [tag]
    refine ite_congr (propext ⟨fun ⟨x, hx, c⟩ => by omega, fun c => ?_⟩) (fun _ => rfl) (fun _ => rfl)
    exact ⟨(64 * (b / 64) - m) / 8, by omega, by omega⟩
theorem ldm_peer (hp : s.path (s.multipleAddr a d) 8 = .peer k off) (hb : off + 8 * (l.toNat - r.toNat + 1) ≤ 0x10000)
    (q : PeerQuiet s k) :
    Completes (.ldm r a l d) s fun t =>
      (∀ i, i < l.toNat - r.toNat + 1 → t.gv (regAt (r.toNat + i)) = BitVec.ofNat 64 (s.readNat (nodeBase k + off + 8 * i) 8) ∧
        t.gp (regAt (r.toNat + i)) = s.poisoned (nodeBase k + off + 8 * i)) ∧
      (∀ g : GR, (g.toNat < r.toNat ∨ l.toNat < g.toNat) → t.gv g = s.gv g ∧ t.gp g = s.gp g) ∧ SameV s t ∧ PeerRead s t := by
  obtain ⟨hk, aligned⟩ := path_peer hp
  have fits := l.isLt
  obtain ⟨_, _, _, _, ord, unmet⟩ := id q
  have step : exec (.ldm r a l d) s = s.finish 4 (.ok (s.loadRegs (.peer k off) 0 (regRange r.toNat (l.toNat - r.toNat + 1)))) := by
    rw [exec_ldm h, State.multipleLoad, multiple_passes hg hp (by simp) hb]
    simp [State.awaits, ord, shareWord, orLate_now _ _ _ unmet]
  obtain ⟨turns, vals, others, regs⟩ := loadRegs_reads (inv := PortTurns s) (p := .peer k off)
    (val := fun i => s.readNat (nodeBase k + (off + 8 * i)) 8) (poi := fun i => s.poisoned (nodeBase k + (off + 8 * i)))
    (fun u i hu => loadAt_peer hk q hu (by omega)) (fun u r v q hu => hu.trans (setG_portTurns u r v q)) (l.toNat - r.toNat + 1) r.toNat 0 s
    (by omega) (PortTurns.refl s)
  generalize s.loadRegs (.peer k off) 0 (regRange r.toNat (l.toNat - r.toNat + 1)) = u at *
  refine completes_ok step ⟨fun i hi => ?_, fun g hg => others g (by omega), ?_, turns.peerRead⟩
  · have val := vals i hi
    rwa [Nat.zero_add, ← Nat.add_assoc] at val
  · rw [SameV, commit_core_regs, commit_core_eng, regs]
    refine ⟨rfl, rfl, ?_⟩
    rw [turns.1]
theorem ldm_held (hp : s.path (s.multipleAddr a d) 8 = .peer k off) (hb : off + 8 * (l.toNat - r.toNat + 1) ≤ 0x10000)
    (ho : shareWord (wordsOf (nodeBase k + off) (8 * (l.toNat - r.toNat + 1))) s.core.ordering = true) :
    Completes (.ldm r a l d) s (HeldAt s) := by
  refine ⟨s.holdIssue, ?_, rfl⟩
  rw [exec_ldm h, State.multipleLoad, multiple_passes hg hp (by simp) hb]
  exact congrArg (s.finish 4) (if_pos ho)
theorem ldm_putOff (hp : s.path (s.multipleAddr a d) 8 = .peer k off) (hb : off + 8 * (l.toNat - r.toNat + 1) ≤ 0x10000)
    (ho : s.core.ordering = []) (ha : s.core.sh.ahead = []) (hm : .readLate ∈ s.met) (hr : s.core.ctl.riga = false) :
    Completes (.ldm r a l d) s fun t =>
      t.core.sh = { s.core.sh with late := s.core.sh.late ++
        (List.range (l.toNat - r.toNat + 1)).map fun i => ⟨.scalar (regAt (r.toNat + i)) .d64, k, off + 8 * i⟩ } ∧
      t.core.regs = s.core.regs ∧ t.core.slots = s.core.slots ∧ SameOutside s t ∧ t.pc = s.pc + 4 := by
  have reads : (Path.peer k off).lateRegs (regRange r.toNat (l.toNat - r.toNat + 1)) =
      (List.range (l.toNat - r.toNat + 1)).map fun i => ⟨.scalar (regAt (r.toNat + i)) .d64, k, off + 8 * i⟩ := by
    refine List.ext_getElem (by simp [Path.lateRegs, Path.lates, regRange]) fun i _ _ => ?_
    simp [Path.lateRegs, Path.lates, regRange, regAt]
  have late : s.goLate ((Path.peer k off).lateRegs (regRange r.toNat (l.toNat - r.toNat + 1))) = true := by
    simp [reads, State.goLate, ha, hm, hr]
  have step : exec (.ldm r a l d) s =
      s.finish 4 (.ok (s.putOff ((Path.peer k off).lateRegs (regRange r.toNat (l.toNat - r.toNat + 1))))) := by
    rw [exec_ldm h, State.multipleLoad, multiple_passes hg hp (by simp) hb]
    simp [State.awaits, ho, shareWord, State.orLate, late]
  rw [reads] at step
  exact completes_ok step ⟨rfl, rfl, rfl, rfl, rfl⟩
theorem stm_peer (hp : s.path (s.multipleAddr a d) 8 = .peer k off) (hb : off + 8 * (l.toNat - r.toNat + 1) ≤ 0x10000)
    (hl : s.core.sh.late = []) :
    Completes (.stm r a l d) s fun t =>
      (t.coreAt k).sh.port = (s.coreAt k).sh.port ++ (List.range (l.toNat - r.toNat + 1)).map (fun i =>
        s.waitingStore false (off + 8 * i) (leBytes 8 (s.gv (regAt (r.toNat + i))).toNat) (s.gp (regAt (r.toNat + i)))) ∧
      SameMemory s t ∧ t.core.regs = s.core.regs ∧ t.pc = s.pc + 4 := by
  obtain ⟨hk, aligned⟩ := path_peer hp
  have step : exec (.stm r a l d) s = s.finish 4 (.ok (s.storePeer (s.peerDwords k off r.toNat (l.toNat - r.toNat + 1)))) := by
    rw [exec_stm h, multiple_passes hg hp (by simp) hb, storeRegs_peer s off _ _ hl hk]
  have queued := storePeer_queues (s.peerDwords k off r.toNat (l.toNat - r.toNat + 1)) s hl (by simp [State.peerDwords, hk])
  generalize s.storePeer (s.peerDwords k off r.toNat (l.toNat - r.toNat + 1)) = u at *
  have pc := queued.pc
  obtain ⟨port, mem, regs, here, _⟩ := queued
  refine completes_ok step ⟨?_, mem.trans (commit_sameMemory u 4), (commit_core_regs u 4).trans regs, ?_⟩
  · rw [commit_coreAt _ _ (by rwa [here]), port k hk]
    have all : (s.peerDwords k off r.toNat (l.toNat - r.toNat + 1)).filter (·.key == k) =
        s.peerDwords k off r.toNat (l.toNat - r.toNat + 1) := List.filter_eq_self.mpr (by simp [State.peerDwords])
    dsimp only
    rw [all, State.peerDwords, List.map_map]
    rfl
  · rw [commit_pc, pc]
    rfl
theorem multiple_beyond {p : Path} (hp : s.path (s.multipleAddr a d) 8 = p) (ht : ∀ c, p ≠ .trap c) (hu : s.core.ctl.priv = .u)
    (hb : 0x10000 < p.offset + 8 * (l.toNat - r.toNat + 1)) :
    (Completes (.ldm r a l d) s fun t => TrapTaken s t .bounds (s.multipleAddr a d) s.pc) ∧
    (Completes (.stm r a l d) s fun t => TrapTaken s t .bounds (s.multipleAddr a d) s.pc) := by
  constructor
  · exact completes_trapTaken (by rw [exec_ldm h, State.multipleLoad, multiple_bounds hg hp ht hb]) hu
  · exact completes_trapTaken (by rw [exec_stm h, multiple_bounds hg hp ht hb]) hu
end

/-- Settles O9: the registers of a range against dwords of the own scratchpad and of a peer's, and the check before. -/
theorem multipleAccesses : Obligations.MultipleAccesses := by
  refine ⟨fun s r a l d off h hg hp hb => ⟨ldm_own h hg hp hb, stm_own h hg hp hb rfl⟩,
    fun s r a l d k off h hg hp hb => ⟨ldm_peer h hg hp hb, ldm_held h hg hp hb, ldm_putOff h hg hp hb, stm_peer h hg hp hb⟩,
    fun s r a l d off h hg hu hp hb => ?_⟩
  rcases hp with hp | ⟨k, hp⟩
  · exact multiple_beyond h hg hp (by simp) hu hb
  · exact multiple_beyond h hg hp (by simp) hu hb

end Sys2Proof.Machine
end

section

/-! Vector loads and stores: parts of registers, and lanes at strided or indexed addresses (R186, R187). -/

namespace Sys2Proof.Machine

/-! ## Registers written at a commit -/

theorem setV_commit_writesV (s : State) (d : VR) (x : VReg) : WritesV s ((s.setV d x).commit 4) d x 0 :=
  ⟨setV_vr s d x, fun r hr => setV_vr_ne s d r x hr, rfl, rfl, by simp, rfl, ⟨rfl, rfl, rfl⟩, rfl, rfl⟩
theorem setM_commit_writesM (s : State) (d : MR) (x : BitVec 64) : WritesM s ((s.setM d x).commit 4) d x 0 :=
  ⟨setM_mr s d x, fun r hr => setM_mr_ne s d r x hr, rfl, rfl, by simp, rfl, ⟨rfl, rfl, rfl⟩, rfl, rfl⟩

/-! ## Paths of one access -/

section
variable {s : State} {a : BitVec 64} {n k off : Nat}
theorem checked_own (hp : s.path a n = .own off) (f : Path → Res) : s.checked a n f = f (.own off) := by
  rw [State.checked, hp]
theorem checked_peer (hp : s.path a n = .peer k off) (f : Path → Res) : s.checked a n f = f (.peer k off) := by
  rw [State.checked, hp]
theorem checkedLoad_own (hp : s.path a n = .own off) (f : Path → Res) : s.checkedLoad a n f = f (.own off) := by
  rw [State.checkedLoad, checked_own hp]
  exact if_neg Bool.false_ne_true
theorem checkedLoad_peer (hp : s.path a n = .peer k off) (ho : s.core.ordering = []) (f : Path → Res) :
    s.checkedLoad a n f = f (.peer k off) := by
  rw [State.checkedLoad, checked_peer hp]
  exact if_neg (by simp [State.awaits, ho, shareWord])
theorem orLate_own (l : List (LateReg × Nat)) (t : State) (r : Res) : s.orLate (Path.lates (.own off) l) t r = r :=
  if_neg (by simp [State.goLate, Path.lates])
theorem orLate_off {l : List Late} (t : State) (r : Res) (hl : l ≠ []) (ha : s.core.sh.ahead = []) (hm : .readLate ∈ s.met)
    (hr : s.core.ctl.riga = false) : s.orLate l t r = .ok (t.putOff l) :=
  if_pos (by simp [State.goLate, ha, hm, hr, hl])
end

/-! ## Runs of bytes -/

section
variable {s : State}
theorem leNat_append_list (a b : List (BitVec 8)) : leNat (a ++ b) = leNat a + 256 ^ a.length * leNat b := by
  induction a with
  | nil => simp [leNat]
  | cons x a ih =>
    rw [List.cons_append, leNat, leNat, ih, List.length_cons]
    ring
theorem readBytes_add (n m : Nat) : ∀ a, s.readBytes a (n + m) = s.readBytes a n ++ s.readBytes (a + n) m := by
  induction n with
  | zero => intro a; simp [State.readBytes]
  | succ n ih =>
    intro a
    rw [Nat.add_right_comm, State.readBytes, ih, State.readBytes, List.cons_append, Nat.add_assoc a, Nat.add_comm 1 n]
theorem readBytes_length (n : Nat) : ∀ a, (s.readBytes a n).length = n := by
  induction n with
  | zero => exact fun _ => rfl
  | succ n ih => exact fun a => congrArg Nat.succ (ih _)
theorem readNat_add (a n m : Nat) : s.readNat a (n + m) = s.readNat a n + 256 ^ n * s.readNat (a + n) m := by
  rw [State.readNat, readBytes_add, leNat_append_list, readBytes_length]
  rfl
theorem anyPoison_add (n m : Nat) : ∀ a, s.anyPoison a (n + m) = (s.anyPoison a n || s.anyPoison (a + n) m) := by
  induction n with
  | zero => intro a; simp [State.anyPoison]
  | succ n ih =>
    intro a
    rw [Nat.add_right_comm, State.anyPoison, ih, State.anyPoison, Bool.or_assoc, Nat.add_assoc a, Nat.add_comm 1 n]
theorem leNat_lt (l : List (BitVec 8)) : leNat l < 256 ^ l.length := by
  induction l with
  | nil => simp [leNat]
  | cons x l ih =>
    have := x.isLt
    rw [leNat, List.length_cons, pow_succ]
    omega
theorem readNat_lt (a n : Nat) : s.readNat a n < 256 ^ n := by
  have := leNat_lt (s.readBytes a n)
  rwa [readBytes_length] at this
/-- An aligned access of at most a dword reads one word. -/
theorem anyPoison_aligned {k off n : Nat} (h : 0 < n) (hn : n ∣ 8) (ha : off % n = 0) :
    s.anyPoison (nodeBase k + off) n = s.poisoned (nodeBase k + off) := by
  have inside (i : Nat) (hi : i < n) : (nodeBase k + off + i) / 8 = (nodeBase k + off) / 8 := by
    have := Nat.le_of_dvd (by decide) hn
    unfold nodeBase
    interval_cases n <;> omega
  rw [Bool.eq_iff_iff, anyPoison_iff]
  constructor
  · rintro ⟨i, hi, e⟩
    rwa [poisoned_word (inside i hi)] at e
  · exact fun e => ⟨0, h, by rwa [Nat.add_zero]⟩
end

/-- Words of a peer with nothing of the core on its way. -/
theorem loadWords_turns {k : Nat} (n : Nat) : ∀ {s : State}, k ≠ s.here → PeerQuiet s k → ∀ off,
    ∃ t, s.loadWords k off n = (t, s.readNat (nodeBase k + off) (8 * n), s.anyPoison (nodeBase k + off) (8 * n)) ∧ PortTurns s t ∧
      t.core.regs = s.core.regs := by
  induction n with
  | zero => exact fun {s} _ _ off => ⟨s, rfl, PortTurns.refl s, rfl⟩
  | succ n ih =>
    intro s hk q off
    obtain ⟨t, read, turns, regs⟩ := loadWord_turns hk q off 8
    obtain ⟨u, read', turns', regs'⟩ := ih (by rwa [turns.here]) (turns.quiet hk q) (off + 8)
    rw [turns.readNat, turns.anyPoison] at read'
    refine ⟨u, ?_, turns.trans turns', regs'.trans regs⟩
    rw [State.loadWords, read]
    dsimp only
    rw [read', show 8 * (n + 1) = 8 + 8 * n by omega, readNat_add, anyPoison_add, Nat.add_assoc, show 256 ^ 8 = 2 ^ 64 by norm_num]
/-- A read of a body. -/
theorem loadAt_body {s : State} {k : Nat} (hk : k ≠ s.here) (q : PeerQuiet s k) (off : Nat) :
    ∃ t, s.loadAt (.peer k off) 64 = (t, s.readNat (nodeBase k + off) 64, s.anyPoison (nodeBase k + off) 64) ∧ PortTurns s t ∧
      t.core.regs = s.core.regs := by
  have counted := countDirect_turns (s := s) 8
  obtain ⟨t, read, turns, regs⟩ := loadWords_turns 8 (by rwa [counted.here]) (counted.quiet hk q) off
  rw [counted.readNat, counted.anyPoison] at read
  have body : s.loadAt (.peer k off) 64 = (s.countDirect 8).loadWords k off 8 := by
    simp only [State.loadAt, Nat.reduceAdd, Nat.reduceDiv, Nat.reduceLeDiff, if_false]
  exact ⟨t, body.trans read, counted.trans turns, regs⟩

/-! ## Parts of registers and the own scratchpad -/

/-- What a store of whole words into the core's own scratchpad leaves. -/
theorem storeOf_words {s : State} {i : Instr} {off : Nat} {l : List (BitVec 8)} {p : Bool}
    (step : exec i s = s.finish 4 (.ok (s.storeOf false off l p))) {n : Nat} (hn : l.length = n) (ha : off % 8 = 0) (hl : n % 8 = 0) :
    Completes i s fun t =>
      (∀ i (hi : i < l.length), t.byte (nodeBase s.here + off + i) = l[i]) ∧ SameBytesBut s t (nodeBase s.here + off) n ∧
      (∀ i, i < n → t.poisoned (nodeBase s.here + off + i) = p) ∧ Owns s t (nodeBase s.here + off) n ∧
      t.core.regs = s.core.regs ∧ t.core.eng = s.core.eng ∧ Passes s t (s.pc + 4) := by
  have kept := storeOf_sameCore s false off l p
  have bytes := fun i => storeOf_byte_in s false off l p (i := i)
  have out := storeOf_byte_out s false off l p
  have poison := storeOf_poisoned s false off l p
  have owns := storeOf_owns s false off l p
  rw [hn] at out owns
  generalize s.storeOf false off l p = u at *
  have mem := commit_sameMemory u 4
  refine completes_ok step ⟨fun i hi => (mem _).1.trans (bytes i hi), fun b hb => (mem b).1.trans (out b hb), fun i hi => ?_,
    fun b => (mem b).2.2.trans (owns b), (commit_core_regs u 4).trans kept.2.1, (commit_core_eng u 4).trans kept.2.2,
    commit_passes kept.1.2 4⟩
  have base : (nodeBase s.here + off) % 8 = 0 := by unfold nodeBase; omega
  rw [(mem _).2.1, poison, hn, if_pos (by omega)]
  cases p with
  | true => rfl
  | false => rw [if_neg Bool.false_ne_true, if_pos (by omega)]

section
variable {s : State} {v : VR} {x : MR} {a : GR} {d : BitVec 5} {off : Nat} (hg : s.gp a = false)
include hg
theorem vldBody_own (hp : s.path (s.partAddr a d 64) 64 = .own off) : Completes (.vldBody v a d) s fun t =>
    WritesV s t v ⟨BitVec.ofNat 512 (s.readNat (nodeBase s.here + off) 64), 0, s.anyPoison (nodeBase s.here + off) 64⟩ 0 := by
  have body : vldBodyBody v a d s = .ok (s.setV v
      ⟨BitVec.ofNat 512 (s.readNat (nodeBase s.here + off) 64), 0, s.anyPoison (nodeBase s.here + off) 64⟩) := by
    rw [vldBodyBody, consume_clean hg, checkedLoad_own hp, orLate_own]
    rfl
  exact completes_ok (congrArg (s.finish 4) body) (setV_commit_writesV ..)
theorem vstBody_own (hp : s.path (s.partAddr a d 64) 64 = .own off) : Completes (.vstBody v a d) s fun t =>
    (∀ i, i < 64 → t.byte (nodeBase s.here + off + i) = (s.vr v).body.extractLsb' (8 * i) 8) ∧
    SameBytesBut s t (nodeBase s.here + off) 64 ∧
    (∀ i, i < 64 → t.poisoned (nodeBase s.here + off + i) = (s.vr v).p) ∧ Owns s t (nodeBase s.here + off) 64 ∧
    t.core.regs = s.core.regs ∧ t.core.eng = s.core.eng ∧ Passes s t (s.pc + 4) := by
  have body : vstBodyBody v a d s = .ok (s.storeOf false off (bodyBytes (s.vr v).body) (s.vr v).p) := by
    rw [vstBodyBody, consume_clean hg, checked_own hp]
    rfl
  have aligned := (path_own_iff.mp hp).2.2.2
  have length : (bodyBytes (s.vr v).body).length = 64 := by simp [bodyBytes]
  obtain ⟨t, e, bytes, rest⟩ := storeOf_words (i := .vstBody v a d) (congrArg (s.finish 4) body) length (by omega) (by decide)
  exact ⟨t, e, fun i hi => (bytes i (by omega)).trans (by simp [bodyBytes]), rest⟩
theorem vldSide_own (hp : s.path (s.partAddr a d 8) 8 = .own off) : Completes (.vldSide v a d) s fun t =>
    WritesV s t v ⟨(s.vr v).body, BitVec.ofNat 64 (s.readNat (nodeBase s.here + off) 8),
      (s.vr v).p || s.poisoned (nodeBase s.here + off)⟩ 0 := by
  have body : vldSideBody v a d s = .ok (s.setV v ⟨(s.vr v).body, BitVec.ofNat 64 (s.readNat (nodeBase s.here + off) 8),
      (s.vr v).p || s.poisoned (nodeBase s.here + off)⟩) := by
    rw [vldSideBody, consume_clean hg, checkedLoad_own hp, orLate_own, ← load_poison .d64 (path_own_iff.mp hp).2.2.2]
    rfl
  exact completes_ok (congrArg (s.finish 4) body) (setV_commit_writesV ..)
theorem vldMaskBody_own (hp : s.path (s.partAddr a d 8) 8 = .own off) : vldMaskBody x a d s =
    if s.poisoned (nodeBase s.here + off) then .trap .poison 0
    else .ok (s.setM x (BitVec.ofNat 64 (s.readNat (nodeBase s.here + off) 8))) := by
  rw [vldMaskBody, consume_clean hg, checkedLoad_own hp, ← load_poison .d64 (path_own_iff.mp hp).2.2.2]
  rfl
theorem vldMask_clean (hp : s.path (s.partAddr a d 8) 8 = .own off) (hc : s.poisoned (nodeBase s.here + off) = false) :
    Completes (.vldMask x a d) s fun t => WritesM s t x (BitVec.ofNat 64 (s.readNat (nodeBase s.here + off) 8)) 0 := by
  have body := vldMaskBody_own (x := x) hg hp
  rw [hc] at body
  exact completes_ok (congrArg (s.finish 4) body) (setM_commit_writesM ..)
theorem vldMask_poisoned (hp : s.path (s.partAddr a d 8) 8 = .own off) (hc : s.poisoned (nodeBase s.here + off) = true)
    (hu : s.core.ctl.priv = .u) : Completes (.vldMask x a d) s fun t => TrapTaken s t .poison 0 s.pc := by
  have body := vldMaskBody_own (x := x) hg hp
  rw [hc] at body
  exact completes_trapTaken (congrArg (s.finish 4) body) hu
omit hg in
/-- A dword stored into the own scratchpad. -/
theorem storeDword_own {i : Instr} {w : BitVec 64} {p : Bool} (ha : off % 8 = 0)
    (step : exec i s = s.finish 4 (.ok (s.storeOf false off (leBytes 8 w.toNat) p))) : Completes i s fun t =>
      (∀ i, i < 8 → t.byte (nodeBase s.here + off + i) = w.extractLsb' (8 * i) 8) ∧ SameBytesBut s t (nodeBase s.here + off) 8 ∧
      t.poisoned (nodeBase s.here + off) = p ∧ Owns s t (nodeBase s.here + off) 8 ∧ t.core.regs = s.core.regs ∧
      t.core.eng = s.core.eng ∧ Passes s t (s.pc + 4) := by
  obtain ⟨t, e, bytes, out, poison, rest⟩ := storeOf_words step (leBytes_length 8 _) ha (by decide)
  have first := poison 0 (by omega)
  rw [Nat.add_zero] at first
  exact ⟨t, e, fun i hi => (bytes i (by rwa [leBytes_length])).trans (leBytes_extract 8 _ _), out, first, rest⟩
theorem vstSide_own (hp : s.path (s.partAddr a d 8) 8 = .own off) : Completes (.vstSide v a d) s fun t =>
    (∀ i, i < 8 → t.byte (nodeBase s.here + off + i) = (s.vr v).side.extractLsb' (8 * i) 8) ∧
    SameBytesBut s t (nodeBase s.here + off) 8 ∧
    t.poisoned (nodeBase s.here + off) = (s.vr v).p ∧ Owns s t (nodeBase s.here + off) 8 ∧ t.core.regs = s.core.regs ∧
    t.core.eng = s.core.eng ∧ Passes s t (s.pc + 4) := by
  have body : vstSideBody v a d s = .ok (s.storeOf false off (leBytes 8 (s.vr v).side.toNat) (s.vr v).p) := by
    rw [vstSideBody, consume_clean hg, checked_own hp]
    rfl
  exact storeDword_own (path_own_iff.mp hp).2.2.2 (congrArg (s.finish 4) body)
theorem vstMask_own (hp : s.path (s.partAddr a d 8) 8 = .own off) : Completes (.vstMask x a d) s fun t =>
    (∀ i, i < 8 → t.byte (nodeBase s.here + off + i) = (s.mr x).extractLsb' (8 * i) 8) ∧
    SameBytesBut s t (nodeBase s.here + off) 8 ∧
    t.poisoned (nodeBase s.here + off) = false ∧ Owns s t (nodeBase s.here + off) 8 ∧ t.core.regs = s.core.regs ∧
    t.core.eng = s.core.eng ∧ Passes s t (s.pc + 4) := by
  have body : vstMaskBody x a d s = .ok (s.storeOf false off (leBytes 8 (s.mr x).toNat) false) := by
    rw [vstMaskBody, consume_clean hg, checked_own hp]
    rfl
  exact storeDword_own (path_own_iff.mp hp).2.2.2 (congrArg (s.finish 4) body)
end

/-! ## Parts of registers and a peer's scratchpad -/

theorem setV_portTurns (s : State) (r : VR) (x : VReg) : PortTurns s (s.setV r x) := by
  refine ⟨rfl, fun j hj => ?_⟩
  rw [State.coreAt, State.coreAt, setV_here, if_neg hj, if_neg hj]
  rfl
theorem setM_portTurns (s : State) (r : MR) (x : BitVec 64) : PortTurns s (s.setM r x) := by
  refine ⟨rfl, fun j hj => ?_⟩
  rw [State.coreAt, State.coreAt, setM_here, if_neg hj, if_neg hj]
  rfl
theorem vr_of_regs {s t : State} (h : t.core.regs = s.core.regs) (r : VR) : t.vr r = s.vr r := by rw [State.vr, h, State.vr]
theorem mr_of_regs {s t : State} (h : t.core.regs = s.core.regs) (r : MR) : t.mr r = s.mr r := by rw [State.mr, h, State.mr]

section
variable {s : State} {i : Instr} {k off : Nat}
/-- A vector register loaded from peers. -/
theorem setV_turns {t : State} {v : VR} {x : VReg} (step : exec i s = s.finish 4 (.ok (t.setV v x))) (turns : PortTurns s t)
    (regs : t.core.regs = s.core.regs) : Completes i s fun t =>
      t.vr v = x ∧ (∀ r, r ≠ v → t.vr r = s.vr r) ∧ KeepsG s t ∧ t.core.regs.m = s.core.regs.m ∧ PeerRead s t := by
  have g : t.core.regs.g = s.core.regs.g := by rw [regs]
  have m : t.core.regs.m = s.core.regs.m := by rw [regs]
  exact completes_ok step ⟨setV_vr t v x, fun r hr => (setV_vr_ne t v r x hr).trans (vr_of_regs regs r), g, m,
    (turns.trans (setV_portTurns t v x)).peerRead⟩
/-- A store of words that waits at a peer's port. -/
theorem queueOf_completes {l : List (BitVec 8)} {p : Bool} (hk : k ≠ s.here) (step : exec i s = s.finish 4 (.ok (s.queueOf false k off l p)))
    (hl : s.core.sh.late = []) : Completes i s fun t =>
      (t.coreAt k).sh.port = (s.coreAt k).sh.port ++ s.waitingStores false off l p ∧ SameMemory s t ∧
      t.core.regs = s.core.regs ∧ t.pc = s.pc + 4 := by
  have queued := queueOf_queues s false off l p hk
  rw [takeWords_nil _ hl] at queued
  generalize s.queueOf false k off l p = u at *
  have pc := queued.pc
  obtain ⟨port, mem, regs, here, _⟩ := queued
  refine completes_ok step ⟨?_, mem.trans (commit_sameMemory u 4), (commit_core_regs u 4).trans regs, ?_⟩
  · rw [commit_coreAt _ _ (by rwa [here]), port k hk]
    exact congrArg _ (if_pos rfl)
  · rw [commit_pc, pc]
    rfl
end

section
variable {s : State} {v : VR} {x : MR} {a : GR} {d : BitVec 5} {k off : Nat} (hg : s.gp a = false)
include hg
theorem vldBody_peer (hp : s.path (s.partAddr a d 64) 64 = .peer k off) (q : PeerQuiet s k) : Completes (.vldBody v a d) s fun t =>
    t.vr v = ⟨BitVec.ofNat 512 (s.readNat (nodeBase k + off) 64), 0, s.anyPoison (nodeBase k + off) 64⟩ ∧
    (∀ r, r ≠ v → t.vr r = s.vr r) ∧ KeepsG s t ∧ t.core.regs.m = s.core.regs.m ∧ PeerRead s t := by
  obtain ⟨hk, _⟩ := path_peer hp
  obtain ⟨t, read, turns, regs⟩ := loadAt_body hk q off
  obtain ⟨_, _, _, _, ord, unmet⟩ := q
  have body : vldBodyBody v a d s = .ok (t.setV v
      ⟨BitVec.ofNat 512 (s.readNat (nodeBase k + off) 64), 0, s.anyPoison (nodeBase k + off) 64⟩) := by
    rw [vldBodyBody, consume_clean hg, checkedLoad_peer hp ord, orLate_now _ _ _ unmet, read]
  exact setV_turns (congrArg (s.finish 4) body) turns regs
theorem vldBody_putOff (hp : s.path (s.partAddr a d 64) 64 = .peer k off) (ho : s.core.ordering = []) (ha : s.core.sh.ahead = [])
    (hm : .readLate ∈ s.met) (hr : s.core.ctl.riga = false) : Completes (.vldBody v a d) s fun t =>
      t.core.sh.late = s.core.sh.late ++ (List.range 8).map (fun i => ⟨.body v i, k, off + 8 * i⟩) ∧
      (∀ r, r ≠ v → t.vr r = s.vr r) ∧ KeepsG s t ∧ SameOutside s t ∧ t.pc = s.pc + 4 := by
  have body : vldBodyBody v a d s = .ok ((s.setV v ⟨0, 0, false⟩).putOff
      ((List.range 8).map fun i => ⟨.body v i, k, off + 8 * i⟩)) := by
    rw [vldBodyBody, consume_clean hg, checkedLoad_peer hp ho, orLate_off _ _ (by simp [Path.lates]) ha hm hr]
    rfl
  exact completes_ok (congrArg (s.finish 4) body) ⟨rfl, fun r hr => setV_vr_ne s v r _ hr, rfl, rfl, rfl⟩
theorem vstBody_peer (hp : s.path (s.partAddr a d 64) 64 = .peer k off) (hl : s.core.sh.late = []) :
    Completes (.vstBody v a d) s fun t =>
      (t.coreAt k).sh.port = (s.coreAt k).sh.port ++ (List.range 8).map (fun i =>
        s.waitingStore false (off + 8 * i) ((List.range 8).map fun j => (s.vr v).body.extractLsb' (8 * (8 * i + j)) 8) (s.vr v).p) ∧
      SameMemory s t ∧ t.core.regs = s.core.regs ∧ t.pc = s.pc + 4 := by
  have body : vstBodyBody v a d s = .ok (s.queueOf false k off (bodyBytes (s.vr v).body) (s.vr v).p) := by
    rw [vstBodyBody, consume_clean hg, checked_peer hp]
    rfl
  have dwords : s.waitingStores false off (bodyBytes (s.vr v).body) (s.vr v).p = (List.range 8).map fun i =>
      s.waitingStore false (off + 8 * i) ((List.range 8).map fun j => (s.vr v).body.extractLsb' (8 * (8 * i + j)) 8) (s.vr v).p := rfl
  rw [← dwords]
  exact queueOf_completes (i := .vstBody v a d) (path_peer hp).1 (congrArg (s.finish 4) body) hl
theorem vldSide_peer (hp : s.path (s.partAddr a d 8) 8 = .peer k off) (q : PeerQuiet s k) : Completes (.vldSide v a d) s fun t =>
    t.vr v = ⟨(s.vr v).body, BitVec.ofNat 64 (s.readNat (nodeBase k + off) 8), (s.vr v).p || s.poisoned (nodeBase k + off)⟩ ∧
    (∀ r, r ≠ v → t.vr r = s.vr r) ∧ t.core.regs.m = s.core.regs.m ∧ KeepsG s t ∧ PeerRead s t := by
  obtain ⟨hk, aligned⟩ := path_peer hp
  obtain ⟨t, read, turns, regs⟩ := loadAt_peer hk q (PortTurns.refl s) aligned
  obtain ⟨_, _, _, _, ord, unmet⟩ := q
  have body : vldSideBody v a d s = .ok (t.setV v ⟨(s.vr v).body, BitVec.ofNat 64 (s.readNat (nodeBase k + off) 8),
      (s.vr v).p || s.poisoned (nodeBase k + off)⟩) := by
    rw [vldSideBody, consume_clean hg, checkedLoad_peer hp ord, orLate_now _ _ _ unmet, read]
  obtain ⟨u, e, val, others, g, m, rest⟩ := setV_turns (i := .vldSide v a d) (congrArg (s.finish 4) body) turns regs
  exact ⟨u, e, val, others, m, g, rest⟩
theorem vldMask_peer (hp : s.path (s.partAddr a d 8) 8 = .peer k off) (q : PeerQuiet s k)
    (hc : s.poisoned (nodeBase k + off) = false) : Completes (.vldMask x a d) s fun t =>
      t.mr x = BitVec.ofNat 64 (s.readNat (nodeBase k + off) 8) ∧ (∀ r, r ≠ x → t.mr r = s.mr r) ∧
      t.core.regs.v = s.core.regs.v ∧ KeepsG s t ∧ PeerRead s t := by
  obtain ⟨hk, aligned⟩ := path_peer hp
  obtain ⟨t, read, turns, regs⟩ := loadAt_peer hk q (PortTurns.refl s) aligned
  obtain ⟨_, _, _, _, ord, unmet⟩ := q
  have body : vldMaskBody x a d s = .ok (t.setM x (BitVec.ofNat 64 (s.readNat (nodeBase k + off) 8))) := by
    rw [vldMaskBody, consume_clean hg, checkedLoad_peer hp ord, read, hc]
    rfl
  have g : t.core.regs.g = s.core.regs.g := by rw [regs]
  have v : t.core.regs.v = s.core.regs.v := by rw [regs]
  exact completes_ok (congrArg (s.finish 4) body) ⟨setM_mr t x _, fun r hr => (setM_mr_ne t x r _ hr).trans (mr_of_regs regs r), v, g, (turns.trans (setM_portTurns t x _)).peerRead⟩
theorem vstSide_peer (hp : s.path (s.partAddr a d 8) 8 = .peer k off) (hl : s.core.sh.late = []) :
    Completes (.vstSide v a d) s fun t =>
      (t.coreAt k).sh.port = (s.coreAt k).sh.port ++ [s.waitingStore false off (leBytes 8 (s.vr v).side.toNat) (s.vr v).p] ∧
      SameMemory s t ∧ t.core.regs = s.core.regs ∧ t.pc = s.pc + 4 := by
  have body : vstSideBody v a d s = .ok (s.queueOf false k off (leBytes 8 (s.vr v).side.toNat) (s.vr v).p) := by
    rw [vstSideBody, consume_clean hg, checked_peer hp]
    rfl
  rw [← waitingStores_dword _ _ _ _ _ (by simp) (by simp)]
  exact queueOf_completes (i := .vstSide v a d) (path_peer hp).1 (congrArg (s.finish 4) body) hl
theorem vstMask_peer (hp : s.path (s.partAddr a d 8) 8 = .peer k off) (hl : s.core.sh.late = []) :
    Completes (.vstMask x a d) s fun t =>
      (t.coreAt k).sh.port = (s.coreAt k).sh.port ++ [s.waitingStore false off (leBytes 8 (s.mr x).toNat) false] ∧
      SameMemory s t ∧ t.core.regs = s.core.regs ∧ t.pc = s.pc + 4 := by
  have body : vstMaskBody x a d s = .ok (s.queueOf false k off (leBytes 8 (s.mr x).toNat) false) := by
    rw [vstMaskBody, consume_clean hg, checked_peer hp]
    rfl
  rw [← waitingStores_dword _ _ _ _ _ (by simp) (by simp)]
  exact queueOf_completes (i := .vstMask x a d) (path_peer hp).1 (congrArg (s.finish 4) body) hl
end

end Sys2Proof.Machine
end

section

/-! Loads and stores of lanes at strided or indexed addresses (R187). -/

namespace Sys2Proof.Machine

/-! ## Lanes of a body -/

theorem packNat_lt (w : Nat) (l : List Nat) : packNat w l < 2 ^ (w * l.length) := by
  induction l with
  | nil => simp [packNat]
  | cons x r ih =>
    rw [packNat, List.length_cons, Nat.mul_add, Nat.mul_one, Nat.add_comm, pow_add]
    have := Nat.mod_lt x (Nat.two_pow_pos w)
    have := Nat.mul_le_mul_right (2 ^ w) (Nat.succ_le_of_lt ih)
    rw [Nat.succ_mul] at this
    rw [Nat.mul_comm (2 ^ w)]
    omega
theorem packNat_lane (w : Nat) (l : List Nat) : ∀ i, packNat w l / 2 ^ (w * i) % 2 ^ w = lane l i % 2 ^ w := by
  induction l with
  | nil => intro i; simp [packNat, lane]
  | cons x r ih =>
    intro i
    have pos := Nat.two_pow_pos w
    cases i with
    | zero => simp [packNat, lane]
    | succ i =>
      have drop : packNat w (x :: r) / 2 ^ w = packNat w r := by
        rw [packNat, Nat.add_mul_div_left _ _ pos, Nat.div_eq_of_lt (Nat.mod_lt _ pos), Nat.zero_add]
      rw [Nat.mul_succ, pow_add, Nat.mul_comm (2 ^ (w * i)), ← Nat.div_div_eq_div_mul, drop, ih]
      rfl
theorem lanes_length (w : Nat) (b : BitVec 512) : (lanes w b).length = 512 / w := by simp [lanes]
theorem lane_lanes {w i : Nat} (b : BitVec 512) (h : i < 512 / w) : lane (lanes w b) i = b.toNat / 2 ^ (w * i) % 2 ^ w := by
  simp [lane, lanes, h]
/-- A lane of a body put together from lanes. -/
theorem lane_ofLanes {w i : Nat} {l : List Nat} (hl : w * l.length ≤ 512) (h : i < 512 / w) :
    lane (lanes w (ofLanes w l)) i = lane l i % 2 ^ w := by
  have fits : packNat w l < 2 ^ 512 := lt_of_lt_of_le (packNat_lt w l) (Nat.pow_le_pow_right (by decide) hl)
  rw [lane_lanes _ h, ofLanes, BitVec.toNat_ofNat, Nat.mod_eq_of_lt fits, packNat_lane]

/-- What a type with lanes says of their bytes. -/
theorem ty_bytes {y : Ty} (h : y.intFloat = true ∨ y.gather = true) :
    0 < y.bits / 8 ∧ y.bits / 8 ∣ 8 ∧ 8 * (y.bits / 8) = y.bits ∧ y.bits * y.lanes = 512 := by
  cases y <;> simp [Ty.intFloat, Ty.gather] at h ⊢ <;> decide

/-! ## Elements one after another -/

section
variable {s : State} {n : Nat} {L : List Nat} {f : Nat → BitVec 64} {path : Nat → Path}
theorem paths_ok (h : ∀ i ∈ L, s.path (f i) n = path i ∧ ∀ c, path i ≠ .trap c) :
    s.paths n (L.map fun i => (i, f i)) = .ok (L.map fun i => (i, path i)) := by
  induction L with
  | nil => rfl
  | cons i L ih =>
    obtain ⟨e, ht⟩ := h i List.mem_cons_self
    have rest := ih fun j hj => h j (List.mem_cons_of_mem _ hj)
    rw [List.map_cons, List.map_cons, State.paths, e]
    cases hp : path i with
    | trap c => exact absurd hp (ht c)
    | own off => simp only [rest]
    | peer k off => simp only [rest]
/-- Elements read in turn, each as it stands, with no change but what inv keeps. -/
theorem gather_reads {inv : State → Prop} {val : Nat → Nat} {poi : Nat → Bool}
    (read : ∀ u, inv u → ∀ i ∈ L, ∃ t, u.loadAt (path i) n = (t, val i, poi i) ∧ inv t ∧ t.core.regs = u.core.regs) :
    ∀ u, inv u → ∃ t, u.gather n (L.map fun i => (i, path i)) = (t, L.map fun i => (i, val i), L.any poi) ∧ inv t ∧
      t.core.regs = u.core.regs := by
  induction L with
  | nil => exact fun u hu => ⟨u, rfl, hu, rfl⟩
  | cons i L ih =>
    intro u hu
    obtain ⟨t, e, ht, regs⟩ := read u hu i List.mem_cons_self
    obtain ⟨w, e', hw, regs'⟩ := ih (fun v hv j hj => read v hv j (List.mem_cons_of_mem _ hj)) t ht
    refine ⟨w, ?_, hw, regs'.trans regs⟩
    rw [List.map_cons, State.gather, e]
    dsimp only
    rw [e']
    rfl
end

section
variable {s : State} {m : Option MR} {n i : Nat}
theorem mem_activeLanes : i ∈ s.activeLanes m n ↔ i < n ∧ s.active m i = true := by simp [State.activeLanes]
/-- The value found for a lane among those of the active ones. -/
theorem find_lane (L : List Nat) (val : Nat → Nat) (i z : Nat) :
    (((L.map fun j => (j, val j)).find? (·.1 == i)).map (·.2)).getD z = if i ∈ L then val i else z := by
  induction L with
  | nil => rfl
  | cons j L ih =>
    by_cases e : j = i
    · simp [e]
    · simp only [List.map_cons, List.find?_cons, List.mem_cons, beq_eq_false_iff_ne.mpr e, Ne.symm e, false_or, ih]
end

section
variable {s : State} {v : VR} {m : Option MR} {y : Ty} {f : Nat → BitVec 64} {path : Nat → Path}
/-- The register a load of lanes writes, of the values and the poison of what it reads. -/
def State.lanesReg (s : State) (v : VR) (m : Option MR) (y : Ty) (val : Nat → Nat) (poi : Nat → Bool) : VReg :=
  ⟨ofLanes y.bits ((s.vl y v).mapIdx fun i z => if i ∈ s.activeLanes m y.lanes then val i else z), 0,
    (s.activeLanes m y.lanes).any poi || (m.isSome && (s.vr v).p)⟩
theorem loadLanes_reads {inv : State → Prop} {val : Nat → Nat} {poi : Nat → Bool}
    (hp : ∀ i ∈ s.activeLanes m y.lanes, s.path (f i) (y.bits / 8) = path i ∧ ∀ c, path i ≠ .trap c)
    (hw : ∀ i ∈ s.activeLanes m y.lanes, s.awaits (path i) (y.bits / 8) = false)
    (hl : s.goLate (((s.activeLanes m y.lanes).map fun i => (i, path i)).flatMap fun e => e.2.lates [(.lane v y.bits e.1, 0)]) = false)
    (read : ∀ u, inv u → ∀ i ∈ s.activeLanes m y.lanes,
      ∃ t, u.loadAt (path i) (y.bits / 8) = (t, val i, poi i) ∧ inv t ∧ t.core.regs = u.core.regs) (hs : inv s) :
    ∃ t, s.loadLanes v m y f = .ok (t.setV v (s.lanesReg v m y val poi)) ∧ inv t ∧ t.core.regs = s.core.regs := by
  obtain ⟨t, e, ht, regs⟩ := gather_reads read s hs
  refine ⟨t, ?_, ht, regs⟩
  have none_waits : (((s.activeLanes m y.lanes).map fun i => (i, path i)).any fun e => s.awaits e.2 (y.bits / 8)) = false := by
    simpa using hw
  simp only [State.loadLanes, State.pathsLoad, paths_ok hp, none_waits, State.orLate, hl, e, find_lane]
  rfl
/-- Lanes of the register a load of lanes writes. -/
theorem lane_lanesReg {val : Nat → Nat} {poi : Nat → Bool} (hy : y.bits * y.lanes = 512) {i : Nat} (hi : i < y.lanes)
    (hv : val i < 2 ^ y.bits) : lane (lanes y.bits (s.lanesReg v m y val poi).body) i =
      if s.active m i then val i else lane (s.vl y v) i := by
  have count : (lanes y.bits (s.vr v).body).length = y.lanes := lanes_length _ _
  have old : lane (s.vl y v) i < 2 ^ y.bits := by
    rw [State.vl, lane_lanes _ hi]
    exact Nat.mod_lt _ (Nat.two_pow_pos _)
  rw [State.lanesReg, lane_ofLanes (by rw [List.length_mapIdx, State.vl, count, hy]) hi]
  have at_i : lane ((s.vl y v).mapIdx fun i z => if i ∈ s.activeLanes m y.lanes then val i else z) i =
      if s.active m i then val i else lane (s.vl y v) i := by
    have hi' : i < (s.vl y v).length := by rwa [State.vl, count]
    simp [lane, mem_activeLanes, hi, hi']
  rw [at_i]
  exact Nat.mod_eq_of_lt (by split <;> assumption)
theorem storeLanes_eq (hp : ∀ i ∈ s.activeLanes m y.lanes, s.path (f i) (y.bits / 8) = path i ∧ ∀ c, path i ≠ .trap c) :
    s.storeLanes v m y f = .ok (s.scatter (y.bits / 8) (s.vr v).p (lane (s.vl y v)) ((s.activeLanes m y.lanes).map fun i => (i, path i))) := by
  rw [State.storeLanes, paths_ok hp]
  rfl
end

/-- The stores of lanes into the own scratchpad, and to peers. -/
def ownLanes (n : Nat) (q : Bool) (val : Nat → Nat) (offs : Nat → Nat) (L : List Nat) : List OwnStore :=
  L.map fun i => ⟨offs i, leBytes n (val i), q⟩
def peerLanes (n : Nat) (q : Bool) (val : Nat → Nat) (dest : Nat → Nat × Nat) (L : List Nat) : List PeerStore :=
  L.map fun i => ⟨(dest i).1, (dest i).2, leBytes n (val i), q⟩
section
variable {s : State} {m : Option MR} {n count k b : Nat} {q : Bool} {val offs : Nat → Nat}
theorem ownLanes_any {f : OwnStore → Bool} : (ownLanes n q val offs (s.activeLanes m count)).any f = true ↔
    ∃ i, (i < count ∧ s.active m i = true) ∧ f ⟨offs i, leBytes n (val i), q⟩ = true := by
  simp only [ownLanes, List.any_map, List.any_eq_true, mem_activeLanes]
  rfl
theorem ownLanes_covers : (ownLanes n q val offs (s.activeLanes m count)).any (·.covers k b) = true ↔
    ∃ i, (i < count ∧ s.active m i = true) ∧ nodeBase k + offs i ≤ b ∧ b < nodeBase k + offs i + n := by
  simp only [ownLanes_any, OwnStore.covers_iff, OwnStore.at, leBytes_length]
theorem ownLanes_touches : ((ownLanes n q val offs (s.activeLanes m count)).any fun w => w.touches k b && (w.p || w.fills k b)) = true ↔
    ∃ i, (i < count ∧ s.active m i = true) ∧
      ((nodeBase k + offs i) / 8 ≤ b / 8 ∧ b / 8 < (nodeBase k + offs i + n + 7) / 8) ∧
      (q = true ∨ nodeBase k + offs i ≤ 8 * (b / 8) ∧ 8 * (b / 8) + 8 ≤ nodeBase k + offs i + n) := by
  simp only [ownLanes_any, Bool.and_eq_true, Bool.or_eq_true, OwnStore.touches_iff, OwnStore.fills_iff, OwnStore.at, leBytes_length]
theorem ownLanes_marks : (ownLanes n q val offs (s.activeLanes m count)).any (·.marks k b) = true ↔
    ∃ i, (i < count ∧ s.active m i = true) ∧
      (nodeBase k + offs i) / 64 ≤ b / 64 ∧ b / 64 < (nodeBase k + offs i + n + 63) / 64 := by
  simp only [ownLanes_any, OwnStore.marks_iff, OwnStore.at, leBytes_length]
theorem ownLanes_forall {P : OwnStore → Prop} : (∀ w ∈ ownLanes n q val offs (s.activeLanes m count), P w) ↔
    ∀ i, i < count ∧ s.active m i = true → P ⟨offs i, leBytes n (val i), q⟩ := by
  simp only [ownLanes, List.forall_mem_map, mem_activeLanes]
end
theorem scatter_own (n : Nat) (q : Bool) (val offs : Nat → Nat) (L : List Nat) :
    ∀ s : State, s.scatter n q val (L.map fun i => (i, .own (offs i))) = s.storeOwn (ownLanes n q val offs L) := by
  induction L with
  | nil => exact fun _ => rfl
  | cons i L ih => exact fun s => ih _
theorem scatter_peer (n : Nat) (q : Bool) (val : Nat → Nat) (dest : Nat → Nat × Nat) (L : List Nat) :
    ∀ s : State, s.scatter n q val (L.map fun i => (i, .peer (dest i).1 (dest i).2)) = s.storePeer (peerLanes n q val dest L) := by
  induction L with
  | nil => exact fun _ => rfl
  | cons i L ih => exact fun s => ih _

/-! ## Lanes in the own scratchpad -/

section
variable {s : State} {v : VR} {m : Option MR} {y : Ty} {f : Nat → BitVec 64} {offs : Nat → Nat} {instr : Instr}
  (hy : 0 < y.bits / 8 ∧ y.bits / 8 ∣ 8 ∧ 8 * (y.bits / 8) = y.bits ∧ y.bits * y.lanes = 512)
  (hp : ∀ i, i < y.lanes → s.active m i = true → s.path (f i) (y.bits / 8) = .own (offs i))
include hy hp
theorem loadLanes_own (step : exec instr s = s.finish 4 (s.loadLanes v m y f)) : Completes instr s fun t =>
    (∀ i, i < y.lanes → lane (t.vl y v) i =
      if s.active m i then s.readNat (nodeBase s.here + offs i) (y.bits / 8) else lane (s.vl y v) i) ∧
    (t.vr v).side = 0 ∧ ((t.vr v).p = true ↔ (∃ c, (∃ i, i < y.lanes ∧ s.active m i = true ∧ c = nodeBase s.here + offs i) ∧
      s.poisoned c = true) ∨ (m.isSome = true ∧ (s.vr v).p = true)) ∧
    (∀ r, r ≠ v → t.vr r = s.vr r) ∧ KeepsG s t ∧ t.core.regs.m = s.core.regs.m ∧
    t.fpcr = s.fpcr ∧ SameTables s t ∧ SameOutside s t ∧ Passes s t (s.pc + 4) := by
  obtain ⟨pos, divides, bits, all⟩ := hy
  have path (i : Nat) (hi : i ∈ s.activeLanes m y.lanes) : s.path (f i) (y.bits / 8) = .own (offs i) := by
    obtain ⟨lt, act⟩ := mem_activeLanes.mp hi
    exact hp i lt act
  have aligned (i : Nat) (hi : i ∈ s.activeLanes m y.lanes) : offs i % (y.bits / 8) = 0 := (path_own_iff.mp (path i hi)).2.2.2
  obtain ⟨t, e, rfl, _⟩ := loadLanes_reads (v := v) (y := y) (path := fun i => .own (offs i)) (inv := (· = s))
    (val := fun i => s.readNat (nodeBase s.here + offs i) (y.bits / 8)) (poi := fun i => s.poisoned (nodeBase s.here + offs i))
    (fun i hi => ⟨path i hi, by simp⟩) (fun i _ => rfl) (by simp [State.goLate, Path.lates])
    (fun u hu i hi => ⟨u, by rw [hu, State.loadAt, anyPoison_aligned pos divides (aligned i hi)], hu, rfl⟩) rfl
  rw [e] at step
  have small (i : Nat) : t.readNat (nodeBase t.here + offs i) (y.bits / 8) < 2 ^ y.bits := by
    have := readNat_lt (s := t) (nodeBase t.here + offs i) (y.bits / 8)
    rwa [show 256 = 2 ^ 8 from rfl, ← pow_mul, bits] at this
  refine completes_ok step ⟨fun i hi => ?_, ?_, ?_, fun r hr => setV_vr_ne t v r _ hr, rfl, rfl, rfl, ⟨rfl, rfl, rfl⟩, rfl, rfl⟩
  · rw [State.vl, commit_vr, setV_vr]
    exact lane_lanesReg all hi (small i)
  · rw [commit_vr, setV_vr]
    rfl
  · rw [commit_vr, setV_vr]
    simp only [State.lanesReg, Bool.or_eq_true, Bool.and_eq_true, List.any_eq_true, mem_activeLanes]
    exact or_congr_left ⟨fun ⟨i, ⟨lt, act⟩, p⟩ => ⟨_, ⟨i, lt, act, rfl⟩, p⟩, fun ⟨c, ⟨i, lt, act, e⟩, p⟩ => ⟨i, ⟨lt, act⟩, e ▸ p⟩⟩
theorem storeLanes_own (step : exec instr s = s.finish 4 (s.storeLanes v m y f)) {base : Nat} (hb : nodeBase s.here = base) :
    Completes instr s fun t =>
      (∀ i, i < y.lanes → s.active m i = true →
        (∀ j, j < y.lanes → s.active m j = true → j ≠ i → offs j + y.bits / 8 ≤ offs i ∨ offs i + y.bits / 8 ≤ offs j) →
        ∀ k, k < y.bits / 8 → t.byte (base + offs i + k) = BitVec.ofNat 8 (lane (s.vl y v) i / 256 ^ k)) ∧
      (∀ c, (∀ i, i < y.lanes → s.active m i = true → c < base + offs i ∨ base + offs i + y.bits / 8 ≤ c) →
        t.byte c = s.byte c) ∧
      (∀ c, (∃ i, i < y.lanes ∧ s.active m i = true ∧ c = base + offs i) → t.poisoned c =
        if (s.vr v).p then true else if y.bits / 8 = 8 then false else s.poisoned c) ∧
      (∀ b, (∀ c, (∃ i, i < y.lanes ∧ s.active m i = true ∧ c = base + offs i) → c / 8 ≠ b / 8) → t.poisoned b = s.poisoned b) ∧
      (∀ c, (∃ i, i < y.lanes ∧ s.active m i = true ∧ c = base + offs i) → t.tag c = s.ownedBy (s.tag c)) ∧
      (∀ b, (∀ c, (∃ i, i < y.lanes ∧ s.active m i = true ∧ c = base + offs i) → c / 64 ≠ b / 64) → t.tag b = s.tag b) ∧
      t.core.regs = s.core.regs ∧ t.core.eng = s.core.eng ∧ Passes s t (s.pc + 4) := by
  obtain ⟨pos, divides, bits, all⟩ := hy
  have path (i : Nat) (hi : i ∈ s.activeLanes m y.lanes) : s.path (f i) (y.bits / 8) = .own (offs i) := by
    obtain ⟨lt, act⟩ := mem_activeLanes.mp hi
    exact hp i lt act
  have aligned (i : Nat) (lt : i < y.lanes) (act : s.active m i = true) : (base + offs i) % (y.bits / 8) = 0 := by
    have := (path_own_iff.mp (hp i lt act)).2.2.2
    have := Nat.le_of_dvd (by decide) divides
    rw [← hb, nodeBase]
    interval_cases y.bits / 8 <;> omega
  rw [storeLanes_eq (path := fun i => .own (offs i)) (fun i hi => ⟨path i hi, by simp⟩), scatter_own] at step
  have kept := storeOwn_sameCore (ownLanes (y.bits / 8) (s.vr v).p (lane (s.vl y v)) offs (s.activeLanes m y.lanes)) s
  have byte := fun b x => storeOwn_byte s (ownLanes (y.bits / 8) (s.vr v).p (lane (s.vl y v)) offs (s.activeLanes m y.lanes))
    (b := b) (x := x)
  have poison := fun b => storeOwn_poisoned s (ownLanes (y.bits / 8) (s.vr v).p (lane (s.vl y v)) offs (s.activeLanes m y.lanes))
    (b := b) (q := (s.vr v).p) (by simp [ownLanes])
  have tag := storeOwn_tag s (ownLanes (y.bits / 8) (s.vr v).p (lane (s.vl y v)) offs (s.activeLanes m y.lanes))
  generalize s.storeOwn (ownLanes (y.bits / 8) (s.vr v).p (lane (s.vl y v)) offs (s.activeLanes m y.lanes)) = u at *
  have mem := commit_sameMemory u 4
  simp only [ownLanes_forall, OwnStore.at, leBytes_length] at byte
  have covers := fun b => ownLanes_covers (s := s) (m := m) (n := y.bits / 8) (count := y.lanes) (k := s.here) (b := b)
    (q := (s.vr v).p) (val := lane (s.vl y v)) (offs := offs)
  have touches := fun b => ownLanes_touches (s := s) (m := m) (n := y.bits / 8) (count := y.lanes) (k := s.here) (b := b)
    (q := (s.vr v).p) (val := lane (s.vl y v)) (offs := offs)
  have marks := fun b => ownLanes_marks (s := s) (m := m) (n := y.bits / 8) (count := y.lanes) (k := s.here) (b := b)
    (q := (s.vr v).p) (val := lane (s.vl y v)) (offs := offs)
  simp only [hb] at byte covers touches marks
  have short := Nat.le_of_dvd (by decide) divides
  have inside (i : Nat) (lt : i < y.lanes) (act : s.active m i = true) : (base + offs i) % 8 + y.bits / 8 ≤ 8 := by
    have := aligned i lt act
    interval_cases y.bits / 8 <;> omega
  generalize y.bits / 8 = n at *
  refine completes_ok step ⟨fun i lt act apart k hk => (mem _).1.trans ?_, fun c hc => (mem c).1.trans ?_,
    fun c ⟨i, lt, act, hc⟩ => (mem c).2.1.trans ?_, fun b hb => (mem b).2.1.trans ?_, fun c ⟨i, lt, act, hc⟩ => (mem c).2.2.trans ?_,
    fun b hb => (mem b).2.2.trans ?_, (commit_core_regs u 4).trans kept.2.1, (commit_core_eng u 4).trans kept.2.2,
    commit_passes kept.1.2 4⟩
  · rw [byte _ (BitVec.ofNat 8 (lane (s.vl y v) i / 256 ^ k)) fun j ⟨lt', act'⟩ l hl e => ?_,
      if_pos ((covers _).mpr ⟨i, ⟨lt, act⟩, by omega, by omega⟩)]
    have one : j = i := by
      by_contra ne
      have := apart j lt' act' ne
      omega
    subst one
    obtain rfl : l = k := by omega
    exact leBytes_get n _ l (by rwa [leBytes_length])
  · rw [byte c 0 fun j ⟨lt', act'⟩ l hl e => by have := hc j lt' act'; omega, if_neg (mt (covers c).mp _)]
    rintro ⟨j, ⟨lt', act'⟩, c⟩
    have := hc j lt' act'
    omega
  · rw [poison]
    have := inside i lt act
    by_cases p : (s.vr v).p = true
    · rw [if_pos ((touches c).mpr ⟨i, ⟨lt, act⟩, by omega, .inl p⟩), if_pos p, p]
    · rw [if_neg p]
      by_cases dword : n = 8
      · rw [if_pos ((touches c).mpr ⟨i, ⟨lt, act⟩, by omega, .inr (by omega)⟩), if_pos dword, Bool.eq_false_iff.mpr p]
      · rw [if_neg (mt (touches c).mp _), if_neg dword]
        rintro ⟨j, _, _, w | w⟩
        · exact p w
        · omega
  · rw [poison, if_neg (mt (touches b).mp _)]
    rintro ⟨j, ⟨lt', act'⟩, w, _⟩
    have := inside j lt' act'
    exact hb _ ⟨j, lt', act', rfl⟩ (by omega)
  · rw [tag, if_pos ((marks c).mpr ⟨i, ⟨lt, act⟩, by omega, by omega⟩)]
  · rw [tag, if_neg (mt (marks b).mp _)]
    rintro ⟨j, ⟨lt', act'⟩, w⟩
    have := inside j lt' act'
    exact hb _ ⟨j, lt', act', rfl⟩ (by omega)
end

/-! ## Lanes in peers' scratchpads -/

section
variable {s : State} {v : VR} {m : Option MR} {y : Ty} {f : Nat → BitVec 64} {dest : Nat → Nat × Nat} {instr : Instr}
  (hy : 0 < y.bits / 8 ∧ y.bits / 8 ∣ 8 ∧ 8 * (y.bits / 8) = y.bits ∧ y.bits * y.lanes = 512)
  (hp : ∀ i, i < y.lanes → s.active m i = true → s.path (f i) (y.bits / 8) = .peer (dest i).1 (dest i).2)
include hy hp
theorem loadLanes_peer (q : ∀ i, i < y.lanes → s.active m i = true → PeerQuiet s (dest i).1)
    (step : exec instr s = s.finish 4 (s.loadLanes v m y f)) : Completes instr s fun t =>
      (∀ i, i < y.lanes → lane (t.vl y v) i =
        if s.active m i then s.readNat (nodeBase (dest i).1 + (dest i).2) (y.bits / 8) else lane (s.vl y v) i) ∧
      (t.vr v).side = 0 ∧ ((t.vr v).p = true ↔ (∃ i, i < y.lanes ∧ s.active m i = true ∧
        s.poisoned (nodeBase (dest i).1 + (dest i).2) = true) ∨ (m.isSome = true ∧ (s.vr v).p = true)) ∧
      (∀ r, r ≠ v → t.vr r = s.vr r) ∧ KeepsG s t ∧ t.core.regs.m = s.core.regs.m ∧ PeerRead s t := by
  obtain ⟨pos, divides, bits, all⟩ := hy
  have short := Nat.le_of_dvd (by decide) divides
  have at_ (i : Nat) (hi : i ∈ s.activeLanes m y.lanes) :
      s.path (f i) (y.bits / 8) = .peer (dest i).1 (dest i).2 ∧ PeerQuiet s (dest i).1 := by
    obtain ⟨lt, act⟩ := mem_activeLanes.mp hi
    exact ⟨hp i lt act, q i lt act⟩
  have now : s.goLate (((s.activeLanes m y.lanes).map fun i => (i, Path.peer (dest i).1 (dest i).2)).flatMap fun e =>
      e.2.lates [(.lane v y.bits e.1, 0)]) = false := by
    cases h : s.activeLanes m y.lanes with
    | nil => simp [State.goLate]
    | cons i L =>
      obtain ⟨_, _, _, _, _, unmet⟩ := (at_ i (by simp [h])).2
      exact goLate_unmet unmet
  obtain ⟨t, e, turns, regs⟩ := loadLanes_reads (v := v) (y := y) (path := fun i => .peer (dest i).1 (dest i).2) (inv := PortTurns s)
    (val := fun i => s.readNat (nodeBase (dest i).1 + (dest i).2) (y.bits / 8))
    (poi := fun i => s.poisoned (nodeBase (dest i).1 + (dest i).2))
    (fun i hi => ⟨(at_ i hi).1, by simp⟩)
    (fun i hi => by
      obtain ⟨_, _, _, _, ord, _⟩ := (at_ i hi).2
      simp [State.awaits, ord, shareWord])
    now
    (fun u hu i hi => by
      obtain ⟨path, quiet⟩ := at_ i hi
      obtain ⟨hk, aligned⟩ := path_peer path
      obtain ⟨w, read, turns, regs⟩ := loadAt_turns (by rwa [hu.here]) (hu.quiet hk quiet) (dest i).2 short
      rw [hu.readNat, hu.anyPoison, anyPoison_aligned pos divides aligned] at read
      exact ⟨w, read, hu.trans turns, regs⟩)
    (PortTurns.refl s)
  rw [e] at step
  have small (i : Nat) : s.readNat (nodeBase (dest i).1 + (dest i).2) (y.bits / 8) < 2 ^ y.bits := by
    have := readNat_lt (s := s) (nodeBase (dest i).1 + (dest i).2) (y.bits / 8)
    rwa [show 256 = 2 ^ 8 from rfl, ← pow_mul, bits] at this
  obtain ⟨u, done, val, rest⟩ := setV_turns step turns regs
  refine ⟨u, done, fun i hi => ?_, by rw [val]; rfl, ?_, rest⟩
  · rw [State.vl, val]
    exact lane_lanesReg all hi (small i)
  · rw [val]
    simp only [State.lanesReg, Bool.or_eq_true, Bool.and_eq_true, List.any_eq_true, mem_activeLanes, and_assoc]
theorem storeLanes_peer (hl : s.core.sh.late = []) (step : exec instr s = s.finish 4 (s.storeLanes v m y f)) :
    Completes instr s fun t =>
      (∀ k, k ≠ s.here → (t.coreAt k).sh.port = (s.coreAt k).sh.port ++
        ((List.range y.lanes).filter fun i => s.active m i && (dest i).1 == k).map fun i =>
          s.waitingStore false (dest i).2 (leBytes (y.bits / 8) (lane (s.vl y v) i)) (s.vr v).p) ∧
      SameMemory s t ∧ t.core.regs = s.core.regs ∧ t.pc = s.pc + 4 := by
  obtain ⟨pos, divides, bits, all⟩ := hy
  have short := Nat.le_of_dvd (by decide) divides
  have path (i : Nat) (hi : i ∈ s.activeLanes m y.lanes) : s.path (f i) (y.bits / 8) = .peer (dest i).1 (dest i).2 := by
    obtain ⟨lt, act⟩ := mem_activeLanes.mp hi
    exact hp i lt act
  rw [storeLanes_eq (path := fun i => .peer (dest i).1 (dest i).2) (fun i hi => ⟨path i hi, by simp⟩), scatter_peer] at step
  have queued := storePeer_queues (peerLanes (y.bits / 8) (s.vr v).p (lane (s.vl y v)) dest (s.activeLanes m y.lanes)) s hl (by
    simp only [peerLanes, List.forall_mem_map, leBytes_length]
    exact fun i hi => ⟨(path_peer (path i hi)).1, pos, short⟩)
  generalize s.storePeer (peerLanes (y.bits / 8) (s.vr v).p (lane (s.vl y v)) dest (s.activeLanes m y.lanes)) = u at *
  have pc := queued.pc
  obtain ⟨port, mem, regs, here, _⟩ := queued
  refine completes_ok step ⟨fun k hk => ?_, mem.trans (commit_sameMemory u 4), (commit_core_regs u 4).trans regs, ?_⟩
  · rw [commit_coreAt _ _ (by rwa [here]), port k hk]
    dsimp only
    rw [peerLanes, List.filter_map, List.map_map, State.activeLanes, List.filter_filter]
    refine congrArg _ (congrArg _ (congrArg₂ List.filter (funext fun i => Bool.and_comm ..) rfl))
  · rw [commit_pc, pc]
    rfl
end

/-! ## The instructions -/

section
variable {s : State} {v x : VR} {a b : GR} {m : Option MR} {y : Ty}
theorem block_false : y.intFloat = true → y.block = false := by cases y <;> decide
section
variable (h : y.intFloat = true) (hg : s.gp a = false) (hb : s.gp b = false)
include h hg hb
theorem exec_vlds : exec (.vlds v a b m y) s = s.finish 4 (s.loadLanes v m y (s.strideAddr a b)) := by
  have body : vldsBody v a b m y s = s.loadLanes v m y (s.strideAddr a b) := by
    rw [vldsBody, legal_wellFormed (i := .vlds v a b m y) (Bool.or_eq_true_iff.mpr (.inl h)), consume_clean hg, consume_clean hb,
      block_false h]
    exact if_neg Bool.false_ne_true
  exact congrArg (s.finish 4) body
theorem exec_vsts : exec (.vsts v a b m y) s = s.finish 4 (s.storeLanes v m y (s.strideAddr a b)) := by
  have body : vstsBody v a b m y s = s.storeLanes v m y (s.strideAddr a b) := by
    rw [vstsBody, legal_wellFormed (i := .vsts v a b m y) (Bool.or_eq_true_iff.mpr (.inl h)), consume_clean hg, consume_clean hb,
      block_false h]
    exact if_neg Bool.false_ne_true
  exact congrArg (s.finish 4) body
end
section
variable (h : y.gather = true) (hg : s.gp a = false) (hx : (s.vr x).p = false)
include hg hx
theorem indexed_clean (r : Res) : s.indexed a x r = r := by
  rw [State.indexed, consume_clean hg, hx]
  exact if_neg Bool.false_ne_true
include h
theorem exec_vgath : exec (.vgath v a x m y) s = s.finish 4 (s.loadLanes v m y (s.indexAddr a x y)) := by
  have body : vgathBody v a x m y s = s.loadLanes v m y (s.indexAddr a x y) := by
    rw [vgathBody, legal_wellFormed (i := .vgath v a x m y) h, indexed_clean hg hx]
  exact congrArg (s.finish 4) body
theorem exec_vscat : exec (.vscat v a x m y) s = s.finish 4 (s.storeLanes v m y (s.indexAddr a x y)) := by
  have body : vscatBody v a x m y s = s.storeLanes v m y (s.indexAddr a x y) := by
    rw [vscatBody, legal_wellFormed (i := .vscat v a x m y) h, indexed_clean hg hx]
  exact congrArg (s.finish 4) body
end
end

/-- Settles O14: the parts of registers, and lanes in the own scratchpad and in peers'. -/
theorem vectorAccesses : Obligations.VectorAccesses := by
  refine ⟨⟨fun s v a d off hg hp => ⟨vldBody_own hg hp, vstBody_own hg hp⟩,
      fun s v a d off hg hp => ⟨vldSide_own hg hp, vstSide_own hg hp⟩,
      fun s v a d off hg hp => ⟨vldMask_clean hg hp, vldMask_poisoned hg hp, vstMask_own hg hp⟩⟩,
    ⟨fun s v a d k off hg hp => ⟨vldBody_peer hg hp, vldBody_putOff hg hp, vstBody_peer hg hp⟩,
      fun s v x a d k off hg hp => ⟨fun q => ⟨vldSide_peer hg hp q, vldMask_peer hg hp q⟩,
        fun hl => ⟨vstSide_peer hg hp hl, vstMask_peer hg hp hl⟩⟩⟩,
    fun s v x a b m y => ⟨fun f offs hp => ⟨fun h hg hb hf => ?_, fun h hg hx hf => ?_⟩,
      fun f at_ hp => ⟨fun h hg hb hf => ?_, fun h hg hx hf => ?_⟩⟩⟩
  · subst hf
    exact ⟨loadLanes_own (ty_bytes (.inl h)) hp (exec_vlds h hg hb), storeLanes_own (ty_bytes (.inl h)) hp (exec_vsts h hg hb) rfl⟩
  · subst hf
    exact ⟨loadLanes_own (ty_bytes (.inr h)) hp (exec_vgath h hg hx), storeLanes_own (ty_bytes (.inr h)) hp (exec_vscat h hg hx) rfl⟩
  · subst hf
    exact ⟨fun q => loadLanes_peer (ty_bytes (.inl h)) hp q (exec_vlds h hg hb),
      fun hl => storeLanes_peer (ty_bytes (.inl h)) hp hl (exec_vsts h hg hb)⟩
  · subst hf
    exact ⟨fun q => loadLanes_peer (ty_bytes (.inr h)) hp q (exec_vgath h hg hx),
      fun hl => storeLanes_peer (ty_bytes (.inr h)) hp hl (exec_vscat h hg hx)⟩

end Sys2Proof.Machine
end

section

/-! Slots and seats of a core under the operations that wake, queue and enter the scheduler (R43, R77, R79, R80). -/

namespace Sys2Proof.Machine

/-! ## Slots -/

section
variable (c : Core) (i j : SlotId)
/-- A field of a slot that queueing does not write. -/
theorem enqueue_slot_field {α : Type} (g : Slot → α) (hq : ∀ t b, g { t with qd := b } = g t) (hp : ∀ t b v, g (Slot.pendOn t b v) = g t) :
    g ((c.enqueue i).slot j) = g (c.slot j) := by
  have queued : g ((c.onSlot i fun t => { t with qd := true }).slot j) = g (c.slot j) := by
    rw [slot_onSlot]
    split
    · next e => rw [hq, e]
    · rfl
  unfold Core.enqueue
  dsimp only
  split
  · split
    · refine Eq.trans ?_ queued
      rw [slot_onSlot]
      split
      · next e => rw [hp, e]; rfl
      · rfl
    · exact queued
  · exact queued
theorem enqueue_st : ((c.enqueue i).slot j).st = (c.slot j).st := enqueue_slot_field c i j Slot.st (fun _ _ => rfl) fun _ _ _ => rfl
theorem enqueue_why : ((c.enqueue i).slot j).why = (c.slot j).why := enqueue_slot_field c i j Slot.why (fun _ _ => rfl) fun _ _ _ => rfl
/-- A wake makes its slot READY and no other. -/
theorem wake_st (w : BitVec 3) : ((c.wake i w).slot j).st = if j = i then .ready else (c.slot j).st := by
  refine (enqueue_st _ i j).trans ?_
  rw [slot_onSlot]
  split <;> rfl
theorem wake_why (w : BitVec 3) : ((c.wake i w).slot j).why = if j = i then .none else (c.slot j).why := by
  refine (enqueue_why _ i j).trans ?_
  rw [slot_onSlot]
  split <;> rfl
end

/-- A wake of a slot that sleeps for a reason, and of no other. -/
def Core.wakeWhen (p : Why → Bool) (c : Core) (x : SlotId) : Core :=
  if (c.slot x).st = .sleep ∧ p (c.slot x).why = true then c.wake x 0 else c
theorem wakeWhen_same (p : Why → Bool) (c : Core) (x : SlotId) : c.SameBut (c.wakeWhen p x) := by
  unfold Core.wakeWhen
  split
  · exact Core.wake_same c x 0
  · exact Core.SameBut.refl c
/-- Slots asleep for the reason are READY after all of the list are woken. -/
theorem foldl_wakeWhen_ready {p : Why → Bool} {x : SlotId} (l : List SlotId) : ∀ c : Core,
    ((c.slot x).st = .ready ∨ x ∈ l ∧ (c.slot x).st = .sleep ∧ p (c.slot x).why = true) →
    ((l.foldl (Core.wakeWhen p) c).slot x).st = .ready := by
  induction l with
  | nil => rintro c (h | ⟨h, _⟩); exacts [h, absurd h List.not_mem_nil]
  | cons y l ih =>
    intro c h
    refine ih _ ?_
    unfold Core.wakeWhen
    rcases h with h | ⟨hx, st, why⟩
    · left
      split
      · rw [wake_st]; split <;> simp [h]
      · exact h
    · by_cases e : x = y
      · subst e
        left
        rw [if_pos ⟨st, why⟩, wake_st, if_pos rfl]
      · right
        refine ⟨(List.mem_cons.mp hx).resolve_left e, ?_⟩
        split
        · rw [wake_st, wake_why, if_neg e, if_neg e]; exact ⟨st, why⟩
        · exact ⟨st, why⟩

/-! ## Seats -/

section
variable (c : Core) (i j : Nat) (f : Seat → Seat)
theorem seatAt_onSeat : (c.onSeat i f).seatAt j = if j = i ∧ i < 64 then f (c.seatAt i) else c.seatAt j := by
  unfold Core.seatAt Core.onSeat
  dsimp only
  rw [Vector.getElem?_setIfInBounds]
  by_cases e : j = i
  · subst e
    by_cases h : j < 64 <;> simp [h, Core.seatAt]
  · simp [e, Ne.symm e]
variable {c} in
theorem seatAt_of_same {d : Core} (h : c.SameBut d) : d.seatAt j = c.seatAt j := by
  obtain ⟨_, _, _, sh⟩ := h
  unfold Core.seatAt
  rw [sh]
end

/-! ## Entering the scheduler (R79) -/

section
variable (s : State)
/-- The window of a core's umpire closes, if it is open, and nothing else changes. -/
theorem closeWindow_frame : ∃ u, s.closeWindow = { s with power := { s.power with umpires := u } } := by
  unfold State.closeWindow State.closeWindowAt
  split
  · exact ⟨_, rfl⟩
  · exact ⟨_, rfl⟩
theorem enterScheduler_enters (code : BitVec 64) (resume : BitVec 16) : SchedulerEntered s (s.enterScheduler code resume) code resume := by
  obtain ⟨u, e⟩ := closeWindow_frame s
  unfold State.enterScheduler
  rw [e]
  exact ⟨rfl, rfl, rfl, rfl⟩
theorem enterScheduler_slots (code : BitVec 64) (resume : BitVec 16) : (s.enterScheduler code resume).core.slots = s.core.slots := by
  obtain ⟨u, e⟩ := closeWindow_frame s
  unfold State.enterScheduler
  rw [e]
  rfl
/-- A context that blocks sleeps for its reason. -/
theorem block_sleeps (w : Why) : SleptFor s (s.block w) w := by
  have asleep (s' : State) (slot : s'.slot = { s.slot with st := .sleep, why := w, slept := s.clock.ticks })
      (slots : ({ s' with core := { s'.core with slots := s.core.slots } } : State) = s) :
      SleptFor s (s'.enterScheduler 2 s'.pc) w := by
    obtain ⟨ctl, regs, eng, frame⟩ := enterScheduler_enters s' 2 s'.pc
    have kept := enterScheduler_slots s' 2 s'.pc
    rw [← slots]
    refine ⟨?_, ctl, regs, eng, frame⟩
    rw [slots, ← slot, State.slot, Core.slot, kept, ctl]
    rfl
  exact asleep _ ((slot_onSlot s.core _ _ _).trans (if_pos rfl)) rfl
end
section
variable {s : State} {i : Instr} {w : Why}
theorem blocked_u (h : exec i s = s.blocked w) (hu : s.core.ctl.priv = .u) : Completes i s fun t => SleptFor s t w :=
  ⟨s.block w, h.trans (by rw [State.blocked, State.blockOrHold, hu]), block_sleeps s w⟩
theorem blocked_s (h : exec i s = s.blocked w) (hs : s.core.ctl.priv = .s) : Completes i s (HeldAt s) :=
  ⟨s.holdIssue, h.trans (by rw [State.blocked, State.blockOrHold, hs]), rfl⟩
end

end Sys2Proof.Machine
end

section

/-! `SEATSET`, `SEATCLR` and `JOIN` (R99, R236-R238). -/

namespace Sys2Proof.Machine

/-! ## The core behind a status -/

section
variable {s : State} {i : Instr} {d : GR}
/-- A status without poison, committed. -/
theorem done_writesG {v : BitVec 64} (h : exec i s = s.done d v 4) : Completes i s fun t => WritesG s t d v false 0 4 :=
  ⟨_, h, setG_commit_writesG s d v false⟩
/-- A core that changed but for its registers, and a status. -/
theorem done_core {c : Core} {v : BitVec 64} (h : exec i s = ({ s with core := c } : State).done d v 4) (hr : c.regs = s.core.regs)
    (he : c.eng = s.core.eng) (hc : c.ctl = s.core.ctl) : Completes i s fun t =>
      t.core.slots = c.slots ∧ t.core.sh = c.sh ∧ t.gv d = v ∧ t.gp d = false ∧ SameG s t [d] ∧ SameV s t ∧ SameOutside s t ∧
      Passes s t (s.pc + 4) := by
  have v : c.regs.v = s.core.regs.v := by rw [hr]
  have m : c.regs.m = s.core.regs.m := by rw [hr]
  refine ⟨_, h, rfl, rfl, setG_gv .., setG_gp .., fun r hr' => ?_, ⟨v, m, he⟩, rfl, commit_passes hc 4⟩
  have ne : r ≠ d := by simpa using hr'
  exact ⟨(setG_gv_ne _ _ _ _ _ ne).trans (gv_of_regs hr r), (setG_gp_ne _ _ _ _ _ ne).trans (gp_of_regs hr r)⟩
end

/-! ## `SEATSET` -/

/-- The seat a `SEATSET` installs (R43, R236). -/
def newSeat (x : BitVec 64) : Seat :=
  { tail := 0, head := 0, seq := 0, count := 0, size := x.extractLsb' 48 8, base := x.extractLsb' 32 16, round := x.extractLsb' 24 8,
    ctx := x.extractLsb' 16 4, fin := false, valid := true, lc := x.extractLsb' 12 2, chan := x.extractLsb' 0 12 }
/-- Another seat has a channel and class (R236). -/
def Core.hasTwin (c : Core) (i : Nat) (chan : BitVec 12) (lc : BitVec 2) : Bool := (List.range 64).any fun j =>
  j != i && (c.seatAt j).valid && (c.seatAt j).chan == chan && (c.seatAt j).lc == lc

section
variable {s : State} {d a b : GR} {i : BitVec 6}
theorem hasTwin_iff {c : Core} {k : Nat} {chan : BitVec 12} {lc : BitVec 2} : c.hasTwin k chan lc = true ↔
    ∃ j, j < 64 ∧ j ≠ k ∧ (c.seatAt j).valid = true ∧ (c.seatAt j).chan = chan ∧ (c.seatAt j).lc = lc := by
  simp [Core.hasTwin, and_assoc]
/-- A `SEATSET` of an operand that passes its checks. -/
theorem exec_seatset (ha : s.gp a = false) (hb : s.gp b = false) (hv : (s.gv a).getLsbD 14 = true)
    (hhi : (s.gv b).extractLsb' 32 32 = 0) (hx : (s.gv a).extractLsb' 20 4 = 0)
    (hal : ((s.gv a).extractLsb' 32 16).toNat % 32 = 0)
    (hfit : ((s.gv a).extractLsb' 32 16).toNat + 32 * (newSeat (s.gv a)).cap ≤ 0x10000)
    (hlc : (s.gv a).extractLsb' 12 2 ≠ 1) : exec (.seatset d a b i) s =
      if ((s.core.seatAt i.toNat).valid = true ∧ (s.core.seatAt i.toNat).count ≠ 0) ∨
          s.core.hasTwin i.toNat ((s.gv a).extractLsb' 0 12) ((s.gv a).extractLsb' 12 2) = true
      then s.done d stBusy 4
      else ({ s with core := s.core.onSeat i.toNat fun _ => newSeat (s.gv a) } : State).done d stOk 4 := by
  have aligned : ((s.gv a).extractLsb' 32 16).extractLsb' 0 5 = 0 := by
    apply BitVec.eq_of_toNat_eq
    simpa [BitVec.extractLsb'_toNat] using hal
  have busy : ((s.core.seatAt i.toNat).valid && (s.core.seatAt i.toNat).count != 0 ||
      s.core.hasTwin i.toNat ((s.gv a).extractLsb' 0 12) ((s.gv a).extractLsb' 12 2)) = true ↔
      ((s.core.seatAt i.toNat).valid = true ∧ (s.core.seatAt i.toNat).count ≠ 0) ∨
        s.core.hasTwin i.toNat ((s.gv a).extractLsb' 0 12) ((s.gv a).extractLsb' 12 2) = true := by
    simp
  change execSeatset d a b i s = _
  unfold execSeatset
  dsimp only
  rw [if_neg (by simp [ha, hb]), if_neg (by simp [hv]), if_neg (by simp [hhi, hx]), if_neg (by simp [aligned]), if_neg, if_neg hlc]
  · exact if_congr busy rfl rfl
  · exact Nat.not_lt.mpr hfit
end

/-! ## `SEATCLR` -/

/-- A slot sleeps on a seat (R80). -/
def Why.onSeat (i : Nat) : Why → Bool
  | .seat j => j.toNat == i
  | _ => false

section
variable {s : State} {d : GR} {i : BitVec 6}
theorem clearSeat_invalid {c : Core} {i : Nat} (h : (c.seatAt i).valid = false) : c.clearSeat i = (stNoSeat, c) := by
  simp [Core.clearSeat, h]
theorem clearSeat_valid {c : Core} {i : Nat} (h : (c.seatAt i).valid = true) : c.clearSeat i =
    (fieldAt (c.seatAt i).count 8, allSlots.foldl (Core.wakeWhen (Why.onSeat i))
      (c.onSeat i fun t => { t with valid := false, count := 0, head := 0, tail := 0 })) := by
  have step : (fun (c : Core) (x : SlotId) => match (c.slot x).st, (c.slot x).why with
      | .sleep, .seat j => if j.toNat = i then c.wake x 0 else c
      | _, _ => c) = Core.wakeWhen (Why.onSeat i) := by
    funext c x
    unfold Core.wakeWhen Why.onSeat
    cases (c.slot x).st <;> cases (c.slot x).why <;> simp
  unfold Core.clearSeat
  dsimp only
  rw [if_neg (by simp [h])]
  exact congrArg (fun f => (_, List.foldl f _ _)) step
theorem seatclr_valid (h : (s.core.seatAt i.toNat).valid = true) : Completes (.seatclr d i) s fun t =>
    (t.core.seatAt i.toNat).valid = false ∧ (t.core.seatAt i.toNat).count = 0 ∧
    (∀ j, j ≠ i.toNat → t.core.seatAt j = s.core.seatAt j) ∧
    (∀ x : SlotId, (s.core.slot x).st = .sleep → (s.core.slot x).why = .seat i → (t.core.slot x).st = .ready) ∧
    t.gv d = (s.core.seatAt i.toNat).count.setWidth 64 <<< 8 ∧ t.gp d = false ∧ SameG s t [d] ∧ SameV s t ∧
    SameOutside s t ∧ Passes s t (s.pc + 4) := by
  let cleared : Core := s.core.onSeat i.toNat fun t => { t with valid := false, count := 0, head := 0, tail := 0 }
  have woken : cleared.SameBut (allSlots.foldl (Core.wakeWhen (Why.onSeat i.toNat)) cleared) :=
    Core.foldl_same _ (wakeWhen_same _) _ _
  have seats := fun j => (seatAt_of_same (j := j) woken).trans (seatAt_onSeat ..)
  have ready := fun x => foldl_wakeWhen_ready (p := Why.onSeat i.toNat) (x := x) allSlots cleared
  have step : exec (.seatclr d i) s = ({ s with core := allSlots.foldl (Core.wakeWhen (Why.onSeat i.toNat)) cleared } : State).done d
      (fieldAt (s.core.seatAt i.toNat).count 8) 4 := by
    change execSeatclr d i s = _
    rw [execSeatclr, clearSeat_valid h]
  obtain ⟨regs, ctl, eng, _⟩ := woken
  generalize allSlots.foldl (Core.wakeWhen (Why.onSeat i.toNat)) cleared = c at *
  obtain ⟨t, done, slots, sh, rest⟩ := done_core step regs eng ctl
  have seat (j : Nat) : t.core.seatAt j = c.seatAt j := by rw [Core.seatAt, sh, Core.seatAt]
  refine ⟨t, done, ?_, ?_, fun j hj => ?_, fun x st why => ?_, rest⟩
  · rw [seat, seats, if_pos ⟨rfl, i.isLt⟩]
  · rw [seat, seats, if_pos ⟨rfl, i.isLt⟩]
  · rw [seat, seats, if_neg fun e => hj e.1]
  · rw [Core.slot, slots]
    exact ready x (.inr ⟨mem_allSlots x, st, by
      change Why.onSeat i.toNat (s.core.slot x).why = true
      rw [why]
      exact beq_self_eq_true _⟩)
end

/-! ## `JOIN` -/

section
variable {s : State} {d a : GR}
theorem mem_joinSeats {set : BitVec 64} {j : Nat} : j ∈ joinSeats set ↔ j < 64 ∧ set.getLsbD j = true := by simp [joinSeats]
/-- The rounds of the seats of a list without repetition are closed, and no other seat changes. -/
theorem seatAt_closeRounds (l : List Nat) (hl : ∀ j ∈ l, j < 64) (hn : l.Nodup) : ∀ (c : Core) (j : Nat),
    (c.closeRounds l).seatAt j = if j ∈ l then { c.seatAt j with round := (c.seatAt j).round + 1, fin := false, seq := 0 }
      else c.seatAt j := by
  induction l with
  | nil => intro c j; rfl
  | cons i l ih =>
    intro c j
    obtain ⟨hi, hn⟩ := List.nodup_cons.mp hn
    refine (ih (fun j hj => hl j (List.mem_cons_of_mem _ hj)) hn _ j).trans ?_
    have at_i := hl i List.mem_cons_self
    rw [seatAt_onSeat]
    by_cases e : j = i
    · subst e
      simp [hi, at_i]
    · simp [e]
theorem closeRounds_same (l : List Nat) : ∀ c : Core,
    (c.closeRounds l).regs = c.regs ∧ (c.closeRounds l).eng = c.eng ∧ (c.closeRounds l).ctl = c.ctl := by
  induction l with
  | nil => exact fun c => ⟨rfl, rfl, rfl⟩
  | cons i l ih => exact fun c => ih _
theorem cutAtJoin_same (c : Core) (i : SlotId) : (c.cutAtJoin i).regs = c.regs ∧ (c.cutAtJoin i).eng = c.eng ∧
    (c.cutAtJoin i).ctl = c.ctl ∧ (c.cutAtJoin i).sh = c.sh := by
  unfold Core.cutAtJoin
  dsimp only
  split <;> exact ⟨rfl, rfl, rfl, rfl⟩
theorem exec_join (h : s.gp a = false) : exec (.join d a) s =
    if (joinSeats (s.gv a)).any fun i => !(s.core.seatAt i).valid then s.done d stNoSeat 4
    else if (joinSeats (s.gv a)).all fun i => (s.core.seatAt i).fin then
      ({ s with core := (s.fenceAhead.core.closeRounds (joinSeats (s.gv a))).cutAtJoin s.core.ctl.slot } : State).done d stOk 4
    else s.blocked (.join (s.gv a)) := by
  change execJoin d a s = _
  unfold execJoin
  dsimp only
  rw [if_neg (by simp [h])]
  rfl
theorem join_unfinished (hg : s.gp a = false) (hv : ∀ j, j < 64 → (s.gv a).getLsbD j = true → (s.core.seatAt j).valid = true)
    (hf : ∃ j, j < 64 ∧ (s.gv a).getLsbD j = true ∧ (s.core.seatAt j).fin = false) :
    exec (.join d a) s = s.blocked (.join (s.gv a)) := by
  obtain ⟨j, lt, mem, fin⟩ := hf
  rw [exec_join hg, if_neg, if_neg]
  · simp only [List.all_eq_true, mem_joinSeats, not_forall]
    exact ⟨j, ⟨lt, mem⟩, by simp [fin]⟩
  · simp only [List.any_eq_true, mem_joinSeats]
    rintro ⟨j, ⟨lt, mem⟩, bad⟩
    simp [hv j lt mem] at bad
theorem join_finished (hg : s.gp a = false) (hv : ∀ j, j < 64 → (s.gv a).getLsbD j = true → (s.core.seatAt j).valid = true)
    (hf : ∀ j, j < 64 → (s.gv a).getLsbD j = true → (s.core.seatAt j).fin = true) : Completes (.join d a) s fun t =>
      (∀ j, j < 64 → (s.gv a).getLsbD j = true → t.core.seatAt j =
        { s.core.seatAt j with round := (s.core.seatAt j).round + 1, fin := false, seq := 0 }) ∧
      (∀ j, ¬ (s.gv a).getLsbD j = true → t.core.seatAt j = s.core.seatAt j) ∧ t.gv d = 0 ∧ t.gp d = false ∧ SameG s t [d] ∧
      SameV s t ∧ SameOutside s t ∧ Passes s t (s.pc + 4) := by
  obtain ⟨regs, eng, ctl⟩ := closeRounds_same (joinSeats (s.gv a)) s.fenceAhead.core
  have seats := seatAt_closeRounds (joinSeats (s.gv a)) (fun j hj => (mem_joinSeats.mp hj).1) (List.nodup_range.filter _)
    s.fenceAhead.core
  have old (j : Nat) : s.fenceAhead.core.seatAt j = s.core.seatAt j := rfl
  have step : exec (.join d a) s = ({ s with core :=
      (s.fenceAhead.core.closeRounds (joinSeats (s.gv a))).cutAtJoin s.core.ctl.slot } : State).done d stOk 4 := by
    rw [exec_join hg, if_neg, if_pos]
    · simp only [List.all_eq_true, mem_joinSeats]
      exact fun j ⟨lt, mem⟩ => hf j lt mem
    · simp only [List.any_eq_true, mem_joinSeats]
      rintro ⟨j, ⟨lt, mem⟩, bad⟩
      simp [hv j lt mem] at bad
  generalize s.fenceAhead.core.closeRounds (joinSeats (s.gv a)) = c at *
  obtain ⟨regs', eng', ctl', sh'⟩ := cutAtJoin_same c s.core.ctl.slot
  obtain ⟨t, done, _, sh, rest⟩ := done_core step (regs'.trans regs) (eng'.trans eng) (ctl'.trans ctl)
  have seat (j : Nat) : t.core.seatAt j = c.seatAt j := by rw [Core.seatAt, sh, sh', Core.seatAt]
  refine ⟨t, done, fun j lt mem => ?_, fun j mem => ?_, rest⟩
  · rw [seat, seats, if_pos (mem_joinSeats.mpr ⟨lt, mem⟩), old]
  · rw [seat, seats, if_neg fun h => mem (mem_joinSeats.mp h).2, old]
end

/-- Settles O37: a seat set, a seat cleared with its sleepers woken, and the rounds of a set. -/
theorem seatsAndRounds : Obligations.SeatsAndRounds := by
  refine ⟨fun s d a b i ha hb => ?_, fun s d i => ⟨fun h => ?_, seatclr_valid⟩,
    fun s d a ha => ⟨fun ⟨j, lt, mem, bad⟩ => ?_, fun hv => ⟨join_finished ha hv, fun hf =>
      ⟨blocked_u (join_unfinished ha hv hf), blocked_s (join_unfinished ha hv hf)⟩⟩⟩⟩
  · intro x base size cap old twin hv hhi hx hal hfit hlc
    have step := exec_seatset (d := d) (i := i) ha hb hv hhi hx hal hfit hlc
    have shared : s.core.hasTwin i.toNat (x.extractLsb' 0 12) (x.extractLsb' 12 2) = true ↔ twin := hasTwin_iff
    refine ⟨fun busy => done_writesG (step.trans (if_pos (busy.imp_right shared.mpr))), fun empty alone => ?_⟩
    obtain ⟨t, done, slots, sh, g, p, others, v, outside, passes⟩ := done_core (step.trans (if_neg (not_or.mpr ⟨empty, mt shared.mp alone⟩))) rfl rfl rfl
    have seat (j : Nat) : t.core.seatAt j = if j = i.toNat then newSeat x else s.core.seatAt j := by
      refine Eq.trans ?_ ((seatAt_onSeat s.core i.toNat j fun _ => newSeat x).trans (if_congr (and_iff_left i.isLt) rfl rfl))
      rw [Core.seatAt, sh]
      rfl
    refine ⟨t, done, ?_⟩
    dsimp only
    rw [seat i.toNat, if_pos rfl]
    exact ⟨rfl, rfl, rfl, rfl, rfl, rfl, rfl, rfl, rfl, rfl, rfl, rfl, fun j hj => (seat j).trans (if_neg hj), g, p, others, v, slots,
      outside, passes⟩
  · refine done_writesG ?_
    change execSeatclr d i s = _
    rw [execSeatclr, clearSeat_invalid h]
    rfl
  · refine done_writesG ((exec_join ha).trans (if_pos ?_))
    exact List.any_eq_true.mpr ⟨j, mem_joinSeats.mpr ⟨lt, mem⟩, by simp [bad]⟩

end Sys2Proof.Machine
end

section

/-! Causes taken at U, and core faults at S (R55, R56, R256). -/

namespace Sys2Proof.Machine

/-! ## What the end of a `SUSPEND`, closing windows and a fault of a group keep -/

section
variable (s : State)
/-- The completion of commands changes host memory and the lead cox's tables. -/
theorem completeCurrent_frame (q st : Nat) : ∃ m p l, s.completeCurrent q st = { s with mem := m, pois := p, lead := l } := by
  unfold State.completeCurrent
  split
  · exact ⟨_, _, _, rfl⟩
  · exact ⟨_, _, _, rfl⟩
theorem completeAll_frame (st : Nat) (l : List Nat) : ∀ s : State,
    ∃ m p r, l.foldl (fun s q => s.completeCurrent q st) s = { s with mem := m, pois := p, lead := r } := by
  induction l with
  | nil => exact fun s => ⟨_, _, _, rfl⟩
  | cons q l ih =>
    intro s
    obtain ⟨m, p, r, e⟩ := completeCurrent_frame s q st
    obtain ⟨m', p', r', e'⟩ := ih (s.completeCurrent q st)
    exact ⟨m', p', r', e'.trans (by rw [e])⟩
theorem endSuspend_frame (i st : Nat) : ∃ m p l, s.endSuspend i st = { s with mem := m, pois := p, lead := l } := by
  unfold State.endSuspend
  split
  · exact completeAll_frame st _ s
  · exact ⟨_, _, _, rfl⟩
  · exact ⟨_, _, _, rfl⟩
theorem closeWindowAt_frame (k : Nat) : ∃ u, s.closeWindowAt k = { s with power := { s.power with umpires := u } } := by
  unfold State.closeWindowAt
  split
  · exact ⟨_, rfl⟩
  · exact ⟨_, rfl⟩
theorem closeWindows_frame (ks : List Nat) : ∀ s : State, ∃ u, s.closeWindows ks = { s with power := { s.power with umpires := u } } := by
  induction ks with
  | nil => exact fun s => ⟨_, rfl⟩
  | cons k ks ih =>
    intro s
    obtain ⟨u, e⟩ := closeWindowAt_frame s k
    obtain ⟨u', e'⟩ := ih (s.closeWindowAt k)
    exact ⟨u', e'.trans (by rw [e])⟩
/-- A change of cores. -/
theorem onCores_frame (f : Nat → Core → Core) (ks : List Nat) : ∀ s : State, ∃ c p, s.onCores ks f = { s with core := c, peers := p } := by
  induction ks with
  | nil => exact fun s => ⟨_, _, rfl⟩
  | cons k ks ih =>
    intro s
    have one : ∃ c p, s.onCore k (f k) = { s with core := c, peers := p } := by
      unfold State.onCore State.setCore
      split
      · exact ⟨_, _, rfl⟩
      · exact ⟨_, _, rfl⟩
    obtain ⟨c, p, e⟩ := one
    obtain ⟨c', p', e'⟩ := ih (s.onCore k (f k))
    exact ⟨c', p', e'.trans (by rw [e])⟩
end

/-- What holds of a core and stays so under each of the changes holds of it after them. -/
theorem onCores_coreAt {P : Core → Prop} {f : Nat → Core → Core} {j : Nat} (hf : ∀ k c, P c → P (f k c)) (ks : List Nat) :
    ∀ s : State, P (s.coreAt j) → P ((s.onCores ks f).coreAt j) := by
  induction ks with
  | nil => exact fun s h => h
  | cons k ks ih =>
    intro s h
    refine ih _ ?_
    rw [coreAt_onCore]
    split
    · next e => exact hf k _ (e ▸ h)
    · exact h
theorem coreAt_congr {s t : State} (hc : t.core = s.core) (hp : t.peers = s.peers) (hh : t.here = s.here) (k : Nat) :
    t.coreAt k = s.coreAt k := by
  rw [State.coreAt, State.coreAt, hc, hp, hh]

/-! ## Cores that a fault stops -/

/-- A core after a fault: it issues nothing, its slots that are not FREE are TRAPPED and in no FIFO, and its registers are as
before (R56). -/
def Core.FaultsTo (c d : Core) : Prop :=
  d.ctl.issue = .stopped ∧ (∀ i, (c.slot i).st ≠ .free → (d.slot i).st = .trapped) ∧
  (∀ i, (c.slot i).st = .free → (d.slot i).st = .free) ∧ (∀ l : BitVec 2, bget d.sh.fifo l = []) ∧ d.regs = c.regs

theorem trapSlots_slot (c : Core) (i : SlotId) :
    c.trapSlots.slot i = if (c.slot i).st = .free then c.slot i else { c.slot i with st := .trapped, qd := false } := by
  simp only [Core.trapSlots, Core.slot, bget, Vector.getElem_map]
  rfl
theorem trapSlots_fifo (c : Core) (l : BitVec 2) : bget c.trapSlots.sh.fifo l = [] := by
  simp [Core.trapSlots, bget]
theorem trapSlots_st (c : Core) (i : SlotId) : (c.trapSlots.slot i).st = if (c.slot i).st = .free then .free else .trapped := by
  rw [trapSlots_slot]
  split
  · assumption
  · rfl
section
variable {c d : Core}
/-- A core whose slots are trapped and that stops. -/
theorem Core.FaultsTo.of_trapSlots (h : d.slots = c.trapSlots.slots) (hi : d.ctl.issue = .stopped) (hf : d.sh.fifo = c.trapSlots.sh.fifo)
    (hr : d.regs = c.regs) : c.FaultsTo d := by
  have st (i : SlotId) : (d.slot i).st = if (c.slot i).st = .free then .free else .trapped := by
    rw [Core.slot, h]
    exact trapSlots_st c i
  refine ⟨hi, fun i free => (st i).trans (if_neg free), fun i free => (st i).trans (if_pos free), fun l => ?_, hr⟩
  rw [hf]
  exact trapSlots_fifo c l
/-- A fault on top of another one leaves the core so. -/
theorem Core.FaultsTo.again {e : Core} (h : c.FaultsTo d) (g : d.FaultsTo e) : c.FaultsTo e := by
  obtain ⟨_, trapped, free, _, regs⟩ := h
  obtain ⟨issue, trapped', free', fifo, regs'⟩ := g
  refine ⟨issue, fun i hi => trapped' i ?_, fun i hi => free' i (free i hi), fifo, regs'.trans regs⟩
  rw [trapped i hi]
  simp
end

/-- What a fault of its group makes of a core (R273). -/
def Core.groupStops (c : Core) : Core :=
  { c.trapSlots with ctl := { c.ctl with issue := .stopped }, sh := { c.trapSlots.sh with cut := false } }
theorem groupStops_faults (c : Core) : c.FaultsTo c.groupStops := Core.FaultsTo.of_trapSlots rfl rfl rfl rfl

section
variable (s : State)
/-- The state of a group's fault: commands complete, windows close, cores stop, and the group is marked. -/
theorem faultGroup_eq {i : Nat} (h : s.alive i) : s.faultGroup i =
    ((((s.endSuspend i 8).closeWindows ((s.group i).cores.filter fun k => !(s.site (siteOf k)).triad.halted)).coxWrites
      ((s.group i).cores.filter fun k => !(s.site (siteOf k)).triad.halted) fun _ c => c.groupStops).onGroup i fun g =>
        { g with st := .faulted, faultAt := s.clock.ticks, cut := .none }).note (.groupFault (s.group i).gid) := by
  have ticks : ∀ ks, ((((s.endSuspend i 8).closeWindows ks).coxWrites ks fun _ c => c.groupStops)).clock.ticks = s.clock.ticks := by
    intro ks
    obtain ⟨m, p, l, e⟩ := endSuspend_frame s i 8
    obtain ⟨u, e'⟩ := closeWindows_frame ks (s.endSuspend i 8)
    obtain ⟨c, q, e''⟩ := onCores_frame (fun _ c => c.groupStops) ks ((s.endSuspend i 8).closeWindows ks)
    rw [State.coxWrites, (voteTiles_same _ _).1, e'', e', e]
  rw [← ticks]
  unfold State.faultGroup
  rcases h with h | h | h | h
  all_goals
    simp only [h]
    rfl
theorem faultGroup_dead {i : Nat} (h : ¬ s.alive i) : s.faultGroup i = s := by
  unfold State.alive at h
  unfold State.faultGroup
  cases e : (s.group i).st
  case running | draining | seeding | loading => simp [e] at h
  all_goals simp only [e]
/-- A core that stops under a fault of groups stays so. -/
theorem faultGroup_coreAt {P : Core → Prop} (hP : ∀ c, P c → P c.groupStops) (i k : Nat) (h : P (s.coreAt k)) :
    P ((s.faultGroup i).coreAt k) := by
  by_cases a : s.alive i
  · rw [faultGroup_eq s a]
    obtain ⟨m, p, l, e⟩ := endSuspend_frame s i 8
    obtain ⟨u, e'⟩ := closeWindows_frame ((s.group i).cores.filter fun k => !(s.site (siteOf k)).triad.halted) (s.endSuspend i 8)
    have kept : P (((s.endSuspend i 8).closeWindows ((s.group i).cores.filter fun k => !(s.site (siteOf k)).triad.halted)).coreAt k) := by
      rw [e', e]
      exact h
    have stops := onCores_coreAt (f := fun _ c => c.groupStops) (fun _ => hP)
      ((s.group i).cores.filter fun k => !(s.site (siteOf k)).triad.halted) _ kept
    refine (congrArg P ?_).mp stops
    rw [State.coxWrites]
    generalize State.onCores _ _ _ = v
    have frame := (voteTiles_same (sitesOf ((s.group i).cores.filter fun k => !(s.site (siteOf k)).triad.halted)) v).1
    rw [frame]
    rfl
  · rwa [faultGroup_dead s a]
theorem faultGroup_here (i : Nat) : (s.faultGroup i).here = s.here := (faultGroup_groupsFault i).regs.1
theorem faultGroup_log (i : Nat) : ∃ l, (s.faultGroup i).boat.log = s.boat.log ++ l := by
  by_cases a : s.alive i
  · rw [faultGroup_eq s a]
    obtain ⟨m, p, l, e⟩ := endSuspend_frame s i 8
    obtain ⟨u, e'⟩ := closeWindows_frame ((s.group i).cores.filter fun k => !(s.site (siteOf k)).triad.halted) (s.endSuspend i 8)
    obtain ⟨c, q, e''⟩ := onCores_frame (fun _ c => c.groupStops) ((s.group i).cores.filter fun k => !(s.site (siteOf k)).triad.halted)
      ((s.endSuspend i 8).closeWindows ((s.group i).cores.filter fun k => !(s.site (siteOf k)).triad.halted))
    refine ⟨[.groupFault (s.group i).gid], ?_⟩
    rw [State.coxWrites, (voteTiles_same _ _).1, e'', e', e]
    rfl
  · exact ⟨[], by rw [faultGroup_dead s a, List.append_nil]⟩
/-- The state of a core fault before the core's group faults: the core's slots are trapped and the log has the cause. -/
theorem coreFault_state (c : Cause) (v : BitVec 64) :
    ∃ t : State, t.boat.log = s.boat.log ++ [.coreFault s.here c.num v] ∧
      t.core = { s.core.trapSlots with ctl := { s.core.ctl with issue := .stopped } } ∧ t.here = s.here ∧ t.lead = s.lead ∧
      (s.groupOf s.core.ctl.gid = none → s.coreFault c v = t) ∧
      (∀ i, s.groupOf s.core.ctl.gid = some i → s.coreFault c v = t.faultGroup i) := by
  obtain ⟨u, e⟩ := closeWindow_frame s
  unfold State.coreFault
  rw [e]
  refine ⟨{ s with power := { s.power with umpires := u }, core := { s.core.trapSlots with ctl := { s.core.ctl with issue := .stopped } },
                   boat := { s.boat with log := s.boat.log ++ [.coreFault s.here c.num v] } }, rfl, rfl, rfl, rfl, fun alone => ?_, fun i grouped => ?_⟩
  · dsimp only
    split
    · next h => exact nomatch alone.symm.trans h
    · rfl
  · dsimp only
    split
    · next h =>
      cases grouped.symm.trans h
      rfl
    · next h => exact nomatch grouped.symm.trans h
/-- A core fault: the core stops, the log has the cause, and a RUNNING group of the core is FAULTED (R56). -/
theorem coreFault_stops (c : Cause) (v : BitVec 64) :
    s.core.FaultsTo (s.coreFault c v).core ∧ LogEntry.coreFault s.here c.num v ∈ (s.coreFault c v).boat.log ∧
    ∀ g, s.groupOf s.core.ctl.gid = some g → (s.group g).st = .running → ((s.coreFault c v).group g).st = .faulted := by
  obtain ⟨t, log, core, here, lead, nogroup, group⟩ := coreFault_state s c v
  have faults : s.core.FaultsTo t.core := by
    rw [core]
    exact Core.FaultsTo.of_trapSlots rfl rfl rfl rfl
  cases g : s.groupOf s.core.ctl.gid with
  | none =>
    rw [nogroup g]
    exact ⟨faults, by simp [log], fun _ h => nomatch h⟩
  | some i =>
    rw [group i g]
    have stays := faultGroup_coreAt t (P := s.core.FaultsTo) (fun d h => Core.FaultsTo.again h (groupStops_faults d)) i t.here (by rwa [coreAt_here])
    have at_here : (t.faultGroup i).coreAt t.here = (t.faultGroup i).core := by rw [← faultGroup_here t i, coreAt_here]
    obtain ⟨l, more⟩ := faultGroup_log t i
    refine ⟨at_here ▸ stays, by simp [more, log], fun j hj running => ?_⟩
    cases hj
    have alive : t.alive i := .inl (by rwa [State.group, lead])
    exact (faultGroup_stops alive).2
end

/-- Settles O23: causes at U, and the core fault at S. -/
theorem trapsAndCoreFaults : Obligations.TrapsAndCoreFaults := by
  refine ⟨fun s hu => ⟨fun i => ⟨_, rfl, takeTrap_u s _ _ _ hu⟩, fun p => ⟨_, rfl, takeTrap_u s _ _ _ hu⟩, fun hp => ⟨_, rfl, ?_⟩⟩,
    fun s p hs => ⟨_, rfl, ?_⟩⟩
  · rw [if_pos hp]
    exact takeTrap_u s _ _ _ hu
  · rw [takeTrap_s s _ _ _ hs]
    obtain ⟨⟨issue, trapped, free, fifo, regs⟩, log, group⟩ := coreFault_stops s .illegal (p.setWidth 64)
    exact ⟨issue, trapped, free, fifo, log, regs, group⟩

end Sys2Proof.Machine
end

section

/-! Timers, and the entry into S that a pending cause makes (R49, R55, R80 to R82). -/

namespace Sys2Proof.Machine

/-! ## Which timer expires (R82) -/

section
variable (c : Core) (now : BitVec 64) (i j : SlotId)
theorem timerBefore_iff : c.timerBefore now i j = true ↔ ((c.slot i).tcmp ≠ 0 ∧ (c.slot i).tcmp.toNat ≤ now.toNat) ∧
    ((c.slot j).tcmp = 0 ∨ (c.slot i).tcmp.toNat < (c.slot j).tcmp.toNat ∨ (c.slot i).tcmp = (c.slot j).tcmp ∧ i.toNat ≤ j.toNat) := by
  simp [Core.timerBefore, BitVec.le_def, BitVec.lt_def, or_assoc]
variable {c now i j} in
theorem timerBefore_antisymm (h : c.timerBefore now i j = true) (g : c.timerBefore now j i = true) : i = j := by
  obtain ⟨⟨hi, _⟩, hij⟩ := (timerBefore_iff c now i j).mp h
  obtain ⟨⟨hj, _⟩, hji⟩ := (timerBefore_iff c now j i).mp g
  have eq : (c.slot i).tcmp = (c.slot j).tcmp → (c.slot i).tcmp.toNat = (c.slot j).tcmp.toNat := congrArg BitVec.toNat
  have le : i.toNat ≤ j.toNat ∧ j.toNat ≤ i.toNat := by
    rcases hij.resolve_left hj with hlt | ⟨e, hle⟩ <;> rcases hji.resolve_left hi with hlt' | ⟨e', hle'⟩
    · omega
    · exact absurd (congrArg BitVec.toNat e') (by omega)
    · exact absurd (congrArg BitVec.toNat e) (by omega)
    · exact ⟨hle, hle'⟩
  exact BitVec.eq_of_toNat_eq (Nat.le_antisymm le.1 le.2)
/-- The timer that expires is the one that goes before every other. -/
theorem firstTimer_eq_some : c.firstTimer now = some i ↔ ∀ j, c.timerBefore now i j = true := by
  have all (k : SlotId) : (allSlots.all fun j => c.timerBefore now k j) = true ↔ ∀ j, c.timerBefore now k j = true := by
    simp [mem_allSlots]
  unfold Core.firstTimer
  refine ⟨fun h => (all i).mp (List.find?_some (p := fun k => allSlots.all fun j => c.timerBefore now k j) h), fun h => ?_⟩
  have found : (allSlots.find? fun i => allSlots.all fun j => c.timerBefore now i j).isSome :=
    List.find?_isSome.mpr ⟨i, mem_allSlots i, (all i).mpr h⟩
  obtain ⟨k, hk⟩ := Option.isSome_iff_exists.mp found
  have before := (all k).mp (List.find?_some (p := fun k => allSlots.all fun j => c.timerBefore now k j) hk)
  rw [hk, timerBefore_antisymm (h k) (before i)]
end

/-! ## What an expiry does -/

section
variable (c : Core) (i : SlotId)
/-- The expiry clears the timer and lets the registers and the control state stand. -/
theorem expire_same : c.SameBut (c.expire i) := by
  unfold Core.expire
  dsimp only
  split
  · exact (Core.onSlot_same c i _).trans (Core.wake_same _ i _)
  · exact (Core.onSlot_same c i _).trans (Core.raise_same _ i _ _)
theorem wake_tcmp (w : BitVec 3) : ((c.wake i w).slot i).tcmp = (c.slot i).tcmp := by
  refine (enqueue_slot_field _ i i Slot.tcmp (fun _ _ => rfl) fun _ _ _ => rfl).trans ?_
  rw [slot_onSlot, if_pos rfl]
theorem raise_tcmp (b : BitVec 3) (v : BitVec 64) : ((c.raise i b v).slot i).tcmp = (c.slot i).tcmp := by
  have pended : ((c.onSlot i fun t => t.pendOn b v).slot i).tcmp = (c.slot i).tcmp := by
    rw [slot_onSlot, if_pos rfl]
    rfl
  unfold Core.raise
  cases (c.slot i).st with
  | sleep => exact (wake_tcmp ..).trans pended
  | ready | running => exact pended
  | retired | trapped =>
    dsimp only
    split
    · exact pended
    · rfl
  | free => rfl
theorem expire_tcmp : ((c.expire i).slot i).tcmp = 0 := by
  have cleared : ((c.onSlot i fun t => { t with tcmp := 0 }).slot i).tcmp = 0 := by rw [slot_onSlot, if_pos rfl]
  unfold Core.expire
  dsimp only
  split
  · rw [wake_tcmp, cleared]
  · rw [raise_tcmp, cleared]
variable {c i}
theorem expire_running (h : (c.slot i).st = .running) :
    (c.expire i).slot i = Slot.pendOn { c.slot i with tcmp := 0 } 0 (c.slot i).tcmp := by
  have st : ((c.onSlot i fun t => { t with tcmp := 0 }).slot i).st = .running := by rw [slot_onSlot, if_pos rfl, h]
  simp only [Core.expire, h, Core.raise, st]
  rw [slot_onSlot, if_pos rfl, slot_onSlot, if_pos rfl, h]
/-- A `SLEEP` wakes with the status of its timer. -/
theorem expire_asleep (h : (c.slot i).st = .sleep) (hw : (c.slot i).why = .sleep) :
    (c.expire i).slot i = { c.slot i with tcmp := 0, st := .ready, why := .none, wstat := (c.slot i).expiryStatus, qd := true } := by
  have awake (d : Core) (w : BitVec 3) (hd : (d.slot i).why = .sleep) :
      (d.wake i w).slot i = { d.slot i with st := .ready, why := .none, wstat := w, qd := true } := by
    have ready : (d.onSlot i fun t => { t with st := .ready, wstat := if t.why = .sleep then w else t.wstat, why := .none }).slot i =
        { d.slot i with st := .ready, why := .none, wstat := w } := by
      rw [slot_onSlot, if_pos rfl, hd, if_pos rfl]
    refine (enqueue_slot fun _ => BitVec.lt_irrefl _).trans ?_
    rw [toTail_slot, if_pos rfl, ready]
  have timer : (c.onSlot i fun t => { t with tcmp := 0 }).slot i = { c.slot i with tcmp := 0 } := by rw [slot_onSlot, if_pos rfl]
  simp only [Core.expire, h, hw]
  rw [awake _ _ (by rw [timer, hw]), timer]
end
theorem pendOn_timer {t : Slot} (v : BitVec 64) (h : t.pend.getLsbD 0 = false) :
    (t.pendOn 0 v).pend = t.pend ||| 1 ∧ (t.pendOn 0 v).pendVal[0] = v := by
  refine ⟨rfl, ?_⟩
  have quiet : t.pend[0] = false := h
  simp [Slot.pendOn, quiet]

/-! ## Taking a pending cause (R55) -/

theorem topBit_eq_none (p : BitVec 6) : topBit p = none ↔ p = 0 := by
  revert p
  decide
theorem topBit_site (p : BitVec 6) (h : p.getLsbD 5 = true) : topBit p = some 5 := if_pos h
theorem topBit_deadlock (p : BitVec 6) (h : p.getLsbD 5 = false) (h' : p.getLsbD 4 = true) : topBit p = some 4 := by
  rw [topBit, h, h']
  rfl
/-- The causes PEND holds are asynchronous ones. -/
theorem ofBit_isAsync {p : BitVec 6} {b : BitVec 3} (h : topBit p = some b) : (Cause.ofBit b.toNat).isAsync = true := by
  revert h
  revert b p
  decide

theorem takesAsync_iff (k : Ctl) : k.takesAsync = true ↔ k.priv = .u ∧ k.riga = false ∧ (k.issue = .run ∨ k.issue = .wait) := by
  unfold Ctl.takesAsync
  cases k.issue <;> simp

/-- The slot after its cause is taken. -/
def Slot.takeCause (t : Slot) (b : BitVec 3) : Slot :=
  { t.pendOff b with parked := t.parked || (b == 1 && t.cutPend), cutPend := t.cutPend && b != 1 }

section
variable {s : State}
theorem takePending_idle (h : s.core.ctl.takesAsync = false ∨ s.slot.pend = 0) : s.takePending = s := by
  unfold State.takePending
  split
  · next b hb =>
    rcases h with h | h
    · rw [if_neg (by simp [h])]
    · exact nomatch ((topBit_eq_none _).mpr h).symm.trans hb
  · rfl
/-- The highest pending cause is taken: the trap registers have it, its bit of PEND clears, and nothing else of the core changes. -/
theorem takePending_taken {b : BitVec 3} (h : s.core.ctl.takesAsync = true) (hb : topBit s.slot.pend = some b) :
    TrapTaken { s with core := s.core.onSlot s.core.ctl.slot fun t => t.takeCause b } s.takePending (Cause.ofBit b.toNat)
      (s.slot.pendVal[b.toNat]?.getD 0) s.pc := by
  obtain ⟨hu, _, _⟩ := (takesAsync_iff _).mp h
  unfold State.takePending
  rw [hb]
  dsimp only
  rw [if_pos h]
  exact takeTrap_u _ _ _ _ hu
end

/-- Settles O24: timers, and the entry of a pending cause. -/
theorem timersAndAsynchronousEntry : Obligations.TimersAndAsynchronousEntry := by
  refine ⟨fun s b hu hr hi hb => ⟨_, rfl, ?_⟩, fun s h => ⟨_, rfl, takePending_idle ?_⟩,
    fun p => ⟨topBit_site p, topBit_deadlock p, topBit_eq_none p⟩, fun s i timed due first => ⟨_, rfl, ?_⟩, fun s i h => ⟨_, rfl, ?_⟩⟩
  · obtain ⟨ctl, regs, slots, _, _, frame⟩ := takePending_taken ((takesAsync_iff _).mpr ⟨hu, hr, hi⟩) hb
    have slot : s.takePending.slot = s.slot.takeCause b := by
      rw [State.slot, Core.slot, ctl, slots]
      exact (slot_onSlot s.core _ _ _).trans (if_pos rfl)
    rw [slot, ctl, regs]
    exact ⟨rfl, ofBit_isAsync hb, rfl, rfl, rfl, rfl, rfl, rfl, by rw [frame]⟩
  · rcases h with h | h | h
    · exact .inl (by simp [Ctl.takesAsync, h])
    · exact .inl (by simp [Ctl.takesAsync, h])
    · exact .inr h
  · have expires : s.core.firstTimer s.rclk = some i := by
      refine (firstTimer_eq_some ..).mpr fun j => (timerBefore_iff ..).mpr ⟨⟨timed, due⟩, ?_⟩
      by_cases e : j = i
      · exact .inr (.inr ⟨by rw [e], by rw [e]⟩)
      · by_cases z : (s.core.slot j).tcmp = 0
        · exact .inl z
        · exact .inr ((first j e z).imp_right fun ⟨same, lower⟩ => ⟨same, Nat.le_of_lt lower⟩)
    rw [if_pos expires]
    obtain ⟨regs, ctl, _, _⟩ := expire_same s.core i
    refine ⟨expire_tcmp s.core i, fun running quiet => ?_, fun asleep why full => ?_, regs, ctl, rfl⟩
    · dsimp only
      rw [expire_running running]
      exact pendOn_timer _ quiet
    · dsimp only
      rw [expire_asleep asleep why]
      exact ⟨rfl, by simp [Slot.expiryStatus, full], rfl⟩
  · refine if_neg fun expires => ?_
    have before := (firstTimer_eq_some ..).mp expires
    obtain ⟨⟨timed, due⟩, _⟩ := (timerBefore_iff ..).mp (before i)
    rcases h with h | h | ⟨j, hj, h⟩
    · exact timed h
    · omega
    · obtain ⟨_, earlier⟩ := (timerBefore_iff ..).mp (before j)
      rcases h with h | ⟨e, h⟩ <;> rcases earlier.resolve_left hj with g | ⟨e', g⟩
      · omega
      · rw [e'] at h; omega
      · rw [e] at g; omega
      · omega

end Sys2Proof.Machine
end

section

/-! The return from an exception (R55 to R57, R66, R81). -/

namespace Sys2Proof.Machine

/-! ## The slot that is set aside (R57, R280) -/

section
variable (s : State) (i : SlotId)
/-- A paddle slot that must not go on becomes FREE and its tags are released; nothing else changes. -/
theorem settlePaddle_frame : ∃ c g, s.settlePaddle i = { s with core := c, tags := g } ∧ s.core.SameBut c ∧
    (∀ j, j ≠ i → c.slot j = s.core.slot j) ∧ (s.keepsPaddle i → g = s.tags) := by
  unfold State.settlePaddle
  dsimp only
  split
  · next h =>
    obtain ⟨_, paddle, ends⟩ := h
    refine ⟨_, _, rfl, (Core.unqueue_same _ i).trans (Core.onSlot_same _ i _), fun j hj => ?_, fun keeps => ?_⟩
    · rw [slot_onSlot, if_neg hj, unqueue_slot, if_neg hj]
    · obtain ⟨on, cut, doomed⟩ := keeps paddle
      simp [on, cut, doomed] at ends
  · exact ⟨_, _, rfl, Core.SameBut.refl _, fun _ _ => rfl, fun _ => rfl⟩
/-- Only another slot that runs is set aside. -/
theorem setAside_frame : ∃ c g, s.setAside i = { s with core := c, tags := g } ∧ s.core.SameBut c ∧
    (∀ j, j = i ∨ s.core.running ≠ some j → c.slot j = s.core.slot j) ∧
    ((∀ r, s.core.running = some r → r = i ∨ s.keepsPaddle r) → g = s.tags) := by
  unfold State.setAside
  split
  · next r hr =>
    split
    · exact ⟨_, _, rfl, Core.SameBut.refl _, fun _ _ => rfl, fun _ => rfl⟩
    · next hi =>
      obtain ⟨c, g, e, same, slots, tags⟩ :=
        settlePaddle_frame { s with core := s.core.onSlot r fun t => { t with st := .ready, qd := false } } r
      have slot : (s.core.onSlot r fun t => { t with st := .ready, qd := false }).slot r =
          { s.core.slot r with st := .ready, qd := false } := by rw [slot_onSlot, if_pos rfl]
      refine ⟨c, g, e, (Core.onSlot_same _ r _).trans same, fun j hj => ?_, fun keeps => tags fun paddle => ?_⟩
      · have other : j ≠ r := by
          rintro rfl
          exact hj.elim (fun e => hi e) fun h => h hr
        rw [slots j other]
        exact (slot_onSlot ..).trans (if_neg other)
      · rw [slot] at paddle ⊢
        exact (keeps r hr).resolve_left hi paddle
  · exact ⟨_, _, rfl, Core.SameBut.refl _, fun _ _ => rfl, fun _ => rfl⟩

/-! ## What is delivered to the slot that runs (R81) -/

/-- The wake status goes to its register, and only there. -/
theorem deliverWake_frame : ∃ c, s.deliverWake i = { s with core := c } ∧ (c.ctl = s.core.ctl ∧ c.eng = s.core.eng ∧
      c.sh.fifo = s.core.sh.fifo ∧ c.regs = { s.core.regs with g := c.regs.g }) ∧
    (∀ r, (s.core.slot i).wstat = 0 ∨ r ≠ (s.core.slot i).wreg → bget c.regs.g r = bget s.core.regs.g r) ∧
    ((s.core.slot i).wstat ≠ 0 → bget c.regs.g (s.core.slot i).wreg = ⟨(s.core.slot i).wstat.setWidth 64, false⟩) ∧
    (∀ j, c.slot j = if j = i then { s.core.slot i with wstat := 0 } else s.core.slot j) := by
  have cleared (j : SlotId) : (s.core.onSlot i fun t => { t with wstat := 0 }).slot j =
      if j = i then { s.core.slot i with wstat := 0 } else s.core.slot j := slot_onSlot ..
  unfold State.deliverWake
  dsimp only
  split
  · next h =>
    refine ⟨s.core, rfl, ⟨rfl, rfl, rfl, rfl⟩, fun _ _ => rfl, fun n => absurd h n, fun j => ?_⟩
    split
    · next e => rw [e, ← h]
    · rfl
  · next h =>
    have other (r : GR) (hr : (s.core.slot i).wstat = 0 ∨ r ≠ (s.core.slot i).wreg) :
        bget (bset s.core.regs.g (s.core.slot i).wreg ⟨(s.core.slot i).wstat.setWidth 64, false⟩) r = bget s.core.regs.g r :=
      (bget_bset ..).trans (if_neg (hr.resolve_left h))
    split
    · exact ⟨_, rfl, ⟨rfl, rfl, rfl, rfl⟩, other, fun _ => bget_bset_self .., cleared⟩
    · exact ⟨_, rfl, ⟨rfl, rfl, rfl, rfl⟩, other, fun _ => bget_bset_self .., cleared⟩
theorem openWindow_frame : ∃ p, s.openWindow = { s with power := p } := by
  unfold State.openWindow
  dsimp only
  split
  · exact ⟨_, rfl⟩
  · exact ⟨_, rfl⟩
/-- The flags are delivered and the core is at U at `TPC`. -/
theorem entersU_frame : ∃ c p, ((s.deliverFlags i).leaveS.openWindow).count 2 = { s with core := c, power := p } ∧
    c.ctl = { s.core.ctl with priv := .u, pc := s.core.ctl.tpc, issue := .run, pmc := c.ctl.pmc } ∧
    c.regs = { s.core.regs with fpcr := s.core.regs.fpcr ||| ((s.core.slot i).flagp.setWidth 14 <<< 8) } ∧
    (c.eng = s.core.eng ∧ c.sh = s.core.sh) ∧
    (∀ j, c.slot j = if j = i then { s.core.slot i with flagp := 0 } else s.core.slot j) := by
  have cleared (j : SlotId) : (s.core.onSlot i fun t => { t with flagp := 0 }).slot j =
      if j = i then { s.core.slot i with flagp := 0 } else s.core.slot j := slot_onSlot ..
  obtain ⟨p, e⟩ := openWindow_frame (s.deliverFlags i).leaveS
  rw [e]
  exact ⟨_, p, rfl, rfl, rfl, ⟨rfl, rfl⟩, cleared⟩
end

/-! ## The slot that enters U -/

/-- A slot runs after the return: what was delivered to it, and what else may have changed. -/
def State.Entered (s t : State) : Prop :=
  let i := s.core.ctl.slot
  t.slot.st = .running ∧ t.core.ctl.slot = i ∧ t.fpcr = s.fpcr ||| (s.slot.flagp.setWidth 14 <<< 8) ∧ t.slot.flagp = 0 ∧
  (s.slot.st = .ready → (∀ l : BitVec 2, ¬ i ∈ bget t.core.sh.fifo l) ∧
    (s.slot.wstat ≠ 0 → t.gv s.slot.wreg = s.slot.wstat.setWidth 64 ∧ t.gp s.slot.wreg = false)) ∧
  SameG s t (if s.slot.st = .ready ∧ s.slot.wstat ≠ 0 then [s.slot.wreg] else []) ∧ SameV s t ∧
  (∀ j, j ≠ i → s.core.running ≠ some j → t.core.slot j = s.core.slot j) ∧ t.mem = s.mem ∧ t.pois = s.pois ∧
  ((∀ r, s.core.running = some r → r = i ∨ s.keepsPaddle r) → SameMemory s t)

/-- The core at U at `TPC` with its slot running, before a pending cause is taken. -/
def State.AtU (s t : State) : Prop :=
  t.core.ctl = { s.core.ctl with priv := .u, pc := s.core.ctl.tpc, issue := .run, pmc := t.core.ctl.pmc } ∧
  t.slot.pend = s.slot.pend ∧ t.slot.pendVal = s.slot.pendVal ∧ s.Entered t

section
variable {s : State}
/-- A RUNNING slot returns: its flags are delivered. -/
theorem sret_running (h : s.slot.st = .running) : ∃ t, s.sret = t.takePending ∧ s.AtU t := by
  obtain ⟨c, p, e, ctl, regs, ⟨eng, sh⟩, slots⟩ :=
    entersU_frame { s with core := s.core.onSlot s.core.ctl.slot fun t => { t with parked := false } } s.core.ctl.slot
  have aside (j : SlotId) : (s.core.onSlot s.core.ctl.slot fun t => { t with parked := false }).slot j =
      if j = s.core.ctl.slot then { s.slot with parked := false } else s.core.slot j := slot_onSlot ..
  dsimp only at ctl regs slots
  have own : c.ctl.slot = s.core.ctl.slot := by
    rw [ctl]
    rfl
  have here : c.slot c.ctl.slot = { s.slot with parked := false, flagp := 0 } := by
    rw [own, slots, if_pos rfl, aside, if_pos rfl]
  have pend : (c.slot c.ctl.slot).pend = s.slot.pend := by rw [here]
  have vals : (c.slot c.ctl.slot).pendVal = s.slot.pendVal := by rw [here]
  have st : (s.core.slot s.core.ctl.slot).st = .running := h
  have flags : c.regs.fpcr = s.fpcr ||| (s.slot.flagp.setWidth 14 <<< 8) := by
    rw [regs, aside, if_pos rfl]
    rfl
  have g : c.regs.g = s.core.regs.g := by rw [regs]; rfl
  refine ⟨{ s with core := c, power := p }, ?_, ctl, ?_, ?_, ?_⟩
  · unfold State.sret
    dsimp only
    rw [st, e]
  · exact pend
  · exact vals
  · refine ⟨?_, own, flags, congrArg Slot.flagp here, fun ready => ?_, fun r _ => ?_, ?_,
      fun j hj _ => ?_, rfl, rfl, fun _ _ => ⟨rfl, rfl, rfl⟩⟩
    · exact (congrArg Slot.st here).trans h
    · exact nomatch ready.symm.trans h
    · exact ⟨congrArg (fun g => (bget g r).v) g, congrArg (fun g => (bget g r).p) g⟩
    · exact ⟨by rw [regs]; rfl, by rw [regs]; rfl, eng⟩
    · rw [slots j, if_neg hj, aside, if_neg hj]
/-- A READY slot returns: another that runs is set aside, it leaves its FIFO, and its wake status and flags are delivered. -/
theorem sret_ready (h : s.slot.st = .ready) : ∃ t, s.sret = t.takePending ∧ s.AtU t := by
  obtain ⟨c, tags, e, ⟨regs, ctl, eng, _⟩, slots, kept⟩ := setAside_frame s s.core.ctl.slot
  have own : c.slot s.core.ctl.slot = s.slot := slots _ (.inl rfl)
  have runs (j : SlotId) : ((c.unqueue s.core.ctl.slot).onSlot s.core.ctl.slot fun t => { t with st := .running, parked := false }).slot j =
      if j = s.core.ctl.slot then { s.slot with st := .running, parked := false, qd := false } else c.slot j := by
    rw [slot_onSlot, unqueue_slot, if_pos rfl, own, unqueue_slot]
    split
    · rfl
    · rfl
  have running : ((c.unqueue s.core.ctl.slot).onSlot s.core.ctl.slot fun t => { t with st := .running, parked := false }).slot
      s.core.ctl.slot = { s.slot with st := .running, parked := false, qd := false } := (runs _).trans (if_pos rfl)
  obtain ⟨d, e', ⟨ctl', eng', fifo', regs'⟩, other, status, slots'⟩ := deliverWake_frame
    { s with core := (c.unqueue s.core.ctl.slot).onSlot s.core.ctl.slot fun t => { t with st := .running, parked := false }, tags := tags }
    s.core.ctl.slot
  simp only [running] at other status slots'
  obtain ⟨f, p, e'', ctl'', regs'', ⟨eng'', sh''⟩, slots''⟩ := entersU_frame { s with core := d, tags := tags } s.core.ctl.slot
  have delivered : d.slot s.core.ctl.slot = { s.slot with st := .running, parked := false, qd := false, wstat := 0 } :=
    (slots' _).trans (if_pos rfl)
  have ctls : f.ctl = { s.core.ctl with priv := .u, pc := s.core.ctl.tpc, issue := .run, pmc := f.ctl.pmc } := by
    rw [ctl'', ctl']
    exact congrArg (fun k : Ctl => { k with priv := .u, pc := k.tpc, issue := .run, pmc := f.ctl.pmc }) ctl
  dsimp only at regs'' slots''
  have own' : f.ctl.slot = s.core.ctl.slot := by rw [ctls]
  have here : f.slot f.ctl.slot = { s.slot with st := .running, parked := false, qd := false, wstat := 0, flagp := 0 } := by
    rw [own', slots'', if_pos rfl, delivered]
  have g : f.regs.g = d.regs.g := by rw [regs'']
  have dregs : d.regs = { s.core.regs with g := d.regs.g } := by
    rw [regs', ← regs]
    rfl
  have flags : f.regs.fpcr = s.fpcr ||| (s.slot.flagp.setWidth 14 <<< 8) := by
    rw [regs'', delivered, dregs]
    rfl
  have pend : (f.slot f.ctl.slot).pend = s.slot.pend := by rw [here]
  have vals : (f.slot f.ctl.slot).pendVal = s.slot.pendVal := by rw [here]
  have st : (s.core.slot s.core.ctl.slot).st = .ready := h
  refine ⟨{ s with core := f, power := p, tags := tags }, ?_, ctls, pend, vals, ?_⟩
  · unfold State.sret
    dsimp only
    rw [st, e, e', e'']
  · refine ⟨congrArg Slot.st here, own', flags, congrArg Slot.flagp here, fun _ => ⟨fun l => ?_, fun w => ?_⟩, fun r hr => ?_, ?_,
      fun j hj running => ?_, rfl, rfl, fun keeps => ?_⟩
    · rw [sh'', fifo']
      change ¬ s.core.ctl.slot ∈ bget (c.unqueue s.core.ctl.slot).sh.fifo l
      simp
    · have value : bget f.regs.g s.slot.wreg = ⟨s.slot.wstat.setWidth 64, false⟩ := g ▸ status w
      exact ⟨congrArg GReg.v value, congrArg GReg.p value⟩
    · have value : bget f.regs.g r = bget s.core.regs.g r := by
        rw [g, ← regs]
        refine other r ?_
        by_cases w : s.slot.wstat = 0
        · exact .inl w
        · rw [if_pos ⟨h, w⟩] at hr
          exact .inr (by simpa using hr)
      exact ⟨congrArg _ value, congrArg _ value⟩
    · refine ⟨?_, ?_, (eng''.trans eng').trans eng⟩
      · rw [regs'', dregs]
      · rw [regs'', dregs]
    · rw [slots'', if_neg hj]
      exact (slots' j).trans ((if_neg hj).trans ((runs j).trans ((if_neg hj).trans (slots j (.inr running)))))
    · rw [kept keeps]
      exact fun _ => ⟨rfl, rfl, rfl⟩
theorem sret_returns (h : s.slot.st = .ready ∨ s.slot.st = .running) : ∃ t, s.sret = t.takePending ∧ s.AtU t :=
  h.elim sret_ready sret_running
theorem exec_sret_s (h : s.core.ctl.priv = .s) : exec .sret s = .next s.sret := by
  rw [show exec .sret s = execSret s from rfl, execSret, h]
/-- What was delivered stays when the pending cause is taken. -/
theorem Entered.taken {t u : State} {b : BitVec 3} {c : Cause} {v : BitVec 64} {pc : BitVec 16} (h : s.Entered t)
    (taken : TrapTaken { t with core := t.core.onSlot t.core.ctl.slot fun x => x.takeCause b } u c v pc) :
    s.Entered u ∧ u.slot = t.slot.takeCause b := by
  obtain ⟨ctl, regs, slots, eng, sh, frame⟩ := taken
  have slot : u.slot = t.slot.takeCause b := by
    rw [State.slot, Core.slot, ctl, slots]
    exact (slot_onSlot t.core _ _ _).trans (if_pos rfl)
  obtain ⟨st, own, fpcr, flagp, ready, g, ⟨vr, mr, en⟩, others, mem, pois, kept⟩ := h
  have regs : u.core.regs = t.core.regs := regs
  have gv (r : GR) : u.gv r = t.gv r := by rw [State.gv, regs, State.gv]
  have gp (r : GR) : u.gp r = t.gp r := by rw [State.gp, regs, State.gp]
  refine ⟨⟨by rw [slot]; exact st, by rw [ctl]; exact own, by rw [State.fpcr, regs]; exact fpcr, by rw [slot]; exact flagp,
    fun hr => ⟨fun l => ?_, fun w => ?_⟩, fun r hr => ?_, ⟨by rw [regs, vr], by rw [regs, mr], eng.trans en⟩, fun j hj hr => ?_,
    by rw [frame]; exact mem, by rw [frame]; exact pois, fun keeps => ?_⟩, slot⟩
  · rw [sh]
    exact (ready hr).1 l
  · rw [gv, gp]
    exact (ready hr).2 w
  · rw [gv, gp]
    exact g r hr
  · rw [Core.slot, slots]
    refine (slot_onSlot t.core _ j _).trans ((if_neg ?_).trans (others j hj hr))
    rwa [own]
  · rw [frame]
    exact kept keeps
end

/-- Settles O26: `SRET`, and a pending cause taken by it. -/
theorem schedulerReturn : Obligations.SchedulerReturn := by
  refine fun s hs => ⟨fun st quiet => ⟨_, exec_sret_s hs, ?_⟩, fun b st idle hb => ⟨_, exec_sret_s hs, ?_⟩, fun st => ⟨_, exec_sret_s hs, ?_⟩⟩
  · obtain ⟨t, e, ctl, pend, _, entered⟩ := sret_returns st
    rw [e, takePending_idle (.inr (pend.trans quiet))]
    exact ⟨by rw [ctl], by rw [State.pc, ctl], by rw [ctl], pend.trans quiet, entered⟩
  · obtain ⟨t, e, ctl, pend, vals, entered⟩ := sret_returns st
    have takes : t.core.ctl.takesAsync = true := (takesAsync_iff _).mpr (by rw [ctl]; exact ⟨rfl, idle, .inl rfl⟩)
    have taken := takePending_taken takes (pend ▸ hb)
    obtain ⟨entered, slot⟩ := Entered.taken entered taken
    obtain ⟨trap, _⟩ := taken
    rw [e]
    refine ⟨by rw [trap], by rw [trap]; exact ofBit_isAsync hb, by rw [trap], by rw [trap, vals], by rw [trap, State.pc, ctl], ?_, ?_, entered⟩
    · have vector : t.core.ctl.kvec = s.core.ctl.kvec := by rw [ctl]
      rw [State.pc, trap, ← vector]
      rfl
    · rw [slot, ← pend]
      rfl
  · have fault : s.sret = s.coreFault .illegal s.parcel := by
      unfold State.sret
      rcases st with st | st | st | st
      all_goals
        have own : (s.core.slot s.core.ctl.slot).st = _ := st
        rw [← takeTrap_s s _ _ s.pc hs]
        simp only [own]
    rw [fault]
    obtain ⟨⟨issue, trapped, free, fifo, regs⟩, log, group⟩ := coreFault_stops s .illegal s.parcel
    exact ⟨issue, trapped, free, fifo, log, regs, group⟩

end Sys2Proof.Machine
end

section

/-! What every entry of a rig keeps: the privilege, and LAST of `RIGS` (R86, R219). -/

namespace Sys2Proof.Machine

/-! ## Cores -/

/-- A core in a rig: its privilege and its LAST. -/
def Core.InRig (c : Core) (k : Priv × BitVec 5) : Prop := c.ctl.priv = k.1 ∧ c.regs.rigs.last = k.2
/-- The selected core in a rig. -/
def State.InRig (s : State) (k : Priv × BitVec 5) : Prop := s.core.InRig k
/-- A body's state, if it gives one, is in the rig. -/
def Res.InRig (r : Res) (k : Priv × BitVec 5) : Prop := ∀ t, r = .ok t → t.InRig k

section
variable {c : Core} {k : Priv × BitVec 5} {i : SlotId}
theorem Core.SameBut.rig_iff {d : Core} (h : c.SameBut d) : d.InRig k ↔ c.InRig k := by
  obtain ⟨regs, ctl, _⟩ := h
  unfold Core.InRig
  rw [regs, ctl]
theorem wake_rig (w : BitVec 3) : (c.wake i w).InRig k ↔ c.InRig k := (Core.wake_same c i w).rig_iff
theorem raise_rig {b : BitVec 3} {v : BitVec 64} : (c.raise i b v).InRig k ↔ c.InRig k := (Core.raise_same c i b v).rig_iff
theorem bump_rig {a : Nat} {w : WC} : (c.bump i a w).InRig k ↔ c.InRig k := (Core.bump_same c i a w).rig_iff
theorem expire_rig : (c.expire i).InRig k ↔ c.InRig k := (expire_same c i).rig_iff
theorem flags_rig {a : Nat} {f : BitVec 6} : (c.flags i a f).InRig k ↔ c.InRig k := by
  unfold Core.flags
  (repeat' split) <;> rfl
end
section
variable {s : State} {k : Priv × BitVec 5} {v : BitVec 64}
theorem foldl_core {α : Type} {f : Core → α → Core} (hf : ∀ c x, c.InRig k → (f c x).InRig k) (l : List α) :
    ∀ {c : Core}, c.InRig k → (l.foldl f c).InRig k := by
  induction l with
  | nil => exact id
  | cons x l ih => exact fun h => ih (hf _ x h)
theorem foldl_inRig {α : Type} {f : State → α → State} (hf : ∀ s x, s.InRig k → (f s x).InRig k) (l : List α) :
    ∀ {s : State}, s.InRig k → (l.foldl f s).InRig k := by
  induction l with
  | nil => exact id
  | cons x l ih => exact fun h => ih (hf _ x h)
theorem setCore_inRig {n : Nat} {c : Core} (h : s.InRig k) (hc : n = s.here → c.InRig k) : (s.setCore n c).InRig k := by
  unfold State.setCore
  split
  · next e => exact hc e
  · exact h
theorem onCore_inRig {n : Nat} {f : Core → Core} (h : s.InRig k) (hf : ∀ c, c.InRig k → (f c).InRig k) : (s.onCore n f).InRig k :=
  setCore_inRig h fun e => hf _ (by rw [e, coreAt_here]; exact h)
theorem tick_inRig (h : s.InRig k) : s.tick.InRig k := h
theorem ok_inRig : (Res.ok s).InRig k ↔ s.InRig k := ⟨fun h => h s rfl, fun h _ e => by cases e; exact h⟩
theorem trap_inRig {c : Cause} : (Res.trap c v).InRig k := fun _ e => nomatch e
theorem hold_inRig : Res.hold.InRig k := fun _ e => nomatch e
theorem mk_inRig {here peers mem pois tags nodes net queued out clock sites power lead pages links boat agenda met draws} {c : Core} (h : c.InRig k) :
    (State.mk here c peers mem pois tags nodes net queued out clock sites power lead pages links boat agenda met draws).InRig k := h
end

/-! ## The operations -/

section
variable {s : State} {me : Priv × BitVec 5}
theorem poke_inRig {a bs p} (h : s.InRig me) : (s.poke a bs p).InRig me := h
theorem retag_inRig {a n f} (h : s.InRig me) : (s.retag a n f).InRig me := h
theorem onNode_inRig {k f} (h : s.InRig me) : (s.onNode k f).InRig me := h
theorem onCtl_inRig {f : Ctl → Ctl} (h : s.InRig me) (hf : (f s.core.ctl).priv = s.core.ctl.priv) : (s.onCtl f).InRig me :=
  ⟨hf.trans h.1, h.2⟩
theorem onEng_inRig {f : Engines → Engines} (h : s.InRig me) : (s.onEng f).InRig me := h
theorem onSh_inRig {f : Shared → Shared} (h : s.InRig me) : (s.onSh f).InRig me := h
theorem setG_inRig {r v p} (h : s.InRig me) : (s.setG r v p).InRig me := h
theorem setV_inRig {r x} (h : s.InRig me) : (s.setV r x).InRig me := h
theorem setM_inRig {r x} (h : s.InRig me) : (s.setM r x).InRig me := h
theorem orFlags_inRig {f} (h : s.InRig me) : (s.orFlags f).InRig me := h
theorem count_inRig {e} (h : s.InRig me) : (s.count e).InRig me := h
theorem send_inRig {p} (h : s.InRig me) : (s.send p).InRig me := by
  unfold State.send
  grind [mk_inRig, State.InRig]
theorem fire_inRig {old k off n p st} (h : s.InRig me) : (s.fire old k off n p st).InRig me := by
  unfold State.fire
  grind [onNode_inRig, send_inRig, foldl_inRig]
theorem wakeFlags_inRig {k off n} (h : s.InRig me) : (s.wakeFlags k off n).InRig me := by
  unfold State.wakeFlags
  extract_lets
  split
  · exact h
  · refine setCore_inRig h fun e => foldl_core (fun _ _ => (wake_rig _).mpr) _ ?_
    change (s.coreAt k).InRig me
    rw [e, coreAt_here]
    exact h
theorem writeOf_inRig {st k off bs p} (h : s.InRig me) : (s.writeOf st k off bs p).InRig me := by
  unfold State.writeOf
  grind [poke_inRig, fire_inRig, wakeFlags_inRig]
theorem write_inRig {k off bs p} (h : s.InRig me) : (s.write k off bs p).InRig me := by
  unfold State.write
  grind [writeOf_inRig]
theorem storeOf_inRig {st off bs p} (h : s.InRig me) : (s.storeOf st off bs p).InRig me := by
  unfold State.storeOf
  grind [retag_inRig, writeOf_inRig]
theorem onUmpire_inRig {u f} (h : s.InRig me) : (s.onUmpire u f).InRig me := h
theorem output_inRig {n} (h : s.InRig me) : (s.output n).InRig me := by
  unfold State.output
  grind [onUmpire_inRig]
theorem legal_inRig {i} {r : Res} (hr : r.InRig me) : (s.legal i r).InRig me := by
  unfold State.legal
  grind [trap_inRig]
theorem consume_inRig {r} {k : Res} (hk : k.InRig me) : (s.consume r k).InRig me := by
  unfold State.consume
  grind [trap_inRig]
theorem portStore_inRig {k q} (h : s.InRig me) : (s.portStore k q).InRig me := by
  unfold State.portStore
  grind [retag_inRig, writeOf_inRig]
theorem putWord_inRig {owner e i w} (h : s.InRig me) : (s.putWord owner e i w).InRig me := by
  unfold State.putWord
  grind [poke_inRig, retag_inRig, write_inRig]
theorem putWords_inRig {owner e} (l : List (Nat × Bool)) : ∀ {s : State} {i}, s.InRig me → (s.putWords owner e i l).InRig me := by
  induction l with
  | nil => exact id
  | cons w r ih => exact fun h => ih (putWord_inRig h)
theorem landFlight_inRig {owner f} (h : s.InRig me) : (s.landFlight owner f).InRig me := by
  unfold State.landFlight
  grind [putWords_inRig]
theorem landWords_inRig {ws} (h : s.InRig me) : (s.landWords ws).InRig me := by
  unfold State.landWords
  grind [onSh_inRig, landFlight_inRig, foldl_inRig]
theorem portPerform_inRig {k j} (h : s.InRig me) : (s.portPerform k j).InRig me := by
  unfold State.portPerform
  grind [onCore_inRig, portStore_inRig, Core.InRig]
theorem portServe_inRig {k i} (h : s.InRig me) : (s.portServe k i).InRig me := by
  unfold State.portServe
  grind [portPerform_inRig]
theorem portUntil_inRig {k i} (h : s.InRig me) : (s.portUntil k i).InRig me := by
  unfold State.portUntil
  grind [portServe_inRig, foldl_inRig]
theorem portTurns_inRig {k ws} (n : Nat) : ∀ {s : State}, s.InRig me → (s.portTurns k ws n).InRig me := by
  induction n with
  | zero => exact fun h => onCore_inRig (portUntil_inRig h) fun _ => id
  | succ n ih =>
    intro s h
    unfold State.portTurns
    extract_lets t
    have ht : t.InRig me := portUntil_inRig h
    split
    · exact ih (portPerform_inRig ht)
    · exact onCore_inRig ht fun _ => id
theorem portRead_inRig {k ws} (h : s.InRig me) : (s.portRead k ws).InRig me := by
  unfold State.portRead
  grind [landWords_inRig, portTurns_inRig]
theorem drainStores_inRig (h : s.InRig me) : s.drainStores.InRig me := by
  unfold State.drainStores
  grind [portRead_inRig, foldl_inRig]
theorem forgetAhead_inRig {k ws} (h : s.InRig me) : (s.forgetAhead k ws).InRig me := h
theorem countDirect_inRig {n} (h : s.InRig me) : (s.countDirect n).InRig me := h
theorem putLate_inRig {r x p} (h : s.InRig me) : (s.putLate r x p).InRig me := by
  unfold State.putLate
  grind [setG_inRig, setV_inRig]
theorem takeRead_inRig {q} (h : s.InRig me) : (s.takeRead q).InRig me := by
  unfold State.takeRead
  grind [portRead_inRig, putLate_inRig]
theorem takeIf_inRig {p} (h : s.InRig me) : (s.takeIf p).InRig me := by
  unfold State.takeIf
  grind [onSh_inRig, takeRead_inRig, foldl_inRig]
theorem takeWords_inRig {ws} (h : s.InRig me) : (s.takeWords ws).InRig me := by
  unfold State.takeWords
  grind [takeIf_inRig]
theorem putOff_inRig {l} (h : s.InRig me) : (s.putOff l).InRig me := h
theorem orLate_inRig {s t : State} {me l} {r : Res} (h : t.InRig me) (hr : r.InRig me) : (s.orLate l t r).InRig me := by
  unfold State.orLate
  grind [putOff_inRig, ok_inRig]
theorem loadWord_inRig {k off n} (h : s.InRig me) : (s.loadWord k off n).1.InRig me := by
  unfold State.loadWord
  extract_lets ws t u
  have ht : t.InRig me := takeWords_inRig h
  split
  · exact forgetAhead_inRig ht
  · exact forgetAhead_inRig (portRead_inRig ht)
theorem loadWords_inRig {k} (n : Nat) : ∀ {s : State} {off}, s.InRig me → (s.loadWords k off n).1.InRig me := by
  induction n with
  | zero => exact id
  | succ n ih => exact fun h => ih (loadWord_inRig h)
theorem loadAt_inRig {p n} (h : s.InRig me) : (s.loadAt p n).1.InRig me := by
  unfold State.loadAt
  split
  · exact h
  · have hc := countDirect_inRig (n := (n + 7) / 8) h
    extract_lets
    split
    · exact loadWord_inRig hc
    · exact loadWords_inRig _ hc
  · exact h
theorem queueOf_inRig {st k off bs p} (h : s.InRig me) : (s.queueOf st k off bs p).InRig me := by
  unfold State.queueOf
  grind [onCore_inRig, output_inRig, forgetAhead_inRig, countDirect_inRig, takeWords_inRig, Core.InRig]
theorem storeTo_inRig {st p bs q} (h : s.InRig me) : (s.storeTo st p bs q).InRig me := by
  unfold State.storeTo
  grind [storeOf_inRig, queueOf_inRig]
theorem storeAt_inRig {p bs q} (h : s.InRig me) : (s.storeAt p bs q).InRig me := by
  unfold State.storeAt
  grind [storeTo_inRig]
theorem checked_inRig {a n} {f : Path → Res} (hf : ∀ p, (f p).InRig me) : (s.checked a n f).InRig me := by
  unfold State.checked
  grind [trap_inRig]
theorem checkedLoad_inRig {a n f} (hf : ∀ x, (f x).InRig me) : (s.checkedLoad a n f).InRig me := by
  unfold State.checkedLoad
  grind [checked_inRig, hold_inRig]
theorem checkedOwn_inRig {a n} {f : Nat → Res} (hf : ∀ p, (f p).InRig me) : (s.checkedOwn a n f).InRig me := by
  unfold State.checkedOwn
  grind [trap_inRig]
theorem put_inRig {d v p f} (h : s.InRig me) : (s.put d v p f).InRig me := by
  unfold State.put
  grind [setG_inRig, orFlags_inRig, ok_inRig]
theorem alu2_inRig {d a b f} (h : s.InRig me) : (s.alu2 d a b f).InRig me := by
  unfold State.alu2
  grind [setG_inRig, ok_inRig]
theorem alu1_inRig {d a f} (h : s.InRig me) : (s.alu1 d a f).InRig me := by
  unfold State.alu1
  grind [setG_inRig, ok_inRig]
theorem vlanes_inRig {d m w p reads f} (h : s.InRig me) : (s.vlanes d m w p reads f).InRig me := by
  unfold State.vlanes
  grind [setV_inRig, orFlags_inRig, ok_inRig]
theorem crOpen_inRig {n r} (hr : r.InRig me) : (s.crOpen n r).InRig me := by
  unfold State.crOpen
  grind [trap_inRig]
theorem crrdBody_inRig {d n} (h : s.InRig me) : (crrdBody d n s).InRig me := by
  unfold crrdBody
  grind [setG_inRig, legal_inRig, crOpen_inRig, ok_inRig]
theorem crrdSeamtBody_inRig {d a} (h : s.InRig me) : (crrdSeamtBody d a s).InRig me := by
  unfold crrdSeamtBody
  grind [setG_inRig, consume_inRig, ok_inRig, trap_inRig]
theorem completeOp_inRig {o f counter} (h : s.InRig me) : (s.completeOp o f counter).InRig me := by
  unfold State.completeOp
  grind [mk_inRig, State.InRig, bump_rig, flags_rig]
theorem setTile_inRig {t x} (h : s.InRig me) : (s.setTile t x).InRig me := h
theorem runMma_inRig {o y} (h : s.InRig me) : (s.runMma o y).InRig me := by
  unfold State.runMma
  grind [completeOp_inRig, setTile_inRig]
theorem runMmas_inRig {o} (h : s.InRig me) : (s.runMmas o).InRig me := by
  unfold State.runMmas
  grind [completeOp_inRig, setTile_inRig]
theorem runAccz_inRig {o} (h : s.InRig me) : (s.runAccz o).InRig me := by
  unfold State.runAccz
  grind [completeOp_inRig, setTile_inRig]
theorem runAccrn_inRig {o} (h : s.InRig me) : (s.runAccrn o).InRig me := by
  unfold State.runAccrn
  grind [completeOp_inRig, setTile_inRig]
theorem runAccld_inRig {o y} (h : s.InRig me) : (s.runAccld o y).InRig me := by
  unfold State.runAccld
  grind [completeOp_inRig, setTile_inRig]
theorem storeWords_inRig {me} (l : List (Nat × Bool)) : ∀ {s : State} {off}, s.InRig me → (s.storeWords off l).InRig me := by
  induction l with
  | nil => exact id
  | cons w r ih => exact fun h => ih (write_inRig h)
theorem runAccst_inRig {o y} (h : s.InRig me) : (s.runAccst o y).InRig me :=
  completeOp_inRig (retag_inRig (storeWords_inRig _ h))
theorem runOp_inRig {o} (h : s.InRig me) : (s.runOp o).InRig me := by
  unfold State.runOp
  grind [runMma_inRig, runMmas_inRig, runAccz_inRig, runAccrn_inRig, runAccld_inRig, runAccst_inRig]
theorem stepTensor_inRig {p} (h : s.InRig me) : (s.stepTensor p).InRig me := by
  unfold State.stepTensor
  grind [onEng_inRig, runOp_inRig]
theorem stepMover_inRig {p} (h : s.InRig me) : (s.stepMover p).InRig me := by
  unfold State.stepMover
  grind [onEng_inRig, runOp_inRig]
theorem engineTurn_inRig (h : s.InRig me) : s.engineTurn.InRig me := by
  unfold State.engineTurn
  grind [stepTensor_inRig, stepMover_inRig]
theorem ldBody_inRig {t a w d} (h : s.InRig me) : (ldBody t a w d s).InRig me := by
  unfold ldBody
  grind [setG_inRig, consume_inRig, orLate_inRig, loadAt_inRig, checkedLoad_inRig, ok_inRig]
theorem stBody_inRig {t a w d} (h : s.InRig me) : (stBody t a w d s).InRig me := by
  unfold stBody
  grind [consume_inRig, storeTo_inRig, checked_inRig, ok_inRig]
theorem bfxBody_inRig {d a l p} (h : s.InRig me) : (bfxBody d a l p s).InRig me := by
  unfold bfxBody
  grind [legal_inRig, alu1_inRig]
theorem bfiBody_inRig {d a l p} (h : s.InRig me) : (bfiBody d a l p s).InRig me := by
  unfold bfiBody
  grind [setG_inRig, legal_inRig, ok_inRig]
theorem setTag_inRig {i e} (h : s.InRig me) : (s.setTag i e).InRig me := h
theorem tagIndex_inRig {a k} (hk : ∀ x, (k x).InRig me) : (s.tagIndex a k).InRig me := by
  unfold State.tagIndex
  grind [consume_inRig, trap_inRig]
theorem tlookBody_inRig {d a} (h : s.InRig me) : (tlookBody d a s).InRig me := by
  unfold tlookBody
  grind [setG_inRig, ok_inRig]
theorem tsetBody_inRig {d a b} (h : s.InRig me) : (tsetBody d a b s).InRig me := by
  unfold tsetBody
  grind [setG_inRig, setTag_inRig, tagIndex_inRig, ok_inRig]
theorem tclrBody_inRig {a} (h : s.InRig me) : (tclrBody a s).InRig me := by
  unfold tclrBody
  grind [setTag_inRig, tagIndex_inRig, ok_inRig]
theorem putF_inRig {d p r} (h : s.InRig me) : (s.putF d p r).InRig me := by
  unfold State.putF
  grind [put_inRig]
theorem putB_inRig {d p r} (h : s.InRig me) : (s.putB d p r).InRig me := by
  unfold State.putB
  grind [put_inRig]
theorem fcvtBody_inRig {d a r t f} (h : s.InRig me) : (fcvtBody d a r t f s).InRig me := by
  unfold fcvtBody
  grind [legal_inRig, put_inRig]
theorem vec1_inRig {d a m y f} (h : s.InRig me) : (s.vec1 d a m y f).InRig me := by
  unfold State.vec1
  grind [vlanes_inRig]
theorem vec2_inRig {d a b m y f} (h : s.InRig me) : (s.vec2 d a b m y f).InRig me := by
  unfold State.vec2
  grind [vlanes_inRig]
theorem vmovBody_inRig {d a m y} (h : s.InRig me) : (vmovBody d a m y s).InRig me := by
  unfold vmovBody
  grind [setV_inRig, legal_inRig, vec1_inRig, ok_inRig]
theorem vfmaBody_inRig {d a b m y} (h : s.InRig me) : (vfmaBody d a b m y s).InRig me := by
  unfold vfmaBody
  grind [legal_inRig, vlanes_inRig]
theorem vselBody_inRig {d a b m y} (h : s.InRig me) : (vselBody d a b m y s).InRig me := by
  unfold vselBody
  grind [setV_inRig, legal_inRig, ok_inRig]
theorem vcmp_inRig {d a b m y cond} (h : s.InRig me) : (s.vcmp d a b m y cond).InRig me := by
  unfold State.vcmp
  grind [setM_inRig, orFlags_inRig, ok_inRig, trap_inRig]
theorem vred_inRig {d a m y unit op} (h : s.InRig me) : (s.vred d a m y unit op).InRig me := by
  unfold State.vred
  grind [setV_inRig, orFlags_inRig, ok_inRig]
theorem vpermBody_inRig {d a b m y} (h : s.InRig me) : (vpermBody d a b m y s).InRig me := by
  unfold vpermBody
  grind [legal_inRig, vec2_inRig]
theorem vcvtBody_inRig {d a f m y} (h : s.InRig me) : (vcvtBody d a f m y s).InRig me := by
  unfold vcvtBody
  grind [setV_inRig, orFlags_inRig, legal_inRig, ok_inRig]
theorem draw_inRig {n} (h : s.InRig me) : (s.draw n).2.InRig me := by
  unfold State.draw
  grind [onSh_inRig]
theorem vpackbkBody_inRig {d a b y} (h : s.InRig me) : (vpackbkBody d a b y s).InRig me :=
  legal_inRig (ok_inRig.mpr (orFlags_inRig (setV_inRig (s := (s.draw 32).2) (draw_inRig h))))
theorem vunbkBody_inRig {d a k m y} (h : s.InRig me) : (vunbkBody d a k m y s).InRig me := by
  unfold vunbkBody
  grind [legal_inRig, vlanes_inRig]
theorem vscaleBody_inRig {d a b y} (h : s.InRig me) : (vscaleBody d a b y s).InRig me := by
  have put (x f) : (Res.ok ((s.setV d x).orFlags f)).InRig me := ok_inRig.mpr (orFlags_inRig (setV_inRig h))
  refine legal_inRig ?_
  grind
theorem special_inRig {d a m f} (h : s.InRig me) : (s.special d a m f).InRig me := by
  unfold State.special
  grind [vec1_inRig]
theorem descLoad_inRig {a n ok k} (hk : ∀ x, (k x).InRig me) : (s.descLoad a n ok k).InRig me := by
  unfold State.descLoad
  grind [consume_inRig, checkedOwn_inRig, trap_inRig]
theorem mafdBody_inRig {a} (h : s.InRig me) : (mafdBody a s).InRig me := by
  unfold mafdBody
  grind [onEng_inRig, descLoad_inRig, ok_inRig]
theorem mbfdBody_inRig {a} (h : s.InRig me) : (mbfdBody a s).InRig me := by
  unfold mbfdBody
  grind [onEng_inRig, descLoad_inRig, ok_inRig]
theorem enterOp_inRig {o} (h : s.InRig me) : (s.enterOp o).InRig me := by
  have entered {t : State} (ht : t.InRig me) (p : Prop) [Decidable p] (f) : ((if p then t.count 3 else t).onEng f).InRig me := by
    split
    · exact onEng_inRig (count_inRig ht)
    · exact onEng_inRig ht
  unfold State.enterOp
  split
  next t e =>
    have ht : t.InRig me := by
      split at e
      · have := draw_inRig (n := 256) h
        rwa [e] at this
      · cases e
        exact h
    exact entered ht _ _
theorem freeze_inRig {me} {p : State → Bool} (n : Nat) : ∀ {s : State}, s.InRig me → (s.freeze p n).InRig me := by
  induction n with
  | zero => exact id
  | succ n ih =>
    intro s h
    unfold State.freeze
    grind [engineTurn_inRig]
theorem issueRig_inRig {r} (h : s.InRig me) : (s.issueRig r).InRig me := by
  cases r with
  | trap c v => exact trap_inRig
  | op o => exact ok_inRig.mpr (enterOp_inRig (freeze_inRig 20 h))
theorem accsc_inRig {t d r} (h : s.InRig me) : (s.accsc t d r).InRig me := h
theorem accscRow_inRig {b k} (hk : ∀ x, (k x).InRig me) : (s.accscRow b k).InRig me := by
  unfold State.accscRow
  grind [consume_inRig, trap_inRig]
theorem accscFreeze_inRig {t b} (h : s.InRig me) : (accscFreeze t b s).InRig me := by
  unfold accscFreeze
  split
  · exact h
  · exact freeze_inRig 20 h
theorem accscBody_inRig {t d b} (h : s.InRig me) : (accscBody t d b s).InRig me := by
  unfold accscBody
  grind [accsc_inRig, accscRow_inRig, ok_inRig]
theorem vldBodyBody_inRig {v a d} (h : s.InRig me) : (vldBodyBody v a d s).InRig me := by
  unfold vldBodyBody
  grind [setV_inRig, consume_inRig, orLate_inRig, loadAt_inRig, checkedLoad_inRig, ok_inRig]
theorem vldSideBody_inRig {v a d} (h : s.InRig me) : (vldSideBody v a d s).InRig me := by
  unfold vldSideBody
  grind [setV_inRig, consume_inRig, orLate_inRig, loadAt_inRig, checkedLoad_inRig, ok_inRig]
theorem vldMaskBody_inRig {v a d} (h : s.InRig me) : (vldMaskBody v a d s).InRig me := by
  unfold vldMaskBody
  grind [setM_inRig, consume_inRig, loadAt_inRig, checkedLoad_inRig, ok_inRig, trap_inRig]
theorem vstBodyBody_inRig {v a d} (h : s.InRig me) : (vstBodyBody v a d s).InRig me := by
  unfold vstBodyBody
  grind [consume_inRig, storeAt_inRig, checked_inRig, ok_inRig]
theorem vstSideBody_inRig {v a d} (h : s.InRig me) : (vstSideBody v a d s).InRig me := by
  unfold vstSideBody
  grind [consume_inRig, storeAt_inRig, checked_inRig, ok_inRig]
theorem vstMaskBody_inRig {v a d} (h : s.InRig me) : (vstMaskBody v a d s).InRig me := by
  unfold vstMaskBody
  grind [consume_inRig, storeAt_inRig, checked_inRig, ok_inRig]
theorem pathsLoad_inRig {n l f} (hf : ∀ x, (f x).InRig me) : (s.pathsLoad n l f).InRig me := by
  unfold State.pathsLoad
  grind [trap_inRig, hold_inRig]
theorem gather_inRig {n} (l : List (Nat × Path)) : ∀ {s : State}, s.InRig me → (s.gather n l).1.InRig me := by
  induction l with
  | nil => exact id
  | cons p r ih => exact fun h => ih (loadAt_inRig h)
theorem scatter_inRig {n q val} (l : List (Nat × Path)) : ∀ {s : State}, s.InRig me → (s.scatter n q val l).InRig me := by
  induction l with
  | nil => exact id
  | cons p r ih => exact fun h => ih (storeAt_inRig h)
theorem loadLanes_inRig {v m y f} (h : s.InRig me) : (s.loadLanes v m y f).InRig me := by
  have put (l : List (Nat × Path)) (x) : ((s.gather (y.bits / 8) l).1.setV v x).InRig me := setV_inRig (gather_inRig l h)
  exact pathsLoad_inRig fun l => orLate_inRig (put _ _) (ok_inRig.mpr (put l _))
theorem storeLanes_inRig {v m y f} (h : s.InRig me) : (s.storeLanes v m y f).InRig me := by
  unfold State.storeLanes
  split
  · exact trap_inRig
  · exact ok_inRig.mpr (scatter_inRig _ h)
theorem loadBlocks_inRig {v y a b} (h : s.InRig me) : (s.loadBlocks v y a b).InRig me := by
  have put (l : List (Nat × Path)) (x) : ((s.gather y.planeBytes l).1.setV v x).InRig me := setV_inRig (gather_inRig l h)
  exact pathsLoad_inRig fun l => orLate_inRig (put _ _) (ok_inRig.mpr (put l _))
theorem storeBlocks_inRig {v y a b} (h : s.InRig me) : (s.storeBlocks v y a b).InRig me := by
  unfold State.storeBlocks
  split
  · exact trap_inRig
  · exact ok_inRig.mpr (scatter_inRig _ h)
theorem vldsBody_inRig {v a b m y} (h : s.InRig me) : (vldsBody v a b m y s).InRig me := by
  unfold vldsBody
  grind [legal_inRig, consume_inRig, loadLanes_inRig, loadBlocks_inRig]
theorem vstsBody_inRig {v a b m y} (h : s.InRig me) : (vstsBody v a b m y s).InRig me := by
  unfold vstsBody
  grind [legal_inRig, consume_inRig, storeLanes_inRig, storeBlocks_inRig]
theorem indexed_inRig {a i r} (hr : r.InRig me) : (s.indexed a i r).InRig me := by
  unfold State.indexed
  grind [consume_inRig, trap_inRig]
theorem vgathBody_inRig {v a i m y} (h : s.InRig me) : (vgathBody v a i m y s).InRig me := by
  unfold vgathBody
  grind [legal_inRig, loadLanes_inRig, indexed_inRig]
theorem vscatBody_inRig {v a i m y} (h : s.InRig me) : (vscatBody v a i m y s).InRig me := by
  unfold vscatBody
  grind [legal_inRig, storeLanes_inRig, indexed_inRig]
theorem vbcastBody_inRig {v a m y} (h : s.InRig me) : (vbcastBody v a m y s).InRig me := by
  unfold vbcastBody
  grind [legal_inRig, vlanes_inRig]
theorem laneIndex_inRig {b y k} (hk : ∀ x, (k x).InRig me) : (s.laneIndex b y k).InRig me := by
  unfold State.laneIndex
  grind [consume_inRig, trap_inRig]
theorem vinsBody_inRig {v a b y} (h : s.InRig me) : (vinsBody v a b y s).InRig me := by
  unfold vinsBody
  grind [legal_inRig, vlanes_inRig, laneIndex_inRig]
theorem vextBody_inRig {v a b y} (h : s.InRig me) : (vextBody v a b y s).InRig me := by
  unfold vextBody
  grind [setG_inRig, legal_inRig, laneIndex_inRig, ok_inRig]
theorem land_inRig {q} (h : s.InRig me) : (s.land q).InRig me := by
  unfold State.land
  grind [onEng_inRig, setG_inRig, setV_inRig, setM_inRig, orFlags_inRig]
theorem landAt_inRig {q t} (h : s.InRig me) : (s.landAt q t).InRig me := by
  unfold State.landAt
  grind [land_inRig, foldl_inRig]
theorem RigDest_holdBack_inRig {s t : State} {me} {d : RigDest} (hs : s.InRig me) (h : t.InRig me) : (d.holdBack s t).InRig me := by
  cases d
  case g | v | side | m => exact ⟨h.1, hs.2⟩
  all_goals exact h
theorem onRigs_inRig {f : Rigs → Rigs} (h : s.InRig me) (hf : (f s.core.regs.rigs).last = s.core.regs.rigs.last) : (s.onRigs f).InRig me :=
  ⟨h.1, hf.trans h.2⟩
theorem strokeTime_inRig {t} (h : s.InRig me) : (s.strokeTime t).InRig me := by
  unfold State.strokeTime
  grind [mk_inRig, State.InRig, tick_inRig, foldl_inRig, expire_rig, raise_rig]
/-- An entry of a rig keeps the privilege and LAST. -/
def RigOp.Stays (o : RigOp) : Prop :=
  ∀ {s : State} {k : Priv × BitVec 5}, s.InRig k → (o.run s).InRig k ∧ (o.first s).InRig k
theorem noResult_inRig {f : State → Res} (hf : ∀ {s : State} {k : Priv × BitVec 5}, s.InRig k → (f s).InRig k) : (RigOp.noResult f).Stays :=
  fun h => ⟨hf h, h⟩
theorem rigScalar_inRig {i : Instr} {o : RigOp} (e : Instr.rigScalar i = some o) : o.Stays := by
  cases i <;> cases e
  all_goals
    refine fun h => ⟨?_, h⟩
    dsimp only [RigOp.onG, RigOp.noResult]
  case add | sub | mul | mulh | mulhn | div | divn | rem | remn | and | or | xor | shl | shr | sra | rol
      | min | minn | max | maxn | cmpeq | cmplt | cmpltn | cmple | cmplen | mkaAbs | mkaGrp | mkaCore => exact alu2_inRig h
  case clz | ctz | popc | sext | zext | addi | andi | ori | xori | shli | shri | srai => exact alu1_inRig h
  case fadd | fsub | fmul | ffma | fdiv | fsqrt | fmin | fmax => exact putF_inRig h
  case fcmpeq | fcmplt | fcmple => exact putB_inRig h
  case madd | sel | liShort | addpc | fclass => exact ok_inRig.mpr (setG_inRig h)
  case nop => exact ok_inRig.mpr h
  case bfx => exact bfxBody_inRig h
  case bfi => exact bfiBody_inRig h
  case tlook => exact tlookBody_inRig h
  case tset => exact tsetBody_inRig h
  case tclr => exact tclrBody_inRig h
  case ld => exact ldBody_inRig h
  case st => exact stBody_inRig h
  case crrd => exact crrdBody_inRig h
  case crrdSeamt => exact crrdSeamtBody_inRig h
  case fcvt => exact fcvtBody_inRig h
theorem rigVector_inRig {i : Instr} {o : RigOp} (e : Instr.rigVector i = some o) : o.Stays := by
  cases i <;> cases e
  all_goals
    refine fun h => ⟨?_, h⟩
    dsimp only [RigOp.onG, RigOp.onV, RigOp.onM, RigOp.noResult]
  case vadd | vsub | vmul | vmin | vmax | vand | vor | vxor | vshl | vshr | vsra => exact legal_inRig (vec2_inRig h)
  case vabs | vneg => exact legal_inRig (vec1_inRig h)
  case vcmpEq | vcmpNe | vcmpLt | vcmpLe | vcmpGt | vcmpGe => exact legal_inRig (vcmp_inRig h)
  case vredAdd | vredMin | vredMax | vredOr => exact legal_inRig (vred_inRig h)
  case vexp2 | vlog2 | vrcpa | vrsqa => exact special_inRig h
  case mand | mor | mxor | mnot => exact ok_inRig.mpr (setM_inRig h)
  case mpop | mfirst => exact ok_inRig.mpr (setG_inRig h)
  case vmov => exact vmovBody_inRig h
  case vfma => exact vfmaBody_inRig h
  case vsel => exact vselBody_inRig h
  case vperm => exact vpermBody_inRig h
  case vcvt => exact vcvtBody_inRig h
  case vpackbk => exact vpackbkBody_inRig h
  case vunbk => exact vunbkBody_inRig h
  case vscale => exact vscaleBody_inRig h
  case vldBody => exact vldBodyBody_inRig h
  case vldSide => exact vldSideBody_inRig h
  case vldMask => exact vldMaskBody_inRig h
  case vstBody => exact vstBodyBody_inRig h
  case vstSide => exact vstSideBody_inRig h
  case vstMask => exact vstMaskBody_inRig h
  case vlds => exact vldsBody_inRig h
  case vsts => exact vstsBody_inRig h
  case vgath => exact vgathBody_inRig h
  case vscat => exact vscatBody_inRig h
  case vbcast => exact vbcastBody_inRig h
  case vins => exact vinsBody_inRig h
  case vext => exact vextBody_inRig h
theorem rigTensor_inRig {i : Instr} {o : RigOp} (e : Instr.rigTensor i = some o) : o.Stays := by
  cases i <;> cases e
  case mafd => exact fun h => ⟨mafdBody_inRig h, h⟩
  case mbfd => exact fun h => ⟨mbfdBody_inRig h, h⟩
  case accsc => exact fun h => ⟨accscBody_inRig h, accscFreeze_inRig h⟩
  all_goals exact noResult_inRig fun h => issueRig_inRig h
theorem rigOp_inRig {i : Instr} {o : RigOp} (e : Instr.rigOp i = some o) : o.Stays := by
  unfold Instr.rigOp at e
  split at e
  · next hs => cases e; exact rigScalar_inRig hs
  split at e
  · next hv => cases e; exact rigVector_inRig hv
  · exact rigTensor_inRig e
/-- What a rig's opening accepts keeps the privilege and LAST, entry by entry. -/
theorem rigEntries_inRig {s : State} (n : Nat) : ∀ {i es}, s.rigEntries i n = .ok es → ∀ e ∈ es, e.2.Stays := by
  induction n with
  | zero => exact fun h => by cases h; exact fun _ he => nomatch he
  | succ n ih =>
    intro i es h
    unfold State.rigEntries at h
    extract_lets o w at h
    repeat' split at h
    all_goals try cases h
    next p hp =>
      obtain ⟨r, hr, rfl⟩ : ∃ r, s.rigEntries (i + 1) n = .ok r ∧ es = (s.stageOf i, p) :: r := by
        cases e : s.rigEntries (i + 1) n with
        | error x => rw [e] at h; cases h
        | ok r => rw [e] at h; cases h; exact ⟨r, rfl, rfl⟩
      exact List.forall_mem_cons.mpr ⟨rigOp_inRig hp, ih hr⟩
section
variable {r : RigRun} {p : BitVec 16}
theorem rigEntry_inRig {i stage} {o : RigOp} (ho : o.Stays) (h : r.s.InRig me) : (r.entry p i stage o).s.InRig me := by
  unfold RigRun.entry
  extract_lets s₁ s₂ s₃
  have h₁ : s₁.InRig me := onRigs_inRig h rfl
  have h₃ : s₃.InRig me := (ho (onCtl_inRig h₁ rfl)).2
  split
  · split
    · exact h₃
    · next t e => exact count_inRig (RigDest_holdBack_inRig h₃ ((ho h₃).1 t e))
    · split
      · exact h₃
      · exact onRigs_inRig h₃ rfl
  · exact h₁
theorem rigStroke_inRig (l : List (Nat × RigOp)) : ∀ {r : RigRun} {i}, (∀ e ∈ l, e.2.Stays) → r.s.InRig me →
    (r.entries p i l).s.InRig me := by
  induction l with
  | nil => exact fun _ => id
  | cons e l ih =>
    intro r i hl h
    obtain ⟨he, hl⟩ := List.forall_mem_cons.mp hl
    exact ih hl (rigEntry_inRig he h)
theorem rigLoop_inRig {deep} {l : List (Nat × RigOp)} (hl : ∀ e ∈ l, e.2.Stays) (n : Nat) :
    ∀ {r : RigRun}, r.s.InRig me → (r.loop p deep l n).s.InRig me := by
  induction n with
  | zero => exact id
  | succ n ih =>
    intro r h
    unfold RigRun.loop
    extract_lets s₁ q start sv s₂ due r₁
    have h₂ : s₂.InRig me := onRigs_inRig (landAt_inRig (strokeTime_inRig h)) rfl
    split
    · exact h₂
    · exact ih (rigStroke_inRig l hl h₂)
end
end

end Sys2Proof.Machine
end

section

/-! How a rig opens and ends (R86, R87, R152, R219). -/

namespace Sys2Proof.Machine

/-! ## The end -/

/-- A cause leaves the registers, and whether a rig is active, as they are (R55, R56). -/
theorem takeTrap_regs (s : State) (c : Cause) (v : BitVec 64) (r : BitVec 16) :
    (s.takeTrap c v r).core.regs = s.core.regs ∧ (s.takeTrap c v r).core.ctl.riga = s.core.ctl.riga := by
  cases h : s.core.ctl.priv with
  | u =>
    obtain ⟨ctl, regs, _⟩ := takeTrap_u s c v r h
    exact ⟨regs, by rw [ctl]⟩
  | s =>
    rw [takeTrap_s s c v r h]
    obtain ⟨t, _, core, _, _, alone, grouped⟩ := coreFault_state s c v
    have kept : t.core.regs = s.core.regs ∧ t.core.ctl.riga = s.core.ctl.riga := by
      rw [core]
      exact ⟨rfl, rfl⟩
    cases g : s.groupOf s.core.ctl.gid with
    | none => rwa [alone g]
    | some i =>
      rw [grouped i g]
      have stays := faultGroup_coreAt t (P := fun d => d.regs = s.core.regs ∧ d.ctl.riga = s.core.ctl.riga) (fun _ h => h) i t.here
        (by rwa [coreAt_here])
      rwa [← faultGroup_here t i, coreAt_here] at stays

/-- What the end of a rig leaves in `RIGS`, and where the core is. -/
def State.RigEnded (t : State) (k : Priv × BitVec 5) (exit : BitVec 16) : Prop :=
  t.core.ctl.riga = false ∧ t.core.regs.rigs.sv = 0 ∧ t.core.regs.rigs.slot = 0 ∧ t.core.regs.rigs.last = k.2 ∧
  (t.core.regs.rigs.fault = false → t.core.regs.rigs.active = false → t.core.regs.rigs.iter = 0 ∧
    (t.core.ctl.priv = k.1 → t.pc = exit) ∧ (t.core.ctl.priv ≠ k.1 → t.core.ctl.async = true ∧ t.core.ctl.tpc = exit))

/-- A pending cause is taken behind a rig's entries, or the core passes on there. -/
theorem takePending_exits {s : State} {k : Priv} {exit : BitVec 16} (hk : s.core.ctl.priv = k) (pc : s.pc = exit) :
    s.takePending.core.regs = s.core.regs ∧ s.takePending.core.ctl.riga = s.core.ctl.riga ∧
    (s.takePending.core.ctl.priv = k → s.takePending.pc = exit) ∧
    (s.takePending.core.ctl.priv ≠ k → s.takePending.core.ctl.async = true ∧ s.takePending.core.ctl.tpc = exit) := by
  by_cases takes : s.core.ctl.takesAsync = true
  · cases hb : topBit s.slot.pend with
    | none =>
      rw [takePending_idle (.inr ((topBit_eq_none _).mp hb))]
      exact ⟨rfl, rfl, fun _ => pc, fun h => absurd hk h⟩
    | some b =>
      obtain ⟨ctl, regs, _⟩ := takePending_taken takes hb
      obtain ⟨hu, _, _⟩ := (takesAsync_iff _).mp takes
      refine ⟨regs, by rw [ctl]; rfl, fun h => ?_, fun _ => ?_⟩
      · rw [ctl] at h
        exact nomatch h.trans (hk.symm.trans hu)
      · rw [ctl]
        exact ⟨ofBit_isAsync hb, pc⟩
  · rw [takePending_idle (.inl (by simpa using takes))]
    exact ⟨rfl, rfl, fun _ => pc, fun h => absurd hk h⟩

/-- The state behind a rig's last stroke, with `RIGS` as it stays. -/
def State.strokesOver (s : State) (p : BitVec 16) : State :=
  ((s.onRigs fun q => { q with sv := 0, slot := 0, active := q.iter != 0 && !q.fault }).onCtl fun k =>
    { k with riga := false, pc := p }).onSh fun h => { h with duringRig := [] }
/-- What a rig leaves: a fault is raised, a pending cause is taken, or the core passes on. -/
def State.leaveRig (s : State) (record : BitVec 64) (p exit : BitVec 16) : State :=
  if s.core.regs.rigs.fault then s.takeTrap .rigx record p
  else if s.core.regs.rigs.active then
    match topBit s.slot.pend with
    | some b => s.takeAsync b p
    | none => s.onCtl fun k => { k with issue := .run }
  else (s.commitTo exit).takePending
theorem close_eq (r : RigRun) (p exit : BitVec 16) :
    r.close p exit = (r.landAll.drainStores.strokesOver p).leaveRig r.record p exit := by
  unfold RigRun.close State.leaveRig
  generalize r.landAll.drainStores = s
  rfl
section
variable {s : State} (p exit : BitVec 16) {k : Priv × BitVec 5}
theorem strokesOver_inRig (h : s.InRig k) : (s.strokesOver p).InRig k :=
  onSh_inRig (onCtl_inRig (onRigs_inRig h rfl) rfl)
/-- Strokes are left only where the rig can be resumed. -/
theorem strokesOver_iter (fault : (s.strokesOver p).core.regs.rigs.fault = false) (active : (s.strokesOver p).core.regs.rigs.active = false) :
    (s.strokesOver p).core.regs.rigs.iter = 0 := by
  have fault : s.core.regs.rigs.fault = false := fault
  have active : (s.core.regs.rigs.iter != 0 && !s.core.regs.rigs.fault) = false := active
  have none_left : s.core.regs.rigs.iter = 0 := by simpa [fault] using active
  exact none_left
theorem leaveRig_ends (record : BitVec 64) (h : s.InRig k) : ((s.strokesOver p).leaveRig record p exit).RigEnded k exit := by
  obtain ⟨priv, last⟩ := strokesOver_inRig p h
  have sv : (s.strokesOver p).core.regs.rigs.sv = 0 := rfl
  have slot : (s.strokesOver p).core.regs.rigs.slot = 0 := rfl
  have riga : (s.strokesOver p).core.ctl.riga = false := rfl
  have iter := strokesOver_iter (s := s) p
  unfold State.leaveRig
  generalize s.strokesOver p = s at *
  split
  · next fault =>
    obtain ⟨regs, rig⟩ := takeTrap_regs s .rigx record p
    refine ⟨rig.trans riga, by rw [regs, sv], by rw [regs, slot], by rw [regs, last], fun f => ?_⟩
    rw [regs, fault] at f
    exact nomatch f
  split
  · next fault active =>
    split
    · next b _ =>
      obtain ⟨regs, rig⟩ := takeTrap_regs { s with core := s.core.onSlot s.core.ctl.slot fun t => t.takeCause b } (Cause.ofBit b.toNat)
        (s.slot.pendVal[b.toNat]?.getD 0) p
      have regs : (s.takeAsync b p).core.regs = s.core.regs := regs
      refine ⟨rig.trans riga, by rw [regs, sv], by rw [regs, slot], by rw [regs, last], fun _ a => ?_⟩
      rw [regs, active] at a
      exact nomatch a
    · exact ⟨riga, sv, slot, last, fun _ a => absurd (active.symm.trans a) (by decide)⟩
  · next fault active =>
    obtain ⟨regs, rig, stays, taken⟩ := takePending_exits (s := s.commitTo exit) priv rfl
    have regs : (s.commitTo exit).takePending.core.regs = s.core.regs := regs
    exact ⟨rig.trans riga, by rw [regs, sv], by rw [regs, slot], by rw [regs, last],
      fun _ _ => ⟨by rw [regs, iter (by simpa using fault) (by simpa using active)], stays, taken⟩⟩
/-- The end of a rig. -/
theorem close_ends {r : RigRun} (h : r.s.InRig k) : (r.close p exit).RigEnded k exit := by
  have landed : r.landAll.InRig k := foldl_inRig (fun _ _ => landAt_inRig) _ h
  rw [close_eq]
  exact leaveRig_ends p exit r.record (drainStores_inRig landed)
end
theorem rigRun_ends {s : State} {n : BitVec 32} {l : BitVec 5} {es : List (Nat × RigOp)} (h : ∀ e ∈ es, e.2.Stays) :
    (s.rigRun n l es).RigEnded (s.core.ctl.priv, l) (s.entryAt (l.toNat + 1)) := by
  unfold State.rigRun
  exact close_ends _ _ (rigLoop_inRig h _ ⟨rfl, rfl⟩)

/-! ## The opening -/

section
variable {s : State} {a : GR} {l : BitVec 5} {es : List (Nat × RigOp)} {n : BitVec 32}
theorem rigBody_stays {last : Nat} (h : s.rigBody last = .ok es) : ∀ e ∈ es, e.2.Stays := by
  unfold State.rigBody at h
  split at h
  · cases h
  · exact rigEntries_inRig _ h
theorem entryAt_exit (l : BitVec 5) : s.entryAt (l.toNat + 1) = s.pc + 16 + 4 * BitVec.ofNat 16 (l.toNat + 1) := by
  rw [State.entryAt, BitVec.add_assoc]
  congr 1
  refine BitVec.eq_of_toNat_eq ?_
  have := l.isLt
  simp
variable (hes : s.rigBody l.toNat = .ok es) (hn : s.rigCount a l = .ok n)
include hes hn
theorem exec_rig_empty (h : n = 0) : exec (.rig a l) s = .next ((s.onRigs fun _ => Rigs.zero).commitTo (s.entryAt (l.toNat + 1))) := by
  rw [show exec (.rig a l) s = execRig a l s from rfl, execRig, hes, hn]
  exact if_pos h
theorem exec_rig_holds (h : n ≠ 0) (hw : s.rigWaits = true) : exec (.rig a l) s = .next s.holdIssue := by
  rw [show exec (.rig a l) s = execRig a l s from rfl, execRig, hes, hn]
  exact (if_neg h).trans (if_pos hw)
theorem exec_rig_runs (h : n ≠ 0) (hw : s.rigWaits = false) : exec (.rig a l) s = .next (s.rigRun n l es) := by
  rw [show exec (.rig a l) s = execRig a l s from rfl, execRig, hes, hn]
  exact (if_neg h).trans (if_neg (by simp [hw]))
end
theorem exec_rig_faults {s : State} {a : GR} {l : BitVec 5} {c : Cause} {v : BitVec 64} (h : s.rigBody l.toNat = .error (c, v)) :
    exec (.rig a l) s = .next (s.takeTrap c v s.pc) := by
  rw [show exec (.rig a l) s = execRig a l s from rfl, execRig, h]

end Sys2Proof.Machine
end

section

/-! The strokes of a rig of two entries (R165, R219). -/

namespace Sys2Proof.Machine

/-! ## Entries that a rig reads -/

theorem decode_add (d a b : GR) : needsExt (fmtA 0x01 d a b 0 0x00) = false ∧ decode (fmtA 0x01 d a b 0 0x00) 0 = .ok (.add d a b) := by
  have hd := d.isLt
  have ha := a.isLt
  have hb := b.isLt
  have w : fmtA 0x01 d a b 0 0x00 = 67108864 + d.toNat * 2097152 + a.toNat * 65536 + b.toNat * 2048 := by simp [fmtA]
  rw [w]
  generalize hw : 67108864 + d.toNat * 2097152 + a.toNat * 65536 + b.toNat * 2048 = w
  have maj : w / 67108864 = 1 := by omega
  have gd : w / 2097152 % 32 = d.toNat := by omega
  have ga : w / 65536 % 32 = a.toNat := by omega
  have gb : w / 2048 % 32 = b.toNat := by omega
  have gc : w / 64 % 32 = 0 := by omega
  have fn : w % 64 = 0 := by omega
  have raw : decodeRaw w 0 = .ok (.add d a b) := by
    simp [decodeRaw, maj, decodeA, gd, ga, gb, gc, fn, decodeInt, zeroField]
  refine ⟨by simp [needsExt, maj], ?_⟩
  rw [decode, if_neg (by omega), if_neg (by omega), raw]
  rfl
theorem decode_addi (d a : GR) (i : BitVec 16) :
    needsExt (fmtB 0x02 d a i.toNat) = false ∧ decode (fmtB 0x02 d a i.toNat) 0 = .ok (.addi d a i) := by
  have hd := d.isLt
  have ha := a.isLt
  have hi := i.isLt
  generalize hw : fmtB 0x02 d a i.toNat = w
  rw [fmtB] at hw
  have maj : w / 67108864 = 2 := by omega
  have gd : w / 2097152 % 32 = d.toNat := by omega
  have ga : w / 65536 % 32 = a.toNat := by omega
  have imm : w % 65536 = i.toNat := by omega
  have raw : decodeRaw w 0 = .ok (.addi d a i) := by simp [decodeRaw, maj, decodeB, gd, ga, imm]
  refine ⟨by simp [needsExt, maj], ?_⟩
  rw [decode, if_neg (by omega), if_neg (by omega), raw]
  rfl
theorem decode_st_word {t a : GR} {w : Nat} (hw : 1476395008 + t.toNat * 2097152 + a.toNat * 65536 + 49152 = w) :
    needsExt w = false ∧ decode w 0 = .ok (.st t a .w64 0) := by
  have ht := t.isLt
  have ha := a.isLt
  have maj : w / 67108864 = 0x16 := by omega
  have gt : BitVec.ofNat 5 (w / 2097152) = t := BitVec.eq_of_toNat_eq (by simp; omega)
  have ga : BitVec.ofNat 5 (w / 65536) = a := BitVec.eq_of_toNat_eq (by simp; omega)
  have disp : BitVec.ofNat 13 w = 0 := BitVec.eq_of_toNat_eq (by simp; omega)
  have width : w / 8192 % 8 = 6 := by omega
  have raw : decodeRaw w 0 = .ok (.st t a .w64 0) := by
    simp [decodeRaw, maj, decodeC, gt, ga, disp, width, withCode, StW.ofCode]
  refine ⟨by simp [needsExt, maj], ?_⟩
  rw [decode, if_neg (by omega), if_neg (by omega), raw]
  rfl
theorem decode_st (t a : GR) : needsExt (fmtC 0x16 t a (StW.w64.code * 8192 + (0#13).toNat)) = false ∧
    decode (fmtC 0x16 t a (StW.w64.code * 8192 + (0#13).toNat)) 0 = .ok (.st t a .w64 0) :=
  decode_st_word (by simp [fmtC, StW.code])

section
variable {s : State} {a : GR}
/-- The rig of two entries that are read, with their stages. -/
theorem rigBody_two {i j : Instr} {o q : RigOp} (hf : s.stageFault 1 3 = none)
    (h0 : s.poisoned (s.codeKey (s.entryAt 0)) = false) (h1 : s.poisoned (s.codeKey (s.entryAt 1)) = false)
    (d0 : needsExt (s.parcelAt (s.entryAt 0)) = false ∧ decode (s.parcelAt (s.entryAt 0)) 0 = .ok i)
    (d1 : needsExt (s.parcelAt (s.entryAt 1)) = false ∧ decode (s.parcelAt (s.entryAt 1)) 0 = .ok j)
    (hi : Instr.rigOp i = some o) (hj : Instr.rigOp j = some q) :
    s.rigBody 1 = .ok [(s.stageOf 0, o), (s.stageOf 1, q)] := by
  simp [State.rigBody, hf, State.rigEntries, h0, h1, d0, d1, hi, hj, Except.map]
/-- A clean count of strokes, where no rig is to be resumed. -/
theorem rigCount_fresh (l : BitVec 5) (ha : s.core.regs.rigs.active = false) (hp : s.gp a = false) (hn : (s.gv a).toNat < 2 ^ 32) :
    s.rigCount a l = .ok ((s.gv a).setWidth 32) := by
  unfold State.rigCount
  dsimp only
  rw [if_neg (by simp [ha]), if_neg (by simp [hp]), if_neg (Nat.not_le.mpr hn)]
end

/-! ## What strokes leave -/

/-- What the strokes of these rigs leave: all of the core but its general registers, `RIGS`, the counters and the slots, and what
waits at the ports. -/
def Strokes (s t : State) : Prop :=
  t.here = s.here ∧ t.core.ctl.priv = s.core.ctl.priv ∧
  t.core.regs = { s.core.regs with g := t.core.regs.g, rigs := t.core.regs.rigs } ∧ t.core.eng = s.core.eng ∧
  ∀ k, (t.coreAt k).sh.port = (s.coreAt k).sh.port

theorem Strokes.refl (s : State) : Strokes s s := ⟨rfl, rfl, rfl, rfl, fun _ => rfl⟩
theorem Strokes.trans {s t u : State} (h : Strokes s t) (g : Strokes t u) : Strokes s u := by
  obtain ⟨here, priv, regs, eng, port⟩ := h
  obtain ⟨here', priv', regs', eng', port'⟩ := g
  exact ⟨here'.trans here, priv'.trans priv, by rw [regs', regs], eng'.trans eng, fun k => (port' k).trans (port k)⟩
theorem Strokes.fpcr {s t : State} (h : Strokes s t) : t.fpcr = s.fpcr := by
  obtain ⟨_, _, regs, _⟩ := h
  rw [State.fpcr, regs, State.fpcr]
/-- A change of the selected core alone, which leaves its port. -/
theorem strokes_core {s : State} {c : Core} (hp : c.ctl.priv = s.core.ctl.priv)
    (hr : c.regs = { s.core.regs with g := c.regs.g, rigs := c.regs.rigs }) (he : c.eng = s.core.eng) (hport : c.sh.port = s.core.sh.port) :
    Strokes s { s with core := c } := by
  refine ⟨rfl, hp, hr, he, fun k => ?_⟩
  unfold State.coreAt
  dsimp only
  split
  · exact hport
  · rfl
theorem SameStore.refl (s : State) : SameStore s s := ⟨rfl, rfl, rfl⟩

/-! ## Time that passes before a stroke -/

/-- Time passes: registers and memory are as before. -/
def Lapses (s t : State) : Prop := Strokes s t ∧ SameStore s t ∧ t.core.regs = s.core.regs
theorem Lapses.refl (s : State) : Lapses s s := ⟨Strokes.refl s, SameStore.refl s, rfl⟩
theorem Lapses.trans {s t u : State} (h : Lapses s t) (g : Lapses t u) : Lapses s u :=
  ⟨h.1.trans g.1, h.2.1.trans g.2.1, g.2.2.trans h.2.2⟩
theorem foldl_lapses {α : Type} {f : State → α → State} (hf : ∀ s x, Lapses s (f s x)) (l : List α) :
    ∀ s : State, Lapses s (l.foldl f s) := by
  induction l with
  | nil => exact Lapses.refl
  | cons x l ih => exact fun s => (hf s x).trans (ih _)
theorem lapses_sameBut {s : State} {c : Core} (h : s.core.SameBut c) : Lapses s { s with core := c } := by
  obtain ⟨regs, ctl, eng, sh⟩ := h
  exact ⟨strokes_core (by rw [ctl]) (by rw [regs]) eng (by rw [sh]), SameStore.refl s, regs⟩
theorem tick_lapses (s : State) : Lapses s s.tick := by
  have peer (k : Nat) (t : Tbl Core) : (tget (Core.reset k) (t.map fun e => (e.1, s.elapse e.1 (Config.stepTicks s.draws) e.2)) k).sh.port =
      (tget (Core.reset k) t k).sh.port := by
    induction t with
    | nil => rfl
    | cons e t ih =>
      simp only [List.map_cons, tget]
      split
      · rfl
      · exact ih
  refine ⟨⟨rfl, rfl, rfl, rfl, fun k => ?_⟩, SameStore.refl s, rfl⟩
  unfold State.coreAt
  split
  · next e => exact (congrArg (·.sh.port) (if_pos e : ite (k = s.here) s.core _ = s.core)).symm
  · next e => exact (peer k s.peers).trans (congrArg (·.sh.port) (if_neg e : ite (k = s.here) s.core (tget (Core.reset k) s.peers k) = _)).symm
theorem strokeTime_lapses (s : State) (t : Nat) : Lapses s (s.strokeTime t) := by
  have expires (s : State) : Lapses s (match s.core.firstTimer s.rclk with
      | some i => { s with core := s.core.expire i }
      | none => s) := by
    split
    · exact lapses_sameBut (expire_same _ _)
    · exact Lapses.refl s
  exact ((tick_lapses s).trans (foldl_lapses (fun s _ => expires s) _ _)).trans
    (foldl_lapses (fun s e => lapses_sameBut (Core.raise_same s.core _ _ _)) _ _)

/-! ## Landing -/

/-- Sticky flags that are set already. -/
theorem orFlags_own {s : State} {f : BitVec 6} (h : f = s.fpcr.extractLsb' 8 6) : s.orFlags f = s := by
  have same : s.core.regs.fpcr ||| (f.setWidth 14 <<< 8) = s.core.regs.fpcr := by
    rw [h, State.fpcr]
    refine BitVec.eq_of_getLsbD_eq fun i hi => ?_
    have bit : 8 ≤ i → s.core.regs.fpcr.getLsbD (8 + (i - 8)) = s.core.regs.fpcr.getLsbD i := fun h => by rw [Nat.add_sub_cancel' h]
    simp only [BitVec.getLsbD_or, BitVec.getLsbD_shiftLeft, BitVec.getLsbD_setWidth, BitVec.getLsbD_extractLsb']
    grind
  unfold State.orFlags State.onRegs
  dsimp only
  rw [same]
theorem land_g {s : State} {q : Due} {r : GR} {x : GReg} (hw : q.what = .g r x) (hf : q.flags = s.fpcr.extractLsb' 8 6) :
    s.land q = s.setG r x.v x.p := by
  rw [State.land, orFlags_own hf, hw]
theorem land_none {s : State} {q : Due} (hw : q.what = .none) (hf : q.flags = s.fpcr.extractLsb' 8 6) : s.land q = s := by
  rw [State.land, orFlags_own hf, hw]
/-- The results of a rig of two entries that land: those of entry 0, then those of entry 1. -/
theorem landAt_two {s : State} {q : List Due} {t : Nat} (h : ∀ d ∈ q, d.stroke = t ∧ d.index < 2) :
    s.landAt q t = (q.filter (·.index == 1)).foldl State.land ((q.filter (·.index == 0)).foldl State.land s) := by
  have all (i : Nat) : (q.filter fun d => d.stroke == t && d.index == i) = q.filter (·.index == i) :=
    List.filter_congr fun d hd => by simp [(h d hd).1]
  have none (s : State) (l : List Nat) (hl : ∀ i ∈ l, 2 ≤ i) :
      l.foldl (fun s i => (q.filter (·.index == i)).foldl State.land s) s = s := by
    induction l with
    | nil => rfl
    | cons i l ih =>
      obtain ⟨hi, hl⟩ := List.forall_mem_cons.mp hl
      have empty : q.filter (·.index == i) = [] := List.filter_eq_nil_iff.mpr fun d hd e => by
        have := (h d hd).2
        have := eq_of_beq e
        omega
      rw [List.foldl_cons, empty]
      exact ih hl
  have range : List.range 32 = 0 :: 1 :: (List.range 30).map (· + 2) := rfl
  unfold State.landAt
  simp only [all]
  rw [range, List.foldl_cons, List.foldl_cons, none _ _ fun i hi => ?_]
  obtain ⟨j, _, rfl⟩ := List.mem_map.mp hi
  omega
theorem landAt_nil (s : State) (t : Nat) : s.landAt [] t = s := landAt_two (q := []) fun _ h => nomatch h
theorem setG_strokes (s : State) (r : GR) (v : BitVec 64) (p : Bool) : Strokes s (s.setG r v p) := strokes_core rfl rfl rfl rfl

/-! ## One entry -/

/-- The state in which entry i of a rig runs. -/
def State.atEntry (s : State) (p : BitVec 16) (i : Nat) : State :=
  (s.onRigs fun q => { q with slot := BitVec.ofNat 5 i }).onCtl fun k => { k with pc := p + BitVec.ofNat 16 (16 + 4 * i) }
theorem onRigs_strokes (s : State) (f : Rigs → Rigs) : Strokes s (s.onRigs f) := strokes_core rfl rfl rfl rfl
theorem atEntry_strokes (s : State) (p : BitVec 16) (i : Nat) : Strokes s (s.atEntry p i) := strokes_core rfl rfl rfl rfl
theorem count_strokes (s : State) (e : Nat) : Strokes s (s.count e) := strokes_core rfl rfl rfl rfl

section
variable {r : RigRun} {p : BitVec 16} {i stage : Nat}
theorem entry_bubble {o : RigOp} (h : r.s.core.regs.rigs.sv.getLsbD stage = false) :
    r.entry p i stage o = { r with s := r.s.onRigs fun q => { q with slot := BitVec.ofNat 5 i } } := by
  unfold RigRun.entry
  exact if_neg (by simpa using h)
/-- An entry with a result in a general register: the result is on its way. -/
theorem entry_onG {d : GR} {lat : Nat} {f : State → Res} {v : BitVec 64} {q : Bool} (h : r.s.core.regs.rigs.sv.getLsbD stage = true)
    (run : f (r.s.atEntry p i) = .ok ((r.s.atEntry p i).setG d v q)) :
    r.entry p i stage (.onG d lat f) = { r with s := (r.s.atEntry p i).count 2,
                                                due := ⟨r.stroke + lat, i, .g d ⟨v, q⟩, r.s.fpcr.extractLsb' 8 6⟩ :: r.due } := by
  have value : (RigDest.g d).value ((r.s.atEntry p i).setG d v q) = .g d ⟨v, q⟩ :=
    congrArg (Landing.g d) (bget_bset_self (r.s.atEntry p i).core.regs.g d ⟨v, q⟩ _)
  have run' : (RigOp.onG d lat f).run ((RigOp.onG d lat f).first (r.s.atEntry p i)) = .ok ((r.s.atEntry p i).setG d v q) := run
  have e : r.entry p i stage (.onG d lat f) = { r with s := ((RigDest.g d).holdBack (r.s.atEntry p i) ((r.s.atEntry p i).setG d v q)).count 2, due := ⟨r.stroke + lat, i, (RigDest.g d).value ((r.s.atEntry p i).setG d v q), r.s.fpcr.extractLsb' 8 6⟩ :: r.due } := by
    unfold RigRun.entry
    refine (if_pos h).trans ?_
    change (match (RigOp.onG d lat f).run ((RigOp.onG d lat f).first (r.s.atEntry p i)) with | .hold => _ | .ok t => _ | .trap c v => _) = _
    rw [run']
    rfl
  rw [e, value]
  rfl
/-- An entry without a result: its effect stands. -/
theorem entry_noResult {f : State → Res} {t : State} (h : r.s.core.regs.rigs.sv.getLsbD stage = true)
    (run : f (r.s.atEntry p i) = .ok t) :
    r.entry p i stage (.noResult f) = { r with s := t.count 2, due := ⟨r.stroke + 1, i, .none, t.fpcr.extractLsb' 8 6⟩ :: r.due } := by
  have run' : (RigOp.noResult f).run ((RigOp.noResult f).first (r.s.atEntry p i)) = .ok t := run
  unfold RigRun.entry
  refine (if_pos h).trans ?_
  change (match (RigOp.noResult f).run ((RigOp.noResult f).first (r.s.atEntry p i)) with
    | .hold => _ | .ok t => _ | .trap c v => _) = _
  rw [run']
  rfl
/-- What an entry with a result in a general register leaves: memory, and of the core all but the entry it names; its result, when
its stage is valid, is on its way. -/
theorem entry_onG_leaves {d : GR} {lat : Nat} {f : State → Res} {v : BitVec 64} {q : Bool}
    (run : f (r.s.atEntry p i) = .ok ((r.s.atEntry p i).setG d v q)) :
    Strokes r.s (r.entry p i stage (.onG d lat f)).s ∧ SameStore r.s (r.entry p i stage (.onG d lat f)).s ∧
    (r.entry p i stage (.onG d lat f)).s.core.regs = { r.s.core.regs with rigs := { r.s.core.regs.rigs with slot := BitVec.ofNat 5 i } } ∧
    (r.entry p i stage (.onG d lat f)).stroke = r.stroke ∧
    (r.entry p i stage (.onG d lat f)).due = (if r.s.core.regs.rigs.sv.getLsbD stage then
      [⟨r.stroke + lat, i, .g d ⟨v, q⟩, r.s.fpcr.extractLsb' 8 6⟩] else []) ++ r.due := by
  cases valid : r.s.core.regs.rigs.sv.getLsbD stage with
  | false =>
    rw [entry_bubble valid]
    exact ⟨onRigs_strokes .., SameStore.refl _, rfl, rfl, rfl⟩
  | true =>
    rw [entry_onG valid run]
    exact ⟨(atEntry_strokes ..).trans (count_strokes ..), SameStore.refl _, rfl, rfl, rfl⟩
end

/-! ## One stroke -/

section
variable (r : RigRun) (p : BitVec 16) (deep : Nat) (l : List (Nat × RigOp)) (k : Nat)
/-- The state at the head of a stroke: time has passed and results have landed. -/
def RigRun.head : State := (r.s.strokeTime r.stroke).landAt r.due r.stroke
/-- The run when a stroke has begun: the stages move on (R219). -/
def RigRun.begun : RigRun :=
  { r with s := r.head.onRigs fun q =>
             { q with sv := (q.sv <<< 1 ||| (BitVec.ofBool (q.iter != 0 && !(r.head.drains || q.fault))).setWidth 8) &&&
                        BitVec.ofNat 8 (2 ^ (deep + 1) - 1),
                      iter := if q.iter != 0 && !(r.head.drains || q.fault) then q.iter - 1 else q.iter },
           due := r.due.filter fun d => decide (r.stroke < d.stroke) }
theorem loop_succ : r.loop p deep l (k + 1) =
    if (r.begun deep).s.core.regs.rigs.sv = 0 then r.begun deep
    else RigRun.loop { RigRun.entries (r.begun deep) p 0 l with stroke := (RigRun.entries (r.begun deep) p 0 l).stroke + 1 } p deep l k := rfl
variable {r}
/-- A stroke begins at S, where no cause drains the rig. -/
theorem begun_at_s (hs : r.head.core.ctl.priv = .s) (hf : r.head.core.regs.rigs.fault = false) : (r.begun deep).s =
    r.head.onRigs fun q =>
      { q with sv := (q.sv <<< 1 ||| (BitVec.ofBool (q.iter != 0)).setWidth 8) &&& BitVec.ofNat 8 (2 ^ (deep + 1) - 1),
               iter := if q.iter != 0 then q.iter - 1 else q.iter } := by
  have start : (r.head.core.regs.rigs.iter != 0 && !(r.head.drains || r.head.core.regs.rigs.fault)) =
      (r.head.core.regs.rigs.iter != 0) := by
    simp [State.drains, hs, hf]
  unfold RigRun.begun State.onRigs State.onRegs
  dsimp only
  rw [start]
end
theorem stages_bits (sv : BitVec 8) (start : Bool) :
    ((sv <<< 1 ||| (BitVec.ofBool start).setWidth 8) &&& BitVec.ofNat 8 (2 ^ (1 + 1) - 1)).getLsbD 0 = start ∧
    ((sv <<< 1 ||| (BitVec.ofBool start).setWidth 8) &&& BitVec.ofNat 8 (2 ^ (1 + 1) - 1)).getLsbD 1 = sv.getLsbD 0 ∧
    ((sv <<< 1 ||| (BitVec.ofBool start).setWidth 8) &&& BitVec.ofNat 8 (2 ^ (1 + 1) - 1) = 0 ↔ start = false ∧ sv.getLsbD 0 = false) := by
  revert sv start
  decide
theorem stage_bit (sv : BitVec 8) (start : Bool) :
    ((sv <<< 1 ||| (BitVec.ofBool start).setWidth 8) &&& BitVec.ofNat 8 (2 ^ (0 + 1) - 1)).getLsbD 0 = start ∧
    ((sv <<< 1 ||| (BitVec.ofBool start).setWidth 8) &&& BitVec.ofNat 8 (2 ^ (0 + 1) - 1) = 0 ↔ start = false) := by
  revert sv start
  decide
/-- Strokes that are left, and one fewer. -/
theorem strokes_left {n t : Nat} (hn : n < 2 ^ 32) : ((BitVec.ofNat 32 (n - t) != 0) = decide (t < n)) ∧
    (if BitVec.ofNat 32 (n - t) != 0 then BitVec.ofNat 32 (n - t) - 1 else BitVec.ofNat 32 (n - t)) = BitVec.ofNat 32 (n - (t + 1)) := by
  have left : (BitVec.ofNat 32 (n - t) = 0) ↔ n ≤ t := by
    rw [← BitVec.toNat_inj, BitVec.toNat_ofNat]
    simp
    omega
  have some_left : (BitVec.ofNat 32 (n - t) != 0) = decide (t < n) := by
    rw [Bool.eq_iff_iff]
    simp only [bne_iff_ne, ne_eq, left, decide_eq_true_eq]
    omega
  refine ⟨some_left, ?_⟩
  rw [some_left]
  split
  · next h =>
    have h := of_decide_eq_true h
    refine BitVec.eq_of_toNat_eq ?_
    simp [BitVec.toNat_sub]
    omega
  · next h =>
    have h : ¬ t < n := fun g => h (decide_eq_true g)
    rw [Nat.sub_eq_zero_of_le (by omega), Nat.sub_eq_zero_of_le (by omega)]

end Sys2Proof.Machine
end

section

/-! A rig of two additions, the second a stroke behind the first (R151, R165, R219). -/

namespace Sys2Proof.Machine

/-- The count of a rig's first results, and of its second ones, before a stroke. -/
def State.firstSum (s : State) (d b : GR) (j : Nat) : BitVec 64 := s.gv d + BitVec.ofNat 64 j * s.gv b
def State.secondSum (s : State) (d e b : GR) : Nat → BitVec 64
  | 0 => s.gv e
  | 1 => s.gv e
  | j + 2 => s.secondSum d e b (j + 1) + s.firstSum d b (j + 1)

/-- The registers of the two sums. -/
def Sums (s : State) (d e : GR) (t : State) (x y : BitVec 64) : Prop :=
  t.gv d = x ∧ t.gp d = false ∧ t.gv e = y ∧ t.gp e = false ∧ SameG s t [d, e]

theorem ofNat_succ_mul (n : Nat) (x : BitVec 64) : BitVec.ofNat 64 (n + 1) * x = BitVec.ofNat 64 n * x + x := by
  rw [BitVec.ofNat_add, BitVec.add_mul, BitVec.one_mul]
section
variable (s : State) (d e b : GR)
theorem firstSum_succ (j : Nat) : s.firstSum d b (j + 1) = s.firstSum d b j + s.gv b := by
  rw [State.firstSum, ofNat_succ_mul, ← BitVec.add_assoc, State.firstSum]
theorem secondSum_succ {j : Nat} (h : 1 ≤ j) : s.secondSum d e b (j + 1) = s.secondSum d e b j + s.firstSum d b j := by
  obtain ⟨i, rfl⟩ := Nat.exists_eq_add_of_le' h
  rfl
theorem secondSum_eq (n : Nat) : s.secondSum d e b (n + 1) =
    s.gv e + BitVec.ofNat 64 n * s.gv d + BitVec.ofNat 64 (n * (n + 1) / 2) * s.gv b := by
  induction n with
  | zero => simp [State.secondSum]
  | succ n ih =>
    have triangle : (n + 1) * (n + 1 + 1) / 2 = n * (n + 1) / 2 + (n + 1) := by
      have : (n + 1) * (n + 1 + 1) = n * (n + 1) + (n + 1) * 2 := by ring
      rw [this, Nat.add_mul_div_right _ _ (by decide)]
    rw [secondSum_succ s d e b (Nat.le_add_left 1 n), ih, triangle, State.firstSum, ofNat_succ_mul n (s.gv d), BitVec.ofNat_add (n * (n + 1) / 2)]
    generalize BitVec.ofNat 64 (n + 1) = m
    ring

/-- The results on their way at the head of a stroke. -/
def State.sumsDue (n t : Nat) : List Due :=
  (if 2 ≤ t ∧ t ≤ n + 1 then [⟨t, 1, .g e ⟨s.secondSum d e b t, false⟩, s.fpcr.extractLsb' 8 6⟩] else []) ++
    (if 1 ≤ t ∧ t ≤ n then [⟨t, 0, .g d ⟨s.firstSum d b t, false⟩, s.fpcr.extractLsb' 8 6⟩] else [])

/-- The rig at the head of stroke t: the stages, the strokes left, the results on their way and the sums that have landed. -/
def SumsAt (n t : Nat) (r : RigRun) : Prop :=
  r.stroke = t ∧ Strokes s r.s ∧ SameStore s r.s ∧
  (r.s.core.regs.rigs.fault = false ∧ r.s.core.regs.rigs.iter = BitVec.ofNat 32 (n - t) ∧
    r.s.core.regs.rigs.sv.getLsbD 0 = decide (1 ≤ t ∧ t ≤ n)) ∧
  r.due = s.sumsDue d e b n t ∧
  Sums s d e r.s (s.firstSum d b (min (t - 1) n)) (s.secondSum d e b (t - 1))
end

section
variable {s : State} {d e b : GR} {n t : Nat} {x y v : BitVec 64} {u : State}
theorem Sums.of_regs {w : State} (h : Sums s d e u x y) (g : w.core.regs.g = u.core.regs.g) : Sums s d e w x y := by
  have gv (q : GR) : w.gv q = u.gv q := by rw [State.gv, g, State.gv]
  have gp (q : GR) : w.gp q = u.gp q := by rw [State.gp, g, State.gp]
  obtain ⟨hd, pd, he, pe, same⟩ := h
  exact ⟨(gv d).trans hd, (gp d).trans pd, (gv e).trans he, (gp e).trans pe, fun q hq => ⟨(gv q).trans (same q hq).1, (gp q).trans (same q hq).2⟩⟩
theorem Sums.first (hde : e ≠ d) (h : Sums s d e u x y) : Sums s d e (u.setG d v false) v y := by
  obtain ⟨_, _, he, pe, same⟩ := h
  refine ⟨setG_gv .., setG_gp .., ?_, ?_, fun q hq => ?_⟩
  · rwa [setG_gv_ne _ _ _ _ _ hde]
  · rwa [setG_gp_ne _ _ _ _ _ hde]
  · have other : q ≠ d := fun h => hq (by simp [h])
    rw [setG_gv_ne _ _ _ _ _ other, setG_gp_ne _ _ _ _ _ other]
    exact same q hq
theorem Sums.second (hde : e ≠ d) (h : Sums s d e u x y) : Sums s d e (u.setG e v false) x v := by
  obtain ⟨hd, pd, _, _, same⟩ := h
  refine ⟨?_, ?_, setG_gv .., setG_gp .., fun q hq => ?_⟩
  · rwa [setG_gv_ne _ _ _ _ _ hde.symm]
  · rwa [setG_gp_ne _ _ _ _ _ hde.symm]
  · have other : q ≠ e := fun h => hq (by simp [h])
    rw [setG_gv_ne _ _ _ _ _ other, setG_gp_ne _ _ _ _ _ other]
    exact same q hq

/-- A result has landed in a general register: the core, its `RIGS` and memory are as before. -/
def Lands (u w : State) : Prop := Strokes u w ∧ SameStore u w ∧ w.core.regs.rigs = u.core.regs.rigs
theorem Lands.refl (u : State) : Lands u u := ⟨Strokes.refl u, SameStore.refl u, rfl⟩
theorem Lands.trans {u w z : State} (h : Lands u w) (g : Lands w z) : Lands u z :=
  ⟨h.1.trans g.1, h.2.1.trans g.2.1, g.2.2.trans h.2.2⟩
theorem setG_lands (u : State) (r : GR) (v : BitVec 64) (p : Bool) : Lands u (u.setG r v p) :=
  ⟨setG_strokes u r v p, SameStore.refl u, rfl⟩

/-- The first sum when its result has landed. -/
theorem sumsDue_first (hde : e ≠ d) (flags : u.fpcr = s.fpcr) (h : Sums s d e u (s.firstSum d b (min (t - 1) n)) y) :
    Sums s d e (((s.sumsDue d e b n t).filter (·.index == 0)).foldl State.land u) (s.firstSum d b (min t n)) y ∧
    Lands u (((s.sumsDue d e b n t).filter (·.index == 0)).foldl State.land u) := by
  have due : (s.sumsDue d e b n t).filter (·.index == 0) =
      if 1 ≤ t ∧ t ≤ n then [⟨t, 0, .g d ⟨s.firstSum d b t, false⟩, s.fpcr.extractLsb' 8 6⟩] else [] := by
    unfold State.sumsDue
    split <;> split <;> rfl
  rw [due]
  split
  · next c =>
    have landed := land_g (s := u) (q := ⟨t, 0, .g d ⟨s.firstSum d b t, false⟩, s.fpcr.extractLsb' 8 6⟩) rfl (by rw [flags])
    rw [List.foldl_cons, List.foldl_nil, landed, Nat.min_eq_left c.2]
    exact ⟨h.first hde, setG_lands ..⟩
  · next c =>
    rw [show min t n = min (t - 1) n by omega]
    exact ⟨h, Lands.refl u⟩
/-- The second sum when its result has landed. -/
theorem sumsDue_second (hde : e ≠ d) (ht : t ≤ n + 1) (flags : u.fpcr = s.fpcr) (h : Sums s d e u x (s.secondSum d e b (t - 1))) :
    Sums s d e (((s.sumsDue d e b n t).filter (·.index == 1)).foldl State.land u) x (s.secondSum d e b t) ∧
    Lands u (((s.sumsDue d e b n t).filter (·.index == 1)).foldl State.land u) := by
  have due : (s.sumsDue d e b n t).filter (·.index == 1) =
      if 2 ≤ t ∧ t ≤ n + 1 then [⟨t, 1, .g e ⟨s.secondSum d e b t, false⟩, s.fpcr.extractLsb' 8 6⟩] else [] := by
    unfold State.sumsDue
    split <;> split <;> rfl
  rw [due]
  split
  · have landed := land_g (s := u) (q := ⟨t, 1, .g e ⟨s.secondSum d e b t, false⟩, s.fpcr.extractLsb' 8 6⟩) rfl (by rw [flags])
    rw [List.foldl_cons, List.foldl_nil, landed]
    exact ⟨h.second hde, setG_lands ..⟩
  · next c =>
    have same : s.secondSum d e b t = s.secondSum d e b (t - 1) := by
      rcases t with _ | _ | t
      · rfl
      · rfl
      · exact absurd ⟨by omega, ht⟩ c
    rw [same]
    exact ⟨h, Lands.refl u⟩
/-- The sums when the results on their way have landed. -/
theorem sumsDue_land (hde : e ≠ d) (ht : t ≤ n + 1) (flags : u.fpcr = s.fpcr)
    (h : Sums s d e u (s.firstSum d b (min (t - 1) n)) (s.secondSum d e b (t - 1))) :
    Sums s d e (u.landAt (s.sumsDue d e b n t) t) (s.firstSum d b (min t n)) (s.secondSum d e b t) ∧
    Lands u (u.landAt (s.sumsDue d e b n t) t) := by
  have two : ∀ q ∈ s.sumsDue d e b n t, q.stroke = t ∧ q.index < 2 := by
    unfold State.sumsDue
    grind
  rw [landAt_two two]
  obtain ⟨first, lands⟩ := sumsDue_first hde flags h
  obtain ⟨second, lands'⟩ := sumsDue_second hde ht (lands.1.fpcr.trans flags) first
  exact ⟨second, lands.trans lands'⟩

/-! ## One stroke -/

variable {r : RigRun} {p : BitVec 16}
/-- The rig when stroke t has begun: which stages are valid, and the strokes left. -/
theorem SumsAt.begun (hs : s.core.ctl.priv = .s) (hde : e ≠ d) (hn : n < 2 ^ 32) (ht : t ≤ n + 1) (h : SumsAt s d e b n t r) :
    Strokes s (r.begun 1).s ∧ SameStore s (r.begun 1).s ∧
    ((r.begun 1).s.core.regs.rigs.fault = false ∧ (r.begun 1).s.core.regs.rigs.iter = BitVec.ofNat 32 (n - (t + 1))) ∧
    ((r.begun 1).s.core.regs.rigs.sv.getLsbD 0 = decide (t < n) ∧
      (r.begun 1).s.core.regs.rigs.sv.getLsbD 1 = decide (1 ≤ t ∧ t ≤ n) ∧
      ((r.begun 1).s.core.regs.rigs.sv = 0 ↔ ¬ t < n ∧ ¬ (1 ≤ t ∧ t ≤ n))) ∧
    (r.begun 1).due = [] ∧ Sums s d e (r.begun 1).s (s.firstSum d b (min t n)) (s.secondSum d e b t) := by
  obtain ⟨stroke, strokes, store, ⟨fault, iter, sv⟩, due, sums⟩ := h
  obtain ⟨lapse, lapsed, regs⟩ := strokeTime_lapses r.s r.stroke
  have strokes' := strokes.trans lapse
  obtain ⟨landed, lands, kept, rigs⟩ := sumsDue_land (u := r.s.strokeTime r.stroke) (n := n) hde ht strokes'.fpcr
    (sums.of_regs (congrArg Regs.g regs))
  have head : r.head = (r.s.strokeTime r.stroke).landAt (s.sumsDue d e b n t) t := by rw [RigRun.head, due, stroke]
  rw [← head] at landed lands kept rigs
  have rigs : r.head.core.regs.rigs = r.s.core.regs.rigs := rigs.trans (congrArg Regs.rigs regs)
  have priv : r.head.core.ctl.priv = .s := (strokes'.trans lands).2.1.trans hs
  have began := begun_at_s (r := r) 1 priv (by rw [rigs, fault])
  obtain ⟨some_left, fewer⟩ := strokes_left (n := n) (t := t) hn
  obtain ⟨bit0, bit1, zero⟩ := stages_bits r.s.core.regs.rigs.sv (decide (t < n))
  have now : (r.begun 1).s.core.regs.rigs = { r.s.core.regs.rigs with
      sv := (r.s.core.regs.rigs.sv <<< 1 ||| (BitVec.ofBool (decide (t < n))).setWidth 8) &&& BitVec.ofNat 8 (2 ^ (1 + 1) - 1),
      iter := BitVec.ofNat 32 (n - (t + 1)) } := by
    rw [began, ← some_left, ← fewer, ← iter, ← rigs]
    rfl
  have none_due : (r.begun 1).due = [] := by
    refine List.filter_eq_nil_iff.mpr fun q hq => ?_
    rw [due] at hq
    have : q.stroke = t := by
      unfold State.sumsDue at hq
      grind
    simp [this, stroke]
  refine ⟨?_, ?_, ⟨by rw [now]; exact fault, by rw [now]⟩, ⟨by rw [now]; exact bit0, ?_, ?_⟩, none_due, ?_⟩
  · rw [began]
    exact (strokes'.trans lands).trans (onRigs_strokes ..)
  · rw [began]
    exact (store.trans lapsed).trans kept
  · rw [now]
    exact bit1.trans sv
  · rw [now, zero, sv]
    simp
  · rw [began]
    exact landed.of_regs rfl

/-- The two additions. -/
def sumEntries (d e b : GR) : List (Nat × RigOp) := [(0, .onG d 1 (addBody d d b)), (1, .onG e 1 (addBody e e d))]
theorem addBody_atEntry (u : State) (i : Nat) (d a b : GR) :
    addBody d a b (u.atEntry p i) = .ok ((u.atEntry p i).setG d (u.gv a + u.gv b) (u.gp a || u.gp b)) := rfl
/-- A stroke runs the entries of its valid stages, and the next one begins. -/
theorem SumsAt.next (hs : s.core.ctl.priv = .s) (hdb : d ≠ b) (hed : e ≠ d) (heb : e ≠ b) (hb : s.gp b = false) (hn : n < 2 ^ 32)
    (ht : t ≤ n + 1) (h : SumsAt s d e b n t r) :
    SumsAt s d e b n (t + 1) { RigRun.entries (r.begun 1) p 0 (sumEntries d e b) with
      stroke := (RigRun.entries (r.begun 1) p 0 (sumEntries d e b)).stroke + 1 } := by
  have stroke : (r.begun 1).stroke = t := h.1
  obtain ⟨strokes, store, ⟨fault, iter⟩, ⟨bit0, bit1, _⟩, none_due, sums⟩ := h.begun hs hed hn ht
  generalize r.begun 1 = u at *
  obtain ⟨strokes₁, store₁, regs₁, stroke₁, due₁⟩ := entry_onG_leaves (stage := 0) (lat := 1) (addBody_atEntry (p := p) u.s 0 d d b)
  change SumsAt s d e b n (t + 1) { RigRun.entry (RigRun.entry u p 0 0 (.onG d 1 (addBody d d b))) p 1 1 (.onG e 1 (addBody e e d)) with
      stroke := (RigRun.entry (RigRun.entry u p 0 0 (.onG d 1 (addBody d d b))) p 1 1 (.onG e 1 (addBody e e d))).stroke + 1 }
  generalize u.entry p 0 0 (.onG d 1 (addBody d d b)) = v at *
  obtain ⟨strokes₂, store₂, regs₂, stroke₂, due₂⟩ := entry_onG_leaves (stage := 1) (lat := 1) (addBody_atEntry (p := p) v.s 1 e e d)
  generalize v.entry p 1 1 (.onG e 1 (addBody e e d)) = w at *
  have sums₁ : Sums s d e v.s _ _ := sums.of_regs (by rw [regs₁])
  have sums₂ : Sums s d e w.s _ _ := sums₁.of_regs (by rw [regs₂])
  have rigs : w.s.core.regs.rigs = { u.s.core.regs.rigs with slot := BitVec.ofNat 5 1 } := by rw [regs₂, regs₁]
  have all := (strokes.trans strokes₁).trans strokes₂
  refine ⟨by rw [stroke₂, stroke₁, stroke], all, (store.trans store₁).trans store₂,
    ⟨by rw [rigs]; exact fault, by rw [rigs]; exact iter, by rw [rigs]; exact bit0.trans (by simp)⟩, ?_, sums₂⟩
  obtain ⟨hd, pd, he, pe, same⟩ := sums
  obtain ⟨hd₁, pd₁, he₁, pe₁, _⟩ := sums₁
  obtain ⟨vb, pb⟩ := same b (by simp [Ne.symm hdb, Ne.symm heb])
  dsimp only
  rw [due₂, due₁, none_due, List.append_nil, stroke₁, stroke, (strokes.trans strokes₁).fpcr, strokes.fpcr,
    show v.s.core.regs.rigs.sv = u.s.core.regs.rigs.sv by rw [regs₁], bit0, bit1, hd, pd, vb, pb.trans hb, he₁, pe₁, hd₁, pd₁]
  unfold State.sumsDue
  congr 1
  · refine if_ctx_congr (by simp) (fun c => ?_) fun _ => rfl
    rw [secondSum_succ s d e b (by omega), Nat.min_eq_left (by omega)]
    rfl
  · refine if_ctx_congr (by simp) (fun c => ?_) fun _ => rfl
    rw [firstSum_succ, Nat.min_eq_left (by omega)]
    rfl
/-- All strokes: every result has landed, and no stage is valid. -/
theorem SumsAt.loop (hs : s.core.ctl.priv = .s) (hdb : d ≠ b) (hed : e ≠ d) (heb : e ≠ b) (hb : s.gp b = false) (hn : n < 2 ^ 32)
    (k : Nat) : ∀ {t r}, t ≤ n + 1 → 1 ≤ n → n + 1 < k + t → SumsAt s d e b n t r →
    let u := r.loop p 1 (sumEntries d e b) k
    Strokes s u.s ∧ SameStore s u.s ∧ (u.s.core.regs.rigs.fault = false ∧ u.s.core.regs.rigs.iter = 0) ∧ u.due = [] ∧
    Sums s d e u.s (s.firstSum d b n) (s.secondSum d e b (n + 1)) := by
  induction k with
  | zero => intro t r ht _ hk _; omega
  | succ k ih =>
    intro t r ht one hk h
    dsimp only
    rw [loop_succ]
    obtain ⟨strokes, store, ⟨fault, iter⟩, ⟨_, _, stages⟩, none_due, sums⟩ := h.begun hs hed hn ht
    split
    · next done =>
      obtain ⟨ended, idle⟩ := stages.mp done
      obtain rfl : t = n + 1 := by omega
      rw [Nat.min_eq_right (by omega)] at sums
      rw [Nat.sub_eq_zero_of_le (by omega)] at iter
      exact ⟨strokes, store, ⟨fault, iter⟩, none_due, sums⟩
    · next more =>
      have left : t ≤ n := by
        by_contra ended
        exact more (stages.mpr ⟨by omega, by omega⟩)
      exact ih (by omega) one (by omega) (h.next hs hdb hed heb hb hn ht)
end

/-! ## The end of a rig at S -/

theorem landAll_none (r : RigRun) (h : r.due = []) : r.landAll = r.s := by
  simp [RigRun.landAll, h, landAt_nil]
/-- With nothing waiting at the ports there is nothing to perform. -/
theorem drainStores_idle {s : State} (h : ∀ k, (s.coreAt k).sh.port = []) : s.drainStores = s := by
  refine List.foldl_fixed' (fun k => ?_) _
  simp [h]
/-- A rig that ran to its end at S passes on behind its entries. -/
theorem leaveRig_passes {w : State} (record : BitVec 64) (p exit : BitVec 16) (hs : w.core.ctl.priv = .s)
    (hf : w.core.regs.rigs.fault = false) (hi : w.core.regs.rigs.iter = 0) :
    (w.strokesOver p).leaveRig record p exit = (w.strokesOver p).commitTo exit := by
  have fault : (w.strokesOver p).core.regs.rigs.fault = false := hf
  have active : (w.strokesOver p).core.regs.rigs.active = false := by
    change (w.core.regs.rigs.iter != 0 && !w.core.regs.rigs.fault) = false
    rw [hi]
    rfl
  have at_s : ((w.strokesOver p).commitTo exit).core.ctl.takesAsync = false := by
    change (w.core.ctl.priv == .u && !false && true) = false
    rw [hs]
    rfl
  unfold State.leaveRig
  rw [if_neg (by simp [fault]), if_neg (by simp [active]), takePending_idle (.inl at_s)]
theorem close_at_s {s : State} {r : RigRun} (p exit : BitVec 16) (hs : s.core.ctl.priv = .s) (h : Strokes s r.s)
    (fault : r.s.core.regs.rigs.fault = false) (iter : r.s.core.regs.rigs.iter = 0) (due : r.due = []) :
    let t := r.close p exit
    t.core.regs.g = r.s.core.regs.g ∧ t.core.regs = { s.core.regs with g := t.core.regs.g, rigs := t.core.regs.rigs } ∧
    t.core.eng = s.core.eng ∧ t.pc = exit ∧ t.core.ctl.priv = .s ∧
    ((∀ k, (s.coreAt k).sh.port = []) → t.here = s.here ∧ SameStore r.s t) := by
  obtain ⟨here, priv, regs, eng, port⟩ := h
  obtain ⟨⟨here', ctl'⟩, regs', eng'⟩ := drainStores_sameCore r.s
  have none_waits (ports : ∀ k, (s.coreAt k).sh.port = []) : r.s.drainStores = r.s := drainStores_idle fun k => (port k).trans (ports k)
  dsimp only
  rw [close_eq, landAll_none r due]
  generalize r.s.drainStores = w at *
  rw [leaveRig_passes r.record p exit (by rw [ctl', priv, hs]) (by rw [regs', fault]) (by rw [regs', iter])]
  have g : ((w.strokesOver p).commitTo exit).core.regs.g = w.core.regs.g := rfl
  have kept : ((w.strokesOver p).commitTo exit).core.regs =
      { w.core.regs with rigs := ((w.strokesOver p).commitTo exit).core.regs.rigs } := rfl
  refine ⟨by rw [g, regs'], ?_, eng'.trans eng, rfl, (congrArg Ctl.priv ctl').trans (priv.trans hs), fun ports => ?_⟩
  · rw [g]
    rw [regs', regs] at kept
    rw [kept, regs']
  · rw [none_waits ports]
    exact ⟨here, SameStore.refl _⟩

/-- A rig of n strokes as it opens. -/
def State.rigOpened (s : State) (n : BitVec 32) (l : BitVec 5) : RigRun :=
  ⟨(s.onRigs fun _ => ⟨n, 0, false, true, l, 0⟩).onCtl fun k => { k with riga := true }, [], 0, 0⟩
theorem rigRun_eq (s : State) (n : BitVec 32) (l : BitVec 5) (es : List (Nat × RigOp)) : s.rigRun n l es =
    ((s.rigOpened n l).loop s.pc (es.foldl (fun d e => max d e.1) 0) es (n.toNat + 9)).close s.pc (s.entryAt (l.toNat + 1)) := rfl

section
variable {s : State} {d e b : GR} {n : BitVec 32}
theorem SumsAt.opened (hd : s.gp d = false) (he : s.gp e = false) : SumsAt s d e b n.toNat 0 (s.rigOpened n 1) := by
  have count : n = BitVec.ofNat 32 (n.toNat - 0) := by simp
  have first : s.gv d = s.firstSum d b (min (0 - 1) n.toNat) := by simp [State.firstSum]
  refine ⟨rfl, strokes_core rfl rfl rfl rfl, SameStore.refl s, ⟨rfl, count, ?_⟩, ?_, first, hd, rfl, he, fun _ _ => ⟨rfl, rfl⟩⟩
  · simp [State.rigOpened, State.onRigs, State.onRegs, State.onCtl]
  · simp [State.sumsDue, State.rigOpened]
/-- What is known of a rig of two additions behind its last stroke holds when it is left. -/
theorem close_sums {r : RigRun} (p exit : BitVec 16) {x y : BitVec 64} (hs : s.core.ctl.priv = .s) (strokes : Strokes s r.s)
    (store : SameStore s r.s) (fault : r.s.core.regs.rigs.fault = false) (iter : r.s.core.regs.rigs.iter = 0) (due : r.due = [])
    (sums : Sums s d e r.s x y) :
    Sums s d e (r.close p exit) x y ∧ SameV s (r.close p exit) ∧ (r.close p exit).fpcr = s.fpcr ∧ (r.close p exit).pc = exit ∧
    (r.close p exit).core.ctl.priv = .s ∧ ((∀ k, (s.coreAt k).sh.port = []) → SameStore s (r.close p exit)) := by
  obtain ⟨g, regs, eng, pc, priv, ports⟩ := close_at_s (r := r) p exit hs strokes fault iter due
  generalize r.close p exit = t at *
  refine ⟨sums.of_regs g, ⟨?_, ?_, eng⟩, ?_, pc, priv, fun hp => store.trans (ports hp).2⟩
  · rw [regs]
  · rw [regs]
  · rw [State.fpcr, regs]
    rfl
/-- The rig of two additions, of n strokes. -/
theorem rigRun_sums (hs : s.core.ctl.priv = .s) (hdb : d ≠ b) (hed : e ≠ d) (heb : e ≠ b) (hb : s.gp b = false) (hd : s.gp d = false)
    (he : s.gp e = false) (h : n ≠ 0) :
    Sums s d e (s.rigRun n 1 (sumEntries d e b)) (s.firstSum d b n.toNat) (s.secondSum d e b (n.toNat + 1)) ∧
    SameV s (s.rigRun n 1 (sumEntries d e b)) ∧ (s.rigRun n 1 (sumEntries d e b)).fpcr = s.fpcr ∧
    (s.rigRun n 1 (sumEntries d e b)).pc = s.entryAt ((1 : BitVec 5).toNat + 1) ∧
    (s.rigRun n 1 (sumEntries d e b)).core.ctl.priv = .s ∧
    ((∀ k, (s.coreAt k).sh.port = []) → SameStore s (s.rigRun n 1 (sumEntries d e b))) := by
  have one : 1 ≤ n.toNat := Nat.one_le_iff_ne_zero.mpr fun z => h (BitVec.eq_of_toNat_eq z)
  have deep : (sumEntries d e b).foldl (fun d e => max d e.1) 0 = 1 := rfl
  rw [rigRun_eq, deep]
  obtain ⟨strokes, store, ⟨fault, iter⟩, due, sums⟩ :=
    (SumsAt.opened hd he).loop (p := s.pc) hs hdb hed heb hb n.isLt (n.toNat + 9) (Nat.zero_le _) one (by omega)
  exact close_sums _ _ hs strokes store fault iter due sums
end

end Sys2Proof.Machine
end

section

/-! A rig of a store and the pointer it goes by (R151, R165, R175, R219). -/

namespace Sys2Proof.Machine

/-! ## What a store into the own scratchpad leaves at the ports -/

section
variable (s : State)
theorem send_peers (p : Packet) : (s.send p).peers = s.peers := by
  unfold State.send
  split
  · split
    · rfl
    · rfl
  · split
    · rfl
    · rfl
theorem sends_peers {α : Type} (f : α → Packet) (l : List α) : ∀ s : State, (l.foldl (fun s w => s.send (f w)) s).peers = s.peers := by
  induction l with
  | nil => exact fun _ => rfl
  | cons w l ih => exact fun s => (ih _).trans (send_peers s _)
theorem fire_peers (old : State) (k off n : Nat) (p st : Bool) : (s.fire old k off n p st).peers = s.peers := by
  unfold State.fire
  dsimp only
  split
  · exact sends_peers _ _ _
  · rfl
theorem wakeFlags_peers {k : Nat} (hk : k = s.here) (off n : Nat) : (s.wakeFlags k off n).peers = s.peers := by
  unfold State.wakeFlags
  dsimp only
  split
  · rfl
  · rw [State.setCore, if_pos hk]
theorem storeOf_peers (st : Bool) (off : Nat) (l : List (BitVec 8)) (p : Bool) : (s.storeOf st off l p).peers = s.peers := by
  have fired := fire_peers (s.poke (nodeBase s.here + off) l p) s s.here off l.length p st
  have here : ((s.poke (nodeBase s.here + off) l p).fire s s.here off l.length p st).here = s.here := by
    rw [(fire_same _ _ _ _ _ _ _).1]
    rfl
  rw [State.storeOf, retag_peers, State.writeOf]
  split
  · exact (wakeFlags_peers _ here.symm _ _).trans fired
  · exact fired
/-- A store into the own scratchpad leaves all of the core but slots, and the ports. -/
theorem storeOf_strokes (st : Bool) (off : Nat) (l : List (BitVec 8)) (p : Bool) : Strokes s (s.storeOf st off l p) := by
  obtain ⟨⟨here, ctl⟩, regs, eng⟩ := storeOf_sameCore s st off l p
  obtain ⟨_, _, _, sh⟩ := (writeOf_same s st s.here off l p).2.1
  refine ⟨here, by rw [ctl], by rw [regs], eng, fun k => ?_⟩
  rw [State.coreAt, State.coreAt, here, storeOf_peers]
  split
  · rw [State.storeOf, retag_core, sh]
    rfl
  · rfl
end

/-! ## The rig -/

/-- The pointer after t strokes. -/
def State.pointer (s : State) (x : GR) (t : Nat) : BitVec 64 := s.gv x + 8 * BitVec.ofNat 64 t
/-- The dwords that t strokes have stored, and the bytes around them. -/
def Filled (s u : State) (r : GR) (off t : Nat) : Prop :=
  (∀ j, j < t → ∀ i, i < 8 → u.byte (nodeBase s.here + off + 8 * j + i) = (s.gv r).extractLsb' (8 * i) 8) ∧
  SameBytesBut s u (nodeBase s.here + off) (8 * t)
/-- The register of the pointer, and the others. -/
def Points (s u : State) (x : GR) (v : BitVec 64) : Prop := u.gv x = v ∧ u.gp x = false ∧ SameG s u [x]
/-- The results on their way at the head of a stroke: none of the store, and the pointer. -/
def State.fillDue (s : State) (x : GR) (t : Nat) : List Due :=
  if 1 ≤ t then [⟨t, 1, .g x ⟨s.pointer x t, false⟩, s.fpcr.extractLsb' 8 6⟩, ⟨t, 0, .none, s.fpcr.extractLsb' 8 6⟩] else []
/-- The rig at the head of stroke t. -/
def FillsAt (s : State) (r x : GR) (off n t : Nat) (q : RigRun) : Prop :=
  q.stroke = t ∧ Strokes s q.s ∧ (q.s.core.regs.rigs.fault = false ∧ q.s.core.regs.rigs.iter = BitVec.ofNat 32 (n - t)) ∧
  q.due = s.fillDue x t ∧ Points s q.s x (s.pointer x (t - 1)) ∧ Filled s q.s r off t
/-- The store and the pointer. -/
def fillEntries (r x : GR) : List (Nat × RigOp) := [(0, .noResult (stBody r x .w64 0)), (0, .onG x 1 (addiBody x x 8))]

section
variable {s u w : State} {r x : GR} {off n t : Nat} {v : BitVec 64}
theorem Points.of_regs (h : Points s u x v) (g : w.core.regs.g = u.core.regs.g) : Points s w x v := by
  have gv (q : GR) : w.gv q = u.gv q := by rw [State.gv, g, State.gv]
  have gp (q : GR) : w.gp q = u.gp q := by rw [State.gp, g, State.gp]
  obtain ⟨hx, px, same⟩ := h
  exact ⟨(gv x).trans hx, (gp x).trans px, fun q hq => ⟨(gv q).trans (same q hq).1, (gp q).trans (same q hq).2⟩⟩
theorem Points.set {v' : BitVec 64} (h : Points s u x v) : Points s (u.setG x v' false) x v' := by
  obtain ⟨_, _, same⟩ := h
  refine ⟨setG_gv .., setG_gp .., fun q hq => ?_⟩
  have other : q ≠ x := fun h => hq (by simp [h])
  rw [setG_gv_ne _ _ _ _ _ other, setG_gp_ne _ _ _ _ _ other]
  exact same q hq
theorem Filled.of_store (h : Filled s u r off t) (g : SameStore u w) : Filled s w r off t := by
  have byte (b : Nat) : w.byte b = u.byte b := by rw [State.byte, State.byte, g.1]
  exact ⟨fun j hj i hi => (byte _).trans (h.1 j hj i hi), fun b hb => (byte b).trans (h.2 b hb)⟩
theorem pointer_succ (t : Nat) : s.pointer x (t + 1) = s.pointer x t + 8 := by
  rw [State.pointer, State.pointer, BitVec.mul_comm, ofNat_succ_mul, BitVec.mul_comm, BitVec.add_assoc]
theorem pointer_own (hx : s.gv x = ownAddr off) (t : Nat) : s.pointer x t = ownAddr (off + 8 * t) := by
  induction t with
  | zero => simp [State.pointer, hx]
  | succ t ih =>
    rw [pointer_succ, ih, ownAddr, ownAddr, BitVec.add_assoc]
    congr 1
    rw [show off + 8 * (t + 1) = off + 8 * t + 8 by ring]
    exact (BitVec.ofNat_add (off + 8 * t) 8).symm
/-- The pointer when the results on their way have landed. -/
theorem fillDue_land (flags : u.fpcr = s.fpcr) (h : Points s u x (s.pointer x (t - 1))) :
    Points s (u.landAt (s.fillDue x t) t) x (s.pointer x t) ∧ Lands u (u.landAt (s.fillDue x t) t) := by
  have none := land_none (s := u) (q := ⟨t, 0, .none, s.fpcr.extractLsb' 8 6⟩) rfl (by rw [flags])
  have landed := land_g (s := u) (q := ⟨t, 1, .g x ⟨s.pointer x t, false⟩, s.fpcr.extractLsb' 8 6⟩) rfl (by rw [flags])
  unfold State.fillDue
  split
  · have first (a b : Due) (ha : a.index = 1) (hb : b.index = 0) : [a, b].filter (·.index == 0) = [b] := by simp [ha, hb]
    have second (a b : Due) (ha : a.index = 1) (hb : b.index = 0) : [a, b].filter (·.index == 1) = [a] := by simp [ha, hb]
    rw [landAt_two (by simp), first _ _ rfl rfl, second _ _ rfl rfl, List.foldl_cons, List.foldl_nil, List.foldl_cons, List.foldl_nil,
      none, landed]
    exact ⟨h.set, setG_lands ..⟩
  · next z =>
    rw [landAt_nil]
    have z : t - 1 = t := by omega
    rw [z] at h
    exact ⟨h, Lands.refl u⟩

variable {q : RigRun} {p : BitVec 16}
/-- The rig when stroke t has begun. -/
theorem FillsAt.begun (hs : s.core.ctl.priv = .s) (hn : n < 2 ^ 32) (h : FillsAt s r x off n t q) :
    Strokes s (q.begun 0).s ∧
    ((q.begun 0).s.core.regs.rigs.fault = false ∧ (q.begun 0).s.core.regs.rigs.iter = BitVec.ofNat 32 (n - (t + 1))) ∧
    ((q.begun 0).s.core.regs.rigs.sv.getLsbD 0 = decide (t < n) ∧ ((q.begun 0).s.core.regs.rigs.sv = 0 ↔ ¬ t < n)) ∧
    (q.begun 0).due = [] ∧ Points s (q.begun 0).s x (s.pointer x t) ∧ Filled s (q.begun 0).s r off t := by
  obtain ⟨stroke, strokes, ⟨fault, iter⟩, due, points, filled⟩ := h
  obtain ⟨lapse, lapsed, regs⟩ := strokeTime_lapses q.s q.stroke
  have strokes' := strokes.trans lapse
  obtain ⟨landed, lands, kept, rigs⟩ := fillDue_land (u := q.s.strokeTime q.stroke) (t := t) strokes'.fpcr
    (points.of_regs (congrArg Regs.g regs))
  have head : q.head = (q.s.strokeTime q.stroke).landAt (s.fillDue x t) t := by rw [RigRun.head, due, stroke]
  rw [← head] at landed lands kept rigs
  have rigs : q.head.core.regs.rigs = q.s.core.regs.rigs := rigs.trans (congrArg Regs.rigs regs)
  have priv : q.head.core.ctl.priv = .s := (strokes'.trans lands).2.1.trans hs
  have began := begun_at_s (r := q) 0 priv (by rw [rigs, fault])
  obtain ⟨some_left, fewer⟩ := strokes_left (n := n) (t := t) hn
  obtain ⟨bit0, zero⟩ := stage_bit q.s.core.regs.rigs.sv (decide (t < n))
  have now : (q.begun 0).s.core.regs.rigs = { q.s.core.regs.rigs with
      sv := (q.s.core.regs.rigs.sv <<< 1 ||| (BitVec.ofBool (decide (t < n))).setWidth 8) &&& BitVec.ofNat 8 (2 ^ (0 + 1) - 1),
      iter := BitVec.ofNat 32 (n - (t + 1)) } := by
    rw [began, ← some_left, ← fewer, ← iter, ← rigs]
    rfl
  have none_due : (q.begun 0).due = [] := by
    refine List.filter_eq_nil_iff.mpr fun d hd => ?_
    rw [due] at hd
    have : d.stroke = t := by
      unfold State.fillDue at hd
      grind
    simp [this, stroke]
  refine ⟨?_, ⟨by rw [now]; exact fault, by rw [now]⟩, ⟨by rw [now]; exact bit0, ?_⟩, none_due, ?_, ?_⟩
  · rw [began]
    exact (strokes'.trans lands).trans (onRigs_strokes ..)
  · rw [now, zero]
    simp
  · rw [began]
    exact landed.of_regs rfl
  · rw [began]
    exact filled.of_store ((lapsed.trans kept).trans (SameStore.refl _))

/-- The store writes the next dword. -/
theorem Filled.succ (hw : w.here = s.here) (ho : (off + 8 * t) % 8 = 0) (h : Filled s w r off t) (hr : w.gv r = s.gv r) :
    Filled s (w.storeOf true (off + 8 * t) (leBytes 8 (w.gv r).toNat) false) r off (t + 1) := by
  have length : (leBytes 8 (w.gv r).toNat).length = 8 := leBytes_length ..
  have outside := storeOf_byte_out w true (off + 8 * t) (leBytes 8 (w.gv r).toNat) false
  rw [length, hw] at outside
  obtain ⟨stored, around⟩ := h
  refine ⟨fun j hj i hi => ?_, fun b hb => ?_⟩
  · by_cases last : j = t
    · subst last
      have byte := storeOf_byte_in w true (off + 8 * j) (leBytes 8 (w.gv r).toNat) false (i := i) (by omega)
      rw [hw, leBytes_extract] at byte
      rw [Nat.add_assoc (nodeBase s.here), byte, hr]
    · rw [outside _ (by omega), stored j (by omega) i hi]
  · rw [outside b (by omega), around b (by omega)]

/-- The first entry of a stroke stores a dword. -/
theorem entry_stores {u : RigRun} (hrx : r ≠ x) (hX : keyX s.here ≤ 319) (hY : keyY s.here ≤ 159) (hx : s.gv x = ownAddr off)
    (ho : off % 8 = 0) (hend : off + 8 * t < 0x10000) (hpr : s.gp r = false) (valid : u.s.core.regs.rigs.sv.getLsbD 0 = true)
    (strokes : Strokes s u.s) (points : Points s u.s x (s.pointer x t)) (filled : Filled s u.s r off t) :
    let y := u.entry p 0 0 (.noResult (stBody r x .w64 0))
    Strokes s y.s ∧ y.s.core.regs.rigs = { u.s.core.regs.rigs with slot := BitVec.ofNat 5 0 } ∧ y.stroke = u.stroke ∧
    y.due = ⟨u.stroke + 1, 0, .none, s.fpcr.extractLsb' 8 6⟩ :: u.due ∧ Points s y.s x (s.pointer x t) ∧ Filled s y.s r off (t + 1) := by
  have at0 := strokes.trans (atEntry_strokes u.s p 0)
  have ⟨gx, px, same⟩ := points.of_regs (w := u.s.atEntry p 0) rfl
  obtain ⟨gr, pr⟩ := same r (by simp [hrx])
  have path : (u.s.atEntry p 0).path ((u.s.atEntry p 0).gv x + (0 : BitVec 13).signExtend 64) StW.w64.bytes = .own (off + 8 * t) := by
    have addr : (u.s.atEntry p 0).gv x + (0 : BitVec 13).signExtend 64 = ownAddr (off + 8 * t) := by
      rw [gx, pointer_own hx]
      exact BitVec.add_zero _
    rw [addr, path_ownAddr _ (by rw [at0.1]; exact hX) (by rw [at0.1]; exact hY) (by omega), if_neg (by omega)]
    exact if_neg (by simp [StW.bytes]; omega)
  have run := stBody_own (w := .w64) r px path
  rw [pr.trans hpr] at run
  have strokes₁ := storeOf_strokes (u.s.atEntry p 0) true (off + 8 * t) (leBytes StW.w64.bytes ((u.s.atEntry p 0).gv r).toNat) false
  have regs₁ := (storeOf_core (u.s.atEntry p 0) true (off + 8 * t) (leBytes StW.w64.bytes ((u.s.atEntry p 0).gv r).toNat) false).1
  have filled₁ : Filled s ((u.s.atEntry p 0).storeOf true (off + 8 * t) (leBytes StW.w64.bytes ((u.s.atEntry p 0).gv r).toNat) false)
      r off (t + 1) := Filled.succ (w := u.s.atEntry p 0) at0.1 (by omega) filled gr
  generalize (u.s.atEntry p 0).storeOf true (off + 8 * t) (leBytes StW.w64.bytes ((u.s.atEntry p 0).gv r).toNat) false = v at *
  dsimp only
  rw [entry_noResult valid run]
  have flags : v.fpcr.extractLsb' 8 6 = s.fpcr.extractLsb' 8 6 := congrArg _ (at0.trans strokes₁).fpcr
  refine ⟨(at0.trans strokes₁).trans (count_strokes v 2), ?_, rfl, by rw [flags], points.of_regs ?_, filled₁.of_store (SameStore.refl _)⟩
  · rw [count_core_regs, regs₁]
    rfl
  · rw [count_core_regs, regs₁]
    rfl
/-- A stroke stores a dword and moves the pointer on. -/
theorem FillsAt.next (hs : s.core.ctl.priv = .s) (hrx : r ≠ x) (hX : keyX s.here ≤ 319) (hY : keyY s.here ≤ 159)
    (hx : s.gv x = ownAddr off) (ho : off % 8 = 0) (hend : off + 8 * n ≤ 0x10000) (hpr : s.gp r = false) (hn : n < 2 ^ 32) (ht : t < n)
    (h : FillsAt s r x off n t q) :
    FillsAt s r x off n (t + 1) { RigRun.entries (q.begun 0) p 0 (fillEntries r x) with
      stroke := (RigRun.entries (q.begun 0) p 0 (fillEntries r x)).stroke + 1 } := by
  have stroke : (q.begun 0).stroke = t := h.1
  obtain ⟨strokes, ⟨fault, iter⟩, ⟨bit0, _⟩, none_due, points, filled⟩ := h.begun hs hn
  generalize q.begun 0 = u at *
  have valid : u.s.core.regs.rigs.sv.getLsbD 0 = true := bit0.trans (decide_eq_true ht)
  obtain ⟨strokes₁, rigs₁, stroke₁, due₁, points₁, filled₁⟩ :=
    entry_stores (p := p) hrx hX hY hx ho (by omega) hpr valid strokes points filled
  change FillsAt s r x off n (t + 1) { RigRun.entry (RigRun.entry u p 0 0 (.noResult (stBody r x .w64 0))) p 1 0 (.onG x 1 (addiBody x x 8)) with
      stroke := (RigRun.entry (RigRun.entry u p 0 0 (.noResult (stBody r x .w64 0))) p 1 0 (.onG x 1 (addiBody x x 8))).stroke + 1 }
  generalize u.entry p 0 0 (.noResult (stBody r x .w64 0)) = y at *
  have ⟨gx, px, _⟩ := points₁
  have add : addiBody x x 8 (y.s.atEntry p 1) = .ok ((y.s.atEntry p 1).setG x (s.pointer x (t + 1)) false) := by
    have step : y.s.gv x + (8 : BitVec 16).signExtend 64 = s.pointer x (t + 1) := by
      rw [gx, pointer_succ]
      rfl
    rw [← step, ← px]
    rfl
  obtain ⟨strokes₂, store₂, regs₂, stroke₂, due₂⟩ := entry_onG_leaves (stage := 0) (lat := 1) add
  generalize y.entry p 1 0 (.onG x 1 (addiBody x x 8)) = z at *
  refine ⟨by rw [stroke₂, stroke₁, stroke], strokes₁.trans strokes₂, ⟨?_, ?_⟩, ?_, points₁.of_regs (by rw [regs₂]), filled₁.of_store store₂⟩
  · rw [regs₂, rigs₁]
    exact fault
  · rw [regs₂, rigs₁]
    exact iter
  · dsimp only
    rw [due₂, rigs₁, if_pos valid, due₁, none_due, stroke₁, stroke, strokes₁.fpcr, State.fillDue, if_pos (by omega)]
    rfl
/-- All strokes: every dword is stored, and no stage is valid. -/
theorem FillsAt.loop (hs : s.core.ctl.priv = .s) (hrx : r ≠ x) (hX : keyX s.here ≤ 319) (hY : keyY s.here ≤ 159)
    (hx : s.gv x = ownAddr off) (ho : off % 8 = 0) (hend : off + 8 * n ≤ 0x10000) (hpr : s.gp r = false) (hn : n < 2 ^ 32) (k : Nat) :
    ∀ {t q}, t ≤ n → n < k + t → FillsAt s r x off n t q →
    let u := q.loop p 0 (fillEntries r x) k
    Strokes s u.s ∧ (u.s.core.regs.rigs.fault = false ∧ u.s.core.regs.rigs.iter = 0) ∧ u.due = [] ∧
    Points s u.s x (s.pointer x n) ∧ Filled s u.s r off n := by
  induction k with
  | zero => intro t q ht hk _; omega
  | succ k ih =>
    intro t q ht hk h
    dsimp only
    rw [loop_succ]
    obtain ⟨strokes, ⟨fault, iter⟩, ⟨_, stages⟩, none_due, points, filled⟩ := h.begun hs hn
    split
    · next done =>
      obtain rfl : t = n := by
        have := stages.mp done
        omega
      rw [Nat.sub_eq_zero_of_le (by omega)] at iter
      exact ⟨strokes, ⟨fault, iter⟩, none_due, points, filled⟩
    · next more =>
      have left : t < n := by
        by_contra ended
        exact more (stages.mpr ended)
      exact ih left (by omega) (h.next hs hrx hX hY hx ho hend hpr hn left)
theorem FillsAt.opened {c : BitVec 32} (hpx : s.gp x = false) : FillsAt s r x off c.toNat 0 (s.rigOpened c 1) := by
  have count : c = BitVec.ofNat 32 (c.toNat - 0) := by simp
  have start : s.gv x = s.pointer x (0 - 1) := by simp [State.pointer]
  exact ⟨rfl, strokes_core rfl rfl rfl rfl, ⟨rfl, count⟩, rfl, ⟨start, hpx, fun _ _ => ⟨rfl, rfl⟩⟩,
    fun j hj => absurd hj (Nat.not_lt_zero j), fun _ _ => rfl⟩
/-- What is known of the rig behind its last stroke holds when it is left. -/
theorem close_fills {exit : BitVec 16} (hs : s.core.ctl.priv = .s) (strokes : Strokes s q.s)
    (fault : q.s.core.regs.rigs.fault = false) (iter : q.s.core.regs.rigs.iter = 0) (due : q.due = [])
    (ports : ∀ k, (s.coreAt k).sh.port = []) (points : Points s q.s x v) (filled : Filled s q.s r off n) :
    Points s (q.close p exit) x v ∧ Filled s (q.close p exit) r off n ∧ SameV s (q.close p exit) ∧ (q.close p exit).fpcr = s.fpcr ∧
    (q.close p exit).pc = exit := by
  obtain ⟨g, regs, eng, pc, _, left⟩ := close_at_s (r := q) p exit hs strokes fault iter due
  generalize q.close p exit = t at *
  refine ⟨points.of_regs g, filled.of_store (left ports).2, ⟨?_, ?_, eng⟩, ?_, pc⟩
  · rw [regs]
  · rw [regs]
  · rw [State.fpcr, regs]
    rfl
/-- The rig of a store and its pointer, of n strokes. -/
theorem rigRun_fills {c : BitVec 32} (hs : s.core.ctl.priv = .s) (hrx : r ≠ x) (hX : keyX s.here ≤ 319) (hY : keyY s.here ≤ 159)
    (hx : s.gv x = ownAddr off) (ho : off % 8 = 0) (hend : off + 8 * c.toNat ≤ 0x10000) (hpr : s.gp r = false) (hpx : s.gp x = false)
    (ports : ∀ k, (s.coreAt k).sh.port = []) :
    Points s (s.rigRun c 1 (fillEntries r x)) x (s.pointer x c.toNat) ∧ Filled s (s.rigRun c 1 (fillEntries r x)) r off c.toNat ∧
    SameV s (s.rigRun c 1 (fillEntries r x)) ∧ (s.rigRun c 1 (fillEntries r x)).fpcr = s.fpcr ∧
    (s.rigRun c 1 (fillEntries r x)).pc = s.entryAt ((1 : BitVec 5).toNat + 1) := by
  have deep : (fillEntries r x).foldl (fun d e => max d e.1) 0 = 0 := rfl
  rw [rigRun_eq, deep]
  obtain ⟨strokes, ⟨fault, iter⟩, due, points, filled⟩ :=
    (FillsAt.opened hpx).loop (p := s.pc) hs hrx hX hY hx ho hend hpr c.isLt (c.toNat + 9) (Nat.zero_le _) (by omega)
  exact close_fills hs strokes fault iter due ports points filled
end

end Sys2Proof.Machine
end

section

/-! Rigs, and `RIGS` saved and loaded (R51, R219 to R222). -/

namespace Sys2Proof.Machine

/-! ## `RIGS` as a dword (R51) -/

section
variable {a b n : Nat} (x : BitVec a) (y : BitVec b)
theorem extract_append_high (k : Nat) : (x ++ y).extractLsb' (b + k) n = x.extractLsb' k n := by
  refine BitVec.eq_of_getLsbD_eq fun i hi => ?_
  simp only [BitVec.getLsbD_extractLsb', BitVec.getLsbD_append]
  rw [if_neg (by omega), show b + k + i - b = k + i by omega]
theorem extract_append_low : (x ++ y).extractLsb' 0 b = y := by
  refine BitVec.eq_of_getLsbD_eq fun i hi => ?_
  simp [BitVec.getLsbD_append, hi]
end
theorem word_fields (r : Rigs) : r.word =
    r.iter ++ (0 : BitVec 8) ++ r.sv ++ (0 : BitVec 4) ++ BitVec.ofBool r.fault ++ BitVec.ofBool r.active ++ r.last ++ r.slot :=
  Eq.trans (by simp only [Rigs.word, fieldAt_append]; simp) (fieldAt_self _)
/-- The fields of `RIGS` come back from its dword. -/
theorem rigs_of_word (r : Rigs) : Rigs.ofWord r.word = r := by
  have behind_slot (k n : Nat) : r.word.extractLsb' (5 + k) n = _ := (congrArg _ (word_fields r)).trans (extract_append_high _ r.slot k)
  have behind_last (k n : Nat) : r.word.extractLsb' (10 + k) n = _ :=
    (congrArg (r.word.extractLsb' · n) (by omega)).trans ((behind_slot (5 + k) n).trans (extract_append_high _ r.last k))
  have behind_active (k n : Nat) : r.word.extractLsb' (11 + k) n = _ :=
    (congrArg (r.word.extractLsb' · n) (by omega)).trans ((behind_last (1 + k) n).trans (extract_append_high _ (BitVec.ofBool r.active) k))
  have behind_fault (k n : Nat) : r.word.extractLsb' (16 + k) n = _ :=
    (congrArg (r.word.extractLsb' · n) (by omega)).trans ((behind_active (5 + k) n).trans
      ((congrArg (BitVec.extractLsb' · n _) (by omega)).trans ((extract_append_high _ (BitVec.ofBool r.fault) (4 + k)).trans (extract_append_high _ (0 : BitVec 4) k))))
  have slot : r.word.extractLsb' 0 5 = r.slot := (congrArg _ (word_fields r)).trans (extract_append_low ..)
  have last : r.word.extractLsb' 5 5 = r.last := (behind_slot 0 5).trans (extract_append_low ..)
  have sv : r.word.extractLsb' 16 8 = r.sv := (behind_fault 0 8).trans (extract_append_low ..)
  have iter : r.word.extractLsb' 32 32 = r.iter := by
    refine (behind_fault 16 32).trans ?_
    exact ((extract_append_high _ r.sv 8).trans (extract_append_high _ (0 : BitVec 8) 0)).trans (by simp)
  have active : r.word.getLsbD 10 = r.active := by
    have bit := congrArg (BitVec.getLsbD · 0) ((behind_last 0 1).trans (extract_append_low ..))
    simpa using bit
  have fault : r.word.getLsbD 11 = r.fault := by
    have bit := congrArg (BitVec.getLsbD · 0) ((behind_active 0 1).trans (extract_append_low ..))
    simpa using bit
  rw [Rigs.ofWord, slot, last, sv, iter, active, fault]

/-! ## Saving and loading -/

section
variable {s : State} {a : GR} {i : BitVec 16} {off : Nat}
theorem ownPath_path {x : BitVec 64} {n : Nat} (h : s.ownPath x n = .own off) : s.path x n = .own off := by
  unfold State.ownPath at h
  split at h
  · cases h
  · split at h
    · exact h
    · cases h
theorem checkedOwn_own {x : BitVec 64} {n : Nat} (h : s.ownPath x n = .own off) (f : Nat → Res) : s.checkedOwn x n f = f off := by
  rw [State.checkedOwn, h]
variable (hg : s.gp a = false) (hp : s.ownPath (s.gv a + i.signExtend 64) 8 = .own off)
include hg hp
/-- `RIGSV` stores the dword of `RIGS`. -/
theorem rigsv_stores : Completes (.rigsv a i) s fun t =>
    (∀ k, k < 8 → t.byte (nodeBase s.here + off + k) = (s.core.regs.rigs.word).extractLsb' (8 * k) 8) ∧
    SameBytesBut s t (nodeBase s.here + off) 8 ∧ t.core.regs = s.core.regs ∧ Passes s t (s.pc + 4) := by
  obtain ⟨_, _, _, aligned⟩ := path_own_iff.mp (ownPath_path hp)
  have step : exec (.rigsv a i) s = s.finish 4 (.ok (s.storeOf false off (leBytes 8 s.core.regs.rigs.word.toNat) false)) := by
    rw [show exec (.rigsv a i) s = execRigsv a i s from rfl, execRigsv, consume_clean hg, checkedOwn_own hp, store_eq]
  obtain ⟨t, run, bytes, around, _, _, regs, _, passes⟩ := storeOf_words step (leBytes_length ..) aligned (by decide)
  refine ⟨t, run, fun k hk => ?_, around, regs, passes⟩
  rw [bytes k (by simpa using hk), leBytes_extract]
/-- `RIGLD` at S loads it. -/
theorem rigld_loads (hs : s.core.ctl.priv = .s) (clean : s.poisoned (nodeBase s.here + off) = false) : Completes (.rigld a i) s fun t =>
    t.core.regs = { s.core.regs with rigs := Rigs.ofWord (BitVec.ofNat 64 (s.readNat (nodeBase s.here + off) 8)) } ∧
    SameOutside s t ∧ Passes s t (s.pc + 4) := by
  obtain ⟨_, _, _, aligned⟩ := path_own_iff.mp (ownPath_path hp)
  have step : exec (.rigld a i) s =
      s.finish 4 (.ok (s.onRigs fun _ => Rigs.ofWord (BitVec.ofNat 64 (s.readNat (nodeBase s.here + off) 8)))) := by
    have at_s (r : Res) : s.onlyS r = r := if_neg (by simp [hs])
    rw [show exec (.rigld a i) s = execRigld a i s from rfl, execRigld, at_s, consume_clean hg, checkedOwn_own hp,
      anyPoison_aligned (by decide) (by decide) aligned, clean]
    rfl
  exact completes_ok step ⟨rfl, rfl, rfl⟩
end
theorem rigld_u {s : State} {a : GR} {i : BitVec 16} (hu : s.core.ctl.priv = .u) :
    Completes (.rigld a i) s fun t => TrapTaken s t .priv s.parcel s.pc := by
  have step : exec (.rigld a i) s = s.finish 4 (.trap .priv s.parcel) := by
    have at_u (r : Res) : s.onlyS r = .trap .priv s.parcel := if_pos hu
    rw [show exec (.rigld a i) s = execRigld a i s from rfl, execRigld, at_u]
  exact completes_trapTaken step hu

/-! ## The two rigs -/

/-- Two words that are the encodings of two instructions. -/
theorem rigBody_encoded {s : State} {i j : Instr} {w v : Nat} {o q : RigOp} (hf : s.stageFault 1 3 = none)
    (h0 : s.poisoned (s.codeKey (s.entryAt 0)) = false) (h1 : s.poisoned (s.codeKey (s.entryAt 1)) = false)
    (e0 : some (w, none) = some (s.parcelAt (s.entryAt 0), (none : Option Nat)))
    (e1 : some (v, none) = some (s.parcelAt (s.entryAt 1), (none : Option Nat)))
    (d0 : needsExt w = false ∧ decode w 0 = .ok i) (d1 : needsExt v = false ∧ decode v 0 = .ok j)
    (hi : Instr.rigOp i = some o) (hj : Instr.rigOp j = some q) : s.rigBody 1 = .ok [(s.stageOf 0, o), (s.stageOf 1, q)] := by
  obtain rfl : w = s.parcelAt (s.entryAt 0) := by simpa using e0
  obtain rfl : v = s.parcelAt (s.entryAt 1) := by simpa using e1
  exact rigBody_two hf h0 h1 d0 d1 hi hj
/-- The count of strokes of a register below 2^32. -/
theorem count_toNat {x : BitVec 64} (h : x.toNat < 2 ^ 32) : (x.setWidth 32).toNat = x.toNat ∧ (x.setWidth 32 = 0 → x = 0) := by
  have count : (x.setWidth 32).toNat = x.toNat := by
    rw [BitVec.toNat_setWidth]
    exact Nat.mod_eq_of_lt h
  exact ⟨count, fun z => BitVec.eq_of_toNat_eq (by rw [← count, z]; rfl)⟩

section
variable {s : State} {a d e b r x : GR} {off : Nat}
/-- The rig of two additions. -/
theorem rig_sums (hs : s.core.ctl.priv = .s) (ha : s.core.regs.rigs.active = false) (hw : s.rigWaits = false)
    (hf : s.stageFault 1 3 = none) (g0 : s.stageOf 0 = 0) (g1 : s.stageOf 1 = 1)
    (h0 : s.poisoned (s.codeKey (s.entryAt 0)) = false) (h1 : s.poisoned (s.codeKey (s.entryAt 1)) = false)
    (e0 : encode (.add d d b) = some (s.parcelAt (s.entryAt 0), none)) (e1 : encode (.add e e d) = some (s.parcelAt (s.entryAt 1), none))
    (hdb : d ≠ b) (hed : e ≠ d) (heb : e ≠ b) (pa : s.gp a = false) (pb : s.gp b = false) (pd : s.gp d = false) (pe : s.gp e = false)
    (hn : s.gv a ≠ 0) (small : (s.gv a).toNat < 2 ^ 32) : Completes (.rig a 1) s fun t =>
      t.gv d = s.gv d + s.gv a * s.gv b ∧
      t.gv e = s.gv e + s.gv a * s.gv d + BitVec.ofNat 64 ((s.gv a).toNat * ((s.gv a).toNat + 1) / 2) * s.gv b ∧ t.gp d = false ∧
      t.gp e = false ∧ SameG s t [d, e] ∧ SameV s t ∧ t.fpcr = s.fpcr ∧ t.pc = s.pc + 24 ∧ t.core.ctl.priv = .s ∧
      ((∀ k, (s.coreAt k).sh.port = []) → SameStore s t) := by
  have body : s.rigBody (1 : BitVec 5).toNat = .ok (sumEntries d e b) := by
    have stages : sumEntries d e b = [(s.stageOf 0, .onG d 1 (addBody d d b)), (s.stageOf 1, .onG e 1 (addBody e e d))] := by
      rw [g0, g1]
      rfl
    rw [stages]
    exact rigBody_encoded hf h0 h1 e0 e1 (decode_add d d b) (decode_add e e d) rfl rfl
  obtain ⟨count, zero⟩ := count_toNat small
  have left : (s.gv a).setWidth 32 ≠ 0 := fun z => hn (zero z)
  have run := exec_rig_runs body (rigCount_fresh 1 ha pa small) left hw
  obtain ⟨⟨vd, qd, ve, qe, same⟩, vectors, fpcr, pc, priv, store⟩ := rigRun_sums hs hdb hed heb pb pd pe left
  generalize s.rigRun ((s.gv a).setWidth 32) 1 (sumEntries d e b) = t at *
  have own : BitVec.ofNat 64 (s.gv a).toNat = s.gv a := by simp
  rw [count, State.firstSum, own] at vd
  rw [count, secondSum_eq, own] at ve
  rw [entryAt_exit, BitVec.add_assoc] at pc
  exact ⟨t, run, vd, ve, qd, qe, same, vectors, fpcr, pc, priv, store⟩
/-- The rig of a store and its pointer. -/
theorem rig_fills (hs : s.core.ctl.priv = .s) (ha : s.core.regs.rigs.active = false) (hw : s.rigWaits = false)
    (hf : s.stageFault 1 3 = none) (g0 : s.stageOf 0 = 0) (g1 : s.stageOf 1 = 0)
    (h0 : s.poisoned (s.codeKey (s.entryAt 0)) = false) (h1 : s.poisoned (s.codeKey (s.entryAt 1)) = false)
    (e0 : encode (.st r x .w64 0) = some (s.parcelAt (s.entryAt 0), none)) (e1 : encode (.addi x x 8) = some (s.parcelAt (s.entryAt 1), none))
    (hrx : r ≠ x) (hX : keyX s.here ≤ 319) (hY : keyY s.here ≤ 159) (hx : s.gv x = ownAddr off) (ho : off % 8 = 0)
    (hend : off + 8 * (s.gv a).toNat ≤ 0x10000) (pa : s.gp a = false) (pr : s.gp r = false) (px : s.gp x = false) (hn : s.gv a ≠ 0)
    (ports : ∀ k, (s.coreAt k).sh.port = []) : Completes (.rig a 1) s fun t =>
      (∀ j, j < (s.gv a).toNat → ∀ i, i < 8 → t.byte (nodeBase s.here + off + 8 * j + i) = (s.gv r).extractLsb' (8 * i) 8) ∧
      SameBytesBut s t (nodeBase s.here + off) (8 * (s.gv a).toNat) ∧ t.gv x = s.gv x + 8 * s.gv a ∧ t.gp x = false ∧ SameG s t [x] ∧
      SameV s t ∧ t.fpcr = s.fpcr ∧ t.pc = s.pc + 24 := by
  have body : s.rigBody (1 : BitVec 5).toNat = .ok (fillEntries r x) := by
    have stages : fillEntries r x = [(s.stageOf 0, .noResult (stBody r x .w64 0)), (s.stageOf 1, .onG x 1 (addiBody x x 8))] := by
      rw [g0, g1]
      rfl
    rw [stages]
    exact rigBody_encoded hf h0 h1 e0 e1 (decode_st r x) (decode_addi x x 8) rfl rfl
  have small : (s.gv a).toNat < 2 ^ 32 := by omega
  obtain ⟨count, zero⟩ := count_toNat small
  have run := exec_rig_runs body (rigCount_fresh 1 ha pa small) (fun z => hn (zero z)) hw
  obtain ⟨⟨vx, qx, same⟩, ⟨stored, around⟩, vectors, fpcr, pc⟩ := rigRun_fills hs hrx hX hY hx ho (count.symm ▸ hend) pr px ports
  generalize s.rigRun ((s.gv a).setWidth 32) 1 (fillEntries r x) = t at *
  have own : BitVec.ofNat 64 (s.gv a).toNat = s.gv a := by simp
  rw [count] at stored around
  rw [count, State.pointer, own] at vx
  rw [entryAt_exit, BitVec.add_assoc] at pc
  exact ⟨t, run, stored, around, vx, qx, same, vectors, fpcr, pc⟩
end

/-- Settles O22: rigs of no strokes, the end of a run, what strokes do, openings that fault or wait, and saving `RIGS`. -/
theorem rigRunsAndSaves : Obligations.RigRunsAndSaves := by
  refine ⟨⟨fun s a l es hes hn => ⟨_, exec_rig_empty hes hn rfl, rfl, rfl, rfl, rfl, rfl, ?_⟩, fun s a l es n hes hn some_left => ⟨?_, ?_⟩, ?_, ?_, ?_⟩,
    fun s a i off hg hp => ⟨rigsv_stores hg hp, rigld_loads hg hp⟩, fun s a i => rigld_u, rigs_of_word⟩
  · rw [entryAt_exit]
    rfl
  · exact fun hw => ⟨_, exec_rig_holds hes hn some_left hw, rfl⟩
  · intro hw
    obtain ⟨riga, sv, slot, last, ended⟩ := rigRun_ends (n := n) (l := l) (rigBody_stays hes)
    rw [entryAt_exit] at ended
    exact ⟨_, exec_rig_runs hes hn some_left hw, riga, sv, slot, last, ended⟩
  · exact fun s a d e b hs ha hw hf g0 g1 h0 h1 e0 e1 hdb hed heb pa pb pd pe hn small =>
      rig_sums hs ha hw hf g0 g1 h0 h1 e0 e1 hdb hed heb pa pb pd pe hn small
  · exact fun s a r x off hs ha hw hf g0 g1 h0 h1 e0 e1 hrx _ hX hY hx ho hend pa pr px hn ports =>
      rig_fills hs ha hw hf g0 g1 h0 h1 e0 e1 hrx hX hY hx ho hend pa pr px hn ports
  · exact fun s a l c v h hu => ⟨_, exec_rig_faults h, takeTrap_u s c v s.pc hu⟩

end Sys2Proof.Machine
end

section

/-! What the panel's own work on groups leaves alone: cores, memory, and the tables of the lead cox (R271-R279). -/

namespace Sys2Proof.Machine

/-! ## Work on maps, routers and triads -/

/-- No core, no byte, poison code or owner tag, no group, queue or bid is changed, and the clock is as before. -/
structure State.Spares (s t : State) : Prop where
  still : Still s t
  groups : t.lead.groups = s.lead.groups
  queues : t.lead.queues = s.lead.queues
  bids : t.lead.bids = s.lead.bids
  clock : t.clock = s.clock

section
variable {s t u : State}
theorem Still.refl (s : State) : Still s s := ⟨rfl, rfl, rfl, rfl, rfl, rfl⟩
theorem State.Spares.refl (s : State) : s.Spares s := ⟨Still.refl s, rfl, rfl, rfl, rfl⟩
theorem State.Spares.trans (h : s.Spares t) (g : t.Spares u) : s.Spares u :=
  ⟨h.still.trans g.still, g.groups.trans h.groups, g.queues.trans h.queues, g.bids.trans h.bids, g.clock.trans h.clock⟩
theorem State.Spares.group (h : s.Spares t) (i : Nat) : t.group i = s.group i := by rw [State.group, h.groups, State.group]
theorem State.Spares.queue (h : s.Spares t) (q : Nat) : t.queue q = s.queue q := by rw [State.queue, h.queues, State.queue]
theorem Still.coreAt (h : Still s t) (k : Nat) : t.coreAt k = s.coreAt k := by
  obtain ⟨here, core, peers, _⟩ := h
  exact coreAt_congr core peers here k
theorem Still.byte (h : Still s t) (a : Nat) : t.byte a = s.byte a := by
  obtain ⟨_, _, _, mem, _⟩ := h
  rw [State.byte, mem, State.byte]
theorem Still.tag (h : Still s t) (a : Nat) : t.tag a = s.tag a := by
  obtain ⟨_, _, _, _, _, tags⟩ := h
  rw [State.tag, tags, State.tag]
end

section
variable (s : State)
theorem voteTiles_spares (l : List Nat) : s.Spares (s.voteTiles l) := by
  rw [(voteTiles_same l s).1]
  exact ⟨Still.refl s, rfl, rfl, rfl, rfl⟩
theorem closeWindowAt_spares (k : Nat) : s.Spares (s.closeWindowAt k) := by
  obtain ⟨u, e⟩ := closeWindowAt_frame s k
  rw [e]
  exact ⟨Still.refl s, rfl, rfl, rfl, rfl⟩
theorem closeWindows_spares (ks : List Nat) : s.Spares (s.closeWindows ks) :=
  foldl_related State.Spares.refl State.Spares.trans closeWindowAt_spares ks s
theorem onSite_spares (n : Nat) (f : Site → Site) : s.Spares (s.onSite n f) := ⟨Still.refl s, rfl, rfl, rfl, rfl⟩
theorem onNode_spares (k : Nat) (f : Node → Node) : s.Spares (s.onNode k f) := ⟨Still.refl s, rfl, rfl, rfl, rfl⟩
theorem deliverRec_spares (n i : Nat) (j : Joiner) : s.Spares (s.deliverRec n i j) := by
  unfold State.deliverRec State.onRec
  exact onSite_spares s n _
theorem leaveRecords_spares (k : Nat) (streams : Bool) : s.Spares (s.leaveRecords k streams) := by
  unfold State.leaveRecords
  extract_lets gone
  refine foldl_related State.Spares.refl State.Spares.trans (fun s e => ?_) _ s
  exact foldl_related State.Spares.refl State.Spares.trans (fun s j => deliverRec_spares s _ e.1 j) _ s
theorem dropGid_spares (gid : BitVec 16) : s.Spares (s.dropGid gid) := ⟨Still.refl s, rfl, rfl, rfl, rfl⟩
theorem redraw_spares : s.Spares s.redraw := ⟨Still.refl s, rfl, rfl, rfl, rfl⟩
theorem redrawn_spares (old : State) (ds : List Nat) : s.Spares (s.redrawn old ds) := by
  unfold State.redrawn
  split
  · exact redraw_spares s
  · exact State.Spares.refl s
theorem releaseQueued_spares : s.Spares s.releaseQueued := ⟨Still.refl s, rfl, rfl, rfl, rfl⟩
theorem send_spares (p : Packet) : s.Spares (s.send p) := by
  unfold State.send
  split
  · split <;> exact ⟨Still.refl s, rfl, rfl, rfl, rfl⟩
  · split
    · exact ⟨Still.refl s, rfl, rfl, rfl, rfl⟩
    · exact State.Spares.refl s
theorem retireNode_spares (k : Nat) : s.Spares (s.retireNode k) := by
  unfold State.retireNode
  extract_lets n row p t
  have ht : s.Spares t := ((onSite_spares s n _).trans (releaseQueued_spares _)).trans (voteTiles_spares _ [n])
  split
  · exact State.Spares.refl s
  split
  · exact ht.trans ⟨Still.refl t, rfl, rfl, rfl, rfl⟩
  · exact ht
theorem retireAll_spares (ks : List Nat) : s.Spares (s.retireAll ks) := by
  have step (s : State) (k : Nat) : s.Spares (if s.retirable k then s.retireNode k else s) := by
    split
    · exact retireNode_spares s k
    · exact State.Spares.refl s
  unfold State.retireAll
  split
  · exact (foldl_related State.Spares.refl State.Spares.trans step ks s).trans (redraw_spares _)
  · exact State.Spares.refl s
theorem retireLoose_spares (g : Group) : s.Spares (s.retireLoose g) := retireAll_spares s _
theorem unmapped_spares (old : State) (g : Group) : s.Spares (s.unmapped old g) := redrawn_spares s old _
theorem rerouteBars_spares (i : Nat) : s.Spares (s.rerouteBars i) := by
  refine foldl_related State.Spares.refl State.Spares.trans (fun s k => ?_) _ s
  dsimp only
  split
  · exact State.Spares.refl s
  split
  · exact onNode_spares s k _
  · exact (onNode_spares s k _).trans (foldl_related State.Spares.refl State.Spares.trans (fun s _ => send_spares s _) _ _)
theorem loadTrees_spares (g : Group) (p : Nat → Bool) : s.Spares (s.loadTrees g p) := by
  refine (foldl_related State.Spares.refl State.Spares.trans (fun s t => ?_) _ s).trans (voteTiles_spares _ _)
  refine foldl_related State.Spares.refl State.Spares.trans (fun s n => ?_) _ s
  dsimp only
  split
  · exact onNode_spares s _ _
  · exact State.Spares.refl s
end

/-! ## Completions of commands (R283, R284) -/

section
variable (s : State) (q : Nat)
/-- Completions write host memory and take commands off their queues. -/
theorem completeCurrent_changes (st : Nat) : ∃ m p l, s.completeCurrent q st =
    { s with mem := m, pois := p, lead := { s.lead with queues := l } } := by
  unfold State.completeCurrent
  split
  · exact ⟨_, _, _, rfl⟩
  · exact ⟨_, _, _, rfl⟩
theorem completeAll_changes (st : Nat) (l : List Nat) : ∀ s : State, ∃ m p r, l.foldl (fun s q => s.completeCurrent q st) s =
    { s with mem := m, pois := p, lead := { s.lead with queues := r } } := by
  induction l with
  | nil => exact fun s => ⟨_, _, _, rfl⟩
  | cons q l ih =>
    intro s
    obtain ⟨m, p, r, e⟩ := completeCurrent_changes s q st
    obtain ⟨m', p', r', e'⟩ := ih (s.completeCurrent q st)
    exact ⟨m', p', r', e'.trans (by rw [e])⟩
theorem endSuspend_changes (i st : Nat) : ∃ m p l, s.endSuspend i st =
    { s with mem := m, pois := p, lead := { s.lead with queues := l } } := by
  unfold State.endSuspend
  split
  · exact completeAll_changes st _ s
  · exact ⟨_, _, _, rfl⟩
  · exact ⟨_, _, _, rfl⟩
theorem endSuspend_none {i st : Nat} (h : (s.group i).cut = .none ∨ (s.group i).cut = .drain) : s.endSuspend i st = s := by
  unfold State.endSuspend
  rcases h with h | h <;> rw [h]
theorem endSuspend_one {i st : Nat} (h : (s.group i).cut = .suspend [q]) : s.endSuspend i st = s.completeCurrent q st := by
  unfold State.endSuspend
  rw [h]
  rfl
theorem completeCurrent_last {c : Cmd} (h : (s.queue q).cmds.getLast? = some c) (hp : c.passed = false) (st : Nat) :
    s.completeCurrent q st = s.complete q c st 0 := by
  unfold State.completeCurrent Queue.current
  rw [h, show Option.filter (fun c => !c.passed) (some c) = some c by simp [Option.filter, hp]]

/-- A command has completed with a status: its completion word stands in host memory and its queue no longer holds it. -/
def Completed (s t : State) (q : Nat) (c : Cmd) (st : Nat) (gid : BitVec 16) : Prop :=
  leNat ((List.range 4).map fun j => t.byte (hostBase + (s.queue q).base.toNat + 64 * c.idx + 4 + j)) = cmplWord st gid ∧
  (t.queue q).cmds = (s.queue q).cmds.filter (·.no != c.no)

theorem complete_completed (c : Cmd) {st : Nat} (gid : BitVec 16) (h : st < 2 ^ 15) : Completed s (s.complete q c st gid) q c st gid := by
  constructor
  · have bytes : (List.range 4).map (fun j => (s.complete q c st gid).byte (hostBase + (s.queue q).base.toNat + 64 * c.idx + 4 + j)) =
        leBytes 4 (cmplWord st gid) := by
      refine List.ext_getElem (by simp) fun j hj hl => ?_
      rw [List.getElem_map, List.getElem_range]
      refine Eq.trans ?_ (poke_byte_in s (hostBase + ((s.queue q).base.toNat + 64 * c.idx + 4)) (leBytes 4 (cmplWord st gid)) false j hl)
      rw [show hostBase + ((s.queue q).base.toNat + 64 * c.idx + 4) + j = hostBase + (s.queue q).base.toNat + 64 * c.idx + 4 + j by omega]
      rfl
    rw [bytes, leNat_leBytes]
    exact Nat.mod_eq_of_lt (by unfold cmplWord; have := gid.isLt; omega)
  · unfold State.complete State.onQueue State.queue
    dsimp only
    rw [tget_tset_self]
    rfl
/-- What spares memory and queues keeps a completion. -/
theorem Completed.sparing {s t u v : State} {q : Nat} {c : Cmd} {st : Nat} {gid : BitVec 16} (h : Completed t u q c st gid)
    (hs : t.queue q = s.queue q) (hm : v.mem = u.mem) (hq : v.lead.queues = u.lead.queues) : Completed s v q c st gid := by
  obtain ⟨word, cmds⟩ := h
  rw [hs] at word cmds
  refine ⟨Eq.trans ?_ word, Eq.trans ?_ cmds⟩
  · simp only [State.byte, hm]
  · rw [State.queue, hq, State.queue]
end

/-! ## Cores that are freed (R39, R77) -/

/-- A core of an ended or restarted group. -/
def Core.freed (c : Core) : Core :=
  { c with slots := c.slots.map Slot.toFree, ctl := { c.ctl with issue := .off, paddle := false }
           sh := { c.sh with fifo := Vector.replicate 4 [], cut := false } }
theorem freed_slot (c : Core) (j : SlotId) : (c.freed.slot j).st = .free := by
  simp [Core.freed, Core.slot, bget, Slot.toFree]
theorem freed_if_regs (p : Prop) [Decidable p] {c : Core} : (if p then c.freed else c).regs = c.regs ∧ (if p then c.freed else c).eng = c.eng := by
  split <;> exact ⟨rfl, rfl⟩
theorem freed_freed (c : Core) : c.freed.freed = c.freed := by
  simp [Core.freed, Slot.toFree, Function.comp_def]

/-- The cores of a list are freed; owner tags may go, and the rest is spared. -/
structure State.Frees (s t : State) (ks : List Nat) : Prop where
  here : t.here = s.here
  cores : ∀ j, t.coreAt j = if j ∈ ks then (s.coreAt j).freed else s.coreAt j
  mem : t.mem = s.mem
  pois : t.pois = s.pois
  groups : t.lead.groups = s.lead.groups
  queues : t.lead.queues = s.lead.queues
  bids : t.lead.bids = s.lead.bids
  clock : t.clock = s.clock

section
variable {s t u : State} {ks : List Nat}
theorem State.Frees.nil (s : State) : s.Frees s [] := ⟨rfl, fun _ => (if_neg List.not_mem_nil).symm, rfl, rfl, rfl, rfl, rfl, rfl⟩
theorem State.Frees.sparing (h : s.Frees t ks) (g : t.Spares u) : s.Frees u ks where
  here := g.still.1.trans h.here
  cores j := (g.still.coreAt j).trans (h.cores j)
  mem := g.still.2.2.2.1.trans h.mem
  pois := g.still.2.2.2.2.1.trans h.pois
  groups := g.groups.trans h.groups
  queues := g.queues.trans h.queues
  bids := g.bids.trans h.bids
  clock := g.clock.trans h.clock
theorem freeCore_frees (s : State) (k : Nat) : s.Frees (s.freeCore k) [k] := by
  have one : s.Frees ((s.closeWindowAt k).onCore k Core.freed) [k] := by
    have close := closeWindowAt_spares s k
    generalize s.closeWindowAt k = u at close ⊢
    have frame : ∃ c p, u.onCore k Core.freed = { u with core := c, peers := p } := onCores_frame (fun _ => Core.freed) [k] u
    refine ⟨?_, fun j => ?_, ?_, ?_, ?_, ?_, ?_, ?_⟩
    case refine_2 =>
      rw [coreAt_onCore, close.still.coreAt, close.still.coreAt]
      simp only [List.mem_singleton]
      split
      · next e => rw [e]
      · rfl
    all_goals
      obtain ⟨c, p, e⟩ := frame
      rw [e]
    · exact close.still.1
    · exact close.still.2.2.2.1
    · exact close.still.2.2.2.2.1
    · exact close.groups
    · exact close.queues
    · exact close.bids
    · exact close.clock
  have left := one.sparing (leaveRecords_spares _ k false)
  exact { left with cores := left.cores }
theorem State.Frees.cons {k : Nat} (h : s.Frees t [k]) (g : t.Frees u ks) : s.Frees u (k :: ks) where
  here := g.here.trans h.here
  cores j := by
    rw [g.cores j, h.cores j]
    simp only [List.mem_cons, List.not_mem_nil, or_false]
    by_cases e : j = k <;> by_cases m : j ∈ ks <;> simp [e, m, freed_freed]
  mem := g.mem.trans h.mem
  pois := g.pois.trans h.pois
  groups := g.groups.trans h.groups
  queues := g.queues.trans h.queues
  bids := g.bids.trans h.bids
  clock := g.clock.trans h.clock
theorem foldl_freeCore_frees (ks : List Nat) : ∀ s : State, s.Frees (ks.foldl State.freeCore s) ks := by
  induction ks with
  | nil => exact State.Frees.nil
  | cons k ks ih => exact fun s => (freeCore_frees s k).cons (ih _)
/-- The cores of a list whose triads are not HALTED (R350). -/
def State.controlled (s : State) (ks : List Nat) : List Nat := ks.filter fun k => !(s.site (siteOf k)).triad.halted
theorem mem_controlled (s : State) {k : Nat} (hk : k ∈ ks) (h : (s.site (siteOf k)).triad.halted = false) : k ∈ s.controlled ks :=
  List.mem_filter.mpr ⟨hk, by simp [h]⟩
theorem freeCores_frees (s : State) (ks : List Nat) : s.Frees (s.freeCores ks) (s.controlled ks) :=
  (foldl_freeCore_frees _ s).sparing (voteTiles_spares _ _)

/-- The cores of a list are as a group leaves them that has ended or is restarted. -/
def FreedAll (s t : State) (ks : List Nat) : Prop := ∀ k ∈ ks, (s.site (siteOf k)).triad.halted = false →
  (∀ j, ((t.coreAt k).slot j).st = .free) ∧ (t.coreAt k).ctl.issue = .off ∧ (t.coreAt k).sh.cut = false
theorem State.Frees.freedAll (h : s.Frees t (s.controlled ks)) : FreedAll s t ks := by
  intro k hk running
  rw [h.cores k, if_pos (mem_controlled s hk running)]
  exact ⟨freed_slot _, rfl, rfl⟩
theorem State.Frees.sameRegs (h : s.Frees t ks) : SameRegs s t := by
  refine ⟨h.here, fun k => ?_⟩
  rw [h.cores k]
  exact freed_if_regs _
end

end Sys2Proof.Machine
end

section

/-! Ends, relaunches and cuts of a group, by what each leaves of its cores, its queues and memory (R273, R275, R276, R279). -/

namespace Sys2Proof.Machine

/-! ## Work that keeps registers, memory and the lead cox's tables -/

/-- Cores may change in all but their registers and engines, and owner tags may go; the rest is spared. -/
structure State.Controls (s t : State) : Prop where
  regs : SameRegs s t
  mem : t.mem = s.mem
  pois : t.pois = s.pois
  groups : t.lead.groups = s.lead.groups
  queues : t.lead.queues = s.lead.queues
  bids : t.lead.bids = s.lead.bids
  clock : t.clock = s.clock

section
variable {s t u : State}
theorem State.Controls.refl (s : State) : s.Controls s := ⟨⟨rfl, fun _ => ⟨rfl, rfl⟩⟩, rfl, rfl, rfl, rfl, rfl, rfl⟩
theorem State.Controls.trans (h : s.Controls t) (g : t.Controls u) : s.Controls u :=
  ⟨h.regs.trans g.regs, g.mem.trans h.mem, g.pois.trans h.pois, g.groups.trans h.groups, g.queues.trans h.queues, g.bids.trans h.bids,
    g.clock.trans h.clock⟩
theorem State.Controls.group (h : s.Controls t) (i : Nat) : t.group i = s.group i := by rw [State.group, h.groups, State.group]
theorem State.Controls.queue (h : s.Controls t) (q : Nat) : t.queue q = s.queue q := by rw [State.queue, h.queues, State.queue]
theorem State.Spares.controls (h : s.Spares t) : s.Controls t where
  regs := h.still.sameRegs
  mem := h.still.2.2.2.1
  pois := h.still.2.2.2.2.1
  groups := h.groups
  queues := h.queues
  bids := h.bids
  clock := h.clock
theorem State.Frees.controls {ks : List Nat} (h : s.Frees t ks) : s.Controls t :=
  ⟨h.sameRegs, h.mem, h.pois, h.groups, h.queues, h.bids, h.clock⟩
theorem onCore_controls (s : State) (k : Nat) {f : Core → Core} (hf : ∀ c, (f c).regs = c.regs ∧ (f c).eng = c.eng) :
    s.Controls (s.onCore k f) := by
  have regs : SameRegs s (s.onCore k f) := (onCore_groupsFault k hf).regs
  obtain ⟨c, p, e⟩ : ∃ c p, s.onCore k f = { s with core := c, peers := p } := onCores_frame (fun _ => f) [k] s
  rw [e] at regs ⊢
  exact ⟨regs, rfl, rfl, rfl, rfl, rfl, rfl⟩
theorem onCores_controls (s : State) (ks : List Nat) {f : Nat → Core → Core} (hf : ∀ k c, (f k c).regs = c.regs ∧ (f k c).eng = c.eng) :
    s.Controls (s.onCores ks f) :=
  foldl_related State.Controls.refl State.Controls.trans (fun s k => onCore_controls s k (hf k)) ks s
theorem coxWrites_controls (s : State) (ks : List Nat) {f : Nat → Core → Core} (hf : ∀ k c, (f k c).regs = c.regs ∧ (f k c).eng = c.eng) :
    s.Controls (s.coxWrites ks f) := (onCores_controls s ks hf).trans (voteTiles_spares _ _).controls
theorem releaseTags_controls (s : State) (k : Nat) (i : SlotId) : s.Controls (s.releaseTags k i) := { State.Controls.refl s with }
theorem freePaddlesAt_controls (s : State) (k : Nat) (p : Slot → Bool) : s.Controls (s.freePaddlesAt k p) := by
  refine foldl_related State.Controls.refl State.Controls.trans (fun s i => ?_) _ s
  dsimp only
  split
  · have frees := onCore_controls s k (f := fun c => (c.unqueue i).onSlot i Slot.toFree) fun _ => ⟨rfl, rfl⟩
    exact (frees.trans (releaseTags_controls _ k i)).trans (voteTiles_spares _ _).controls
  · exact State.Controls.refl s
theorem foldl_slots_regs {f : Core → SlotId → Core} (hf : ∀ c i, (f c i).regs = c.regs ∧ (f c i).eng = c.eng) (l : List SlotId) :
    ∀ c : Core, (l.foldl f c).regs = c.regs ∧ (l.foldl f c).eng = c.eng := by
  induction l with
  | nil => exact fun _ => ⟨rfl, rfl⟩
  | cons i l ih => exact fun c => ⟨(ih _).1.trans (hf c i).1, (ih _).2.trans (hf c i).2⟩
theorem dropPaddlesAt_controls (s : State) (k : Nat) : s.Controls (s.dropPaddlesAt k) := by
  refine (freePaddlesAt_controls s k _).trans (coxWrites_controls _ [k] fun _ c => foldl_slots_regs (fun c i => ?_) allSlots c)
  split <;> exact ⟨rfl, rfl⟩
/-- A core outside a list is as before the changes of the list's cores. -/
theorem onCores_coreAt_ne {f : Nat → Core → Core} {j : Nat} (ks : List Nat) (hj : ¬ j ∈ ks) :
    ∀ s : State, (s.onCores ks f).coreAt j = s.coreAt j := by
  induction ks with
  | nil => exact fun s => rfl
  | cons k ks ih =>
    intro s
    refine (ih (fun m => hj (List.mem_cons_of_mem k m)) _).trans ?_
    have ne : j ≠ k := fun e => hj (e ▸ List.mem_cons_self)
    rw [coreAt_onCore, if_neg ne]
/-- What a change of a core makes hold of it, while Q holds and stays, holds after the changes of the cores of a list. -/
theorem onCores_reaches {P Q : Core → Prop} {f : Nat → Core → Core} {j : Nat} (hf : ∀ c, Q c → Q (f j c) ∧ P (f j c)) (ks : List Nat) :
    ∀ s : State, Q (s.coreAt j) → (j ∈ ks ∨ P (s.coreAt j)) → Q ((s.onCores ks f).coreAt j) ∧ P ((s.onCores ks f).coreAt j) := by
  induction ks with
  | nil => exact fun s hq hp => ⟨hq, hp.resolve_left List.not_mem_nil⟩
  | cons k ks ih =>
    intro s hq hp
    by_cases e : j = k
    · obtain ⟨hq', hp'⟩ := hf _ hq
      have core : (s.onCore k (f k)).coreAt j = f j (s.coreAt j) := by rw [coreAt_onCore, if_pos e, e]
      exact ih _ (core ▸ hq') (.inr (core ▸ hp'))
    · have core : (s.onCore k (f k)).coreAt j = s.coreAt j := by rw [coreAt_onCore, if_neg e]
      exact ih _ (core ▸ hq) (core ▸ hp.imp_left fun m => (List.mem_cons.mp m).resolve_left e)
theorem coxWrites_reaches {P : Core → Prop} {f : Nat → Core → Core} (hf : ∀ k c, P (f k c)) {j : Nat} {ks : List Nat} (hj : j ∈ ks)
    (s : State) : P ((s.coxWrites ks f).coreAt j) := by
  rw [State.coxWrites, (voteTiles_spares _ _).still.coreAt]
  exact (onCores_reaches (P := P) (Q := fun _ => True) (fun c _ => ⟨trivial, hf j c⟩) ks s trivial (.inl hj)).2
end

/-! ## Changes of one group's entry -/

section
variable (s : State) (i : Nat)
theorem onGroup_still (f : Group → Group) : Still s (s.onGroup i f) := Still.refl s
theorem group_onGroup_self (f : Group → Group) : (s.onGroup i f).group i = f (s.group i) := by rw [group_onGroup, if_pos rfl]
end

/-! ## Retirement (R273, R287) -/

section
variable (s : State) (i st : Nat)
/-- The records of a group are closed: it is RETIRED and lets go of its map, no relaunch of it waits, and an admission pass is
due. -/
def State.closeRecords (s old : State) (i : Nat) : State :=
  let t := (s.onGroup i fun g => { g with st := .retired, cut := .none, cores := [], save := none, rows := false }).unmapped old (old.group i)
  State.retireLoose { t with lead := { t.lead with bids := t.lead.bids.filter fun (b : Bid) => b.what != BidFor.relaunch i, passDue := true } }
    (old.group i)
theorem retireGroup_eq : s.retireGroup i st =
    ((((s.endSuspend i 8).freeCores (s.group i).cores).dropGid (s.group i).gid).endLaunch i st).closeRecords s i := rfl
theorem closeRecords_keeps (old : State) : Still s (s.closeRecords old i) ∧ (s.closeRecords old i).lead.queues = s.lead.queues ∧
    ((s.closeRecords old i).group i).st = .retired := by
  have marked := group_onGroup_self s i fun g => { g with st := .retired, cut := .none, cores := [], save := none, rows := false }
  have still := onGroup_still s i fun g => { g with st := .retired, cut := .none, cores := [], save := none, rows := false }
  have queues : (s.onGroup i fun g => { g with st := .retired, cut := .none, cores := [], save := none, rows := false }).lead.queues =
    s.lead.queues := rfl
  unfold State.closeRecords
  generalize s.onGroup i _ = t at marked still queues ⊢
  have unmap := unmapped_spares t old (old.group i)
  generalize t.unmapped old (old.group i) = u at unmap ⊢
  have loose := retireLoose_spares { u with lead :=
    { u.lead with bids := u.lead.bids.filter fun (b : Bid) => b.what != BidFor.relaunch i, passDue := true } } (old.group i)
  refine ⟨(still.trans unmap.still).trans (Still.trans (Still.refl u) loose.still), loose.queues.trans (unmap.queues.trans queues), ?_⟩
  rw [loose.group]
  exact congrArg Group.st ((unmap.group i).trans marked)
theorem endLaunch_changes : ∃ m p l, s.endLaunch i st = { s with mem := m, pois := p, lead := { s.lead with queues := l } } := by
  unfold State.endLaunch
  dsimp only
  split <;> exact ⟨_, _, _, rfl⟩
theorem endSuspend_frees (ks : List Nat) (gid : BitVec 16) :
    (s.endSuspend i 8).Frees (((s.endSuspend i 8).freeCores ks).dropGid gid) (s.controlled ks) := by
  obtain ⟨m, p, l, e⟩ := endSuspend_changes s i 8
  have frees := (freeCores_frees (s.endSuspend i 8) ks).sparing (dropGid_spares _ gid)
  refine (congrArg (State.Frees _ _) ?_).mp frees
  rw [e]
  rfl
theorem retireGroup_retires : ((s.retireGroup i st).group i).st = .retired ∧ FreedAll s (s.retireGroup i st) (s.group i).cores ∧
    SameRegs s (s.retireGroup i st) := by
  rw [retireGroup_eq]
  obtain ⟨m, p, l, e⟩ := endSuspend_changes s i 8
  have frees := endSuspend_frees s i (s.group i).cores (s.group i).gid
  generalize ((s.endSuspend i 8).freeCores (s.group i).cores).dropGid (s.group i).gid = t at frees ⊢
  obtain ⟨m', p', l', e'⟩ := endLaunch_changes t i st
  obtain ⟨still, -, retired⟩ := closeRecords_keeps (t.endLaunch i st) i s
  have cores (k : Nat) : ((t.endLaunch i st).closeRecords s i).coreAt k =
      if k ∈ s.controlled (s.group i).cores then (s.coreAt k).freed else s.coreAt k := by
    rw [still.coreAt, e']
    refine (frees.cores k).trans ?_
    rw [e]
    rfl
  refine ⟨retired, fun k hk running => ?_, ?_, fun k => ?_⟩
  · rw [cores k, if_pos (mem_controlled s hk running)]
    exact ⟨freed_slot _, rfl, rfl⟩
  · refine still.1.trans ?_
    rw [e']
    refine frees.here.trans ?_
    rw [e]
  · rw [cores k]
    exact freed_if_regs _
theorem endLaunch_some {c : Cmd} (h : (s.queue (s.group i).queue).cmds.find? (fun c => c.group == some i) = some c) :
    s.endLaunch i st = s.complete (s.group i).queue c st (s.group i).gid := by
  unfold State.endLaunch
  dsimp only
  rw [h]
/-- The launch of a group that retires completes with its status and its GID (R287). -/
theorem retireGroup_completes (hc : (s.group i).cut = .none ∨ (s.group i).cut = .drain) (hs : st < 2 ^ 15) {c : Cmd}
    (h : (s.queue (s.group i).queue).cmds.find? (fun c => c.group == some i) = some c) :
    Completed s (s.retireGroup i st) (s.group i).queue c st (s.group i).gid := by
  have frees := endSuspend_frees s i (s.group i).cores (s.group i).gid
  rw [retireGroup_eq, endSuspend_none s hc]
  rw [endSuspend_none s hc] at frees
  generalize (s.freeCores (s.group i).cores).dropGid (s.group i).gid = t at frees ⊢
  have group : t.group i = s.group i := frees.controls.group i
  have queue : t.queue (s.group i).queue = s.queue (s.group i).queue := frees.controls.queue _
  have ends : t.endLaunch i st = t.complete (s.group i).queue c st (s.group i).gid := by
    have some := endLaunch_some t i st (c := c)
    rw [group, queue] at some
    exact some h
  obtain ⟨still, queues, -⟩ := closeRecords_keeps (t.endLaunch i st) i s
  rw [ends] at still queues ⊢
  exact (complete_completed t _ c (s.group i).gid hs).sparing queue still.2.2.2.1 queues
end

/-! ## Relaunch (R279, R290) -/

section
variable (s : State) (i : Nat)
/-- A group is admitted anew: one restart more, its cores freed, and a bid of its class and age. -/
def Relaunched (s t : State) (i : Nat) : Prop := (t.group i).st = .admitted ∧
    (t.group i).rst = min 8 ((s.group i).rst + 1) ∧ (t.group i).gid = (s.group i).gid ∧ (t.group i).ckpt = (s.group i).ckpt ∧
    (t.group i).cut = .none ∧ FreedAll s t (s.group i).cores ∧ t.lead.bids = s.lead.bids ++
      [⟨.relaunch i, (s.group i).cls, (s.group i).age, (s.group i).queue, 0, none⟩] ∧ SameRegs s t ∧ t.mem = s.mem
theorem relaunchGroup_relaunches : Relaunched s (s.relaunchGroup i) i := by
  have frees := (freeCores_frees s (s.group i).cores).sparing (dropGid_spares _ (s.group i).gid)
  unfold State.relaunchGroup
  extract_lets g old t u l v
  have ht : t.group i = { s.group i with
      st := .admitted, rst := min 8 ((s.group i).rst + 1), cut := .none, peersIn := false, resume := false, cores := [], begun := false,
      save := none, rows := false } :=
    (group_onGroup_self ..).trans (by rw [frees.controls.group i])
  have unmap : t.Spares u := unmapped_spares t old g
  have loose : v.Spares (v.retireLoose g) := retireLoose_spares v g
  have group : (v.retireLoose g).group i = t.group i := (loose.group i).trans (unmap.group i)
  have same : Still t (v.retireLoose g) := unmap.still.trans (Still.trans (Still.refl u) loose.still)
  have freed : FreedAll s (v.retireLoose g) (s.group i).cores := fun k hk running => by
    rw [same.coreAt]
    exact frees.freedAll k hk running
  refine ⟨?_, ?_, ?_, ?_, ?_, freed, ?_, ?_, ?_⟩
  · rw [group, ht]
  · rw [group, ht]
  · rw [group, ht]
  · rw [group, ht]
  · rw [group, ht]
  · refine loose.bids.trans (congrArg (· ++ _) ?_)
    exact unmap.bids.trans frees.bids
  · exact SameRegs.trans frees.sameRegs same.sameRegs
  · exact same.2.2.2.1.trans frees.mem
end

/-! ## The beginning of a cut (R275, R280) -/

section
variable (s : State) (i : Nat)
/-- A cut has begun: CUT is on in the group's cores, and the group has it. -/
theorem beginCut_cuts (f : CutFor) : (∃ n, (s.beginCut i f).group i = { s.group i with cut := f, cutTick := n }) ∧
    (∀ k ∈ (s.group i).cores, (s.site (siteOf k)).triad.halted = false → ((s.beginCut i f).coreAt k).sh.cut = true) ∧
    SameRegs s (s.beginCut i f) ∧ (s.beginCut i f).mem = s.mem ∧ (s.beginCut i f).pois = s.pois := by
  have drops : s.Controls ((s.controlled (s.group i).cores).foldl State.dropPaddlesAt s) :=
    foldl_related State.Controls.refl State.Controls.trans dropPaddlesAt_controls _ s
  have e : s.beginCut i f = ((((s.controlled (s.group i).cores).foldl State.dropPaddlesAt s).coxWrites (s.controlled (s.group i).cores)
      fun _ c => { c with sh := { c.sh with cut := true, cutTick := s.clock.ticks } }).onGroup i fun g =>
        { g with cut := f, cutTick := s.clock.ticks }) := rfl
  rw [e]
  generalize (s.controlled (s.group i).cores).foldl State.dropPaddlesAt s = u at drops ⊢
  have writes := coxWrites_controls u (s.controlled (s.group i).cores)
    (f := fun _ c => { c with sh := { c.sh with cut := true, cutTick := s.clock.ticks } }) fun _ _ => ⟨rfl, rfl⟩
  have all := drops.trans writes
  refine ⟨⟨s.clock.ticks, (group_onGroup_self ..).trans (by rw [all.group i])⟩, fun k hk running => ?_, ?_, all.mem, all.pois⟩
  · exact coxWrites_reaches (P := fun c => c.sh.cut = true)
      (f := fun _ c => { c with sh := { c.sh with cut := true, cutTick := s.clock.ticks } }) (fun _ _ => rfl) (mem_controlled s hk running) u
  · exact all.regs.trans (onGroup_still _ i _).sameRegs
theorem endCut_ends : (s.endCut i).group i = { s.group i with cut := .none } ∧
    (∀ k ∈ (s.group i).cores, ((s.endCut i).coreAt k).sh.cut = false) ∧ SameRegs s (s.endCut i) ∧ (s.endCut i).mem = s.mem ∧
    (s.endCut i).lead.queues = s.lead.queues := by
  have writes := coxWrites_controls s (s.group i).cores
    (f := fun _ c => { c with sh := { c.sh with cut := false }
                              slots := c.slots.map fun t => { t with cutPend := false, parked := false } }) fun _ _ => ⟨rfl, rfl⟩
  have off (k : Nat) (hk : k ∈ (s.group i).cores) := coxWrites_reaches (P := fun c => c.sh.cut = false)
    (f := fun _ c => { c with sh := { c.sh with cut := false }
                              slots := c.slots.map fun t => { t with cutPend := false, parked := false } }) (fun _ _ => rfl) hk s
  unfold State.endCut
  generalize s.coxWrites (s.group i).cores _ = u at writes off ⊢
  exact ⟨(group_onGroup_self ..).trans (by rw [writes.group i]), off, writes.regs.trans (onGroup_still u i _).sameRegs,
    writes.mem, writes.queues⟩
end

end Sys2Proof.Machine
end

section

/-! Retirement, cuts, faults and relaunches of a group, as the events of the lead cox and of other panels work them (R271-R281). -/

namespace Sys2Proof.Machine

/-! ## The tests of a group -/

section
variable (s : State) (i : Nat)
theorem byLead_up {s : State} (h : s.leadUp = true) (t : State) : s.byLead t = .next t := by rw [State.byLead, if_pos h]
theorem allSlots_iff (c : Core) (p : Slot → Bool) : c.slots.toList.all p = true ↔ ∀ j : SlotId, p (c.slot j) = true := by
  rw [List.all_eq_true]
  constructor
  · exact fun h j => h _ (Vector.mem_toList_iff.mpr (Vector.getElem_mem _))
  · intro h x hx
    obtain ⟨n, hn, rfl⟩ := List.getElem_of_mem hx
    have n16 : n < 16 := by simpa using hn
    have e := h (BitVec.ofNat 4 n)
    simp only [Core.slot, bget, BitVec.toNat_ofNat, Nat.mod_eq_of_lt (show n < 2 ^ 4 from n16)] at e
    simpa using e
/-- The group has been started, and its slots, engines and packets are done (R273). -/
def Ended (s : State) (i : Nat) : Prop := (s.group i).begun = true ∧ s.treesQuiet (s.group i).gid = true ∧
    ∀ k ∈ (s.group i).cores, (s.coreAt k).quiet = true ∧
    ∀ j, ((s.coreAt k).slot j).paddle = true ∨ ((s.coreAt k).slot j).st = .free ∨ ((s.coreAt k).slot j).st = .retired
theorem groupEnded_iff : s.groupEnded i = true ↔ Ended s i := by
  have slots (k : Nat) := allSlots_iff (s.coreAt k) fun t => t.paddle || t.st == .free || t.st == .retired
  simp only [Bool.or_eq_true, beq_iff_eq, or_assoc] at slots
  simp only [State.groupEnded, Ended, Bool.and_eq_true, List.all_eq_true (l := (s.group i).cores), slots, and_assoc]
/-- The engines of a group's live cores are idle and nothing is unanswered (R279). -/
def Idle (s : State) (i : Nat) : Prop :=
  s.treesQuiet (s.group i).gid = true ∧ ∀ k ∈ (s.group i).cores, s.live k = true → (s.coreAt k).quiet = true
theorem idle_iff : (s.treesQuiet (s.group i).gid && ((s.group i).cores.filter s.live).all fun k => (s.coreAt k).quiet) = true ↔ Idle s i := by
  simp only [Idle, Bool.and_eq_true, List.all_eq_true, List.mem_filter, and_imp]
end

/-! ## What a quiet group's cut leaves before the save (R276) -/

/-- The same state, the selected core's record and the others' listed in another way. -/
def State.SameView (s t : State) : Prop := (∃ c p, t = { s with core := c, peers := p }) ∧ ∀ k, t.coreAt k = s.coreAt k

section
variable {s t u : State}
theorem State.SameView.refl (s : State) : s.SameView s := ⟨⟨_, _, rfl⟩, fun _ => rfl⟩
theorem State.SameView.trans (h : s.SameView t) (g : t.SameView u) : s.SameView u := by
  obtain ⟨⟨c, p, e⟩, cores⟩ := h
  obtain ⟨⟨c', p', e'⟩, cores'⟩ := g
  exact ⟨⟨c', p', by rw [e', e]⟩, fun k => (cores' k).trans (cores k)⟩
theorem State.SameView.controls (h : s.SameView t) : s.Controls t := by
  obtain ⟨⟨c, p, rfl⟩, cores⟩ := h
  exact ⟨⟨rfl, fun k => by rw [cores k]; exact ⟨rfl, rfl⟩⟩, rfl, rfl, rfl, rfl, rfl, rfl⟩
theorem State.SameView.site (h : s.SameView t) (n : Nat) : t.site n = s.site n := by
  obtain ⟨⟨c, p, rfl⟩, -⟩ := h
  rfl
theorem State.SameView.saveGroup (h : s.SameView t) (g : Group) : t.saveGroup g = s.saveGroup g := by
  obtain ⟨⟨c, p, rfl⟩, cores⟩ := h
  unfold State.saveGroup
  simp only [cores]
  rfl
theorem State.SameView.freedAll {ks : List Nat} (h : s.SameView t) (f : FreedAll t u ks) : FreedAll s u ks :=
  fun k hk running => f k hk ((congrArg (fun x : Site => x.triad.halted) (h.site _)).trans running)
theorem moveTo_back (s : State) (k : Nat) : s.SameView ((s.moveTo k).moveTo s.here) := by
  refine ⟨?_, fun j => by rw [moveTo_coreAt, moveTo_coreAt]⟩
  by_cases h : k = s.here
  · have stays : s.moveTo k = s := if_pos h
    rw [stays, State.moveTo, if_pos rfl]
    exact ⟨_, _, rfl⟩
  · have e : s.moveTo k = { s with peers := tdel k (tset (Core.reset s.here) s.peers s.here s.core), here := k, core := s.coreAt k } := by
      rw [State.moveTo, if_neg h]
    rw [e, State.moveTo, if_neg (Ne.symm h)]
    exact ⟨_, _, rfl⟩
theorem takeLate_none (h : s.core.sh.late = []) : s.takeLate = s := by simp [State.takeLate, State.takeIf, h]
theorem takeLate_sameView {k : Nat} (h : (s.coreAt k).sh.late = []) : s.SameView (s.atCore k State.takeLate) := by
  have here : (s.moveTo k).core = s.coreAt k := by rw [← moveTo_coreAt s k k, ← coreAt_here (s.moveTo k), moveTo_here]
  rw [State.atCore, takeLate_none (by rw [here, h])]
  exact moveTo_back s k
theorem drainPortOf_none {k : Nat} (h : (s.coreAt k).sh.port = []) : s.drainPortOf k = s := by rw [State.drainPortOf, h]; rfl
theorem freePaddlesAt_none {k : Nat} (h : ∀ j, ((s.coreAt k).slot j).paddle = false) (p : Slot → Bool) : s.freePaddlesAt k p = s := by
  unfold State.freePaddlesAt
  generalize allSlots = l
  induction l with
  | nil => rfl
  | cons j l ih =>
    rw [List.foldl_cons]
    simp only [h j, Bool.false_and, Bool.false_eq_true, if_false]
    exact ih
theorem takeAll_sameView (ks : List Nat) : ∀ s : State, (∀ k ∈ ks, (s.coreAt k).sh.late = []) →
    s.SameView (ks.foldl (fun s k => s.atCore k State.takeLate) s) := by
  induction ks with
  | nil => exact fun s _ => State.SameView.refl s
  | cons k ks ih =>
    intro s h
    have one := takeLate_sameView (h k List.mem_cons_self)
    exact one.trans (ih _ fun j hj => by rw [one.2 j]; exact h j (List.mem_cons_of_mem k hj))
theorem drainAll_none (ks : List Nat) (s : State)
    (h : ∀ k ∈ ks, (s.coreAt k).sh.port = [] ∧ ∀ j, ((s.coreAt k).slot j).paddle = false) :
    ks.foldl (fun s k => (s.drainPortOf k).freePaddlesAt k fun _ => true) s = s := by
  induction ks with
  | nil => rfl
  | cons k ks ih =>
    obtain ⟨port, paddles⟩ := h k List.mem_cons_self
    rw [List.foldl_cons, drainPortOf_none port, freePaddlesAt_none paddles]
    exact ih fun j hj => h j (List.mem_cons_of_mem k hj)
end

/-! ## Suspension (R275, R276) -/

section
variable {s : State} {i : Nat}
/-- What a group's cores wait with is taken, performed and freed (R276). -/
def State.settled (s : State) (ks : List Nat) : State :=
  ks.foldl (fun s k => (s.drainPortOf k).freePaddlesAt k fun _ => true) (ks.foldl (fun s k => s.atCore k State.takeLate) s)
/-- A saved group's records: it is SUSPENDED with its save, lets go of its map, and an admission pass is due. -/
def State.keepSave (s old : State) (i : Nat) (v : Save) : State :=
  let t := s.onGroup i fun g => { g with st := .suspended, cut := .none, save := some v, cores := [], begun := false, rows := false }
  let t := (t.unmapped old (old.group i)).retireLoose (old.group i)
  { t with lead := { t.lead with passDue := true } }
/-- A group that has been saved lets go of its cores, and its commands pass. -/
def State.suspended (s old : State) (i : Nat) (qs : List Nat) (v : Save) : State :=
  (qs.foldl (fun s q => s.completeCurrent q 0) ((s.freeCores (old.group i).cores).dropGid (old.group i).gid)).keepSave old i v
theorem keepSave_keeps (s old : State) (i : Nat) (v : Save) : Still s (s.keepSave old i v) ∧ (s.keepSave old i v).lead.queues = s.lead.queues ∧
    ((s.keepSave old i v).group i).st = .suspended ∧ ((s.keepSave old i v).group i).save = some v := by
  have marked := group_onGroup_self s i fun g =>
    { g with st := .suspended, cut := .none, save := some v, cores := [], begun := false, rows := false }
  have still := onGroup_still s i fun g =>
    { g with st := .suspended, cut := .none, save := some v, cores := [], begun := false, rows := false }
  have queues : (s.onGroup i fun g => { g with
      st := .suspended, cut := .none, save := some v, cores := [], begun := false, rows := false }).lead.queues = s.lead.queues := rfl
  unfold State.keepSave
  generalize s.onGroup i _ = t at marked still queues ⊢
  have loose := (unmapped_spares t old (old.group i)).trans (retireLoose_spares _ (old.group i))
  dsimp only
  generalize (t.unmapped old (old.group i)).retireLoose (old.group i) = u at loose ⊢
  have group := (loose.group i).trans marked
  exact ⟨still.trans loose.still, loose.queues.trans queues, congrArg Group.st group, congrArg Group.save group⟩
theorem settled_sameView {ks : List Nat}
    (h : ∀ k ∈ ks, (s.coreAt k).sh.port = [] ∧ (s.coreAt k).sh.late = [] ∧ ∀ j, ((s.coreAt k).slot j).paddle = false) :
    s.SameView (s.settled ks) := by
  have taken := takeAll_sameView ks s fun k hk => (h k hk).2.1
  unfold State.settled
  rw [drainAll_none ks _ fun k hk => by rw [taken.2 k]; exact ⟨(h k hk).1, (h k hk).2.2⟩]
  exact taken
theorem suspended_suspends {q : Nat} {c : Cmd} (old : State) (v : Save)
    (hl : (s.queue q).cmds.getLast? = some c) (hp : c.passed = false) :
    let t := s.suspended old i [q] v
    (t.group i).st = .suspended ∧ (t.group i).save = some v ∧ FreedAll s t (old.group i).cores ∧ Completed s t q c 0 0 ∧ SameRegs s t := by
  have frees := (freeCores_frees s (old.group i).cores).sparing (dropGid_spares _ (old.group i).gid)
  have suspends : s.suspended old i [q] v =
    (((s.freeCores (old.group i).cores).dropGid (old.group i).gid).completeCurrent q 0).keepSave old i v := rfl
  rw [suspends]
  generalize (s.freeCores (old.group i).cores).dropGid (old.group i).gid = u at frees ⊢
  have queue : u.queue q = s.queue q := frees.controls.queue q
  rw [completeCurrent_last u q (by rw [queue]; exact hl) hp 0]
  obtain ⟨still, queues, suspended, save⟩ := keepSave_keeps (u.complete q c 0 0) old i v
  have done := (complete_completed u q c (st := 0) 0 (by decide)).sparing queue still.2.2.2.1 queues
  generalize (u.complete q c 0 0).keepSave old i v = t at *
  have cores (k : Nat) : t.coreAt k = if k ∈ s.controlled (old.group i).cores then (s.coreAt k).freed else s.coreAt k :=
    (still.coreAt k).trans (frees.cores k)
  refine ⟨suspended, save, fun k hk running => ?_, done, still.1.trans frees.here, fun k => ?_⟩
  · rw [cores k, if_pos (mem_controlled s hk running)]
    exact ⟨freed_slot _, rfl, rfl⟩
  · rw [cores k]
    exact freed_if_regs _
end

/-! ## The events of the lead cox -/

section
variable {s : State} {i : Nat}
/-- The launch of a group ends with a status, when a command of the group's queue holds it. -/
def LaunchEnds (s t : State) (i st : Nat) : Prop := ∀ c,
  (s.queue (s.group i).queue).cmds.find? (fun c => c.group == some i) = some c → Completed s t (s.group i).queue c st (s.group i).gid
/-- The group retires with a status, its cores freed and its launch complete. -/
def Retires (s t : State) (i st : Nat) : Prop := (t.group i).st = .retired ∧ FreedAll s t (s.group i).cores ∧ LaunchEnds s t i st ∧ SameRegs s t
theorem retireGroup_ends {st : Nat} (hc : (s.group i).cut = .none ∨ (s.group i).cut = .drain) (hs : st < 2 ^ 15) :
    Retires s (s.retireGroup i st) i st := by
  obtain ⟨retired, freed, regs⟩ := retireGroup_retires s i st
  exact ⟨retired, freed, fun c h => retireGroup_completes s i st hc hs h, regs⟩

theorem groupRetirement_exec (up : s.leadUp = true) : exec (.groupRetirement i) s = .next
    (if ((s.group i).st = .running ∨ ((s.group i).st = .draining ∧ (s.group i).cut ≠ .none)) ∧ s.groupEnded i then s.retireGroup i 0 else s) :=
  byLead_up up _
theorem groupRetirement_retires (up : s.leadUp = true)
    (h : (s.group i).st = .running ∧ (s.group i).cut = .none ∨ (s.group i).st = .draining ∧ (s.group i).cut = .drain) (e : Ended s i) :
    Completes (.groupRetirement i) s fun t => Retires s t i 0 := by
  have runs : (s.group i).st = .running ∨ ((s.group i).st = .draining ∧ (s.group i).cut ≠ .none) :=
    h.imp And.left fun d => ⟨d.1, by rw [d.2]; decide⟩
  have cut : (s.group i).cut = .none ∨ (s.group i).cut = .drain := h.imp And.right And.right
  exact ⟨_, (groupRetirement_exec up).trans (congrArg _ (if_pos ⟨runs, (groupEnded_iff s i).mpr e⟩)), retireGroup_ends cut (by decide)⟩
theorem groupRetirement_waits (up : s.leadUp = true)
    (h : ((s.group i).st ≠ .running ∧ ((s.group i).st ≠ .draining ∨ (s.group i).cut = .none)) ∨ ¬ Ended s i) :
    Completes (.groupRetirement i) s fun t => t = s := by
  refine ⟨s, (groupRetirement_exec up).trans (congrArg _ (if_neg ?_)), rfl⟩
  rintro ⟨st, ended⟩
  rcases h with ⟨stopped, uncut⟩ | h
  · rcases st with running | ⟨draining, cut⟩
    · exact stopped running
    · exact uncut.elim (· draining) cut
  · exact h ((groupEnded_iff s i).mp ended)

/-- What a completed cut does with a group that has not ended (R275). -/
def State.cutCompletes (s : State) (i : Nat) : State :=
  match (s.group i).cut with
  | .suspend qs => (s.settled (s.group i).cores).suspended s i qs ((s.settled (s.group i).cores).saveGroup (s.group i))
  | .drain => s.relaunchGroup i
  | .none => s
theorem cutComplete_exec (up : s.leadUp = true) : exec (.cutComplete i) s = .next
    (if !(s.cutDone i) then s else if (s.group i).cut ≠ .none ∧ s.groupEnded i then s.retireGroup i 0 else s.cutCompletes i) :=
  byLead_up up _
theorem cutComplete_undone (up : s.leadUp = true) (hd : s.cutDone i = false) : Completes (.cutComplete i) s fun t => t = s :=
  ⟨s, (cutComplete_exec up).trans (congrArg _ (if_pos (by rw [hd]; rfl))), rfl⟩
theorem cutComplete_retires (up : s.leadUp = true) (hd : s.cutDone i = true) (hc : (s.group i).cut ≠ .none) (e : Ended s i) :
    Completes (.cutComplete i) s fun t => (t.group i).st = .retired ∧ FreedAll s t (s.group i).cores := by
  obtain ⟨retired, freed, -⟩ := retireGroup_retires s i 0
  refine ⟨_, (cutComplete_exec up).trans (congrArg _ ((if_neg (by rw [hd]; decide)).trans ?_)), retired, freed⟩
  exact if_pos ⟨hc, (groupEnded_iff s i).mpr e⟩
theorem cutComplete_goes (up : s.leadUp = true) (hd : s.cutDone i = true) (e : ¬ Ended s i) :
    exec (.cutComplete i) s = .next (s.cutCompletes i) :=
  (cutComplete_exec up).trans (congrArg _ ((if_neg (by rw [hd]; decide)).trans (if_neg fun h => e ((groupEnded_iff s i).mp h.2))))
theorem cutComplete_relaunches (up : s.leadUp = true) (hd : s.cutDone i = true) (e : ¬ Ended s i) (hc : (s.group i).cut = .drain) :
    Completes (.cutComplete i) s fun t => Relaunched s t i := by
  refine ⟨_, cutComplete_goes up hd e, ?_⟩
  unfold State.cutCompletes
  rw [hc]
  exact relaunchGroup_relaunches s i
theorem cutComplete_suspends (up : s.leadUp = true) (hd : s.cutDone i = true) (e : ¬ Ended s i) {q : Nat} {c : Cmd}
    (hc : (s.group i).cut = .suspend [q]) (hl : (s.queue q).cmds.getLast? = some c) (hp : c.passed = false)
    (hq : ∀ k ∈ (s.group i).cores, (s.coreAt k).sh.port = [] ∧ (s.coreAt k).sh.late = [] ∧ ∀ j, ((s.coreAt k).slot j).paddle = false) :
    Completes (.cutComplete i) s fun t => (t.group i).st = .suspended ∧ (t.group i).save = some (s.saveGroup (s.group i)) ∧
      FreedAll s t (s.group i).cores ∧ Completed s t q c 0 0 ∧ SameRegs s t := by
  have view := settled_sameView hq
  refine ⟨_, cutComplete_goes up hd e, ?_⟩
  unfold State.cutCompletes
  rw [hc]
  dsimp only
  generalize s.settled (s.group i).cores = u at view ⊢
  rw [view.saveGroup]
  have queue : u.queue q = s.queue q := view.controls.queue q
  obtain ⟨suspended, save, freed, done, regs⟩ := suspended_suspends (s := u) (i := i) s (s.saveGroup (s.group i)) (by rw [queue]; exact hl) hp
  exact ⟨suspended, save, view.freedAll freed, done.sparing queue rfl rfl, view.controls.regs.trans regs⟩

theorem cutDeadline_exec (up : s.leadUp = true) : exec (.cutDeadline i) s = .next
    (if s.clock.ticks < (s.group i).cutTick + 2 ^ 26 ∨ s.cutDone i then s
    else if (s.group i).cut ≠ .none ∧ s.groupEnded i then s.retireGroup i 0
    else match (s.group i).cut with
      | .suspend _ => (s.endSuspend i 8).endCut i
      | .drain => s.relaunchGroup i
      | .none => s) :=
  byLead_up up _
theorem cutDeadline_early (up : s.leadUp = true) (h : s.clock.ticks < (s.group i).cutTick + 2 ^ 26) :
    Completes (.cutDeadline i) s fun t => t = s := ⟨s, (cutDeadline_exec up).trans (congrArg _ (if_pos (.inl h))), rfl⟩
theorem cutDeadline_due (hd : s.cutDone i = false) (h : (s.group i).cutTick + 2 ^ 26 ≤ s.clock.ticks) :
    ¬ (s.clock.ticks < (s.group i).cutTick + 2 ^ 26 ∨ s.cutDone i = true) := by
  rintro (early | done)
  · exact absurd early (Nat.not_lt.mpr h)
  · exact absurd (hd.symm.trans done) (by decide)
theorem cutDeadline_retires (up : s.leadUp = true) (hd : s.cutDone i = false) (h : (s.group i).cutTick + 2 ^ 26 ≤ s.clock.ticks)
    (hc : (s.group i).cut ≠ .none) (e : Ended s i) :
    Completes (.cutDeadline i) s fun t => (t.group i).st = .retired ∧ FreedAll s t (s.group i).cores := by
  obtain ⟨retired, freed, -⟩ := retireGroup_retires s i 0
  exact ⟨_, (cutDeadline_exec up).trans (congrArg _ ((if_neg (cutDeadline_due hd h)).trans (if_pos ⟨hc, (groupEnded_iff s i).mpr e⟩))),
    retired, freed⟩
theorem cutDeadline_goes (up : s.leadUp = true) (hd : s.cutDone i = false) (h : (s.group i).cutTick + 2 ^ 26 ≤ s.clock.ticks)
    (e : ¬ Ended s i) : exec (.cutDeadline i) s = .next (match (s.group i).cut with
      | .suspend _ => (s.endSuspend i 8).endCut i
      | .drain => s.relaunchGroup i
      | .none => s) :=
  (cutDeadline_exec up).trans (congrArg _ ((if_neg (cutDeadline_due hd h)).trans (if_neg fun h => e ((groupEnded_iff s i).mp h.2))))
theorem cutDeadline_relaunches (up : s.leadUp = true) (hd : s.cutDone i = false) (h : (s.group i).cutTick + 2 ^ 26 ≤ s.clock.ticks)
    (e : ¬ Ended s i) (hc : (s.group i).cut = .drain) : Completes (.cutDeadline i) s fun t => Relaunched s t i := by
  refine ⟨_, cutDeadline_goes up hd h e, ?_⟩
  rw [hc]
  exact relaunchGroup_relaunches s i
theorem cutDeadline_givesUp (up : s.leadUp = true) (hd : s.cutDone i = false) (h : (s.group i).cutTick + 2 ^ 26 ≤ s.clock.ticks)
    (e : ¬ Ended s i) {q : Nat} {c : Cmd} (hc : (s.group i).cut = .suspend [q]) (hl : (s.queue q).cmds.getLast? = some c)
    (hp : c.passed = false) :
    Completes (.cutDeadline i) s fun t => (t.group i).st = (s.group i).st ∧ (t.group i).cut = .none ∧
      (∀ k ∈ (s.group i).cores, (t.coreAt k).sh.cut = false) ∧ Completed s t q c 8 0 ∧ SameRegs s t := by
  refine ⟨_, cutDeadline_goes up hd h e, ?_⟩
  rw [hc]
  dsimp only
  rw [endSuspend_one s q hc, completeCurrent_last s q hl hp]
  obtain ⟨group, off, regs, mem, queues⟩ := endCut_ends (s.complete q c 8 0) i
  have done := (complete_completed s q c (st := 8) 0 (by decide)).sparing rfl mem queues
  exact ⟨by rw [group]; rfl, by rw [group], off, done, SameRegs.trans (complete_groupsFault s q c 8 0).regs regs⟩

theorem relaunch_exec (up : s.leadUp = true) (hf : (s.group i).st = .faulted) : exec (.relaunch i) s = .next
    (if s.clock.ticks < (s.group i).faultAt + 2 ^ 20 ∧
        !(s.treesQuiet (s.group i).gid && ((s.group i).cores.filter s.live).all fun k => (s.coreAt k).quiet) then s
    else if 8 ≤ (s.group i).rst then s.retireGroup i 9
    else s.relaunchGroup i) :=
  (byLead_up up _).trans (congrArg _ (if_neg (not_not_intro hf)))
theorem relaunch_due (h : (s.group i).faultAt + 2 ^ 20 ≤ s.clock.ticks ∨ Idle s i) : ¬ (s.clock.ticks < (s.group i).faultAt + 2 ^ 20 ∧
    (!(s.treesQuiet (s.group i).gid && ((s.group i).cores.filter s.live).all fun k => (s.coreAt k).quiet)) = true) := by
  rintro ⟨early, busy⟩
  rcases h with late | idle
  · omega
  · rw [(idle_iff s i).mpr idle] at busy
    exact absurd busy (by decide)
theorem relaunch_waits (up : s.leadUp = true) (hf : (s.group i).st = .faulted) (early : s.clock.ticks < (s.group i).faultAt + 2 ^ 20)
    (busy : ¬ Idle s i) : Completes (.relaunch i) s fun t => t = s := by
  rw [← idle_iff, Bool.not_eq_true] at busy
  exact ⟨s, (relaunch_exec up hf).trans (congrArg _ (if_pos ⟨early, by rw [busy]; rfl⟩)), rfl⟩
theorem relaunch_relaunches (up : s.leadUp = true) (hf : (s.group i).st = .faulted)
    (h : (s.group i).faultAt + 2 ^ 20 ≤ s.clock.ticks ∨ Idle s i) (few : (s.group i).rst < 8) :
    Completes (.relaunch i) s fun t => Relaunched s t i :=
  ⟨_, (relaunch_exec up hf).trans (congrArg _ ((if_neg (relaunch_due h)).trans (if_neg (Nat.not_le.mpr few)))), relaunchGroup_relaunches s i⟩
theorem relaunch_retires (up : s.leadUp = true) (hf : (s.group i).st = .faulted)
    (h : (s.group i).faultAt + 2 ^ 20 ≤ s.clock.ticks ∨ Idle s i) (many : 8 ≤ (s.group i).rst) (hc : (s.group i).cut = .none) :
    Completes (.relaunch i) s fun t => Retires s t i 9 :=
  ⟨_, (relaunch_exec up hf).trans (congrArg _ ((if_neg (relaunch_due h)).trans (if_pos many))), retireGroup_ends (.inl hc) (by decide)⟩
end

/-! ## Groups of other panels (R271, R293) -/

section
variable {s : State} {gid : BitVec 16} {i : Nat}
theorem peerFault_exec (up : s.leadUp = true) (hg : s.groupOf gid = some i) (d : Bool) :
    exec (.peerPanelGroupFault gid d) s = .next (s.follow i d) := by
  refine (byLead_up up _).trans (congrArg _ ?_)
  rw [hg]
theorem peerAdmission_seeds (up : s.leadUp = true) (hg : s.groupOf gid = some i) (ha : (s.group i).st = .admitted)
    (hl : s.holdsLane i = true) (hn : 1 < (s.group i).npan) :
    Completes (.peerPanelAdmission gid) s fun t => Still s t ∧ (t.group i).st = .seeding ∧ (t.group i).peersIn = true := by
  have group := group_onGroup_self s i fun g => { g with st := .seeding, peersIn := true }
  refine ⟨s.onGroup i fun g => { g with st := .seeding, peersIn := true }, (byLead_up up _).trans (congrArg _ ?_), onGroup_still s i _,
    congrArg Group.st group, congrArg Group.peersIn group⟩
  rw [hg]
  exact if_pos ⟨ha, hl, hn⟩
theorem peerPanel_none (up : s.leadUp = true) (hg : s.groupOf gid = none) (d : Bool) :
    (Completes (.peerPanelAdmission gid) s fun t => t = s) ∧ (Completes (.peerPanelGroupFault gid d) s fun t => t = s) := by
  refine ⟨⟨s, (byLead_up up _).trans (congrArg _ ?_), rfl⟩, ⟨s, (byLead_up up _).trans (congrArg _ ?_), rfl⟩⟩
  all_goals rw [hg]
/-- A group that a fault stops: it is FAULTED from this tick on, and its controlled cores stop. -/
theorem faultGroup_marks (h : s.alive i) : ((s.faultGroup i).group i).st = .faulted ∧ ((s.faultGroup i).group i).faultAt = s.clock.ticks ∧
    (∀ k ∈ (s.group i).cores, (s.site (siteOf k)).triad.halted = false → ((s.faultGroup i).coreAt k).ctl.issue = .stopped ∧
      ∀ j, (((s.faultGroup i).coreAt k).slot j).st = .free ∨ (((s.faultGroup i).coreAt k).slot j).st = .trapped) ∧
    SameRegs s (s.faultGroup i) := by
  have regs := (faultGroup_stops h).1.regs
  rw [faultGroup_eq s h] at regs ⊢
  generalize (s.endSuspend i 8).closeWindows _ = u at regs ⊢
  have stops (k : Nat) (hk : k ∈ s.controlled (s.group i).cores) :
      ((u.coxWrites (s.controlled (s.group i).cores) fun _ c => c.groupStops).coreAt k).ctl.issue = .stopped ∧
      ∀ j, (((u.coxWrites (s.controlled (s.group i).cores) fun _ c => c.groupStops).coreAt k).slot j).st = .free ∨
        (((u.coxWrites (s.controlled (s.group i).cores) fun _ c => c.groupStops).coreAt k).slot j).st = .trapped := by
    refine coxWrites_reaches (P := fun c => c.ctl.issue = .stopped ∧ ∀ j, (c.slot j).st = .free ∨ (c.slot j).st = .trapped)
      (f := fun _ c => c.groupStops) (fun _ c => ⟨rfl, fun j => ?_⟩) hk u
    have st : (c.groupStops.slot j).st = if (c.slot j).st = .free then .free else .trapped := trapSlots_st c j
    rw [st]
    split
    · exact .inl rfl
    · exact .inr rfl
  have group := group_onGroup_self (u.coxWrites (s.controlled (s.group i).cores) fun _ c => c.groupStops) i fun g =>
    { g with st := .faulted, faultAt := s.clock.ticks, cut := .none }
  exact ⟨congrArg Group.st group, congrArg Group.faultAt group, fun k hk running => stops k (mem_controlled s hk running), regs⟩
/-- A change of a group's entry that keeps its cores, and then the cut of a drain. -/
theorem drain_cuts (f : Group → Group) (hf : (f (s.group i)).cores = (s.group i).cores) :
    let t := (s.onGroup i f).beginCut i .drain
    (t.group i).st = (f (s.group i)).st ∧ (t.group i).cut = .drain ∧
      (∀ k ∈ (s.group i).cores, (s.site (siteOf k)).triad.halted = false → (t.coreAt k).sh.cut = true) ∧ SameRegs s t ∧ t.mem = s.mem ∧
      t.pois = s.pois := by
  have group := group_onGroup_self s i f
  obtain ⟨⟨n, cut⟩, on, regs, mem, pois⟩ := beginCut_cuts (s.onGroup i f) i .drain
  rw [group] at cut on
  exact ⟨by rw [cut], by rw [cut], fun k hk running => on k (hf ▸ hk) running, regs, mem, pois⟩
theorem follow_running_drains (hr : (s.group i).st = .running) (hc : (s.group i).cut = .none) :
    s.follow i true = (s.onGroup i fun g => { g with st := .draining, after := none }).beginCut i .drain := by
  have follows : s.follow i true = s.drainGroup i none := by
    unfold State.follow
    simp only [hr, if_true]
  rw [follows, State.drainGroup, if_pos hr, endSuspend_none s (.inl hc)]
theorem follow_alive_faults (h : s.alive i) : s.follow i false = s.faultGroup i := by
  unfold State.follow
  rcases h with h | h | h | h
  all_goals
    simp only [h]
    rfl
theorem follow_loading_drains (h : (s.group i).st = .seeding ∨ (s.group i).st = .loading) :
    s.follow i true = (s.onGroup i fun g => { g with st := .draining }).beginCut i .drain := by
  unfold State.follow
  rcases h with h | h
  all_goals
    simp only [h]
    rfl
/-- The state in which a group without cores follows another panel's: a RESUME in progress has passed with BUSY. -/
theorem follow_waiting (h : (s.group i).st = .admitted ∨ (s.group i).st = .suspended) (d : Bool) :
    ∃ u : State, SameRegs s u ∧ s.follow i d = u.onGroup i fun g =>
      if d then { g with st := .draining, cut := .drain, cutTick := s.clock.ticks, cores := [], begun := false, save := none }
      else { g with st := .faulted, faultAt := s.clock.ticks, cores := [], save := none } := by
  have passes (l : List Nat) (v : State) (hv : SameRegs s v) : SameRegs s (l.foldl (fun s q => s.completeCurrent q 8) v) := by
    obtain ⟨m, p, r, e⟩ := completeAll_changes 8 l v
    rw [e]
    exact hv
  unfold State.follow
  rcases h with h | h
  all_goals
    simp only [h]
    refine ⟨_, ?_, rfl⟩
    exact passes _ _ ⟨rfl, fun _ => ⟨rfl, rfl⟩⟩
theorem follow_waiting_faults (h : (s.group i).st = .admitted ∨ (s.group i).st = .suspended) :
    ((s.follow i false).group i).st = .faulted ∧ SameRegs s (s.follow i false) := by
  obtain ⟨u, regs, e⟩ := follow_waiting h false
  rw [e]
  exact ⟨by rw [group_onGroup_self]; rfl, regs⟩
theorem cutDone_of_unbegun (h : (s.group i).begun = false) : s.cutDone i = true := by
  rw [State.cutDone, h]
  rfl
theorem follow_waiting_drains (h : (s.group i).st = .admitted ∨ (s.group i).st = .suspended) :
    ((s.follow i true).group i).st = .draining ∧ ((s.follow i true).group i).cut = .drain ∧ (s.follow i true).cutDone i = true ∧
    SameRegs s (s.follow i true) := by
  obtain ⟨u, regs, e⟩ := follow_waiting h true
  rw [e]
  refine ⟨?_, ?_, cutDone_of_unbegun ?_, regs⟩
  all_goals
    rw [group_onGroup_self]
    rfl
end

/-- Settles O60: retirement, completed cuts, deadlines, relaunches, and what other panels' groups bring. -/
theorem groupEndsAndRelaunches : Obligations.GroupEndsAndRelaunches := by
  refine ⟨fun s i up h e => groupRetirement_retires up h e, fun s i up h => groupRetirement_waits up h,
    fun s i up hd hc e => cutComplete_retires up hd hc e, fun s i up hd e => ⟨fun q c hc hl hp hq => ?_, cutComplete_relaunches up hd e⟩,
    fun s i up hd => ⟨cutComplete_undone up hd, cutDeadline_early up, cutDeadline_retires up hd, fun h e =>
      ⟨cutDeadline_relaunches up hd h e, fun q c hc hl hp => ?_⟩⟩,
    fun s i up hf => ⟨relaunch_waits up hf, relaunch_relaunches up hf, relaunch_retires up hf⟩,
    fun s gid i up hg => ⟨peerAdmission_seeds up hg, fun hr => ?_, fun hr hc => ?_, fun hl => ⟨?_, ?_⟩, fun hw => ⟨?_, ?_⟩⟩,
    fun s gid d up hg => peerPanel_none up hg d⟩
  · obtain ⟨t, exe, suspended, save, freed, ⟨word, cmds⟩, regs⟩ := cutComplete_suspends up hd e hc hl hp hq
    exact ⟨t, exe, suspended, save, freed, cmds, word, regs⟩
  · obtain ⟨t, exe, st, cut, off, ⟨word, cmds⟩, regs⟩ := cutDeadline_givesUp up hd h e hc hl hp
    exact ⟨t, exe, st, cut, off, cmds, word, regs⟩
  · exact ⟨_, (peerFault_exec up hg false).trans (congrArg _ (follow_alive_faults (.inl hr))), faultGroup_marks (.inl hr)⟩
  · exact ⟨_, (peerFault_exec up hg true).trans (congrArg _ (follow_running_drains hr hc)), drain_cuts _ rfl⟩
  · obtain ⟨draining, cut, -, regs, -⟩ := drain_cuts (s := s) (i := i) (fun g => { g with st := .draining }) rfl
    exact ⟨_, (peerFault_exec up hg true).trans (congrArg _ (follow_loading_drains hl)), draining, cut, regs⟩
  · have alive : s.alive i := .inr (.inr hl)
    obtain ⟨faulted, -, -, regs⟩ := faultGroup_marks alive
    exact ⟨_, (peerFault_exec up hg false).trans (congrArg _ (follow_alive_faults alive)), faulted, regs⟩
  · exact ⟨_, peerFault_exec up hg false, follow_waiting_faults hw⟩
  · exact ⟨_, peerFault_exec up hg true, follow_waiting_drains hw⟩

end Sys2Proof.Machine
end

section

/-! Lanes: their keys, the seeding map, and the memory that loading leaves (R19, R271, R274). -/

namespace Sys2Proof.Machine

/-! ## Keys of a lane -/

theorem mem_rectKeys (x y w h k : Nat) : k ∈ rectKeys x y w h ↔ ∃ a b, a < w ∧ b < h ∧ k = keyOf (x + a) (y + b) := by
  simp only [rectKeys, List.mem_flatMap, List.mem_map, List.mem_range]
  constructor
  · rintro ⟨a, ha, b, hb, rfl⟩
    exact ⟨a, b, ha, hb, rfl⟩
  · rintro ⟨a, b, ha, hb, rfl⟩
    exact ⟨a, ha, b, hb, rfl⟩
section
variable {g : Group} {k : Nat}
/-- The lane lies on the panel. -/
def Group.onPanel (g : Group) : Prop := g.col0 + 8 * g.w ≤ 320 ∧ g.row0 + 4 * g.h ≤ 160
theorem inLane_iff : g.inLane k = true ↔ g.col0 ≤ keyX k ∧ keyX k < g.col0 + 8 * g.w ∧ g.row0 ≤ keyY k ∧ keyY k < g.row0 + 4 * g.h := by
  simp only [Group.inLane, Bool.and_eq_true, decide_eq_true_eq, and_assoc]
theorem mem_laneKeys (h : g.onPanel) : k ∈ g.laneKeys ↔ g.inLane k = true := by
  obtain ⟨cols, rows⟩ := h
  rw [Group.laneKeys, mem_rectKeys, inLane_iff]
  unfold keyOf keyX keyY
  constructor
  · rintro ⟨a, b, ha, hb, rfl⟩
    omega
  · rintro ⟨west, east, north, south⟩
    exact ⟨k / 256 - g.col0, k % 256 - g.row0, by omega, by omega, by omega⟩
theorem laneKeys_bounds (h : g.onPanel) (hk : k ∈ g.laneKeys) :
    g.col0 ≤ keyX k ∧ keyX k < 320 ∧ g.row0 ≤ keyY k ∧ keyY k < 160 ∧ k < 2 ^ 17 := by
  obtain ⟨cols, rows⟩ := h
  have lane := inLane_iff.mp ((mem_laneKeys ⟨cols, rows⟩).mp hk)
  unfold keyX keyY at lane ⊢
  omega
theorem regionRow_lt (k : Nat) : regionRow k < 64 := by
  unfold regionRow regionOf
  omega
end

/-! ## The seeding map (R19) -/

section
variable {s : State} {i : Nat} {g : Group} {k : Nat}
/-- An entry of the seeding map: the site's skip column of the region row. -/
theorem seedMap_entry (hk : k ∈ g.laneKeys) :
    tget 32 (s.seedMap g [] fun _ => true) (64 * siteOf k + regionRow k) = tget 32 (s.site (siteOf k)).skips (regionRow k) := by
  have step (t : Tbl Nat) (j : Nat) :
      tget 32 (tset 32 t (64 * siteOf j + regionRow j) (tget 32 (s.site (siteOf j)).skips (regionRow j))) (64 * siteOf k + regionRow k) =
        if 64 * siteOf k + regionRow k = 64 * siteOf j + regionRow j then tget 32 (s.site (siteOf k)).skips (regionRow k)
        else tget 32 t (64 * siteOf k + regionRow k) := by
    rw [tget_tset]
    refine if_ctx_congr Iff.rfl (fun e => ?_) fun _ => rfl
    have rj := regionRow_lt j
    have rk := regionRow_lt k
    rw [show siteOf j = siteOf k by omega, show regionRow j = regionRow k by omega]
  have all (l : List Nat) : ∀ t : Tbl Nat,
      (k ∈ l ∨ tget 32 t (64 * siteOf k + regionRow k) = tget 32 (s.site (siteOf k)).skips (regionRow k)) →
      tget 32 (l.foldl (fun t j => tset 32 t (64 * siteOf j + regionRow j) (tget 32 (s.site (siteOf j)).skips (regionRow j))) t)
        (64 * siteOf k + regionRow k) = tget 32 (s.site (siteOf k)).skips (regionRow k) := by
    induction l with
    | nil => exact fun t h => h.resolve_left List.not_mem_nil
    | cons j l ih =>
      refine fun t h => ih _ ?_
      rw [step]
      split
      · exact .inr rfl
      · next e => exact h.imp_left fun m => (List.mem_cons.mp m).resolve_left fun e' => e (by rw [e'])
  exact all g.laneKeys [] (.inl hk)
theorem tins_mem {α : Type} (v : α) (t : Tbl α) (j : Nat) : (j, v) ∈ tins j v t := by
  induction t with
  | nil => exact List.mem_singleton.mpr rfl
  | cons e t ih =>
    obtain ⟨n, w⟩ := e
    unfold tins
    split
    · exact List.mem_cons_self
    split
    · exact List.mem_cons_self
    · exact List.mem_cons_of_mem _ ih
theorem tset_mem {α : Type} [DecidableEq α] {d v : α} (h : v ≠ d) (t : Tbl α) (j : Nat) : (j, v) ∈ tset d t j v := by
  rw [tset, if_neg h]
  exact tins_mem v t j
/-- No group that holds a map covers a node of the lane. -/
def State.laneFree (s : State) (g : Group) : Prop := ∀ e ∈ s.lead.groups, e.2.mapped = true → ∀ k ∈ g.laneKeys, e.2.inLane k = false
theorem skipOf_free (hf : s.laneFree g) (hk : k ∈ g.laneKeys) : s.skipOf k = tget 32 (s.site (siteOf k)).skips (regionRow k) := by
  have none : s.lead.groups.find? (fun e => e.2.mapped && e.2.inLane k) = none := by
    rw [List.find?_eq_none]
    intro e he
    cases m : e.2.mapped
    · simp
    · simp [hf e he m k hk]
  unfold State.skipOf
  rw [none]
/-- A group that takes the sites' skip columns into its map leaves every node of its lane at its place. -/
theorem skipOf_seeded (hf : s.laneFree g) (hg : g.onPanel) (hk : k ∈ g.laneKeys) {f : Group → Group} (hm : (f (s.group i)).mapped = true)
    (hr : ∀ j, (f (s.group i)).inLane j = g.inLane j) (hs : (f (s.group i)).skips = s.seedMap g [] fun _ => true) :
    (s.onGroup i f).skipOf k = s.skipOf k := by
  have listed : f (s.group i) ≠ Group.reset := by
    intro e
    rw [e] at hm
    exact absurd hm (by decide)
  have lane : (f (s.group i)).inLane k = true := (hr k).trans ((mem_laneKeys hg).mp hk)
  have only : ∀ e ∈ (s.onGroup i f).lead.groups, (e.2.mapped && e.2.inLane k) = true → e.2 = f (s.group i) := by
    intro e he hit
    obtain ⟨mapped, covers⟩ := Bool.and_eq_true_iff.mp hit
    rcases mem_tset he with rfl | old
    · rfl
    · exact absurd covers (by rw [hf e old mapped k hk]; decide)
  have found : ∃ e, (s.onGroup i f).lead.groups.find? (fun e => e.2.mapped && e.2.inLane k) = some e := by
    rw [← Option.isSome_iff_exists, List.find?_isSome]
    exact ⟨(i, f (s.group i)), tset_mem listed _ _, by simp [hm, lane]⟩
  obtain ⟨⟨n, x⟩, e⟩ := found
  have x_eq : x = f (s.group i) := only (n, x) (List.mem_of_find?_eq_some e)
    (List.find?_some (p := fun e : Nat × Group => e.2.mapped && e.2.inLane k) e)
  rw [skipOf_free hf hk, State.skipOf, e]
  dsimp only
  rw [x_eq, hs, seedMap_entry hk]
/-- A node's liveness depends on its place alone. -/
theorem live_congr {t : State} (hs : t.sites = s.sites) (hk : t.skipOf k = s.skipOf k) : t.live k = s.live k := by
  have site (n : Nat) : t.site n = s.site n := by rw [State.site, hs, State.site]
  simp only [State.live, State.bound, State.powered, State.physCol, site, hk]
end

/-! ## Tables in parts -/

section
variable {α : Type} (d : α)
theorem tget_append (a b : Tbl α) (k : Nat) : tget d (a ++ b) k = tget (tget d b k) a k := by
  induction a with
  | nil => rfl
  | cons e a ih =>
    obtain ⟨j, v⟩ := e
    simp only [List.cons_append, tget, ih]
theorem tget_filter (p : Nat → Bool) (t : Tbl α) (k : Nat) : tget d (t.filter fun e => p e.1) k = if p k then tget d t k else d := by
  induction t with
  | nil => simp [tget]
  | cons e t ih =>
    obtain ⟨j, v⟩ := e
    rw [List.filter_cons]
    by_cases e : j = k
    · subst e
      cases h : p j
      · simpa [h] using ih
      · simp [tget]
    · cases h : p j
      · simpa [tget, e] using ih
      · simpa [tget, e] using ih
theorem tget_shift (base : Nat) (t : Tbl α) (k : Nat) :
    tget d (t.map fun e => (base + e.1, e.2)) k = if base ≤ k then tget d t (k - base) else d := by
  induction t with
  | nil => simp [tget]
  | cons e t ih =>
    obtain ⟨j, v⟩ := e
    simp only [List.map_cons, tget, ih]
    by_cases e : base + j = k
    · rw [if_pos e, if_pos (by omega), if_pos (by omega)]
    · rw [if_neg e]
      by_cases h : base ≤ k
      · rw [if_pos h, if_pos h, if_neg (by omega)]
      · rw [if_neg h, if_neg h]
/-- What holds of the default and of every entry of a key holds of what the key reads as. -/
theorem tget_holds {P : α → Prop} (hd : P d) (k : Nat) (t : Tbl α) (h : ∀ e ∈ t, e.1 = k → P e.2) : P (tget d t k) := by
  induction t with
  | nil => exact hd
  | cons e t ih =>
    obtain ⟨j, v⟩ := e
    unfold tget
    split
    · next e => exact h (j, v) List.mem_cons_self e
    · exact ih fun x hx => h x (List.mem_cons_of_mem _ hx)
end

/-! ## Memory of a lane that is loaded (R274) -/

section
variable {s : State} {l : List Host.Cell}
theorem placeCells_byte (k a : Nat) : (s.placeCells k l).byte a = if a / 262144 = k then tget 0 l (a % 262144) else s.byte a := by
  have e : (s.placeCells k l).byte a = tget unlistedByte (s.mem.filter (fun e => decide (e.1 < nodeBase k)) ++
      (l.filter fun e => decide (e.1 < 262144)).map (fun e => (nodeBase k + e.1, e.2)) ++
      s.mem.filter (fun e => decide (nodeBase k + 262144 ≤ e.1))) a := rfl
  rw [e, tget_append, tget_append, tget_filter _ fun x => decide (x < nodeBase k), tget_shift, tget_filter _ fun x => decide (x < 262144),
    tget_filter _ fun x => decide (nodeBase k + 262144 ≤ x)]
  unfold nodeBase State.byte
  by_cases h : a / 262144 = k
  · rw [if_pos h, if_neg (by rw [decide_eq_true_eq]; omega), if_pos (by omega), if_pos (by rw [decide_eq_true_eq]; omega),
      show a - k * 262144 = a % 262144 by omega, if_neg (by rw [decide_eq_true_eq]; omega)]
    rfl
  · rw [if_neg h]
    by_cases low : a < k * 262144
    · rw [if_pos (by simpa using low), if_neg (by omega), if_neg (by rw [decide_eq_true_eq]; omega)]
    · rw [if_neg (by simpa using low), if_pos (by omega), if_neg (by rw [decide_eq_true_eq]; omega), if_pos (by rw [decide_eq_true_eq]; omega)]
theorem placeAll_byte (ks : List Nat) (a : Nat) : ∀ s : State, (ks.foldl (fun s k => s.placeCells k l) s).byte a =
    if a / 262144 ∈ ks then tget 0 l (a % 262144) else s.byte a := by
  induction ks with
  | nil => exact fun s => (if_neg List.not_mem_nil).symm
  | cons k ks ih =>
    intro s
    refine (ih _).trans ?_
    rw [placeCells_byte]
    by_cases m : a / 262144 ∈ ks
    · rw [if_pos m, if_pos (List.mem_cons_of_mem k m)]
    · by_cases e : a / 262144 = k
      · rw [if_neg m, if_pos e, if_pos (e ▸ List.mem_cons_self)]
      · rw [if_neg m, if_neg e, if_neg fun h => (List.mem_cons.mp h).elim e m]
theorem placeAll_frame (ks : List Nat) : ∀ s : State, ∃ m, ks.foldl (fun s k => s.placeCells k l) s = { s with mem := m } := by
  induction ks with
  | nil => exact fun s => ⟨_, rfl⟩
  | cons k ks ih => exact fun s => (ih (s.placeCells k l)).imp fun m e => e

/-- An address in the memory of the nodes that satisfy p. -/
def nearNode (p : Nat → Bool) (a : Nat) : Bool := decide (a < farBase) && p (a / 262144)
theorem nearNode_block (p : Nat → Bool) {n : Nat} (hn : n ∣ 262144) (h0 : 0 < n) (a : Nat) : nearNode p (n * (a / n)) = nearNode p a := by
  have far : n * (a / n) < farBase ↔ a < farBase := by
    obtain ⟨m, hm⟩ : n ∣ farBase := hn.trans ⟨2 ^ 42, rfl⟩
    rw [hm]
    rw [Nat.mul_lt_mul_left h0, Nat.div_lt_iff_lt_mul h0, Nat.mul_comm]
  have place : n * (a / n) / 262144 = a / 262144 := by
    obtain ⟨m, hm⟩ := hn
    rw [hm, ← Nat.div_div_eq_div_mul, ← Nat.div_div_eq_div_mul, Nat.mul_div_cancel_left _ h0]
  simp only [nearNode, place, far]
theorem wipe_byte (p : Nat → Bool) (a : Nat) : (s.wipe p).byte a = if nearNode p a then 0 else s.byte a := by
  have e : (s.wipe p).byte a = tget unlistedByte (s.mem.filter fun e => !(nearNode p e.1)) a := rfl
  rw [e, tget_filter _ fun x => !(nearNode p x)]
  cases nearNode p a <;> rfl
theorem wipe_tag (p : Nat → Bool) (a : Nat) : (s.wipe p).tag a = if nearNode p a then 0x10 else s.tag a := by
  have e : (s.wipe p).tag a = tget 0x10 (s.tags.filter fun e => !(nearNode p (64 * e.1))) (a / 64) := rfl
  rw [e, tget_filter _ fun x => !(nearNode p (64 * x)), nearNode_block p (by decide) (by decide)]
  cases nearNode p a <;> rfl
/-- The node's word carries no poison code and the node is not marked: its words read clean. -/
theorem poisoned_wiped (p : Nat → Bool) {t : State} {a : Nat} (hn : nearNode p a = true) (ht : t.pois = (s.wipe p).pois)
    (hm : (t.node (a / 262144)).marked = false) : t.poisoned a = false := by
  have base : t.poisonBase (a / 8) = false := by
    have place : 8 * (a / 8) / 262144 = a / 262144 := by omega
    rw [State.poisonBase, place, hm, Bool.and_false]
  have e : (s.wipe p).pois = s.pois.filter fun e => !(nearNode p (8 * e.1)) := rfl
  rw [State.poisoned, base, ht, e, tget_filter _ fun x => !(nearNode p (8 * x)), nearNode_block p (by decide) (by decide), hn]
  rfl
theorem mem_tmap {α : Type} [DecidableEq α] {d : α} {f : α → α} {t : Tbl α} {e : Nat × α} (h : e ∈ tmap d f t) :
    ∃ x ∈ t, e = (x.1, f x.2) := by
  obtain ⟨x, hx, rfl⟩ := List.mem_map.mp (List.mem_of_mem_filter h)
  exact ⟨x, hx, rfl⟩
/-- A node's routers and homes without what they hold of a GID (R273, R274). -/
def Node.without (gid : BitVec 16) (q : Node) : Node :=
  { q with entries := q.entries.filter (·.gid != gid), bufs := q.bufs.filter (·.gid != gid), fins := q.fins.filter (·.gid != gid),
           bars := q.bars.filter (·.gid != gid), watches := q.watches.filter (·.gid != gid) }
theorem dropGid_nodes (gid : BitVec 16) : (s.dropGid gid).nodes = tmap Node.reset (Node.without gid) s.nodes := rfl
/-- The nodes of a lane that is wiped are not marked, nor are they once a GID is dropped. -/
theorem wipe_unmarked (p : Nat → Bool) (gid : BitVec 16) {k : Nat} (hk : p k = true) :
    (((s.wipe p).dropGid gid).node k).marked = false := by
  rw [State.node, dropGid_nodes]
  refine tget_holds (P := fun q : Node => q.marked = false) _ rfl k _ fun e he key => ?_
  obtain ⟨x, hx, rfl⟩ := mem_tmap (f := Node.without gid) he
  obtain ⟨y, hy, rfl⟩ := mem_tmap (f := id) hx
  obtain ⟨z, -, rfl⟩ := List.mem_map.mp hy
  have place : p z.1 = true := (congrArg p key).trans hk
  dsimp only [id, Node.without]
  rw [if_pos place]
end

end Sys2Proof.Machine
end

section

/-! Placement, loading and start of a group (R48, R65, R77, R79, R273, R274, R279). -/

namespace Sys2Proof.Machine

/-! ## Marks of nodes -/

section
variable {s t : State}
/-- The nodes' marks are as before. -/
def SameMarks (s t : State) : Prop := ∀ k, (t.node k).marked = (s.node k).marked
theorem SameMarks.refl (s : State) : SameMarks s s := fun _ => rfl
theorem SameMarks.trans {u : State} (h : SameMarks s t) (g : SameMarks t u) : SameMarks s u := fun k => (g k).trans (h k)
theorem voteTiles_marks (s : State) (l : List Nat) : SameMarks s (s.voteTiles l) := by
  rw [(voteTiles_same l s).1]
  exact SameMarks.refl s
theorem onNode_marks (s : State) (k : Nat) {f : Node → Node} (hf : ∀ q, (f q).marked = q.marked) : SameMarks s (s.onNode k f) := by
  intro j
  have e : (s.onNode k f).node j = if j = k then f (s.node k) else s.node j := tget_tset ..
  rw [e]
  split
  · next e => rw [hf, e]
  · rfl
theorem deliverRec_marks (s : State) (n i : Nat) (j : Joiner) : SameMarks s (s.deliverRec n i j) := SameMarks.refl s
theorem leaveRecords_marks (s : State) (k : Nat) (streams : Bool) : SameMarks s (s.leaveRecords k streams) := by
  unfold State.leaveRecords
  extract_lets gone
  refine foldl_related SameMarks.refl SameMarks.trans (fun s e => ?_) _ s
  exact foldl_related SameMarks.refl SameMarks.trans (fun s j => deliverRec_marks s _ e.1 j) _ s
theorem loadTrees_marks (s : State) (g : Group) (p : Nat → Bool) : SameMarks s (s.loadTrees g p) := by
  refine SameMarks.trans (foldl_related SameMarks.refl SameMarks.trans (fun s t => ?_) _ s) (voteTiles_marks _ _)
  refine foldl_related SameMarks.refl SameMarks.trans (fun s n => ?_) _ s
  dsimp only
  split
  · exact onNode_marks s _ fun _ => rfl
  · exact SameMarks.refl s
theorem onCores_marks (s : State) (ks : List Nat) (f : Nat → Core → Core) : SameMarks s (s.onCores ks f) := by
  obtain ⟨c, p, e⟩ := onCores_frame f ks s
  rw [e]
  exact SameMarks.refl s
end

/-! ## Loading (R274) -/

section
variable (s : State) (i : Nat)
/-- What loading does with a group's cores: their fault records are left (R303), and each is as loading leaves it (R274). -/
def State.loadCores (s : State) (g : Group) (ks : List Nat) : State :=
  let t := ks.foldl (fun s k => s.leaveRecords k true) s
  (t.onCores ks fun k c => g.loadCore (t.keyOfDom g.dom) k c).voteTiles (t.laneSites g)
theorem loadCores_loads (g : Group) (ks : List Nat) :
    (∀ k ∈ ks, ∃ key c, (s.loadCores g ks).coreAt k = g.loadCore key k c) ∧ SameStore s (s.loadCores g ks) ∧ SameMarks s (s.loadCores g ks) ∧
    (s.loadCores g ks).lead.groups = s.lead.groups := by
  unfold State.loadCores
  have left : s.Spares (ks.foldl (fun s k => s.leaveRecords k true) s) :=
    foldl_related State.Spares.refl State.Spares.trans (fun s k => leaveRecords_spares s k true) ks s
  have marks : SameMarks s (ks.foldl (fun s k => s.leaveRecords k true) s) :=
    foldl_related SameMarks.refl SameMarks.trans (fun s k => leaveRecords_marks s k true) ks s
  generalize ks.foldl (fun s k => s.leaveRecords k true) s = u at left marks ⊢
  have votes := voteTiles_spares (u.onCores ks fun k c => g.loadCore (u.keyOfDom g.dom) k c) (u.laneSites g)
  obtain ⟨c, p, frame⟩ := onCores_frame (fun k c => g.loadCore (u.keyOfDom g.dom) k c) ks u
  have store : SameStore u (u.onCores ks fun k c => g.loadCore (u.keyOfDom g.dom) k c) := by
    rw [frame]
    exact ⟨rfl, rfl, rfl⟩
  have groups : (u.onCores ks fun k c => g.loadCore (u.keyOfDom g.dom) k c).lead.groups = u.lead.groups := by rw [frame]
  refine ⟨fun k hk => ?_, (left.still.2.2.2.trans store).trans votes.still.2.2.2,
    (marks.trans (onCores_marks u ks _)).trans (voteTiles_marks _ _), votes.groups.trans (groups.trans left.groups)⟩
  rw [votes.still.coreAt]
  exact (onCores_reaches (P := fun d => ∃ key c, d = g.loadCore key k c) (Q := fun _ => True)
    (fun c _ => ⟨trivial, _, c, rfl⟩) ks u trivial (.inl hk)).2
/-- The memory of a group's lane as loading leaves it. -/
def State.loadMemory (s : State) (i : Nat) : State :=
  let g := s.group i
  let ks := s.laneCores g
  let t := ((s.closeWindows ks).wipe fun k => g.inLane k && s.laneLive g k).dropGid g.gid
  ks.foldl (fun s k => s.placeCells k (g.image.cells g.var)) (t.onGroup i fun g => { g with rounds := [] })
theorem loadGroup_eq : s.loadGroup i =
    (((s.loadMemory i).loadCores (s.group i) (s.laneCores (s.group i))).loadTrees (s.group i) fun _ => true).onGroup i fun g =>
      { g with cores := s.laneCores (s.group i) } := rfl
theorem loadMemory_loads : let g := s.group i
    let p := fun k => g.inLane k && s.laneLive g k
    (s.loadMemory i).group i = { g with rounds := [] } ∧
    (∀ a, (s.loadMemory i).byte a = if a / 262144 ∈ s.laneCores g then tget 0 (g.image.cells g.var) (a % 262144)
      else if nearNode p a then 0 else s.byte a) ∧
    (∀ a, (s.loadMemory i).tag a = if nearNode p a then 0x10 else s.tag a) ∧
    (s.loadMemory i).pois = ((s.closeWindows (s.laneCores g)).wipe p).pois ∧
    ∀ k, p k = true → ((s.loadMemory i).node k).marked = false := by
  intro g p
  have windows := closeWindows_spares s (s.laneCores g)
  unfold State.loadMemory
  extract_lets ks t
  obtain ⟨m, frame⟩ := placeAll_frame (l := g.image.cells g.var) ks (t.onGroup i fun g => { g with rounds := [] })
  have bytes (a : Nat) := placeAll_byte (l := g.image.cells g.var) ks a (t.onGroup i fun g => { g with rounds := [] })
  have group : (t.onGroup i fun g => { g with rounds := [] }).group i = { s.group i with rounds := [] } := by
    have spared : t.group i = s.group i := windows.group i
    rw [group_onGroup_self, spared]
  refine ⟨?_, fun a => (bytes a).trans ?_, fun a => ?_, ?_, fun k hk => ?_⟩
  · rw [frame]
    exact group
  · refine if_ctx_congr Iff.rfl (fun _ => rfl) fun _ => ?_
    exact (wipe_byte p a).trans (if_ctx_congr Iff.rfl (fun _ => rfl) fun _ => windows.still.byte a)
  · rw [frame]
    exact (wipe_tag p a).trans (if_ctx_congr Iff.rfl (fun _ => rfl) fun _ => windows.still.tag a)
  · rw [frame]
    rfl
  · rw [frame]
    exact wipe_unmarked (s := s.closeWindows (s.laneCores g)) p g.gid hk
/-- What loading leaves: the group's cores, their memory, and the rest of memory as it was. -/
theorem loadGroup_loads : let g := s.group i
    let p := fun k => g.inLane k && s.laneLive g k
    (s.loadGroup i).group i = { g with rounds := [], cores := s.laneCores g } ∧
    (∀ k ∈ s.laneCores g, ∃ key c, (s.loadGroup i).coreAt k = g.loadCore key k c) ∧
    (∀ a, (s.loadGroup i).byte a = if a / 262144 ∈ s.laneCores g then tget 0 (g.image.cells g.var) (a % 262144)
      else if nearNode p a then 0 else s.byte a) ∧
    (∀ a, (s.loadGroup i).tag a = if nearNode p a then 0x10 else s.tag a) ∧
    ∀ a, nearNode p a = true → (s.loadGroup i).poisoned a = false := by
  intro g p
  obtain ⟨group, bytes, tags, pois, marks⟩ := loadMemory_loads s i
  obtain ⟨cores, ⟨mem', pois', tags'⟩, marks', groups'⟩ := loadCores_loads (s.loadMemory i) g (s.laneCores g)
  have trees := loadTrees_spares ((s.loadMemory i).loadCores g (s.laneCores g)) g fun _ => true
  have marks'' := loadTrees_marks ((s.loadMemory i).loadCores g (s.laneCores g)) g fun _ => true
  have store := trees.still.2.2.2
  rw [loadGroup_eq]
  generalize ((s.loadMemory i).loadCores g (s.laneCores g)).loadTrees g (fun _ => true) = t at trees marks'' store ⊢
  have spared : t.group i = (s.loadMemory i).group i := (trees.group i).trans (by rw [State.group, groups', State.group])
  refine ⟨(group_onGroup_self ..).trans (by rw [spared, group]), fun k hk => ?_, fun a => Eq.trans ?_ (bytes a),
    fun a => Eq.trans ?_ (tags a), fun a ha => ?_⟩
  · obtain ⟨key, c, e⟩ := cores k hk
    exact ⟨key, c, (trees.still.coreAt k).trans e⟩
  · exact (trees.still.byte a).trans (by rw [State.byte, mem', State.byte])
  · exact (trees.still.tag a).trans (by rw [State.tag, tags', State.tag])
  · refine poisoned_wiped p ha ((store.2.1.trans pois').trans pois) ?_
    obtain ⟨-, live⟩ := Bool.and_eq_true_iff.mp ha
    exact ((marks'' _).trans (marks' _)).trans (marks _ live)
end

/-! ## The map a group takes, and its lane -/

section
variable {s : State} {i : Nat} {g : Group}
theorem retireSuspects_none (h : ∀ k ∈ g.laneKeys, (s.part k).suspect = false) : s.retireSuspects g = s := by
  have none : (g.laneKeys.any s.retirable) = false := by
    rw [List.any_eq_false]
    intro k hk
    simp [State.retirable, h k hk]
  rw [State.retireSuspects, State.retireAll, none]
  rfl
/-- A group that becomes LOADING with the sites' skip columns for its map reaches the nodes it would have reached before. -/
theorem laneLive_seeded {f : Group → Group} (hf : s.laneFree g) (hg : g.onPanel) {k : Nat} (hk : k ∈ g.laneKeys)
    (hm : (f (s.group i)).mapped = true) (hr : ∀ j, (f (s.group i)).inLane j = g.inLane j)
    (hs : (f (s.group i)).skips = s.seedMap g [] fun _ => true) (hn : ∀ n, s.knows (f (s.group i)) n = s.knows g n) :
    (s.onGroup i f).laneLive (f (s.group i)) k = s.laneLive g k := by
  have live : (s.onGroup i f).live k = s.live k := live_congr rfl (skipOf_seeded hf hg hk hm hr hs)
  have knows : (s.onGroup i f).knows (f (s.group i)) (siteOf k) = s.knows g (siteOf k) := hn _
  rw [State.laneLive, live, knows, State.laneLive]
theorem mem_laneCores {k : Nat} : k ∈ s.laneCores g ↔ k ∈ g.laneKeys ∧ isCore k = true ∧ s.laneLive g k = true := by
  rw [State.laneCores, List.mem_filter, Bool.and_eq_true]
end

end Sys2Proof.Machine
end

section

/-! Placement, loading and start of a group, as the lead cox's events work them (R48, R65, R77, R79, R273, R274, R276, R279). -/

namespace Sys2Proof.Machine

/-! ## Placement (R273, R274) -/

section
variable {s : State} {i : Nat}
theorem placement_admitted (up : s.leadUp = true) (ha : (s.group i).st = .admitted) : exec (.placement i) s = .next
    (if s.holdsLane i ∧ ((s.group i).npan ≤ 1 ∨ (s.group i).peersIn) then s.onGroup i fun g => { g with st := .seeding } else s) := by
  refine (byLead_up up _).trans (congrArg _ ?_)
  rw [ha]
theorem placement_seeds (up : s.leadUp = true) (ha : (s.group i).st = .admitted) (hl : s.holdsLane i = true)
    (hp : (s.group i).npan ≤ 1 ∨ (s.group i).peersIn = true) : Completes (.placement i) s fun t =>
      Still s t ∧ t.group i = { s.group i with st := .seeding } ∧ ∀ j, j ≠ i → t.group j = s.group j :=
  ⟨s.onGroup i fun g => { g with st := .seeding }, (placement_admitted up ha).trans (congrArg _ (if_pos ⟨hl, hp⟩)), onGroup_still s i _,
    group_onGroup_self s i _, fun _ hj => (group_onGroup s i _ _).trans (if_neg hj)⟩
theorem placement_awaits (up : s.leadUp = true) (ha : (s.group i).st = .admitted) (hn : 1 < (s.group i).npan)
    (hp : (s.group i).peersIn = false) : Completes (.placement i) s fun t => t = s := by
  refine ⟨s, (placement_admitted up ha).trans (congrArg _ (if_neg ?_)), rfl⟩
  rintro ⟨-, few | here⟩
  · omega
  · exact absurd (hp.symm.trans here) (by decide)

/-- What placement does with a SEEDING group whose lane holds no suspect. -/
def State.places (s : State) (i : Nat) : State :=
  let g := s.group i
  if !(s.fitsAt g.image g.var (g.col0 / 8) (g.row0 / 4)) then s.rebid i
  else
    let again := g.resume || g.rst != 0
    let map := s.seedMap g [] fun _ => true
    let now := s.clock.ticks
    let t := s.onGroup i fun g => { g with st := .loading, skips := map, rows := true, since := if again then now else g.since }
    if g.resume then t.restoreGroup i
    else if t.imageStands g then t.loadGroup i
    else t.retireGroup i 3
theorem placement_seeding (up : s.leadUp = true) (hs : (s.group i).st = .seeding) (hv : s.laneVotes (s.group i) = true)
    (hn : ∀ k ∈ (s.group i).laneKeys, (s.part k).suspect = false) : exec (.placement i) s = .next (s.places i) := by
  refine (byLead_up up _).trans (congrArg _ ?_)
  rw [hs]
  dsimp only
  rw [hv, retireSuspects_none hn]
  rfl
theorem placement_stalls (hv : s.laneVotes (s.group i) = false) (hs : (s.group i).st = .seeding) :
    Completes (.placement i) s fun t => t = s := by
  refine ⟨s, congrArg _ (Eq.trans (if_ctx_congr Iff.rfl (fun _ => ?_) fun _ => rfl) (ite_self s)), rfl⟩
  rw [hs]
  dsimp only
  rw [hv]
  rfl
/-- A launch whose lane no longer fits bids again; nothing of a core or of memory changes. -/
theorem rebid_retires (s : State) (i : Nat) : Still s (s.rebid i) ∧ ((s.rebid i).group i).st = .retired := by
  have drop := dropGid_spares s (s.group i).gid
  have group := group_onGroup_self (s.dropGid (s.group i).gid) i fun g => { g with st := .retired, cores := [], save := none }
  have still := drop.still.trans (onGroup_still _ i fun g => { g with st := .retired, cores := [], save := none })
  have loose := retireLoose_spares ((s.dropGid (s.group i).gid).onGroup i fun g => { g with st := .retired, cores := [], save := none })
    (s.group i)
  have retired := congrArg Group.st ((loose.group i).trans group)
  replace still := still.trans loose.still
  unfold State.rebid
  extract_lets -underBinder g q mine old t
  replace still : Still s t := still
  replace retired : (t.group i).st = .retired := retired
  clear_value t old
  cases old with
  | none => exact ⟨still, retired⟩
  | some c => exact ⟨still, retired⟩
theorem placement_rebids (up : s.leadUp = true) (hs : (s.group i).st = .seeding) (hv : s.laneVotes (s.group i) = true)
    (hn : ∀ k ∈ (s.group i).laneKeys, (s.part k).suspect = false)
    (hf : s.fitsAt (s.group i).image (s.group i).var ((s.group i).col0 / 8) ((s.group i).row0 / 4) = false) :
    Completes (.placement i) s fun t => Still s t ∧ (t.group i).st = .retired := by
  refine ⟨_, (placement_seeding up hs hv hn).trans (congrArg _ (if_pos ?_)), rebid_retires s i⟩
  rw [hf]
  rfl

/-- The group entry of a first start or a relaunch that is LOADING (R19, R342). -/
def Group.takesLane (g : Group) (map : Tbl Nat) (now : Nat) : Group :=
  { g with st := .loading, skips := map, rows := true, since := if g.rst = 0 then g.since else now }
theorem placement_loads (up : s.leadUp = true) (hs : (s.group i).st = .seeding) (hv : s.laneVotes (s.group i) = true)
    (hn : ∀ k ∈ (s.group i).laneKeys, (s.part k).suspect = false) (hr : (s.group i).resume = false)
    (hf : s.fitsAt (s.group i).image (s.group i).var ((s.group i).col0 / 8) ((s.group i).row0 / 4) = true)
    (hi : s.imageStands (s.group i) = true) : exec (.placement i) s = .next
      ((s.onGroup i fun g => g.takesLane (s.seedMap (s.group i) [] fun _ => true) s.clock.ticks).loadGroup i) := by
  have since (g : Group) : (if (s.group i).resume || (s.group i).rst != 0 then s.clock.ticks else g.since) =
      if (s.group i).rst = 0 then g.since else s.clock.ticks := by
    rw [hr]
    by_cases h : (s.group i).rst = 0 <;> simp [h]
  have taken : (s.onGroup i fun g => { g with
      st := .loading, skips := s.seedMap (s.group i) [] fun _ => true, rows := true,
      since := if (s.group i).resume || (s.group i).rst != 0 then s.clock.ticks else g.since }) =
      s.onGroup i fun g => g.takesLane (s.seedMap (s.group i) [] fun _ => true) s.clock.ticks := by
    simp only [since]
    rfl
  refine (placement_seeding up hs hv hn).trans (congrArg _ ?_)
  unfold State.places
  dsimp only
  rw [taken, hf, hr]
  exact if_pos hi
end

/-! ## A loaded group (R48, R65, R274) -/

section
variable {g : Group} {k : Nat}
/-- A core that holds its image's registers, identity, seats and seed (R48, R65, R274). -/
def Loaded (g : Group) (k : Nat) (c : Core) : Prop :=
  (∀ r : GR, bget c.regs.g r = ⟨if r = 1 then g.restartWord else 0, false⟩) ∧ c.regs.v = Vector.replicate 16 VReg.zero ∧
  c.regs.m = Vector.replicate 8 0 ∧ c.regs.fpcr = 0 ∧ c.regs.rigs = ⟨0, 0, false, false, 0, 0⟩ ∧ (∀ j, (c.slot j).st = .free) ∧
  c.ctl.issue = .off ∧
  c.ctl.gid = g.gid ∧ c.ctl.dom = g.dom ∧ c.ctl.gx.toNat = keyX k - g.col0 ∧ c.ctl.gy.toNat = keyY k - g.row0 ∧
  c.ctl.col0.toNat = g.col0 ∧ c.ctl.row0.toNat = g.row0 ∧ c.ctl.kvec = g.image.kvec g.var ∧
  c.ctl.sscr = ⟨g.image.sscr g.var, false⟩ ∧ c.sh.seat = g.image.seatTable g.var ∧
  c.sh.lfsr = lfsrSeed g.gid (BitVec.ofNat 9 (keyX k)) (BitVec.ofNat 8 (keyY k)) ∧
  c.sh.stream = Vector.replicate 4 Stream.free ∧ c.sh.arr = Vector.replicate 8 0 ∧ c.sh.done = Vector.replicate 8 0
theorem loadCore_reg (key : BitVec 13) (c : Core) (r : GR) :
    bget (g.loadCore key k c).regs.g r = ⟨if r = 1 then g.restartWord else 0, false⟩ := by
  have set : (g.loadCore key k c).regs.g = bset (Vector.replicate 32 GReg.zero) (1 : GR) ⟨g.restartWord, false⟩ := rfl
  rw [set, bget_bset]
  split
  · rfl
  · simp [bget, GReg.zero]
theorem loadCore_slot (key : BitVec 13) (c : Core) (j : SlotId) : ((g.loadCore key k c).slot j).st = .free := by
  simp [Group.loadCore, Core.slot, bget, Slot.cleared, Slot.free]
theorem loadCore_loaded (h : g.onPanel) (hk : k ∈ g.laneKeys) (key : BitVec 13) (c : Core) : Loaded g k (g.loadCore key k c) := by
  obtain ⟨west, east, north, south, -⟩ := laneKeys_bounds h hk
  obtain ⟨cols, rows⟩ := h
  refine ⟨loadCore_reg key c, rfl, rfl, rfl, rfl, loadCore_slot key c, rfl, rfl, rfl, ?_, ?_, ?_, ?_, rfl, rfl, rfl, rfl, rfl, rfl, rfl⟩
  · exact Nat.mod_eq_of_lt (show keyX k - g.col0 < 512 by omega)
  · exact Nat.mod_eq_of_lt (show keyY k - g.row0 < 256 by omega)
  · exact Nat.mod_eq_of_lt (show g.col0 < 512 by omega)
  · exact Nat.mod_eq_of_lt (show g.row0 < 256 by omega)
end

section
variable {s : State} {i : Nat}
/-- Loading of a group whose lane lies on the panel: its cores and their memory, the lane's other nodes, and the rest of memory. -/
theorem loadGroup_lane (s : State) (i : Nat) (h : (s.group i).onPanel) : let g := s.group i
    let t := s.loadGroup i
    t.group i = { g with rounds := [], cores := s.laneCores g } ∧
    (∀ k ∈ s.laneCores g, Loaded g k (t.coreAt k) ∧ ∀ o, o < 262144 → t.byte (nodeBase k + o) = tget 0 (g.image.cells g.var) o) ∧
    (∀ a, a < farBase → g.inLane (a / 262144) = true → s.laneLive g (a / 262144) = true →
      t.poisoned a = false ∧ t.tag a = 0x10 ∧ (isCore (a / 262144) = false → t.byte a = 0)) ∧
    ∀ a, (farBase ≤ a ∨ g.inLane (a / 262144) = false) → t.byte a = s.byte a ∧ t.tag a = s.tag a := by
  intro g t
  obtain ⟨group, loaded, bytes, tags, clean⟩ := loadGroup_loads s i
  refine ⟨group, fun k hk => ⟨?_, fun o ho => ?_⟩, fun a near inside alive => ?_, fun a out => ?_⟩
  · obtain ⟨key, c, e⟩ := loaded k hk
    have core : t.coreAt k = _ := e
    rw [core]
    exact loadCore_loaded h (mem_laneCores.mp hk).1 key c
  · have place : (nodeBase k + o) / 262144 = k ∧ (nodeBase k + o) % 262144 = o := by
      unfold nodeBase
      omega
    refine (bytes _).trans ?_
    rw [place.1, place.2, if_pos hk]
  · have hit : nearNode (fun k => g.inLane k && s.laneLive g k) a = true := by
      rw [nearNode, inside, alive, decide_eq_true near]
      rfl
    refine ⟨clean a hit, (tags a).trans (if_pos hit), fun bank => (bytes a).trans ((if_neg fun m => ?_).trans (if_pos hit))⟩
    exact absurd ((mem_laneCores.mp m).2.1) (by rw [bank]; decide)
  · have miss : ¬ nearNode (fun k => g.inLane k && s.laneLive g k) a = true := by
      rcases out with far | out
      · rw [nearNode, decide_eq_false (Nat.not_lt.mpr far), Bool.false_and]
        decide
      · rw [nearNode, out]
        simp
    have none : ¬ a / 262144 ∈ s.laneCores g := by
      intro m
      have key := (mem_laneCores.mp m).1
      rcases out with far | out
      · obtain ⟨-, -, -, -, low⟩ := laneKeys_bounds h key
        have : farBase = 2 ^ 60 := rfl
        omega
      · exact absurd ((mem_laneKeys h).mp key) (by rw [out]; decide)
    exact ⟨(bytes a).trans ((if_neg none).trans (if_neg miss)), (tags a).trans (if_neg miss)⟩
/-- A group that has taken its lane reaches the cores it was to reach before. -/
theorem takesLane_cores {now : Nat} (hf : s.laneFree (s.group i)) (hp : (s.group i).onPanel) :
    let g := { s.group i with since := if (s.group i).rst = 0 then (s.group i).since else now }
    let f := fun g : Group => g.takesLane (s.seedMap (s.group i) [] fun _ => true) now
    (∀ k, g.inLane k = true → (s.onGroup i f).laneLive (f (s.group i)) k = s.laneLive g k) ∧
    (s.onGroup i f).laneCores (f (s.group i)) = s.laneCores g := by
  intro g f
  have lane (k : Nat) (hk : k ∈ g.laneKeys) : (s.onGroup i f).laneLive (f (s.group i)) k = s.laneLive g k :=
    laneLive_seeded (f := f) (g := g) hf hp hk rfl (fun _ => rfl) rfl fun _ => rfl
  refine ⟨fun k hk => lane k ((mem_laneKeys (g := g) hp).mpr hk), ?_⟩
  exact List.filter_congr fun k hk => by rw [lane k hk]
end

/-! ## Start (R77, R79, R276) -/

section
variable (c : Core) (level : BitVec 2) (entry : BitVec 16)
/-- A core whose slot 0 has become READY and is queued. -/
def Core.readied (c : Core) (level : BitVec 2) : Core := (c.onSlot 0 fun t => t.leaveFree level false).enqueue 0
theorem readied_same : (c.readied level).regs = c.regs ∧ (c.readied level).ctl = c.ctl ∧ (c.readied level).eng = c.eng := by
  have left : (c.onSlot 0 fun t => t.leaveFree level false).regs = c.regs ∧ (c.onSlot 0 fun t => t.leaveFree level false).ctl = c.ctl ∧
      (c.onSlot 0 fun t => t.leaveFree level false).eng = c.eng := ⟨rfl, rfl, rfl⟩
  unfold Core.readied
  generalize c.onSlot 0 _ = d at left ⊢
  obtain ⟨regs, ctl, eng, -⟩ := Core.enqueue_same d 0
  exact ⟨regs.trans left.1, ctl.trans left.2.1, eng.trans left.2.2⟩
theorem readied_slot : ((c.readied level).slot 0).st = .ready ∧ ((c.readied level).slot 0).level = level := by
  have left : (c.onSlot 0 fun t => t.leaveFree level false).slot 0 = (c.slot 0).leaveFree level false := by rw [slot_onSlot, if_pos rfl]
  rw [Core.readied, enqueue_st, enqueue_level, left]
  exact ⟨rfl, rfl⟩
theorem start_eq : c.start level entry = { c.readied level with ctl := { c.ctl with
    async := false, cause := 0, tval := 0, tpc := entry, priv := .s, issue := .run, pc := c.ctl.kvec.setWidth 16 <<< 12, slot := 0 } } := by
  rw [← (readied_same c level).2.1]
  rfl
theorem start_regs : (c.start level entry).regs = c.regs ∧ (c.start level entry).eng = c.eng := by
  obtain ⟨regs, -, eng⟩ := readied_same c level
  rw [start_eq]
  exact ⟨regs, eng⟩
/-- A core that has been started: slot 0 READY, and the scheduler entered with code 0 (R77, R79). -/
def Started (level : BitVec 2) (entry : BitVec 16) (kvec : BitVec 4) (c : Core) : Prop :=
  (c.slot 0).st = .ready ∧ (c.slot 0).level = level ∧ c.ctl.priv = .s ∧ c.ctl.issue = .run ∧ c.ctl.cause = 0 ∧ c.ctl.async = false ∧
  c.ctl.tval = 0 ∧ c.ctl.slot = 0 ∧ c.ctl.tpc = entry ∧ c.ctl.pc = kvec.setWidth 16 <<< 12
theorem start_started : Started level entry c.ctl.kvec (c.start level entry) := by
  obtain ⟨st, lv⟩ := readied_slot c level
  rw [start_eq]
  exact ⟨st, lv, rfl, rfl, rfl, rfl, rfl, rfl, rfl, rfl⟩
end

section
variable {s : State} {i : Nat}
theorem recommit_marks (g : Group) (tags : List Nat) : (g.recommit tags).st = g.st ∧ (g.recommit tags).started = g.started := by
  unfold Group.recommit
  split
  · exact ⟨rfl, rfl⟩
  split <;> exact ⟨rfl, rfl⟩
/-- The cores of a group with their windows closed, each as f makes it, and their tiles' transactions out. -/
def State.startCores (s : State) (ks : List Nat) (f : Nat → Core → Core) : State := (s.closeWindows ks).coxWrites ks f
theorem startCores_frame (ks : List Nat) (f : Nat → Core → Core) :
    (s.startCores ks f).here = s.here ∧ SameStore s (s.startCores ks f) ∧ (s.startCores ks f).lead = s.lead ∧ (s.startCores ks f).clock = s.clock ∧
    ∀ k, (s.startCores ks f).coreAt k = (s.onCores ks f).coreAt k := by
  obtain ⟨u, windows⟩ := closeWindows_frame ks s
  obtain ⟨c, p, frame⟩ := onCores_frame f ks (s.closeWindows ks)
  have cores : ∀ k, ((s.closeWindows ks).onCores ks f).coreAt k = (s.onCores ks f).coreAt k := by
    have all (l : List Nat) : ∀ (v w : State), (∀ k, v.coreAt k = w.coreAt k) →
        ∀ k, (v.onCores l f).coreAt k = (w.onCores l f).coreAt k := by
      induction l with
      | nil => exact fun v w h => h
      | cons j l ih =>
        refine fun v w h => ih _ _ fun k => ?_
        rw [coreAt_onCore, coreAt_onCore, h, h]
    exact all ks _ s fun k => by rw [windows]; rfl
  unfold State.startCores State.coxWrites
  have votes := voteTiles_spares ((s.closeWindows ks).onCores ks f) (sitesOf ks)
  refine ⟨votes.still.1.trans (by rw [frame, windows]), ?_, ?_, votes.clock.trans (by rw [frame, windows]), fun k => ?_⟩
  · refine SameStore.trans ?_ votes.still.2.2.2
    rw [frame, windows]
    exact ⟨rfl, rfl, rfl⟩
  · rw [(voteTiles_same _ _).1, frame, windows]
  · rw [votes.still.coreAt, cores]

theorem groupStart_stays (h : (s.group i).st ≠ .loading ∨ s.laneVotes (s.group i) = false) : Completes (.groupStart i) s fun t => t = s := by
  have exe : exec (.groupStart i) s = s.byLead (if (s.group i).st ≠ .loading ∨ !(s.laneVotes (s.group i)) then s else _) := rfl
  refine ⟨s, ?_, rfl⟩
  rw [exe, if_pos (h.imp_right fun e => by rw [e]; rfl), State.byLead, ite_self]
/-- What the start of a group does with its cores: a restored one resumes, another one is started (R77, R79, R276). -/
def Group.startsCore (g : Group) (_ : Nat) (c : Core) : Core :=
  if g.resume then c.resumeIdle else c.start (BitVec.ofNat 2 (g.image.level g.var)) (BitVec.ofNat 16 (g.image.entry g.var))
/-- A LOADING group starts: it is RUNNING from this tick on, and what its cores become is all that changes in cores and memory. -/
theorem groupStart_runs (up : s.leadUp = true) (hv : s.laneVotes (s.group i) = true) (hl : (s.group i).st = .loading) :
    Completes (.groupStart i) s fun t => (t.group i).st = .running ∧ (t.group i).started = s.clock.ticks ∧ t.here = s.here ∧ SameStore s t ∧
      ∀ k, t.coreAt k = (s.onCores (s.group i).cores (s.group i).startsCore).coreAt k := by
  obtain ⟨here, store, lead, clock, cores⟩ := startCores_frame (s := s) (f := (s.group i).startsCore) (s.group i).cores
  have exe : ∃ f : Group → Group,
      (∀ g, (f g).st = .running ∧ (f g).started = (s.startCores (s.group i).cores (s.group i).startsCore).clock.ticks) ∧
      exec (.groupStart i) s = .next (((s.startCores (s.group i).cores (s.group i).startsCore).onGroup i f).rerouteBars i) := by
    refine ⟨_, fun g => ?_, (byLead_up up _).trans (congrArg _ (if_neg ?_))⟩
    · exact recommit_marks _ _
    · rintro (unloaded | mute)
      · exact unloaded hl
      · rw [hv] at mute
        exact absurd mute (by decide)
  obtain ⟨f, marks, exe⟩ := exe
  have group := group_onGroup_self (s.startCores (s.group i).cores (s.group i).startsCore) i f
  have still := onGroup_still (s.startCores (s.group i).cores (s.group i).startsCore) i f
  have reroutes := rerouteBars_spares ((s.startCores (s.group i).cores (s.group i).startsCore).onGroup i f) i
  generalize s.startCores (s.group i).cores (s.group i).startsCore = u at *
  obtain ⟨running, started⟩ := marks (u.group i)
  refine ⟨_, exe, ?_, ?_, reroutes.still.1.trans here, store.trans reroutes.still.2.2.2, fun k => ?_⟩
  · rw [reroutes.group, group]
    exact running
  · rw [reroutes.group, group, started, clock]
  · rw [reroutes.still.coreAt, ← cores k]
    exact still.coreAt k
theorem groupStart_starts (up : s.leadUp = true) (hv : s.laneVotes (s.group i) = true) (hl : (s.group i).st = .loading)
    (hr : (s.group i).resume = false) : Completes (.groupStart i) s fun t => (t.group i).st = .running ∧ (t.group i).started = s.clock.ticks ∧
      (∀ k ∈ (s.group i).cores, Started (BitVec.ofNat 2 ((s.group i).image.level (s.group i).var))
        (BitVec.ofNat 16 ((s.group i).image.entry (s.group i).var)) (s.coreAt k).ctl.kvec (t.coreAt k)) ∧
      (∀ k, ¬ k ∈ (s.group i).cores → t.coreAt k = s.coreAt k) ∧ SameRegs s t ∧ SameStore s t := by
  have starts (k : Nat) (c : Core) : (s.group i).startsCore k c =
      c.start (BitVec.ofNat 2 ((s.group i).image.level (s.group i).var)) (BitVec.ofNat 16 ((s.group i).image.entry (s.group i).var)) :=
    if_neg (by rw [hr]; decide)
  have kept := onCores_controls s (s.group i).cores (f := (s.group i).startsCore) fun k c => by rw [starts]; exact start_regs c _ _
  obtain ⟨t, exe, running, started, here, store, cores⟩ := groupStart_runs up hv hl
  refine ⟨t, exe, running, started, fun k hk => ?_, fun k hk => ?_, ⟨here, fun k => ?_⟩, store⟩
  · rw [cores]
    refine (onCores_reaches (Q := fun c => c.ctl.kvec = (s.coreAt k).ctl.kvec) (fun c hc => ?_) (s.group i).cores s rfl (.inl hk)).2
    rw [starts]
    refine ⟨?_, hc ▸ start_started c _ _⟩
    rw [start_eq]
    exact hc
  · rw [cores]
    exact onCores_coreAt_ne _ hk s
  · rw [cores]
    exact kept.regs.2 k
/-- A restored core's idle `SLEEP` writes 0 and completes. -/
theorem resumeIdle_wakes {c : Core} {d : GR} (h : c.ctl.issue = .idle d ∨ c.ctl.issue = .restored d) :
    c.resumeIdle.regs = { c.regs with g := bset c.regs.g d ⟨0, false⟩ } ∧ c.resumeIdle.slots = c.slots ∧
    c.resumeIdle.ctl.pc = c.ctl.pc + 4 ∧ c.resumeIdle.ctl.issue = .run := by
  unfold Core.resumeIdle
  rcases h with h | h
  all_goals
    rw [h]
    exact ⟨rfl, rfl, rfl, rfl⟩
theorem groupStart_resumes {d : GR} (up : s.leadUp = true) (hv : s.laneVotes (s.group i) = true) (hl : (s.group i).st = .loading)
    (hr : (s.group i).resume = true) (hc : (s.group i).cores = [s.here]) (hi : s.core.ctl.issue = .idle d ∨ s.core.ctl.issue = .restored d) :
    Completes (.groupStart i) s fun t => (t.group i).st = .running ∧ t.gv d = 0 ∧ t.gp d = false ∧ SameG s t [d] ∧ t.pc = s.pc + 4 ∧
      t.core.ctl.issue = .run ∧ t.core.slots = s.core.slots ∧ SameStore s t := by
  obtain ⟨t, exe, running, -, here, store, cores⟩ := groupStart_runs up hv hl
  have core : t.core = s.core.resumeIdle := by
    rw [← coreAt_here t, here, cores, hc]
    refine (coreAt_onCore s s.here s.here _).trans ((if_pos rfl).trans ?_)
    rw [coreAt_here]
    exact if_pos hr
  obtain ⟨regs, slots, pc, issue⟩ := resumeIdle_wakes hi
  have reg (r : GR) : bget t.core.regs.g r = if r = d then ⟨0, false⟩ else bget s.core.regs.g r := by
    rw [core, regs]
    exact bget_bset ..
  refine ⟨t, exe, running, ?_, ?_, fun r hr => ?_, ?_, by rw [core, issue], by rw [core, slots], store⟩
  · rw [State.gv, reg, if_pos rfl]
  · rw [State.gp, reg, if_pos rfl]
  · have other : r ≠ d := fun e => hr (List.mem_singleton.mpr e)
    rw [State.gv, State.gp, reg, if_neg other]
    exact ⟨rfl, rfl⟩
  · rw [State.pc, core, pc, State.pc]
end

/-- Settles O59: placement, loading and start of a group. -/
theorem groupPlacementAndStart : Obligations.GroupPlacementAndStart := by
  refine ⟨fun s i up ha => ⟨fun hl hp => placement_seeds up ha hl hp, fun hn hp => placement_awaits up ha hn hp⟩,
    fun s i hv => ⟨fun hs => placement_stalls hv hs, groupStart_stays (.inr hv)⟩,
    fun s i up hv hs hr cols rows hn hf => ⟨fun misfit => placement_rebids up hs hv hn misfit, fun fit stands => ?_⟩,
    fun s i up hl => groupStart_stays (.inl hl), fun s i up hv hl hr => ?_,
    fun s i d up hv hl hr hc hi => groupStart_resumes up hv hl hr hc hi⟩
  · obtain ⟨lane, cores⟩ := takesLane_cores (s := s) (i := i) (now := s.clock.ticks) hf ⟨cols, rows⟩
    have taken := group_onGroup_self s i fun g => g.takesLane (s.seedMap (s.group i) [] fun _ => true) s.clock.ticks
    obtain ⟨group, loaded, inside, outside⟩ :=
      loadGroup_lane (s.onGroup i fun g => g.takesLane (s.seedMap (s.group i) [] fun _ => true) s.clock.ticks) i (by
        rw [taken]
        exact ⟨cols, rows⟩)
    rw [taken] at group loaded inside outside
    rw [cores] at group loaded
    refine ⟨_, placement_loads up hs hv hn hr fit stands, by rw [group]; rfl, by rw [group], by rw [group]; rfl, fun k hk => ?_,
      fun a near within alive => ?_, outside⟩
    · obtain ⟨core, bytes⟩ := loaded k hk
      obtain ⟨regs, v, m, fpcr, rigs, slots, issue, gid, dom, gx, gy, col0, row0, kvec, sscr, seat, lfsr, stream, arr, done⟩ := core
      exact ⟨regs, v, m, fpcr, rigs, slots, issue, gid, dom, gx, gy, col0, row0, kvec, sscr, seat, lfsr, stream, arr, done, bytes⟩
    · exact inside a near within ((lane _ within).trans alive)
  · obtain ⟨t, exe, running, started, cores, others, regs, store⟩ := groupStart_starts up hv hl hr
    exact ⟨t, exe, running, started, cores, others, regs, store⟩

end Sys2Proof.Machine
end
